-- ==== Sys2Proof/Word.lean ====
section
/-! DEFINITION. The words of the machine: a byte, the 64-bit word of registers and addresses, the 512-bit beat. -/

namespace Sys2Proof

/-- A byte. -/
abbrev Byte := BitVec 8

/-- A 64-bit word (R8: bit 0 is the least significant bit). -/
abbrev Word := BitVec 64

/-- A 512-bit beat: a t register's value. -/
abbrev Beat := BitVec 512

end Sys2Proof
end

