-- ==== Sys2Proof/Machine/Tab.lean ====
section
/-! DEFINITION. Sparse tables: a list of (key, value) pairs with rising keys, in which a key that is not listed holds a
default value. Every indexed store of the machine (registers, memories, records) is one of these. -/

namespace Sys2Proof.Machine

/-- A sparse table: keys strictly rising, no listed value equal to the default. -/
abbrev Tab (α : Type) := List (Nat × α)

namespace Tab

variable {α : Type}

/-- The value at key `k`; `d` where the key is not listed. -/
def get (d : α) : Tab α → Nat → α
  | [], _ => d
  | (j, v) :: t, k => if j = k then v else get d t k

/-- The entry at key `k`, if it is listed. -/
def find? : Tab α → Nat → Option α
  | [], _ => none
  | (j, v) :: t, k => if j = k then some v else find? t k

/-- The table without key `k`. -/
def erase : Tab α → Nat → Tab α
  | [], _ => []
  | (j, v) :: t, k => if j = k then erase t k else (j, v) :: erase t k

/-- Insert a pair before the first greater key. -/
def insert : Tab α → Nat → α → Tab α
  | [], k, x => [(k, x)]
  | (j, v) :: t, k, x => if k < j then (k, x) :: (j, v) :: t else (j, v) :: insert t k x

/-- Write `x` at key `k`; a write of the default removes the entry. -/
def set [DecidableEq α] (d : α) (t : Tab α) (k : Nat) (x : α) : Tab α :=
  if x = d then erase t k else insert (erase t k) k x

/-- Write `x` at key `k`, whatever `x` is: the write of a table in which a key is either listed or absent. -/
def put (t : Tab α) (k : Nat) (x : α) : Tab α := insert (erase t k) k x

/-- The entries with `lo ≤ key < hi`, keys taken from `lo`. -/
def range (t : Tab α) (lo hi : Nat) : Tab α :=
  (t.filter (fun e => decide (lo ≤ e.1) && decide (e.1 < hi))).map (fun e => (e.1 - lo, e.2))

/-- Every key of the table is above `b`. -/
def above (b : Nat) : Tab α → Bool
  | [] => true
  | (j, _) :: t => decide (b < j) && above b t

/-- Keys strictly rising. -/
def sorted : Tab α → Bool
  | [] => true
  | (j, _) :: t => above j t && sorted t

/-- No listed value is the default of its key. -/
def noDefault [DecidableEq α] (d : Nat → α) : Tab α → Bool
  | [] => true
  | (j, v) :: t => !decide (v = d j) && noDefault d t

/-- The canonical form: two tables in it that read alike at every key are equal. -/
def wf [DecidableEq α] (d : Nat → α) (t : Tab α) : Bool := sorted t && noDefault d t

/-- Keep the entries whose key meets `p`. -/
def keep (p : Nat → Bool) : Tab α → Tab α
  | [] => []
  | (j, v) :: t => if p j then (j, v) :: keep p t else keep p t

/-- Rewrite every listed value; an entry that becomes the default of its key is dropped. -/
def mapVals [DecidableEq α] (d : Nat → α) (f : Nat → α → α) : Tab α → Tab α
  | [] => []
  | (j, v) :: t => if f j v = d j then mapVals d f t else (j, f j v) :: mapVals d f t

end Tab
end Sys2Proof.Machine
end

