-- ==== Sys2Proof/Machine/TypesFrank.lean ====
section
/-! DEFINITION. Data of Frank, of the tally engine and of start-up (chapters 15, 16 and 19). Plain data only. -/

namespace Sys2Proof.Machine

/-- A TALLY frame as the tally engine keeps it until it is acknowledged (R548, R551, Table 15-6). `deltas` is keyed
`11 p + q`, `q` in the order of Table 15-8. -/
structure TallyFrame where
  seq : Nat
  sync : Bool
  ticks : Nat
  deltas : Tab Nat
  deriving DecidableEq, Repr

/-- The tally engine on P0 (R548). -/
structure Tally where
  /-- P0 has power; the engine's own reset follows only from losing it. -/
  powered : Bool
  /-- the deltas of the ticks since the last frame was formed, keyed `11 p + q` -/
  deltas : Tab Nat
  ticks : Nat
  unacked : Option TallyFrame
  nextSeq : Nat
  /-- the next frame carries SYNC (first frame after the engine's reset) -/
  syncNext : Bool
  deriving DecidableEq, Repr

/-- A log entry of Table 15-10 (R561). -/
structure AuditEntry where
  code : Nat
  audit : Nat
  seq : Nat
  uptime : Nat
  deriving DecidableEq, Repr

/-- A record of the ring (R556, Tables 15-7 and 15-8). `totals` is keyed `11 p + q`. -/
structure FrankRecord where
  seq : Nat
  audit : Nat
  session : Nat
  uptime : Nat
  ignored : Nat
  energy : Nat
  flags : Nat
  tallyE : Nat
  utc : Nat
  utcAge : Nat
  tenants : Tab Nat
  totals : Tab Nat
  /-- an I3C read has fetched its last byte, or READ_RECORD has returned it (R559) -/
  read : Bool
  deriving DecidableEq, Repr

/-- One MRAM bank record (R565). -/
structure FrankBank where
  /-- MAGIC, LENGTH and CRC are right: false for a bank whose write was cut short -/
  valid : Bool
  sequence : Nat
  cause : Nat
  nextSeq : Nat
  audit : Nat
  ignored : Nat
  energy : Nat
  remainder : Nat
  tallyE : Nat
  tenants : Tab Nat
  totals : Tab Nat
  log : List AuditEntry
  deriving DecidableEq, Repr

/-- Frank (chapter 15). -/
structure Frank where
  /-- VDD_FRK is within its limits and a session runs -/
  powered : Bool
  energy : Nat
  /-- the energy remainder, in units of 2^-32 mJ (R543) -/
  remainder : Nat
  /-- work quantities, keyed `11 p + q` in the order of Table 15-8 -/
  totals : Tab Nat
  tenants : Tab Nat
  session : Nat
  uptime : Nat
  nextSeq : Nat
  tallyE : Nat
  audit : Nat
  ignored : Nat
  utc : Nat
  utcAge : Nat
  /-- flags of the running second (Table 15-9) -/
  flags : Nat
  /-- flags of the last record: an audit event marks only the first second of a run -/
  lastFlags : Nat
  /-- UNCLEAN, DEFAULTS, METER_FAIL: set in every record of the session -/
  sessionFlags : Nat
  /-- no frame applied since a TALLY_GAP -/
  gap : Bool
  /-- energy and intervals of the running millisecond, for the flags of R544 -/
  msEnergy : Nat
  msCount : Nat
  /-- the audit log, oldest first, at most 64 (R561) -/
  log : List AuditEntry
  /-- the ring, oldest first, at most 16 (R559) -/
  ring : List FrankRecord
  bankA : Option FrankBank
  bankB : Option FrankBank
  /-- the bank a write of this power-up went to last (true: B); its write may be cut short -/
  lastWrite : Option Bool
  /-- impulses due and not yet emitted (R545) -/
  pulses : Nat
  /-- impulses emitted since the session began -/
  pulsed : Nat
  /-- records stopped by PWRFAIL_L (R567) -/
  powerFail : Bool
  pointer : Nat
  recordSel : Nat
  logSel : Nat
  dynAddr : Option Nat
  ibi : Bool
  deriving DecidableEq, Repr

/-- A firmware image in a slot: what R531, R581 and R582 look at. -/
structure FwImage where
  /-- the signature, the key and the SVN pass R531 -/
  genuine : Bool
  svn : Nat
  keySlot : Nat
  build : Nat
  minor : Nat
  major : Nat
  /-- the digest R534 measures -/
  digest : BitVec 384
  deriving DecidableEq, Repr

/-- A non-empty firmware slot: its record's SEQUENCE and its image (R581). -/
structure FwSlot where
  sequence : Nat
  image : FwImage
  deriving DecidableEq, Repr

/-- A configuration bank (R588): valid, or holding no valid record. -/
structure CfgBank where
  sequence : Nat
  payload : List Byte
  deriving DecidableEq, Repr

/-- The boot flash and what the MC runs (R580 to R592). -/
structure Boot where
  bank0 : Option CfgBank
  bank1 : Option CfgBank
  slotA : Option FwSlot
  slotB : Option FwSlot
  /-- the running image and whether it came from slot B; `none` while the ROM runs -/
  running : Option FwImage
  fromSlot : Option Bool
  minSvn : Nat
  /-- the unique secret's copy in the ROM key store is present (R536) -/
  secret : Bool
  /-- the dies whose sites trained, before the zero pass -/
  sites : Nat
  /-- the Meadow dies online at the end of start-up (R689) -/
  startDies : Nat
  /-- Moor targets that have been UP since the reset: their space has been queued for zeroing (R596) -/
  moorSeen : Nat
  /-- payload of the configuration bank in use (measurement 4, R534); empty for factory defaults -/
  inUse : List Byte
  /-- the next warm reset also takes the cause ESCALATION (R630) -/
  escalate : Bool
  deriving DecidableEq, Repr

/-- The lands whose level the block depends on (R573 to R579, R597, R657, R665, R667). -/
structure Pins where
  pwrok : Bool
  pwrfailLow : Bool
  pwrbrkLow : Bool
  hostPerstLow : Bool
  /-- strap levels, in the bit places of SYS_STRAPS[11:0], and TESTMODE -/
  straps : Nat
  testmode : Bool
  frkAddr : Nat
  devReady : Bool
  devFaultLow : Bool
  thermAlertLow : Bool
  thermTripLow : Bool
  /-- HEATH ports whose PERST_L the device holds low -/
  perstLow : Nat
  /-- every die other than Frank is held in the state of R574 -/
  held : Bool
  deriving DecidableEq, Repr

end Sys2Proof.Machine
end

