-- ==== Sys2Proof/Machine/TypesCmd.lean ====
section
/-! DEFINITION. Operand types of commands. -/

namespace Sys2Proof.Machine

/-- The I3C common command codes Frank serves (R562). -/
inductive I3cCcc where
  | setdasa (addr : BitVec 7)
  | entdaa (addr : BitVec 7)
  | rstdaa
  | enec
  | disec
  | getstatus
  deriving DecidableEq, Repr

/-- What LINKS_DONE reports of one HEATH port: trained and enumerated or not, and its expanders' capacities in bytes, in
decoder order (R36, R281, R596). -/
structure HeathPortUp where
  port : Nat
  up : Bool
  /-- a device that is no Type-3 device answers on the port (R461) -/
  foreign : Bool
  decoders : List Nat
  deriving DecidableEq, Repr

/-- What a sector of the Meadow device reserve holds: device-owned state, or a table or page descriptor of a partition
(R689, Table 17-1). -/
inductive RsvUse where
  | device
  | table (partition : BitVec 5)
  deriving DecidableEq, Repr

/-- What a scrub read finds (R611 to R613): nothing, a correctable error, an uncorrectable one or a read that could not be
completed. `use` tells what a sector of the device reserve holds. -/
inductive ScrubFind where
  | clean
  | correctable
  | uncorrectable (use : RsvUse)
  deriving DecidableEq, Repr

/-- What the scrubber finds outside HBM4 (R346, R347, R349, R614): a data sector or the tag entry of a cache way, scratch
of an idle core, a sync-object value. `readable`: the state bits of a failed tag entry can be read. -/
inductive ArrayFind where
  | clean
  | dataCorrected
  | data (sector : BitVec 2)
  | tagCorrected
  | tag (readable : Bool)
  | scratchCorrected
  | scratch (core : BitVec 6)
  | syncCorrected
  | sync (object : BitVec 12)
  deriving DecidableEq, Repr

/-- A frame on an Ethernet port that carries a datagram for Courier. -/
structure RxFrame where
  /-- its FCS holds -/
  fcs : Bool
  /-- bytes from the destination address through the FCS -/
  size : BitVec 16
  /-- it found its lossy priority's share of the receive buffer full (R474) -/
  full : Bool
  /-- source IP address, and UDP destination port -/
  src : BitVec 128
  udp : BitVec 16
  /-- marked CE by a switch -/
  ce : Bool
  /-- the UDP payload -/
  bytes : List Byte
  deriving DecidableEq, Repr

/-- What the MC meets as it connects an NVMe set (R481). -/
inductive NvmeMeet where
  /-- RoCEv2 connection and Fabrics Connect succeed; Identify gives a namespace of `blocks` LBAs of `lba` bytes -/
  | found (blocks : BitVec 64) (lba : Nat)
  | unreachable
  | timeout
  deriving DecidableEq, Repr

/-- A write of a function's configuration space that no row of its own makes: Max Read Request Size in bytes, the upper
figure of the completion-timeout range in µs (R449), ATS, PRI and Relaxed Ordering enables, Outstanding Page Request
Allocation (R447), the address association ranges of an IDE stream, the DOE mailbox's Abort (R464). -/
inductive CfgWrite where
  | maxReadRequest (bytes : Nat)
  | completionTimeout (us : Nat)
  | ats (on : Bool)
  | pri (on : Bool)
  | relaxed (on : Bool)
  | pageAllocation (n : Nat)
  | ideAssociation (port stream : Nat) (ranges : List (Nat × Nat))
  | doeAbort
  deriving DecidableEq, Repr

/-- Where a register write goes: BAR0 of a function, at an offset with a size in bytes, or its configuration space. -/
inductive RegWrite where
  | bar0 (offset size : Nat) (value : Word)
  | config (w : CfgWrite)
  deriving DecidableEq, Repr

/-- How the flash ends a configuration command in progress (R592, Table 16-4): written and verified, or failed. -/
inductive FlashEnd where
  | verified
  | failed
  deriving DecidableEq, Repr

/-- An IEEE 1588 event message (R503): a Sync with the master's time of departure, and the path delay in ns. -/
inductive PtpMessage where
  | sync (domain : BitVec 8) (departed : Word) (delay : BitVec 32)
  | other
  deriving DecidableEq, Repr

end Sys2Proof.Machine
end

