-- ==== Sys2Proof/Machine/TypesPlan.lean ====
section
/-! DEFINITION. Tiles, rule tables, plans and loads (chapters 2 and 3). Plain data only. -/

namespace Sys2Proof.Machine

/-- The dispositions of R16. -/
inductive Disp where
  | keep | hold | press | spill | sink | regrow | ret | drop
  deriving DecidableEq, Repr

/-- The states of R17 and Table 2-3. -/
inductive TState where
  | resident | inFlight | lost | released
  deriving DecidableEq, Repr

/-- A home (Table 2-3 HOME): none, or a tier. -/
inductive Home where
  | none | meadow | heath | moor
  deriving DecidableEq, Repr

/-- A tile record (R46). HANDLE and TILE_INDEX are the record's key, SIZE_CODE is the object table's. -/
structure TileRec where
  disp : Disp
  state : TState
  home : Home
  compressible : Bool
  regrowOk : Bool
  returnOk : Bool
  compressed : Bool
  level : Nat
  replay : Bool
  uses : Nat
  step : Nat
  layer : Nat
  gen : Nat
  location : Nat
  stored : Nat
  rule : Nat
  /-- index of the Baler metadata entry; 0xFFFF_FFFF: none -/
  mta : Nat
  deriving DecidableEq, Repr

/-- A record as admission leaves it (R90). -/
def TileRec.fresh : TileRec :=
  { disp := .keep, state := .released, home := .none, compressible := false, regrowOk := false, returnOk := false
    compressed := false, level := 0, replay := false, uses := 0, step := 0, layer := 0, gen := 0, location := 0
    stored := 0, rule := 0, mta := 0 }

/-- A Sieve entry (Table 2-12). -/
structure SieveEntry where
  cls : Nat
  layerLo : Nat
  layerHi : Nat
  levelMask : Nat
  replayMatch : Nat
  disp : Disp
  compressible : Bool
  regrowOk : Bool
  returnOk : Bool
  latticeDisp : Bool
  uses : Nat
  balerRule : Nat
  placerRule : Nat
  recipe : Nat
  urgency : Nat
  deriving DecidableEq, Repr

/-- A Baler entry (Table 2-13); `params` is MODE_PARAMS. -/
structure BalerEntry where
  mode : Nat
  minRatio : Nat
  eps : BitVec 32
  params : Word
  deriving DecidableEq, Repr

/-- A Placer entry (Table 2-14). -/
structure PlacerEntry where
  policy : Nat
  fixedDie : Nat
  ovfDown : Bool
  ovfReturn : Bool
  deriving DecidableEq, Repr

/-- A lattice entry (Table 2-15). -/
structure LatEntry where
  lattice : Nat
  level : Nat
  forward : Bool
  disp : Disp
  stride : Nat
  stepNs : Nat
  deriving DecidableEq, Repr

/-- A Tedder recipe: its four words (Table 7-8). -/
structure Recipe where
  words : List Nat
  deriving DecidableEq, Repr

/-- A rule-table set of one generation (R87). -/
structure RuleSet where
  gen : Nat
  sieve : List SieveEntry
  baler : List BalerEntry
  placer : List PlacerEntry
  recipes : List Recipe
  lattice : List LatEntry
  deriving DecidableEq, Repr

/-- An object table entry (Table 3-4). -/
structure ObjEntry where
  index : Nat
  sizeCode : Nat
  cls : Nat
  lattice : Option Nat
  tiles : Nat
  recordBase : Nat
  deriving DecidableEq, Repr

/-- A schedule entry (Table 3-5). -/
structure SchedEntry where
  obj : Nat
  first : Nat
  change : Bool
  count : Nat
  layer : Nat
  step : Nat
  epoch : Nat
  endEpoch : Nat
  replay : Bool
  newDisp : Disp
  deriving DecidableEq, Repr

/-- An override (R106): schedule entry, disposition, rung. -/
structure Override where
  entry : Nat
  disp : Disp
  rung : Nat
  deriving DecidableEq, Repr

/-- A plan as the MC admitted it. -/
structure Plan where
  format : Nat
  ulital : Nat
  policy : Nat
  epochs : Nat
  cores : Nat
  entryPc : Nat
  areaBase : Nat
  areaSize : Nat
  imageAddr : Nat
  imageSize : Nat
  codeBase : Nat
  codeSize : Nat
  data : List Byte
  objects : List ObjEntry
  rules : RuleSet
  schedule : List SchedEntry
  overrides : List Override
  /-- device virtual address of the Baler metadata reserve (R259) -/
  metaBase : Nat
  /-- SHA-384 over the image (R535) -/
  digest : BitVec 384
  deriving DecidableEq, Repr

/-- The outcome a load in progress will publish (R94, R108). -/
structure Load where
  reason : Nat
  plan : Option Plan
  /-- words 0 to 6 of the report -/
  report : List Nat
  /-- a quota or PART_INTAKE_WINDOW changed during VERIFYING (Table 3-7) -/
  changed : Bool
  deriving DecidableEq, Repr

/-- The plan side of a partition: its admitted plan, its epoch, rule tables and walk state. -/
structure PlanState where
  plan : Option Plan
  epoch : Nat
  active : Option RuleSet
  staged : Option RuleSet
  load : Option Load
  deriving DecidableEq, Repr

def PlanState.empty : PlanState := { plan := none, epoch := 0, active := none, staged := none, load := none }

end Sys2Proof.Machine
end

