-- ==== Sys2Proof/Machine/TypesCore.lean ====
section
/-! DEFINITION. Data of the Sorter cores and of engine work (chapters 4, 5 and 10). Plain data only. -/

namespace Sys2Proof.Machine

/-- A hardware error an instruction meets, supplied by the outside: none; an uncorrectable error in the fetched line, in a
register file (0 g, 1 t, 2 p), in scratch; a Heath read that fails or times out (R141, R152). -/
inductive CoreErr where
  | none
  | code
  | regfile (file : BitVec 2)
  | scratch
  | heathRead
  deriving DecidableEq, Repr

/-- The operation a sync-object update performs (R209, R389). -/
inductive SoOp where
  | add | set | max | or
  deriving DecidableEq, Repr

/-- A blocked WAIT (R148, R208). -/
structure WaitRec where
  so : Nat
  cmp : Nat
  x : Word
  timeout : Nat
  rd : Nat
  deriving DecidableEq, Repr

/-- What a work item does (Table 5-12, and the work the device issues itself). -/
inductive Work where
  /-- MOVE INTAKE (R192) -/
  | intake (step layer : Nat) (replay nodata : Bool)
  /-- a tile that arrives by a Courier PUT on a connection, under a transaction (R497) -/
  | put (conn txn step layer : Nat) (replay : Bool)
  /-- MOVE COPY (R192) -/
  | copy
  /-- MOVE SEND over a Courier connection (R193) -/
  | send (conn remote : Nat)
  /-- PRESS: MODE, EPS and MIN_RATIO of RB (R194) -/
  | press (mode eps ratio : Nat)
  | unpress
  | spill (toMoor : Bool)
  | fetch (form : Nat)
  /-- FETCH RECALL (R197) -/
  | recallWork (conn remote : Nat)
  | teddOp (op param : Nat)
  | regrow
  | layout (perm : Nat)
  | deliver (readback : Bool)
  | lattice (step : Nat) (readback : Bool)
  | notify
  | drop
  | relabel (disp : Disp)
  /-- a chain descriptor of a CHAIN channel: its eight words, then its address in the form of word 4 (R355) -/
  | chain (words : List Nat)
  /-- a tile movement the device starts itself: watermark, prefetch, loss -/
  | move (target : Home)
  /-- a granule movement: hint, MIGRATE, window -/
  | granule (va : Nat) (target : Home)
  deriving DecidableEq, Repr

/-- Who started an item. -/
inductive Origin where
  /-- an engine instruction -/
  | plan
  /-- a chain channel -/
  | chain
  /-- a far device over Courier, under a transaction -/
  | courier (trans : Nat)
  | hint
  /-- the watermark of a tier -/
  | watermark (tier : Nat)
  /-- stream s of the partition (R309, R315) -/
  | stream (s : Nat)
  /-- the MIGRATE command in the set `set` (R300) -/
  | migrate (set : Nat)
  /-- walker w (R410) -/
  | walker (w : Nat)
  /-- a DELIVER of a REGROW tile (section 2.7) -/
  | delivery
  deriving DecidableEq, Repr

/-- Where an item stands on its way. -/
inductive Stage where
  /-- gated: in the core's gate list (R188) -/
  | gated
  /-- released or ungated: in the core's issue queue -/
  | queued
  /-- stalled at the Placer (R115) -/
  | stalled
  /-- waiting at the Placer behind PART_INTAKE_WINDOW (R99) -/
  | windowed
  /-- waiting for the tile to be RESIDENT again (R61) -/
  | deferred
  /-- waiting for a destination reservation (R118) -/
  | reserving
  /-- waiting for the Meadow reservation of a write-back notice (R440) -/
  | noticeReserve
  /-- waiting for ring space (R76) -/
  | notice
  /-- its notice is written: waiting for DONE_SO (R198) -/
  | awaiting
  /-- in a channel's or engine's queue -/
  | placed
  /-- on its channel or engine -/
  | running
  /-- parked on its channel (R367) -/
  | parked
  /-- its read-back is outstanding (R368) -/
  | readback
  /-- waiting for the far device (R193, R197) -/
  | remote
  /-- waiting for a translation or a page response (R445, R447) -/
  | ats
  deriving DecidableEq, Repr

/-- A masked write of an owner-block run on the far device (R499). -/
structure OwnerWr where
  conn : Nat
  addr : Nat
  bytes : List Byte
  firstMask : Nat
  lastMask : Nat
  /-- image bytes written before this request, for RESIDUE -/
  before : Nat
  deriving DecidableEq, Repr

/-- A work item (R130, R147, R185 to R190). -/
structure Item where
  id : Nat
  part : Nat
  origin : Origin
  /-- the issuing core; 0 where there is none -/
  core : Nat
  ticket : Nat
  /-- the g register that receives the ticket -/
  rd : Nat
  work : Work
  /-- object and tile index of the tile word -/
  obj : Nat
  tile : Nat
  peer : Nat
  urg : Nat
  deadline : Nat
  cso : Option Nat
  /-- gate object and threshold -/
  gate : Option (Nat × Nat)
  ta : Beat
  ta2 : Beat
  tb : Beat
  stage : Stage
  /-- the front of the work (Intake, the home slice, an engine) has taken it -/
  started : Bool
  /-- the channel it runs on, and its lease epoch when the item was placed -/
  channel : Option Nat
  epoch : Nat
  /-- the item keeps its tile IN_FLIGHT (R60) -/
  flight : Bool
  /-- the Meadow die of its engine work -/
  die : Nat
  /-- it waits for, or runs on, a context: false Baler, true Tedder (R245, R272) -/
  want : Option Bool
  /-- the Baler contexts (4 u + c) or Tedder context (128 + 4 u + c) it holds, each with its lease epoch -/
  ctxs : List (Nat × Nat)
  /-- rule tables its intake uses (R51) -/
  rules : Option RuleSet
  /-- the record as it was before an intake -/
  before : Option TileRec
  /-- reserved home, location and bytes of a destination not committed -/
  resv : Option (Home × Nat × Nat)
  /-- final disposition the Placer or the request decided -/
  disp : Disp
  /-- the work's commit is done, or its end is known: status and residue -/
  ended : Option (Nat × Nat)
  /-- external reads of the source, in generation order: address and length -/
  runs : List (Nat × Nat)
  /-- the burst each of them belongs to (R362) -/
  bursts : List Nat
  /-- requests issued -/
  issued : Nat
  /-- bit k: request k has been answered -/
  got : Nat
  /-- bytes received, by bus address -/
  src : Tab Byte
  /-- the first request that failed, and its status -/
  bad : Option (Nat × Nat)
  /-- owner-block writes not yet sent, and the first that failed: image bytes before it and its status -/
  writes : List OwnerWr
  wrBad : Option (Nat × Nat)
  /-- a read-back has confirmed the writes -/
  confirmed : Bool
  /-- the data a destination holds before the commit: stored bytes, compressed, metadata index -/
  laid : Option (Nat × Bool × Nat)
  /-- it has begun on its channel or engine -/
  begun : Bool
  /-- Moor transfers not yet sent: write, location, bytes (R685) -/
  blocks : List (Bool × Nat × Nat)
  /-- the tiles of a lattice delivery -/
  tiles : List Nat
  /-- DONE_VALUE of an outstanding notice of this DELIVER (R198) -/
  doneValue : Option Nat
  /-- unit faults met (R274) -/
  faults : Nat
  /-- TIME at which the present wait began -/
  since : Nat
  /-- it has waited 100 µs at a resource (R403) -/
  aged : Bool
  /-- the lease epoch of the ring a descriptor's records go to, when it was read (R518); none: they go to ERR_RING -/
  ringEpoch : Option Nat
  deriving DecidableEq, Repr

/-- An item not yet issued. -/
def Item.blank (part : Nat) (work : Work) : Item :=
  { id := 0, part, origin := .plan, core := 0, ticket := 0, rd := 0, work, obj := 0, tile := 0, peer := 0, urg := 2
    deadline := 0, cso := none, gate := none, ta := 0, ta2 := 0, tb := 0, stage := .queued, started := false
    channel := none, epoch := 0, flight := false, die := 0, want := none, ctxs := [], rules := none, before := none, resv := none, disp := .keep, ended := none
    runs := [], bursts := [], issued := 0, got := 0, src := [], bad := none, writes := [], wrBad := none, confirmed := false, laid := none, begun := false, blocks := [], tiles := [], doneValue := none
    faults := 0, since := 0, aged := false, ringEpoch := none }

/-- A store to a Heath home that has not left the store buffer for good (R141). -/
structure BufStore where
  va : Nat
  bytes : List Byte
  deriving DecidableEq, Repr

/-- The part of a core's state that no register or memory holds. -/
structure CoreRec where
  wait : Option WaitRec
  /-- the item of an issue that stalls (R144) -/
  stalled : Option Item
  stores : List BufStore
  /-- address of a pending ASYNC_STORE (R141) -/
  async : Option Nat
  /-- tickets of deferred ILLEGAL_DISP traps pending, oldest first (R146) -/
  deferred : List Nat
  /-- the second trap's code of a DOUBLE (R153) -/
  doubleValue : Nat
  deriving DecidableEq, Repr

def CoreRec.idle : CoreRec :=
  { wait := none, stalled := none, stores := [], async := none, deferred := [], doubleValue := 0 }

end Sys2Proof.Machine
end

