-- ==== Sys2Proof/Machine/Bytes.lean ====
section
/-! DEFINITION. Byte strings: little-endian fields (R7), slices, CRC-32C. -/

namespace Sys2Proof.Machine

/-- The `k` low bytes of `v`, least significant first (R7). -/
def leBytes : Nat → Nat → List Byte
  | 0, _ => []
  | k + 1, v => BitVec.ofNat 8 v :: leBytes k (v / 256)

/-- The number a little-endian byte string spells (R7). -/
def ofLe : List Byte → Nat
  | [] => 0
  | b :: t => b.toNat + 256 * ofLe t

/-- The `k` low bytes of `v`, most significant first (network order, R7). -/
def beBytes (k v : Nat) : List Byte := (leBytes k v).reverse

/-- `n` bytes of `b` from offset `o`; bytes past the end read 0. -/
def bytesAt (b : List Byte) (o n : Nat) : List Byte :=
  let x := (b.drop o).take n
  x ++ List.replicate (n - x.length) 0

/-- The little-endian field of `n` bytes at offset `o`. -/
def fieldAt (b : List Byte) (o n : Nat) : Nat := ofLe (bytesAt b o n)

/-- The field of `n` bytes in network byte order at offset `o`. -/
def beField (b : List Byte) (o n : Nat) : Nat := ofLe (bytesAt b o n).reverse

/-- One bit of the CRC-32C register: the reflected polynomial 0x82F63B78 (PRESUMED the Castagnoli CRC, log entry 5). -/
def crcBit (c : BitVec 32) : BitVec 32 :=
  if c.getLsbD 0 then (c >>> 1) ^^^ 0x82F63B78#32 else c >>> 1

/-- One byte into the CRC-32C register. -/
def crcByte (c : BitVec 32) (b : Byte) : BitVec 32 :=
  crcBit (crcBit (crcBit (crcBit (crcBit (crcBit (crcBit (crcBit (c ^^^ b.setWidth 32))))))))

/-- CRC-32C of a byte string (R79, R551, R565, R588, R624). -/
def crc32c (bs : List Byte) : BitVec 32 :=
  ~~~ bs.foldl crcByte 0xFFFFFFFF#32

/-- Every byte of the string is 0. -/
def allZero (bs : List Byte) : Bool := bs.all (· == 0)

/-- `n` truncated to `w` bits. -/
def low (w n : Nat) : Nat := n % 2 ^ w

/-- Bits `lo` to `lo + w - 1` of `n`. -/
def bitsOf (n lo w : Nat) : Nat := n / 2 ^ lo % 2 ^ w

/-- Bit `i` of `n`. -/
def bitOf (n i : Nat) : Bool := n.testBit i

/-- 1 for true, 0 for false. -/
def b2n (b : Bool) : Nat := if b then 1 else 0

/-- The number of set bits among bits 0 to `k - 1` of `n`. -/
def popcount : Nat → Nat → Nat
  | 0, _ => 0
  | k + 1, n => b2n (n.testBit k) + popcount k n

/-- `n` rounded up to a multiple of `m`, in units of `m`. -/
def ceilDiv (n m : Nat) : Nat := (n + (m - 1)) / m

/-- Addition that stops at `2 ^ w - 1` (R682, a counter marked saturating). -/
def satAdd (w a b : Nat) : Nat := min (a + b) (2 ^ w - 1)

/-- Replace element `i` of a list by `x`. -/
def setAt {α : Type} : List α → Nat → α → List α
  | [], _, _ => []
  | _ :: t, 0, x => x :: t
  | h :: t, i + 1, x => h :: setAt t i x

end Sys2Proof.Machine
end

