-- ==== Sys2Proof/Machine/TypesCrr.lean ====
section
/-! DEFINITION. Data of the Ethernet ports: Courier connections, NVMe sets, flow control, the TIME discipline (chapter 13).
Plain data only. -/

namespace Sys2Proof.Machine

/-- A Courier packet (Table 13-5). `typ`: 1 DATA, 2 ACK, 3 SACK, 4 OPEN, 5 OPEN_ACK, 6 CLOSE, 7 CLOSE_ACK. -/
structure Packet where
  ver : Nat
  typ : Nat
  first : Bool
  last : Bool
  ackValid : Bool
  ece : Bool
  cls : Nat
  dstConn : Nat
  srcConn : Nat
  dstGen : Nat
  srcGen : Nat
  psn : Nat
  ack : Nat
  opcode : Nat
  trans : Nat
  offset : Nat
  payload : List Byte
  deriving DecidableEq, Repr

/-- The Courier header of a packet, in network byte order (Table 13-5). -/
def Packet.header (p : Packet) : List Byte :=
  beBytes 1 (p.ver * 16 + p.typ) ++
  beBytes 1 (b2n p.first * 128 + b2n p.last * 64 + b2n p.ackValid * 32 + b2n p.ece * 16 + p.cls * 4) ++
  beBytes 2 p.dstConn ++ beBytes 2 p.srcConn ++ beBytes 1 p.dstGen ++ beBytes 1 p.srcGen ++
  beBytes 3 p.psn ++ beBytes 1 0 ++ beBytes 3 p.ack ++ beBytes 1 0 ++ beBytes 2 p.payload.length ++
  beBytes 1 p.opcode ++ beBytes 1 0 ++ beBytes 4 p.trans ++ beBytes 8 p.offset

/-- A packet as it travels: header, payload, and the CRC-32C over both (R483). -/
def Packet.bytes (p : Packet) : List Byte :=
  p.header ++ p.payload ++ beBytes 4 (crc32c (p.header ++ p.payload)).toNat

/-- Read a datagram: the packet, or none where it is too short or its CRC does not hold (R483). -/
def Packet.parse (b : List Byte) : Option Packet :=
  let n := b.length - 4
  let h := b.take 32
  let g (o k : Nat) : Nat := beField h o k
  if b.length < 36 then none
  else if beField b n 4 ≠ (crc32c (b.take n)).toNat then none
  else
    let f := g 1 1
    some {
      ver := g 0 1 / 16, typ := g 0 1 % 16, first := f.testBit 7, last := f.testBit 6, ackValid := f.testBit 5
      ece := f.testBit 4, cls := f / 4 % 4, dstConn := g 2 2, srcConn := g 4 2, dstGen := g 6 1, srcGen := g 7 1
      psn := g 8 3, ack := g 12 3, opcode := g 18 1, trans := g 20 4, offset := g 24 8, payload := (b.take n).drop 32 }

/-- The reserved fields of a header are zero and PAYLOAD_LEN is the length of what follows (Table 13-5). -/
def headerSound (b : List Byte) : Bool :=
  beField b 1 1 % 4 == 0 && beField b 11 1 == 0 && beField b 15 1 == 0 && beField b 19 1 == 0 &&
  beField b 16 2 + 36 == b.length

/-- The envelope of a Courier datagram (R471, R472, R482). -/
structure Wire where
  /-- next-hop MAC address -/
  mac : Nat
  srcIp : Nat
  dstIp : Nat
  srcPort : Nat
  dstPort : Nat
  dscp : Nat
  ip6 : Bool
  /-- VID and PCP of an 802.1Q tag -/
  tag : Option (Nat × Nat)
  deriving DecidableEq, Repr

/-- A message put together from DATA packets: complete when `done`. -/
structure Rx where
  trans : Nat
  opcode : Nat
  cls : Nat
  /-- 32-byte message header and the data after it -/
  bytes : List Byte
  done : Bool
  /-- a packet failed check 5 of R485 -/
  bad : Bool
  deriving DecidableEq, Repr

/-- A request this end has sent and awaits the response of. -/
structure CrrReq where
  trans : Nat
  opcode : Nat
  /-- the item it serves and, for an owner access, the request's index -/
  item : Nat
  k : Nat
  since : Nat
  deriving DecidableEq, Repr

/-- A tile this end holds IN_FLIGHT under R497 until CONFIRM, by the PUT's transaction. -/
structure HeldTile where
  trans : Nat
  obj : Nat
  tile : Nat
  deriving DecidableEq, Repr

/-- A connection: its configuration (Table 13-11) and its two directions (section 13.6). -/
structure Conn where
  remote : Nat
  verMax : Nat
  wMax : Nat
  replayKib : Nat
  respS : Nat
  cookie : Nat
  exportBase : Nat
  exportBlocks : Nat
  remoteIp : Nat
  mac : Nat
  /-- negotiated: window, payload limit, the far generation -/
  w : Nat
  limit : Nat
  farGen : Nat
  isn : Nat
  /-- U, the next postmark to issue, E -/
  u : Nat
  next : Nat
  e : Nat
  /-- packets not yet acknowledged, oldest first; packets that wait for the window -/
  replay : List Packet
  waiting : List Packet
  /-- postmarks a SACK covers -/
  sacked : List Nat
  /-- U for which the immediate retransmission of R492 has been made -/
  early : Option Nat
  /-- new packets received out of order (v2) -/
  reorder : List Packet
  rx : List Rx
  /-- in-order packets not yet acknowledged -/
  unacked : Nat
  reqs : List CrrReq
  nextTrans : Nat
  held : List HeldTile
  /-- tiles released whose CONFIRM is not yet acknowledged -/
  confirms : List HeldTile
  /-- a CE-marked packet has arrived since the last ACK (R477) -/
  ceSeen : Bool
  /-- CLOSEs sent, while CLOSING or torn down by revocation -/
  closes : Nat
  /-- a connection command waits for OPEN_ACK: the function's partition and TIME of its start -/
  cmd : Option (Nat × Nat)
  /-- TIME of the last DATA sent -/
  lastSent : Nat
  deriving DecidableEq, Repr

/-- A CLOSED connection nobody has opened. -/
def Conn.closed : Conn :=
  { remote := 0, verMax := 0, wMax := 0, replayKib := 0, respS := 0, cookie := 0, exportBase := 0, exportBlocks := 0
    remoteIp := 0, mac := 0, w := 0, limit := 0, farGen := 0, isn := 0, u := 0, next := 0, e := 0, replay := []
    waiting := [], sacked := [], early := none, reorder := [], rx := [], unacked := 0, reqs := [], nextTrans := 0
    held := [], confirms := [], ceSeen := false, closes := 0, cmd := none, lastSent := 0 }

/-- What an NVMe command does for the Moor (R479). -/
structure NvmeCmd where
  set : Nat
  target : Nat
  /-- the item, or none for a zeroing write -/
  item : Option Nat
  write : Bool
  /-- first block and blocks -/
  lba : Nat
  count : Nat
  since : Nat
  /-- bytes the target has fetched or placed -/
  moved : Nat
  /-- retries of the transport (R480) -/
  retries : Nat
  deriving DecidableEq, Repr

/-- A namespace: its size in 4 KiB blocks, and whether an LBA is 512 bytes (R479). -/
structure Namespace where
  blocks : Nat
  lba512 : Bool
  deriving DecidableEq, Repr

/-- The Ethernet ports' state that no register holds. -/
structure EthState where
  conns : Tab Conn
  /-- outstanding NVMe commands, keyed by their number -/
  nvme : Tab NvmeCmd
  nextCmd : Nat
  /-- priorities paused, a mask per port, and those whose pauses are not honoured -/
  paused : Tab Nat
  storm : Tab Nat
  /-- rates of flows in Mb/s, connection `c` and NVMe set `4096 + n`; an unlisted flow runs at the line rate (R477) -/
  flows : Tab Nat
  /-- namespaces of the sets, as Identify gave them at the last connection -/
  ns : Tab Namespace
  /-- the PTP servo: consecutive intervals within 100 ns, and whether TIME has been stepped -/
  within : Nat
  stepped : Bool
  deriving DecidableEq, Repr

def EthState.initial : EthState :=
  { conns := [], nvme := [], nextCmd := 0, paused := [], storm := [], flows := [], within := 0, stepped := false, ns := [] }

end Sys2Proof.Machine
end

