-- ==== Sys2Proof/Syntax.lean ====
section
/-! DEFINITION. The commands of the block: one constructor per row of spec/opcode_table.json, in the table's order. An
operand is what the row's rule says the command carries; an event of the outside world carries what the outside
supplies (data read from a peer, a link's outcome, a sensor's reading). -/

namespace Sys2Proof

open Sys2Proof.Machine

/-- A command of the block. -/
inductive Instr where
  /-- ALU (R172). A register ALU instruction computes RD from two g registers. -/
  | alu (core : BitVec 6) (word : Word) (err : CoreErr)
  /-- ALUI (R172). An immediate ALU instruction computes RD from a g register and a sign-extended immediate. -/
  | alui (core : BitVec 6) (word : Word) (err : CoreErr)
  /-- MOVI (R173). MOVI writes the sign-extended immediate to RD. -/
  | movi (core : BitVec 6) (word : Word) (err : CoreErr)
  /-- MOVHI (R173). MOVHI replaces the upper 32 bits of RD with the immediate. -/
  | movhi (core : BitVec 6) (word : Word) (err : CoreErr)
  /-- MUL (R174). MUL, MULHU or MULH computes part of a 128-bit product. -/
  | mul (core : BitVec 6) (word : Word) (err : CoreErr)
  /-- DIV (R174). DIVU, DIV, REMU or REM divides, and traps DIVIDE on a zero divisor. -/
  | div (core : BitVec 6) (word : Word) (err : CoreErr)
  /-- CMP (R175). A register compare writes a predicate. -/
  | cmp (core : BitVec 6) (word : Word) (err : CoreErr)
  /-- CMPI (R175). An immediate compare writes a predicate. -/
  | cmpi (core : BitVec 6) (word : Word) (err : CoreErr)
  /-- PRED (R176). A predicate operation (PAND to SETP) updates predicates or a g register. -/
  | pred (core : BitVec 6) (word : Word) (err : CoreErr)
  /-- BRA (R177). A PC-relative branch. -/
  | bra (core : BitVec 6) (word : Word) (err : CoreErr)
  /-- CALL (R177). A PC-relative call that writes the link register. -/
  | call (core : BitVec 6) (word : Word) (err : CoreErr)
  /-- JR (R178). A register-indirect jump; an invalid target takes FETCH_RANGE at the fetch. -/
  | jr (core : BitVec 6) (word : Word) (err : CoreErr)
  /-- CALLR (R177). A register-indirect call that writes the link register. -/
  | callr (core : BitVec 6) (word : Word) (err : CoreErr)
  /-- SLOAD (R180). A scratch load at a local address. -/
  | sload (core : BitVec 6) (word : Word) (err : CoreErr)
  /-- SSTORE (R180). A scratch store at a local address; a store into the ticket table traps. -/
  | sstore (core : BitVec 6) (word : Word) (err : CoreErr)
  /-- LOAD (R136). A device-memory load through translation and the LLC. -/
  | load (core : BitVec 6) (word : Word) (err : CoreErr)
  /-- STORE (R136). A device-memory store enters the store buffer after translation checks. -/
  | store (core : BitVec 6) (word : Word) (err : CoreErr)
  /-- AMO (R181). An atomic read-modify-write at the home slice. -/
  | amo (core : BitVec 6) (word : Word) (err : CoreErr)
  /-- CSRR (R182). Reads a core CSR into RD. -/
  | csrr (core : BitVec 6) (word : Word) (err : CoreErr)
  /-- CSRW (R182). Writes a writable core CSR. -/
  | csrw (core : BitVec 6) (word : Word) (err : CoreErr)
  /-- TLD (R183). Loads a t register from 64 bytes of scratch. -/
  | tld (core : BitVec 6) (word : Word) (err : CoreErr)
  /-- TST (R183). Stores a t register to 64 bytes of scratch. -/
  | tst (core : BitVec 6) (word : Word) (err : CoreErr)
  /-- TMOV (R183). Copies one t register to another. -/
  | tmov (core : BitVec 6) (word : Word) (err : CoreErr)
  /-- TZERO (R183). Clears a t register. -/
  | tzero (core : BitVec 6) (word : Word) (err : CoreErr)
  /-- TSET (R183). Writes a bit field of a t register from a g register. -/
  | tset (core : BitVec 6) (word : Word) (err : CoreErr)
  /-- TGET (R183). Reads a bit field of a t register into a g register. -/
  | tget (core : BitVec 6) (word : Word) (err : CoreErr)
  /-- TLDD (R183). Loads a t register from device memory. -/
  | tldd (core : BitVec 6) (word : Word) (err : CoreErr)
  /-- TSTD (R183). Stores a t register to device memory. -/
  | tstd (core : BitVec 6) (word : Word) (err : CoreErr)
  /-- MOVE_INTAKE (R192). Issues an intake of a tile from a peer into Intake with the given attributes. -/
  | moveIntake (core : BitVec 6) (word : Word) (err : CoreErr)
  /-- MOVE_COPY (R192). Issues a descriptor-to-descriptor copy that creates no tile record. -/
  | moveCopy (core : BitVec 6) (word : Word) (err : CoreErr)
  /-- MOVE_SEND (R193). Issues the move of a local tile to a remote device over Courier. -/
  | moveSend (core : BitVec 6) (word : Word) (err : CoreErr)
  /-- PRESS (R194). Requests HOLD to PRESS and compresses the tile. -/
  | press (core : BitVec 6) (word : Word) (err : CoreErr)
  /-- UNPRESS (R195). Requests PRESS to HOLD and reserves raw size in Meadow. -/
  | unpress (core : BitVec 6) (word : Word) (err : CoreErr)
  /-- SPILL (R196). Requests a demotion of a tile to Heath or Moor. -/
  | spill (core : BitVec 6) (word : Word) (err : CoreErr)
  /-- FETCH (R196). Requests a promotion of a tile by one tier or into Meadow. -/
  | fetch (core : BitVec 6) (word : Word) (err : CoreErr)
  /-- FETCH_RECALL (R197). Asks a remote device to send back a tile held there. -/
  | fetchRecall (core : BitVec 6) (word : Word) (err : CoreErr)
  /-- TEDD_OP (R201). Issues one Tedder library operation. -/
  | teddOp (core : BitVec 6) (word : Word) (err : CoreErr)
  /-- TEDD_REGROW (R201). Requests REGROW to HOLD ahead of delivery. -/
  | teddRegrow (core : BitVec 6) (word : Word) (err : CoreErr)
  /-- LAYOUT (R202). Issues a permuting copy through an LTE. -/
  | layout (core : BitVec 6) (word : Word) (err : CoreErr)
  /-- DELIVER (R198). Issues delivery of a tile to a peer, writing a notice for a RETURN tile. -/
  | deliver (core : BitVec 6) (word : Word) (err : CoreErr)
  /-- DELIVER_LATTICE (R199). Issues delivery of every resident tile of an object at one step. -/
  | deliverLattice (core : BitVec 6) (word : Word) (err : CoreErr)
  /-- NOTIFY (R200). Issues one notice entry to a peer's notice ring. -/
  | notify (core : BitVec 6) (word : Word) (err : CoreErr)
  /-- TILE_DROP (R203). Requests the transition of a tile to DROP. -/
  | tileDrop (core : BitVec 6) (word : Word) (err : CoreErr)
  /-- TILE_RELABEL (R203). Requests relabelling a stored tile as REGROW or RETURN. -/
  | tileRelabel (core : BitVec 6) (word : Word) (err : CoreErr)
  /-- RSTAGE (R204). Stages a new rule-table generation and writes a result code. -/
  | rstage (core : BitVec 6) (word : Word) (err : CoreErr)
  /-- EADV (R206). Compare-and-advance of the partition epoch, activating a staged generation. -/
  | eadv (core : BitVec 6) (word : Word) (err : CoreErr)
  /-- WAIT (R208). Blocks the core until a sync object meets a comparison or the timeout expires. -/
  | wait (core : BitVec 6) (word : Word) (err : CoreErr)
  /-- SIGNAL (R209). Sends ADD, SET, MAX or OR to a sync object once the store buffer has drained. -/
  | signal (core : BitVec 6) (word : Word) (err : CoreErr)
  /-- SREAD (R210). Reads a sync object's value. -/
  | sread (core : BitVec 6) (word : Word) (err : CoreErr)
  /-- FENCE (R141). Waits until earlier stores or engine work selected by the mask complete. -/
  | fence (core : BitVec 6) (word : Word) (err : CoreErr)
  /-- HALT (R212). Halts the core with cause 1 and writes SRT_EXIT. -/
  | halt (core : BitVec 6) (word : Word) (err : CoreErr)
  /-- BRK (R212). Takes trap BREAK with the immediate. -/
  | brk (core : BitVec 6) (word : Word) (err : CoreErr)
  /-- TRET (R212). Returns from a trap handler. -/
  | tret (core : BitVec 6) (word : Word) (err : CoreErr)
  /-- STALLED_ISSUE_PROCEEDS (R144). A stalled issue completes once queue room and a free slot exist. -/
  | stalledIssueProceeds (core : BitVec 6)
  /-- ISSUE_TIMEOUT (R145). A stalled issue reaches SRT_ISSUE_TIMEOUT and traps precisely. -/
  | issueTimeout (core : BitVec 6)
  /-- DEFERRED_DISP_CHECK (R61). A deferred disposition request is checked once its tile is RESIDENT again. -/
  | deferredDispCheck (item : Nat)
  /-- ASYNC_STORE_FAIL (R141). A store to a Heath home fails after leaving the store buffer, so an imprecise trap is pending. -/
  | asyncStoreFail (core : BitVec 6)
  /-- GATE_TIMEOUT (R188). A gated item not released within SRT_ISSUE_TIMEOUT ends GATE_TIMEOUT. -/
  | gateTimeout (item : Nat)
  /-- WAIT_TIMEOUT (R148). A blocked WAIT's timeout expires and writes outcome 1. -/
  | waitTimeout (core : BitVec 6)
  /-- SYNC_OBJECT_UPDATE (R393). An operation takes effect at a sync object and every waiter is evaluated. -/
  | syncObjectUpdate (object : BitVec 12) (op : SoOp) (value : Word)
  /-- DOORBELL_SET (R389). A BAR2 write to offset 0x00 performs SET on the object. -/
  | doorbellSet (fn : Nat) (object : BitVec 12) (value : Word) (short : Bool)
  /-- DOORBELL_ADD (R389). A BAR2 write to offset 0x08 performs ADD on the object. -/
  | doorbellAdd (fn : Nat) (object : BitVec 12) (value : Word) (short : Bool)
  /-- DOORBELL_MAX (R389). A BAR2 write to offset 0x10 performs MAX on the object. -/
  | doorbellMax (fn : Nat) (object : BitVec 12) (value : Word) (short : Bool)
  /-- DOORBELL_OR (R389). A BAR2 write to offset 0x18 performs OR on the object. -/
  | doorbellOr (fn : Nat) (object : BitVec 12) (value : Word) (short : Bool)
  /-- BAD_WRITE (R390). A BAR2 access of another form is dropped or reads 0. -/
  | badWrite (fn : Nat) (read : Bool) (bytes : Nat)
  /-- SRT_START (R123). Host START moves an IDLE core to RUNNING at ENTRY_PC, or is refused. -/
  | srtStart (core : BitVec 6)
  /-- HALT_REQ (R125). Host halt request halts the core at the next instruction boundary. -/
  | haltReq (core : BitVec 6)
  /-- SRT_RESUME (R125). Host RESUME returns a core halted by HALT_REQ to RUNNING. -/
  | srtResume (core : BitVec 6)
  /-- SRT_DBG_READ (R161). A read of SRT_DBG_DATA returns core state and advances SRT_DBG_ADDR. -/
  | srtDbgRead (fn : Nat) (core : BitVec 6)
  /-- STALL_RETRY (R117). A stalled tile retries its reservation when occupancy falls. -/
  | stallRetry (partition : BitVec 5) (tier : BitVec 2)
  /-- INTAKE_COMMIT (R54). The Placer commits a stored tile, trims the reservation and writes the metadata entry. -/
  | intakeCommit (item : Nat)
  /-- INTAKE_WRITE_FAULT (R60). A write error before commit frees the reservation and sets the tile LOST. -/
  | intakeWriteFault (item : Nat)
  /-- MIGRATION_RESERVE (R118). A waiting migration, UNPRESS or regrow obtains its destination reservation. -/
  | migrationReserve (item : Nat)
  /-- MIGRATION_COMMIT (R66). A migration commits HOME, LOCATION and DISP in one update and frees the source. -/
  | migrationCommit (item : Nat)
  /-- RESERVATION_WAIT_TIMEOUT (R119). A wait holding no channel reaches PART_WAIT_TMO and ends STALL_TIMEOUT. -/
  | reservationWaitTimeout (item : Nat)
  /-- WATERMARK_DEMOTION (R307). Occupancy above HI starts U3 demotions of candidate tiles. -/
  | watermarkDemotion (partition : BitVec 5) (heath : Bool)
  /-- REGROW_START (R274). A regrow starts on a Tedder context once its Meadow reservation is held. -/
  | regrowStart (item : Nat)
  /-- REGROW_COMMIT (R274). A finished regrow commits the tile as HOLD. -/
  | regrowCommit (item : Nat)
  /-- ENGINE_UNIT_FAULT (R245). An internal parity error takes a Baler or Tedder unit offline. -/
  | engineUnitFault (tedder : Bool) (unit : BitVec 5)
  /-- WORK_ITEM_END (R143). Non-Carrier engine work ends, writing its ticket slot and signalling its CSO. -/
  | workItemEnd (item : Nat)
  /-- CARRIER_ITEM_END (R370). A Carrier item ends: last write, read-back, completion, signal, interrupt. -/
  | carrierItemEnd (item : Nat)
  /-- ITEM_ARRIVAL (R353). A plan work item is placed on a PLAN channel of the issuing partition. -/
  | itemArrival (item : Nat)
  /-- DESCRIPTOR_READ (R357). A chain channel reads and checks its next descriptor. -/
  | descriptorRead (channel : BitVec 8)
  /-- CHANNEL_STALL_TIMEOUT (R375). An item's stall timer reaches CAR_CH_STALL_TMO and ends STALL_TIMEOUT or halts RING_FULL. -/
  | channelStallTimeout (channel : BitVec 8) (item : Option Nat)
  /-- CHANNEL_START (R358). START begins a chain at CAR_CH_HEAD. -/
  | channelStart (fn : Nat) (channel : BitVec 8)
  /-- KICK (R358). KICK re-reads word 4 of the current descriptor to extend the chain. -/
  | kick (fn : Nat) (channel : BitVec 8)
  /-- ABORT (R372). ABORT stops every item of the channel at its next beat. -/
  | abort (fn : Nat) (channel : BitVec 8)
  /-- CHANNEL_RESUME (R374). RESUME reruns the halted descriptor once lines are freed. -/
  | channelResume (fn : Nat) (channel : BitVec 8)
  /-- SKIP (R374). SKIP continues the chain at the halted descriptor's NEXT. -/
  | skip (fn : Nat) (channel : BitVec 8)
  /-- CLEAR (R374). CLEAR discards the chain and makes the channel IDLE. -/
  | clear (fn : Nat) (channel : BitVec 8)
  /-- RING_ENABLE (R385). A write of CAR_RING_CFG.EN enables a completion ring or sets CFG_ERR. -/
  | ringEnable (fn : Nat) (ring : BitVec 9) (value : Word)
  /-- RING_CONS_WRITE (R379). Software advances CAR_RING_CONS, letting waiting records be written. -/
  | ringConsWrite (fn : Nat) (ring : BitVec 9) (count : BitVec 32)
  /-- RING_COALESCE_TIMEOUT (R380). COAL_US after an unsignalled record the ring vector fires. -/
  | ringCoalesceTimeout (ring : BitVec 9)
  /-- CPL_RECEIVED (R449). A read completion arrives on a port and retires its tag. -/
  | cplReceived (port : BitVec 3) (tag : BitVec 14) (status : BitVec 3) (data : List Byte)
  /-- COMPLETION_TIMEOUT (R449). A read reaches its function's completion timeout and ends CPL_TIMEOUT. -/
  | completionTimeout (port : BitVec 3) (tag : BitVec 14)
  /-- TAG_QUARANTINE_END (R450). A quarantined tag returns to the pool 1 ms after its read retired. -/
  | tagQuarantineEnd (port : BitVec 3) (tag : BitVec 14)
  /-- NOTICE_RING_RETRY (R76). A notice waiting for ring space rereads the consumer index and is written. -/
  | noticeRingRetry (item : Nat)
  /-- NOTICE_RESERVATION (R440). The Meadow reservation before a write-back notice succeeds. -/
  | noticeReservation (item : Nat)
  /-- WRITE_BACK_HEADER (R439). A peer's write-back header is checked and opens a stream. -/
  | writeBackHeader (fn : BitVec 5) (rid : BitVec 16) (bytes : List Byte)
  /-- WRITE_BACK_DATA (R439). A write-back data write is accepted in order, committing the tile after the last byte. -/
  | writeBackData (fn : BitVec 5) (rid : BitVec 16) (offset : BitVec 17) (bytes : List Byte)
  /-- PLAN_LOAD (R93). LOAD starts verification and admission of a plan image. -/
  | planLoad (partition : BitVec 5)
  /-- PLAN_LOAD_END (R94). A load ends ADMITTED or REJECTED with a report and DONE. -/
  | planLoadEnd (partition : BitVec 5)
  /-- PLAN_LOAD_TIMEOUT (R94). A load not finished in 30 s ends with TIMEOUT. -/
  | planLoadTimeout (partition : BitVec 5)
  /-- UNLOAD (R96). UNLOAD releases every record and frees every home of an idle partition. -/
  | unload (partition : BitVec 5)
  /-- UNLOAD_COMPLETE (R96). The unload reaches EMPTY once every home is freed. -/
  | unloadComplete (partition : BitVec 5)
  /-- QUOTA_WRITE (R111). A PF write of a tier quota is checked against assignable capacity. -/
  | quotaWrite (partition : BitVec 5) (tier : BitVec 2) (units : BitVec 32)
  /-- PART_QUOTA_SO_WRITE (R120). A write of PART_QUOTA_SO is checked against the sync-object range. -/
  | partQuotaSoWrite (partition : BitVec 5) (value : Word)
  /-- DTU_PIN_QUOTA_WRITE (R290). A PF write of DTU_PIN_QUOTA is checked against the 512 limit. -/
  | dtuPinQuotaWrite (partition : BitVec 5) (pages : BitVec 10)
  /-- MAP (R298). MAP maps a range and allocates each granule with ZERO set. -/
  | map (set : BitVec 6) (cmd0 : Word) (cmd1 : Word) (cmd2 : Word)
  /-- UNMAP (R297). UNMAP waits for runs to leave, frees granules and releases pins. -/
  | unmap (set : BitVec 6) (cmd0 : Word) (cmd1 : Word) (cmd2 : Word)
  /-- PROTECT (R297). PROTECT sets WRITE on every page of a range. -/
  | protect (set : BitVec 6) (cmd0 : Word) (cmd1 : Word) (cmd2 : Word)
  /-- HINT (R301). HINT sets the hint on every page and starts its movement. -/
  | hint (set : BitVec 6) (cmd0 : Word) (cmd1 : Word) (cmd2 : Word)
  /-- MIGRATE (R300). MIGRATE moves every granule of a range to a named tier. -/
  | migrate (set : BitVec 6) (cmd0 : Word) (cmd1 : Word) (cmd2 : Word)
  /-- MIGRATE_COMPLETE (R300). MIGRATE ends once every granule is committed or refused. -/
  | migrateComplete (set : BitVec 6)
  /-- PIN_XLATE (R297). Pins a range's page entries in every die's translation cache. -/
  | pinXlate (set : BitVec 6) (cmd0 : Word) (cmd1 : Word) (cmd2 : Word)
  /-- UNPIN_XLATE (R297). Releases translation pins of a range. -/
  | unpinXlate (set : BitVec 6) (cmd0 : Word) (cmd1 : Word) (cmd2 : Word)
  /-- TIER_MOOR_TGT_WRITE (R285). A PF write of a Moor target applies only when the target is unoccupied. -/
  | tierMoorTgtWrite (target : BitVec 4) (value : Word)
  /-- STREAM_ENABLE_WINDOW (R309). EN with KIND 0 checks and starts a weight window. -/
  | streamEnableWindow (stream : BitVec 8) (cfg : Word)
  /-- STREAM_ENABLE_PREFETCH (R315). EN with KIND 1 checks and starts a prefetch stream. -/
  | streamEnablePrefetch (stream : BitVec 8) (cfg : Word)
  /-- STREAM_DISABLE (R313). EN = 0 stops a window or prefetch stream. -/
  | streamDisable (stream : BitVec 8) (cfg : Word)
  /-- WINDOW_RECONCILE (R311). A window promotes wanted slices and demotes the rest after v changes. -/
  | windowReconcile (stream : BitVec 8)
  /-- PREFETCH_FIRE (R315). The entry at the cursor fires and issues its tiles. -/
  | prefetchFire (stream : BitVec 8)
  /-- HEATH_RESPONSE (R319). A Heath read or write completes after the tier latency. -/
  | heathResponse (core : BitVec 6) (late : Bool)
  /-- HEATH_TIMEOUT (R320). A Heath request reaches TIER_TMO_HEATH and ends HEATH_FAIL. -/
  | heathTimeout (item : Option Nat) (core : BitVec 6)
  /-- MOOR_COMPLETION (R480). An NVMe command completion arrives for a Moor request. -/
  | moorCompletion (command : BitVec 32) (status : BitVec 16) (late : Bool)
  /-- MOOR_TIMEOUT (R480). A Moor command reaches TIER_TMO_MOOR, ends MOOR_FAIL and is aborted. -/
  | moorTimeout (conn : Option (BitVec 12)) (request : BitVec 32)
  /-- TIER_PORT_DOWN (R321). A Heath link or Moor target fails and becomes DOWN. -/
  | tierPortDown (moor : Bool) (index : BitVec 4)
  /-- TIER_PORT_UP (R321). A DOWN port or target returns within TIER_LOSS_TIME. -/
  | tierPortUp (moor : Bool) (index : BitVec 4)
  /-- TIER_LOSS_TIMEOUT (R322). A port or target DOWN for TIER_LOSS_TIME becomes LOST. -/
  | tierLossTimeout (moor : Bool) (index : BitVec 4)
  /-- DECLARE_HEATH (R322). The PF declares a Heath port lost. -/
  | declareHeath (ports : BitVec 8)
  /-- DECLARE_MOOR (R322). The PF declares a Moor target lost. -/
  | declareMoor (targets : BitVec 16)
  /-- HEATH_MEDIA_EVENT (R618). An expander reports uncorrectable media and the owner is healed or poisoned. -/
  | heathMediaEvent (offset : BitVec 48)
  /-- LLC_FLUSH (R343). FLUSH writes back dirty sectors of a range. -/
  | llcFlush (set : BitVec 6) (cmd0 : Word) (cmd1 : Word) (cmd2 : Word)
  /-- LLC_EVICT (R343). EVICT flushes and invalidates unpinned lines of a range. -/
  | llcEvict (set : BitVec 6) (cmd0 : Word) (cmd1 : Word) (cmd2 : Word)
  /-- LLC_PIN (R339). PIN allocates and fetches a range into the partition's pinned ways. -/
  | llcPin (set : BitVec 6) (cmd0 : Word) (cmd1 : Word) (cmd2 : Word)
  /-- LLC_UNPIN (R342). UNPIN removes a pinned range. -/
  | llcUnpin (set : BitVec 6) (cmd0 : Word) (cmd1 : Word) (cmd2 : Word)
  /-- LLC_PIN_MASK_WRITE (R337). A PF write of LLC_PIN_MASK grants ways or is refused. -/
  | llcPinMaskWrite (partition : BitVec 5) (ways : BitVec 16)
  /-- SCRUB_READ (R611). The patrol scrubber reads the next sector at its even rate. -/
  | scrubRead (dpa : BitVec 41) (find : ScrubFind) (last : Bool) (behind : Bool)
  /-- LLC_SCRUB (R614). The scrubber reads LLC data and tags at U3. -/
  | llcScrub (die : BitVec 2) (set : BitVec 15) (way : BitVec 4) (find : ArrayFind)
  /-- ZERO_RANGE (R684). U3 zeroing of freed space completes a range. -/
  | zeroRange (unit : BitVec 6)
  /-- HBM_STACK_FAILURE (R631). A stack fails at run time, fencing its die. -/
  | hbmStackFailure (stack : BitVec 3)
  /-- FENCE_TIMEOUT (R629). A fence not complete in 10 ms is device cause 5. -/
  | fenceTimeout (die : BitVec 2)
  /-- ESCALATION_TIMEOUT (R630). After ERR_ESCALATE_MS the device performs a warm reset. -/
  | escalationTimeout
  /-- PART_RESET (R525). A PF RESET starts a partition reset. -/
  | partReset (partition : BitVec 5)
  /-- PART_RESET_COMPLETE (R525). Every engine is quiescent and the partition returns to ACTIVE. -/
  | partResetComplete (partition : BitVec 5)
  /-- QUIESCENCE_TIMEOUT (R631). An engine not quiescent in time is a die-scope fault. -/
  | quiescenceTimeout (die : BitVec 2) (revocation : Option (BitVec 4 × BitVec 12)) (partition : BitVec 5)
  /-- GRANT (R516). GRANT gives a channel or ring lease to a partition. -/
  | grant (cmd0 : Word)
  /-- REVOKE (R520). REVOKE starts revocation of a lease instance. -/
  | revoke (cmd0 : Word)
  /-- QUERY (R688). QUERY reports a lease instance's state, holder and epoch. -/
  | query (cmd0 : Word)
  /-- ASSIGN_CORES (R512). Assigns a mask of cores to a partition. -/
  | assignCores (cmd0 : Word) (cores : Word)
  /-- UNASSIGN_CORES (R512). Withdraws a mask of cores from a partition. -/
  | unassignCores (cmd0 : Word) (cores : Word)
  /-- REVOCATION_COMPLETE (R521). A revoked instance becomes FREE or renewed after internal quiescence. -/
  | revocationComplete (kind : BitVec 4) (index : BitVec 12)
  /-- CONTEXT_RECLAIM (R522). A context without progress for PART_RECLAIM_TMO is revoked. -/
  | contextReclaim (tedder : Bool) (ctx : BitVec 7)
  /-- SO_RANGE_WRITE (R523). A PF write of SO_RANGE revokes removed and grants added objects. -/
  | soRangeWrite (partition : BitVec 5) (base : BitVec 12) (count : BitVec 13)
  /-- CRR_CONN_RANGE_WRITE (R523). A PF write of CRR_CONN_RANGE revokes removed and grants added connections. -/
  | crrConnRangeWrite (partition : BitVec 5) (base : BitVec 12) (count : BitVec 13)
  /-- WATCH_ARM (R394). Arming a watch, which fires at once if its condition holds. -/
  | watchArm (watch : BitVec 9) (cfg : Word)
  /-- TRACKER_ENABLE (R396). Enabling a progress tracker initialises it from the object. -/
  | trackerEnable (tracker : BitVec 7) (cfg : Word)
  /-- WALKER_ENABLE (R407). Enabling a lattice walker. -/
  | walkerEnable (walker : BitVec 6) (cfg : Word) (block : Word)
  /-- WALK_START (R407). An IDLE walker starts a walk when START_SO exceeds SO_WALK_COUNT. -/
  | walkStart (walker : BitVec 6)
  /-- WALKER_GROUP_ISSUE (R411). The walker issues a group's deliveries at its latest start less the lead. -/
  | walkerGroupIssue (walker : BitVec 6)
  /-- AGING (R403). A U2 or U3 request waiting 100 µs becomes aged. -/
  | aging (item : Nat)
  /-- SYS_OPEN (R430). The open handshake checks accepted features and locks RWL fields. -/
  | sysOpen
  /-- REGISTER (R434). Registers a peer after checks and a path probe. -/
  | register (words : List Word)
  /-- PROBE_RESULT (R435). The probe read completes or times out and the registration ends. -/
  | probeResult (result : BitVec 3)
  /-- UNREGISTER (R437). Unregisters a peer index. -/
  | unregister (peer : BitVec 6)
  /-- BAR4_READ (R428). A BAR4 read reaches the partition range after the checks of Table 8-5. -/
  | bar4Read (fn : BitVec 5) (offset : BitVec 36) (bytes : Nat)
  /-- BAR4_WRITE (R428). A BAR4 write reaches the partition range after the checks. -/
  | bar4Write (fn : BitVec 5) (offset : BitVec 36) (bytes : List Byte)
  /-- BUS_MASTER_CLEAR (R451). Clearing Bus Master Enable stops the function's requests and holds records. -/
  | busMasterClear (fn : BitVec 7)
  /-- BUS_MASTER_SET (R454). Setting Bus Master Enable writes held records and messages in order. -/
  | busMasterSet (fn : BitVec 7)
  /-- VF_FLR (R456). An FLR of a VF resets its partition. -/
  | vfFlr (vf : BitVec 5)
  /-- PF_FLR (R457). An FLR of the PF resets every partition and clears SYS_OPEN. -/
  | pfFlr
  /-- PORT_FUNCTION_FLR (R458). An FLR or PERST_L of a port function ends every item on that port. -/
  | portFunctionFlr (port : BitVec 3)
  /-- D3HOT_TO_D0 (R458). A D3hot to D0 transition acts as an FLR of the function. -/
  | d3hotToD0 (fn : BitVec 7)
  /-- HOST_LINK_DOWN (R423). A HOST or PEER link goes down and its requests retire with LINK_DOWN. -/
  | hostLinkDown (port : BitVec 3)
  /-- LINK_UP (R423). A port's link trains up again. -/
  | linkUp (port : BitVec 3) (gen : BitVec 3) (width : BitVec 5) (flit : Bool) (cxl : Bool)
  /-- TRANSLATION_COMPLETION (R445). An ATS translation completion arrives and is cached. -/
  | translationCompletion (fn : BitVec 5) (page : Word) (target : Word) (size : Nat) (read : Bool) (write : Bool)
  /-- INVALIDATION_REQUEST (R446). An ATS invalidation drops entries and completes once users retire. -/
  | invalidationRequest (fn : BitVec 5) (page : Word) (size : Nat)
  /-- PAGE_REQUEST_RESPONSE (R447). A PRI response retranslates or ends the item ATS_FAULT. -/
  | pageRequestResponse (fn : BitVec 5) (page : Word) (code : BitVec 4)
  /-- PRI_TIMEOUT (R447). A held page request reaches 100 ms and ends ATS_FAULT. -/
  | priTimeout (fn : BitVec 5) (page : Word)
  /-- IDE_CHECK_FAIL (R466). An IDE integrity failure makes the stream Insecure. -/
  | ideCheckFail (port : BitVec 3) (stream : BitVec 4)
  /-- K_SET_GO (R466). IDE_KM sets fresh keys and the stream becomes Secure. -/
  | kSetGo (port : BitVec 3) (stream : BitVec 8)
  /-- CONN_OPEN_LISTEN (R486). OPEN with LISTEN moves a connection to LISTEN. -/
  | connOpenListen (partition : BitVec 5) (words : List Word)
  /-- CONN_OPEN (R487). OPEN initiates a connection and sends OPEN. -/
  | connOpen (partition : BitVec 5) (words : List Word)
  /-- CONN_CLOSE (R490). CLOSE moves a connection to CLOSING or CLOSED. -/
  | connClose (partition : BitVec 5) (conn : BitVec 12)
  /-- OPEN_REPEAT (R487). An initiator resends OPEN every 100 µs. -/
  | openRepeat (conn : BitVec 12)
  /-- OPEN_TIMEOUT (R487). No OPEN_ACK within 1 s ends the command with TIMEOUT. -/
  | openTimeout (conn : BitVec 12)
  /-- OPEN_RECEIVED (R487). A listening entry accepts an OPEN and answers OPEN_ACK. -/
  | openReceived (port : BitVec 3) (frame : RxFrame)
  /-- OPEN_ACK_RECEIVED (R487). An initiator receives OPEN_ACK and enters OPEN. -/
  | openAckReceived (port : BitVec 3) (frame : RxFrame)
  /-- CLOSE_RECEIVED (R491). A received CLOSE is answered and the connection torn down. -/
  | closeReceived (port : BitVec 3) (frame : RxFrame)
  /-- CLOSE_ACK_RECEIVED (R490). CLOSE_ACK moves a closing connection to CLOSED. -/
  | closeAckReceived (port : BitVec 3) (frame : RxFrame)
  /-- CLOSE_REPEAT (R490). CLOSE is resent every 300 µs and the entry closes after the third. -/
  | closeRepeat (conn : BitVec 12)
  /-- DATA_RECEIVED (R493). A DATA packet is checked and classified new, duplicate or stray. -/
  | dataReceived (port : BitVec 3) (frame : RxFrame)
  /-- ACK_RECEIVED (R494). A cumulative acknowledgement frees replay copies. -/
  | ackReceived (port : BitVec 3) (frame : RxFrame)
  /-- SACK_RECEIVED (R493). A SACK names out-of-order ranges for retransmission. -/
  | sackReceived (port : BitVec 3) (frame : RxFrame)
  /-- ACK_TIMER (R494). 2 µs after the first unacknowledged packet an ACK is sent. -/
  | ackTimer (conn : BitVec 12)
  /-- RETRANSMIT_TIMEOUT (R495). The retransmit timer expires and retries or fails the path. -/
  | retransmitTimeout (conn : BitVec 12)
  /-- NOP_KEEPALIVE (R496). A NOP is sent after 100 µs without DATA while responses are awaited. -/
  | nopKeepalive (conn : BitVec 12)
  /-- RESPONSE_TIMEOUT (R496). A response not received within RESP_S is a path failure. -/
  | responseTimeout (conn : BitVec 12) (tid : BitVec 32)
  /-- PUT (R497). A PUT message is taken into Intake at the receiver. -/
  | put (conn : BitVec 12) (tid : BitVec 32)
  /-- HELD (R497). HELD releases the sender's tile and triggers CONFIRM. -/
  | held (conn : BitVec 12) (tid : BitVec 32)
  /-- CONFIRM (R497). CONFIRM makes the receiver's record RESIDENT. -/
  | confirm (conn : BitVec 12) (tid : BitVec 32)
  /-- RECALL (R498). A RECALL sends a held tile back by PUT. -/
  | recallTile (conn : BitVec 12) (tid : BitVec 32)
  /-- RESP (R484). A response message ends its request with its status. -/
  | resp (conn : BitVec 12) (tid : BitVec 32)
  /-- OWNER_READ (R499). A remote read of an owner block run. -/
  | ownerRead (conn : BitVec 12) (tid : BitVec 32)
  /-- OWNER_WRITE (R499). A remote masked write of an owner block run. -/
  | ownerWrite (conn : BitVec 12) (tid : BitVec 32)
  /-- BLOCK_READ (R500). A read of exported blocks. -/
  | blockRead (conn : BitVec 12) (tid : BitVec 32)
  /-- BLOCK_WRITE (R500). A write of exported blocks. -/
  | blockWrite (conn : BitVec 12) (tid : BitVec 32)
  /-- BLOCK_ZERO (R500). Zeroing of exported blocks. -/
  | blockZero (conn : BitVec 12) (tid : BitVec 32)
  /-- NOP (R484). A NOP keep-alive message. -/
  | nop (conn : BitVec 12) (tid : BitVec 32)
  /-- RETRAIN (R472). RETRAIN retrains an Ethernet link in its MODE. -/
  | retrain (port : BitVec 3) (mode : BitVec 3)
  /-- ETH_LINK_DOWN (R472). An Ethernet link goes down and UP clears. -/
  | ethLinkDown (port : BitVec 3)
  /-- PRIO_MAP_WRITE (R473). A priority map write is applied or refused on a MIXED port. -/
  | prioMapWrite (port : BitVec 3) (value : Word)
  /-- PFC_FRAME (R474). A received PFC frame pauses or resumes a priority. -/
  | pfcFrame (port : BitVec 3) (enable : BitVec 8) (pause : BitVec 8)
  /-- PFC_WATCHDOG (R475). A priority paused for PFC_WD_MS stops honouring pauses. -/
  | pfcWatchdog (port : BitVec 3) (prio : BitVec 3)
  /-- PFC_STORM_RECOVERY (R475). 10 ms without pauses restores pause honouring. -/
  | pfcStormRecovery (port : BitVec 3) (prio : BitVec 3)
  /-- CNP (R477). A CNP or ECE halves a flow's rate. -/
  | cnp (set : BitVec 4)
  /-- RATE_RECOVERY (R477). Every 50 µs without a mark a flow's rate rises by 5 %. -/
  | rateRecovery (flow : BitVec 13)
  /-- NVME_SET_ENABLE (R481). Enabling an NVMe set connects it within 5 s. -/
  | nvmeSetEnable (set : BitVec 4) (cfg : Word) (meets : NvmeMeet)
  /-- NVME_SET_DISABLE (R481). Disabling an NVMe set disconnects it. -/
  | nvmeSetDisable (set : BitVec 4)
  /-- QP_ERROR (R480). A queue pair enters error and its set goes DOWN. -/
  | qpError (set : BitVec 4)
  /-- NVME_RECONNECT (R480). The MC reconnects a DOWN set every 100 ms. -/
  | nvmeReconnect (set : BitVec 4) (connected : Bool)
  /-- KEEP_ALIVE (R480). Keep Alive is sent every KATO ÷ 2. -/
  | keepAlive (set : BitVec 4) (answered : Bool)
  /-- PTP_EVENT_MESSAGE (R503). A PTP event message is timestamped and TIME disciplined. -/
  | ptpEventMessage (port : BitVec 3) (message : PtpMessage)
  /-- HOLDOVER (R505). 10 s without Sync enters HOLDOVER. -/
  | holdover
  /-- TALLY_TICK (R548). Each millisecond the tally engine collects deltas and sends a frame. -/
  | tallyTick
  /-- TALLY_ACK_TIMEOUT (R548). Without acknowledgement in 100 µs the frame is resent. -/
  | tallyAckTimeout
  /-- TALLY (R549). Frank applies, duplicates or ignores a TALLY frame. -/
  | tally (frame : List Byte)
  /-- TALLY_GAP (R550). No frame applied for 10 ms logs TALLY_LINK_DOWN. -/
  | tallyGap
  /-- BIND (R552). BIND sets a partition's TENANT annotation. -/
  | bind (partition : Nat) (tenant : Word)
  /-- TIMEREF (R552). TIMEREF sets the UTC annotation. -/
  | timeref (utc : Word)
  /-- READ_RECORD (R552). Returns a signed record from the ring. -/
  | readRecord (seq : BitVec 32)
  /-- READ_INFO (R552). Returns status, key, certificate or identity. -/
  | readInfo (select : BitVec 8)
  /-- READ_LOG (R552). Returns audit log entries. -/
  | readLog (index : BitVec 8)
  /-- SAMPLE_INTERVAL (R543). Each 62.5 µs interval Frank adds the rails' energy. -/
  | sampleInterval (rails : List Nat) (refOk : Bool) (selfOk : Bool)
  /-- IMPULSE (R545). FRK_PULSE_L emits an impulse for each 36,000 mJ crossing, queued if needed. -/
  | impulse
  /-- SNAPSHOT (R555). At each second boundary Frank snapshots and signs a record. -/
  | snapshot (clockFault : Bool)
  /-- PERIODIC_BANK_WRITE (R565). Every 60 s Frank writes totals to the older MRAM bank. -/
  | periodicBankWrite
  /-- FRANK_POWER_UP (R566). Frank chooses a bank, starts a session and sets the first SEQ. -/
  | frankPowerUp (calOk : Bool)
  /-- FRANK_PWRFAIL_FALL (R567). Frank stops records, snapshots and writes a power-fail bank. -/
  | frankPwrfailFall
  /-- PWRFAIL_BANK_REPEAT (R567). While PWRFAIL_L stays low Frank rewrites a bank every 200 µs. -/
  | pwrfailBankRepeat
  /-- FRANK_RECORDS_RESUME (R567). After 10 ms of PWRFAIL_L high records resume. -/
  | frankRecordsResume
  /-- I3C_PRIVATE_WRITE (R564). A private write sets the pointer and RECORD_SEL or LOG_SEL. -/
  | i3cPrivateWrite (bytes : List Byte)
  /-- I3C_PRIVATE_READ (R562). A private read returns bytes from the pointer. -/
  | i3cPrivateRead (count : Nat)
  /-- I3C_CCC (R562). A common command code (SETDASA, ENTDAA, RSTDAA, ENEC, DISEC, GETSTATUS) is served. -/
  | i3cCcc (ccc : I3cCcc)
  /-- I3C_TIMEOUT (R562). A private transaction incomplete after 25 ms is abandoned. -/
  | i3cTimeout
  /-- PWROK_RISE (R573). PWROK rises and starts a cold reset. -/
  | pwrokRise
  /-- PWROK_FALL (R574). PWROK falls and every die except Frank is held in reset. -/
  | pwrokFall
  /-- STRAP_SAMPLE (R576). Straps are sampled after 10 ms of PWROK high. -/
  | strapSample (straps : BitVec 12) (testmode : Bool)
  /-- PLL_LOCK_TIMEOUT (R598). A PLL not locked within 10 ms ends start-up FAILED. -/
  | pllLockTimeout
  /-- FIRMWARE_START (R582). The ROM chooses, verifies and runs a firmware image. -/
  | firmwareStart (otpOk : Bool) (errA : Bool) (errB : Bool)
  /-- RECOVERY_IMAGE (R584). A recovered image arrives and is run. -/
  | recoveryImage (host : Bool) (image : FwImage)
  /-- CONFIG_APPLY (R591). The MC applies configuration items and port roles. -/
  | configApply
  /-- DIES_DONE (R595). UCIe links and HBM4 sites have passed or failed. -/
  | diesDone (sites : BitVec 8) (meshLost : BitVec 4) (postLost : BitVec 4)
  /-- ZERO_PASS_DONE (R593). Every online stack has been zeroed. -/
  | zeroPassDone (failed : BitVec 8)
  /-- LINKS_DONE (R596). Every HEATH port is mapped or given up. -/
  | linksDone (heath : List HeathPortUp)
  /-- HOST_PERST_DEASSERT (R594). HOST PERST_L deasserts and link training starts. -/
  | hostPerstDeassert
  /-- PERST_ASSERT (R599). HOST PERST_L asserted starts a warm reset. -/
  | perstAssert
  /-- HOT_RESET (R599). Hot Reset or Link Disable on the HOST link starts a warm reset. -/
  | hotReset
  /-- COLD (R599). SYS_RESET_CTRL.COLD with key 0xA5 requests a cold reset. -/
  | cold (key : BitVec 8)
  /-- WARM (R599). SYS_RESET_CTRL.WARM with key 0xA5 requests a warm reset. -/
  | warm (key : BitVec 8)
  /-- MC_WATCHDOG (R599). No firmware heartbeat for 2 s causes a warm reset. -/
  | mcWatchdog
  /-- PLDM_RESET_REQUEST (R599). A PLDM or MCTP reset request causes a warm reset. -/
  | pldmResetRequest
  /-- FIRMWARE_UPDATE (R585). A PLDM type 5 update writes the inactive slot, record last. -/
  | firmwareUpdate (image : FwImage) (complete : Bool)
  /-- CFGS_READ (R592). Copies the newest valid configuration payload to a buffer. -/
  | cfgsRead (addr : Word) (length : BitVec 32)
  /-- CFGS_WRITE (R592). Writes a new configuration bank over the older one. -/
  | cfgsWrite (start : Option (Word × BitVec 32)) (ends : Option FlashEnd)
  /-- CFGS_CLEAR (R592). Erases both configuration banks. -/
  | cfgsClear (start : Bool) (ends : Option FlashEnd)
  /-- PWRFAIL_FALL (R603). PWRFAIL_L falls: tally flush, no new flash writes. -/
  | pwrfailFall
  /-- PWRFAIL_RISE (R605). PWRFAIL_L rises and the device resumes normally. -/
  | pwrfailRise
  /-- PWRBRK_FALL (R665). PWRBRK_L low sets throttle level 7. -/
  | pwrbrkFall
  /-- PWRBRK_RISE (R665). PWRBRK_L high lets the throttle tick resume. -/
  | pwrbrkRise
  /-- THROTTLE_TICK (R663). Each millisecond the throttle level is recomputed. -/
  | throttleTick
  /-- SENSOR_SAMPLE (R662). Temperature sensors are sampled every 100 µs. -/
  | sensorSample (dies : List (Option Nat)) (hbm : List (Option Nat)) (power : Nat) (rails : List Nat)
  /-- CLOCK_LOSS (R657). Loss of REF or a PLL lock holds the device and drives DEV_FAULT_L. -/
  | clockLoss (pll : Bool)
  /-- GET_VERSION (R533). SPDM GET_VERSION request. -/
  | getVersion
  /-- GET_CAPABILITIES (R533). SPDM GET_CAPABILITIES request. -/
  | getCapabilities
  /-- NEGOTIATE_ALGORITHMS (R533). SPDM NEGOTIATE_ALGORITHMS request. -/
  | negotiateAlgorithms (common : Bool)
  /-- GET_CERTIFICATE (R533). SPDM GET_CERTIFICATE request for slot 0. -/
  | getCertificate (slot : BitVec 3)
  /-- CHALLENGE (R533). SPDM CHALLENGE signed with the Alias key. -/
  | challenge (slot : BitVec 3)
  /-- GET_MEASUREMENTS (R534). SPDM GET_MEASUREMENTS returns the measurement blocks. -/
  | getMeasurements (index : BitVec 8) (signed : Bool)
  /-- KEY_EXCHANGE (R533). SPDM KEY_EXCHANGE opens a secure session. -/
  | keyExchange (slot : BitVec 3)
  /-- DEBUG_UNLOCK (R536). A signed nonce unlocks debug and zeroes the unique secret copy. -/
  | debugUnlock (genuine : Bool)
  /-- MGT_RSV_READ (R653). A read of MGT_RSV_DATA returns reserve bytes and advances the address. -/
  | mgtRsvRead
  /-- REGISTER_WRITE (R11). A write to a register without its own row applies its access codes. -/
  | registerWrite (fn : Nat) (write : RegWrite)
  /-- BAD_ACCESS (R643). A register access of bad size, alignment or region is dropped or refused. -/
  | badAccess (fn : Nat) (off : Nat) (size : Nat) (read : Bool)
  /-- MESH_LINK_FAILURE (R631). A Meadow-Meadow UCIe link fails at run time and the higher-numbered of its two dies is fenced with cause MESH_LINK. -/
  | meshLinkFailure (a : BitVec 2) (b : BitVec 2)
  /-- POST_LINK_FAILURE (R628). An Mn-Pn UCIe link fails, taking Pn's ports down, or, for M0-P0, raising device cause 1. -/
  | postLinkFailure (post : BitVec 2)
  /-- DIE_PARITY_ERROR (R631). An internal parity error in a die's sync unit or DTU fences the die with cause PARITY. -/
  | dieParityError (die : BitVec 2)
  /-- FLR_TIMEOUT (R629). An FLR not complete within 100 ms is device cause 3 and escalates. -/
  | flrTimeout (fn : BitVec 7)
  /-- WALKER_DISABLE (R407). A write of SO_WALK_CFG.EN = 0 stops a walk, leaving issued items to end and writing nothing further. -/
  | walkerDisable (walker : BitVec 6) (cfg : Word)
  /-- TRACKER_DISABLE (R396). Disabling a progress tracker stops any walk that uses it, with ITEM_FAIL. -/
  | trackerDisable (tracker : BitVec 7) (cfg : Word)
  /-- FRANK_LINK_DOWN (R23). The P0-Frank link goes down, clearing FRK_TALLY_STATUS.LINK_UP, and MC commands then end LINK_DOWN. -/
  | frankLinkDown
  /-- FRANK_LINK_UP (R23). The P0-Frank link trains, because P0 and Frank both have power, and LINK_UP sets. -/
  | frankLinkUp
  /-- FRK_CMD_TIMEOUT (R569). An MC command to Frank without a response in 100 ms ends with result TIMEOUT. -/
  | frkCmdTimeout
  /-- ETH_LINK_UP (R470). An Ethernet link that went down trains up again and CRR_PORT_STATUS.UP sets. -/
  | ethLinkUp (port : BitVec 3) (mode : BitVec 3)
  /-- LOCAL_ACK_TIMEOUT (R480). The RoCEv2 local ACK timeout expires and the transport retries, within the retry count of 7. -/
  | localAckTimeout (command : BitVec 32)
  /-- RDMA_READ (R478). A Moor target's RDMA READ fetches write data from the device. -/
  | rdmaRead (command : BitVec 32) (offset : BitVec 17) (length : BitVec 18) (ce : Bool)
  /-- RDMA_WRITE (R478). A Moor target's RDMA WRITE places read data into the device. -/
  | rdmaWrite (command : BitVec 32) (offset : BitVec 17) (data : List Byte) (ce : Bool)
  /-- VF_ENABLE (R424). A configuration write of VF Enable and NumVFs creates VFs bound to partitions 1 to NumVFs. -/
  | vfEnable (enable : Bool) (count : BitVec 5)
  /-- VDD_FRK_LOSS (R567). VDD_FRK falls below its minimum, cutting short any bank write and ending Frank's session. -/
  | vddFrkLoss (midWrite : Bool)
  /-- P0_POWER_LOSS (R548). P0 loses power, resetting the tally engine and losing unflushed deltas. -/
  | p0PowerLoss
  /-- FINISH (R533). The SPDM FINISH request completes a session that KEY_EXCHANGE opened. -/
  | finish (verified : Bool)
  /-- GET_DIGESTS (R533). The SPDM GET_DIGESTS request returns the digest of the slot 0 chain. -/
  | getDigests
  /-- HEARTBEAT (R533). The SPDM HEARTBEAT request keeps a secure session alive. -/
  | heartbeat
  /-- KEY_UPDATE (R533). The SPDM KEY_UPDATE request updates a session's keys. -/
  | keyUpdate
  /-- END_SESSION (R533). The SPDM END_SESSION request ends a secure session. -/
  | endSession
  /-- DOE_DISCOVERY (R464). A DOE Discovery request is answered through the PF's mailbox. -/
  | doeDiscovery (length : Nat) (index : BitVec 8)
  /-- IDE_KM_KEY_PROG (R466). IDE_KM sets fresh keys for an IDE stream before K_SET_GO. -/
  | ideKmKeyProg (port : BitVec 3) (stream : BitVec 8)
  deriving DecidableEq, Repr

end Sys2Proof
end

