-- ==== Sys2Proof/Decode.lean ====
section
/-! DEFINITION. The fields of a Ulital word (Tables 4-4 and 5-1), the row each word belongs to (Table 5-3), the load-time
rejections of R167, and the decoder of table words: spec/opcode_table.json gives no row any bits. -/

namespace Sys2Proof

namespace Ulital

/-- Bits `lo` to `lo + n - 1` of a word. -/
def field (w : Word) (lo n : Nat) : Nat := w.toNat / 2 ^ lo % 2 ^ n

def opc (w : Word) : Nat := field w 58 6
def gsense (w : Word) : Nat := field w 57 1
def gpred (w : Word) : Nat := field w 54 3
def func (w : Word) : Nat := field w 48 6
/-- RD of formats A, I, B, S and C. -/
def rd (w : Word) : Nat := field w 43 5
def rs1 (w : Word) : Nat := field w 38 5
def rs2 (w : Word) : Nat := field w 33 5
/-- PD of format A. -/
def pdA (w : Word) : Nat := field w 30 3
def ps1 (w : Word) : Nat := field w 27 3
def ps2 (w : Word) : Nat := field w 24 3
def rs3 (w : Word) : Nat := field w 19 5
/-- PD of format I. -/
def pdI (w : Word) : Nat := field w 35 3
/-- IMM of format I, OFFSET of format B, sign-extended to 64 bits (R166). -/
def imm (w : Word) : Word := (w.setWidth 32).signExtend 64
/-- IMM of format I without sign extension. -/
def immU (w : Word) : Nat := field w 0 32
def td (w : Word) : Nat := field w 44 4
def ts (w : Word) : Nat := field w 40 4
def rg (w : Word) : Nat := field w 35 5
def pos (w : Word) : Nat := field w 26 9
def wm1 (w : Word) : Nat := field w 20 6
/-- IMM20 of format T, sign-extended to 64 bits. -/
def imm20 (w : Word) : Word := (w.setWidth 20).signExtend 64
def cmp (w : Word) : Nat := field w 29 4
def soBase (w : Word) : Nat := field w 12 12
def rso (w : Word) : Nat := field w 7 5
def mask (w : Word) : Nat := field w 0 2
def ra (w : Word) : Nat := field w 38 5
def rb (w : Word) : Nat := field w 33 5
def rc (w : Word) : Nat := field w 28 5
def ta (w : Word) : Nat := field w 24 4
def tb (w : Word) : Nat := field w 20 4
def cso (w : Word) : Nat := field w 8 12
def csoEn (w : Word) : Bool := field w 7 1 == 1
def gate (w : Word) : Bool := field w 6 1 == 1
def urg (w : Word) : Nat := field w 4 2
def mode (w : Word) : Nat := field w 0 4

/-- The rows of the command table that a Ulital word can belong to. -/
inductive Kind where
  | alu | alui | movi | movhi | mul | div | cmp | cmpi | pred | bra | call | jr | callr | sload | sstore | load | store
  | amo | csrr | csrw | tld | tst | tmov | tzero | tset | tget | tldd | tstd | moveIntake | moveCopy | moveSend | press
  | unpress | spill | fetch | fetchRecall | teddOp | teddRegrow | layout | deliver | deliverLattice | notify | tileDrop
  | tileRelabel | rstage | eadv | wait | signal | sread | fence | halt | brk | tret
  deriving DecidableEq, Repr

/-- The row of a word: OPC and FUNC by Table 5-3, the form by MODE (Table 5-12); `none`: not listed. -/
def kind? (w : Word) : Option Kind :=
  let f := func w
  let m := mode w
  match opc w with
  | 0x01 => if f ≤ 14 then some .alu else none
  | 0x02 => if f = 16 then some .movi else if f = 17 then some .movhi
      else if f ≤ 11 ∧ f ≠ 1 then some .alui else none
  | 0x03 => if f ≤ 2 then some .mul else if f ≤ 6 then some .div else none
  | 0x04 => if f ≤ 5 then some .cmp else none
  | 0x05 => if f ≤ 5 then some .cmpi else none
  | 0x06 => if f ≤ 7 then some .pred else none
  | 0x08 => if f = 0 then some .bra else if f = 1 then some .call else if f = 2 then some .jr
      else if f = 3 then some .callr else none
  | 0x0A => if f ≤ 6 then some .sload else none
  | 0x0B => if f ≤ 3 then some .sstore else none
  | 0x0C => if f ≤ 6 then some .load else none
  | 0x0D => if f ≤ 3 then some .store else none
  | 0x0E => if f ≤ 5 then some .amo else none
  | 0x0F => if f = 0 then some .csrr else if f = 1 then some .csrw else none
  | 0x10 => match f with
    | 0 => some .tld | 1 => some .tst | 2 => some .tmov | 3 => some .tzero | 4 => some .tset | 5 => some .tget
    | 6 => some .tldd | 7 => some .tstd | _ => none
  | 0x18 => if f ≠ 0 then none else if m % 4 = 0 then some .moveIntake else if m = 1 then some .moveCopy
      else if m = 2 then some .moveSend else none
  | 0x19 => if f = 0 ∧ m ≤ 3 then some .press else none
  | 0x1A => if f = 0 ∧ m = 0 then some .unpress else none
  | 0x1B => if f ≠ 0 then none else if m = 0 then some .teddOp else if m = 1 then some .teddRegrow else none
  | 0x1C => if f = 0 ∧ m = 0 then some .layout else none
  | 0x1D => if f ≠ 0 then none else if m ≤ 1 then some .deliver else if m ≤ 3 then some .deliverLattice else none
  | 0x1E => if f = 0 ∧ m ≤ 1 then some .spill else none
  | 0x1F => if f ≠ 0 then none else if m ≤ 1 then some .fetch else if m = 2 then some .fetchRecall else none
  | 0x20 => if f = 0 ∧ m = 0 then some .notify else none
  | 0x21 => if f = 0 ∧ m = 0 then some .tileDrop else if f = 1 ∧ (m = 5 ∨ m = 6) then some .tileRelabel else none
  | 0x24 => if f = 0 then some .rstage else none
  | 0x28 => match f with
    | 0 => if cmp w ≤ 5 then some .wait else none
    | 1 => if cmp w ≤ 3 then some .signal else none
    | 2 => some .fence
    | 3 => some .sread
    | _ => none
  | 0x2C => if f = 0 then some .eadv else none
  | 0x30 => match f with | 0 => some .halt | 1 => some .brk | 2 => some .tret | _ => none
  | _ => none

/-- The CSR numbers of Table 4-11. -/
def csrListed (n : Nat) : Bool :=
  n = 0x000 || n = 0x001 || (0x004 ≤ n && n ≤ 0x007) || (0x010 ≤ n && n ≤ 0x012) || n = 0x018 ||
    (0x020 ≤ n && n ≤ 0x023) || n = 0x030

/-- The fields an instruction does not use are zero (R166, R171, R182, R185, R192, Table 5-12). -/
def reservedZero (w : Word) : Kind → Bool
  | .alu => (field w 24 9 == 0 || (func w == 12 && field w 24 3 == 0 && field w 30 3 == 0)) && field w 0 24 == 0 &&
      (!(func w == 13 || func w == 14) || rs2 w == 0)
  | .mul | .div => field w 0 33 == 0
  | .cmp => rd w == 0 && field w 0 30 == 0
  | .pred => field w 0 24 == 0 && rs2 w == 0 && (match func w with
      | 0 | 1 | 2 | 3 => rd w == 0 && rs1 w == 0
      | 4 => rd w == 0 && rs1 w == 0 && ps2 w == 0
      | 5 => rd w == 0 && ps1 w == 0 && ps2 w == 0
      | 6 => rs1 w == 0 && field w 24 9 == 0
      | _ => rd w == 0 && field w 24 9 == 0)
  | .amo => field w 24 9 == 0 && field w 0 19 == 0 && (func w ≥ 4 || rs3 w == 0)
  | .rstage => field w 0 33 == 0
  | .eadv => field w 0 38 == 0
  | .alui | .sload | .sstore | .load | .store => field w 32 6 == 0
  | .movi | .movhi => field w 32 11 == 0
  | .cmpi => rd w == 0 && field w 32 3 == 0
  | .csrr => field w 12 31 == 0 && csrListed (field w 0 12)
  | .csrw => rd w == 0 && field w 12 26 == 0 && csrListed (field w 0 12)
  | .bra => field w 32 16 == 0
  | .call => field w 32 11 == 0
  | .jr => rd w == 0 && field w 32 6 == 0
  | .callr => field w 32 6 == 0
  | .tld | .tldd => ts w == 0 && field w 20 15 == 0
  | .tst | .tstd => td w == 0 && field w 20 15 == 0
  | .tmov => field w 0 40 == 0
  | .tzero => field w 0 44 == 0
  | .tset => ts w == 0 && field w 0 20 == 0 && pos w + wm1 w ≤ 511
  | .tget => td w == 0 && field w 0 20 == 0 && pos w + wm1 w ≤ 511
  | .wait => field w 24 5 == 0 && field w 0 7 == 0
  | .signal => rd w == 0 && rs2 w == 0 && field w 24 5 == 0 && field w 0 7 == 0
  | .sread => rs1 w == 0 && rs2 w == 0 && cmp w == 0 && field w 24 5 == 0 && field w 0 7 == 0
  | .fence => field w 2 46 == 0
  | .halt | .brk => field w 32 16 == 0
  | .tret => field w 0 48 == 0
  | k => (csoEn w || cso w == 0) && (gate w || rc w == 0) && (match k with
      | .moveIntake => tb w == 0 && (field w 3 1 == 0 || ta w == 0)
      | .moveCopy => ra w == 0 && rb w == 0
      | .moveSend => ta w == 0 && tb w == 0
      | .press => ta w == 0 && tb w == 0 && (mode w ≠ 0 || rb w == 0)
      | .unpress | .teddRegrow | .spill | .tileDrop | .tileRelabel => rb w == 0 && ta w == 0 && tb w == 0
      | .teddOp | .layout => rb w == 0
      | .deliver | .deliverLattice => tb w == 0
      | .fetch | .fetchRecall => ta w == 0 && tb w == 0
      | _ => rb w == 0 && tb w == 0)

/-- A C-format row. -/
def isC : Kind → Bool
  | .moveIntake | .moveCopy | .moveSend | .press | .unpress | .spill | .fetch | .fetchRecall | .teddOp | .teddRegrow
  | .layout | .deliver | .deliverLattice | .notify | .tileDrop | .tileRelabel => true
  | _ => false

/-- URG = U0 is accepted only on DELIVER, FETCH and NOTIFY of a v2 image (R187). -/
def urgOk (w : Word) : Kind → Bool
  | .deliver | .deliverLattice | .fetch | .fetchRecall | .notify => true
  | k => !isC k || urg w != 0

/-- The v1 restrictions of R167 and R171: no v2-only row or form, no t8 to t15, no p4 to p7. -/
def v1Ok (w : Word) (k : Kind) : Bool :=
  gpred w < 4 && (match k with
    | .amo | .tldd | .tstd | .sread | .moveSend | .fetchRecall | .deliverLattice => false
    | .alu => ps1 w < 4
    | .cmp => pdA w < 4
    | .pred => pdA w < 4 && ps1 w < 4 && ps2 w < 4
    | .cmpi => pdI w < 4
    | .tld | .tst | .tmov | .tzero | .tset | .tget => td w < 8 && ts w < 8
    | .press => mode w < 2
    | .deliver => rb w == 0 && mode w == 0
    | .fetch => rb w == 0
    | .tileRelabel => mode w == 6
    | _ => true) && (!isC k || (urg w == 0 && !gate w && ta w < 8 && tb w < 8))

/-- A BRA or CALL at code address `pc` reaches a multiple of 8 inside a CODE section of `size` bytes (R167). -/
def branchOk (w : Word) (k : Kind) (pc size : Nat) : Bool :=
  match k with
  | .bra | .call =>
    let t := (pc : Int) + (imm w).toInt
    t % 8 == 0 && decide (0 ≤ t) && decide (t < size)
  | _ => true

/-- A word that step 6 of Table 3-6 accepts at code address `pc` (R167). -/
def wordOk (v1 : Bool) (w : Word) (pc size : Nat) : Bool :=
  match kind? w with
  | none => false
  | some k => reservedZero w k && branchOk w k pc size && (if v1 then v1Ok w k else urgOk w k)

end Ulital

/-- The command a word spells by the bits of spec/opcode_table.json: the table gives no row bits, so none does. -/
def decodeTableWord (_nbits _w : Nat) : Option Instr := none

end Sys2Proof
end

