-- ==== Sys2Proof/Config.lean ====
section
/-! DEFINITION. What an implementation fixes and what the spec leaves open. Every constant here is opaque: nothing in
Lean can evaluate one, so no proof rests on a value of it. -/

namespace Sys2Proof.Config

/-- A free 64-bit value, numbered by the model's counter of free values (log entry 3). -/
opaque freeWord : Nat → Word

/-- Frank's random SESSION value, numbered by the counter of free values (R566). -/
opaque session : Nat → Word

/-- Frank's record signature over bytes 0 to 3,135: r then s, each 48 bytes big-endian (R558). -/
opaque frankSign : List Byte → BitVec 768

/-- Frank's record public key, 97 bytes (R558). -/
opaque frankKey : BitVec 776

/-- Salbister's certificate for the record key, 1,024 bytes, zero-padded (R563). -/
opaque frankCert : BitVec 8192

/-- Frank's serial number (R563). -/
opaque frankSerial : Word

/-- SHA-384 of the MC ROM (R534, measurement 1). -/
opaque romDigest : BitVec 384

/-- SHA-384 of a byte string (R533, R558, R581). -/
opaque sha384 : List Byte → BitVec 384

/-- The FP32 result of a class T library operation on its FP32 operands: operation, c, a, b (R265 to R267: it is the
same on every Tedder, within the accuracy of Table 7-7). -/
opaque tedder : Nat → BitVec 32 → BitVec 32 → BitVec 32 → BitVec 32

/-- The sign of the quiet NaN a library operation gives: operation, a, b (R264). -/
opaque nanSign : Nat → BitVec 32 → BitVec 32 → Bool

/-- The part's serial number (Table 18-5, fused). -/
opaque serial : Word

/-- PE_REFCLK inputs of the board: running and spread, the two bytes of CLK_REFCLK_STATUS (R656). -/
opaque refclk : BitVec 16

/-- Bytes of the Meadow device reserve, 8 at each DPA, numbered by the counter of free values: the spec gives no layout of
what the device keeps there (R653, log entry 39). -/
opaque reserveWord : Nat → Nat → Word

end Sys2Proof.Config
end

