-- ==== Sys2Proof/Machine/Regs.lean ====
section
/-! DEFINITION. The register file's description: one `Reg` per register of the spec's register tables, one `Fld` per
field, and for every register the access code and the reset values its table gives (R9, R11, R14; the tables of
chapters 1 to 19 and Table 18-5). A field that a table marks reserved is not listed: it reads 0 and ignores writes. -/

namespace Sys2Proof.Machine

/-- A register of the spec, by its place in the list below. -/
structure Reg where
  idx : Nat
  deriving DecidableEq, Repr

/-- A field of a register: bits `lo` to `lo + width - 1`. -/
structure Fld where
  reg : Reg
  lo : Nat
  width : Nat
  deriving DecidableEq, Repr

/-- The access codes of R11. -/
inductive Acc where
  | rw | ro | w1c | w1s | rwl | rstk
  deriving DecidableEq, Repr

/-- Who a register's instances belong to: the device (`n` instances), each partition (`k` each), a core, a channel, a
ring, a Courier connection. -/
inductive Scope where
  | device (n : Nat)
  | part (k : Nat)
  | core (k : Nat)
  | channel
  | ring
  | conn
  deriving DecidableEq, Repr

/-- A field with its access through the PF and through a VF, and its cold, warm and partition reset values (`none`:
the reset kind leaves the field as it is, R14). -/
structure FldSpec where
  fld : Fld
  pf : Acc
  vf : Acc
  cold : Nat
  warm : Option Nat
  part : Option Nat
  deriving DecidableEq, Repr

/-- The three reset kinds of R14. -/
inductive ResetKind where
  | cold | warm | part
  deriving DecidableEq, Repr

namespace Reg

def SYS_TOPOLOGY : Reg := ⟨0⟩
def SYS_HBM_STATUS : Reg := ⟨1⟩
def SYS_PORT_MAP : Reg := ⟨2⟩
def PART_DISP_COUNT : Reg := ⟨3⟩
def PART_LIFE_STATUS : Reg := ⟨4⟩
def PART_RULE_GEN : Reg := ⟨5⟩
def PART_PLAN_ADDR : Reg := ⟨6⟩
def PART_PLAN_SIZE : Reg := ⟨7⟩
def PART_PLAN_CTRL : Reg := ⟨8⟩
def PART_PLAN_STATUS : Reg := ⟨9⟩
def PART_PLAN_REPORT : Reg := ⟨10⟩
def PART_INTAKE_WINDOW : Reg := ⟨11⟩
def TIER_QUOTA_MEADOW : Reg := ⟨12⟩
def TIER_QUOTA_HEATH : Reg := ⟨13⟩
def TIER_QUOTA_MOOR : Reg := ⟨14⟩
def TIER_OCC_MEADOW : Reg := ⟨15⟩
def TIER_OCC_HEATH : Reg := ⟨16⟩
def TIER_OCC_MOOR : Reg := ⟨17⟩
def TIER_RESERVE_MEADOW : Reg := ⟨18⟩
def TIER_CAP_MOOR : Reg := ⟨19⟩
def TIER_QUOTA_ERR : Reg := ⟨20⟩
def PART_QUOTA_STATUS : Reg := ⟨21⟩
def PART_QUOTA_SO : Reg := ⟨22⟩
def PART_WAIT_TMO : Reg := ⟨23⟩
def SRT_CTRL : Reg := ⟨24⟩
def SRT_STATUS : Reg := ⟨25⟩
def SRT_IDENT : Reg := ⟨26⟩
def SRT_PC : Reg := ⟨27⟩
def SRT_EXIT : Reg := ⟨28⟩
def SRT_TRAP_VEC : Reg := ⟨29⟩
def SRT_TRAP_CAUSE : Reg := ⟨30⟩
def SRT_TRAP_PC : Reg := ⟨31⟩
def SRT_TRAP_VALUE : Reg := ⟨32⟩
def SRT_CYCLE : Reg := ⟨33⟩
def SRT_INSTRET : Reg := ⟨34⟩
def SRT_TIME : Reg := ⟨35⟩
def SRT_ISSUE_STATUS : Reg := ⟨36⟩
def SRT_ISSUE_TIMEOUT : Reg := ⟨37⟩
def SRT_FEAT : Reg := ⟨38⟩
def SRT_DBG_ADDR : Reg := ⟨39⟩
def SRT_DBG_DATA : Reg := ⟨40⟩
def LTE_BYTES_FULL : Reg := ⟨41⟩
def LTE_BYTES_HALF : Reg := ⟨42⟩
def LTE_CONV_STATUS : Reg := ⟨43⟩
def PART_META_BASE : Reg := ⟨44⟩
def BAL_IN : Reg := ⟨45⟩
def BAL_STORED : Reg := ⟨46⟩
def BAL_BELOW : Reg := ⟨47⟩
def BAL_REREAD : Reg := ⟨48⟩
def BAL_EXCEPT : Reg := ⟨49⟩
def BAL_STATUS : Reg := ⟨50⟩
def TED_OPS : Reg := ⟨51⟩
def TED_REGROWS : Reg := ⟨52⟩
def TED_FALLBACK : Reg := ⟨53⟩
def TED_CONV_STATUS : Reg := ⟨54⟩
def BAL_UNIT_STATUS : Reg := ⟨55⟩
def TED_UNIT_STATUS : Reg := ⟨56⟩
def BAL_CTX : Reg := ⟨57⟩
def TED_CTX : Reg := ⟨58⟩
def TIER_HEATH_MAPPED : Reg := ⟨59⟩
def TIER_HEATH_UNMAPPED : Reg := ⟨60⟩
def TIER_HEATH_RGN : Reg := ⟨61⟩
def TIER_MOOR_TGT : Reg := ⟨62⟩
def DTU_ROOT : Reg := ⟨63⟩
def DTU_PIN_QUOTA : Reg := ⟨64⟩
def DTU_PIN_USED : Reg := ⟨65⟩
def DTU_FAULT_ADDR : Reg := ⟨66⟩
def DTU_FAULT_INFO : Reg := ⟨67⟩
def DTU_CMD0 : Reg := ⟨68⟩
def DTU_CMD1 : Reg := ⟨69⟩
def DTU_CMD2 : Reg := ⟨70⟩
def DTU_CMD_CTRL : Reg := ⟨71⟩
def DTU_CMD_STATUS : Reg := ⟨72⟩
def TIER_WMARK_MEADOW : Reg := ⟨73⟩
def TIER_WMARK_HEATH : Reg := ⟨74⟩
def TIER_STRM_CFG : Reg := ⟨75⟩
def TIER_STRM_BASE : Reg := ⟨76⟩
def TIER_STRM_SIZE : Reg := ⟨77⟩
def TIER_STRM_SO : Reg := ⟨78⟩
def TIER_STRM_TIME : Reg := ⟨79⟩
def TIER_STRM_POS : Reg := ⟨80⟩
def TIER_STRM_SKIP : Reg := ⟨81⟩
def TIER_STRM_STATUS : Reg := ⟨82⟩
def TIER_LAT_HEATH : Reg := ⟨83⟩
def TIER_LAT_MOOR : Reg := ⟨84⟩
def TIER_TMO_HEATH : Reg := ⟨85⟩
def TIER_TMO_MOOR : Reg := ⟨86⟩
def TIER_LOSS_TIME : Reg := ⟨87⟩
def TIER_HEATH_STATE : Reg := ⟨88⟩
def TIER_MOOR_STATE : Reg := ⟨89⟩
def TIER_LOSS_CTRL : Reg := ⟨90⟩
def TIER_FAIL_STATUS : Reg := ⟨91⟩
def LLC_PIN_MASK : Reg := ⟨92⟩
def LLC_PIN_LINES : Reg := ⟨93⟩
def LLC_PIN_ERR : Reg := ⟨94⟩
def LLC_CMD0 : Reg := ⟨95⟩
def LLC_CMD1 : Reg := ⟨96⟩
def LLC_CMD2 : Reg := ⟨97⟩
def LLC_CMD_CTRL : Reg := ⟨98⟩
def LLC_CMD_STATUS : Reg := ⟨99⟩
def LLC_HIT_SECTORS : Reg := ⟨100⟩
def LLC_MISS_SECTORS : Reg := ⟨101⟩
def LLC_WB_BYTES : Reg := ⟨102⟩
def LLC_SLICE_STATUS : Reg := ⟨103⟩
def CAR_CH_CFG : Reg := ⟨104⟩
def CAR_CH_CTRL : Reg := ⟨105⟩
def CAR_CH_STATUS : Reg := ⟨106⟩
def CAR_CH_HEAD : Reg := ⟨107⟩
def CAR_CH_CUR : Reg := ⟨108⟩
def CAR_CH_RESIDUE : Reg := ⟨109⟩
def CAR_CH_ERR_ADDR : Reg := ⟨110⟩
def CAR_CH_ERR_INFO : Reg := ⟨111⟩
def CAR_CH_STALL_TMO : Reg := ⟨112⟩
def CAR_CH_BYTES : Reg := ⟨113⟩
def CAR_RING_BASE : Reg := ⟨114⟩
def CAR_RING_CFG : Reg := ⟨115⟩
def CAR_RING_PROD : Reg := ⟨116⟩
def CAR_RING_CONS : Reg := ⟨117⟩
def CAR_RING_STATUS : Reg := ⟨118⟩
def CAR_PACE_STATUS : Reg := ⟨119⟩
def SO_RANGE : Reg := ⟨120⟩
def SO_DB_STATUS : Reg := ⟨121⟩
def SO_WATCH_CFG : Reg := ⟨122⟩
def SO_WATCH_VAL : Reg := ⟨123⟩
def SO_PROG_CFG : Reg := ⟨124⟩
def SO_PROG_INIT : Reg := ⟨125⟩
def SO_PROG_RATE : Reg := ⟨126⟩
def SO_PROG_LAST_V : Reg := ⟨127⟩
def SO_PROG_LAST_T : Reg := ⟨128⟩
def SO_WALK_CFG : Reg := ⟨129⟩
def SO_WALK_BLOCK : Reg := ⟨130⟩
def SO_WALK_STATUS : Reg := ⟨131⟩
def SO_WALK_COUNT : Reg := ⟨132⟩
def SO_WALK_POS : Reg := ⟨133⟩
def SO_WALK_LOST : Reg := ⟨134⟩
def SO_SCHED_CFG : Reg := ⟨135⟩
def SO_U0_DEMOTED : Reg := ⟨136⟩
def SO_RETURN_NS : Reg := ⟨137⟩
def SO_PEER_RD_NS : Reg := ⟨138⟩
def SO_LATE : Reg := ⟨139⟩
def SO_RANGE_ERR : Reg := ⟨140⟩
def HOST_FN_STATUS : Reg := ⟨141⟩
def HOST_CPL_TMO : Reg := ⟨142⟩
def HOST_IRQ_MAP : Reg := ⟨143⟩
def HOST_BAR4_WIN : Reg := ⟨144⟩
def SYS_FEAT_OFFER : Reg := ⟨145⟩
def SYS_FEAT_ACCEPT : Reg := ⟨146⟩
def SYS_OPEN : Reg := ⟨147⟩
def HOST_PORT_STATUS : Reg := ⟨148⟩
def HOST_PEER_CMD0 : Reg := ⟨149⟩
def HOST_PEER_CMD1 : Reg := ⟨150⟩
def HOST_PEER_CMD2 : Reg := ⟨151⟩
def HOST_PEER_CMD3 : Reg := ⟨152⟩
def HOST_PEER_CMD4 : Reg := ⟨153⟩
def HOST_PEER_CMD5 : Reg := ⟨154⟩
def HOST_PEER_CTRL : Reg := ⟨155⟩
def HOST_PEER_STATUS : Reg := ⟨156⟩
def HOST_PEER_TABLE : Reg := ⟨157⟩
def HOST_IDE_CFG : Reg := ⟨158⟩
def HOST_IDE_STATUS : Reg := ⟨159⟩
def CRR_PORT_CFG : Reg := ⟨160⟩
def CRR_PORT_STATUS : Reg := ⟨161⟩
def CRR_PORT_MAC : Reg := ⟨162⟩
def CRR_PORT_IP : Reg := ⟨163⟩
def CRR_PRIO_MAP : Reg := ⟨164⟩
def CRR_PFC_CFG : Reg := ⟨165⟩
def CRR_PORT_DROP : Reg := ⟨166⟩
def CRR_CONN_RANGE : Reg := ⟨167⟩
def CRR_CMD0 : Reg := ⟨168⟩
def CRR_CMD1 : Reg := ⟨169⟩
def CRR_CMD2 : Reg := ⟨170⟩
def CRR_CMD3 : Reg := ⟨171⟩
def CRR_CMD4 : Reg := ⟨172⟩
def CRR_CMD5 : Reg := ⟨173⟩
def CRR_CMD6 : Reg := ⟨174⟩
def CRR_CMD7 : Reg := ⟨175⟩
def CRR_CMD_CTRL : Reg := ⟨176⟩
def CRR_CMD_STATUS : Reg := ⟨177⟩
def CRR_CONN_STATE : Reg := ⟨178⟩
def CRR_NVME_CFG : Reg := ⟨179⟩
def CRR_NVME_ADDR : Reg := ⟨180⟩
def CRR_NVME_NQN : Reg := ⟨181⟩
def CRR_NVME_STATUS : Reg := ⟨182⟩
def CRR_PTP_CFG : Reg := ⟨183⟩
def CRR_PTP_STATUS : Reg := ⟨184⟩
def CLK_TIME_NS : Reg := ⟨185⟩
def PART_LEASE_CMD0 : Reg := ⟨186⟩
def PART_LEASE_CMD1 : Reg := ⟨187⟩
def PART_LEASE_CTRL : Reg := ⟨188⟩
def PART_LEASE_STATUS : Reg := ⟨189⟩
def PART_LEASE_RESULT : Reg := ⟨190⟩
def PART_CORE_MASK : Reg := ⟨191⟩
def PART_CTRL : Reg := ⟨192⟩
def PART_STATE : Reg := ⟨193⟩
def PART_RECOVERY_STATUS : Reg := ⟨194⟩
def PART_EPOCH_DROPS : Reg := ⟨195⟩
def PART_ZERO_PENDING : Reg := ⟨196⟩
def PART_RECLAIM_TMO : Reg := ⟨197⟩
def MGT_SEC_STATUS : Reg := ⟨198⟩
def FRK_CMD0 : Reg := ⟨199⟩
def FRK_CMD1 : Reg := ⟨200⟩
def FRK_CMD_CTRL : Reg := ⟨201⟩
def FRK_CMD_STATUS : Reg := ⟨202⟩
def FRK_BUF : Reg := ⟨203⟩
def FRK_TALLY_STATUS : Reg := ⟨204⟩
def FRK_SHARE_K : Reg := ⟨205⟩
def FRK_SHARE_MJ : Reg := ⟨206⟩
def FRK_SHARE_UNASSIGNED : Reg := ⟨207⟩
def SYS_STRAPS : Reg := ⟨208⟩
def SYS_START_STATUS : Reg := ⟨209⟩
def SYS_ZERO_PENDING : Reg := ⟨210⟩
def SYS_RESET_CTRL : Reg := ⟨211⟩
def SYS_RESET_CAUSE : Reg := ⟨212⟩
def MGT_CFGS_CMD0 : Reg := ⟨213⟩
def MGT_CFGS_CMD1 : Reg := ⟨214⟩
def MGT_CFGS_CMD2 : Reg := ⟨215⟩
def MGT_CFGS_CTRL : Reg := ⟨216⟩
def MGT_CFGS_STATUS : Reg := ⟨217⟩
def PWR_PIN_FILTER : Reg := ⟨218⟩
def PWR_PWRFAIL_STATUS : Reg := ⟨219⟩
def DLS_ENTRY : Reg := ⟨220⟩
def DLS_PROD : Reg := ⟨221⟩
def DLS_CONS : Reg := ⟨222⟩
def DLS_STATUS : Reg := ⟨223⟩
def DLS_DROPPED : Reg := ⟨224⟩
def DLS_LOST : Reg := ⟨225⟩
def ERR_STATUS : Reg := ⟨226⟩
def ERR_DEVICE_CAUSE : Reg := ⟨227⟩
def ERR_FIRST_INFO : Reg := ⟨228⟩
def ERR_FIRST_ADDR : Reg := ⟨229⟩
def ERR_CE_HBM : Reg := ⟨230⟩
def ERR_UE_HBM : Reg := ⟨231⟩
def ERR_CE_OTHER : Reg := ⟨232⟩
def ERR_CXL : Reg := ⟨233⟩
def ERR_SCRUB_CFG : Reg := ⟨234⟩
def ERR_SCRUB_STATUS : Reg := ⟨235⟩
def ERR_RETIRE : Reg := ⟨236⟩
def ERR_RETIRE_IDX : Reg := ⟨237⟩
def ERR_RETIRE_DPA : Reg := ⟨238⟩
def ERR_DIE_STATUS : Reg := ⟨239⟩
def ERR_ESCALATE_MS : Reg := ⟨240⟩
def ERR_LOCK : Reg := ⟨241⟩
def SYS_IDENT : Reg := ⟨242⟩
def SYS_VERSION : Reg := ⟨243⟩
def SYS_FW_VERSION : Reg := ⟨244⟩
def SYS_SERIAL : Reg := ⟨245⟩
def SYS_BAD_ACCESS : Reg := ⟨246⟩
def MGT_RSV_ADDR : Reg := ⟨247⟩
def MGT_RSV_DATA : Reg := ⟨248⟩
def PWR_TEMP_DIE : Reg := ⟨249⟩
def PWR_TEMP_HBM : Reg := ⟨250⟩
def PWR_TEMP_MAX : Reg := ⟨251⟩
def PWR_POWER : Reg := ⟨252⟩
def PWR_LIMIT : Reg := ⟨253⟩
def PWR_THERM_CFG : Reg := ⟨254⟩
def PWR_THROTTLE_STATUS : Reg := ⟨255⟩
def PWR_RAIL_MV : Reg := ⟨256⟩
def CLK_PLL_STATUS : Reg := ⟨257⟩
def CLK_TIME_RATE : Reg := ⟨258⟩
def CLK_REFCLK_STATUS : Reg := ⟨259⟩

end Reg

namespace F


/-! Table 1-7 -/
def SYS_TOPOLOGY_MEADOW_PRESENT : Fld := ⟨Reg.SYS_TOPOLOGY, 0, 4⟩
def SYS_TOPOLOGY_POST_PRESENT : Fld := ⟨Reg.SYS_TOPOLOGY, 4, 4⟩
def SYS_TOPOLOGY_FRANK_PRESENT : Fld := ⟨Reg.SYS_TOPOLOGY, 8, 1⟩
def SYS_TOPOLOGY_ROLE_FALLBACK : Fld := ⟨Reg.SYS_TOPOLOGY, 9, 1⟩
def SYS_TOPOLOGY_HBM_SITE_POP : Fld := ⟨Reg.SYS_TOPOLOGY, 16, 8⟩
def SYS_TOPOLOGY_VARIANT : Fld := ⟨Reg.SYS_TOPOLOGY, 24, 4⟩
def SYS_TOPOLOGY_MEADOW_ONLINE : Fld := ⟨Reg.SYS_TOPOLOGY, 28, 4⟩

/-! Table 1-13 -/
def SYS_HBM_STATUS_ONLINE : Fld := ⟨Reg.SYS_HBM_STATUS, 0, 8⟩
def SYS_HBM_STATUS_MEADOW_GB : Fld := ⟨Reg.SYS_HBM_STATUS, 32, 16⟩

/-! Table 1-11 -/
def SYS_PORT_MAP_X16_ROLE : Fld := ⟨Reg.SYS_PORT_MAP, 0, 16⟩
def SYS_PORT_MAP_ETH_ROLE : Fld := ⟨Reg.SYS_PORT_MAP, 16, 16⟩

/-! Table 2-8 -/
def PART_DISP_COUNT_COUNT : Fld := ⟨Reg.PART_DISP_COUNT, 0, 28⟩
def PART_LIFE_STATUS_ILLEGAL_DISP : Fld := ⟨Reg.PART_LIFE_STATUS, 0, 1⟩
def PART_LIFE_STATUS_INTAKE_REFUSED : Fld := ⟨Reg.PART_LIFE_STATUS, 1, 1⟩
def PART_LIFE_STATUS_WB_STRAY : Fld := ⟨Reg.PART_LIFE_STATUS, 2, 1⟩
def PART_LIFE_STATUS_NOTICE_RING_FULL : Fld := ⟨Reg.PART_LIFE_STATUS, 3, 1⟩
def PART_LIFE_STATUS_NOTICE_LATE : Fld := ⟨Reg.PART_LIFE_STATUS, 4, 1⟩
def PART_LIFE_STATUS_REGROW_FALLBACK : Fld := ⟨Reg.PART_LIFE_STATUS, 5, 1⟩
def PART_RULE_GEN_ACTIVE_GEN : Fld := ⟨Reg.PART_RULE_GEN, 0, 32⟩

/-! Table 3-8 -/
def PART_PLAN_ADDR_ADDR : Fld := ⟨Reg.PART_PLAN_ADDR, 0, 64⟩
def PART_PLAN_SIZE_SIZE : Fld := ⟨Reg.PART_PLAN_SIZE, 0, 32⟩
def PART_PLAN_CTRL_LOAD : Fld := ⟨Reg.PART_PLAN_CTRL, 0, 1⟩
def PART_PLAN_CTRL_UNLOAD : Fld := ⟨Reg.PART_PLAN_CTRL, 1, 1⟩
def PART_PLAN_STATUS_STATE : Fld := ⟨Reg.PART_PLAN_STATUS, 0, 3⟩
def PART_PLAN_STATUS_DONE : Fld := ⟨Reg.PART_PLAN_STATUS, 3, 1⟩
def PART_PLAN_STATUS_BUSY_REFUSED : Fld := ⟨Reg.PART_PLAN_STATUS, 4, 1⟩
def PART_PLAN_STATUS_REASON : Fld := ⟨Reg.PART_PLAN_STATUS, 8, 8⟩
def PART_PLAN_REPORT_WORD : Fld := ⟨Reg.PART_PLAN_REPORT, 0, 64⟩
def PART_INTAKE_WINDOW_TILES : Fld := ⟨Reg.PART_INTAKE_WINDOW, 0, 7⟩

/-! Table 3-13 -/
def TIER_QUOTA_MEADOW_UNITS : Fld := ⟨Reg.TIER_QUOTA_MEADOW, 0, 32⟩
def TIER_QUOTA_HEATH_UNITS : Fld := ⟨Reg.TIER_QUOTA_HEATH, 0, 32⟩
def TIER_QUOTA_MOOR_UNITS : Fld := ⟨Reg.TIER_QUOTA_MOOR, 0, 32⟩
def TIER_OCC_MEADOW_UNITS : Fld := ⟨Reg.TIER_OCC_MEADOW, 0, 32⟩
def TIER_OCC_HEATH_UNITS : Fld := ⟨Reg.TIER_OCC_HEATH, 0, 32⟩
def TIER_OCC_MOOR_UNITS : Fld := ⟨Reg.TIER_OCC_MOOR, 0, 32⟩
def TIER_RESERVE_MEADOW_UNITS : Fld := ⟨Reg.TIER_RESERVE_MEADOW, 0, 32⟩
def TIER_CAP_MOOR_BYTES : Fld := ⟨Reg.TIER_CAP_MOOR, 0, 64⟩
def TIER_QUOTA_ERR_OVERCOMMIT : Fld := ⟨Reg.TIER_QUOTA_ERR, 0, 1⟩
def TIER_QUOTA_ERR_CAPACITY_LOST : Fld := ⟨Reg.TIER_QUOTA_ERR, 1, 1⟩

/-! Table 3-15 -/
def PART_QUOTA_STATUS_PRESSURE : Fld := ⟨Reg.PART_QUOTA_STATUS, 0, 3⟩
def PART_QUOTA_STATUS_STALLED : Fld := ⟨Reg.PART_QUOTA_STATUS, 3, 3⟩
def PART_QUOTA_STATUS_STALL_TIMEOUT : Fld := ⟨Reg.PART_QUOTA_STATUS, 6, 1⟩
def PART_QUOTA_STATUS_OVF_DOWN_TAKEN : Fld := ⟨Reg.PART_QUOTA_STATUS, 7, 1⟩
def PART_QUOTA_STATUS_OVF_RETURN_TAKEN : Fld := ⟨Reg.PART_QUOTA_STATUS, 8, 1⟩
def PART_QUOTA_STATUS_SO_ERR : Fld := ⟨Reg.PART_QUOTA_STATUS, 9, 1⟩
def PART_QUOTA_SO_SO : Fld := ⟨Reg.PART_QUOTA_SO, 0, 12⟩
def PART_QUOTA_SO_EN : Fld := ⟨Reg.PART_QUOTA_SO, 31, 1⟩
def PART_WAIT_TMO_MS : Fld := ⟨Reg.PART_WAIT_TMO, 0, 32⟩

/-! Table 4-12 -/
def SRT_CTRL_START : Fld := ⟨Reg.SRT_CTRL, 0, 1⟩
def SRT_CTRL_HALT_REQ : Fld := ⟨Reg.SRT_CTRL, 1, 1⟩
def SRT_CTRL_RESUME : Fld := ⟨Reg.SRT_CTRL, 2, 1⟩
def SRT_STATUS_STATE : Fld := ⟨Reg.SRT_STATUS, 0, 3⟩
def SRT_STATUS_HALT_CAUSE : Fld := ⟨Reg.SRT_STATUS, 3, 3⟩
def SRT_STATUS_IN_TRAP : Fld := ⟨Reg.SRT_STATUS, 6, 1⟩
def SRT_STATUS_REFUSED : Fld := ⟨Reg.SRT_STATUS, 7, 1⟩
def SRT_STATUS_ASYNC_PENDING : Fld := ⟨Reg.SRT_STATUS, 8, 1⟩
def SRT_STATUS_ISA_V1 : Fld := ⟨Reg.SRT_STATUS, 9, 1⟩
def SRT_IDENT_CORE : Fld := ⟨Reg.SRT_IDENT, 0, 6⟩
def SRT_IDENT_PARTITION : Fld := ⟨Reg.SRT_IDENT, 8, 5⟩
def SRT_IDENT_ASSIGNED : Fld := ⟨Reg.SRT_IDENT, 13, 1⟩
def SRT_IDENT_RANK : Fld := ⟨Reg.SRT_IDENT, 16, 6⟩
def SRT_PC_PC : Fld := ⟨Reg.SRT_PC, 0, 32⟩
def SRT_EXIT_CODE : Fld := ⟨Reg.SRT_EXIT, 0, 32⟩
def SRT_TRAP_VEC_EN : Fld := ⟨Reg.SRT_TRAP_VEC, 0, 1⟩
def SRT_TRAP_VEC_ADDR : Fld := ⟨Reg.SRT_TRAP_VEC, 3, 29⟩
def SRT_TRAP_CAUSE_CAUSE : Fld := ⟨Reg.SRT_TRAP_CAUSE, 0, 8⟩
def SRT_TRAP_CAUSE_IMPRECISE : Fld := ⟨Reg.SRT_TRAP_CAUSE, 8, 1⟩
def SRT_TRAP_CAUSE_DETAIL : Fld := ⟨Reg.SRT_TRAP_CAUSE, 12, 4⟩
def SRT_TRAP_PC_PC : Fld := ⟨Reg.SRT_TRAP_PC, 0, 32⟩
def SRT_TRAP_VALUE_VALUE : Fld := ⟨Reg.SRT_TRAP_VALUE, 0, 64⟩
def SRT_CYCLE_COUNT : Fld := ⟨Reg.SRT_CYCLE, 0, 64⟩
def SRT_INSTRET_COUNT : Fld := ⟨Reg.SRT_INSTRET, 0, 64⟩
def SRT_TIME_NS : Fld := ⟨Reg.SRT_TIME, 0, 64⟩
def SRT_ISSUE_STATUS_QUEUED : Fld := ⟨Reg.SRT_ISSUE_STATUS, 0, 6⟩
def SRT_ISSUE_STATUS_OUTSTANDING : Fld := ⟨Reg.SRT_ISSUE_STATUS, 6, 11⟩
def SRT_ISSUE_STATUS_NEXT_TICKET : Fld := ⟨Reg.SRT_ISSUE_STATUS, 32, 16⟩
def SRT_ISSUE_TIMEOUT_US : Fld := ⟨Reg.SRT_ISSUE_TIMEOUT, 0, 32⟩
def SRT_FEAT_BITS : Fld := ⟨Reg.SRT_FEAT, 0, 32⟩
def SRT_DBG_ADDR_ADDR : Fld := ⟨Reg.SRT_DBG_ADDR, 0, 32⟩
def SRT_DBG_DATA_DATA : Fld := ⟨Reg.SRT_DBG_DATA, 0, 64⟩

/-! Table 6-4 -/
def LTE_BYTES_FULL_BYTES : Fld := ⟨Reg.LTE_BYTES_FULL, 0, 64⟩
def LTE_BYTES_HALF_BYTES : Fld := ⟨Reg.LTE_BYTES_HALF, 0, 64⟩

/-! Table 6-6 -/
def LTE_CONV_STATUS_SATURATED : Fld := ⟨Reg.LTE_CONV_STATUS, 0, 1⟩
def LTE_CONV_STATUS_INF_LOST : Fld := ⟨Reg.LTE_CONV_STATUS, 1, 1⟩
def LTE_CONV_STATUS_NAN_LOST : Fld := ⟨Reg.LTE_CONV_STATUS, 2, 1⟩
def LTE_CONV_STATUS_SCALE_NAN : Fld := ⟨Reg.LTE_CONV_STATUS, 3, 1⟩

/-! Table 7-9 -/
def PART_META_BASE_ADDR : Fld := ⟨Reg.PART_META_BASE, 0, 64⟩
def BAL_IN_BYTES : Fld := ⟨Reg.BAL_IN, 0, 64⟩
def BAL_STORED_BYTES : Fld := ⟨Reg.BAL_STORED, 0, 64⟩
def BAL_BELOW_TILES : Fld := ⟨Reg.BAL_BELOW, 0, 32⟩
def BAL_REREAD_BYTES : Fld := ⟨Reg.BAL_REREAD, 0, 64⟩
def BAL_EXCEPT_COUNT : Fld := ⟨Reg.BAL_EXCEPT, 0, 64⟩
def BAL_STATUS_BELOW_RATIO : Fld := ⟨Reg.BAL_STATUS, 0, 1⟩
def BAL_STATUS_BALE_CRC : Fld := ⟨Reg.BAL_STATUS, 1, 1⟩
def BAL_STATUS_ENGINE_FAULT : Fld := ⟨Reg.BAL_STATUS, 2, 1⟩
def BAL_STATUS_ACCUM : Fld := ⟨Reg.BAL_STATUS, 3, 1⟩
def TED_OPS_COUNT : Fld := ⟨Reg.TED_OPS, 0, 64⟩
def TED_REGROWS_COUNT : Fld := ⟨Reg.TED_REGROWS, 0, 64⟩
def TED_FALLBACK_COUNT : Fld := ⟨Reg.TED_FALLBACK, 0, 32⟩
def TED_CONV_STATUS_SATURATED : Fld := ⟨Reg.TED_CONV_STATUS, 0, 1⟩
def TED_CONV_STATUS_INF_LOST : Fld := ⟨Reg.TED_CONV_STATUS, 1, 1⟩
def TED_CONV_STATUS_NAN_LOST : Fld := ⟨Reg.TED_CONV_STATUS, 2, 1⟩
def TED_CONV_STATUS_SCALE_NAN : Fld := ⟨Reg.TED_CONV_STATUS, 3, 1⟩
def TED_CONV_STATUS_OVERFLOW : Fld := ⟨Reg.TED_CONV_STATUS, 4, 1⟩
def TED_CONV_STATUS_NAN_MADE : Fld := ⟨Reg.TED_CONV_STATUS, 5, 1⟩
def TED_CONV_STATUS_RECIPE_SHAPE : Fld := ⟨Reg.TED_CONV_STATUS, 6, 1⟩

/-! Table 7-10 -/
def BAL_UNIT_STATUS_ONLINE : Fld := ⟨Reg.BAL_UNIT_STATUS, 0, 1⟩
def BAL_UNIT_STATUS_FAULT : Fld := ⟨Reg.BAL_UNIT_STATUS, 1, 1⟩
def BAL_UNIT_STATUS_BUSY : Fld := ⟨Reg.BAL_UNIT_STATUS, 2, 4⟩
def BAL_UNIT_STATUS_QUEUED : Fld := ⟨Reg.BAL_UNIT_STATUS, 32, 32⟩
def TED_UNIT_STATUS_ONLINE : Fld := ⟨Reg.TED_UNIT_STATUS, 0, 1⟩
def TED_UNIT_STATUS_FAULT : Fld := ⟨Reg.TED_UNIT_STATUS, 1, 1⟩
def TED_UNIT_STATUS_BUSY : Fld := ⟨Reg.TED_UNIT_STATUS, 2, 4⟩
def TED_UNIT_STATUS_QUEUED : Fld := ⟨Reg.TED_UNIT_STATUS, 32, 32⟩
def BAL_CTX_BUSY : Fld := ⟨Reg.BAL_CTX, 0, 1⟩
def BAL_CTX_PARTITION : Fld := ⟨Reg.BAL_CTX, 1, 5⟩
def BAL_CTX_EPOCH : Fld := ⟨Reg.BAL_CTX, 16, 16⟩
def TED_CTX_BUSY : Fld := ⟨Reg.TED_CTX, 0, 1⟩
def TED_CTX_PARTITION : Fld := ⟨Reg.TED_CTX, 1, 5⟩
def TED_CTX_EPOCH : Fld := ⟨Reg.TED_CTX, 16, 16⟩

/-! Table 8-2 -/
def TIER_HEATH_MAPPED_BYTES : Fld := ⟨Reg.TIER_HEATH_MAPPED, 0, 64⟩
def TIER_HEATH_UNMAPPED_BYTES : Fld := ⟨Reg.TIER_HEATH_UNMAPPED, 0, 64⟩
def TIER_HEATH_RGN_PORT : Fld := ⟨Reg.TIER_HEATH_RGN, 0, 3⟩
def TIER_HEATH_RGN_VALID : Fld := ⟨Reg.TIER_HEATH_RGN, 3, 1⟩
def TIER_HEATH_RGN_DECODER : Fld := ⟨Reg.TIER_HEATH_RGN, 4, 4⟩
def TIER_HEATH_RGN_SIZE : Fld := ⟨Reg.TIER_HEATH_RGN, 16, 20⟩
def TIER_HEATH_RGN_BASE : Fld := ⟨Reg.TIER_HEATH_RGN, 36, 28⟩
def TIER_MOOR_TGT_KIND : Fld := ⟨Reg.TIER_MOOR_TGT, 0, 2⟩
def TIER_MOOR_TGT_CONN : Fld := ⟨Reg.TIER_MOOR_TGT, 4, 16⟩
def TIER_MOOR_TGT_BLOCKS : Fld := ⟨Reg.TIER_MOOR_TGT, 20, 44⟩

/-! Table 8-4 -/
def DTU_ROOT_DPA : Fld := ⟨Reg.DTU_ROOT, 0, 41⟩
def DTU_PIN_QUOTA_PAGES : Fld := ⟨Reg.DTU_PIN_QUOTA, 0, 10⟩
def DTU_PIN_USED_PAGES : Fld := ⟨Reg.DTU_PIN_USED, 0, 10⟩

/-! Table 8-5 -/
def DTU_FAULT_ADDR_ADDR : Fld := ⟨Reg.DTU_FAULT_ADDR, 0, 64⟩
def DTU_FAULT_INFO_KIND : Fld := ⟨Reg.DTU_FAULT_INFO, 0, 3⟩
def DTU_FAULT_INFO_WRITE : Fld := ⟨Reg.DTU_FAULT_INFO, 3, 1⟩
def DTU_FAULT_INFO_AGENT : Fld := ⟨Reg.DTU_FAULT_INFO, 4, 3⟩
def DTU_FAULT_INFO_VALID : Fld := ⟨Reg.DTU_FAULT_INFO, 7, 1⟩
def DTU_FAULT_INFO_COUNT : Fld := ⟨Reg.DTU_FAULT_INFO, 16, 16⟩

/-! Table 8-10 -/
def DTU_CMD0_WORD : Fld := ⟨Reg.DTU_CMD0, 0, 64⟩
def DTU_CMD1_WORD : Fld := ⟨Reg.DTU_CMD1, 0, 64⟩
def DTU_CMD2_WORD : Fld := ⟨Reg.DTU_CMD2, 0, 64⟩
def DTU_CMD_CTRL_GO : Fld := ⟨Reg.DTU_CMD_CTRL, 0, 1⟩
def DTU_CMD_STATUS_DONE : Fld := ⟨Reg.DTU_CMD_STATUS, 0, 1⟩
def DTU_CMD_STATUS_BUSY_REFUSED : Fld := ⟨Reg.DTU_CMD_STATUS, 1, 1⟩
def DTU_CMD_STATUS_RESULT : Fld := ⟨Reg.DTU_CMD_STATUS, 4, 8⟩
def DTU_CMD_STATUS_UNITS_NOT_DONE : Fld := ⟨Reg.DTU_CMD_STATUS, 32, 32⟩

/-! Table 8-13 -/
def TIER_WMARK_MEADOW_HI : Fld := ⟨Reg.TIER_WMARK_MEADOW, 0, 8⟩
def TIER_WMARK_MEADOW_LO : Fld := ⟨Reg.TIER_WMARK_MEADOW, 8, 8⟩
def TIER_WMARK_MEADOW_EN : Fld := ⟨Reg.TIER_WMARK_MEADOW, 16, 1⟩
def TIER_WMARK_MEADOW_STUCK : Fld := ⟨Reg.TIER_WMARK_MEADOW, 17, 1⟩
def TIER_WMARK_HEATH_HI : Fld := ⟨Reg.TIER_WMARK_HEATH, 0, 8⟩
def TIER_WMARK_HEATH_LO : Fld := ⟨Reg.TIER_WMARK_HEATH, 8, 8⟩
def TIER_WMARK_HEATH_EN : Fld := ⟨Reg.TIER_WMARK_HEATH, 16, 1⟩
def TIER_WMARK_HEATH_STUCK : Fld := ⟨Reg.TIER_WMARK_HEATH, 17, 1⟩

/-! Table 8-14 -/
def TIER_STRM_CFG_EN : Fld := ⟨Reg.TIER_STRM_CFG, 0, 1⟩
def TIER_STRM_CFG_KIND : Fld := ⟨Reg.TIER_STRM_CFG, 1, 1⟩
def TIER_STRM_CFG_ORDER : Fld := ⟨Reg.TIER_STRM_CFG, 2, 2⟩
def TIER_STRM_CFG_DEPTH : Fld := ⟨Reg.TIER_STRM_CFG, 4, 4⟩
def TIER_STRM_CFG_BACKING : Fld := ⟨Reg.TIER_STRM_CFG, 8, 2⟩
def TIER_STRM_CFG_OUTSTANDING : Fld := ⟨Reg.TIER_STRM_CFG, 10, 6⟩
def TIER_STRM_CFG_LAYERS : Fld := ⟨Reg.TIER_STRM_CFG, 16, 16⟩
def TIER_STRM_BASE_ADDR : Fld := ⟨Reg.TIER_STRM_BASE, 0, 64⟩
def TIER_STRM_SIZE_VALUE : Fld := ⟨Reg.TIER_STRM_SIZE, 0, 64⟩
def TIER_STRM_SO_PROGRESS : Fld := ⟨Reg.TIER_STRM_SO, 0, 12⟩
def TIER_STRM_SO_READY : Fld := ⟨Reg.TIER_STRM_SO, 12, 12⟩
def TIER_STRM_SO_READY_EN : Fld := ⟨Reg.TIER_STRM_SO, 24, 1⟩
def TIER_STRM_TIME_NS : Fld := ⟨Reg.TIER_STRM_TIME, 0, 32⟩
def TIER_STRM_POS_VALUE : Fld := ⟨Reg.TIER_STRM_POS, 0, 64⟩
def TIER_STRM_SKIP_COUNT : Fld := ⟨Reg.TIER_STRM_SKIP, 0, 32⟩
def TIER_STRM_STATUS_CFG_ERR : Fld := ⟨Reg.TIER_STRM_STATUS, 0, 1⟩
def TIER_STRM_STATUS_LATE : Fld := ⟨Reg.TIER_STRM_STATUS, 1, 1⟩
def TIER_STRM_STATUS_BAD_ENTRY : Fld := ⟨Reg.TIER_STRM_STATUS, 2, 1⟩
def TIER_STRM_STATUS_REVOKED : Fld := ⟨Reg.TIER_STRM_STATUS, 3, 1⟩
def TIER_STRM_STATUS_FAILED : Fld := ⟨Reg.TIER_STRM_STATUS, 4, 1⟩

/-! Table 8-18 -/
def TIER_LAT_HEATH_NS : Fld := ⟨Reg.TIER_LAT_HEATH, 0, 32⟩
def TIER_LAT_MOOR_NS : Fld := ⟨Reg.TIER_LAT_MOOR, 0, 32⟩
def TIER_TMO_HEATH_US : Fld := ⟨Reg.TIER_TMO_HEATH, 0, 32⟩
def TIER_TMO_MOOR_US : Fld := ⟨Reg.TIER_TMO_MOOR, 0, 32⟩
def TIER_LOSS_TIME_S : Fld := ⟨Reg.TIER_LOSS_TIME, 0, 32⟩
def TIER_HEATH_STATE_PORT : Fld := ⟨Reg.TIER_HEATH_STATE, 0, 16⟩
def TIER_MOOR_STATE_TARGET : Fld := ⟨Reg.TIER_MOOR_STATE, 0, 32⟩
def TIER_LOSS_CTRL_DECLARE_HEATH : Fld := ⟨Reg.TIER_LOSS_CTRL, 0, 8⟩
def TIER_LOSS_CTRL_DECLARE_MOOR : Fld := ⟨Reg.TIER_LOSS_CTRL, 16, 16⟩
def TIER_FAIL_STATUS_HEATH_LATE : Fld := ⟨Reg.TIER_FAIL_STATUS, 0, 1⟩
def TIER_FAIL_STATUS_HEATH_FAIL : Fld := ⟨Reg.TIER_FAIL_STATUS, 1, 1⟩
def TIER_FAIL_STATUS_MOOR_LATE : Fld := ⟨Reg.TIER_FAIL_STATUS, 2, 1⟩
def TIER_FAIL_STATUS_MOOR_FAIL : Fld := ⟨Reg.TIER_FAIL_STATUS, 3, 1⟩
def TIER_FAIL_STATUS_LOST_BY_TIER : Fld := ⟨Reg.TIER_FAIL_STATUS, 4, 1⟩

/-! Table 9-7 -/
def LLC_PIN_MASK_WAYS : Fld := ⟨Reg.LLC_PIN_MASK, 4, 12⟩
def LLC_PIN_LINES_LINES : Fld := ⟨Reg.LLC_PIN_LINES, 0, 24⟩
def LLC_PIN_LINES_RANGES : Fld := ⟨Reg.LLC_PIN_LINES, 24, 6⟩
def LLC_PIN_ERR_BAD_WAYS : Fld := ⟨Reg.LLC_PIN_ERR, 0, 1⟩
def LLC_PIN_ERR_OVERCOMMIT : Fld := ⟨Reg.LLC_PIN_ERR, 1, 1⟩
def LLC_PIN_ERR_IN_USE : Fld := ⟨Reg.LLC_PIN_ERR, 2, 1⟩
def LLC_PIN_ERR_REVOKED : Fld := ⟨Reg.LLC_PIN_ERR, 3, 1⟩
def LLC_CMD0_WORD : Fld := ⟨Reg.LLC_CMD0, 0, 64⟩
def LLC_CMD1_WORD : Fld := ⟨Reg.LLC_CMD1, 0, 64⟩
def LLC_CMD2_WORD : Fld := ⟨Reg.LLC_CMD2, 0, 64⟩
def LLC_CMD_CTRL_GO : Fld := ⟨Reg.LLC_CMD_CTRL, 0, 1⟩
def LLC_CMD_STATUS_DONE : Fld := ⟨Reg.LLC_CMD_STATUS, 0, 1⟩
def LLC_CMD_STATUS_BUSY_REFUSED : Fld := ⟨Reg.LLC_CMD_STATUS, 1, 1⟩
def LLC_CMD_STATUS_PIN_DROPPED : Fld := ⟨Reg.LLC_CMD_STATUS, 2, 1⟩
def LLC_CMD_STATUS_RESULT : Fld := ⟨Reg.LLC_CMD_STATUS, 4, 8⟩
def LLC_HIT_SECTORS_COUNT : Fld := ⟨Reg.LLC_HIT_SECTORS, 0, 64⟩
def LLC_MISS_SECTORS_COUNT : Fld := ⟨Reg.LLC_MISS_SECTORS, 0, 64⟩
def LLC_WB_BYTES_BYTES : Fld := ⟨Reg.LLC_WB_BYTES, 0, 64⟩

/-! Table 9-8 -/
def LLC_SLICE_STATUS_ONLINE : Fld := ⟨Reg.LLC_SLICE_STATUS, 0, 1⟩
def LLC_SLICE_STATUS_TAG_UE : Fld := ⟨Reg.LLC_SLICE_STATUS, 1, 1⟩
def LLC_SLICE_STATUS_DATA_UE : Fld := ⟨Reg.LLC_SLICE_STATUS, 2, 1⟩
def LLC_SLICE_STATUS_WAYS_RETIRED : Fld := ⟨Reg.LLC_SLICE_STATUS, 16, 9⟩
def LLC_SLICE_STATUS_VICTIM_PEAK : Fld := ⟨Reg.LLC_SLICE_STATUS, 32, 16⟩

/-! Table 10-10 -/
def CAR_CH_CFG_POOL : Fld := ⟨Reg.CAR_CH_CFG, 0, 1⟩
def CAR_CH_CFG_BURST : Fld := ⟨Reg.CAR_CH_CFG, 1, 3⟩
def CAR_CH_CFG_MAX_LINES : Fld := ⟨Reg.CAR_CH_CFG, 4, 7⟩
def CAR_CH_CFG_PARTITION : Fld := ⟨Reg.CAR_CH_CFG, 16, 5⟩
def CAR_CH_CFG_HELD : Fld := ⟨Reg.CAR_CH_CFG, 21, 1⟩
def CAR_CH_CFG_ERR_RING : Fld := ⟨Reg.CAR_CH_CFG, 32, 9⟩
def CAR_CH_CTRL_START : Fld := ⟨Reg.CAR_CH_CTRL, 0, 1⟩
def CAR_CH_CTRL_KICK : Fld := ⟨Reg.CAR_CH_CTRL, 1, 1⟩
def CAR_CH_CTRL_ABORT : Fld := ⟨Reg.CAR_CH_CTRL, 2, 1⟩
def CAR_CH_CTRL_RESUME : Fld := ⟨Reg.CAR_CH_CTRL, 3, 1⟩
def CAR_CH_CTRL_SKIP : Fld := ⟨Reg.CAR_CH_CTRL, 4, 1⟩
def CAR_CH_CTRL_CLEAR : Fld := ⟨Reg.CAR_CH_CTRL, 5, 1⟩
def CAR_CH_STATUS_STATE : Fld := ⟨Reg.CAR_CH_STATUS, 0, 3⟩
def CAR_CH_STATUS_CAUSE : Fld := ⟨Reg.CAR_CH_STATUS, 3, 3⟩
def CAR_CH_STATUS_PARKED : Fld := ⟨Reg.CAR_CH_STATUS, 6, 3⟩
def CAR_CH_STATUS_KICK_PENDING : Fld := ⟨Reg.CAR_CH_STATUS, 9, 1⟩
def CAR_CH_STATUS_LINES : Fld := ⟨Reg.CAR_CH_STATUS, 16, 8⟩
def CAR_CH_STATUS_LAST_STATUS : Fld := ⟨Reg.CAR_CH_STATUS, 32, 16⟩
def CAR_CH_HEAD_ADDR : Fld := ⟨Reg.CAR_CH_HEAD, 0, 64⟩
def CAR_CH_CUR_ADDR : Fld := ⟨Reg.CAR_CH_CUR, 0, 64⟩
def CAR_CH_RESIDUE_BYTES : Fld := ⟨Reg.CAR_CH_RESIDUE, 0, 64⟩
def CAR_CH_ERR_ADDR_ADDR : Fld := ⟨Reg.CAR_CH_ERR_ADDR, 0, 64⟩
def CAR_CH_ERR_INFO_STATUS : Fld := ⟨Reg.CAR_CH_ERR_INFO, 0, 16⟩
def CAR_CH_ERR_INFO_DIR : Fld := ⟨Reg.CAR_CH_ERR_INFO, 16, 1⟩
def CAR_CH_ERR_INFO_SPACE : Fld := ⟨Reg.CAR_CH_ERR_INFO, 17, 2⟩
def CAR_CH_ERR_INFO_PEER : Fld := ⟨Reg.CAR_CH_ERR_INFO, 19, 6⟩
def CAR_CH_ERR_INFO_DESC : Fld := ⟨Reg.CAR_CH_ERR_INFO, 25, 1⟩
def CAR_CH_ERR_INFO_VALID : Fld := ⟨Reg.CAR_CH_ERR_INFO, 26, 1⟩
def CAR_CH_STALL_TMO_MS : Fld := ⟨Reg.CAR_CH_STALL_TMO, 0, 32⟩
def CAR_CH_BYTES_COUNT : Fld := ⟨Reg.CAR_CH_BYTES, 0, 64⟩

/-! Table 10-11 -/
def CAR_RING_BASE_HOST : Fld := ⟨Reg.CAR_RING_BASE, 0, 1⟩
def CAR_RING_BASE_ADDR : Fld := ⟨Reg.CAR_RING_BASE, 5, 59⟩
def CAR_RING_CFG_LOG2 : Fld := ⟨Reg.CAR_RING_CFG, 0, 5⟩
def CAR_RING_CFG_EN : Fld := ⟨Reg.CAR_RING_CFG, 5, 1⟩
def CAR_RING_CFG_CFG_ERR : Fld := ⟨Reg.CAR_RING_CFG, 6, 1⟩
def CAR_RING_CFG_COAL_COUNT : Fld := ⟨Reg.CAR_RING_CFG, 8, 8⟩
def CAR_RING_CFG_COAL_US : Fld := ⟨Reg.CAR_RING_CFG, 16, 16⟩
def CAR_RING_CFG_VECTOR : Fld := ⟨Reg.CAR_RING_CFG, 32, 11⟩
def CAR_RING_CFG_PARTITION : Fld := ⟨Reg.CAR_RING_CFG, 48, 5⟩
def CAR_RING_PROD_COUNT : Fld := ⟨Reg.CAR_RING_PROD, 0, 32⟩
def CAR_RING_CONS_COUNT : Fld := ⟨Reg.CAR_RING_CONS, 0, 32⟩
def CAR_RING_STATUS_FULL_WAIT : Fld := ⟨Reg.CAR_RING_STATUS, 0, 1⟩
def CAR_RING_STATUS_WRITE_FAIL : Fld := ⟨Reg.CAR_RING_STATUS, 1, 1⟩
def CAR_RING_STATUS_PENDING : Fld := ⟨Reg.CAR_RING_STATUS, 2, 1⟩

/-! Table 10-12 -/
def CAR_PACE_STATUS_IN_USE : Fld := ⟨Reg.CAR_PACE_STATUS, 0, 9⟩
def CAR_PACE_STATUS_PEAK : Fld := ⟨Reg.CAR_PACE_STATUS, 16, 9⟩
def CAR_PACE_STATUS_U0_WAITS : Fld := ⟨Reg.CAR_PACE_STATUS, 32, 32⟩

/-! Table 11-9 -/
def SO_RANGE_BASE : Fld := ⟨Reg.SO_RANGE, 0, 12⟩
def SO_RANGE_COUNT : Fld := ⟨Reg.SO_RANGE, 12, 13⟩
def SO_DB_STATUS_BAD_WRITE : Fld := ⟨Reg.SO_DB_STATUS, 0, 1⟩
def SO_DB_STATUS_OUT_OF_RANGE : Fld := ⟨Reg.SO_DB_STATUS, 1, 1⟩
def SO_DB_STATUS_COUNT : Fld := ⟨Reg.SO_DB_STATUS, 16, 16⟩
def SO_WATCH_CFG_SO : Fld := ⟨Reg.SO_WATCH_CFG, 0, 12⟩
def SO_WATCH_CFG_VECTOR : Fld := ⟨Reg.SO_WATCH_CFG, 12, 11⟩
def SO_WATCH_CFG_ARM : Fld := ⟨Reg.SO_WATCH_CFG, 23, 1⟩
def SO_WATCH_CFG_FIRED : Fld := ⟨Reg.SO_WATCH_CFG, 24, 1⟩
def SO_WATCH_CFG_REVOKED : Fld := ⟨Reg.SO_WATCH_CFG, 25, 1⟩
def SO_WATCH_VAL_THRESHOLD : Fld := ⟨Reg.SO_WATCH_VAL, 0, 64⟩
def SO_PROG_CFG_SO : Fld := ⟨Reg.SO_PROG_CFG, 0, 12⟩
def SO_PROG_CFG_EN : Fld := ⟨Reg.SO_PROG_CFG, 12, 1⟩
def SO_PROG_CFG_SHIFT : Fld := ⟨Reg.SO_PROG_CFG, 13, 3⟩
def SO_PROG_CFG_CFG_ERR : Fld := ⟨Reg.SO_PROG_CFG, 16, 1⟩
def SO_PROG_INIT_NS : Fld := ⟨Reg.SO_PROG_INIT, 0, 32⟩
def SO_PROG_RATE_NS : Fld := ⟨Reg.SO_PROG_RATE, 0, 32⟩
def SO_PROG_LAST_V_VALUE : Fld := ⟨Reg.SO_PROG_LAST_V, 0, 64⟩
def SO_PROG_LAST_T_NS : Fld := ⟨Reg.SO_PROG_LAST_T, 0, 64⟩
def SO_WALK_CFG_EN : Fld := ⟨Reg.SO_WALK_CFG, 0, 1⟩
def SO_WALK_CFG_START_SO : Fld := ⟨Reg.SO_WALK_CFG, 1, 12⟩
def SO_WALK_BLOCK_ADDR : Fld := ⟨Reg.SO_WALK_BLOCK, 0, 64⟩
def SO_WALK_STATUS_STATE : Fld := ⟨Reg.SO_WALK_STATUS, 0, 2⟩
def SO_WALK_STATUS_BAD_BLOCK : Fld := ⟨Reg.SO_WALK_STATUS, 2, 1⟩
def SO_WALK_STATUS_SEG_LOST : Fld := ⟨Reg.SO_WALK_STATUS, 3, 1⟩
def SO_WALK_STATUS_ITEM_FAIL : Fld := ⟨Reg.SO_WALK_STATUS, 4, 1⟩
def SO_WALK_STATUS_REVOKED : Fld := ⟨Reg.SO_WALK_STATUS, 5, 1⟩
def SO_WALK_STATUS_LATE : Fld := ⟨Reg.SO_WALK_STATUS, 6, 1⟩
def SO_WALK_COUNT_WALKS : Fld := ⟨Reg.SO_WALK_COUNT, 0, 32⟩
def SO_WALK_POS_LO : Fld := ⟨Reg.SO_WALK_POS, 0, 32⟩
def SO_WALK_POS_HI : Fld := ⟨Reg.SO_WALK_POS, 32, 32⟩
def SO_WALK_LOST_STEP : Fld := ⟨Reg.SO_WALK_LOST, 0, 32⟩
def SO_SCHED_CFG_U0_ALLOW : Fld := ⟨Reg.SO_SCHED_CFG, 0, 1⟩
def SO_U0_DEMOTED_COUNT : Fld := ⟨Reg.SO_U0_DEMOTED, 0, 32⟩
def SO_RETURN_NS_NS : Fld := ⟨Reg.SO_RETURN_NS, 0, 32⟩
def SO_PEER_RD_NS_NS : Fld := ⟨Reg.SO_PEER_RD_NS, 0, 32⟩
def SO_LATE_LATE_START : Fld := ⟨Reg.SO_LATE, 0, 32⟩
def SO_LATE_LATE_END : Fld := ⟨Reg.SO_LATE, 32, 32⟩

/-! Table 11-10 -/
def SO_RANGE_ERR_OVERLAP : Fld := ⟨Reg.SO_RANGE_ERR, 0, 1⟩

/-! Table 12-9 -/
def HOST_FN_STATUS_BME : Fld := ⟨Reg.HOST_FN_STATUS, 0, 1⟩
def HOST_FN_STATUS_FLR_ACTIVE : Fld := ⟨Reg.HOST_FN_STATUS, 1, 1⟩
def HOST_FN_STATUS_PENDING : Fld := ⟨Reg.HOST_FN_STATUS, 2, 10⟩
def HOST_FN_STATUS_PENDING_FULL : Fld := ⟨Reg.HOST_FN_STATUS, 12, 1⟩
def HOST_FN_STATUS_QUAR_TAGS : Fld := ⟨Reg.HOST_FN_STATUS, 32, 16⟩
def HOST_FN_STATUS_LATE_CPL : Fld := ⟨Reg.HOST_FN_STATUS, 48, 16⟩
def HOST_CPL_TMO_US : Fld := ⟨Reg.HOST_CPL_TMO, 0, 32⟩
def HOST_IRQ_MAP_VECTOR : Fld := ⟨Reg.HOST_IRQ_MAP, 0, 11⟩
def HOST_IRQ_MAP_EN : Fld := ⟨Reg.HOST_IRQ_MAP, 11, 1⟩
def HOST_BAR4_WIN_BASE : Fld := ⟨Reg.HOST_BAR4_WIN, 36, 21⟩
def SYS_FEAT_OFFER_BITS : Fld := ⟨Reg.SYS_FEAT_OFFER, 0, 32⟩
def SYS_FEAT_ACCEPT_BITS : Fld := ⟨Reg.SYS_FEAT_ACCEPT, 0, 32⟩
def SYS_OPEN_OPEN : Fld := ⟨Reg.SYS_OPEN, 0, 1⟩
def SYS_OPEN_OPENED : Fld := ⟨Reg.SYS_OPEN, 1, 1⟩
def SYS_OPEN_ERR : Fld := ⟨Reg.SYS_OPEN, 2, 3⟩

/-! Table 12-10 -/
def HOST_PORT_STATUS_UP : Fld := ⟨Reg.HOST_PORT_STATUS, 0, 1⟩
def HOST_PORT_STATUS_GEN : Fld := ⟨Reg.HOST_PORT_STATUS, 1, 3⟩
def HOST_PORT_STATUS_WIDTH : Fld := ⟨Reg.HOST_PORT_STATUS, 4, 5⟩
def HOST_PORT_STATUS_FLIT : Fld := ⟨Reg.HOST_PORT_STATUS, 9, 1⟩
def HOST_PORT_STATUS_CXL : Fld := ⟨Reg.HOST_PORT_STATUS, 10, 1⟩
def HOST_PORT_STATUS_FOREIGN : Fld := ⟨Reg.HOST_PORT_STATUS, 11, 1⟩
def HOST_PORT_STATUS_DOWN_COUNT : Fld := ⟨Reg.HOST_PORT_STATUS, 16, 16⟩
def HOST_PORT_STATUS_TAGS_OUT : Fld := ⟨Reg.HOST_PORT_STATUS, 32, 11⟩
def HOST_PORT_STATUS_TAGS_QUAR : Fld := ⟨Reg.HOST_PORT_STATUS, 48, 11⟩
def HOST_PEER_CMD0_WORD : Fld := ⟨Reg.HOST_PEER_CMD0, 0, 64⟩
def HOST_PEER_CMD1_WORD : Fld := ⟨Reg.HOST_PEER_CMD1, 0, 64⟩
def HOST_PEER_CMD2_WORD : Fld := ⟨Reg.HOST_PEER_CMD2, 0, 64⟩
def HOST_PEER_CMD3_WORD : Fld := ⟨Reg.HOST_PEER_CMD3, 0, 64⟩
def HOST_PEER_CMD4_WORD : Fld := ⟨Reg.HOST_PEER_CMD4, 0, 64⟩
def HOST_PEER_CMD5_WORD : Fld := ⟨Reg.HOST_PEER_CMD5, 0, 64⟩
def HOST_PEER_CTRL_GO : Fld := ⟨Reg.HOST_PEER_CTRL, 0, 1⟩
def HOST_PEER_STATUS_DONE : Fld := ⟨Reg.HOST_PEER_STATUS, 0, 1⟩
def HOST_PEER_STATUS_BUSY_REFUSED : Fld := ⟨Reg.HOST_PEER_STATUS, 1, 1⟩
def HOST_PEER_STATUS_RESULT : Fld := ⟨Reg.HOST_PEER_STATUS, 8, 8⟩
def HOST_PEER_STATUS_PROBE_STATUS : Fld := ⟨Reg.HOST_PEER_STATUS, 16, 16⟩
def HOST_PEER_TABLE_WORD : Fld := ⟨Reg.HOST_PEER_TABLE, 0, 64⟩
def HOST_IDE_CFG_REQUIRE : Fld := ⟨Reg.HOST_IDE_CFG, 0, 1⟩
def HOST_IDE_STATUS_INSECURE : Fld := ⟨Reg.HOST_IDE_STATUS, 0, 9⟩

/-! Table 13-10 -/
def CRR_PORT_CFG_MODE : Fld := ⟨Reg.CRR_PORT_CFG, 0, 3⟩
def CRR_PORT_CFG_RETRAIN : Fld := ⟨Reg.CRR_PORT_CFG, 3, 1⟩
def CRR_PORT_CFG_TAGGED : Fld := ⟨Reg.CRR_PORT_CFG, 4, 1⟩
def CRR_PORT_CFG_VID : Fld := ⟨Reg.CRR_PORT_CFG, 5, 12⟩
def CRR_PORT_CFG_IP6 : Fld := ⟨Reg.CRR_PORT_CFG, 17, 1⟩
def CRR_PORT_CFG_MAX_FRAME : Fld := ⟨Reg.CRR_PORT_CFG, 18, 14⟩
def CRR_PORT_CFG_UDP : Fld := ⟨Reg.CRR_PORT_CFG, 32, 16⟩
def CRR_PORT_STATUS_UP : Fld := ⟨Reg.CRR_PORT_STATUS, 0, 1⟩
def CRR_PORT_STATUS_MODE : Fld := ⟨Reg.CRR_PORT_STATUS, 1, 3⟩
def CRR_PORT_STATUS_CFG_ERR : Fld := ⟨Reg.CRR_PORT_STATUS, 4, 1⟩
def CRR_PORT_STATUS_STORM : Fld := ⟨Reg.CRR_PORT_STATUS, 5, 8⟩
def CRR_PORT_STATUS_REPLAY_FREE : Fld := ⟨Reg.CRR_PORT_STATUS, 32, 32⟩
def CRR_PORT_MAC_MAC : Fld := ⟨Reg.CRR_PORT_MAC, 0, 48⟩
def CRR_PORT_IP_ADDR : Fld := ⟨Reg.CRR_PORT_IP, 0, 64⟩
def CRR_PRIO_MAP_PRIO0 : Fld := ⟨Reg.CRR_PRIO_MAP, 0, 3⟩
def CRR_PRIO_MAP_PRIO1 : Fld := ⟨Reg.CRR_PRIO_MAP, 4, 3⟩
def CRR_PRIO_MAP_PRIO2 : Fld := ⟨Reg.CRR_PRIO_MAP, 8, 3⟩
def CRR_PRIO_MAP_PRIO3 : Fld := ⟨Reg.CRR_PRIO_MAP, 12, 3⟩
def CRR_PRIO_MAP_PRIO4 : Fld := ⟨Reg.CRR_PRIO_MAP, 16, 3⟩
def CRR_PRIO_MAP_DSCP0 : Fld := ⟨Reg.CRR_PRIO_MAP, 32, 6⟩
def CRR_PRIO_MAP_DSCP1 : Fld := ⟨Reg.CRR_PRIO_MAP, 38, 6⟩
def CRR_PRIO_MAP_DSCP2 : Fld := ⟨Reg.CRR_PRIO_MAP, 44, 6⟩
def CRR_PRIO_MAP_DSCP3 : Fld := ⟨Reg.CRR_PRIO_MAP, 50, 6⟩
def CRR_PRIO_MAP_DSCP4 : Fld := ⟨Reg.CRR_PRIO_MAP, 56, 6⟩
def CRR_PFC_CFG_PFC_EN : Fld := ⟨Reg.CRR_PFC_CFG, 0, 8⟩
def CRR_PFC_CFG_XOFF_KIB : Fld := ⟨Reg.CRR_PFC_CFG, 8, 12⟩
def CRR_PFC_CFG_PFC_WD_MS : Fld := ⟨Reg.CRR_PFC_CFG, 20, 12⟩
def CRR_PORT_DROP_FCS : Fld := ⟨Reg.CRR_PORT_DROP, 0, 16⟩
def CRR_PORT_DROP_CHECK : Fld := ⟨Reg.CRR_PORT_DROP, 16, 16⟩
def CRR_PORT_DROP_BUFFER : Fld := ⟨Reg.CRR_PORT_DROP, 32, 16⟩
def CRR_PORT_DROP_STRAY : Fld := ⟨Reg.CRR_PORT_DROP, 48, 16⟩

/-! Table 13-11 -/
def CRR_CONN_RANGE_BASE : Fld := ⟨Reg.CRR_CONN_RANGE, 0, 12⟩
def CRR_CONN_RANGE_COUNT : Fld := ⟨Reg.CRR_CONN_RANGE, 12, 13⟩
def CRR_CMD0_OP : Fld := ⟨Reg.CRR_CMD0, 0, 8⟩
def CRR_CMD0_CONN : Fld := ⟨Reg.CRR_CMD0, 8, 12⟩
def CRR_CMD0_PORT : Fld := ⟨Reg.CRR_CMD0, 20, 3⟩
def CRR_CMD0_LISTEN : Fld := ⟨Reg.CRR_CMD0, 23, 1⟩
def CRR_CMD0_REMOTE_CONN : Fld := ⟨Reg.CRR_CMD0, 24, 12⟩
def CRR_CMD0_VER_MAX : Fld := ⟨Reg.CRR_CMD0, 36, 4⟩
def CRR_CMD1_W : Fld := ⟨Reg.CRR_CMD1, 0, 24⟩
def CRR_CMD1_REPLAY_KIB : Fld := ⟨Reg.CRR_CMD1, 24, 16⟩
def CRR_CMD1_RESP_S : Fld := ⟨Reg.CRR_CMD1, 40, 10⟩
def CRR_CMD2_COOKIE : Fld := ⟨Reg.CRR_CMD2, 0, 32⟩
def CRR_CMD3_EXPORT_BASE : Fld := ⟨Reg.CRR_CMD3, 0, 57⟩
def CRR_CMD4_REMOTE_IP : Fld := ⟨Reg.CRR_CMD4, 0, 64⟩
def CRR_CMD5_REMOTE_IP : Fld := ⟨Reg.CRR_CMD5, 0, 64⟩
def CRR_CMD6_EXPORT_BLOCKS : Fld := ⟨Reg.CRR_CMD6, 0, 40⟩
def CRR_CMD7_NEXT_HOP_MAC : Fld := ⟨Reg.CRR_CMD7, 0, 48⟩
def CRR_CMD_CTRL_GO : Fld := ⟨Reg.CRR_CMD_CTRL, 0, 1⟩
def CRR_CMD_STATUS_DONE : Fld := ⟨Reg.CRR_CMD_STATUS, 0, 1⟩
def CRR_CMD_STATUS_BUSY_REFUSED : Fld := ⟨Reg.CRR_CMD_STATUS, 1, 1⟩
def CRR_CMD_STATUS_RESULT : Fld := ⟨Reg.CRR_CMD_STATUS, 4, 8⟩
def CRR_CONN_STATE_STATE : Fld := ⟨Reg.CRR_CONN_STATE, 0, 3⟩
def CRR_CONN_STATE_VER : Fld := ⟨Reg.CRR_CONN_STATE, 3, 4⟩
def CRR_CONN_STATE_PORT : Fld := ⟨Reg.CRR_CONN_STATE, 7, 3⟩
def CRR_CONN_STATE_PARTITION : Fld := ⟨Reg.CRR_CONN_STATE, 10, 5⟩
def CRR_CONN_STATE_GEN : Fld := ⟨Reg.CRR_CONN_STATE, 15, 8⟩
def CRR_CONN_STATE_RETRIES : Fld := ⟨Reg.CRR_CONN_STATE, 23, 3⟩
def CRR_CONN_STATE_IN_DOUBT : Fld := ⟨Reg.CRR_CONN_STATE, 32, 16⟩
def CRR_CONN_STATE_FAILS : Fld := ⟨Reg.CRR_CONN_STATE, 48, 16⟩

/-! Table 13-12 -/
def CRR_NVME_CFG_EN : Fld := ⟨Reg.CRR_NVME_CFG, 0, 1⟩
def CRR_NVME_CFG_PORT : Fld := ⟨Reg.CRR_NVME_CFG, 1, 3⟩
def CRR_NVME_CFG_QPS : Fld := ⟨Reg.CRR_NVME_CFG, 4, 3⟩
def CRR_NVME_CFG_DEPTH : Fld := ⟨Reg.CRR_NVME_CFG, 7, 8⟩
def CRR_NVME_CFG_TMO_EXP : Fld := ⟨Reg.CRR_NVME_CFG, 15, 4⟩
def CRR_NVME_CFG_NSID : Fld := ⟨Reg.CRR_NVME_CFG, 32, 32⟩
def CRR_NVME_ADDR_ADDR : Fld := ⟨Reg.CRR_NVME_ADDR, 0, 64⟩
def CRR_NVME_NQN_ADDR : Fld := ⟨Reg.CRR_NVME_NQN, 0, 57⟩
def CRR_NVME_STATUS_STATE : Fld := ⟨Reg.CRR_NVME_STATUS, 0, 3⟩
def CRR_NVME_STATUS_RESULT : Fld := ⟨Reg.CRR_NVME_STATUS, 3, 8⟩
def CRR_PTP_CFG_EN : Fld := ⟨Reg.CRR_PTP_CFG, 0, 1⟩
def CRR_PTP_CFG_PORT : Fld := ⟨Reg.CRR_PTP_CFG, 1, 3⟩
def CRR_PTP_CFG_TRANSPORT : Fld := ⟨Reg.CRR_PTP_CFG, 4, 2⟩
def CRR_PTP_CFG_P2P : Fld := ⟨Reg.CRR_PTP_CFG, 6, 1⟩
def CRR_PTP_CFG_DOMAIN : Fld := ⟨Reg.CRR_PTP_CFG, 7, 8⟩
def CRR_PTP_STATUS_STATE : Fld := ⟨Reg.CRR_PTP_STATUS, 0, 2⟩
def CRR_PTP_STATUS_FAR : Fld := ⟨Reg.CRR_PTP_STATUS, 2, 1⟩
def CRR_PTP_STATUS_OFFSET : Fld := ⟨Reg.CRR_PTP_STATUS, 32, 32⟩
def CLK_TIME_NS_NS : Fld := ⟨Reg.CLK_TIME_NS, 0, 64⟩

/-! Table 14-11 -/
def PART_LEASE_CMD0_OP : Fld := ⟨Reg.PART_LEASE_CMD0, 0, 8⟩
def PART_LEASE_CMD0_KIND : Fld := ⟨Reg.PART_LEASE_CMD0, 8, 4⟩
def PART_LEASE_CMD0_INDEX : Fld := ⟨Reg.PART_LEASE_CMD0, 12, 12⟩
def PART_LEASE_CMD0_PARTITION : Fld := ⟨Reg.PART_LEASE_CMD0, 24, 5⟩
def PART_LEASE_CMD1_CORES : Fld := ⟨Reg.PART_LEASE_CMD1, 0, 64⟩
def PART_LEASE_CTRL_GO : Fld := ⟨Reg.PART_LEASE_CTRL, 0, 1⟩
def PART_LEASE_STATUS_DONE : Fld := ⟨Reg.PART_LEASE_STATUS, 0, 1⟩
def PART_LEASE_STATUS_BUSY_REFUSED : Fld := ⟨Reg.PART_LEASE_STATUS, 1, 1⟩
def PART_LEASE_STATUS_RESULT : Fld := ⟨Reg.PART_LEASE_STATUS, 8, 8⟩
def PART_LEASE_RESULT_STATE : Fld := ⟨Reg.PART_LEASE_RESULT, 0, 2⟩
def PART_LEASE_RESULT_HOLDER : Fld := ⟨Reg.PART_LEASE_RESULT, 2, 5⟩
def PART_LEASE_RESULT_EPOCH : Fld := ⟨Reg.PART_LEASE_RESULT, 32, 32⟩
def PART_CORE_MASK_CORES : Fld := ⟨Reg.PART_CORE_MASK, 0, 64⟩
def PART_CTRL_RESET : Fld := ⟨Reg.PART_CTRL, 0, 1⟩
def PART_STATE_STATE : Fld := ⟨Reg.PART_STATE, 0, 2⟩
def PART_RECOVERY_STATUS_FATAL_CAUSE : Fld := ⟨Reg.PART_RECOVERY_STATUS, 0, 4⟩
def PART_RECOVERY_STATUS_CTX_RECLAIMED : Fld := ⟨Reg.PART_RECOVERY_STATUS, 4, 1⟩
def PART_RECOVERY_STATUS_RESET_DONE : Fld := ⟨Reg.PART_RECOVERY_STATUS, 5, 1⟩
def PART_EPOCH_DROPS_COUNT : Fld := ⟨Reg.PART_EPOCH_DROPS, 0, 32⟩
def PART_ZERO_PENDING_BYTES : Fld := ⟨Reg.PART_ZERO_PENDING, 0, 64⟩
def PART_RECLAIM_TMO_MS : Fld := ⟨Reg.PART_RECLAIM_TMO, 0, 32⟩

/-! Table 14-13 -/
def MGT_SEC_STATUS_IMAGE : Fld := ⟨Reg.MGT_SEC_STATUS, 0, 1⟩
def MGT_SEC_STATUS_KEY_SLOT : Fld := ⟨Reg.MGT_SEC_STATUS, 1, 2⟩
def MGT_SEC_STATUS_DEBUG_UNLOCKED : Fld := ⟨Reg.MGT_SEC_STATUS, 3, 1⟩
def MGT_SEC_STATUS_SVN : Fld := ⟨Reg.MGT_SEC_STATUS, 16, 16⟩

/-! Table 15-14 -/
def FRK_CMD0_OP : Fld := ⟨Reg.FRK_CMD0, 0, 8⟩
def FRK_CMD0_ARG8 : Fld := ⟨Reg.FRK_CMD0, 8, 8⟩
def FRK_CMD1_ARG64 : Fld := ⟨Reg.FRK_CMD1, 0, 64⟩
def FRK_CMD_CTRL_GO : Fld := ⟨Reg.FRK_CMD_CTRL, 0, 1⟩
def FRK_CMD_STATUS_DONE : Fld := ⟨Reg.FRK_CMD_STATUS, 0, 1⟩
def FRK_CMD_STATUS_BUSY_REFUSED : Fld := ⟨Reg.FRK_CMD_STATUS, 1, 1⟩
def FRK_CMD_STATUS_RESULT : Fld := ⟨Reg.FRK_CMD_STATUS, 4, 4⟩
def FRK_CMD_STATUS_LENGTH : Fld := ⟨Reg.FRK_CMD_STATUS, 16, 16⟩
def FRK_BUF_DATA : Fld := ⟨Reg.FRK_BUF, 0, 64⟩
def FRK_TALLY_STATUS_LINK_UP : Fld := ⟨Reg.FRK_TALLY_STATUS, 0, 1⟩
def FRK_TALLY_STATUS_UNACKED : Fld := ⟨Reg.FRK_TALLY_STATUS, 1, 1⟩
def FRK_TALLY_STATUS_RETRIES : Fld := ⟨Reg.FRK_TALLY_STATUS, 16, 16⟩
def FRK_TALLY_STATUS_LAST_SEQ : Fld := ⟨Reg.FRK_TALLY_STATUS, 32, 32⟩
def FRK_SHARE_K_BYTES : Fld := ⟨Reg.FRK_SHARE_K, 0, 32⟩
def FRK_SHARE_MJ_MJ : Fld := ⟨Reg.FRK_SHARE_MJ, 0, 64⟩
def FRK_SHARE_UNASSIGNED_MJ : Fld := ⟨Reg.FRK_SHARE_UNASSIGNED, 0, 64⟩

/-! Table 16-9 -/
def SYS_STRAPS_BOOT_SRC : Fld := ⟨Reg.SYS_STRAPS, 0, 2⟩
def SYS_STRAPS_HOSTPORT : Fld := ⟨Reg.SYS_STRAPS, 2, 2⟩
def SYS_STRAPS_MAXGEN : Fld := ⟨Reg.SYS_STRAPS, 4, 2⟩
def SYS_STRAPS_VFCOUNT : Fld := ⟨Reg.SYS_STRAPS, 6, 2⟩
def SYS_STRAPS_BAR4_EN : Fld := ⟨Reg.SYS_STRAPS, 8, 1⟩
def SYS_STRAPS_ETH_PROFILE : Fld := ⟨Reg.SYS_STRAPS, 9, 2⟩
def SYS_STRAPS_SAFE_L : Fld := ⟨Reg.SYS_STRAPS, 11, 1⟩
def SYS_STRAPS_BOOT_SRC_APPLIED : Fld := ⟨Reg.SYS_STRAPS, 16, 2⟩
def SYS_STRAPS_MAXGEN_APPLIED : Fld := ⟨Reg.SYS_STRAPS, 18, 2⟩
def SYS_STRAPS_ETH_PROFILE_APPLIED : Fld := ⟨Reg.SYS_STRAPS, 20, 2⟩
def SYS_STRAPS_FALLBACK : Fld := ⟨Reg.SYS_STRAPS, 24, 3⟩
def SYS_START_STATUS_PHASE : Fld := ⟨Reg.SYS_START_STATUS, 0, 4⟩
def SYS_START_STATUS_READY : Fld := ⟨Reg.SYS_START_STATUS, 4, 1⟩
def SYS_START_STATUS_FAILED : Fld := ⟨Reg.SYS_START_STATUS, 5, 1⟩
def SYS_START_STATUS_FAIL_CAUSE : Fld := ⟨Reg.SYS_START_STATUS, 8, 8⟩
def SYS_START_STATUS_CFG_BANK : Fld := ⟨Reg.SYS_START_STATUS, 16, 2⟩
def SYS_START_STATUS_CFG_DEFAULTS : Fld := ⟨Reg.SYS_START_STATUS, 18, 1⟩
def SYS_START_STATUS_CFG_BANK_INVALID : Fld := ⟨Reg.SYS_START_STATUS, 19, 1⟩
def SYS_START_STATUS_CFG_ITEM_ERR : Fld := ⟨Reg.SYS_START_STATUS, 20, 1⟩
def SYS_START_STATUS_SAFE_BOOT : Fld := ⟨Reg.SYS_START_STATUS, 21, 1⟩
def SYS_START_STATUS_IMAGE_FALLBACK : Fld := ⟨Reg.SYS_START_STATUS, 22, 1⟩
def SYS_START_STATUS_START_MS : Fld := ⟨Reg.SYS_START_STATUS, 32, 32⟩
def SYS_ZERO_PENDING_BYTES : Fld := ⟨Reg.SYS_ZERO_PENDING, 0, 64⟩
def SYS_RESET_CTRL_KEY : Fld := ⟨Reg.SYS_RESET_CTRL, 8, 8⟩
def SYS_RESET_CTRL_COLD : Fld := ⟨Reg.SYS_RESET_CTRL, 16, 1⟩
def SYS_RESET_CTRL_WARM : Fld := ⟨Reg.SYS_RESET_CTRL, 17, 1⟩
def SYS_RESET_CAUSE_POWER_UP : Fld := ⟨Reg.SYS_RESET_CAUSE, 0, 1⟩
def SYS_RESET_CAUSE_COLD_REQ : Fld := ⟨Reg.SYS_RESET_CAUSE, 1, 1⟩
def SYS_RESET_CAUSE_PERST : Fld := ⟨Reg.SYS_RESET_CAUSE, 2, 1⟩
def SYS_RESET_CAUSE_HOT_RESET : Fld := ⟨Reg.SYS_RESET_CAUSE, 3, 1⟩
def SYS_RESET_CAUSE_WARM_REQ : Fld := ⟨Reg.SYS_RESET_CAUSE, 4, 1⟩
def SYS_RESET_CAUSE_BMC : Fld := ⟨Reg.SYS_RESET_CAUSE, 5, 1⟩
def SYS_RESET_CAUSE_WATCHDOG : Fld := ⟨Reg.SYS_RESET_CAUSE, 6, 1⟩
def SYS_RESET_CAUSE_ESCALATION : Fld := ⟨Reg.SYS_RESET_CAUSE, 7, 1⟩
def SYS_RESET_CAUSE_LAST : Fld := ⟨Reg.SYS_RESET_CAUSE, 16, 4⟩
def SYS_RESET_CAUSE_WARM_COUNT : Fld := ⟨Reg.SYS_RESET_CAUSE, 20, 12⟩
def MGT_CFGS_CMD0_OP : Fld := ⟨Reg.MGT_CFGS_CMD0, 0, 8⟩
def MGT_CFGS_CMD1_ADDR : Fld := ⟨Reg.MGT_CFGS_CMD1, 0, 64⟩
def MGT_CFGS_CMD2_LENGTH : Fld := ⟨Reg.MGT_CFGS_CMD2, 0, 32⟩
def MGT_CFGS_CTRL_GO : Fld := ⟨Reg.MGT_CFGS_CTRL, 0, 1⟩
def MGT_CFGS_STATUS_DONE : Fld := ⟨Reg.MGT_CFGS_STATUS, 0, 1⟩
def MGT_CFGS_STATUS_BUSY_REFUSED : Fld := ⟨Reg.MGT_CFGS_STATUS, 1, 1⟩
def MGT_CFGS_STATUS_RESULT : Fld := ⟨Reg.MGT_CFGS_STATUS, 4, 8⟩
def MGT_CFGS_STATUS_LENGTH : Fld := ⟨Reg.MGT_CFGS_STATUS, 32, 32⟩
def PWR_PIN_FILTER_PWRFAIL : Fld := ⟨Reg.PWR_PIN_FILTER, 0, 8⟩
def PWR_PIN_FILTER_PERST : Fld := ⟨Reg.PWR_PIN_FILTER, 8, 8⟩
def PWR_PIN_FILTER_OTHER : Fld := ⟨Reg.PWR_PIN_FILTER, 16, 8⟩
def PWR_PWRFAIL_STATUS_LEVEL : Fld := ⟨Reg.PWR_PWRFAIL_STATUS, 0, 1⟩
def PWR_PWRFAIL_STATUS_SEEN : Fld := ⟨Reg.PWR_PWRFAIL_STATUS, 1, 1⟩
def PWR_PWRFAIL_STATUS_COUNT : Fld := ⟨Reg.PWR_PWRFAIL_STATUS, 16, 16⟩

/-! Table 17-5 -/
def DLS_ENTRY_WORD : Fld := ⟨Reg.DLS_ENTRY, 0, 64⟩
def DLS_PROD_COUNT : Fld := ⟨Reg.DLS_PROD, 0, 32⟩
def DLS_CONS_COUNT : Fld := ⟨Reg.DLS_CONS, 0, 32⟩
def DLS_STATUS_OVERFLOW : Fld := ⟨Reg.DLS_STATUS, 0, 1⟩
def DLS_DROPPED_COUNT : Fld := ⟨Reg.DLS_DROPPED, 0, 32⟩
def DLS_LOST_COUNT : Fld := ⟨Reg.DLS_LOST, 0, 32⟩

/-! Table 17-9 -/
def ERR_STATUS_HBM_UE : Fld := ⟨Reg.ERR_STATUS, 0, 1⟩
def ERR_STATUS_LLC_UE : Fld := ⟨Reg.ERR_STATUS, 1, 1⟩
def ERR_STATUS_CORE_UE : Fld := ⟨Reg.ERR_STATUS, 2, 1⟩
def ERR_STATUS_SO_UE : Fld := ⟨Reg.ERR_STATUS, 3, 1⟩
def ERR_STATUS_DIE_FENCED : Fld := ⟨Reg.ERR_STATUS, 4, 1⟩
def ERR_STATUS_DEVICE_FATAL : Fld := ⟨Reg.ERR_STATUS, 5, 1⟩
def ERR_STATUS_RETIRE_FULL : Fld := ⟨Reg.ERR_STATUS, 6, 1⟩
def ERR_DEVICE_CAUSE_CAUSE : Fld := ⟨Reg.ERR_DEVICE_CAUSE, 0, 8⟩
def ERR_FIRST_INFO_SOURCE : Fld := ⟨Reg.ERR_FIRST_INFO, 0, 8⟩
def ERR_FIRST_INFO_SITE : Fld := ⟨Reg.ERR_FIRST_INFO, 8, 8⟩
def ERR_FIRST_INFO_VALID : Fld := ⟨Reg.ERR_FIRST_INFO, 16, 1⟩
def ERR_FIRST_ADDR_DPA : Fld := ⟨Reg.ERR_FIRST_ADDR, 0, 64⟩
def ERR_CE_HBM_COUNT : Fld := ⟨Reg.ERR_CE_HBM, 0, 32⟩
def ERR_UE_HBM_COUNT : Fld := ⟨Reg.ERR_UE_HBM, 0, 32⟩
def ERR_CE_OTHER_LLC : Fld := ⟨Reg.ERR_CE_OTHER, 0, 16⟩
def ERR_CE_OTHER_SCRATCH : Fld := ⟨Reg.ERR_CE_OTHER, 16, 16⟩
def ERR_CE_OTHER_SYNC : Fld := ⟨Reg.ERR_CE_OTHER, 32, 16⟩
def ERR_CE_OTHER_UCIE : Fld := ⟨Reg.ERR_CE_OTHER, 48, 16⟩
def ERR_CXL_COUNT : Fld := ⟨Reg.ERR_CXL, 0, 32⟩
def ERR_SCRUB_CFG_EN : Fld := ⟨Reg.ERR_SCRUB_CFG, 0, 1⟩
def ERR_SCRUB_CFG_HOURS : Fld := ⟨Reg.ERR_SCRUB_CFG, 1, 8⟩
def ERR_SCRUB_STATUS_BEHIND : Fld := ⟨Reg.ERR_SCRUB_STATUS, 0, 1⟩
def ERR_SCRUB_STATUS_PASSES : Fld := ⟨Reg.ERR_SCRUB_STATUS, 32, 32⟩
def ERR_RETIRE_COUNT : Fld := ⟨Reg.ERR_RETIRE, 0, 11⟩
def ERR_RETIRE_FULL : Fld := ⟨Reg.ERR_RETIRE, 11, 1⟩
def ERR_RETIRE_REFUSED : Fld := ⟨Reg.ERR_RETIRE, 16, 16⟩
def ERR_RETIRE_IDX_INDEX : Fld := ⟨Reg.ERR_RETIRE_IDX, 0, 14⟩
def ERR_RETIRE_DPA_DPA : Fld := ⟨Reg.ERR_RETIRE_DPA, 0, 64⟩
def ERR_DIE_STATUS_FENCED : Fld := ⟨Reg.ERR_DIE_STATUS, 0, 4⟩
def ERR_DIE_STATUS_CAUSE : Fld := ⟨Reg.ERR_DIE_STATUS, 4, 16⟩
def ERR_DIE_STATUS_UNCOUNTED : Fld := ⟨Reg.ERR_DIE_STATUS, 20, 1⟩
def ERR_ESCALATE_MS_MS : Fld := ⟨Reg.ERR_ESCALATE_MS, 0, 32⟩
def ERR_LOCK_COUNT : Fld := ⟨Reg.ERR_LOCK, 0, 16⟩
def ERR_LOCK_VALID : Fld := ⟨Reg.ERR_LOCK, 16, 1⟩
def ERR_LOCK_OFFSET : Fld := ⟨Reg.ERR_LOCK, 32, 26⟩

/-! Table 18-5 -/
def SYS_IDENT_VENDOR : Fld := ⟨Reg.SYS_IDENT, 0, 16⟩
def SYS_IDENT_DEVICE : Fld := ⟨Reg.SYS_IDENT, 16, 16⟩
def SYS_IDENT_REVISION : Fld := ⟨Reg.SYS_IDENT, 32, 8⟩
def SYS_IDENT_VARIANT : Fld := ⟨Reg.SYS_IDENT, 40, 4⟩
def SYS_IDENT_PARTITION : Fld := ⟨Reg.SYS_IDENT, 48, 5⟩
def SYS_IDENT_IS_VF : Fld := ⟨Reg.SYS_IDENT, 53, 1⟩
def SYS_VERSION_REGMAP_MAJOR : Fld := ⟨Reg.SYS_VERSION, 0, 8⟩
def SYS_VERSION_REGMAP_MINOR : Fld := ⟨Reg.SYS_VERSION, 8, 8⟩
def SYS_VERSION_ULITAL_MAX : Fld := ⟨Reg.SYS_VERSION, 16, 4⟩
def SYS_VERSION_PLAN_FMT_MAX : Fld := ⟨Reg.SYS_VERSION, 20, 4⟩
def SYS_VERSION_COURIER_MAX : Fld := ⟨Reg.SYS_VERSION, 24, 4⟩
def SYS_FW_VERSION_BUILD : Fld := ⟨Reg.SYS_FW_VERSION, 0, 32⟩
def SYS_FW_VERSION_MINOR : Fld := ⟨Reg.SYS_FW_VERSION, 32, 16⟩
def SYS_FW_VERSION_MAJOR : Fld := ⟨Reg.SYS_FW_VERSION, 48, 16⟩
def SYS_SERIAL_SERIAL : Fld := ⟨Reg.SYS_SERIAL, 0, 64⟩
def SYS_BAD_ACCESS_COUNT : Fld := ⟨Reg.SYS_BAD_ACCESS, 0, 16⟩
def SYS_BAD_ACCESS_VALID : Fld := ⟨Reg.SYS_BAD_ACCESS, 16, 1⟩
def SYS_BAD_ACCESS_OFFSET : Fld := ⟨Reg.SYS_BAD_ACCESS, 32, 20⟩

/-! Table 18-9 -/
def MGT_RSV_ADDR_DPA : Fld := ⟨Reg.MGT_RSV_ADDR, 3, 38⟩
def MGT_RSV_DATA_DATA : Fld := ⟨Reg.MGT_RSV_DATA, 0, 64⟩

/-! Table 19-7 -/
def PWR_TEMP_DIE_TEMP : Fld := ⟨Reg.PWR_TEMP_DIE, 0, 12⟩
def PWR_TEMP_DIE_VALID : Fld := ⟨Reg.PWR_TEMP_DIE, 12, 1⟩
def PWR_TEMP_HBM_TEMP : Fld := ⟨Reg.PWR_TEMP_HBM, 0, 12⟩
def PWR_TEMP_HBM_VALID : Fld := ⟨Reg.PWR_TEMP_HBM, 12, 1⟩
def PWR_TEMP_MAX_TEMP : Fld := ⟨Reg.PWR_TEMP_MAX, 0, 12⟩
def PWR_TEMP_MAX_SOURCE : Fld := ⟨Reg.PWR_TEMP_MAX, 12, 4⟩
def PWR_POWER_MW : Fld := ⟨Reg.PWR_POWER, 0, 32⟩
def PWR_LIMIT_W : Fld := ⟨Reg.PWR_LIMIT, 0, 16⟩
def PWR_THERM_CFG_THROTTLE_C : Fld := ⟨Reg.PWR_THERM_CFG, 0, 8⟩
def PWR_THROTTLE_STATUS_LEVEL : Fld := ⟨Reg.PWR_THROTTLE_STATUS, 0, 3⟩
def PWR_THROTTLE_STATUS_THERMAL : Fld := ⟨Reg.PWR_THROTTLE_STATUS, 3, 1⟩
def PWR_THROTTLE_STATUS_POWER : Fld := ⟨Reg.PWR_THROTTLE_STATUS, 4, 1⟩
def PWR_THROTTLE_STATUS_PWRBRK : Fld := ⟨Reg.PWR_THROTTLE_STATUS, 5, 1⟩
def PWR_THROTTLE_STATUS_OVER_TJ : Fld := ⟨Reg.PWR_THROTTLE_STATUS, 6, 1⟩
def PWR_THROTTLE_STATUS_MS : Fld := ⟨Reg.PWR_THROTTLE_STATUS, 32, 32⟩
def PWR_RAIL_MV_MV : Fld := ⟨Reg.PWR_RAIL_MV, 0, 16⟩
def CLK_PLL_STATUS_MEADOW : Fld := ⟨Reg.CLK_PLL_STATUS, 0, 16⟩
def CLK_PLL_STATUS_POST : Fld := ⟨Reg.CLK_PLL_STATUS, 16, 16⟩
def CLK_PLL_STATUS_P0_MISC : Fld := ⟨Reg.CLK_PLL_STATUS, 32, 3⟩
def CLK_TIME_RATE_RATE : Fld := ⟨Reg.CLK_TIME_RATE, 0, 32⟩
def CLK_REFCLK_STATUS_PRESENT : Fld := ⟨Reg.CLK_REFCLK_STATUS, 0, 8⟩
def CLK_REFCLK_STATUS_SSC : Fld := ⟨Reg.CLK_REFCLK_STATUS, 8, 8⟩

end F

/-- One row of the register description. -/
structure RegSpec where
  reg : Reg
  scope : Scope
  fields : List FldSpec
  deriving DecidableEq, Repr

/-- Registers of chapter 1, part 1. -/
def regTable01_0 : List RegSpec := [
  ⟨.SYS_TOPOLOGY, .device 1, [
    ⟨F.SYS_TOPOLOGY_MEADOW_PRESENT, .ro, .ro, 0, some 0, some 0⟩,
    ⟨F.SYS_TOPOLOGY_POST_PRESENT, .ro, .ro, 0, some 0, some 0⟩,
    ⟨F.SYS_TOPOLOGY_FRANK_PRESENT, .ro, .ro, 1, some 1, some 1⟩,
    ⟨F.SYS_TOPOLOGY_ROLE_FALLBACK, .ro, .ro, 0, some 0, none⟩,
    ⟨F.SYS_TOPOLOGY_HBM_SITE_POP, .ro, .ro, 0, some 0, some 0⟩,
    ⟨F.SYS_TOPOLOGY_VARIANT, .ro, .ro, 0, some 0, some 0⟩,
    ⟨F.SYS_TOPOLOGY_MEADOW_ONLINE, .ro, .ro, 0, some 0, none⟩]⟩,
  ⟨.SYS_HBM_STATUS, .device 1, [
    ⟨F.SYS_HBM_STATUS_ONLINE, .ro, .ro, 0, some 0, none⟩,
    ⟨F.SYS_HBM_STATUS_MEADOW_GB, .ro, .ro, 0, some 0, none⟩]⟩,
  ⟨.SYS_PORT_MAP, .device 1, [
    ⟨F.SYS_PORT_MAP_X16_ROLE, .ro, .ro, 0, some 0, none⟩,
    ⟨F.SYS_PORT_MAP_ETH_ROLE, .ro, .ro, 0, some 0, none⟩]⟩]

/-- Registers of chapter 2, part 1. -/
def regTable02_0 : List RegSpec := [
  ⟨.PART_DISP_COUNT, .part 8, [
    ⟨F.PART_DISP_COUNT_COUNT, .ro, .ro, 0, some 0, some 0⟩]⟩,
  ⟨.PART_LIFE_STATUS, .part 1, [
    ⟨F.PART_LIFE_STATUS_ILLEGAL_DISP, .w1c, .w1c, 0, some 0, some 0⟩,
    ⟨F.PART_LIFE_STATUS_INTAKE_REFUSED, .w1c, .w1c, 0, some 0, some 0⟩,
    ⟨F.PART_LIFE_STATUS_WB_STRAY, .w1c, .w1c, 0, some 0, some 0⟩,
    ⟨F.PART_LIFE_STATUS_NOTICE_RING_FULL, .w1c, .w1c, 0, some 0, some 0⟩,
    ⟨F.PART_LIFE_STATUS_NOTICE_LATE, .w1c, .w1c, 0, some 0, some 0⟩,
    ⟨F.PART_LIFE_STATUS_REGROW_FALLBACK, .w1c, .w1c, 0, some 0, some 0⟩]⟩,
  ⟨.PART_RULE_GEN, .part 1, [
    ⟨F.PART_RULE_GEN_ACTIVE_GEN, .ro, .ro, 0, some 0, some 0⟩]⟩]

/-- Registers of chapter 3, part 1. -/
def regTable03_0 : List RegSpec := [
  ⟨.PART_PLAN_ADDR, .part 1, [
    ⟨F.PART_PLAN_ADDR_ADDR, .rw, .rw, 0, some 0, some 0⟩]⟩,
  ⟨.PART_PLAN_SIZE, .part 1, [
    ⟨F.PART_PLAN_SIZE_SIZE, .rw, .rw, 0, some 0, some 0⟩]⟩,
  ⟨.PART_PLAN_CTRL, .part 1, [
    ⟨F.PART_PLAN_CTRL_LOAD, .w1s, .w1s, 0, some 0, some 0⟩,
    ⟨F.PART_PLAN_CTRL_UNLOAD, .w1s, .w1s, 0, some 0, some 0⟩]⟩,
  ⟨.PART_PLAN_STATUS, .part 1, [
    ⟨F.PART_PLAN_STATUS_STATE, .ro, .ro, 0, some 0, some 0⟩,
    ⟨F.PART_PLAN_STATUS_DONE, .w1c, .w1c, 0, some 0, some 0⟩,
    ⟨F.PART_PLAN_STATUS_BUSY_REFUSED, .w1c, .w1c, 0, some 0, some 0⟩,
    ⟨F.PART_PLAN_STATUS_REASON, .ro, .ro, 0, some 0, some 0⟩]⟩,
  ⟨.PART_PLAN_REPORT, .part 8, [
    ⟨F.PART_PLAN_REPORT_WORD, .ro, .ro, 0, some 0, some 0⟩]⟩,
  ⟨.PART_INTAKE_WINDOW, .part 1, [
    ⟨F.PART_INTAKE_WINDOW_TILES, .rw, .rw, 8, some 8, some 8⟩]⟩,
  ⟨.TIER_QUOTA_MEADOW, .part 1, [
    ⟨F.TIER_QUOTA_MEADOW_UNITS, .rw, .ro, 0, some 0, none⟩]⟩,
  ⟨.TIER_QUOTA_HEATH, .part 1, [
    ⟨F.TIER_QUOTA_HEATH_UNITS, .rw, .ro, 0, some 0, none⟩]⟩,
  ⟨.TIER_QUOTA_MOOR, .part 1, [
    ⟨F.TIER_QUOTA_MOOR_UNITS, .rw, .ro, 0, some 0, none⟩]⟩,
  ⟨.TIER_OCC_MEADOW, .part 1, [
    ⟨F.TIER_OCC_MEADOW_UNITS, .ro, .ro, 0, some 0, some 0⟩]⟩]

/-- Registers of chapter 3, part 2. -/
def regTable03_1 : List RegSpec := [
  ⟨.TIER_OCC_HEATH, .part 1, [
    ⟨F.TIER_OCC_HEATH_UNITS, .ro, .ro, 0, some 0, some 0⟩]⟩,
  ⟨.TIER_OCC_MOOR, .part 1, [
    ⟨F.TIER_OCC_MOOR_UNITS, .ro, .ro, 0, some 0, some 0⟩]⟩,
  ⟨.TIER_RESERVE_MEADOW, .device 1, [
    ⟨F.TIER_RESERVE_MEADOW_UNITS, .ro, .ro, 65536, some 65536, some 65536⟩]⟩,
  ⟨.TIER_CAP_MOOR, .device 1, [
    ⟨F.TIER_CAP_MOOR_BYTES, .rw, .ro, 0, some 0, none⟩]⟩,
  ⟨.TIER_QUOTA_ERR, .device 1, [
    ⟨F.TIER_QUOTA_ERR_OVERCOMMIT, .w1c, .w1c, 0, some 0, some 0⟩,
    ⟨F.TIER_QUOTA_ERR_CAPACITY_LOST, .w1c, .w1c, 0, some 0, some 0⟩]⟩,
  ⟨.PART_QUOTA_STATUS, .part 1, [
    ⟨F.PART_QUOTA_STATUS_PRESSURE, .w1c, .w1c, 0, some 0, some 0⟩,
    ⟨F.PART_QUOTA_STATUS_STALLED, .ro, .ro, 0, some 0, some 0⟩,
    ⟨F.PART_QUOTA_STATUS_STALL_TIMEOUT, .w1c, .w1c, 0, some 0, some 0⟩,
    ⟨F.PART_QUOTA_STATUS_OVF_DOWN_TAKEN, .w1c, .w1c, 0, some 0, some 0⟩,
    ⟨F.PART_QUOTA_STATUS_OVF_RETURN_TAKEN, .w1c, .w1c, 0, some 0, some 0⟩,
    ⟨F.PART_QUOTA_STATUS_SO_ERR, .w1c, .w1c, 0, some 0, some 0⟩]⟩,
  ⟨.PART_QUOTA_SO, .part 1, [
    ⟨F.PART_QUOTA_SO_SO, .rw, .rw, 0, some 0, some 0⟩,
    ⟨F.PART_QUOTA_SO_EN, .rw, .rw, 0, some 0, some 0⟩]⟩,
  ⟨.PART_WAIT_TMO, .part 1, [
    ⟨F.PART_WAIT_TMO_MS, .rw, .rw, 100, some 100, none⟩]⟩]

/-- Registers of chapter 4, part 1. -/
def regTable04_0 : List RegSpec := [
  ⟨.SRT_CTRL, .core 1, [
    ⟨F.SRT_CTRL_START, .w1s, .w1s, 0, some 0, some 0⟩,
    ⟨F.SRT_CTRL_HALT_REQ, .w1s, .w1s, 0, some 0, some 0⟩,
    ⟨F.SRT_CTRL_RESUME, .w1s, .w1s, 0, some 0, some 0⟩]⟩,
  ⟨.SRT_STATUS, .core 1, [
    ⟨F.SRT_STATUS_STATE, .ro, .ro, 0, some 0, some 1⟩,
    ⟨F.SRT_STATUS_HALT_CAUSE, .ro, .ro, 0, some 0, some 0⟩,
    ⟨F.SRT_STATUS_IN_TRAP, .ro, .ro, 0, some 0, some 0⟩,
    ⟨F.SRT_STATUS_REFUSED, .w1c, .w1c, 0, some 0, some 0⟩,
    ⟨F.SRT_STATUS_ASYNC_PENDING, .ro, .ro, 0, some 0, some 0⟩,
    ⟨F.SRT_STATUS_ISA_V1, .ro, .ro, 0, some 0, some 0⟩]⟩,
  ⟨.SRT_IDENT, .core 1, [
    ⟨F.SRT_IDENT_CORE, .ro, .ro, 0, some 0, some 0⟩,
    ⟨F.SRT_IDENT_PARTITION, .ro, .ro, 0, some 0, none⟩,
    ⟨F.SRT_IDENT_ASSIGNED, .ro, .ro, 0, some 0, none⟩,
    ⟨F.SRT_IDENT_RANK, .ro, .ro, 0, some 0, none⟩]⟩,
  ⟨.SRT_PC, .core 1, [
    ⟨F.SRT_PC_PC, .ro, .ro, 0, some 0, some 0⟩]⟩,
  ⟨.SRT_EXIT, .core 1, [
    ⟨F.SRT_EXIT_CODE, .ro, .ro, 0, some 0, some 0⟩]⟩,
  ⟨.SRT_TRAP_VEC, .core 1, [
    ⟨F.SRT_TRAP_VEC_EN, .ro, .ro, 0, some 0, some 0⟩,
    ⟨F.SRT_TRAP_VEC_ADDR, .ro, .ro, 0, some 0, some 0⟩]⟩,
  ⟨.SRT_TRAP_CAUSE, .core 1, [
    ⟨F.SRT_TRAP_CAUSE_CAUSE, .ro, .ro, 0, some 0, some 0⟩,
    ⟨F.SRT_TRAP_CAUSE_IMPRECISE, .ro, .ro, 0, some 0, some 0⟩,
    ⟨F.SRT_TRAP_CAUSE_DETAIL, .ro, .ro, 0, some 0, some 0⟩]⟩,
  ⟨.SRT_TRAP_PC, .core 1, [
    ⟨F.SRT_TRAP_PC_PC, .ro, .ro, 0, some 0, some 0⟩]⟩,
  ⟨.SRT_TRAP_VALUE, .core 1, [
    ⟨F.SRT_TRAP_VALUE_VALUE, .ro, .ro, 0, some 0, some 0⟩]⟩,
  ⟨.SRT_CYCLE, .core 1, [
    ⟨F.SRT_CYCLE_COUNT, .ro, .ro, 0, some 0, some 0⟩]⟩]

/-- Registers of chapter 4, part 2. -/
def regTable04_1 : List RegSpec := [
  ⟨.SRT_INSTRET, .core 1, [
    ⟨F.SRT_INSTRET_COUNT, .ro, .ro, 0, some 0, some 0⟩]⟩,
  ⟨.SRT_TIME, .core 1, [
    ⟨F.SRT_TIME_NS, .ro, .ro, 0, none, none⟩]⟩,
  ⟨.SRT_ISSUE_STATUS, .core 1, [
    ⟨F.SRT_ISSUE_STATUS_QUEUED, .ro, .ro, 0, some 0, some 0⟩,
    ⟨F.SRT_ISSUE_STATUS_OUTSTANDING, .ro, .ro, 0, some 0, some 0⟩,
    ⟨F.SRT_ISSUE_STATUS_NEXT_TICKET, .ro, .ro, 0, some 0, some 0⟩]⟩,
  ⟨.SRT_ISSUE_TIMEOUT, .core 1, [
    ⟨F.SRT_ISSUE_TIMEOUT_US, .rw, .rw, 100000, some 100000, none⟩]⟩,
  ⟨.SRT_FEAT, .core 4, [
    ⟨F.SRT_FEAT_BITS, .ro, .ro, 0, some 0, some 0⟩]⟩,
  ⟨.SRT_DBG_ADDR, .core 1, [
    ⟨F.SRT_DBG_ADDR_ADDR, .rw, .rw, 0, some 0, some 0⟩]⟩,
  ⟨.SRT_DBG_DATA, .core 1, [
    ⟨F.SRT_DBG_DATA_DATA, .ro, .ro, 0, some 0, some 0⟩]⟩]

/-- Registers of chapter 6, part 1. -/
def regTable06_0 : List RegSpec := [
  ⟨.LTE_BYTES_FULL, .part 1, [
    ⟨F.LTE_BYTES_FULL_BYTES, .ro, .ro, 0, some 0, some 0⟩]⟩,
  ⟨.LTE_BYTES_HALF, .part 1, [
    ⟨F.LTE_BYTES_HALF_BYTES, .ro, .ro, 0, some 0, some 0⟩]⟩,
  ⟨.LTE_CONV_STATUS, .part 1, [
    ⟨F.LTE_CONV_STATUS_SATURATED, .w1c, .w1c, 0, some 0, some 0⟩,
    ⟨F.LTE_CONV_STATUS_INF_LOST, .w1c, .w1c, 0, some 0, some 0⟩,
    ⟨F.LTE_CONV_STATUS_NAN_LOST, .w1c, .w1c, 0, some 0, some 0⟩,
    ⟨F.LTE_CONV_STATUS_SCALE_NAN, .w1c, .w1c, 0, some 0, some 0⟩]⟩]

/-- Registers of chapter 7, part 1. -/
def regTable07_0 : List RegSpec := [
  ⟨.PART_META_BASE, .part 1, [
    ⟨F.PART_META_BASE_ADDR, .ro, .ro, 0, some 0, some 0⟩]⟩,
  ⟨.BAL_IN, .part 1, [
    ⟨F.BAL_IN_BYTES, .ro, .ro, 0, some 0, some 0⟩]⟩,
  ⟨.BAL_STORED, .part 1, [
    ⟨F.BAL_STORED_BYTES, .ro, .ro, 0, some 0, some 0⟩]⟩,
  ⟨.BAL_BELOW, .part 1, [
    ⟨F.BAL_BELOW_TILES, .ro, .ro, 0, some 0, some 0⟩]⟩,
  ⟨.BAL_REREAD, .part 1, [
    ⟨F.BAL_REREAD_BYTES, .ro, .ro, 0, some 0, some 0⟩]⟩,
  ⟨.BAL_EXCEPT, .part 1, [
    ⟨F.BAL_EXCEPT_COUNT, .ro, .ro, 0, some 0, some 0⟩]⟩,
  ⟨.BAL_STATUS, .part 1, [
    ⟨F.BAL_STATUS_BELOW_RATIO, .w1c, .w1c, 0, some 0, some 0⟩,
    ⟨F.BAL_STATUS_BALE_CRC, .w1c, .w1c, 0, some 0, some 0⟩,
    ⟨F.BAL_STATUS_ENGINE_FAULT, .w1c, .w1c, 0, some 0, some 0⟩,
    ⟨F.BAL_STATUS_ACCUM, .w1c, .w1c, 0, some 0, some 0⟩]⟩,
  ⟨.TED_OPS, .part 1, [
    ⟨F.TED_OPS_COUNT, .ro, .ro, 0, some 0, some 0⟩]⟩,
  ⟨.TED_REGROWS, .part 1, [
    ⟨F.TED_REGROWS_COUNT, .ro, .ro, 0, some 0, some 0⟩]⟩,
  ⟨.TED_FALLBACK, .part 1, [
    ⟨F.TED_FALLBACK_COUNT, .ro, .ro, 0, some 0, some 0⟩]⟩]

/-- Registers of chapter 7, part 2. -/
def regTable07_1 : List RegSpec := [
  ⟨.TED_CONV_STATUS, .part 1, [
    ⟨F.TED_CONV_STATUS_SATURATED, .w1c, .w1c, 0, some 0, some 0⟩,
    ⟨F.TED_CONV_STATUS_INF_LOST, .w1c, .w1c, 0, some 0, some 0⟩,
    ⟨F.TED_CONV_STATUS_NAN_LOST, .w1c, .w1c, 0, some 0, some 0⟩,
    ⟨F.TED_CONV_STATUS_SCALE_NAN, .w1c, .w1c, 0, some 0, some 0⟩,
    ⟨F.TED_CONV_STATUS_OVERFLOW, .w1c, .w1c, 0, some 0, some 0⟩,
    ⟨F.TED_CONV_STATUS_NAN_MADE, .w1c, .w1c, 0, some 0, some 0⟩,
    ⟨F.TED_CONV_STATUS_RECIPE_SHAPE, .w1c, .w1c, 0, some 0, some 0⟩]⟩,
  ⟨.BAL_UNIT_STATUS, .device 32, [
    ⟨F.BAL_UNIT_STATUS_ONLINE, .ro, .ro, 1, some 1, none⟩,
    ⟨F.BAL_UNIT_STATUS_FAULT, .rstk, .rstk, 0, some 0, some 0⟩,
    ⟨F.BAL_UNIT_STATUS_BUSY, .ro, .ro, 0, some 0, some 0⟩,
    ⟨F.BAL_UNIT_STATUS_QUEUED, .ro, .ro, 0, some 0, some 0⟩]⟩,
  ⟨.TED_UNIT_STATUS, .device 16, [
    ⟨F.TED_UNIT_STATUS_ONLINE, .ro, .ro, 1, some 1, none⟩,
    ⟨F.TED_UNIT_STATUS_FAULT, .rstk, .rstk, 0, some 0, some 0⟩,
    ⟨F.TED_UNIT_STATUS_BUSY, .ro, .ro, 0, some 0, some 0⟩,
    ⟨F.TED_UNIT_STATUS_QUEUED, .ro, .ro, 0, some 0, some 0⟩]⟩,
  ⟨.BAL_CTX, .device 128, [
    ⟨F.BAL_CTX_BUSY, .ro, .ro, 0, some 0, some 0⟩,
    ⟨F.BAL_CTX_PARTITION, .ro, .ro, 0, some 0, some 0⟩,
    ⟨F.BAL_CTX_EPOCH, .ro, .ro, 0, some 0, some 0⟩]⟩,
  ⟨.TED_CTX, .device 64, [
    ⟨F.TED_CTX_BUSY, .ro, .ro, 0, some 0, some 0⟩,
    ⟨F.TED_CTX_PARTITION, .ro, .ro, 0, some 0, some 0⟩,
    ⟨F.TED_CTX_EPOCH, .ro, .ro, 0, some 0, some 0⟩]⟩]

/-- Registers of chapter 8, part 1. -/
def regTable08_0 : List RegSpec := [
  ⟨.TIER_HEATH_MAPPED, .device 1, [
    ⟨F.TIER_HEATH_MAPPED_BYTES, .ro, .ro, 0, some 0, none⟩]⟩,
  ⟨.TIER_HEATH_UNMAPPED, .device 1, [
    ⟨F.TIER_HEATH_UNMAPPED_BYTES, .ro, .ro, 0, some 0, none⟩]⟩,
  ⟨.TIER_HEATH_RGN, .device 16, [
    ⟨F.TIER_HEATH_RGN_PORT, .ro, .ro, 0, some 0, none⟩,
    ⟨F.TIER_HEATH_RGN_VALID, .ro, .ro, 0, some 0, none⟩,
    ⟨F.TIER_HEATH_RGN_DECODER, .ro, .ro, 0, some 0, none⟩,
    ⟨F.TIER_HEATH_RGN_SIZE, .ro, .ro, 0, some 0, none⟩,
    ⟨F.TIER_HEATH_RGN_BASE, .ro, .ro, 0, some 0, none⟩]⟩,
  ⟨.TIER_MOOR_TGT, .device 16, [
    ⟨F.TIER_MOOR_TGT_KIND, .rw, .rw, 0, some 0, none⟩,
    ⟨F.TIER_MOOR_TGT_CONN, .rw, .rw, 0, some 0, none⟩,
    ⟨F.TIER_MOOR_TGT_BLOCKS, .rw, .rw, 0, some 0, none⟩]⟩,
  ⟨.DTU_ROOT, .part 1, [
    ⟨F.DTU_ROOT_DPA, .ro, .ro, 0, some 0, some 0⟩]⟩,
  ⟨.DTU_PIN_QUOTA, .part 1, [
    ⟨F.DTU_PIN_QUOTA_PAGES, .rw, .ro, 16, some 16, none⟩]⟩,
  ⟨.DTU_PIN_USED, .part 1, [
    ⟨F.DTU_PIN_USED_PAGES, .ro, .ro, 0, some 0, some 0⟩]⟩,
  ⟨.DTU_FAULT_ADDR, .part 1, [
    ⟨F.DTU_FAULT_ADDR_ADDR, .ro, .ro, 0, some 0, some 0⟩]⟩,
  ⟨.DTU_FAULT_INFO, .part 1, [
    ⟨F.DTU_FAULT_INFO_KIND, .ro, .ro, 0, some 0, some 0⟩,
    ⟨F.DTU_FAULT_INFO_WRITE, .ro, .ro, 0, some 0, some 0⟩,
    ⟨F.DTU_FAULT_INFO_AGENT, .ro, .ro, 0, some 0, some 0⟩,
    ⟨F.DTU_FAULT_INFO_VALID, .w1c, .w1c, 0, some 0, some 0⟩,
    ⟨F.DTU_FAULT_INFO_COUNT, .ro, .ro, 0, some 0, some 0⟩]⟩,
  ⟨.DTU_CMD0, .part 2, [
    ⟨F.DTU_CMD0_WORD, .rw, .rw, 0, some 0, some 0⟩]⟩]

/-- Registers of chapter 8, part 2. -/
def regTable08_1 : List RegSpec := [
  ⟨.DTU_CMD1, .part 2, [
    ⟨F.DTU_CMD1_WORD, .rw, .rw, 0, some 0, some 0⟩]⟩,
  ⟨.DTU_CMD2, .part 2, [
    ⟨F.DTU_CMD2_WORD, .rw, .rw, 0, some 0, some 0⟩]⟩,
  ⟨.DTU_CMD_CTRL, .part 2, [
    ⟨F.DTU_CMD_CTRL_GO, .w1s, .w1s, 0, some 0, some 0⟩]⟩,
  ⟨.DTU_CMD_STATUS, .part 2, [
    ⟨F.DTU_CMD_STATUS_DONE, .w1c, .w1c, 0, some 0, some 0⟩,
    ⟨F.DTU_CMD_STATUS_BUSY_REFUSED, .w1c, .w1c, 0, some 0, some 0⟩,
    ⟨F.DTU_CMD_STATUS_RESULT, .ro, .ro, 0, some 0, some 0⟩,
    ⟨F.DTU_CMD_STATUS_UNITS_NOT_DONE, .ro, .ro, 0, some 0, some 0⟩]⟩,
  ⟨.TIER_WMARK_MEADOW, .part 1, [
    ⟨F.TIER_WMARK_MEADOW_HI, .rw, .rw, 240, some 240, some 240⟩,
    ⟨F.TIER_WMARK_MEADOW_LO, .rw, .rw, 208, some 208, some 208⟩,
    ⟨F.TIER_WMARK_MEADOW_EN, .rw, .rw, 0, some 0, some 0⟩,
    ⟨F.TIER_WMARK_MEADOW_STUCK, .w1c, .w1c, 0, some 0, some 0⟩]⟩,
  ⟨.TIER_WMARK_HEATH, .part 1, [
    ⟨F.TIER_WMARK_HEATH_HI, .rw, .rw, 240, some 240, some 240⟩,
    ⟨F.TIER_WMARK_HEATH_LO, .rw, .rw, 208, some 208, some 208⟩,
    ⟨F.TIER_WMARK_HEATH_EN, .rw, .rw, 0, some 0, some 0⟩,
    ⟨F.TIER_WMARK_HEATH_STUCK, .w1c, .w1c, 0, some 0, some 0⟩]⟩,
  ⟨.TIER_STRM_CFG, .part 8, [
    ⟨F.TIER_STRM_CFG_EN, .rw, .rw, 0, some 0, some 0⟩,
    ⟨F.TIER_STRM_CFG_KIND, .rw, .rw, 0, some 0, some 0⟩,
    ⟨F.TIER_STRM_CFG_ORDER, .rw, .rw, 0, some 0, some 0⟩,
    ⟨F.TIER_STRM_CFG_DEPTH, .rw, .rw, 0, some 0, some 0⟩,
    ⟨F.TIER_STRM_CFG_BACKING, .rw, .rw, 0, some 0, some 0⟩,
    ⟨F.TIER_STRM_CFG_OUTSTANDING, .rw, .rw, 16, some 16, some 16⟩,
    ⟨F.TIER_STRM_CFG_LAYERS, .rw, .rw, 0, some 0, some 0⟩]⟩,
  ⟨.TIER_STRM_BASE, .part 8, [
    ⟨F.TIER_STRM_BASE_ADDR, .rw, .rw, 0, some 0, some 0⟩]⟩,
  ⟨.TIER_STRM_SIZE, .part 8, [
    ⟨F.TIER_STRM_SIZE_VALUE, .rw, .rw, 0, some 0, some 0⟩]⟩,
  ⟨.TIER_STRM_SO, .part 8, [
    ⟨F.TIER_STRM_SO_PROGRESS, .rw, .rw, 0, some 0, some 0⟩,
    ⟨F.TIER_STRM_SO_READY, .rw, .rw, 0, some 0, some 0⟩,
    ⟨F.TIER_STRM_SO_READY_EN, .rw, .rw, 0, some 0, some 0⟩]⟩]

/-- Registers of chapter 8, part 3. -/
def regTable08_2 : List RegSpec := [
  ⟨.TIER_STRM_TIME, .part 8, [
    ⟨F.TIER_STRM_TIME_NS, .rw, .rw, 0, some 0, some 0⟩]⟩,
  ⟨.TIER_STRM_POS, .part 8, [
    ⟨F.TIER_STRM_POS_VALUE, .ro, .ro, 0, some 0, some 0⟩]⟩,
  ⟨.TIER_STRM_SKIP, .part 8, [
    ⟨F.TIER_STRM_SKIP_COUNT, .ro, .ro, 0, some 0, some 0⟩]⟩,
  ⟨.TIER_STRM_STATUS, .part 8, [
    ⟨F.TIER_STRM_STATUS_CFG_ERR, .w1c, .w1c, 0, some 0, some 0⟩,
    ⟨F.TIER_STRM_STATUS_LATE, .w1c, .w1c, 0, some 0, some 0⟩,
    ⟨F.TIER_STRM_STATUS_BAD_ENTRY, .w1c, .w1c, 0, some 0, some 0⟩,
    ⟨F.TIER_STRM_STATUS_REVOKED, .w1c, .w1c, 0, some 0, some 0⟩,
    ⟨F.TIER_STRM_STATUS_FAILED, .w1c, .w1c, 0, some 0, some 0⟩]⟩,
  ⟨.TIER_LAT_HEATH, .device 1, [
    ⟨F.TIER_LAT_HEATH_NS, .rw, .rw, 2000, some 2000, none⟩]⟩,
  ⟨.TIER_LAT_MOOR, .device 1, [
    ⟨F.TIER_LAT_MOOR_NS, .rw, .rw, 200000, some 200000, none⟩]⟩,
  ⟨.TIER_TMO_HEATH, .device 1, [
    ⟨F.TIER_TMO_HEATH_US, .rw, .rw, 2000, some 2000, none⟩]⟩,
  ⟨.TIER_TMO_MOOR, .device 1, [
    ⟨F.TIER_TMO_MOOR_US, .rw, .rw, 50000, some 50000, none⟩]⟩,
  ⟨.TIER_LOSS_TIME, .device 1, [
    ⟨F.TIER_LOSS_TIME_S, .rw, .rw, 10, some 10, none⟩]⟩,
  ⟨.TIER_HEATH_STATE, .device 1, [
    ⟨F.TIER_HEATH_STATE_PORT, .ro, .ro, 0, some 0, none⟩]⟩]

/-- Registers of chapter 8, part 4. -/
def regTable08_3 : List RegSpec := [
  ⟨.TIER_MOOR_STATE, .device 1, [
    ⟨F.TIER_MOOR_STATE_TARGET, .ro, .ro, 0, some 0, none⟩]⟩,
  ⟨.TIER_LOSS_CTRL, .device 1, [
    ⟨F.TIER_LOSS_CTRL_DECLARE_HEATH, .w1s, .w1s, 0, some 0, some 0⟩,
    ⟨F.TIER_LOSS_CTRL_DECLARE_MOOR, .w1s, .w1s, 0, some 0, some 0⟩]⟩,
  ⟨.TIER_FAIL_STATUS, .part 1, [
    ⟨F.TIER_FAIL_STATUS_HEATH_LATE, .w1c, .w1c, 0, some 0, some 0⟩,
    ⟨F.TIER_FAIL_STATUS_HEATH_FAIL, .w1c, .w1c, 0, some 0, some 0⟩,
    ⟨F.TIER_FAIL_STATUS_MOOR_LATE, .w1c, .w1c, 0, some 0, some 0⟩,
    ⟨F.TIER_FAIL_STATUS_MOOR_FAIL, .w1c, .w1c, 0, some 0, some 0⟩,
    ⟨F.TIER_FAIL_STATUS_LOST_BY_TIER, .w1c, .w1c, 0, some 0, some 0⟩]⟩]

/-- Registers of chapter 9, part 1. -/
def regTable09_0 : List RegSpec := [
  ⟨.LLC_PIN_MASK, .part 1, [
    ⟨F.LLC_PIN_MASK_WAYS, .rw, .ro, 0, some 0, some 0⟩]⟩,
  ⟨.LLC_PIN_LINES, .part 1, [
    ⟨F.LLC_PIN_LINES_LINES, .ro, .ro, 0, some 0, some 0⟩,
    ⟨F.LLC_PIN_LINES_RANGES, .ro, .ro, 0, some 0, some 0⟩]⟩,
  ⟨.LLC_PIN_ERR, .part 1, [
    ⟨F.LLC_PIN_ERR_BAD_WAYS, .w1c, .w1c, 0, some 0, some 0⟩,
    ⟨F.LLC_PIN_ERR_OVERCOMMIT, .w1c, .w1c, 0, some 0, some 0⟩,
    ⟨F.LLC_PIN_ERR_IN_USE, .w1c, .w1c, 0, some 0, some 0⟩,
    ⟨F.LLC_PIN_ERR_REVOKED, .w1c, .w1c, 0, some 0, some 0⟩]⟩,
  ⟨.LLC_CMD0, .part 2, [
    ⟨F.LLC_CMD0_WORD, .rw, .rw, 0, some 0, some 0⟩]⟩,
  ⟨.LLC_CMD1, .part 2, [
    ⟨F.LLC_CMD1_WORD, .rw, .rw, 0, some 0, some 0⟩]⟩,
  ⟨.LLC_CMD2, .part 2, [
    ⟨F.LLC_CMD2_WORD, .rw, .rw, 0, some 0, some 0⟩]⟩,
  ⟨.LLC_CMD_CTRL, .part 2, [
    ⟨F.LLC_CMD_CTRL_GO, .w1s, .w1s, 0, some 0, some 0⟩]⟩,
  ⟨.LLC_CMD_STATUS, .part 2, [
    ⟨F.LLC_CMD_STATUS_DONE, .w1c, .w1c, 0, some 0, some 0⟩,
    ⟨F.LLC_CMD_STATUS_BUSY_REFUSED, .w1c, .w1c, 0, some 0, some 0⟩,
    ⟨F.LLC_CMD_STATUS_PIN_DROPPED, .w1c, .w1c, 0, some 0, some 0⟩,
    ⟨F.LLC_CMD_STATUS_RESULT, .ro, .ro, 0, some 0, some 0⟩]⟩,
  ⟨.LLC_HIT_SECTORS, .part 1, [
    ⟨F.LLC_HIT_SECTORS_COUNT, .ro, .ro, 0, some 0, some 0⟩]⟩,
  ⟨.LLC_MISS_SECTORS, .part 1, [
    ⟨F.LLC_MISS_SECTORS_COUNT, .ro, .ro, 0, some 0, some 0⟩]⟩]

/-- Registers of chapter 9, part 2. -/
def regTable09_1 : List RegSpec := [
  ⟨.LLC_WB_BYTES, .part 1, [
    ⟨F.LLC_WB_BYTES_BYTES, .ro, .ro, 0, some 0, some 0⟩]⟩,
  ⟨.LLC_SLICE_STATUS, .device 4, [
    ⟨F.LLC_SLICE_STATUS_ONLINE, .ro, .ro, 0, some 0, none⟩,
    ⟨F.LLC_SLICE_STATUS_TAG_UE, .rstk, .rstk, 0, some 0, some 0⟩,
    ⟨F.LLC_SLICE_STATUS_DATA_UE, .rstk, .rstk, 0, some 0, some 0⟩,
    ⟨F.LLC_SLICE_STATUS_WAYS_RETIRED, .ro, .ro, 0, some 0, none⟩,
    ⟨F.LLC_SLICE_STATUS_VICTIM_PEAK, .ro, .ro, 0, some 0, none⟩]⟩]

/-- Registers of chapter 10, part 1. -/
def regTable10_0 : List RegSpec := [
  ⟨.CAR_CH_CFG, .channel, [
    ⟨F.CAR_CH_CFG_POOL, .rw, .rw, 0, some 0, some 0⟩,
    ⟨F.CAR_CH_CFG_BURST, .rw, .rw, 5, some 5, some 5⟩,
    ⟨F.CAR_CH_CFG_MAX_LINES, .rw, .rw, 16, some 16, some 16⟩,
    ⟨F.CAR_CH_CFG_PARTITION, .ro, .ro, 0, some 0, none⟩,
    ⟨F.CAR_CH_CFG_HELD, .ro, .ro, 0, some 0, none⟩,
    ⟨F.CAR_CH_CFG_ERR_RING, .rw, .rw, 0, some 0, some 0⟩]⟩,
  ⟨.CAR_CH_CTRL, .channel, [
    ⟨F.CAR_CH_CTRL_START, .w1s, .w1s, 0, some 0, some 0⟩,
    ⟨F.CAR_CH_CTRL_KICK, .w1s, .w1s, 0, some 0, some 0⟩,
    ⟨F.CAR_CH_CTRL_ABORT, .w1s, .w1s, 0, some 0, some 0⟩,
    ⟨F.CAR_CH_CTRL_RESUME, .w1s, .w1s, 0, some 0, some 0⟩,
    ⟨F.CAR_CH_CTRL_SKIP, .w1s, .w1s, 0, some 0, some 0⟩,
    ⟨F.CAR_CH_CTRL_CLEAR, .w1s, .w1s, 0, some 0, some 0⟩]⟩,
  ⟨.CAR_CH_STATUS, .channel, [
    ⟨F.CAR_CH_STATUS_STATE, .ro, .ro, 0, some 0, some 0⟩,
    ⟨F.CAR_CH_STATUS_CAUSE, .ro, .ro, 0, some 0, some 0⟩,
    ⟨F.CAR_CH_STATUS_PARKED, .ro, .ro, 0, some 0, some 0⟩,
    ⟨F.CAR_CH_STATUS_KICK_PENDING, .ro, .ro, 0, some 0, some 0⟩,
    ⟨F.CAR_CH_STATUS_LINES, .ro, .ro, 0, some 0, some 0⟩,
    ⟨F.CAR_CH_STATUS_LAST_STATUS, .ro, .ro, 0, some 0, some 0⟩]⟩,
  ⟨.CAR_CH_HEAD, .channel, [
    ⟨F.CAR_CH_HEAD_ADDR, .rw, .rw, 0, some 0, some 0⟩]⟩,
  ⟨.CAR_CH_CUR, .channel, [
    ⟨F.CAR_CH_CUR_ADDR, .ro, .ro, 0, some 0, some 0⟩]⟩,
  ⟨.CAR_CH_RESIDUE, .channel, [
    ⟨F.CAR_CH_RESIDUE_BYTES, .ro, .ro, 0, some 0, some 0⟩]⟩,
  ⟨.CAR_CH_ERR_ADDR, .channel, [
    ⟨F.CAR_CH_ERR_ADDR_ADDR, .ro, .ro, 0, some 0, some 0⟩]⟩,
  ⟨.CAR_CH_ERR_INFO, .channel, [
    ⟨F.CAR_CH_ERR_INFO_STATUS, .ro, .ro, 0, some 0, some 0⟩,
    ⟨F.CAR_CH_ERR_INFO_DIR, .ro, .ro, 0, some 0, some 0⟩,
    ⟨F.CAR_CH_ERR_INFO_SPACE, .ro, .ro, 0, some 0, some 0⟩,
    ⟨F.CAR_CH_ERR_INFO_PEER, .ro, .ro, 0, some 0, some 0⟩,
    ⟨F.CAR_CH_ERR_INFO_DESC, .ro, .ro, 0, some 0, some 0⟩,
    ⟨F.CAR_CH_ERR_INFO_VALID, .w1c, .w1c, 0, some 0, some 0⟩]⟩,
  ⟨.CAR_CH_STALL_TMO, .channel, [
    ⟨F.CAR_CH_STALL_TMO_MS, .rw, .rw, 100, some 100, some 100⟩]⟩,
  ⟨.CAR_CH_BYTES, .channel, [
    ⟨F.CAR_CH_BYTES_COUNT, .ro, .ro, 0, some 0, some 0⟩]⟩]

/-- Registers of chapter 10, part 2. -/
def regTable10_1 : List RegSpec := [
  ⟨.CAR_RING_BASE, .ring, [
    ⟨F.CAR_RING_BASE_HOST, .rw, .rw, 0, some 0, some 0⟩,
    ⟨F.CAR_RING_BASE_ADDR, .rw, .rw, 0, some 0, some 0⟩]⟩,
  ⟨.CAR_RING_CFG, .ring, [
    ⟨F.CAR_RING_CFG_LOG2, .rw, .rw, 0, some 0, some 0⟩,
    ⟨F.CAR_RING_CFG_EN, .rw, .rw, 0, some 0, some 0⟩,
    ⟨F.CAR_RING_CFG_CFG_ERR, .w1c, .w1c, 0, some 0, some 0⟩,
    ⟨F.CAR_RING_CFG_COAL_COUNT, .rw, .rw, 1, some 1, some 1⟩,
    ⟨F.CAR_RING_CFG_COAL_US, .rw, .rw, 0, some 0, some 0⟩,
    ⟨F.CAR_RING_CFG_VECTOR, .rw, .rw, 0, some 0, some 0⟩,
    ⟨F.CAR_RING_CFG_PARTITION, .ro, .ro, 0, some 0, none⟩]⟩,
  ⟨.CAR_RING_PROD, .ring, [
    ⟨F.CAR_RING_PROD_COUNT, .ro, .ro, 0, some 0, some 0⟩]⟩,
  ⟨.CAR_RING_CONS, .ring, [
    ⟨F.CAR_RING_CONS_COUNT, .rw, .rw, 0, some 0, some 0⟩]⟩,
  ⟨.CAR_RING_STATUS, .ring, [
    ⟨F.CAR_RING_STATUS_FULL_WAIT, .ro, .ro, 0, some 0, some 0⟩,
    ⟨F.CAR_RING_STATUS_WRITE_FAIL, .w1c, .w1c, 0, some 0, some 0⟩,
    ⟨F.CAR_RING_STATUS_PENDING, .ro, .ro, 0, some 0, some 0⟩]⟩,
  ⟨.CAR_PACE_STATUS, .device 4, [
    ⟨F.CAR_PACE_STATUS_IN_USE, .ro, .ro, 0, some 0, some 0⟩,
    ⟨F.CAR_PACE_STATUS_PEAK, .ro, .ro, 0, some 0, none⟩,
    ⟨F.CAR_PACE_STATUS_U0_WAITS, .ro, .ro, 0, some 0, none⟩]⟩]

/-- Registers of chapter 11, part 1. -/
def regTable11_0 : List RegSpec := [
  ⟨.SO_RANGE, .part 1, [
    ⟨F.SO_RANGE_BASE, .rw, .ro, 0, some 0, none⟩,
    ⟨F.SO_RANGE_COUNT, .rw, .ro, 0, some 0, none⟩]⟩,
  ⟨.SO_DB_STATUS, .part 1, [
    ⟨F.SO_DB_STATUS_BAD_WRITE, .w1c, .w1c, 0, some 0, some 0⟩,
    ⟨F.SO_DB_STATUS_OUT_OF_RANGE, .w1c, .w1c, 0, some 0, some 0⟩,
    ⟨F.SO_DB_STATUS_COUNT, .ro, .ro, 0, some 0, some 0⟩]⟩,
  ⟨.SO_WATCH_CFG, .part 16, [
    ⟨F.SO_WATCH_CFG_SO, .rw, .rw, 0, some 0, some 0⟩,
    ⟨F.SO_WATCH_CFG_VECTOR, .rw, .rw, 0, some 0, some 0⟩,
    ⟨F.SO_WATCH_CFG_ARM, .rw, .rw, 0, some 0, some 0⟩,
    ⟨F.SO_WATCH_CFG_FIRED, .w1c, .w1c, 0, some 0, some 0⟩,
    ⟨F.SO_WATCH_CFG_REVOKED, .w1c, .w1c, 0, some 0, some 0⟩]⟩,
  ⟨.SO_WATCH_VAL, .part 16, [
    ⟨F.SO_WATCH_VAL_THRESHOLD, .rw, .rw, 0, some 0, some 0⟩]⟩,
  ⟨.SO_PROG_CFG, .part 4, [
    ⟨F.SO_PROG_CFG_SO, .rw, .rw, 0, some 0, some 0⟩,
    ⟨F.SO_PROG_CFG_EN, .rw, .rw, 0, some 0, some 0⟩,
    ⟨F.SO_PROG_CFG_SHIFT, .rw, .rw, 0, some 0, some 0⟩,
    ⟨F.SO_PROG_CFG_CFG_ERR, .w1c, .w1c, 0, some 0, some 0⟩]⟩,
  ⟨.SO_PROG_INIT, .part 4, [
    ⟨F.SO_PROG_INIT_NS, .rw, .rw, 0, some 0, some 0⟩]⟩,
  ⟨.SO_PROG_RATE, .part 4, [
    ⟨F.SO_PROG_RATE_NS, .ro, .ro, 0, some 0, some 0⟩]⟩,
  ⟨.SO_PROG_LAST_V, .part 4, [
    ⟨F.SO_PROG_LAST_V_VALUE, .ro, .ro, 0, some 0, some 0⟩]⟩,
  ⟨.SO_PROG_LAST_T, .part 4, [
    ⟨F.SO_PROG_LAST_T_NS, .ro, .ro, 0, some 0, some 0⟩]⟩,
  ⟨.SO_WALK_CFG, .part 2, [
    ⟨F.SO_WALK_CFG_EN, .rw, .rw, 0, some 0, some 0⟩,
    ⟨F.SO_WALK_CFG_START_SO, .rw, .rw, 0, some 0, some 0⟩]⟩]

/-- Registers of chapter 11, part 2. -/
def regTable11_1 : List RegSpec := [
  ⟨.SO_WALK_BLOCK, .part 2, [
    ⟨F.SO_WALK_BLOCK_ADDR, .rw, .rw, 0, some 0, some 0⟩]⟩,
  ⟨.SO_WALK_STATUS, .part 2, [
    ⟨F.SO_WALK_STATUS_STATE, .ro, .ro, 0, some 0, some 0⟩,
    ⟨F.SO_WALK_STATUS_BAD_BLOCK, .w1c, .w1c, 0, some 0, some 0⟩,
    ⟨F.SO_WALK_STATUS_SEG_LOST, .w1c, .w1c, 0, some 0, some 0⟩,
    ⟨F.SO_WALK_STATUS_ITEM_FAIL, .w1c, .w1c, 0, some 0, some 0⟩,
    ⟨F.SO_WALK_STATUS_REVOKED, .w1c, .w1c, 0, some 0, some 0⟩,
    ⟨F.SO_WALK_STATUS_LATE, .w1c, .w1c, 0, some 0, some 0⟩]⟩,
  ⟨.SO_WALK_COUNT, .part 2, [
    ⟨F.SO_WALK_COUNT_WALKS, .ro, .ro, 0, some 0, some 0⟩]⟩,
  ⟨.SO_WALK_POS, .part 2, [
    ⟨F.SO_WALK_POS_LO, .ro, .ro, 0, some 0, some 0⟩,
    ⟨F.SO_WALK_POS_HI, .ro, .ro, 0, some 0, some 0⟩]⟩,
  ⟨.SO_WALK_LOST, .part 2, [
    ⟨F.SO_WALK_LOST_STEP, .ro, .ro, 0, some 0, some 0⟩]⟩,
  ⟨.SO_SCHED_CFG, .part 1, [
    ⟨F.SO_SCHED_CFG_U0_ALLOW, .rw, .ro, 0, some 0, none⟩]⟩,
  ⟨.SO_U0_DEMOTED, .part 1, [
    ⟨F.SO_U0_DEMOTED_COUNT, .ro, .ro, 0, some 0, some 0⟩]⟩,
  ⟨.SO_RETURN_NS, .part 1, [
    ⟨F.SO_RETURN_NS_NS, .rw, .rw, 1000000, some 1000000, none⟩]⟩,
  ⟨.SO_PEER_RD_NS, .part 1, [
    ⟨F.SO_PEER_RD_NS_NS, .rw, .rw, 1500, some 1500, none⟩]⟩,
  ⟨.SO_LATE, .part 4, [
    ⟨F.SO_LATE_LATE_START, .ro, .ro, 0, some 0, some 0⟩,
    ⟨F.SO_LATE_LATE_END, .ro, .ro, 0, some 0, some 0⟩]⟩]

/-- Registers of chapter 11, part 3. -/
def regTable11_2 : List RegSpec := [
  ⟨.SO_RANGE_ERR, .device 1, [
    ⟨F.SO_RANGE_ERR_OVERLAP, .w1c, .w1c, 0, some 0, some 0⟩]⟩]

/-- Registers of chapter 12, part 1. -/
def regTable12_0 : List RegSpec := [
  ⟨.HOST_FN_STATUS, .part 1, [
    ⟨F.HOST_FN_STATUS_BME, .ro, .ro, 0, some 0, some 0⟩,
    ⟨F.HOST_FN_STATUS_FLR_ACTIVE, .ro, .ro, 0, some 0, some 0⟩,
    ⟨F.HOST_FN_STATUS_PENDING, .ro, .ro, 0, some 0, some 0⟩,
    ⟨F.HOST_FN_STATUS_PENDING_FULL, .w1c, .w1c, 0, some 0, some 0⟩,
    ⟨F.HOST_FN_STATUS_QUAR_TAGS, .ro, .ro, 0, some 0, some 0⟩,
    ⟨F.HOST_FN_STATUS_LATE_CPL, .ro, .ro, 0, some 0, some 0⟩]⟩,
  ⟨.HOST_CPL_TMO, .part 1, [
    ⟨F.HOST_CPL_TMO_US, .rw, .rw, 0, some 0, some 0⟩]⟩,
  ⟨.HOST_IRQ_MAP, .part 8, [
    ⟨F.HOST_IRQ_MAP_VECTOR, .rw, .rw, 0, some 0, some 0⟩,
    ⟨F.HOST_IRQ_MAP_EN, .rw, .rw, 0, some 0, some 0⟩]⟩,
  ⟨.HOST_BAR4_WIN, .part 1, [
    ⟨F.HOST_BAR4_WIN_BASE, .rw, .rw, 0, some 0, some 0⟩]⟩,
  ⟨.SYS_FEAT_OFFER, .device 4, [
    ⟨F.SYS_FEAT_OFFER_BITS, .ro, .ro, 0, some 0, some 0⟩]⟩,
  ⟨.SYS_FEAT_ACCEPT, .device 4, [
    ⟨F.SYS_FEAT_ACCEPT_BITS, .rwl, .ro, 0, some 0, none⟩]⟩,
  ⟨.SYS_OPEN, .device 1, [
    ⟨F.SYS_OPEN_OPEN, .w1s, .ro, 0, some 0, none⟩,
    ⟨F.SYS_OPEN_OPENED, .ro, .ro, 0, some 0, none⟩,
    ⟨F.SYS_OPEN_ERR, .ro, .ro, 0, some 0, none⟩]⟩,
  ⟨.HOST_PORT_STATUS, .device 8, [
    ⟨F.HOST_PORT_STATUS_UP, .ro, .ro, 0, some 0, some 0⟩,
    ⟨F.HOST_PORT_STATUS_GEN, .ro, .ro, 0, some 0, some 0⟩,
    ⟨F.HOST_PORT_STATUS_WIDTH, .ro, .ro, 0, some 0, some 0⟩,
    ⟨F.HOST_PORT_STATUS_FLIT, .ro, .ro, 0, some 0, some 0⟩,
    ⟨F.HOST_PORT_STATUS_CXL, .ro, .ro, 0, some 0, some 0⟩,
    ⟨F.HOST_PORT_STATUS_FOREIGN, .ro, .ro, 0, some 0, none⟩,
    ⟨F.HOST_PORT_STATUS_DOWN_COUNT, .ro, .ro, 0, some 0, none⟩,
    ⟨F.HOST_PORT_STATUS_TAGS_OUT, .ro, .ro, 0, some 0, some 0⟩,
    ⟨F.HOST_PORT_STATUS_TAGS_QUAR, .ro, .ro, 0, some 0, some 0⟩]⟩,
  ⟨.HOST_PEER_CMD0, .device 1, [
    ⟨F.HOST_PEER_CMD0_WORD, .rw, .rw, 0, some 0, some 0⟩]⟩,
  ⟨.HOST_PEER_CMD1, .device 1, [
    ⟨F.HOST_PEER_CMD1_WORD, .rw, .rw, 0, some 0, some 0⟩]⟩]

/-- Registers of chapter 12, part 2. -/
def regTable12_1 : List RegSpec := [
  ⟨.HOST_PEER_CMD2, .device 1, [
    ⟨F.HOST_PEER_CMD2_WORD, .rw, .rw, 0, some 0, some 0⟩]⟩,
  ⟨.HOST_PEER_CMD3, .device 1, [
    ⟨F.HOST_PEER_CMD3_WORD, .rw, .rw, 0, some 0, some 0⟩]⟩,
  ⟨.HOST_PEER_CMD4, .device 1, [
    ⟨F.HOST_PEER_CMD4_WORD, .rw, .rw, 0, some 0, some 0⟩]⟩,
  ⟨.HOST_PEER_CMD5, .device 1, [
    ⟨F.HOST_PEER_CMD5_WORD, .rw, .rw, 0, some 0, some 0⟩]⟩,
  ⟨.HOST_PEER_CTRL, .device 1, [
    ⟨F.HOST_PEER_CTRL_GO, .w1s, .w1s, 0, some 0, some 0⟩]⟩,
  ⟨.HOST_PEER_STATUS, .device 1, [
    ⟨F.HOST_PEER_STATUS_DONE, .w1c, .w1c, 0, some 0, some 0⟩,
    ⟨F.HOST_PEER_STATUS_BUSY_REFUSED, .w1c, .w1c, 0, some 0, some 0⟩,
    ⟨F.HOST_PEER_STATUS_RESULT, .ro, .ro, 0, some 0, some 0⟩,
    ⟨F.HOST_PEER_STATUS_PROBE_STATUS, .ro, .ro, 0, some 0, some 0⟩]⟩,
  ⟨.HOST_PEER_TABLE, .device 384, [
    ⟨F.HOST_PEER_TABLE_WORD, .ro, .ro, 0, some 0, none⟩]⟩,
  ⟨.HOST_IDE_CFG, .device 8, [
    ⟨F.HOST_IDE_CFG_REQUIRE, .rwl, .rwl, 0, some 0, none⟩]⟩,
  ⟨.HOST_IDE_STATUS, .device 8, [
    ⟨F.HOST_IDE_STATUS_INSECURE, .w1c, .w1c, 0, some 0, some 0⟩]⟩]

/-- Registers of chapter 13, part 1. -/
def regTable13_0 : List RegSpec := [
  ⟨.CRR_PORT_CFG, .device 8, [
    ⟨F.CRR_PORT_CFG_MODE, .rw, .rw, 0, some 0, none⟩,
    ⟨F.CRR_PORT_CFG_RETRAIN, .w1s, .w1s, 0, some 0, some 0⟩,
    ⟨F.CRR_PORT_CFG_TAGGED, .rw, .rw, 0, some 0, none⟩,
    ⟨F.CRR_PORT_CFG_VID, .rw, .rw, 0, some 0, none⟩,
    ⟨F.CRR_PORT_CFG_IP6, .rw, .rw, 0, some 0, none⟩,
    ⟨F.CRR_PORT_CFG_MAX_FRAME, .rw, .rw, 9216, some 9216, none⟩,
    ⟨F.CRR_PORT_CFG_UDP, .rw, .rw, 49426, some 49426, none⟩]⟩,
  ⟨.CRR_PORT_STATUS, .device 8, [
    ⟨F.CRR_PORT_STATUS_UP, .ro, .ro, 0, some 0, some 0⟩,
    ⟨F.CRR_PORT_STATUS_MODE, .ro, .ro, 0, some 0, some 0⟩,
    ⟨F.CRR_PORT_STATUS_CFG_ERR, .w1c, .w1c, 0, some 0, some 0⟩,
    ⟨F.CRR_PORT_STATUS_STORM, .w1c, .w1c, 0, some 0, some 0⟩,
    ⟨F.CRR_PORT_STATUS_REPLAY_FREE, .ro, .ro, 32768, some 32768, some 32768⟩]⟩,
  ⟨.CRR_PORT_MAC, .device 8, [
    ⟨F.CRR_PORT_MAC_MAC, .rw, .rw, 0, some 0, some 0⟩]⟩,
  ⟨.CRR_PORT_IP, .device 16, [
    ⟨F.CRR_PORT_IP_ADDR, .rw, .rw, 0, some 0, none⟩]⟩,
  ⟨.CRR_PRIO_MAP, .device 8, [
    ⟨F.CRR_PRIO_MAP_PRIO0, .rw, .rw, 3, some 3, some 3⟩,
    ⟨F.CRR_PRIO_MAP_PRIO1, .rw, .rw, 4, some 4, some 4⟩,
    ⟨F.CRR_PRIO_MAP_PRIO2, .rw, .rw, 5, some 5, some 5⟩,
    ⟨F.CRR_PRIO_MAP_PRIO3, .rw, .rw, 6, some 6, some 6⟩,
    ⟨F.CRR_PRIO_MAP_PRIO4, .rw, .rw, 7, some 7, some 7⟩,
    ⟨F.CRR_PRIO_MAP_DSCP0, .rw, .rw, 26, some 26, some 26⟩,
    ⟨F.CRR_PRIO_MAP_DSCP1, .rw, .rw, 34, some 34, some 34⟩,
    ⟨F.CRR_PRIO_MAP_DSCP2, .rw, .rw, 46, some 46, some 46⟩,
    ⟨F.CRR_PRIO_MAP_DSCP3, .rw, .rw, 48, some 48, some 48⟩,
    ⟨F.CRR_PRIO_MAP_DSCP4, .rw, .rw, 56, some 56, some 56⟩]⟩,
  ⟨.CRR_PFC_CFG, .device 8, [
    ⟨F.CRR_PFC_CFG_PFC_EN, .rw, .rw, 8, some 8, none⟩,
    ⟨F.CRR_PFC_CFG_XOFF_KIB, .rw, .rw, 512, some 512, some 512⟩,
    ⟨F.CRR_PFC_CFG_PFC_WD_MS, .rw, .rw, 100, some 100, some 100⟩]⟩,
  ⟨.CRR_PORT_DROP, .device 8, [
    ⟨F.CRR_PORT_DROP_FCS, .ro, .ro, 0, some 0, some 0⟩,
    ⟨F.CRR_PORT_DROP_CHECK, .ro, .ro, 0, some 0, some 0⟩,
    ⟨F.CRR_PORT_DROP_BUFFER, .ro, .ro, 0, some 0, some 0⟩,
    ⟨F.CRR_PORT_DROP_STRAY, .ro, .ro, 0, some 0, some 0⟩]⟩,
  ⟨.CRR_CONN_RANGE, .part 1, [
    ⟨F.CRR_CONN_RANGE_BASE, .rw, .ro, 0, some 0, none⟩,
    ⟨F.CRR_CONN_RANGE_COUNT, .rw, .ro, 0, some 0, none⟩]⟩,
  ⟨.CRR_CMD0, .part 1, [
    ⟨F.CRR_CMD0_OP, .rw, .rw, 0, some 0, some 0⟩,
    ⟨F.CRR_CMD0_CONN, .rw, .rw, 0, some 0, some 0⟩,
    ⟨F.CRR_CMD0_PORT, .rw, .rw, 0, some 0, some 0⟩,
    ⟨F.CRR_CMD0_LISTEN, .rw, .rw, 0, some 0, some 0⟩,
    ⟨F.CRR_CMD0_REMOTE_CONN, .rw, .rw, 0, some 0, some 0⟩,
    ⟨F.CRR_CMD0_VER_MAX, .rw, .rw, 0, some 0, some 0⟩]⟩,
  ⟨.CRR_CMD1, .part 1, [
    ⟨F.CRR_CMD1_W, .rw, .rw, 0, some 0, some 0⟩,
    ⟨F.CRR_CMD1_REPLAY_KIB, .rw, .rw, 0, some 0, some 0⟩,
    ⟨F.CRR_CMD1_RESP_S, .rw, .rw, 0, some 0, some 0⟩]⟩]

/-- Registers of chapter 13, part 2. -/
def regTable13_1 : List RegSpec := [
  ⟨.CRR_CMD2, .part 1, [
    ⟨F.CRR_CMD2_COOKIE, .rw, .rw, 0, some 0, some 0⟩]⟩,
  ⟨.CRR_CMD3, .part 1, [
    ⟨F.CRR_CMD3_EXPORT_BASE, .rw, .rw, 0, some 0, some 0⟩]⟩,
  ⟨.CRR_CMD4, .part 1, [
    ⟨F.CRR_CMD4_REMOTE_IP, .rw, .rw, 0, some 0, some 0⟩]⟩,
  ⟨.CRR_CMD5, .part 1, [
    ⟨F.CRR_CMD5_REMOTE_IP, .rw, .rw, 0, some 0, some 0⟩]⟩,
  ⟨.CRR_CMD6, .part 1, [
    ⟨F.CRR_CMD6_EXPORT_BLOCKS, .rw, .rw, 0, some 0, some 0⟩]⟩,
  ⟨.CRR_CMD7, .part 1, [
    ⟨F.CRR_CMD7_NEXT_HOP_MAC, .rw, .rw, 0, some 0, some 0⟩]⟩,
  ⟨.CRR_CMD_CTRL, .part 1, [
    ⟨F.CRR_CMD_CTRL_GO, .w1s, .w1s, 0, some 0, some 0⟩]⟩,
  ⟨.CRR_CMD_STATUS, .part 1, [
    ⟨F.CRR_CMD_STATUS_DONE, .w1c, .w1c, 0, some 0, some 0⟩,
    ⟨F.CRR_CMD_STATUS_BUSY_REFUSED, .w1c, .w1c, 0, some 0, some 0⟩,
    ⟨F.CRR_CMD_STATUS_RESULT, .ro, .ro, 0, some 0, some 0⟩]⟩,
  ⟨.CRR_CONN_STATE, .conn, [
    ⟨F.CRR_CONN_STATE_STATE, .ro, .ro, 0, some 0, some 0⟩,
    ⟨F.CRR_CONN_STATE_VER, .ro, .ro, 0, some 0, some 0⟩,
    ⟨F.CRR_CONN_STATE_PORT, .ro, .ro, 0, some 0, some 0⟩,
    ⟨F.CRR_CONN_STATE_PARTITION, .ro, .ro, 0, some 0, none⟩,
    ⟨F.CRR_CONN_STATE_GEN, .ro, .ro, 0, some 0, none⟩,
    ⟨F.CRR_CONN_STATE_RETRIES, .ro, .ro, 0, some 0, some 0⟩,
    ⟨F.CRR_CONN_STATE_IN_DOUBT, .ro, .ro, 0, some 0, some 0⟩,
    ⟨F.CRR_CONN_STATE_FAILS, .ro, .ro, 0, some 0, none⟩]⟩,
  ⟨.CRR_NVME_CFG, .device 16, [
    ⟨F.CRR_NVME_CFG_EN, .rw, .rw, 0, some 0, none⟩,
    ⟨F.CRR_NVME_CFG_PORT, .rw, .rw, 0, some 0, none⟩,
    ⟨F.CRR_NVME_CFG_QPS, .rw, .rw, 1, some 1, some 1⟩,
    ⟨F.CRR_NVME_CFG_DEPTH, .rw, .rw, 64, some 64, some 64⟩,
    ⟨F.CRR_NVME_CFG_TMO_EXP, .rw, .rw, 10, some 10, some 10⟩,
    ⟨F.CRR_NVME_CFG_NSID, .rw, .rw, 0, some 0, none⟩]⟩]

/-- Registers of chapter 13, part 3. -/
def regTable13_2 : List RegSpec := [
  ⟨.CRR_NVME_ADDR, .device 48, [
    ⟨F.CRR_NVME_ADDR_ADDR, .rw, .rw, 0, some 0, none⟩]⟩,
  ⟨.CRR_NVME_NQN, .device 16, [
    ⟨F.CRR_NVME_NQN_ADDR, .rw, .rw, 0, some 0, none⟩]⟩,
  ⟨.CRR_NVME_STATUS, .device 16, [
    ⟨F.CRR_NVME_STATUS_STATE, .ro, .ro, 0, some 0, some 0⟩,
    ⟨F.CRR_NVME_STATUS_RESULT, .ro, .ro, 0, some 0, some 0⟩]⟩,
  ⟨.CRR_PTP_CFG, .device 1, [
    ⟨F.CRR_PTP_CFG_EN, .rw, .rw, 0, some 0, none⟩,
    ⟨F.CRR_PTP_CFG_PORT, .rw, .rw, 0, some 0, none⟩,
    ⟨F.CRR_PTP_CFG_TRANSPORT, .rw, .rw, 0, some 0, none⟩,
    ⟨F.CRR_PTP_CFG_P2P, .rw, .rw, 0, some 0, none⟩,
    ⟨F.CRR_PTP_CFG_DOMAIN, .rw, .rw, 0, some 0, none⟩]⟩,
  ⟨.CRR_PTP_STATUS, .device 1, [
    ⟨F.CRR_PTP_STATUS_STATE, .ro, .ro, 0, some 0, some 0⟩,
    ⟨F.CRR_PTP_STATUS_FAR, .w1c, .w1c, 0, some 0, some 0⟩,
    ⟨F.CRR_PTP_STATUS_OFFSET, .ro, .ro, 0, some 0, some 0⟩]⟩,
  ⟨.CLK_TIME_NS, .device 1, [
    ⟨F.CLK_TIME_NS_NS, .ro, .ro, 0, some 0, some 0⟩]⟩]

/-- Registers of chapter 14, part 1. -/
def regTable14_0 : List RegSpec := [
  ⟨.PART_LEASE_CMD0, .device 1, [
    ⟨F.PART_LEASE_CMD0_OP, .rw, .rw, 0, some 0, some 0⟩,
    ⟨F.PART_LEASE_CMD0_KIND, .rw, .rw, 0, some 0, some 0⟩,
    ⟨F.PART_LEASE_CMD0_INDEX, .rw, .rw, 0, some 0, some 0⟩,
    ⟨F.PART_LEASE_CMD0_PARTITION, .rw, .rw, 0, some 0, some 0⟩]⟩,
  ⟨.PART_LEASE_CMD1, .device 1, [
    ⟨F.PART_LEASE_CMD1_CORES, .rw, .rw, 0, some 0, some 0⟩]⟩,
  ⟨.PART_LEASE_CTRL, .device 1, [
    ⟨F.PART_LEASE_CTRL_GO, .w1s, .w1s, 0, some 0, some 0⟩]⟩,
  ⟨.PART_LEASE_STATUS, .device 1, [
    ⟨F.PART_LEASE_STATUS_DONE, .w1c, .w1c, 0, some 0, some 0⟩,
    ⟨F.PART_LEASE_STATUS_BUSY_REFUSED, .w1c, .w1c, 0, some 0, some 0⟩,
    ⟨F.PART_LEASE_STATUS_RESULT, .ro, .ro, 0, some 0, some 0⟩]⟩,
  ⟨.PART_LEASE_RESULT, .device 1, [
    ⟨F.PART_LEASE_RESULT_STATE, .ro, .ro, 0, some 0, some 0⟩,
    ⟨F.PART_LEASE_RESULT_HOLDER, .ro, .ro, 0, some 0, some 0⟩,
    ⟨F.PART_LEASE_RESULT_EPOCH, .ro, .ro, 0, some 0, some 0⟩]⟩,
  ⟨.PART_CORE_MASK, .part 1, [
    ⟨F.PART_CORE_MASK_CORES, .ro, .ro, 0, some 0, none⟩]⟩,
  ⟨.PART_CTRL, .part 1, [
    ⟨F.PART_CTRL_RESET, .w1s, .w1s, 0, some 0, some 0⟩]⟩,
  ⟨.PART_STATE, .part 1, [
    ⟨F.PART_STATE_STATE, .ro, .ro, 0, some 0, some 0⟩]⟩,
  ⟨.PART_RECOVERY_STATUS, .part 1, [
    ⟨F.PART_RECOVERY_STATUS_FATAL_CAUSE, .ro, .ro, 0, some 0, some 0⟩,
    ⟨F.PART_RECOVERY_STATUS_CTX_RECLAIMED, .w1c, .w1c, 0, some 0, some 0⟩,
    ⟨F.PART_RECOVERY_STATUS_RESET_DONE, .w1c, .w1c, 0, some 0, some 1⟩]⟩,
  ⟨.PART_EPOCH_DROPS, .part 1, [
    ⟨F.PART_EPOCH_DROPS_COUNT, .ro, .ro, 0, some 0, some 0⟩]⟩]

/-- Registers of chapter 14, part 2. -/
def regTable14_1 : List RegSpec := [
  ⟨.PART_ZERO_PENDING, .part 1, [
    ⟨F.PART_ZERO_PENDING_BYTES, .ro, .ro, 0, some 0, none⟩]⟩,
  ⟨.PART_RECLAIM_TMO, .device 1, [
    ⟨F.PART_RECLAIM_TMO_MS, .rw, .rw, 200, some 200, none⟩]⟩,
  ⟨.MGT_SEC_STATUS, .device 1, [
    ⟨F.MGT_SEC_STATUS_IMAGE, .ro, .ro, 0, some 0, none⟩,
    ⟨F.MGT_SEC_STATUS_KEY_SLOT, .ro, .ro, 0, some 0, none⟩,
    ⟨F.MGT_SEC_STATUS_DEBUG_UNLOCKED, .ro, .ro, 0, none, none⟩,
    ⟨F.MGT_SEC_STATUS_SVN, .ro, .ro, 0, some 0, none⟩]⟩]

/-- Registers of chapter 15, part 1. -/
def regTable15_0 : List RegSpec := [
  ⟨.FRK_CMD0, .device 1, [
    ⟨F.FRK_CMD0_OP, .rw, .rw, 0, some 0, some 0⟩,
    ⟨F.FRK_CMD0_ARG8, .rw, .rw, 0, some 0, some 0⟩]⟩,
  ⟨.FRK_CMD1, .device 1, [
    ⟨F.FRK_CMD1_ARG64, .rw, .rw, 0, some 0, some 0⟩]⟩,
  ⟨.FRK_CMD_CTRL, .device 1, [
    ⟨F.FRK_CMD_CTRL_GO, .w1s, .w1s, 0, some 0, some 0⟩]⟩,
  ⟨.FRK_CMD_STATUS, .device 1, [
    ⟨F.FRK_CMD_STATUS_DONE, .w1c, .w1c, 0, some 0, some 0⟩,
    ⟨F.FRK_CMD_STATUS_BUSY_REFUSED, .w1c, .w1c, 0, some 0, some 0⟩,
    ⟨F.FRK_CMD_STATUS_RESULT, .ro, .ro, 0, some 0, some 0⟩,
    ⟨F.FRK_CMD_STATUS_LENGTH, .ro, .ro, 0, some 0, some 0⟩]⟩,
  ⟨.FRK_BUF, .device 512, [
    ⟨F.FRK_BUF_DATA, .ro, .ro, 0, some 0, some 0⟩]⟩,
  ⟨.FRK_TALLY_STATUS, .device 1, [
    ⟨F.FRK_TALLY_STATUS_LINK_UP, .ro, .ro, 0, some 0, some 0⟩,
    ⟨F.FRK_TALLY_STATUS_UNACKED, .ro, .ro, 0, some 0, some 0⟩,
    ⟨F.FRK_TALLY_STATUS_RETRIES, .ro, .ro, 0, none, none⟩,
    ⟨F.FRK_TALLY_STATUS_LAST_SEQ, .ro, .ro, 0, none, none⟩]⟩,
  ⟨.FRK_SHARE_K, .device 1, [
    ⟨F.FRK_SHARE_K_BYTES, .rw, .rw, 64, some 64, none⟩]⟩,
  ⟨.FRK_SHARE_MJ, .part 1, [
    ⟨F.FRK_SHARE_MJ_MJ, .ro, .ro, 0, some 0, none⟩]⟩,
  ⟨.FRK_SHARE_UNASSIGNED, .device 1, [
    ⟨F.FRK_SHARE_UNASSIGNED_MJ, .ro, .ro, 0, some 0, none⟩]⟩]

/-- Registers of chapter 16, part 1. -/
def regTable16_0 : List RegSpec := [
  ⟨.SYS_STRAPS, .device 1, [
    ⟨F.SYS_STRAPS_BOOT_SRC, .ro, .ro, 0, none, none⟩,
    ⟨F.SYS_STRAPS_HOSTPORT, .ro, .ro, 0, none, none⟩,
    ⟨F.SYS_STRAPS_MAXGEN, .ro, .ro, 0, none, none⟩,
    ⟨F.SYS_STRAPS_VFCOUNT, .ro, .ro, 0, none, none⟩,
    ⟨F.SYS_STRAPS_BAR4_EN, .ro, .ro, 0, none, none⟩,
    ⟨F.SYS_STRAPS_ETH_PROFILE, .ro, .ro, 0, none, none⟩,
    ⟨F.SYS_STRAPS_SAFE_L, .ro, .ro, 0, none, none⟩,
    ⟨F.SYS_STRAPS_BOOT_SRC_APPLIED, .ro, .ro, 0, none, none⟩,
    ⟨F.SYS_STRAPS_MAXGEN_APPLIED, .ro, .ro, 0, none, none⟩,
    ⟨F.SYS_STRAPS_ETH_PROFILE_APPLIED, .ro, .ro, 0, none, none⟩,
    ⟨F.SYS_STRAPS_FALLBACK, .ro, .ro, 0, none, none⟩]⟩,
  ⟨.SYS_START_STATUS, .device 1, [
    ⟨F.SYS_START_STATUS_PHASE, .ro, .ro, 0, some 0, none⟩,
    ⟨F.SYS_START_STATUS_READY, .ro, .ro, 0, some 0, none⟩,
    ⟨F.SYS_START_STATUS_FAILED, .ro, .ro, 0, some 0, none⟩,
    ⟨F.SYS_START_STATUS_FAIL_CAUSE, .ro, .ro, 0, some 0, none⟩,
    ⟨F.SYS_START_STATUS_CFG_BANK, .ro, .ro, 2, some 2, none⟩,
    ⟨F.SYS_START_STATUS_CFG_DEFAULTS, .ro, .ro, 0, some 0, none⟩,
    ⟨F.SYS_START_STATUS_CFG_BANK_INVALID, .ro, .ro, 0, some 0, none⟩,
    ⟨F.SYS_START_STATUS_CFG_ITEM_ERR, .ro, .ro, 0, some 0, none⟩,
    ⟨F.SYS_START_STATUS_SAFE_BOOT, .ro, .ro, 0, some 0, none⟩,
    ⟨F.SYS_START_STATUS_IMAGE_FALLBACK, .ro, .ro, 0, some 0, none⟩,
    ⟨F.SYS_START_STATUS_START_MS, .ro, .ro, 0, some 0, none⟩]⟩,
  ⟨.SYS_ZERO_PENDING, .device 1, [
    ⟨F.SYS_ZERO_PENDING_BYTES, .ro, .ro, 0, some 0, none⟩]⟩,
  ⟨.SYS_RESET_CTRL, .device 1, [
    ⟨F.SYS_RESET_CTRL_KEY, .rw, .rw, 0, some 0, some 0⟩,
    ⟨F.SYS_RESET_CTRL_COLD, .w1s, .w1s, 0, some 0, some 0⟩,
    ⟨F.SYS_RESET_CTRL_WARM, .w1s, .w1s, 0, some 0, some 0⟩]⟩,
  ⟨.SYS_RESET_CAUSE, .device 1, [
    ⟨F.SYS_RESET_CAUSE_POWER_UP, .rstk, .rstk, 0, some 0, some 0⟩,
    ⟨F.SYS_RESET_CAUSE_COLD_REQ, .rstk, .rstk, 0, some 0, some 0⟩,
    ⟨F.SYS_RESET_CAUSE_PERST, .rstk, .rstk, 0, some 0, some 0⟩,
    ⟨F.SYS_RESET_CAUSE_HOT_RESET, .rstk, .rstk, 0, some 0, some 0⟩,
    ⟨F.SYS_RESET_CAUSE_WARM_REQ, .rstk, .rstk, 0, some 0, some 0⟩,
    ⟨F.SYS_RESET_CAUSE_BMC, .rstk, .rstk, 0, some 0, some 0⟩,
    ⟨F.SYS_RESET_CAUSE_WATCHDOG, .rstk, .rstk, 0, some 0, some 0⟩,
    ⟨F.SYS_RESET_CAUSE_ESCALATION, .rstk, .rstk, 0, some 0, some 0⟩,
    ⟨F.SYS_RESET_CAUSE_LAST, .ro, .ro, 0, none, none⟩,
    ⟨F.SYS_RESET_CAUSE_WARM_COUNT, .ro, .ro, 0, none, none⟩]⟩,
  ⟨.MGT_CFGS_CMD0, .device 1, [
    ⟨F.MGT_CFGS_CMD0_OP, .rw, .rw, 0, some 0, some 0⟩]⟩,
  ⟨.MGT_CFGS_CMD1, .device 1, [
    ⟨F.MGT_CFGS_CMD1_ADDR, .rw, .rw, 0, some 0, some 0⟩]⟩,
  ⟨.MGT_CFGS_CMD2, .device 1, [
    ⟨F.MGT_CFGS_CMD2_LENGTH, .rw, .rw, 0, some 0, some 0⟩]⟩,
  ⟨.MGT_CFGS_CTRL, .device 1, [
    ⟨F.MGT_CFGS_CTRL_GO, .w1s, .w1s, 0, some 0, some 0⟩]⟩,
  ⟨.MGT_CFGS_STATUS, .device 1, [
    ⟨F.MGT_CFGS_STATUS_DONE, .w1c, .w1c, 0, some 0, some 0⟩,
    ⟨F.MGT_CFGS_STATUS_BUSY_REFUSED, .w1c, .w1c, 0, some 0, some 0⟩,
    ⟨F.MGT_CFGS_STATUS_RESULT, .ro, .ro, 0, some 0, some 0⟩,
    ⟨F.MGT_CFGS_STATUS_LENGTH, .ro, .ro, 0, some 0, some 0⟩]⟩]

/-- Registers of chapter 16, part 2. -/
def regTable16_1 : List RegSpec := [
  ⟨.PWR_PIN_FILTER, .device 1, [
    ⟨F.PWR_PIN_FILTER_PWRFAIL, .rw, .rw, 10, some 10, none⟩,
    ⟨F.PWR_PIN_FILTER_PERST, .rw, .rw, 10, some 10, none⟩,
    ⟨F.PWR_PIN_FILTER_OTHER, .rw, .rw, 10, some 10, none⟩]⟩,
  ⟨.PWR_PWRFAIL_STATUS, .device 1, [
    ⟨F.PWR_PWRFAIL_STATUS_LEVEL, .ro, .ro, 0, none, none⟩,
    ⟨F.PWR_PWRFAIL_STATUS_SEEN, .w1c, .w1c, 0, some 0, some 0⟩,
    ⟨F.PWR_PWRFAIL_STATUS_COUNT, .ro, .ro, 0, none, none⟩]⟩]

/-- Registers of chapter 17, part 1. -/
def regTable17_0 : List RegSpec := [
  ⟨.DLS_ENTRY, .part 2048, [
    ⟨F.DLS_ENTRY_WORD, .ro, .ro, 0, some 0, some 0⟩]⟩,
  ⟨.DLS_PROD, .part 1, [
    ⟨F.DLS_PROD_COUNT, .ro, .ro, 0, some 0, some 0⟩]⟩,
  ⟨.DLS_CONS, .part 1, [
    ⟨F.DLS_CONS_COUNT, .rw, .rw, 0, some 0, some 0⟩]⟩,
  ⟨.DLS_STATUS, .part 1, [
    ⟨F.DLS_STATUS_OVERFLOW, .w1c, .w1c, 0, some 0, some 0⟩]⟩,
  ⟨.DLS_DROPPED, .part 1, [
    ⟨F.DLS_DROPPED_COUNT, .ro, .ro, 0, some 0, some 0⟩]⟩,
  ⟨.DLS_LOST, .part 1, [
    ⟨F.DLS_LOST_COUNT, .ro, .ro, 0, some 0, some 0⟩]⟩,
  ⟨.ERR_STATUS, .device 1, [
    ⟨F.ERR_STATUS_HBM_UE, .rstk, .rstk, 0, some 0, some 0⟩,
    ⟨F.ERR_STATUS_LLC_UE, .rstk, .rstk, 0, some 0, some 0⟩,
    ⟨F.ERR_STATUS_CORE_UE, .rstk, .rstk, 0, some 0, some 0⟩,
    ⟨F.ERR_STATUS_SO_UE, .rstk, .rstk, 0, some 0, some 0⟩,
    ⟨F.ERR_STATUS_DIE_FENCED, .rstk, .rstk, 0, some 0, some 0⟩,
    ⟨F.ERR_STATUS_DEVICE_FATAL, .rstk, .rstk, 0, some 0, some 0⟩,
    ⟨F.ERR_STATUS_RETIRE_FULL, .rstk, .rstk, 0, some 0, some 0⟩]⟩,
  ⟨.ERR_DEVICE_CAUSE, .device 1, [
    ⟨F.ERR_DEVICE_CAUSE_CAUSE, .rstk, .rstk, 0, some 0, some 0⟩]⟩,
  ⟨.ERR_FIRST_INFO, .device 1, [
    ⟨F.ERR_FIRST_INFO_SOURCE, .ro, .ro, 0, none, none⟩,
    ⟨F.ERR_FIRST_INFO_SITE, .ro, .ro, 0, none, none⟩,
    ⟨F.ERR_FIRST_INFO_VALID, .rstk, .rstk, 0, some 0, some 0⟩]⟩,
  ⟨.ERR_FIRST_ADDR, .device 1, [
    ⟨F.ERR_FIRST_ADDR_DPA, .ro, .ro, 0, none, none⟩]⟩]

/-- Registers of chapter 17, part 2. -/
def regTable17_1 : List RegSpec := [
  ⟨.ERR_CE_HBM, .device 8, [
    ⟨F.ERR_CE_HBM_COUNT, .ro, .ro, 0, none, none⟩]⟩,
  ⟨.ERR_UE_HBM, .device 8, [
    ⟨F.ERR_UE_HBM_COUNT, .ro, .ro, 0, none, none⟩]⟩,
  ⟨.ERR_CE_OTHER, .device 1, [
    ⟨F.ERR_CE_OTHER_LLC, .ro, .ro, 0, none, none⟩,
    ⟨F.ERR_CE_OTHER_SCRATCH, .ro, .ro, 0, none, none⟩,
    ⟨F.ERR_CE_OTHER_SYNC, .ro, .ro, 0, none, none⟩,
    ⟨F.ERR_CE_OTHER_UCIE, .ro, .ro, 0, none, none⟩]⟩,
  ⟨.ERR_CXL, .device 8, [
    ⟨F.ERR_CXL_COUNT, .ro, .ro, 0, none, none⟩]⟩,
  ⟨.ERR_SCRUB_CFG, .device 1, [
    ⟨F.ERR_SCRUB_CFG_EN, .rw, .rw, 1, some 1, none⟩,
    ⟨F.ERR_SCRUB_CFG_HOURS, .rw, .rw, 24, some 24, none⟩]⟩,
  ⟨.ERR_SCRUB_STATUS, .device 1, [
    ⟨F.ERR_SCRUB_STATUS_BEHIND, .w1c, .w1c, 0, some 0, some 0⟩,
    ⟨F.ERR_SCRUB_STATUS_PASSES, .ro, .ro, 0, some 0, none⟩]⟩,
  ⟨.ERR_RETIRE, .device 8, [
    ⟨F.ERR_RETIRE_COUNT, .ro, .ro, 0, none, none⟩,
    ⟨F.ERR_RETIRE_FULL, .rstk, .rstk, 0, some 0, some 0⟩,
    ⟨F.ERR_RETIRE_REFUSED, .ro, .ro, 0, none, none⟩]⟩,
  ⟨.ERR_RETIRE_IDX, .device 1, [
    ⟨F.ERR_RETIRE_IDX_INDEX, .rw, .rw, 0, some 0, some 0⟩]⟩,
  ⟨.ERR_RETIRE_DPA, .device 1, [
    ⟨F.ERR_RETIRE_DPA_DPA, .ro, .ro, 0, some 0, some 0⟩]⟩,
  ⟨.ERR_DIE_STATUS, .device 1, [
    ⟨F.ERR_DIE_STATUS_FENCED, .ro, .ro, 0, some 0, none⟩,
    ⟨F.ERR_DIE_STATUS_CAUSE, .ro, .ro, 0, some 0, none⟩,
    ⟨F.ERR_DIE_STATUS_UNCOUNTED, .rstk, .rstk, 0, some 0, some 0⟩]⟩]

/-- Registers of chapter 17, part 3. -/
def regTable17_2 : List RegSpec := [
  ⟨.ERR_ESCALATE_MS, .device 1, [
    ⟨F.ERR_ESCALATE_MS_MS, .rw, .rw, 100, some 100, none⟩]⟩,
  ⟨.ERR_LOCK, .device 1, [
    ⟨F.ERR_LOCK_COUNT, .ro, .ro, 0, some 0, none⟩,
    ⟨F.ERR_LOCK_VALID, .w1c, .w1c, 0, some 0, some 0⟩,
    ⟨F.ERR_LOCK_OFFSET, .ro, .ro, 0, some 0, some 0⟩]⟩]

/-- Registers of chapter 18, part 1. -/
def regTable18_0 : List RegSpec := [
  ⟨.SYS_IDENT, .part 1, [
    ⟨F.SYS_IDENT_VENDOR, .ro, .ro, 7997, some 7997, some 7997⟩,
    ⟨F.SYS_IDENT_DEVICE, .ro, .ro, 0, some 0, some 0⟩,
    ⟨F.SYS_IDENT_REVISION, .ro, .ro, 176, some 176, some 176⟩,
    ⟨F.SYS_IDENT_VARIANT, .ro, .ro, 0, some 0, some 0⟩,
    ⟨F.SYS_IDENT_PARTITION, .ro, .ro, 0, some 0, some 0⟩,
    ⟨F.SYS_IDENT_IS_VF, .ro, .ro, 0, some 0, some 0⟩]⟩,
  ⟨.SYS_VERSION, .device 1, [
    ⟨F.SYS_VERSION_REGMAP_MAJOR, .ro, .ro, 1, some 1, some 1⟩,
    ⟨F.SYS_VERSION_REGMAP_MINOR, .ro, .ro, 0, some 0, some 0⟩,
    ⟨F.SYS_VERSION_ULITAL_MAX, .ro, .ro, 2, some 2, some 2⟩,
    ⟨F.SYS_VERSION_PLAN_FMT_MAX, .ro, .ro, 2, some 2, some 2⟩,
    ⟨F.SYS_VERSION_COURIER_MAX, .ro, .ro, 2, some 2, some 2⟩]⟩,
  ⟨.SYS_FW_VERSION, .device 1, [
    ⟨F.SYS_FW_VERSION_BUILD, .ro, .ro, 0, some 0, none⟩,
    ⟨F.SYS_FW_VERSION_MINOR, .ro, .ro, 0, some 0, none⟩,
    ⟨F.SYS_FW_VERSION_MAJOR, .ro, .ro, 0, some 0, none⟩]⟩,
  ⟨.SYS_SERIAL, .device 1, [
    ⟨F.SYS_SERIAL_SERIAL, .ro, .ro, 0, some 0, some 0⟩]⟩,
  ⟨.SYS_BAD_ACCESS, .part 1, [
    ⟨F.SYS_BAD_ACCESS_COUNT, .ro, .ro, 0, some 0, some 0⟩,
    ⟨F.SYS_BAD_ACCESS_VALID, .w1c, .w1c, 0, some 0, some 0⟩,
    ⟨F.SYS_BAD_ACCESS_OFFSET, .ro, .ro, 0, some 0, some 0⟩]⟩,
  ⟨.MGT_RSV_ADDR, .device 1, [
    ⟨F.MGT_RSV_ADDR_DPA, .rw, .rw, 0, some 0, some 0⟩]⟩,
  ⟨.MGT_RSV_DATA, .device 1, [
    ⟨F.MGT_RSV_DATA_DATA, .ro, .ro, 0, some 0, some 0⟩]⟩]

/-- Registers of chapter 19, part 1. -/
def regTable19_0 : List RegSpec := [
  ⟨.PWR_TEMP_DIE, .device 8, [
    ⟨F.PWR_TEMP_DIE_TEMP, .ro, .ro, 0, some 0, some 0⟩,
    ⟨F.PWR_TEMP_DIE_VALID, .ro, .ro, 0, some 0, some 0⟩]⟩,
  ⟨.PWR_TEMP_HBM, .device 8, [
    ⟨F.PWR_TEMP_HBM_TEMP, .ro, .ro, 0, some 0, some 0⟩,
    ⟨F.PWR_TEMP_HBM_VALID, .ro, .ro, 0, some 0, some 0⟩]⟩,
  ⟨.PWR_TEMP_MAX, .device 1, [
    ⟨F.PWR_TEMP_MAX_TEMP, .ro, .ro, 0, some 0, some 0⟩,
    ⟨F.PWR_TEMP_MAX_SOURCE, .ro, .ro, 0, some 0, some 0⟩]⟩,
  ⟨.PWR_POWER, .device 1, [
    ⟨F.PWR_POWER_MW, .ro, .ro, 0, some 0, some 0⟩]⟩,
  ⟨.PWR_LIMIT, .device 1, [
    ⟨F.PWR_LIMIT_W, .rw, .rw, 0, some 0, none⟩]⟩,
  ⟨.PWR_THERM_CFG, .device 1, [
    ⟨F.PWR_THERM_CFG_THROTTLE_C, .rw, .rw, 95, some 95, none⟩]⟩,
  ⟨.PWR_THROTTLE_STATUS, .device 1, [
    ⟨F.PWR_THROTTLE_STATUS_LEVEL, .ro, .ro, 0, some 0, some 0⟩,
    ⟨F.PWR_THROTTLE_STATUS_THERMAL, .w1c, .w1c, 0, some 0, some 0⟩,
    ⟨F.PWR_THROTTLE_STATUS_POWER, .w1c, .w1c, 0, some 0, some 0⟩,
    ⟨F.PWR_THROTTLE_STATUS_PWRBRK, .w1c, .w1c, 0, some 0, some 0⟩,
    ⟨F.PWR_THROTTLE_STATUS_OVER_TJ, .w1c, .w1c, 0, some 0, some 0⟩,
    ⟨F.PWR_THROTTLE_STATUS_MS, .ro, .ro, 0, some 0, none⟩]⟩,
  ⟨.PWR_RAIL_MV, .device 10, [
    ⟨F.PWR_RAIL_MV_MV, .ro, .ro, 0, some 0, some 0⟩]⟩,
  ⟨.CLK_PLL_STATUS, .device 1, [
    ⟨F.CLK_PLL_STATUS_MEADOW, .ro, .ro, 0, some 0, some 0⟩,
    ⟨F.CLK_PLL_STATUS_POST, .ro, .ro, 0, some 0, some 0⟩,
    ⟨F.CLK_PLL_STATUS_P0_MISC, .ro, .ro, 0, some 0, some 0⟩]⟩,
  ⟨.CLK_TIME_RATE, .device 1, [
    ⟨F.CLK_TIME_RATE_RATE, .ro, .ro, 0, some 0, some 0⟩]⟩]

/-- Registers of chapter 19, part 2. -/
def regTable19_1 : List RegSpec := [
  ⟨.CLK_REFCLK_STATUS, .device 1, [
    ⟨F.CLK_REFCLK_STATUS_PRESENT, .ro, .ro, 0, some 0, some 0⟩,
    ⟨F.CLK_REFCLK_STATUS_SSC, .ro, .ro, 0, some 0, some 0⟩]⟩]

/-- Every register of the spec, in index order. -/
def regTable : List RegSpec :=
  regTable01_0 ++ regTable02_0 ++ regTable03_0 ++ regTable03_1 ++ regTable04_0 ++ regTable04_1 ++ regTable06_0 ++ regTable07_0 ++ regTable07_1 ++ regTable08_0 ++ regTable08_1 ++ regTable08_2 ++ regTable08_3 ++ regTable09_0 ++ regTable09_1 ++ regTable10_0 ++ regTable10_1 ++ regTable11_0 ++ regTable11_1 ++ regTable11_2 ++ regTable12_0 ++ regTable12_1 ++ regTable13_0 ++ regTable13_1 ++ regTable13_2 ++ regTable14_0 ++ regTable14_1 ++ regTable15_0 ++ regTable16_0 ++ regTable16_1 ++ regTable17_0 ++ regTable17_1 ++ regTable17_2 ++ regTable18_0 ++ regTable19_0 ++ regTable19_1

end Sys2Proof.Machine
end

