-- ==== Sys2Proof/Machine/TypesHost.lean ====
section
/-! DEFINITION. Data of the host and peer links (chapter 12) and of Carrier channels and rings (chapter 10). Functions are
numbered 0 for the PF, `n` for VF `n`, `64 + n` for the port function of x16 port `n`. Plain data only. -/

namespace Sys2Proof.Machine

/-- A completion record of Table 10-6. -/
structure CplRec where
  ring : Nat
  status : Nat
  channel : Nat
  readback : Bool
  user : Nat
  residue : Nat
  desc : Nat
  /-- the lease epoch of the ring when the work was issued -/
  epoch : Nat
  irq : Bool
  deriving DecidableEq, Repr

/-- An entry of a function's pending buffer (R453). -/
inductive Held where
  | record (r : CplRec)
  | message (vector : Nat)
  deriving DecidableEq, Repr

/-- What an outstanding read is for. -/
inductive ReadFor where
  /-- request `k` of an item's source -/
  | burst (item k : Nat)
  /-- the read-back of an item (R368) -/
  | readback (item : Nat)
  /-- the read-back before a notice that follows data on another port (R443) -/
  | flag (item : Nat)
  /-- the probe of a REGISTER command (R435) -/
  | probe
  /-- a descriptor of a chain in host memory, or its word 4 for a KICK -/
  | desc (channel : Nat)
  | kick (channel : Nat)
  /-- a peer's consumer index, for a waiting notice -/
  | consumer (item : Nat)
  deriving DecidableEq, Repr

/-- An outstanding read, keyed `port * 2^14 + tag` (R448). -/
structure ReadRec where
  fn : Nat
  part : Nat
  addr : Nat
  len : Nat
  use : ReadFor
  /-- TIME of issue -/
  since : Nat
  /-- the function was reset: the completion is absorbed (R456) -/
  absorbed : Bool
  /-- the pacing line the request fills: its channel, and the item and burst it belongs to (R361, R362) -/
  line : Option (Nat × Nat)
  deriving DecidableEq, Repr

/-- A quarantined tag (R450). -/
structure QuarRec where
  fn : Nat
  flr : Bool
  deriving DecidableEq, Repr

/-- A write-back stream of one RID (R439). -/
structure WbStream where
  fn : Nat
  peer : Nat
  obj : Nat
  tile : Nat
  len : Nat
  next : Nat
  deriving DecidableEq, Repr

/-- A notice outstanding at a peer with a write-back awaited (R77, R439). -/
structure Awaited where
  part : Nat
  peer : Nat
  obj : Nat
  tile : Nat
  seq : Nat
  /-- location reserved in Meadow (R440) -/
  place : Nat
  bytes : Nat
  deriving DecidableEq, Repr

/-- A cached ATS translation (R445). -/
structure AtsEnt where
  fn : Nat
  page : Nat
  size : Nat
  target : Nat
  write : Bool
  deriving DecidableEq, Repr

/-- An invalidation not yet completed (R446): the keys of the reads that used the dropped translations and have not retired. -/
structure Inval where
  fn : Nat
  page : Nat
  keys : List Nat
  deriving DecidableEq, Repr

/-- The state of the host and peer links that no register holds. -/
structure HostState where
  numVfs : Nat
  /-- Bus Master Enable of the port functions -/
  portBme : Nat
  held : Tab (List Held)
  /-- MSI-X table, keyed `fn * 2048 + vector`: address, data; a listed `unmasked` entry is not masked -/
  msixAddr : Tab Word
  msixData : Tab Nat
  unmasked : Tab Bool
  pba : Tab Bool
  reads : Tab ReadRec
  quar : Tab QuarRec
  /-- write-back streams, keyed by RID -/
  streams : Tab WbStream
  awaited : List Awaited
  /-- a REGISTER command whose probe is outstanding: tag key and time of issue -/
  probe : Option (Nat × Nat)
  ats : List AtsEnt
  invals : List Inval
  /-- page requests outstanding, those that wait for an allocation (function, page), and each function's Outstanding Page
  Request Allocation (R447) -/
  pageReqs : List (Nat × Nat)
  pageWaits : List (Nat × Nat)
  pageAlloc : Tab Nat
  /-- ATS, PRI and Relaxed Ordering enabled, a bit per function -/
  atsOn : Nat
  priOn : Nat
  roOn : Nat
  /-- Max Read Request Size of each function, in bytes; completion-timeout upper figure in µs (R449) -/
  mrrs : Tab Nat
  devTmo : Tab Nat
  /-- IDE streams, keyed `port * 16 + stream`: 1 keyed, 2 Secure, 3 Insecure, 4 Insecure with fresh keys; association
  ranges -/
  ide : Tab Nat
  ideRange : Tab (List (Nat × Nat))
  deriving DecidableEq, Repr

def HostState.initial : HostState :=
  { numVfs := 0, portBme := 0, held := [], msixAddr := [], msixData := [], unmasked := [], pba := [], reads := []
    quar := [], streams := [], awaited := [], probe := none, ats := [], invals := [], pageReqs := [], pageWaits := [], pageAlloc := [], atsOn := 0, priOn := 0, roOn := 0
    mrrs := [], devTmo := [], ide := [], ideRange := [] }

/-- A Carrier channel's state that no register holds (chapter 10). Items are named by their numbers. -/
structure ChanRec where
  active : Option Nat
  parked : List Nat
  queue : List Nat
  /-- descriptors of the chain not ended, in chain order -/
  chain : List Nat
  /-- word 4 of the last descriptor read: where the next one lies -/
  next : Nat
  /-- a descriptor is to be read -/
  reading : Bool
  /-- the descriptor at which the channel halted: its address form and its words -/
  halted : Option (Nat × List Nat)
  /-- records that wait for their ring or for an earlier descriptor's record, in chain order -/
  recs : List CplRec
  /-- HEAD has been written since the last START (R374) -/
  headNew : Bool
  /-- what is to be read is word 4 of the descriptor at CUR (R358) -/
  kickRead : Bool
  deriving DecidableEq, Repr

def ChanRec.idle : ChanRec :=
  { active := none, parked := [], queue := [], chain := [], next := 0, reading := false, halted := none, recs := []
    headNew := false, kickRead := false }

/-- A ring's state that no register holds: records since the last message, and whether one waits for COAL_US. -/
structure RingRec where
  since : Nat
  deriving DecidableEq, Repr

def RingRec.idle : RingRec := { since := 0 }

/-- A notice ring of a peer: entries written and the consumer index last read (Table 2-10). -/
structure NoticeRing where
  prod : Nat
  cons : Nat
  seq : Nat
  deriving DecidableEq, Repr

def NoticeRing.empty : NoticeRing := { prod := 0, cons := 0, seq := 0 }

/-- A group of a walk (R410): the delivery of the state of step `lo` and the notice of `lo` to `hi`; `stride` is the
notice's EMIT_STRIDE, 0 for EMIT_ALL; `level` is the level of the walk the group belongs to. -/
structure WalkGroup where
  lo : Nat
  hi : Nat
  stride : Nat
  level : Nat
  deriving DecidableEq, Repr

/-- A lattice walk in progress (R407 to R413): the pseudocode of R72 between two groups. -/
structure WalkRec where
  /-- the 8 words of the block as read -/
  block : List Nat
  /-- object index and peer of each entry, and its descriptor -/
  entries : List (Nat × Nat)
  descs : List Beat
  /-- STRIDE and FORWARD of levels 1, 2, ..., and STEP_NS of level 1, as the walk found them -/
  levels : List (Nat × Bool)
  stepNs : Nat
  /-- walks still to run, `(lo, hi, k)`, first first -/
  calls : List (Nat × Nat × Nat)
  /-- the next or present group, and whether its items have been issued -/
  group : Option WalkGroup
  issued : Bool
  /-- every delivery of the group has ended OK: its notices are being written -/
  noticing : Bool
  /-- items of the group in progress that have not ended: its deliveries, then its notices -/
  items : List Nat
  /-- segments written so far -/
  written : Nat
  /-- an item of the group has ended with a status other than OK -/
  failed : Bool
  /-- one has ended POISONED -/
  lost : Bool
  deriving DecidableEq, Repr

/-- A stream's state that no register holds: items in progress and, for a prefetch, the tile reached in the entry. -/
structure StreamRec where
  items : List Nat
  tile : Nat
  fired : Nat
  deriving DecidableEq, Repr

def StreamRec.idle : StreamRec := { items := [], tile := 0, fired := 0 }

/-- A MIGRATE command in progress: the first granule and their number, and how many failed for quota and otherwise
(R300). -/
structure MigRec where
  quota : Nat
  other : Nat
  deriving DecidableEq, Repr

/-- The SPDM responder's and the DOE mailbox's state (R464, R466, R533, R536). -/
structure Spdm where
  /-- an Alias key was derived at this boot -/
  aliasKey : Bool
  /-- what the requester has negotiated: 0 nothing, 1 the version, 2 the capabilities, 3 the algorithms -/
  phase : Nat
  /-- a KEY_EXCHANGE waits for its FINISH -/
  handshake : Bool
  /-- a secure session is open -/
  session : Bool
  /-- the DOE mailbox's Error bit (R464) -/
  doeError : Bool
  deriving DecidableEq, Repr

def Spdm.initial : Spdm := { aliasKey := false, phase := 0, handshake := false, session := false, doeError := false }

/-- A response of the DOE mailbox: what it says, its encoding left to the SPDM and PCIe specifications. -/
inductive DoeRsp where
  /-- SPDM responses; `certificate` and `digests` are of slot 0 -/
  | version
  | capabilities
  | algorithms
  | digests
  | certificate
  | challengeAuth
  /-- measurement blocks, index and content, signed or not -/
  | measurements (signed : Bool) (blocks : List (Nat × List Byte))
  | keyExchange
  | finish
  | heartbeatAck
  | keyUpdateAck
  | endSessionAck
  /-- ERROR of code Unspecified (R536) -/
  | errorUnspecified
  /-- ERROR for a request that breaks the protocol -/
  | errorProtocol
  /-- DOE Discovery: the index asked for, the protocol type, the next index -/
  | discovery (index typ next : Nat)
  /-- IDE_KM responses: key programming acknowledged or refused, K_SET_GO acknowledged -/
  | keyProgAck (port stream : Nat) (ok : Bool)
  | setGoAck (port stream : Nat)
  deriving DecidableEq, Repr

end Sys2Proof.Machine
end

