-- ==== Sys2Proof/Machine/TypesMem.lean ====
section
/-! DEFINITION. Data of memory, translation and the last-level cache (chapters 8, 9 and 17). Plain data only. -/

namespace Sys2Proof.Machine

/-- A page entry of the walk's level 3 (Table 8-3). -/
structure PageEnt where
  write : Bool
  nomove : Bool
  records : Bool
  code : Bool
  /-- 0: none; s + 1: a window page of stream s -/
  stream : Nat
  tier : Nat
  diePolicy : Nat
  fixedDie : Nat
  hint : Nat
  plan : Bool
  /-- pinned in every die's translation cache (R288) -/
  pinned : Bool
  deriving DecidableEq, Repr

/-- A granule sub-entry (Table 8-3). -/
structure Granule where
  home : Home
  zero : Bool
  migrating : Bool
  lost : Bool
  /-- location ÷ 65,536: a DPA, a Heath offset, or the Moor block number ÷ 16 -/
  unit : Nat
  target : Nat
  deriving DecidableEq, Repr

/-- What an allocated run of physical bytes holds (the owner map's kinds, Table 17-1). -/
inductive OwnKind where
  | tile (obj tile : Nat)
  | granule (va : Nat)
  deriving DecidableEq, Repr

/-- An allocated run of physical bytes, keyed by its first byte. -/
structure Extent where
  part : Nat
  len : Nat
  kind : OwnKind
  deriving DecidableEq, Repr

/-- Why a range waits to be zeroed: freed in operation (R284), freed by a partition reset or fatal quench (R526), or not
yet zeroed since start-up (R595). -/
inductive ZeroWhy where
  | normal | reset | boot
  deriving DecidableEq, Repr

/-- A freed range that U3 work has not zeroed yet (R284, R684). -/
structure ZeroRange where
  key : Nat
  len : Nat
  part : Nat
  why : ZeroWhy
  deriving DecidableEq, Repr

/-- A sector of the cache (Table 9-1). While it is dirty, `stale` is what the home still holds. -/
structure Sector where
  valid : Bool
  dirty : Bool
  mask : Nat
  poison : Bool
  stale : List Byte
  deriving DecidableEq, Repr

/-- An INVALID sector. -/
def Sector.invalid : Sector := { valid := false, dirty := false, mask := 0, poison := false, stale := [] }

/-- A line of a slice (R325). -/
structure Line where
  tag : Nat
  part : Nat
  /-- four sectors -/
  sectors : List Sector
  deriving DecidableEq, Repr

/-- A lease instance (R516, R517). -/
structure Lease where
  /-- 0 FREE, 1 HELD, 2 REVOKING -/
  state : Nat
  holder : Nat
  epoch : Nat
  deriving DecidableEq, Repr

/-- A lease nobody has ever held. -/
def Lease.free : Lease := { state := 0, holder := 0, epoch := 0 }

/-- The last status a movement met: the device's error state that no register holds. -/
structure ErrState where
  /-- a device cause has stopped all issue and intake (R630 step 4) -/
  deviceStop : Bool
  /-- retired 4 KiB pages, keyed by DPA ÷ 4,096, with the stack they count against -/
  retired : Tab Nat
  /-- retirement list of each stack, oldest first (R622) -/
  retireList : Tab (List Nat)
  /-- weak pages of each stack (R612) -/
  weak : Tab (List Nat)
  /-- sectors corrected in the present pass and in the previous pass, of each stack (R612) -/
  fixedNow : Tab (List Nat)
  fixedLast : Tab (List Nat)
  /-- the post dies whose link is lost -/
  postDown : Nat
  /-- ways of slices retired, a mask per `die * 32768 + set` (R349) -/
  ways : Tab Nat
  deriving DecidableEq, Repr

def ErrState.none : ErrState :=
  { deviceStop := false, retired := [], retireList := [], weak := [], fixedNow := [], fixedLast := [], postDown := 0
    ways := [] }

end Sys2Proof.Machine
end

