-- ==== Sys2Proof/Machine/State.lean ====
section
/-! DEFINITION. The state of the block, as plain data. -/

namespace Sys2Proof.Machine

/-- The three parts this manual describes (R1). -/
inductive Variant where
  | a | n | l
  deriving DecidableEq, Repr

/-- A message that leaves the device. -/
inductive Msg where
  /-- response of Frank on a channel of the P0-Frank link (R551) -/
  | frankResp (code result seq : Nat) (payload : List Byte)
  /-- a TALLY frame of the tally engine on the link (R548) -/
  | tallyFrame (bytes : List Byte)
  /-- bytes returned on Frank's I3C port -/
  | i3cData (bytes : List Byte)
  /-- Frank's in-band interrupt with its data byte (R562) -/
  | i3cIbi (data : Nat)
  /-- one impulse of FRK_PULSE_L (R545) -/
  | pulse
  /-- a posted write on an x16 port, with its function and Relaxed Ordering -/
  | tlpWrite (port fn addr : Nat) (data : List Byte) (ro : Bool)
  /-- a read request on an x16 port -/
  | tlpRead (port fn tag addr len : Nat)
  /-- an MSI-X message (R429) -/
  | msix (fn vector : Nat)
  /-- the completion of a read of a BAR or register -/
  | readData (fn : Nat) (data : List Byte)
  /-- Completer Abort or Unsupported Request on a BAR access (Table 8-5, R634) -/
  | completerAbort (fn : Nat)
  | unsupported (fn : Nat)
  /-- ATS and PRI messages (R445 to R447) -/
  | atsRequest (fn page : Nat)
  | pageRequest (fn page : Nat)
  | invalDone (fn page : Nat)
  /-- an AER report (Table 17-8) -/
  | aer (fn : Nat) (kind : Nat)
  /-- a PLDM event on the management port (R630) -/
  | pldmEvent (cause : Nat)
  /-- a Courier datagram on an Ethernet port -/
  | packet (port : Nat) (w : Wire) (bytes : List Byte)
  /-- on an Ethernet port: an NVMe read or write, a Write Zeroes, RDMA READ response data, a message of the fabric or admin
  queue (1 Connect, 2 Disconnect, 3 Keep Alive, 4 Abort) -/
  | nvmeCommand (port cmd : Nat) (write : Bool) (lba count : Nat)
  | nvmeZeroes (port lba count : Nat)
  | rdmaData (port cmd : Nat) (data : List Byte)
  | nvmeFabric (port set kind : Nat)
  /-- a CNP sent for a set's queue pair (R477) -/
  | cnp (port set : Nat)
  /-- a Delay_Req of the ordinary clock (R503) -/
  | delayReq (port : Nat)
  /-- a response of the PF's DOE mailbox (R464, R533) -/
  | doe (r : DoeRsp)
  deriving DecidableEq, Repr

/-- Why the machine stops with a fault. No meaning of this block raises one: every error the spec describes is an
effect on the state. -/
inductive Fault where
  /-- the state breaks an invariant every step keeps; raised by nothing (safe) -/
  | brokenState
  deriving DecidableEq, Repr

/-- Why a command is refused. -/
inductive Refusal where
  /-- the command has no meaning yet (safe) -/
  | notModelled (mnemonic : String)
  deriving DecidableEq, Repr

/-- The state of the block. -/
structure State where
  /-- the commands that wait, first in first out -/
  pending : List Instr
  /-- TIME in ns (R504) -/
  time : Nat
  /-- the model's own counter that numbers free values -/
  free : Nat
  /-- the model's own record of what left the device, oldest first -/
  out : List Msg
  variant : Variant
  /-- the register file; an unlisted register holds its cold reset value -/
  regs : Tab Word
  /-- exact occupancy in bytes, keyed `3 p + tier` (R110) -/
  occ : Tab Nat
  frank : Frank
  tally : Tally
  boot : Boot
  pins : Pins
  /-- the last record the MC read, for the shares of R570 -/
  mcRecord : Option FrankRecord
  /-- consecutive samples with a reading over a trip limit (R667) -/
  overRun : Nat
  /-- OVER_TJ holds (R663, R664) -/
  overTj : Bool
  /-- g, t and p registers, keyed `32 core + r`, `16 core + r`, `8 core + r` (R127) -/
  gregs : Tab Word
  tregs : Tab Beat
  pregs : Tab Bool
  /-- scratch, keyed `262144 core + local address` (R133) -/
  scratch : Tab Byte
  cores : Tab CoreRec
  /-- work items, keyed by their number -/
  items : Tab Item
  nextItem : Nat
  plans : Tab PlanState
  /-- tile records, keyed as `tileKey` says -/
  tiles : Tab TileRec
  /-- bytes of Meadow, Heath and Moor as an agent reads them, keyed by location (log entry 9) -/
  mem : Tab Byte
  /-- 32-byte sectors of the tiers that hold the poison marker, keyed by location ÷ 32 (R607) -/
  poison : Tab Bool
  /-- lines of the four slices, keyed `(die * 32768 + set) * 16 + way` (R325) -/
  llc : Tab Line
  /-- the tree bits of each set, keyed `die * 32768 + set` (R330) -/
  plru : Tab Nat
  /-- Meadow granules of pinned ranges, keyed by DPA ÷ 65,536, and their ranges per partition (R339) -/
  pinUnits : Tab Nat
  pinRanges : Tab (List (Nat × Nat))
  /-- page entries, keyed `p * 2^36 + va / 2^21`; granule sub-entries, keyed `p * 2^41 + va / 2^16` -/
  pages : Tab PageEnt
  granules : Tab Granule
  /-- allocated runs and freed ranges not yet zeroed -/
  space : Tab Extent
  zeroQ : List ZeroRange
  /-- values of the 4,096 sync objects (R387) -/
  sos : Tab Word
  /-- leases, keyed `kind * 4096 + index` (Table 14-5) -/
  leases : Tab Lease
  err : ErrState
  host : HostState
  chans : Tab ChanRec
  rings : Tab RingRec
  notices : Tab NoticeRing
  walks : Tab WalkRec
  streams : Tab StreamRec
  /-- MIGRATE commands in progress, keyed by the DTU command set (R300) -/
  migs : Tab MigRec
  eth : EthState
  /-- frames that wait for a paused priority, keyed `8 port + priority`, oldest first (R474) -/
  txq : Tab (List Msg)
  /-- range writes that wait for revocations, keyed by lease kind: partition, new register value (R523) -/
  rangeWr : Tab (Nat × Nat)
  /-- a watermark demotion run is on, keyed `3 p + tier` (R307) -/
  demoting : Tab Bool
  /-- admissions of each partition since the cold reset (R534) -/
  admits : Tab Nat
  /-- requests served at each Carrier channel, and at the engine contexts under key 256 (R403) -/
  slots : Tab Nat
  spdm : Spdm
  deriving DecidableEq, Repr

/-- Frank before its first power-up. -/
def Frank.initial : Frank :=
  { powered := false, energy := 0, remainder := 0, totals := [], tenants := [], session := 0, uptime := 0, nextSeq := 0
    tallyE := 0, audit := 0, ignored := 0, utc := 0, utcAge := 0, flags := 0, lastFlags := 0, sessionFlags := 0
    gap := false, msEnergy := 0, msCount := 0, log := [], ring := [], bankA := none, bankB := none, lastWrite := none
    pulses := 0, pulsed := 0, powerFail := false, pointer := 0, recordSel := 0, logSel := 0, dynAddr := none
    ibi := false }

/-- The tally engine after its own reset (R548). -/
def Tally.initial : Tally :=
  { powered := true, deltas := [], ticks := 0, unacked := none, nextSeq := 0, syncNext := true }

/-- The boot flash with nothing in it, and no image running. -/
def Boot.initial : Boot :=
  { bank0 := none, bank1 := none, slotA := none, slotB := none, running := none, fromSlot := none, minSvn := 0
    secret := true, sites := 0, startDies := 0, moorSeen := 0, inUse := [], escalate := false }

/-- Every land at its idle level, PWROK low; straps at their pulls (Table 16-1). -/
def Pins.initial : Pins :=
  { pwrok := false, pwrfailLow := false, pwrbrkLow := false, hostPerstLow := true, straps := 0x8C0, testmode := false
    frkAddr := 0, devReady := false, devFaultLow := false, thermAlertLow := false, thermTripLow := false
    perstLow := 0, held := true }

/-- The machine right after reset. -/
def State.reset : State :=
  { pending := [], time := 0, free := 0, out := [], variant := .a, regs := [], occ := [], frank := Frank.initial
    tally := Tally.initial, boot := Boot.initial, pins := Pins.initial, mcRecord := none, overRun := 0, overTj := false
    gregs := [], tregs := [], pregs := [], scratch := [], cores := [], items := [], nextItem := 0, plans := [], tiles := []
    mem := [], poison := [], llc := [], plru := [], pinUnits := [], pinRanges := [], pages := [], granules := []
    space := [], zeroQ := [], sos := [], leases := [], err := ErrState.none, host := HostState.initial, chans := []
    rings := [], notices := [], walks := [], streams := [], migs := []
    eth := EthState.initial, txq := [], rangeWr := [], demoting := [], admits := [], slots := []
    spdm := Spdm.initial }

end Sys2Proof.Machine
end

