-- ==== Sys2Proof/Machine/Operands.lean ====
section
/-! DEFINITION. Register operands: fields of a word, and the register file's reads and writes by register, instance and
field. Every register has its one home here. -/

namespace Sys2Proof.Machine

/-- The value of a field in its register's word. -/
def Fld.get (f : Fld) (w : Word) : Nat := w.toNat / 2 ^ f.lo % 2 ^ f.width

/-- The word with the field set to `v` (the low `width` bits of it). -/
def Fld.put (f : Fld) (w : Word) (v : Nat) : Word :=
  (w &&& ~~~ (BitVec.ofNat 64 (2 ^ f.width - 1) <<< f.lo)) ||| (BitVec.ofNat 64 (v % 2 ^ f.width) <<< f.lo)

/-- The description of a register. -/
def regSpec (r : Reg) : RegSpec := regTable.getD r.idx ⟨r, .device 0, []⟩

/-- The word in which each field holds the number `sel` gives it. -/
def wordOf (sel : FldSpec → Nat) (fs : List FldSpec) : Word :=
  BitVec.ofNat 64 (fs.foldl (fun a f => a + sel f * 2 ^ f.fld.lo) 0)

/-- The cold reset value of a register (R14). -/
def Reg.cold (r : Reg) : Word := wordOf FldSpec.cold (regSpec r).fields

/-- Where instance `i` of a register stands in the register file. -/
def Reg.key (r : Reg) (i : Nat) : Nat := r.idx * 131072 + i

/-- The value of instance `i` of a register. -/
def State.reg (s : State) (r : Reg) (i : Nat) : Word := Tab.get r.cold s.regs (r.key i)

/-- Write instance `i` of a register whole. -/
def State.setReg (s : State) (r : Reg) (i : Nat) (w : Word) : State :=
  { s with regs := Tab.set r.cold s.regs (r.key i) w }

/-- Read a field of instance `i`. -/
def State.rd (s : State) (f : Fld) (i : Nat) : Nat := f.get (s.reg f.reg i)

/-- Read a one-bit field. -/
def State.rdb (s : State) (f : Fld) (i : Nat) : Bool := s.rd f i != 0

/-- Write a field of instance `i` (the device's own write, whatever the access code). -/
def State.wr (s : State) (f : Fld) (i : Nat) (v : Nat) : State :=
  s.setReg f.reg i (f.put (s.reg f.reg i) v)

/-- Write a one-bit field. -/
def State.wrb (s : State) (f : Fld) (i : Nat) (v : Bool) : State := s.wr f i (b2n v)

end Sys2Proof.Machine
end

