-- ==== Sys2Proof/Machine/Flags.lean ====
section
/-! DEFINITION. Status bits and counters (R11, R682): events that set a bit, counters that saturate or wrap. -/

namespace Sys2Proof.Machine

/-- Set a one-bit field: the event of a W1C, W1S or RSTK bit (R11). -/
def State.flag (s : State) (f : Fld) (i : Nat) : State := s.wr f i 1

/-- Add to a counter field that saturates (R682). -/
def State.sat (s : State) (f : Fld) (i n : Nat) : State := s.wr f i (satAdd f.width (s.rd f i) n)

/-- Add to a counter field that wraps (R682). -/
def State.bump (s : State) (f : Fld) (i n : Nat) : State := s.wr f i (s.rd f i + n)

end Sys2Proof.Machine
end

