-- ==== Sys2Proof/Machine/Ops.lean ====
section
/-! DEFINITION. The named operations every meaning uses: resets of registers, free values, messages out, facts of the variant. -/

namespace Sys2Proof.Machine

/-- The outcome of every meaning that goes on. -/
abbrev Res := Host.Outcome State Fault Refusal

/-- Append a message to what left the device. -/
def State.emit (s : State) (m : Msg) : State := { s with out := s.out ++ [m] }

/-- Take the next free 64-bit value (log entry 3). -/
def State.freeWord (s : State) : Word × State := (Config.freeWord s.free, { s with free := s.free + 1 })

/-- What a register's fields become at a reset: a field without a value for the kind keeps its own (R14). -/
def resetWord (k : ResetKind) (fs : List FldSpec) (w : Word) : Word :=
  wordOf (fun f => match k with
    | .cold => f.cold
    | .warm => f.warm.getD (f.fld.get w)
    | .part => f.part.getD (f.fld.get w)) fs

/-- The register file after a cold or warm reset of the device (R600). FRK_TALLY_STATUS follows the tally engine, which
no reset touches (R548). -/
def resetRegs (k : ResetKind) (t : Tab Word) : Tab Word :=
  Tab.mapVals (fun j => Reg.cold ⟨j / 131072⟩)
    (fun j w => if j / 131072 = Reg.FRK_TALLY_STATUS.idx then w else resetWord k (regSpec ⟨j / 131072⟩).fields w) t

/-- Reset one instance of a register by a partition reset (R14). -/
def State.partReg (s : State) (r : Reg) (i : Nat) : State :=
  s.setReg r i (resetWord .part (regSpec r).fields (s.reg r i))

/-- Do something only while the dies other than Frank are out of reset (R574). -/
def State.live (s : State) (f : State → State) : State := if s.pins.held then s else f s

/-- TDP of the part in watts (R24). -/
def Variant.tdp : Variant → Nat
  | .a => 640
  | .n => 610
  | .l => 560

/-- SYS_TOPOLOGY.POST_PRESENT (Table 1-8). -/
def Variant.posts : Variant → Nat
  | .a => 0x7
  | .n => 0xF
  | .l => 0x3

/-- SYS_TOPOLOGY.HBM_SITE_POP (Table 1-8). -/
def Variant.sites : Variant → Nat
  | .n => 0x5F
  | _ => 0xFF

/-- SYS_TOPOLOGY.VARIANT (Table 1-8). -/
def Variant.code : Variant → Nat
  | .a => 1
  | .n => 2
  | .l => 3

/-- The x16 ports, and as many Ethernet ports, of the part: two to each Post die (R24). -/
def Variant.ports : Variant → Nat
  | .a => 6
  | .n => 8
  | .l => 4

end Sys2Proof.Machine
end

