-- ==== Sys2Proof/Machine/FrankOps.lean ====
section
/-! DEFINITION. Frank and the tally engine, the operations their commands share (chapter 15): the audit log, records and
their bytes, MRAM banks, TALLY frames, the MC mailbox, the energy shares. -/

namespace Sys2Proof.Machine

/-- FLAGS bits of Table 15-9. -/
def flagBelow60 : Nat := 0x001
def flagOverRange : Nat := 0x002
def flagOutsideRef : Nat := 0x004
def flagUnclean : Nat := 0x008
def flagDefaults : Nat := 0x010
def flagTallyDown : Nat := 0x020
def flagSelfcheck : Nat := 0x040
def flagClockFault : Nat := 0x080
def flagLateRead : Nat := 0x100
def flagMeterFail : Nat := 0x200

/-- An audit event: AUDIT rises by 1 and a log entry is written; the log keeps the 64 latest (R560, R561). -/
def Frank.event (f : Frank) (code : Nat) : Frank :=
  let a := satAdd 32 f.audit 1
  let l := f.log ++ [⟨code, a, f.nextSeq, f.uptime⟩]
  { f with audit := a, log := l.drop (l.length - 64) }

/-- Set a flag of the running second. -/
def Frank.setFlag (f : Frank) (b : Nat) : Frank := { f with flags := f.flags ||| b }

/-- Set a flag whose first second of a run is an audit event (Table 15-10, codes 0x07 to 0x09). -/
def Frank.runFlag (f : Frank) (b code : Nat) : Frank :=
  if f.flags &&& b ≠ 0 ∨ f.lastFlags &&& b ≠ 0 then f.setFlag b else (f.setFlag b).event code

/-- METER_FAIL holds for the session (R541). -/
def Frank.meterFail (f : Frank) : Bool := f.sessionFlags &&& flagMeterFail != 0

/-- A frame that meets no effect is counted in IGNORED (R553). -/
def Frank.ignore (f : Frank) : Frank := { f with ignored := satAdd 32 f.ignored 1 }

/-- Energy of one interval, in units of 2^-32 mJ, into the accumulator; each crossing of a multiple of 36,000 mJ queues
an impulse (R543, R545). After METER_FAIL nothing accumulates and no impulse is emitted. -/
def Frank.addEnergy (f : Frank) (e : Nat) : Frank :=
  if f.meterFail then f else
    let t := f.remainder + e
    let n := f.energy + t / 2 ^ 32
    { f with energy := low 64 n, remainder := t % 2 ^ 32, pulses := f.pulses + (n / 36000 - f.energy / 36000) }

/-- The running millisecond's energy; at its 16th interval the 1 ms mean is held against 60 W and 900 W (R544, R557). -/
def Frank.addMs (f : Frank) (e : Nat) : Frank :=
  let t := f.msEnergy + e
  if f.msCount + 1 < 16 then { f with msEnergy := t, msCount := f.msCount + 1 } else
    let f := { f with msEnergy := 0, msCount := 0 }
    let f := if t < 60 * 2 ^ 32 then f.setFlag flagBelow60 else f
    if 900 * 2 ^ 32 < t then f.runFlag flagOverRange 0x09 else f

/-- One 62.5 us interval (R543, R544): the energy of its ten products; `refOk`: the reference conditions hold; `selfOk`: the
voltage channels agree with the reference channel. -/
def Frank.interval (f : Frank) (rails : List Nat) (refOk selfOk : Bool) : Frank :=
  let e := rails.foldl (· + ·) 0
  let f := (f.addEnergy e).addMs e
  let f := if refOk then f else f.setFlag flagOutsideRef
  if selfOk then f else f.runFlag flagSelfcheck 0x07

/-- A second has passed (R555): UPTIME, the age of the UTC annotation, the clock check. -/
def Frank.second (f : Frank) (clockFault : Bool) : Frank :=
  let f := { f with uptime := low 32 (f.uptime + 1), utcAge := if f.utc = 0 then 0 else low 32 (f.utcAge + 1) }
  if clockFault then f.runFlag flagClockFault 0x08 else f

/-- VDD_FRK is lost (R567): the session ends; `midWrite`: a bank write is not complete, and its bank is invalid. -/
def Frank.lose (f : Frank) (midWrite : Bool) : Frank :=
  let f := { f with powered := false }
  match midWrite, f.lastWrite with
  | true, some true => { f with bankB := f.bankB.map (fun b => { b with valid := false }) }
  | true, some false => { f with bankA := f.bankA.map (fun b => { b with valid := false }) }
  | _, _ => f

/-- One partition block of Table 15-8: TENANT and the eleven quantities. -/
def blockBytes (tenants totals : Tab Nat) (p : Nat) : List Byte :=
  leBytes 8 (Tab.get 0 tenants p) ++
    (List.range 11).flatMap (fun q => leBytes 8 (Tab.get 0 totals (11 * p + q)))

/-- Bytes 0 to 3,135 of a record (R556). -/
def FrankRecord.body (r : FrankRecord) : List Byte :=
  leBytes 4 0x524B5246 ++ leBytes 2 1 ++ leBytes 2 32 ++ leBytes 4 r.seq ++ leBytes 4 r.audit ++
    leBytes 8 r.session ++ leBytes 4 r.uptime ++ leBytes 4 r.ignored ++ leBytes 8 r.energy ++ leBytes 4 r.flags ++
    leBytes 4 r.tallyE ++ leBytes 8 r.utc ++ leBytes 4 r.utcAge ++ leBytes 4 0 ++
    (List.range 32).flatMap (blockBytes r.tenants r.totals)

/-- The whole record of 3,232 bytes: the body and the signature, r and s big-endian (R558). -/
def FrankRecord.bytes (r : FrankRecord) : List Byte :=
  r.body ++ beBytes 96 (Config.frankSign r.body).toNat

/-- The record the ring holds under a SEQ. -/
def Frank.record? (f : Frank) (seq : Nat) : Option FrankRecord := f.ring.find? (fun r => r.seq == seq)

/-- Mark a record of the ring as read (R559). -/
def Frank.markRead (f : Frank) (seq : Nat) : Frank :=
  { f with ring := f.ring.map (fun r => if r.seq = seq then { r with read := true } else r) }

/-- A snapshot of totals and annotations, under the next SEQ (R555, R556). -/
def Frank.snapshot (f : Frank) : FrankRecord :=
  { seq := f.nextSeq, audit := f.audit, session := f.session, uptime := f.uptime, ignored := f.ignored
    energy := f.energy
    flags := f.flags ||| f.sessionFlags ||| (if f.gap then flagTallyDown else 0)
    tallyE := f.tallyE, utc := f.utc, utcAge := f.utcAge, tenants := f.tenants, totals := f.totals, read := false }

/-- Issue a record: it enters the ring, and a record it drops unread sets LATE_READ in the next (R557, R559). -/
def Frank.issue (f : Frank) : Frank :=
  let r := f.snapshot
  let late := match f.ring with
    | o :: _ => decide (16 ≤ f.ring.length) && !o.read
    | [] => false
  let g := f.ring ++ [r]
  { f with ring := g.drop (g.length - 16), nextSeq := low 32 (f.nextSeq + 1), lastFlags := r.flags
           flags := if late then flagLateRead else 0 }

/-- The bank record of the present totals (R565). -/
def Frank.bankRecord (f : Frank) (cause sequence : Nat) : FrankBank :=
  { valid := true, sequence := sequence, cause := cause, nextSeq := f.nextSeq, audit := f.audit, ignored := f.ignored
    energy := f.energy, remainder := f.remainder, tallyE := f.tallyE, tenants := f.tenants, totals := f.totals
    log := f.log }

/-- A bank's record where it is valid. -/
def validBank : Option FrankBank → Option FrankBank
  | some b => if b.valid then some b else none
  | none => none

/-- The valid bank with the higher SEQUENCE, and whether it is bank B (R566). -/
def Frank.newest (f : Frank) : Option (Bool × FrankBank) :=
  match validBank f.bankA, validBank f.bankB with
  | some a, some b => if a.sequence < b.sequence then some (true, b) else some (false, a)
  | some a, none => some (false, a)
  | none, some b => some (true, b)
  | none, none => none

/-- Write the totals to the bank that does not hold the newest valid record, SEQUENCE one more than the last (R565,
R567). -/
def Frank.writeBank (f : Frank) (cause : Nat) : Frank :=
  match f.newest with
  | some (true, b) => { f with bankA := some (f.bankRecord cause (low 32 (b.sequence + 1))), lastWrite := some false }
  | some (false, a) => { f with bankB := some (f.bankRecord cause (low 32 (a.sequence + 1))), lastWrite := some true }
  | none => { f with bankA := some (f.bankRecord cause 1), lastWrite := some false }

/-- The totals a bank persists, taken back at power-up (R566). -/
def Frank.restore (f : Frank) (b : FrankBank) : Frank :=
  { f with audit := b.audit, ignored := b.ignored, energy := b.energy, remainder := b.remainder, tallyE := b.tallyE
           tenants := b.tenants, totals := b.totals, log := b.log }

/-- Power-up: banks chosen, session drawn, first SEQ set, events logged (R541, R566). The events of one power-up are
logged in the order POWER_UP, UNCLEAN_LOSS or DEFAULTS, BANK_INVALID, METER_FAIL (log entry 6). -/
def Frank.powerUp (f : Frank) (session : Nat) (calOk : Bool) : Frank :=
  let base := { Frank.initial with bankA := f.bankA, bankB := f.bankB, powered := true, session := session }
  let oneBad := (validBank f.bankA).isSome != (validBank f.bankB).isSome
  let g := match f.newest with
    | some (_, b) =>
      let g := base.restore b
      if b.cause = 2 then ({ g with nextSeq := b.nextSeq } : Frank).event 0x01
      else (({ g with nextSeq := low 32 (b.nextSeq + 64), sessionFlags := flagUnclean } : Frank).event 0x01).event 0x02
    | none => (({ base with sessionFlags := flagDefaults } : Frank).event 0x01).event 0x04
  let g := if oneBad then g.event 0x03 else g
  if calOk then g else ({ g with sessionFlags := g.sessionFlags ||| flagMeterFail } : Frank).event 0x0B

/-- A log entry's 16 bytes (R561). -/
def AuditEntry.bytes (e : AuditEntry) : List Byte :=
  leBytes 1 e.code ++ leBytes 3 0 ++ leBytes 4 e.audit ++ leBytes 4 e.seq ++ leBytes 4 e.uptime

/-- Log entry `i`, oldest first (log entry 7); 16 zero bytes where the log holds none. -/
def Frank.logBytes (f : Frank) (i : Nat) : List Byte :=
  match f.log[i]? with
  | some e => e.bytes
  | none => List.replicate 16 0

/-- The status item: latest SEQ, oldest SEQ, FLAGS of the latest record, AUDIT (Table 15-11). -/
def Frank.statusBytes (f : Frank) : List Byte :=
  let n := (f.ring.getLast?.map FrankRecord.seq).getD 0
  let o := (f.ring.head?.map FrankRecord.seq).getD 0
  leBytes 4 n ++ leBytes 4 o ++ leBytes 4 ((f.ring.getLast?.map FrankRecord.flags).getD 0) ++ leBytes 4 f.audit

/-- The identity item: "FRKI", FORMAT 1, reserved, serial number (Table 15-11). -/
def frankIdentity : List Byte := leBytes 4 0x494B5246 ++ leBytes 2 1 ++ leBytes 2 0 ++ leBytes 8 Config.frankSerial.toNat

/-- The public key, uncompressed point (R558). -/
def frankKeyBytes : List Byte := beBytes 97 Config.frankKey.toNat

/-- The certificate, zero-padded (Table 15-11). -/
def frankCertBytes : List Byte := beBytes 1024 Config.frankCert.toNat

/-- The byte at an address of the I3C register space (Table 15-11); an address not listed reads 0. -/
def Frank.i3cByte (f : Frank) (a : Nat) : Byte :=
  let pick (l : List Byte) (o : Nat) : Byte := l.getD (a - o) 0
  if a < 0x10 then pick frankIdentity 0
  else if a < 0x20 then pick f.statusBytes 0x10
  else if a < 0x24 then pick (leBytes 4 f.recordSel) 0x20
  else if a = 0x24 then BitVec.ofNat 8 f.logSel
  else if a < 0x30 then 0
  else if a < 0x38 then pick (leBytes 8 f.energy) 0x30
  else if a < 0x100 then 0
  else if a < 0xDA0 then
    match f.record? f.recordSel with
    | some r => pick r.bytes 0x100
    | none => 0
  else if a < 0x1000 then 0
  else if a < 0x1061 then pick frankKeyBytes 0x1000
  else if a < 0x1100 then 0
  else if a < 0x1500 then pick frankCertBytes 0x1100
  else if a < 0x1800 then 0
  else if a < 0x1900 then
    (f.logBytes ((f.logSel + (a - 0x1800) / 16) % 64)).getD ((a - 0x1800) % 16) 0
  else 0

/-- One byte written through the I3C port: only RECORD_SEL and a LOG_SEL up to 63 take it (R564). -/
def Frank.i3cStore (f : Frank) (a : Nat) (b : Byte) : Frank :=
  if 0x20 ≤ a ∧ a < 0x24 then
    { f with recordSel := ofLe (setAt (leBytes 4 f.recordSel) (a - 0x20) b) }
  else if a = 0x24 ∧ b.toNat ≤ 63 then { f with logSel := b.toNat }
  else f

/-- The data bytes of a private write, from the pointer upward. -/
def Frank.i3cStores (f : Frank) (a : Nat) : List Byte → Frank
  | [] => f
  | b :: t => Frank.i3cStores (f.i3cStore a b) (a + 1) t

/-- Delta `q` of partition `p` is added to the tally engine's accumulation (R547, R548). -/
def Tally.add (t : Tally) (p q n : Nat) : Tally :=
  { t with deltas := Tab.set 0 t.deltas (11 * p + q) (low 64 (Tab.get 0 t.deltas (11 * p + q) + n)) }

/-- Count work of a partition at its source (R547); work after the final frame is not counted (R550). `q`: 0 INTAKE_B, 1 DELIVER_B, 2 to 4 IN, 5 to 7 OUT, 8 to 10 TMS of
Meadow, Heath and Moor. -/
def State.count (s : State) (p q n : Nat) : State :=
  if s.tally.powered && !s.rdb F.PWR_PWRFAIL_STATUS_LEVEL 0 then { s with tally := s.tally.add p q n } else s

/-- The occupancy of a partition in a tier, in 64 KiB units rounded up (R110). -/
def State.occUnits (s : State) (p tier : Nat) : Nat := ceilDiv (Tab.get 0 s.occ (3 * p + tier)) 65536

/-- One 1 ms tick: the TMS of every partition and tier, and the tick itself (Table 15-5). -/
def State.tallyTms (s : State) : State :=
  let t := (List.range 96).foldl (fun t k =>
    let n := ceilDiv (Tab.get 0 s.occ k) 65536
    if n = 0 then t else t.add (k / 3) (8 + k % 3) n) s.tally
  { s with tally := { t with ticks := t.ticks + 1 } }

/-- The PRESENT mask of a frame: the partitions that have a delta. -/
def TallyFrame.present (f : TallyFrame) : Nat :=
  (List.range 32).foldl (fun m p => if f.deltas.any (fun e => e.1 / 11 == p) then m + 2 ^ p else m) 0

/-- The frame's bytes: header, TICKS, PRESENT, eleven deltas for each set bit, CRC (R551, Table 15-6). -/
def TallyFrame.bytes (f : TallyFrame) : List Byte :=
  let m := f.present
  let blocks := ((List.range 32).filter (fun p => m.testBit p)).flatMap (fun p =>
    (List.range 11).flatMap (fun q => leBytes 8 (Tab.get 0 f.deltas (11 * p + q))))
  let payload := leBytes 4 f.ticks ++ leBytes 4 m ++ blocks
  let b := leBytes 1 0x01 ++ leBytes 1 (b2n f.sync) ++ leBytes 2 payload.length ++ leBytes 4 f.seq ++ payload
  b ++ leBytes 4 (crc32c b).toNat

/-- Form the next frame from the accumulated deltas where none awaits acknowledgement, and send it while the link is up
(R548). -/
def State.tallySend (s : State) : State :=
  match s.tally.unacked with
  | some _ => s
  | none =>
    let f : TallyFrame := { seq := s.tally.nextSeq, sync := s.tally.syncNext, ticks := min s.tally.ticks 65535
                            deltas := s.tally.deltas }
    let s := { s with tally := { s.tally with unacked := some f, deltas := [], ticks := 0
                                              nextSeq := low 32 (s.tally.nextSeq + 1), syncNext := false } }
    let s := s.wr F.FRK_TALLY_STATUS_UNACKED 0 1
    if s.rdb F.FRK_TALLY_STATUS_LINK_UP 0 then s.emit (.tallyFrame f.bytes) else s

/-- The final frame at a fall of PWRFAIL_L: the accumulation closes at the current tick (R550). Behind a frame that waits for
its acknowledgement, it goes out when that arrives (R548). -/
def State.finalFrame (s : State) : State := if s.tally.powered then s.tallyTms.tallySend else s

/-- The deltas of a frame's payload, added to the totals (R549). -/
def applyDeltas (totals : Tab Nat) (ps : List Nat) (b : List Byte) : Tab Nat :=
  match ps with
  | [] => totals
  | p :: ps =>
    let t := (List.range 11).foldl (fun t q =>
      Tab.set 0 t (11 * p + q) (low 64 (Tab.get 0 t (11 * p + q) + fieldAt b (8 * q) 8))) totals
    applyDeltas t ps (b.drop 88)

/-- A link frame that passes R553's checks on CRC and LENGTH: code, flags, SEQ and payload. -/
def frameParts (b : List Byte) : Option (Nat × Nat × Nat × List Byte) :=
  let len := fieldAt b 2 2
  if b.length = 12 + len ∧ (crc32c (b.take (8 + len))).toNat = fieldAt b (8 + len) 4 then
    some (fieldAt b 0 1, fieldAt b 1 1, fieldAt b 4 4, (b.drop 8).take len)
  else none

/-- The partitions of a PRESENT mask, ascending. -/
def presentList (m : Nat) : List Nat := (List.range 32).filter (fun p => m.testBit p)

/-- What Frank does with a frame on the tally channel (R549, R553): the new Frank and the RESULT it answers. -/
def Frank.tally (f : Frank) (b : List Byte) : Frank × Option Nat :=
  match frameParts b with
  | none => (f.ignore, none)
  | some (code, flags, seq, payload) =>
    let ticks := fieldAt payload 0 4
    let ps := presentList (fieldAt payload 4 4)
    if code ≠ 1 ∨ flags > 1 ∨ payload.length ≠ 8 + 88 * ps.length ∨ ticks = 0 ∨ 65535 < ticks then (f.ignore, none)
    else
      let g := { f with totals := applyDeltas f.totals ps (payload.drop 8), gap := false }
      if flags = 1 then (({ g with tallyE := low 32 (seq + 1) } : Frank).event 0x05, some 0)
      else if seq = f.tallyE then ({ g with tallyE := low 32 (seq + 1) }, some 0)
      else if low 32 (seq + 1) = f.tallyE then (f, some 2)
      else (f.ignore, none)

/-- An acknowledgement reaches the tally engine (R548). -/
def State.tallyAck (s : State) (seq : Nat) : State :=
  match s.tally.unacked with
  | some f =>
    if f.seq = seq then
      (({ s with tally := { s.tally with unacked := none } }).wr F.FRK_TALLY_STATUS_UNACKED 0 0).wr
        F.FRK_TALLY_STATUS_LAST_SEQ 0 seq
    else s
  | none => s

/-- Write bytes into FRK_BUF from its start, 8 to a word. -/
def State.frkBuf (s : State) : Nat → Nat → List Byte → State
  | 0, _, _ => s
  | n + 1, i, b => State.frkBuf (s.setReg Reg.FRK_BUF i (BitVec.ofNat 64 (fieldAt b 0 8))) n (i + 1) (b.drop 8)

/-- End the mailbox command (R569): GO clears as DONE sets. -/
def State.frkEnd (s : State) (result : Nat) (payload : List Byte) : State :=
  let s := s.frkBuf (ceilDiv payload.length 8) 0 payload
  (((s.wr F.FRK_CMD_CTRL_GO 0 0).flag F.FRK_CMD_STATUS_DONE 0).wr F.FRK_CMD_STATUS_RESULT 0 result).wr
    F.FRK_CMD_STATUS_LENGTH 0 payload.length

/-- A mailbox command: FRK_CMD0 and FRK_CMD1 written, GO written. A GO while a command runs sets BUSY_REFUSED; a link
that is down ends it LINK_DOWN; otherwise Frank serves it (`serve` answers RESULT and payload) or ignores it, and then
the command runs on until its timeout (R553, R569). -/
def State.frkCommand (s : State) (op arg8 : Nat) (arg64 : Word)
    (serve : Frank → Frank × Option (Nat × List Byte)) : State :=
  if s.pins.held then s
  else if s.rdb F.FRK_CMD_CTRL_GO 0 then s.flag F.FRK_CMD_STATUS_BUSY_REFUSED 0
  else
    let s := ((s.wr F.FRK_CMD0_OP 0 op).wr F.FRK_CMD0_ARG8 0 arg8).setReg Reg.FRK_CMD1 0 arg64
    let s := s.flag F.FRK_CMD_CTRL_GO 0
    if !s.rdb F.FRK_TALLY_STATUS_LINK_UP 0 then s.frkEnd 2 []
    else
      let (f, r) := serve s.frank
      let s := { s with frank := f }
      match r with
      | some (result, payload) =>
        (s.emit (.frankResp (op + 0x80) result 0 payload)).frkEnd result payload
      | none => s

/-- The sum of a record's quantities `qs` of partition `p`, as the difference from an earlier record. -/
def shareDiff (r o : FrankRecord) (p : Nat) (qs : List Nat) : Nat :=
  qs.foldl (fun a q => a + low 64 (Tab.get 0 r.totals (11 * p + q) + (2 ^ 64 - Tab.get 0 o.totals (11 * p + q)))) 0

/-- The weight of a partition in the shares: B_p + K T_p (R570). -/
def shareWeight (k : Nat) (r o : FrankRecord) (p : Nat) : Nat :=
  shareDiff r o p [0, 1, 2, 3, 4, 5, 6, 7] + k * shareDiff r o p [8, 9, 10]

/-- The informative shares of the energy between two records of one session (R570). -/
def State.shares (s : State) (r o : FrankRecord) : State :=
  let k := s.rd F.FRK_SHARE_K_BYTES 0
  let e := low 64 (r.energy + (2 ^ 64 - o.energy))
  let total := (List.range 32).foldl (fun a p => a + shareWeight k r o p) 0
  if total = 0 then s.bump F.FRK_SHARE_UNASSIGNED_MJ 0 e
  else
    let (s, given) := (List.range 32).foldl (fun (a : State × Nat) p =>
      let x := e * shareWeight k r o p / total
      (a.1.bump F.FRK_SHARE_MJ_MJ p x, a.2 + x)) (s, 0)
    s.bump F.FRK_SHARE_UNASSIGNED_MJ 0 (e - given)

/-- The MC has a record: the shares since the last one it read, if that is an earlier record of the session (R570). -/
def State.noteRecord (s : State) (r : FrankRecord) : State :=
  let s := match s.mcRecord with
    | some o => if o.session = r.session ∧ o.seq < r.seq then s.shares r o else s
    | none => s
  { s with mcRecord := some r }

end Sys2Proof.Machine
end

