-- ==== Sys2Proof/Machine/FrankCmd.lean ====
section
/-! DEFINITION. Meanings of the commands of Frank, the tally engine and the MC mailbox (chapter 15). A command whose event
cannot happen in the state (Frank without power, no frame outstanding) leaves the state as it is (log entry 2). -/

namespace Sys2Proof.Machine

/-- TALLY_TICK (R547, R548): each millisecond the TMS of every partition is added and a frame is sent where none waits.
Nothing is counted after the final frame (R550). -/
def execTallyTick (s : State) : Res :=
  .next (if s.tally.powered && !s.rdb F.PWR_PWRFAIL_STATUS_LEVEL 0 then s.tallyTms.tallySend else s)

/-- TALLY_ACK_TIMEOUT (R548): the identical frame is resent and RETRIES rises. -/
def execTallyAckTimeout (s : State) : Res :=
  .next (match s.tally.unacked with
    | some f =>
      let s := s.sat F.FRK_TALLY_STATUS_RETRIES 0 1
      if s.rdb F.FRK_TALLY_STATUS_LINK_UP 0 then s.emit (.tallyFrame f.bytes) else s
    | none => s)

/-- TALLY (R549, R553): a frame arrives at Frank on the tally channel; an answered frame acknowledges the tally engine's
own. -/
def execTally (frame : List Byte) (s : State) : Res :=
  .next (if s.frank.powered && s.rdb F.FRK_TALLY_STATUS_LINK_UP 0 then
    match s.frank.tally frame with
    | (f, none) => { s with frank := f }
    | (f, some result) =>
      let seq := fieldAt frame 4 4
      let s := (({ s with frank := f }).emit (.frankResp 0x81 result seq [])).tallyAck seq
      if s.rdb F.PWR_PWRFAIL_STATUS_LEVEL 0 && s.tally.ticks != 0 then s.tallySend else s
  else s)

/-- TALLY_GAP (section 15.4, Faults): no frame applied for 10 ms logs TALLY_LINK_DOWN once and marks the second. -/
def execTallyGap (s : State) : Res :=
  .next (if s.frank.powered && !s.frank.gap then
    { s with frank := { (s.frank.event 0x06).setFlag flagTallyDown with gap := true } }
  else s)

/-- BIND (R552, R553): TENANT of a partition, from the next snapshot; a PARTITION above 31 is ignored and counted. -/
def execBind (partition : Nat) (tenant : Word) (s : State) : Res :=
  .next (s.frkCommand 2 partition tenant (fun f =>
    if partition % 256 ≤ 31 then
      ({ f with tenants := Tab.set 0 f.tenants (partition % 256) tenant.toNat }, some (0, []))
    else (f.ignore, none)))

/-- TIMEREF (R552): the UTC annotation, from the next snapshot. -/
def execTimeref (utc : Word) (s : State) : Res :=
  .next (s.frkCommand 3 0 utc (fun f => ({ f with utc := utc.toNat, utcAge := 0 }, some (0, []))))

/-- READ_RECORD (R552, R559, R570): the record and its shares, or NOT_FOUND. -/
def execReadRecord (seq : BitVec 32) (s : State) : Res :=
  let t := s.frkCommand 4 0 (seq.setWidth 64) (fun f =>
    match f.record? seq.toNat with
    | some r => (f.markRead seq.toNat, some (0, r.bytes))
    | none => (f, some (1, [])))
  let served := !s.pins.held && !s.rdb F.FRK_CMD_CTRL_GO 0 && s.rdb F.FRK_TALLY_STATUS_LINK_UP 0
  .next (match s.frank.record? seq.toNat with
    | some r =>
      if served then t.noteRecord r else t
    | none => t)

/-- READ_INFO (R552): status, public key, certificate or identity; a SELECT above 3 is ignored and counted. -/
def execReadInfo (select : BitVec 8) (s : State) : Res :=
  .next (s.frkCommand 5 select.toNat 0 (fun f =>
    match select.toNat with
    | 0 => (f, some (0, f.statusBytes))
    | 1 => (f, some (0, frankKeyBytes))
    | 2 => (f, some (0, frankCertBytes))
    | 3 => (f, some (0, frankIdentity))
    | _ => (f.ignore, none)))

/-- READ_LOG (R552): entries INDEX to min(63, INDEX + 15). An INDEX above 63 does not fit the command and is ignored and
counted. -/
def execReadLog (index : BitVec 8) (s : State) : Res :=
  .next (s.frkCommand 6 index.toNat 0 (fun f =>
    if index.toNat ≤ 63 then
      (f, some (0, ((List.range 16).filter (fun i => index.toNat + i ≤ 63)).flatMap
        (fun i => f.logBytes (index.toNat + i))))
    else (f.ignore, none)))

/-- SAMPLE_INTERVAL (R543, R544): the ten products of one 62.5 us interval, in units of 2^-32 mJ. `refOk`: the reference
conditions hold; `selfOk`: the voltage channels agree with the reference channel. -/
def execSampleInterval (rails : List Nat) (refOk selfOk : Bool) (s : State) : Res :=
  .next (if s.frank.powered then { s with frank := s.frank.interval rails refOk selfOk } else s)

/-- IMPULSE (R545): FRK_PULSE_L emits the next queued impulse; after METER_FAIL none. -/
def execImpulse (s : State) : Res :=
  .next (if s.frank.powered && !s.frank.meterFail && decide (0 < s.frank.pulses) then
    ({ s with frank := { s.frank with pulses := s.frank.pulses - 1, pulsed := s.frank.pulsed + 1 } }).emit .pulse
  else s)

/-- SNAPSHOT (R555 to R559): a second boundary. A record is issued while records are not stopped by PWRFAIL_L. -/
def execSnapshot (clockFault : Bool) (s : State) : Res :=
  .next (if s.frank.powered then
    let f := s.frank.second clockFault
    if f.powerFail then { s with frank := f }
    else
      let s := { s with frank := f.issue }
      if f.ibi then s.emit (.i3cIbi 0xF1) else s
  else s)

/-- PERIODIC_BANK_WRITE (R565): totals to the older bank, CAUSE 1. A record stop by PWRFAIL_L abandons it (Table
15-13). -/
def execPeriodicBankWrite (s : State) : Res :=
  .next (if s.frank.powered && !s.frank.powerFail then { s with frank := s.frank.writeBank 1 } else s)

/-- FRANK_POWER_UP (R541, R566). `calOk`: the calibration CRC check passes. -/
def execFrankPowerUp (calOk : Bool) (s : State) : Res :=
  .next (if s.frank.powered then s
  else { s with frank := s.frank.powerUp (Config.session s.free).toNat calOk, free := s.free + 1 })

/-- FRANK_PWRFAIL_FALL (R567): records stop, and a snapshot goes to a bank with CAUSE 2. -/
def execFrankPwrfailFall (s : State) : Res :=
  .next (if s.frank.powered && !s.frank.powerFail then
    { s with frank := { s.frank.writeBank 2 with powerFail := true }, pins := { s.pins with pwrfailLow := true } }
  else { s with pins := { s.pins with pwrfailLow := true } })

/-- PWRFAIL_BANK_REPEAT (R567): while PWRFAIL_L stays low the other bank is written. -/
def execPwrfailBankRepeat (s : State) : Res :=
  .next (if s.frank.powered && s.frank.powerFail && s.pins.pwrfailLow then { s with frank := s.frank.writeBank 2 } else s)

/-- FRANK_RECORDS_RESUME (R567): PWRFAIL_L high for 10 ms; records resume in the same session. -/
def execFrankRecordsResume (s : State) : Res :=
  .next (if s.frank.powered && s.frank.powerFail && !s.pins.pwrfailLow then
    { s with frank := { s.frank with powerFail := false } }
  else s)

/-- I3C_PRIVATE_WRITE (R562, R564): the 2-byte pointer, then data for RECORD_SEL or LOG_SEL. -/
def execI3cPrivateWrite (bytes : List Byte) (s : State) : Res :=
  .next (if s.frank.powered && decide (2 ≤ bytes.length) then
    let p := fieldAt bytes 0 2
    { s with frank := { s.frank.i3cStores p (bytes.drop 2) with pointer := p } }
  else s)

/-- I3C_PRIVATE_READ (R559, R562): bytes from the pointer, which advances by one per byte; fetching a record's last byte
marks it read. -/
def execI3cPrivateRead (count : Nat) (s : State) : Res :=
  .next (if s.frank.powered then
    let p := s.frank.pointer
    let bs := (List.range count).map (fun i => s.frank.i3cByte (low 16 (p + i)))
    let last := (List.range count).any (fun i => low 16 (p + i) == 0xD9F)
    let f := if last then s.frank.markRead s.frank.recordSel else s.frank
    ({ s with frank := { f with pointer := low 16 (p + count) } }).emit (.i3cData bs)
  else s)

/-- I3C_CCC (R562): the common command codes; assigning or clearing the dynamic address is an audit event. The answer to
GETSTATUS is a free value. -/
def execI3cCcc (ccc : I3cCcc) (s : State) : Res :=
  .next (if s.frank.powered then
    match ccc with
    | .setdasa a => { s with frank := ({ s.frank with dynAddr := some a.toNat } : Frank).event 0x0A }
    | .entdaa a => { s with frank := ({ s.frank with dynAddr := some a.toNat } : Frank).event 0x0A }
    | .rstdaa =>
      if s.frank.dynAddr.isSome then { s with frank := ({ s.frank with dynAddr := none } : Frank).event 0x0A } else s
    | .enec => { s with frank := { s.frank with ibi := true } }
    | .disec => { s with frank := { s.frank with ibi := false } }
    | .getstatus =>
      let (v, s) := s.freeWord
      s.emit (.i3cData (leBytes 2 v.toNat))
  else s)

/-- I3C_TIMEOUT (R562): the transaction is abandoned and the port is idle; no quantity changes. -/
def execI3cTimeout (s : State) : Res := .next s

/-- VDD_FRK_LOSS (R567): Frank's session ends; a bank write not complete leaves its bank invalid. -/
def execVddFrkLoss (midWrite : Bool) (s : State) : Res :=
  .next (if s.frank.powered then ({ s with frank := s.frank.lose midWrite }).wr F.FRK_TALLY_STATUS_LINK_UP 0 0 else s)

/-- P0_POWER_LOSS (R548): the tally engine is reset and its unacknowledged deltas are lost. P0 loses power only while
PWROK is low (R573). -/
def execP0PowerLoss (s : State) : Res :=
  .next (if s.pins.pwrok then s
  else
    let s := { s with tally := { Tally.initial with powered := false } }
    s.setReg Reg.FRK_TALLY_STATUS 0 0)

/-- FRANK_LINK_DOWN (R23): LINK_UP clears and a running MC command ends LINK_DOWN. -/
def execFrankLinkDown (s : State) : Res :=
  let s := s.wr F.FRK_TALLY_STATUS_LINK_UP 0 0
  .next (if s.rdb F.FRK_CMD_CTRL_GO 0 then s.frkEnd 2 [] else s)

/-- FRANK_LINK_UP (R23): the link trains because P0 and Frank both have power. -/
def execFrankLinkUp (s : State) : Res :=
  .next (if s.tally.powered && s.frank.powered then s.wr F.FRK_TALLY_STATUS_LINK_UP 0 1 else s)

/-- FRK_CMD_TIMEOUT (R569): a command without a response in 100 ms ends TIMEOUT. -/
def execFrkCmdTimeout (s : State) : Res :=
  .next (if s.rdb F.FRK_CMD_CTRL_GO 0 then s.frkEnd 3 [] else s)

end Sys2Proof.Machine
end

