-- ==== Sys2Proof/Machine/Num.lean ====
section
/-! DEFINITION. Element formats and their conversion (sections 6.2 and 6.7). A finite value is `(-1)^neg * m * 2^e`. -/

namespace Sys2Proof.Machine

/-- The number an element code stands for. -/
inductive Num where
  | nan (neg : Bool)
  | inf (neg : Bool)
  | fin (neg : Bool) (m : Nat) (e : Int)
  deriving DecidableEq, Repr

/-- A floating-point format's parameters (Table 6-2): exponent bits, mantissa bits, bias; `infs`: the all-ones exponent
holds infinities and NaNs; `nan7`: only the all-ones code is a NaN (E4M3). -/
structure FpFmt where
  eb : Nat
  mb : Nat
  bias : Nat
  infs : Bool
  nan7 : Bool
  deriving DecidableEq, Repr

/-- The floating-point formats of Table 6-2. -/
def fpFmt (f : Nat) : Option FpFmt :=
  match f with
  | 1 => some ⟨11, 52, 1023, true, false⟩
  | 2 => some ⟨8, 23, 127, true, false⟩
  | 3 => some ⟨5, 10, 15, true, false⟩
  | 4 => some ⟨8, 7, 127, true, false⟩
  | 5 => some ⟨4, 3, 7, false, true⟩
  | 6 => some ⟨5, 2, 15, true, false⟩
  | 7 => some ⟨3, 2, 3, false, false⟩
  | 8 => some ⟨2, 3, 1, false, false⟩
  | 9 => some ⟨2, 1, 1, false, false⟩
  | _ => none

/-- Bits of an integer format and whether it is signed (Table 6-2). -/
def intFmt (f : Nat) : Option (Nat × Bool) :=
  match f with
  | 11 => some (32, true)
  | 12 => some (16, true)
  | 13 => some (8, true)
  | 14 => some (8, false)
  | 15 => some (4, true)
  | _ => none

/-- Bits of one element's code. -/
def fmtBits (f : Nat) : Nat :=
  match fpFmt f, intFmt f with
  | some x, _ => 1 + x.eb + x.mb
  | none, some (n, _) => n
  | none, none => 8

/-- A bit-plane format (R221). -/
def isPlane (f : Nat) : Bool := f == 7 || f == 8 || f == 9 || f == 15

/-- Element size in bytes of a byte format. -/
def fmtEs (f : Nat) : Nat := fmtBits f / 8

/-- The number of a code (R219). -/
def decodeNum (f c : Nat) : Num :=
  match fpFmt f, intFmt f with
  | some x, _ =>
    let m := c % 2 ^ x.mb
    let e := c / 2 ^ x.mb % 2 ^ x.eb
    let neg := c / 2 ^ (x.mb + x.eb) % 2 == 1
    let top := 2 ^ x.eb - 1
    if x.infs && e == top then (if m = 0 then .inf neg else .nan neg)
    else if x.nan7 && e == top && m == 2 ^ x.mb - 1 then .nan neg
    else if e = 0 then .fin neg m (1 - (x.bias : Int) - x.mb)
    else .fin neg (m + 2 ^ x.mb) ((e : Int) - x.bias - x.mb)
  | none, some (n, signed) =>
    if signed && c.testBit (n - 1) then .fin true (2 ^ n - c % 2 ^ n) 0 else .fin false (c % 2 ^ n) 0
  | none, none => if c % 256 = 0xFF then .nan false else .fin false 1 ((c % 256 : Nat) - 127)

/-- `m / 2^k` rounded to nearest, ties to even. -/
def roundShift (m k : Nat) : Nat :=
  let q := m / 2 ^ k
  let r := m % 2 ^ k
  if 2 * r > 2 ^ k || (2 * r == 2 ^ k && q % 2 == 1) then q + 1 else q

/-- `m * 2^e` as a multiple of `2^t`, rounded to nearest, ties to even. -/
def roundTo (m : Nat) (e t : Int) : Nat :=
  if t ≤ e then m * 2 ^ (e - t).toNat else roundShift m (t - e).toNat

/-- What a conversion reports (Table 6-6): bit 0 SATURATED, 1 INF_LOST, 2 NAN_LOST, 3 SCALE_NAN. -/
abbrev Flags := Nat

/-- The code of a number in a floating-point format (Table 6-5). -/
def encodeFp (x : FpFmt) (v : Num) : Nat × Flags :=
  let sgn (neg : Bool) := b2n neg * 2 ^ (x.eb + x.mb)
  let top := 2 ^ x.eb - 1
  let maxCode := if x.infs then (top - 1) * 2 ^ x.mb + (2 ^ x.mb - 1)
    else if x.nan7 then top * 2 ^ x.mb + (2 ^ x.mb - 2) else top * 2 ^ x.mb + (2 ^ x.mb - 1)
  match v with
  | .nan neg =>
    if x.infs then (sgn neg + top * 2 ^ x.mb + 2 ^ (x.mb - 1), 0)
    else if x.nan7 then (sgn neg + top * 2 ^ x.mb + (2 ^ x.mb - 1), 0)
    else (0, 4)
  | .inf neg => if x.infs then (sgn neg + top * 2 ^ x.mb, 0) else (sgn neg + maxCode, 2)
  | .fin neg m e =>
    if m = 0 then (sgn neg, 0)
    else
      let l : Int := (Nat.log2 m : Int) + e
      let emin : Int := 1 - x.bias
      let t : Int := (if l < emin then emin else l) - x.mb
      let q := roundTo m e t
      let code := if l < emin then q else q + ((l + x.bias - 1).toNat) * 2 ^ x.mb
      if code ≤ maxCode then (sgn neg + code, 0)
      else if x.infs then (sgn neg + top * 2 ^ x.mb, 0) else (sgn neg + maxCode, 1)

/-- The code of a number in an integer format (Table 6-5). -/
def encodeInt (n : Nat) (signed : Bool) (v : Num) : Nat × Flags :=
  let hi : Int := if signed then 2 ^ (n - 1) - 1 else 2 ^ n - 1
  let lo : Int := if signed then -(2 ^ (n - 1)) else 0
  let put (i : Int) : Nat := (i % 2 ^ n).toNat
  match v with
  | .nan _ => (0, 4)
  | .inf neg => (put (if neg then lo else hi), 2)
  | .fin neg m e =>
    let q : Int := roundTo m e 0
    let i := if neg then -q else q
    if hi < i then (put hi, 1) else if i < lo then (put lo, 1) else (put i, 0)

/-- The code of a number in a format; E8M0 is a target of E8M0 only (R232), with its own code kept. -/
def encodeNum (f : Nat) (v : Num) : Nat × Flags :=
  match fpFmt f, intFmt f with
  | some x, _ => encodeFp x v
  | none, some (n, signed) => encodeInt n signed v
  | none, none => match v with
    | .fin _ _ e => ((e + 127).toNat % 256, 0)
    | _ => (0xFF, 0)

/-- Convert one code (R232). Equal formats copy. -/
def convert (src dst c : Nat) : Nat × Flags := if src = dst then (c, 0) else encodeNum dst (decodeNum src c)

/-- The pair is permitted (R232). -/
def pairOk (src dst : Nat) : Bool :=
  if src = 10 then dst == 10 || dst == 1 || dst == 2 else dst != 10

/-- The value of a code in MX mode with scale code `x` (R220). -/
def mxValue (f x c : Nat) : Num :=
  if x = 0xFF then .nan false
  else match decodeNum f c with
    | .fin neg m e => .fin neg m (e + x - 127 + (if f = 13 then -6 else 0))
    | v => v

/-- EMAX of a format (R233). -/
def mxEmax (f : Nat) : Nat :=
  match f with
  | 5 => 8
  | 6 => 15
  | 7 => 4
  | 8 => 2
  | 9 => 2
  | _ => 0

/-- floor (log2 of the magnitude), for a non-zero finite number. -/
def Num.log2 : Num → Int
  | .fin _ m e => (Nat.log2 m : Int) + e
  | _ => 0

/-- The number is not finite. -/
def Num.special : Num → Bool
  | .fin _ _ _ => false
  | _ => true

def Num.isZero : Num → Bool
  | .fin _ m _ => m == 0
  | _ => false

/-- The scale code of a block of values and its flags (R233). -/
def mxScale (f : Nat) (vs : List Num) : Nat × Flags :=
  if vs.any Num.special then
    (0xFF, 8 ||| (if vs.any (fun v => match v with | .inf _ => true | _ => false) then 2 else 0))
  else
    let nz := vs.filter (fun v => !v.isZero)
    match nz with
    | [] => (0, 0)
    | v :: t =>
      let l := t.foldl (fun a w => if a < w.log2 then w.log2 else a) v.log2
      let x := l - mxEmax f + 127
      ((if x < 0 then 0 else if 0xFE < x then 0xFE else x.toNat), 0)

/-- One element of a quantised block (R233 step 3). -/
def mxEncode (f x : Nat) (v : Num) : Nat × Flags :=
  match v with
  | .fin neg m e => encodeNum f (.fin neg m (e - (x : Int) + 127 + (if f = 13 then 6 else 0)))
  | v => encodeNum f v

end Sys2Proof.Machine
end

