-- ==== Sys2Proof/Machine/Fp.lean ====
section
/-! DEFINITION. Floating-point arithmetic on `Num`: exact results, rounded once into a format (R252, R264). -/

namespace Sys2Proof.Machine

def fp32 : FpFmt := ⟨8, 23, 127, true, false⟩
def fp64 : FpFmt := ⟨11, 52, 1023, true, false⟩

/-- Format code 2 is FP32 and 1 is FP64 (Table 6-2). -/
def ofFp32 (c : Nat) : Num := decodeNum 2 c

/-- Round to nearest, ties to even, into a format. -/
def Num.rnd (x : FpFmt) (v : Num) : Num :=
  let c := (encodeFp x v).1
  decodeNum (if x.mb = 52 then 1 else 2) c

/-- Round a non-negative number toward +inf into a format; the result is the number. -/
def Num.rndUp (x : FpFmt) (v : Num) : Num :=
  match v with
  | .fin neg m e =>
    if m = 0 then .fin neg 0 0
    else
      let l : Int := (Nat.log2 m : Int) + e
      let emin : Int := 1 - x.bias
      let t : Int := (if l < emin then emin else l) - x.mb
      let q := if t ≤ e then m * 2 ^ (e - t).toNat else
        let k := (t - e).toNat
        if m % 2 ^ k = 0 then m / 2 ^ k else m / 2 ^ k + 1
      (Num.fin neg q t).rnd x
  | v => v

def Num.neg : Num → Num
  | .nan s => .nan (!s)
  | .inf s => .inf (!s)
  | .fin s m e => .fin (!s) m e

def Num.abs : Num → Num
  | .nan _ => .nan false
  | .inf _ => .inf false
  | .fin _ m e => .fin false m e

def Num.isNan : Num → Bool
  | .nan _ => true
  | _ => false

def Num.isInf : Num → Bool
  | .inf _ => true
  | _ => false

def Num.sign : Num → Bool
  | .nan s => s
  | .inf s => s
  | .fin s _ _ => s

/-- The integer a finite number is in units of `2^t`, `t` no greater than its exponent. -/
def Num.units (t : Int) : Num → Int
  | .fin s m e => let u : Int := m * 2 ^ (e - t).toNat; if s then -u else u
  | _ => 0

def Num.ofUnits (i : Int) (t : Int) (zeroNeg : Bool) : Num :=
  if i = 0 then .fin zeroNeg 0 0 else .fin (decide (i < 0)) i.natAbs t

/-- The exact sum. A NaN result carries the sign `false`; the operations above replace it. -/
def Num.add (a b : Num) : Num :=
  match a, b with
  | .nan s, _ => .nan s
  | _, .nan s => .nan s
  | .inf s, .inf r => if s = r then .inf s else .nan false
  | .inf s, _ => .inf s
  | _, .inf s => .inf s
  | .fin s m e, .fin r n f =>
    let t := min e f
    Num.ofUnits ((Num.fin s m e).units t + (Num.fin r n f).units t) t (s && r)

def Num.sub (a b : Num) : Num := a.add b.neg

/-- The exact product. -/
def Num.mul (a b : Num) : Num :=
  match a, b with
  | .nan s, _ => .nan s
  | _, .nan s => .nan s
  | .inf s, .inf r => .inf (s != r)
  | .inf s, .fin r n _ => if n = 0 then .nan false else .inf (s != r)
  | .fin r n _, .inf s => if n = 0 then .nan false else .inf (s != r)
  | .fin s m e, .fin r n f => .fin (s != r) (m * n) (e + f)

/-- The quotient to 80 bits with a sticky bit below, so that one rounding of it is the correct rounding. -/
def Num.div (a b : Num) : Num :=
  match a, b with
  | .nan s, _ => .nan s
  | _, .nan s => .nan s
  | .inf _, .inf _ => .nan false
  | .inf s, .fin r _ _ => .inf (s != r)
  | .fin s _ _, .inf r => .fin (s != r) 0 0
  | .fin s m e, .fin r n f =>
    if n = 0 then (if m = 0 then .nan false else .inf (s != r))
    else if m = 0 then .fin (s != r) 0 0
    else
      let k := 80 + Nat.log2 n
      let q := m * 2 ^ k / n
      let st := b2n (m * 2 ^ k % n != 0)
      .fin (s != r) (2 * q + st) (e - f - k - 1)

/-- The integer square root, one bit of the root at a time. -/
def isqrt : Nat → Nat → Nat → Nat
  | 0, _, r => r
  | k + 1, n, r => let c := r + 2 ^ k; isqrt k n (if c * c ≤ n then c else r)

/-- The square root to more than 80 bits with a sticky bit below. -/
def Num.sqrt (a : Num) : Num :=
  match a with
  | .nan s => .nan s
  | .inf s => if s then .nan false else .inf false
  | .fin s m e =>
    if m = 0 then .fin s 0 0
    else if s then .nan false
    else
      let k : Nat := 164 + (if e % 2 = 0 then 0 else 1)
      let n := m * 2 ^ k
      let r := isqrt (Nat.log2 n / 2 + 1) n 0
      .fin false (2 * r + b2n (r * r != n)) ((e - k) / 2 - 1)

/-- `a < b` for numbers that are no NaN. -/
def Num.lt (a b : Num) : Bool :=
  match a, b with
  | .nan _, _ => false
  | _, .nan _ => false
  | .inf s, .inf r => s && !r
  | .inf s, .fin _ _ _ => s
  | .fin _ _ _, .inf r => !r
  | .fin s m e, .fin r n f =>
    let t := min e f
    decide ((Num.fin s m e).units t < (Num.fin r n f).units t)

/-- The nearest integer, ties to even. -/
def Num.toNearest : Num → Int
  | .fin s m e => let q : Int := roundTo m e 0; if s then -q else q
  | _ => 0

def Num.ofInt (i : Int) : Num := .fin (decide (i < 0)) i.natAbs 0

end Sys2Proof.Machine
end

