-- ==== Sys2Proof/Machine/Bale.lean ====
section
/-! DEFINITION. The bale: frames, modes, the Sward arithmetic, and the Unbaler's checks (sections 7.2 to 7.4). -/

namespace Sys2Proof.Machine
namespace Bale

/-- How one pass codes a tile (Tables 2-13 and 7-2): MODE 1 LOSSLESS, 2 SPARSE, 3 SWARD. -/
structure Par where
  mode : Nat
  format : Nat
  predictor : Nat
  rowElems : Nat
  granule : Nat
  eps : Nat
  deriving DecidableEq, Repr

/-- The coding parameters of a mode under MODE_PARAMS and EPS. -/
def parOf (mode : Nat) (params : Nat) (eps : Nat) : Par :=
  { mode, format := bitsOf params 0 5, predictor := bitsOf params 5 2, rowElems := bitsOf params 8 24
    granule := bitsOf params 32 2, eps := if mode = 3 then eps else 0 }

/-- The fields a requested mode uses are in its range (R194, Table 7-2). -/
def parFits (p : Par) : Bool :=
  let row (need : Bool) := !need || decide (1 ≤ p.rowElems)
  match p.mode with
  | 1 => decide (1 ≤ p.format) && decide (p.format ≤ 15) && decide (p.predictor ≤ 2) && row (p.predictor == 2)
  | 2 => true
  | _ => decide (1 ≤ p.format) && decide (p.format ≤ 4) && row (p.predictor == 2 || p.predictor == 3)

/-- Element size in the coding: plane formats and E8M0 count as 1 byte (R250). -/
def es (f : Nat) : Nat := if isPlane f || f == 10 then 1 else fmtEs f

/-- `n` rounded up to a multiple of 8. -/
def pad8 (n : Nat) : Nat := ceilDiv n 8 * 8

def padded (b : List Byte) : List Byte := b ++ List.replicate (pad8 b.length - b.length) 0

/-- Cut a byte string into pieces of `k` bytes. -/
def chunks (k : Nat) : Nat → List Byte → List (List Byte)
  | 0, _ => []
  | f + 1, b => if b.isEmpty then [] else b.take k :: chunks k f (b.drop k)

/-- The element codes of a frame. -/
def codes (k : Nat) (frame : List Byte) : List Nat := (chunks k (4096 / k) frame).map ofLe

def bitLen (n : Nat) : Nat := if n = 0 then 0 else Nat.log2 n + 1

/-- The width of a group. -/
def width (g : List Nat) : Nat := bitLen (g.foldl max 0)

def groupsOf : Nat → List Nat → List (List Nat)
  | 0, _ => []
  | f + 1, l => if l.isEmpty then [] else l.take 32 :: groupsOf f (l.drop 32)

/-- 32 residuals of `w` bits, least significant bit first. -/
def packGroup (w : Nat) (g : List Nat) : List Byte :=
  leBytes (4 * w) ((g.foldr (fun r a => r % 2 ^ w + a * 2 ^ w) 0))

/-- The width array and the groups of R250. -/
def packResiduals (rs : List Nat) : List Byte :=
  let gs := groupsOf 128 rs
  padded (gs.map (fun g => BitVec.ofNat 8 (width g))) ++ gs.flatMap (fun g => packGroup (width g) g)

/-- Unpack `e` residuals; `none` where a width is above 64 or the coding does not end at the end of the bytes (R258). -/
def unpackResiduals (e : Nat) (b : List Byte) : Option (List Nat) :=
  let ng := e / 32
  let ws := (b.take ng).map (·.toNat)
  let body := b.drop (pad8 ng)
  if b.length < pad8 ng || ws.any (fun w => decide (64 < w)) || body.length ≠ 4 * ws.foldl (· + ·) 0 then none
  else
    some (((ws.foldl (fun (r : List Nat × List Byte) w =>
      let n := ofLe (r.2.take (4 * w))
      (r.1 ++ (List.range 32).map (fun i => n / 2 ^ (w * i) % 2 ^ w), r.2.drop (4 * w))) ([], body))).1)

/-- The prediction of a LOSSLESS element; `done` is newest first. -/
def predict (p : Par) (n : Nat) (done : List Nat) : Nat :=
  match p.predictor with
  | 0 => 0
  | 2 => if p.rowElems ≤ n then done.getD (p.rowElems - 1) 0 else done.headD 0
  | _ => done.headD 0

/-- LOSSLESS residuals: the code XOR its prediction (R251). -/
def losslessCode (p : Par) (frame : List Byte) : List Byte :=
  let r := (codes (es p.format) frame).foldl (fun (r : List Nat × List Nat) c =>
    (r.1 ++ [Nat.xor c (predict p r.1.length r.2)], c :: r.2)) ([], [])
  packResiduals r.1

def losslessDecode (p : Par) (b : List Byte) : Option (List Byte) :=
  let k := es p.format
  match unpackResiduals (4096 / k) b with
  | none => none
  | some rs =>
    let r := rs.foldl (fun (r : Nat × List Nat) x =>
      (r.1 + 1, Nat.xor x (predict p r.1 r.2) % 2 ^ (8 * k) :: r.2)) (0, [])
    some (r.2.reverse.flatMap (leBytes k))

/-- SPARSE: a bitmap of granules that hold a non-zero byte, then those granules (R251). -/
def sparseCode (p : Par) (frame : List Byte) : List Byte :=
  let g := 8 * 2 ^ p.granule
  let cs := chunks g (4096 / g) frame
  let map := cs.foldr (fun c a => b2n (!allZero c) + 2 * a) 0
  padded (leBytes (4096 / g / 8) map) ++ (cs.filter (fun c => !allZero c)).flatten

def sparseDecode (p : Par) (b : List Byte) : Option (List Byte) :=
  let g := 8 * 2 ^ p.granule
  let n := 4096 / g
  let map := ofLe (b.take (n / 8))
  let body := b.drop (pad8 (n / 8))
  if b.length < pad8 (n / 8) || body.length ≠ g * popcount n map then none
  else
    some (((List.range n).foldl (fun (r : List Byte × List Byte) i =>
      if map.testBit i then (r.1 ++ r.2.take g, r.2.drop g) else (r.1 ++ List.replicate g 0, r.2)) ([], body)).1)

/-- The Sward prediction (R252); `done` holds reconstructed values, newest first. -/
def swardPredict (p : Par) (n : Nat) (done : List Num) : Num :=
  let z := Num.fin false 0 0
  let prev := done.headD z
  let row := if p.rowElems ≤ n then done.getD (p.rowElems - 1) z else prev
  match p.predictor with
  | 0 => z
  | 1 => prev
  | 2 => row
  | _ =>
    if p.rowElems ≤ n ∧ n % p.rowElems ≠ 0 then
      ((((prev.add (done.getD (p.rowElems - 1) z)).rnd fp64).sub (done.getD p.rowElems z)).rnd fp64)
    else row

/-- The reconstructed code of an element from its prediction and `q` (R252). -/
def swardCode (p : Par) (pr : Num) (q : Int) : Nat :=
  let e2 := (ofFp32 p.eps).mul (.fin false 1 1)
  (encodeNum p.format ((pr.add ((e2.mul (Num.ofInt q)).rnd fp64)).rnd fp64)).1

def zigzag (q : Int) : Nat := if 0 ≤ q then (2 * q).toNat else (-2 * q - 1).toNat
def unzigzag (r : Nat) : Int := if r % 2 = 0 then (r / 2 : Nat) else -((r / 2 : Nat) : Int) - 1

/-- One Sward element (R252 to R254): `none` for an exception, else q, the code, and d. -/
def swardElem (p : Par) (c : Nat) (pr : Num) : Option (Int × Nat × Num) :=
  let x := decodeNum p.format c
  let e := ofFp32 p.eps
  let t := (((x.sub pr).rnd fp64).div (e.mul (.fin false 1 1))).rnd fp64
  if x.special || t.special then none
  else
    let q := t.toNearest
    if 2 ^ 31 ≤ q.natAbs then none
    else
      let y := swardCode p pr q
      let v := decodeNum p.format y
      if v.special then none
      else
        let d := ((x.sub v).abs).rndUp fp64
        if e.lt d then none else some (q, y, d)

/-- What a Sward frame comes to. -/
structure SwardFrame where
  resid : List Nat
  done : List Num
  /-- exceptions: position and code, in order -/
  exc : List (Nat × Nat)
  most : Num
  deriving DecidableEq, Repr

def swardRun (p : Par) (frame : List Byte) : SwardFrame :=
  (codes (es p.format) frame).foldl (fun r c =>
    let n := r.resid.length
    match swardElem p c (swardPredict p n r.done) with
    | some (q, y, d) =>
      { r with resid := r.resid ++ [zigzag q], done := decodeNum p.format y :: r.done
               most := if r.most.lt d then d else r.most }
    | none =>
      { r with resid := r.resid ++ [0], done := decodeNum p.format c :: r.done, exc := r.exc ++ [(n, c)] })
    { resid := [], done := [], exc := [], most := .fin false 0 0 }

/-- A SWARD CODED frame (R253). -/
def swardBytes (p : Par) (f : SwardFrame) : List Byte :=
  padded (leBytes 2 f.exc.length) ++ padded (f.exc.flatMap (fun x => leBytes 2 x.1)) ++
  padded (f.exc.flatMap (fun x => leBytes (es p.format) x.2)) ++ packResiduals f.resid

/-- Numbers strictly rising and below `e`. -/
def rising (e : Nat) : List Nat → Bool
  | [] => true
  | [a] => decide (a < e)
  | a :: b :: t => decide (a < b) && rising e (b :: t)

def swardDecode (p : Par) (b : List Byte) : Option (List Byte) :=
  let k := es p.format
  let e := 4096 / k
  let n := fieldAt b 0 2
  let o1 := 8
  let o2 := o1 + pad8 (2 * n)
  let o3 := o2 + pad8 (k * n)
  let pos := (List.range n).map (fun i => fieldAt b (o1 + 2 * i) 2)
  let exc := (List.range n).map (fun i => fieldAt b (o2 + k * i) k)
  if b.length < o3 || !rising e pos then none
  else match unpackResiduals e (b.drop o3) with
  | none => none
  | some rs =>
    let r := rs.foldl (fun (r : Nat × List Num × List Nat) x =>
      let c := match (pos.zip exc).find? (fun y => y.1 == r.1) with
        | some y => y.2
        | none => swardCode p (swardPredict p r.1 r.2.1) (unzigzag x)
      (r.1 + 1, decodeNum p.format c :: r.2.1, c :: r.2.2)) (0, [], [])
    some (r.2.2.reverse.flatMap (leBytes k))

/-- A frame: KIND (0 CODED, 1 LITERAL, 2 ZERO) and its bytes (R249), with its Sward exceptions and largest d. -/
structure Frame where
  kind : Nat
  bytes : List Byte
  exc : Nat
  most : Num
  deriving DecidableEq, Repr

def frameOf (p : Par) (raw : List Byte) : Frame :=
  let z := Num.fin false 0 0
  if allZero raw then { kind := 2, bytes := [], exc := 0, most := z }
  else
    let sw := swardRun p raw
    let c := match p.mode with
      | 1 => losslessCode p raw
      | 2 => sparseCode p raw
      | _ => swardBytes p sw
    if c.length < 4096 then
      { kind := 0, bytes := c, exc := if p.mode = 3 then sw.exc.length else 0, most := if p.mode = 3 then sw.most else z }
    else { kind := 1, bytes := raw, exc := 0, most := z }

/-- Where the frame area starts (R248). -/
def frameArea (n : Nat) : Nat := ceilDiv (32 + 8 * n) 64 * 64

/-- Index entries and the end of the last frame, from the position `o` where the one before ended (R248). -/
def place : Nat → List Frame → List Nat × Nat
  | o, [] => ([], o)
  | o, f :: t =>
    let a := pad8 o
    let r := place (a + f.bytes.length) t
    ((a + f.kind * 2 ^ 24 + f.bytes.length * 2 ^ 32) :: r.1, r.2)

/-- The first 28 bytes of the header (Table 7-3). -/
def headBytes (p : Par) (sizeCode gen frames stored : Nat) : List Byte :=
  leBytes 2 0x424C ++ leBytes 1 p.mode ++ leBytes 1 p.format ++ leBytes 1 sizeCode ++ leBytes 1 p.predictor ++
  leBytes 1 gen ++ leBytes 1 0 ++ leBytes 2 frames ++ leBytes 2 0 ++ leBytes 4 p.eps ++ leBytes 3 p.rowElems ++
  leBytes 1 p.granule ++ leBytes 4 stored ++ leBytes 4 0

/-- What a pass comes to: the bale, its exceptions and the largest d of its coded elements. -/
structure Result where
  bytes : List Byte
  exceptions : Nat
  most : Num
  deriving DecidableEq, Repr

/-- Bale a tile image (R248). -/
def bale (p : Par) (sizeCode gen : Nat) (image : List Byte) : Result :=
  let fs := (chunks 4096 (image.length / 4096) image).map (frameOf p)
  let area := frameArea fs.length
  let (idx, last) := place area fs
  let stored := ceilDiv last 64 * 64
  let h := headBytes p sizeCode gen fs.length stored
  let ib := idx.flatMap (leBytes 8)
  let head := h ++ leBytes 4 (crc32c (h ++ ib)).toNat ++ ib
  let body := fs.foldl (fun b f =>
    b ++ List.replicate (pad8 b.length - b.length) 0 ++ f.bytes) (bytesAt head 0 area)
  { bytes := bytesAt body 0 stored, exceptions := fs.foldl (fun a f => a + f.exc) 0
    most := fs.foldl (fun a f => if a.lt f.most then f.most else a) (.fin false 0 0) }

/-- The largest multiple of 64 that is at most raw size × 256 ÷ MIN_RATIO (R256). -/
def budget (raw minRatio : Nat) : Nat := raw * 256 / minRatio / 64 * 64

/-- The pass keeps its bale (R54, R256). -/
def keeps (raw minRatio stored : Nat) : Bool := decide (stored ≤ budget raw minRatio)

/-- One frame of a bale, decoded; `none` where its structure is wrong (R258). -/
def frameDecode (p : Par) (kind : Nat) (b : List Byte) : Option (List Byte) :=
  match kind with
  | 0 => match p.mode with
    | 1 => losslessDecode p b
    | 2 => sparseDecode p b
    | _ => swardDecode p b
  | 1 => if b.length = 4096 then some b else none
  | _ => some (List.replicate 4096 0)

/-- The index follows the placement rule and ends at STORED_BYTES (R248, R258). -/
def indexOk (frames stored : Nat) : Nat → List Nat → Bool
  | o, [] => decide (ceilDiv o 64 * 64 = stored) && decide (frames ≤ 256)
  | o, e :: t =>
    let k := bitsOf e 24 2
    let n := bitsOf e 32 13
    decide (bitsOf e 0 24 = pad8 o) && decide (bitsOf e 26 6 = 0) && decide (e / 2 ^ 45 = 0) && k != 3 &&
    (if k = 2 then n == 0 else if k = 1 then n == 4096 else decide (n < 4096)) &&
    indexOk frames stored (pad8 o + n) t

/-- What the Unbaler produces: the frames before the first that fails, and whether the header, every frame and the image
CRC passed (R258). -/
structure Out where
  header : Bool
  image : List Byte
  frames : Bool
  deriving DecidableEq, Repr

def framesRun (p : Par) (b : List Byte) : List Nat → List Byte × Bool
  | [] => ([], true)
  | e :: t => match frameDecode p (bitsOf e 24 2) (bytesAt b (bitsOf e 0 24) (bitsOf e 32 13)) with
    | none => ([], false)
    | some f => let r := framesRun p b t; (f ++ r.1, r.2)

/-- Unbale a stored tile of `raw` bytes (R255, R258). -/
def unbale (b : List Byte) (gen raw : Nat) : Out :=
  let frames := fieldAt b 8 2
  let stored := fieldAt b 20 4
  let idx := (List.range frames).map (fun i => fieldAt b (32 + 8 * i) 8)
  let p : Par := { mode := fieldAt b 2 1, format := fieldAt b 3 1, predictor := fieldAt b 5 1, rowElems := fieldAt b 16 3
                   granule := fieldAt b 19 1, eps := fieldAt b 12 4 }
  if fieldAt b 0 2 ≠ 0x424C || fieldAt b 28 4 ≠ (crc32c (bytesAt b 0 28 ++ bytesAt b 32 (8 * frames))).toNat ||
    fieldAt b 6 1 ≠ gen || stored ≠ b.length || frames * 4096 ≠ raw || !indexOk frames stored (frameArea frames) idx then
    { header := false, image := [], frames := false }
  else
    let r := framesRun p b idx
    { header := true, image := r.1, frames := r.2 }

/-- The sum of two EPS_ACH values, rounded toward +inf in FP32 (R261). -/
def epsSum (a b : Nat) : Nat := (encodeFp fp32 (((ofFp32 a).add (ofFp32 b)).rndUp fp32)).1

end Bale
end Sys2Proof.Machine
end

