-- ==== Sys2Proof/Machine/CoreBase.lean ====
section
/-! DEFINITION. A Sorter core's registers, scratch, ticket slots and status (chapter 4), each read and written in one
place. -/

namespace Sys2Proof.Machine

/-- Core states (Table 4-1). -/
def coreOff : Nat := 0
def coreIdle : Nat := 1
def coreRunning : Nat := 2
def coreWaiting : Nat := 3
def coreStalled : Nat := 4
def coreHalted : Nat := 5
def coreFenced : Nat := 6

def State.coreState (s : State) (c : Nat) : Nat := s.rd F.SRT_STATUS_STATE c
def State.setCoreState (s : State) (c v : Nat) : State := s.wr F.SRT_STATUS_STATE c v

/-- The partition a core is assigned to, if any. -/
def State.corePart? (s : State) (c : Nat) : Option Nat :=
  if s.rdb F.SRT_IDENT_ASSIGNED c then some (s.rd F.SRT_IDENT_PARTITION c) else none

/-- The core's partition; 0 where it has none. -/
def State.corePart (s : State) (c : Nat) : Nat := s.rd F.SRT_IDENT_PARTITION c

def State.isV1 (s : State) (c : Nat) : Bool := s.rdb F.SRT_STATUS_ISA_V1 c

/-- g registers: g0 reads 0 (R127). -/
def State.g (s : State) (c r : Nat) : Word := if r = 0 then 0 else Tab.get 0 s.gregs (c * 32 + r)

/-- A write to g0 is discarded (R127). -/
def State.setG (s : State) (c r : Nat) (v : Word) : State :=
  if r = 0 then s else { s with gregs := Tab.set 0 s.gregs (c * 32 + r) v }

def State.t (s : State) (c r : Nat) : Beat := Tab.get 0 s.tregs (c * 16 + r)
def State.setT (s : State) (c r : Nat) (v : Beat) : State := { s with tregs := Tab.set 0 s.tregs (c * 16 + r) v }

/-- p registers: p0 reads 1 (R127). -/
def State.p (s : State) (c r : Nat) : Bool := if r = 0 then true else Tab.get false s.pregs (c * 8 + r)

/-- A write to p0 is discarded (R127). -/
def State.setP (s : State) (c r : Nat) (v : Bool) : State :=
  if r = 0 then s else { s with pregs := Tab.set false s.pregs (c * 8 + r) v }

def State.pc (s : State) (c : Nat) : Nat := s.rd F.SRT_PC_PC c
def State.setPc (s : State) (c v : Nat) : State := s.wr F.SRT_PC_PC c v

def State.core (s : State) (c : Nat) : CoreRec := Tab.get CoreRec.idle s.cores c
def State.setCore (s : State) (c : Nat) (r : CoreRec) : State := { s with cores := Tab.set CoreRec.idle s.cores c r }

/-- One byte of a core's scratch. -/
def State.scratchByte (s : State) (c a : Nat) : Byte := Tab.get 0 s.scratch (c * 262144 + a)

/-- `n` bytes of scratch from local address `a`. -/
def State.scratchRead (s : State) (c a n : Nat) : List Byte := (List.range n).map (fun i => s.scratchByte c (a + i))

/-- Write bytes into scratch from local address `a`. -/
def State.scratchWrite (s : State) (c a : Nat) : List Byte → State
  | [] => s
  | b :: t => State.scratchWrite { s with scratch := Tab.set 0 s.scratch (c * 262144 + a) b } c (a + 1) t

/-- The size of the local address map and of plan scratch: the ticket table lies between (Tables 4-5 and 4-13). -/
def scratchEnd (v1 : Bool) : Nat := if v1 then 0x20000 else 0x40000
def ticketBase (v1 : Bool) : Nat := if v1 then 0x1C000 else 0x3C000

/-- The local address of a ticket's slot (R142, Table 4-13). -/
def State.slotAddr (s : State) (c ticket : Nat) : Nat := ticketBase (s.isV1 c) + 16 * (ticket % 1024)

/-- Slot states of Table 4-6. -/
def slotFree : Nat := 0
def slotPending : Nat := 1
def slotDone : Nat := 2
def slotVoid : Nat := 3

/-- STATE of the slot a ticket occupies. -/
def State.slotState (s : State) (c ticket : Nat) : Nat :=
  bitsOf (ofLe (s.scratchRead c (s.slotAddr c ticket) 8)) 16 2

/-- Write a whole ticket slot in one 16-byte write (R143, Table 4-6). -/
def State.writeSlot (s : State) (c ticket state engine status epoch residue : Nat) : State :=
  let w0 := low 16 ticket + state % 4 * 2 ^ 16 + engine % 256 * 2 ^ 24 + low 16 status * 2 ^ 32 + low 16 epoch * 2 ^ 48
  let was := s.slotState c ticket
  let s := s.scratchWrite c (s.slotAddr c ticket) (leBytes 8 w0 ++ leBytes 8 residue)
  let n := s.rd F.SRT_ISSUE_STATUS_OUTSTANDING c
  if was ≠ slotPending ∧ state = slotPending then s.wr F.SRT_ISSUE_STATUS_OUTSTANDING c (n + 1)
  else if was = slotPending ∧ state ≠ slotPending then s.wr F.SRT_ISSUE_STATUS_OUTSTANDING c (n - 1)
  else s

def State.nextTicket (s : State) (c : Nat) : Nat := s.rd F.SRT_ISSUE_STATUS_NEXT_TICKET c

/-- An instruction-group feature bit is accepted (R163). -/
def State.feature (s : State) (bit : Nat) : Bool := (s.rd F.SYS_FEAT_ACCEPT_BITS 0).testBit bit

/-- The registers of Table 4-12 that take their reset values at a start, an unload and a partition reset (section 4.10,
Edges). -/
def coreResetRegs : List Reg :=
  [Reg.SRT_CTRL, Reg.SRT_STATUS, Reg.SRT_PC, Reg.SRT_EXIT, Reg.SRT_TRAP_VEC, Reg.SRT_TRAP_CAUSE, Reg.SRT_TRAP_PC,
    Reg.SRT_TRAP_VALUE, Reg.SRT_CYCLE, Reg.SRT_INSTRET, Reg.SRT_ISSUE_STATUS, Reg.SRT_DBG_ADDR, Reg.SRT_DBG_DATA]

/-- Core registers at their start values of zero, nothing pending in the core. -/
def State.clearCore (s : State) (c : Nat) : State :=
  let s := coreResetRegs.foldl (fun s r => s.setReg r c 0) s
  { s with
    gregs := Tab.keep (fun k => k / 32 != c) s.gregs
    tregs := Tab.keep (fun k => k / 16 != c) s.tregs
    pregs := Tab.keep (fun k => k / 8 != c) s.pregs
    cores := Tab.erase s.cores c }

/-- Zero all 256 KiB of a core's scratch (R135). -/
def State.zeroScratch (s : State) (c : Nat) : State :=
  { s with scratch := Tab.keep (fun k => k / 262144 != c) s.scratch }

/-- Halt a core with a cause (R124): HALT_REQ clears, a blocked WAIT or issue is abandoned (R125). -/
def State.haltCore (s : State) (c cause : Nat) : State :=
  let s := ((s.setCoreState c coreHalted).wr F.SRT_STATUS_HALT_CAUSE c cause).wr F.SRT_CTRL_HALT_REQ c 0
  s.setCore c { s.core c with wait := none, stalled := none }

/-- A core's rank: how many lower-numbered cores its partition holds (R121). -/
def rankIn (mask c : Nat) : Nat := popcount c mask

end Sys2Proof.Machine
end

