-- ==== Sys2Proof/Machine/Mem.lean ====
section
/-! DEFINITION. Physical memory: the bytes of the three tiers, their poison, and the last-level cache in front of Meadow
(chapter 9). `mem` holds every byte as an agent reads it; a dirty sector of the cache keeps what its home still holds, so
that an invalidation without write-back can restore it (R333). -/

namespace Sys2Proof.Machine

/-- The location of a Heath offset (Table 8-1). -/
def heathKey (off : Nat) : Nat := 0x100000000000 + off

/-- The location of a byte of Moor target `t`, counted from its block 0. -/
def moorKey (t byte : Nat) : Nat := 2 ^ 100 + t * 2 ^ 72 + byte

/-- A location is in Meadow (a DPA, Table 8-1). -/
def isMeadow (k : Nat) : Bool := decide (k < 2 ^ 41)

/-- The die of a DPA (Table 8-1). -/
def dieOf (k : Nat) : Nat := bitsOf k 39 2

/-- The tier of a location. -/
def homeOf (k : Nat) : Home := if k < 2 ^ 41 then .meadow else if k < 2 ^ 100 then .heath else .moor

/-- TIER codes: 1 Meadow, 2 Heath, 3 Moor; 0 none (Table 2-3). -/
def Home.code : Home → Nat
  | .none => 0
  | .meadow => 1
  | .heath => 2
  | .moor => 3

/-- The home of a TIER code. -/
def Home.ofCode (n : Nat) : Home := match n with
  | 1 => .meadow
  | 2 => .heath
  | 3 => .moor
  | _ => .none

/-- One byte as an agent reads it. -/
def State.byte (s : State) (k : Nat) : Byte := Tab.get 0 s.mem k

/-- `n` bytes as an agent reads them. -/
def State.bytes (s : State) (k : Nat) : Nat → List Byte
  | 0 => []
  | n + 1 => s.byte k :: s.bytes (k + 1) n

/-- Store bytes from location `k` on. -/
def memStore (m : Tab Byte) (k : Nat) : List Byte → Tab Byte
  | [] => m
  | b :: t => memStore (Tab.set 0 m k b) (k + 1) t

/-- Zero the bytes `lo ≤ k < hi`. -/
def memZero (m : Tab Byte) (lo hi : Nat) : Tab Byte := Tab.keep (fun k => !(decide (lo ≤ k) && decide (k < hi))) m

/-- The poison marker of the sector that holds `k`, in its home. -/
def State.poisonAt (s : State) (k : Nat) : Bool := Tab.get false s.poison (k / 32)

def State.setPoison (s : State) (k : Nat) (b : Bool) : State :=
  { s with poison := Tab.set false s.poison (k / 32) b }

/-- The set index of a DPA (R324). -/
def llcSet (k : Nat) : Nat := Nat.xor (Nat.xor (bitsOf k 7 15) (bitsOf k 22 15)) (bitsOf k 37 2)

/-- The tag of a DPA (R324). -/
def llcTag (k : Nat) : Nat := bitsOf k 22 17

/-- The slice and set of a DPA, as one number. -/
def llcIndex (k : Nat) : Nat := dieOf k * 32768 + llcSet k

/-- The DPA of a line's first byte, from its slice and set and its tag (R324: the two name the line uniquely). -/
def llcBase (idx tag : Nat) : Nat :=
  idx / 32768 * 2 ^ 39 + tag * 2 ^ 22 +
    Nat.xor (Nat.xor (idx % 32768) (tag % 32768)) (tag / 32768) * 128

/-- The way that holds the line of DPA `k`, if one does. -/
def State.llcWay (s : State) (k : Nat) : Option Nat :=
  (List.range 16).find? (fun w => match Tab.find? s.llc (llcIndex k * 16 + w) with
    | some l => l.tag == llcTag k
    | none => false)

/-- The line of DPA `k`, if the cache holds it. -/
def State.llcLine (s : State) (k : Nat) : Option Line :=
  match s.llcWay k with
  | some w => Tab.find? s.llc (llcIndex k * 16 + w)
  | none => none

/-- Ways in partition `p`'s mask (R337). -/
def State.pinMask (s : State) (p : Nat) : Nat := s.rd F.LLC_PIN_MASK_WAYS p * 16

/-- Ways in any partition's mask. -/
def State.allPinMasks (s : State) : Nat := (List.range 32).foldl (fun m p => m ||| s.pinMask p) 0

/-- A way may take a line of DPA `k` (R338, R349). -/
def State.wayEligible (s : State) (k w : Nat) : Bool :=
  let u := Tab.get 0 s.pinUnits (k / 65536)
  let retired := (Tab.get 0 s.err.ways (llcIndex k)).testBit w
  !retired && (if u = 0 then !s.allPinMasks.testBit w else (s.pinMask (u - 1)).testBit w)

/-- The tree bits after way `w` is used: each node on its path points away from it. Node 1 is the root, node `i` has the
children `2 i` and `2 i + 1`. -/
def plruTouch (bits w : Nat) : Nat :=
  (List.range 4).foldl (fun b d =>
    let node := 2 ^ d + w / 2 ^ (4 - d)
    let dir := w / 2 ^ (3 - d) % 2
    if dir = 0 then b ||| 2 ^ node else b &&& (2 ^ 16 - 1 - 2 ^ node)) bits

/-- The way the tree points to among the eligible ones: at each node the side it points to, or the other side where that
one holds no eligible way (DESIGN CHOICE, log entry 10). -/
def plruVictim (bits : Nat) (ok : Nat → Bool) : Nat → Nat → Nat → Nat
  | 0, _, w => w
  | d + 1, node, w =>
    let any (side : Nat) := (List.range (2 ^ d)).any (fun i => ok ((w * 2 + side) * 2 ^ d + i))
    let side := if bits.testBit node then 1 else 0
    let side := if any side then side else 1 - side
    plruVictim bits ok d (2 * node + side) (w * 2 + side)

def State.touch (s : State) (k w : Nat) : State :=
  { s with plru := Tab.set 0 s.plru (llcIndex k) (plruTouch (Tab.get 0 s.plru (llcIndex k)) w) }

/-- Put a sector's dirty bytes to the home: a DIRTY sector whole, with its poison (R348); a PARTIAL sector through its
mask, lost where the stored sector is poisoned (R330). Counts LLC_WB_BYTES of the line's partition. -/
def State.writeBack (s : State) (part base : Nat) (x : Sector) : State :=
  if !x.dirty then s
  else if x.valid then
    (s.setPoison base x.poison).bump F.LLC_WB_BYTES_BYTES part 32
  else if s.poisonAt base then
    { s with mem := memStore s.mem base x.stale }
  else s.bump F.LLC_WB_BYTES_BYTES part (popcount 32 x.mask)

/-- The state of a sector after a write-back (Table 9-4, FLUSH). -/
def Sector.flushed (x : Sector) : Sector :=
  if !x.dirty then x else if x.valid then { x with dirty := false, stale := [] } else Sector.invalid

/-- Write back every dirty sector of a line. -/
def State.writeBackLine (s : State) (base : Nat) (l : Line) : State :=
  (List.range 4).foldl (fun s i => s.writeBack l.part (base + 32 * i) (l.sectors.getD i Sector.invalid)) s

/-- Drop a line without write-back: the home's own bytes stand again (R333, R344). -/
def State.dropLine (s : State) (key : Nat) : State :=
  match Tab.find? s.llc key with
  | none => s
  | some l =>
    let base := llcBase (key / 16) l.tag
    let m := (List.range 4).foldl (fun m i =>
      let x := l.sectors.getD i Sector.invalid
      if x.dirty then memStore m (base + 32 * i) x.stale else m) s.mem
    { s with mem := m, llc := Tab.erase s.llc key }

/-- Free a way for a line of DPA `k`: an eligible empty way, lowest first, or the victim of R330, written back. `none`
where no way is eligible. -/
def State.llcVictim (s : State) (k : Nat) : Option (Nat × State) :=
  let idx := llcIndex k
  match (List.range 16).find? (fun w => s.wayEligible k w && (Tab.find? s.llc (idx * 16 + w)).isNone) with
  | some w => some (w, s)
  | none =>
    if (List.range 16).any (s.wayEligible k) then
      let w := plruVictim (Tab.get 0 s.plru idx) (s.wayEligible k) 4 1 0
      match Tab.find? s.llc (idx * 16 + w) with
      | some l =>
        let s := s.writeBackLine (llcBase idx l.tag) l
        some (w, { s with llc := Tab.erase s.llc (idx * 16 + w) })
      | none => some (w, s)
    else none

/-- Replace sector `i` of the line at way `w`, allocating the line first where it is absent. -/
def State.putSector (s : State) (part k w : Nat) (x : Sector) : State :=
  let key := llcIndex k * 16 + w
  let l := (Tab.find? s.llc key).getD
    { tag := llcTag k, part := part, sectors := List.replicate 4 Sector.invalid }
  let s := { s with llc := Tab.put s.llc key { l with sectors := setAt l.sectors (bitsOf k 5 2) x } }
  s.touch k w

/-- How an access allocates (Table 9-2). -/
inductive Alloc where
  /-- Sorter, BAR4, device stage, instruction fetch -/
  | cached
  /-- engine bulk data -/
  | bulk
  deriving DecidableEq, Repr

/-- The byte mask of `n` bytes at offset `o` of a sector. -/
def byteMask (o n : Nat) : Nat := (2 ^ n - 1) * 2 ^ o

def fullMask : Nat := 2 ^ 32 - 1

/-- Read `n` bytes at `k`, all in one sector of Meadow: whether the read meets poison, and the cache after it (R328,
Table 9-2). `part` owns the home. -/
def State.readSector (s : State) (a : Alloc) (part k n : Nat) : Bool × State :=
  let base := k / 32 * 32
  match s.llcWay k with
  | some w =>
    let l := (Tab.find? s.llc (llcIndex k * 16 + w)).getD { tag := 0, part := part, sectors := [] }
    let x := l.sectors.getD (bitsOf k 5 2) Sector.invalid
    let m := byteMask (k % 32) n
    if x.valid || (x.dirty && x.mask &&& m == m) then
      (x.valid && x.poison, (s.touch k w).bump F.LLC_HIT_SECTORS_COUNT part 1)
    else
      let bad := s.poisonAt k
      let s := s.bump F.LLC_MISS_SECTORS_COUNT part 1
      if x.dirty then (bad, s.putSector part k w { x with valid := true, mask := fullMask, poison := bad })
      else if a = .cached then
        (bad, s.putSector part k w { valid := true, dirty := false, mask := fullMask, poison := bad, stale := [] })
      else (bad, s)
  | none =>
    let bad := s.poisonAt base
    let s := s.bump F.LLC_MISS_SECTORS_COUNT part 1
    if a = .cached || Tab.get 0 s.pinUnits (k / 65536) ≠ 0 then
      match s.llcVictim k with
      | some (w, s) => (bad, s.putSector part k w { valid := true, dirty := false, mask := fullMask, poison := bad, stale := [] })
      | none => (bad, s)
    else (bad, s)

/-- A sector after bytes with mask `m` are written into it; `old` is what the home holds (R327, R348). -/
def Sector.written (x : Sector) (m : Nat) (old : List Byte) : Sector :=
  let stale := if x.dirty then x.stale else old
  if m == fullMask then { valid := true, dirty := true, mask := fullMask, poison := false, stale }
  else if x.valid then { x with dirty := true, stale }
  else
    let mask := x.mask ||| m
    { valid := mask == fullMask, dirty := true, mask, poison := false, stale }

/-- Write bytes at `k`, all in one sector of Meadow (Table 9-2). -/
def State.writeSector (s : State) (a : Alloc) (part k : Nat) (bs : List Byte) : State :=
  let base := k / 32 * 32
  let m := byteMask (k % 32) bs.length
  let old := s.bytes base 32
  let direct := ({ s with mem := memStore s.mem k bs }).setPoison k (if m == fullMask then false else s.poisonAt k)
  match s.llcWay k with
  | some w =>
    let l := (Tab.find? s.llc (llcIndex k * 16 + w)).getD { tag := 0, part := part, sectors := [] }
    let x := l.sectors.getD (bitsOf k 5 2) Sector.invalid
    if a = .bulk && m == fullMask && (x.valid || x.dirty) then
      direct.putSector part k w { valid := true, dirty := false, mask := fullMask, poison := false, stale := [] }
    else if a = .bulk && m == fullMask && Tab.get 0 s.pinUnits (k / 65536) = 0 then direct
    else ({ s with mem := memStore s.mem k bs }).putSector part k w (x.written m old)
  | none =>
    if a = .bulk && m == fullMask && Tab.get 0 s.pinUnits (k / 65536) = 0 then direct
    else match s.llcVictim k with
      | some (w, s) =>
        ({ s with mem := memStore s.mem k bs }).putSector part k w (Sector.invalid.written m old)
      | none => direct

/-- Split `n` bytes from `k` at sector boundaries; `fuel` bounds the number of pieces. -/
def pieces : Nat → Nat → Nat → List (Nat × Nat)
  | 0, _, _ => []
  | f + 1, k, n => if n = 0 then [] else
    let m := min n (32 - k % 32)
    (k, m) :: pieces f (k + m) (n - m)

/-- The sector pieces of a run of `n` bytes at `k`. -/
def sectors (k n : Nat) : List (Nat × Nat) := pieces (n / 32 + 2) k n

/-- Read a run at a location: whether it meets poison, the bytes, the state. Heath and Moor bypass the cache (section
8.3, Edges). -/
def State.physRead (s : State) (a : Alloc) (part k n : Nat) : Bool × List Byte × State :=
  let r := (sectors k n).foldl (fun (r : Bool × State) (x : Nat × Nat) =>
    if isMeadow x.1 then
      let (bad, s) := r.2.readSector a part x.1 x.2
      (r.1 || bad, s)
    else (r.1 || r.2.poisonAt x.1, r.2)) (false, s)
  (r.1, s.bytes k n, r.2)

/-- The first byte offset at which a run meets poison, if it does (R242). -/
def State.poisonOffset (s : State) (k n : Nat) : Option Nat :=
  match (sectors k n).find? (fun x =>
    match (if isMeadow x.1 then s.llcLine x.1 else none) with
    | some l =>
      let y := l.sectors.getD (bitsOf x.1 5 2) Sector.invalid
      let m := byteMask (x.1 % 32) x.2
      if y.valid then y.poison else if y.dirty && y.mask &&& m == m then false else s.poisonAt x.1
    | none => s.poisonAt x.1) with
  | some x => some (x.1 - k)
  | none => none

/-- Write a run at a location. A write that covers a whole sector clears its poison (R348, R607). -/
def State.physWrite (s : State) (a : Alloc) (part k : Nat) (bs : List Byte) : State :=
  (sectors k bs.length).foldl (fun s x =>
    let b := bytesAt bs (x.1 - k) x.2
    if isMeadow x.1 then s.writeSector a part x.1 b
    else
      let s := if x.2 = 32 then s.setPoison x.1 false else s
      { s with mem := memStore s.mem x.1 b }) s

/-- Keys of the lines that hold bytes of `lo ≤ DPA < hi`. -/
def State.linesIn (s : State) (lo hi : Nat) : List Nat :=
  (s.llc.filter (fun e =>
    let b := llcBase (e.1 / 16) e.2.tag
    decide (lo < b + 128) && decide (b < hi))).map (·.1)

/-- Invalidate the sectors of `lo ≤ DPA < hi` without write-back (R333). A sector partly outside the range cannot occur:
space is freed in units of 64 bytes and granules. -/
def State.dropSectors (s : State) (lo hi : Nat) : State :=
  (s.linesIn lo hi).foldl (fun s key =>
    match Tab.find? s.llc key with
    | none => s
    | some l =>
      let base := llcBase (key / 16) l.tag
      let inside (i : Nat) := decide (lo ≤ base + 32 * i) && decide (base + 32 * i < hi)
      let m := (List.range 4).foldl (fun m i =>
        let x := l.sectors.getD i Sector.invalid
        if inside i && x.dirty then memStore m (base + 32 * i) x.stale else m) s.mem
      let xs := (List.range 4).map (fun i => if inside i then Sector.invalid else l.sectors.getD i Sector.invalid)
      if xs.all (fun x => !x.valid && !x.dirty) then { s with mem := m, llc := Tab.erase s.llc key }
      else { s with mem := m, llc := Tab.put s.llc key { l with sectors := xs } }) s

/-- Invalidate every line of a partition without write-back, pinned lines included (R344). -/
def State.dropPartLines (s : State) (p : Nat) : State :=
  ((s.llc.filter (fun e => e.2.part == p)).map (·.1)).foldl (fun s k => s.dropLine k) s

/-- FLUSH of `lo ≤ DPA < hi`: dirty sectors reach their homes; lines stay (Table 9-4). -/
def State.flushLines (s : State) (lo hi : Nat) : State :=
  (s.linesIn lo hi).foldl (fun s key =>
    match Tab.find? s.llc key with
    | none => s
    | some l =>
      let s := s.writeBackLine (llcBase (key / 16) l.tag) l
      let xs := l.sectors.map Sector.flushed
      if xs.all (fun x => !x.valid && !x.dirty) then { s with llc := Tab.erase s.llc key }
      else { s with llc := Tab.put s.llc key { l with sectors := xs } }) s

/-- Drop clean lines of `lo ≤ DPA < hi` (EVICT after its flush). -/
def State.evictLines (s : State) (lo hi : Nat) : State :=
  (s.linesIn lo hi).foldl (fun s key => { s with llc := Tab.erase s.llc key }) s

/-- Zero a freed or new range in its home, clearing poison (R284, R290). -/
def State.zeroHome (s : State) (k n : Nat) : State :=
  { s with
    mem := memZero s.mem k (k + n)
    poison := Tab.keep (fun j => !(decide (k / 32 ≤ j) && decide (j < (k + n) / 32))) s.poison }

end Sys2Proof.Machine
end

