-- ==== Sys2Proof/Machine/Space.lean ====
section
/-! DEFINITION. Space in the three tiers: capacities, the allocators, occupancy against quota, and the zeroing of freed
space (R55, R110 to R113, R279 to R284, R299, R684, R689). -/

namespace Sys2Proof.Machine

def gib : Nat := 2 ^ 30

/-- The stacks of die `n` that are online. -/
def State.stacksOn (s : State) (n : Nat) : Nat := popcount 2 (s.rd F.SYS_HBM_STATUS_ONLINE 0 / 4 ^ n)

/-- Die `n` is online. -/
def State.meadowOn (s : State) (n : Nat) : Bool := (s.rd F.SYS_TOPOLOGY_MEADOW_ONLINE 0).testBit n

/-- The online dies in ascending order. -/
def State.onlineDies (s : State) : List Nat := (List.range 4).filter s.meadowOn

/-- Stack `i` = Mn.Hk, `i = 2n + k`, is online (R29). -/
def State.stackOnline (s : State) (i : Nat) : Bool := (s.rd F.SYS_HBM_STATUS_ONLINE 0).testBit i

/-- Bytes of die `n`'s offset range (Table 8-1). -/
def State.dieCap (s : State) (n : Nat) : Nat := if s.meadowOn n then s.stacksOn n * 48 * gib else 0

/-- The device reserve's share on die `n`: 1 GiB for a die online at the end of start-up, and on M0 the shares of the
others (R689). -/
def State.reserveShare (s : State) (n : Nat) : Nat :=
  let c := popcount 4 s.boot.startDies
  if n = 0 then (5 - c) * gib else if s.boot.startDies.testBit n then gib else 0

/-- Online Meadow capacity (R111). -/
def State.meadowCap (s : State) : Nat := (List.range 4).foldl (fun a n => a + s.dieCap n) 0

/-- Meadow capacity that quotas may share: online capacity less 4 GiB and less 4 KiB for each retired page (R111, R620). -/
def State.meadowAssignable (s : State) : Nat := s.meadowCap - 4 * gib - s.err.retired.length * 4096

/-- State of x16 port `n`'s Heath: 0 UP, 1 DOWN, 2 LOST (Table 8-18). -/
def State.heathState (s : State) (n : Nat) : Nat := bitsOf (s.rd F.TIER_HEATH_STATE_PORT 0) (2 * n) 2
def State.setHeathState (s : State) (n v : Nat) : State :=
  let w := s.rd F.TIER_HEATH_STATE_PORT 0
  s.wr F.TIER_HEATH_STATE_PORT 0 (w - bitsOf w (2 * n) 2 * 4 ^ n + v * 4 ^ n)

/-- State of Moor target `t`. -/
def State.moorState (s : State) (t : Nat) : Nat := bitsOf (s.rd F.TIER_MOOR_STATE_TARGET 0) (2 * t) 2
def State.setMoorState (s : State) (t v : Nat) : State :=
  let w := s.rd F.TIER_MOOR_STATE_TARGET 0
  s.wr F.TIER_MOOR_STATE_TARGET 0 (w - bitsOf w (2 * t) 2 * 4 ^ t + v * 4 ^ t)

/-- The mapped Heath regions: port, first offset, size in bytes (R281). -/
def State.regions (s : State) : List (Nat × Nat × Nat) :=
  ((List.range 16).filter (fun i => s.rdb F.TIER_HEATH_RGN_VALID i)).map (fun i =>
    (s.rd F.TIER_HEATH_RGN_PORT i, s.rd F.TIER_HEATH_RGN_BASE i * 2 ^ 28, s.rd F.TIER_HEATH_RGN_SIZE i * 2 ^ 28))

/-- The port of a Heath location. -/
def State.heathPort (s : State) (k : Nat) : Nat :=
  match s.regions.find? (fun r => decide (heathKey r.2.1 ≤ k) && decide (k < heathKey (r.2.1 + r.2.2))) with
  | some r => r.1
  | none => 0

/-- The target of a Moor location. -/
def moorTarget (k : Nat) : Nat := (k - 2 ^ 100) / 2 ^ 72

/-- Two byte ranges meet. -/
def overlaps (a n b m : Nat) : Bool := decide (a < b + m) && decide (b < a + n)

/-- The least of a list of numbers. -/
def leastOf : List Nat → Option Nat
  | [] => none
  | a :: t => match leastOf t with
    | none => some a
    | some b => some (min a b)

/-- The lowest aligned place in `lo` to `hi` where `len` bytes fit beside the obstacles. -/
def firstFit (lo hi align len : Nat) (obs : List (Nat × Nat)) : Option Nat :=
  let up (x : Nat) := ceilDiv x align * align
  leastOf (((up lo) :: obs.map (fun o => up (o.1 + o.2))).filter (fun c =>
    decide (lo ≤ c) && decide (c + len ≤ hi) && obs.all (fun o => !overlaps c len o.1 o.2)))

/-- What partition `p` may not allocate over: allocated runs, ranges another partition freed or a reset or start-up left
to be zeroed (R284, R526, R684), retired pages (R620). -/
def State.obstacles (s : State) (p : Nat) : List (Nat × Nat) :=
  s.space.map (fun e => (e.1, e.2.len)) ++
  ((s.zeroQ.filter (fun z => z.part != p || z.why != .normal)).map (fun z => (z.key, z.len))) ++
  s.err.retired.map (fun e => (e.1 * 4096, 4096))

/-- Place `len` bytes on die `n` (Meadow allocation takes the lowest free offset: DESIGN CHOICE, log entry 11). -/
def State.fitMeadow (s : State) (p n align len : Nat) : Option Nat :=
  let lo := n * 2 ^ 39
  if s.meadowOn n then firstFit lo (lo + (s.dieCap n - s.reserveShare n)) align len (s.obstacles p) else none

/-- Place `len` bytes on `n`, or on the next online die in ascending order modulo 4 (R299). -/
def State.fitMeadowFrom (s : State) (p n align len : Nat) : Option Nat :=
  ((List.range 4).map (fun i => (n + i) % 4)).findSome? (fun d => s.fitMeadow p d align len)

/-- Free Heath bytes of a port. -/
def State.heathFree (s : State) (port : Nat) : Nat :=
  let size := (s.regions.filter (fun r => r.1 == port)).foldl (fun a r => a + r.2.2) 0
  let used := (s.space.filter (fun e => homeOf e.1 = .heath && s.heathPort e.1 == port)).foldl (fun a e => a + e.2.len) 0
  size - used

/-- The members of a list in falling order of `f`, the earlier first on a tie. -/
def byMost (f : Nat → Nat) : List Nat → List Nat
  | [] => []
  | a :: t =>
    let r := byMost f t
    r.takeWhile (fun b => decide (f a < f b)) ++ a :: r.dropWhile (fun b => decide (f a < f b))

/-- Place `len` bytes in Heath: the UP port with the most free space, then the lowest offset in its regions (R283). -/
def State.fitHeath (s : State) (p align len : Nat) : Option Nat :=
  let ports := (List.range 8).filter (fun n => s.heathState n == 0 && s.regions.any (fun r => r.1 == n))
  (byMost s.heathFree ports).findSome? (fun n =>
    (s.regions.filter (fun r => r.1 == n)).findSome? (fun r =>
      firstFit (heathKey r.2.1) (heathKey (r.2.1 + r.2.2)) align len (s.obstacles p)))

/-- A Moor target that takes allocations: configured and UP (R282, R321). -/
def State.moorUp (s : State) (t : Nat) : Bool :=
  let c := s.rd F.TIER_MOOR_TGT_CONN t
  (match s.rd F.TIER_MOOR_TGT_KIND t with
    | 1 => s.rd F.CRR_NVME_STATUS_STATE c == 2
    | 2 => s.rd F.CRR_CONN_STATE_STATE c == 3
    | _ => false) && s.moorState t == 0

/-- Free blocks of a Moor target. -/
def State.moorFree (s : State) (t : Nat) : Nat :=
  s.rd F.TIER_MOOR_TGT_BLOCKS t -
    (s.space.filter (fun e => homeOf e.1 = .moor && moorTarget e.1 == t)).foldl (fun a e => a + ceilDiv e.2.len 4096) 0

/-- Place `len` bytes in Moor: whole 4 KiB blocks on the UP target with the most free blocks (R282). -/
def State.fitMoor (s : State) (p align len : Nat) : Option Nat :=
  (byMost s.moorFree ((List.range 16).filter s.moorUp)).findSome? (fun t =>
    firstFit (moorKey t 0) (moorKey t (s.rd F.TIER_MOOR_TGT_BLOCKS t * 4096)) (max align 4096)
      (ceilDiv len 4096 * 4096) (s.obstacles p))

/-- Occupancy of a tier in bytes; tier 0 Meadow, 1 Heath, 2 Moor. -/
def State.occupancy (s : State) (p t : Nat) : Nat := Tab.get 0 s.occ (3 * p + t)

/-- The quota register of a tier, in units of 64 KiB (Table 3-13). -/
def State.quotaUnits (s : State) (p t : Nat) : Nat :=
  match t with
  | 0 => s.rd F.TIER_QUOTA_MEADOW_UNITS p
  | 1 => s.rd F.TIER_QUOTA_HEATH_UNITS p
  | _ => s.rd F.TIER_QUOTA_MOOR_UNITS p

/-- Occupancy plus `n` stays within quota (R110). -/
def State.quotaFits (s : State) (p t n : Nat) : Bool := decide (s.occupancy p t + n ≤ s.quotaUnits p t * 65536)

def State.setOcc (s : State) (p t n : Nat) : State := { s with occ := Tab.set 0 s.occ (3 * p + t) n }

/-- The tier number of a home. -/
def Home.tier : Home → Nat
  | .heath => 1
  | .moor => 2
  | _ => 0

/-- Place and charge `len` bytes of a home: quota first, then physical space (R110, R111). Meadow starts at `die`. -/
def State.reserve (s : State) (p : Nat) (h : Home) (die align len : Nat) (kind : OwnKind) : Option (Nat × State) :=
  if !s.quotaFits p h.tier len then none
  else
    let place := match h with
      | .heath => s.fitHeath p align len
      | .moor => s.fitMoor p align len
      | _ => s.fitMeadowFrom p die align len
    match place with
    | none => none
    | some k =>
      let len' := if h = .moor then ceilDiv len 4096 * 4096 else ceilDiv len 64 * 64
      let z := s.zeroQ.flatMap (fun z =>
        if overlaps z.key z.len k len' then
          (if z.key < k then [{ z with len := k - z.key }] else []) ++
          (if k + len' < z.key + z.len then [{ z with key := k + len', len := z.key + z.len - (k + len') }] else [])
        else [z])
      some (k, { s.setOcc p h.tier (s.occupancy p h.tier + len) with
        space := Tab.put s.space k { part := p, len := len', kind := kind }, zeroQ := z })

/-- Release `n` bytes of a partition's charge. -/
def State.uncharge (s : State) (p t n : Nat) : State := s.setOcc p t (s.occupancy p t - n)

/-- Free the allocated run at `k`: its cached sectors go without write-back (R333), its space waits to be zeroed (R284). -/
def State.freeRun (s : State) (k : Nat) (why : ZeroWhy) : State :=
  match Tab.find? s.space k with
  | none => s
  | some e =>
    let s := if isMeadow k then s.dropSectors k (k + e.len) else s
    { s with
      space := Tab.erase s.space k
      zeroQ := s.zeroQ ++ [{ key := k, len := e.len, part := e.part, why := why }] }

/-- Trim the run at `k` to `len` bytes, freeing its tail (R54: the commit trims the reservation). -/
def State.trimRun (s : State) (k len : Nat) : State :=
  match Tab.find? s.space k with
  | none => s
  | some e =>
    let len' := if homeOf k = .moor then ceilDiv len 4096 * 4096 else ceilDiv len 64 * 64
    if len' < e.len then
      let s := if isMeadow k then s.dropSectors (k + len') (k + e.len) else s
      { s with
        space := Tab.put s.space k { e with len := len' }
        zeroQ := s.zeroQ ++ [{ key := k + len', len := e.len - len', part := e.part, why := .normal }] }
    else s

/-- Bytes of partition `p` freed by a reset or a fatal quench and not yet zeroed (PART_ZERO_PENDING, R526). -/
def State.partZeroPending (s : State) (p : Nat) : Nat :=
  (s.zeroQ.filter (fun z => z.why = .reset && z.part == p)).foldl (fun a z => a + z.len) 0

/-- Bytes still to be zeroed since start-up (SYS_ZERO_PENDING). -/
def State.sysZeroPending (s : State) : Nat :=
  (s.zeroQ.filter (fun z => z.why = .boot)).foldl (fun a z => a + z.len) 0

/-- The memory, Heath port or Moor target that holds a location (R684): 0 to 3 the dies, 16 + n port n, 32 + t target t. -/
def State.unitOf (s : State) (k : Nat) : Nat :=
  match homeOf k with
  | .heath => 16 + s.heathPort k
  | .moor => 32 + moorTarget k
  | _ => dieOf k

end Sys2Proof.Machine
end

