-- ==== Sys2Proof/Machine/Base.lean ====
section
/-! DEFINITION. Functions, interrupts, leases, the dead-letter log and the error latches: what every chapter reports
through (R426, R429, R453, R516 to R518, R623 to R627). -/

namespace Sys2Proof.Machine

/-- The function whose requester ID partition `p` uses on the HOST port (R424, R426). -/
def State.fnOf (s : State) (p : Nat) : Nat := if p ≤ s.host.numVfs then p else 0

/-- Bus Master Enable of a function. -/
def State.busMaster (s : State) (fn : Nat) : Bool :=
  if 64 ≤ fn then s.host.portBme.testBit (fn - 64) else s.rdb F.HOST_FN_STATUS_BME fn

/-- Vectors of a function (R429). -/
def vectorCount (fn : Nat) : Nat := if fn = 0 then 2048 else 64

def State.setPba (s : State) (fn v : Nat) (b : Bool) : State :=
  { s with host := { s.host with pba := Tab.set false s.host.pba (fn * 2048 + v) b } }

/-- The held entries of a function (R453). -/
def State.heldOf (s : State) (fn : Nat) : List Held := Tab.get [] s.host.held fn

def State.setHeld (s : State) (fn : Nat) (l : List Held) : State :=
  ({ s with host := { s.host with held := Tab.set [] s.host.held fn l } }).wr F.HOST_FN_STATUS_PENDING fn l.length

/-- Send an MSI-X message: a masked vector sets its PBA bit; without bus mastering the message is held, merged with one
already held (R429, R453). A message that finds the buffer full sets its PBA bit and PENDING_FULL (DESIGN CHOICE, log
entry 12). -/
def State.msix (s : State) (fn v : Nat) : State :=
  if !Tab.get false s.host.unmasked (fn * 2048 + v) then s.setPba fn v true
  else if s.busMaster fn && (s.heldOf fn).isEmpty then s.emit (.msix fn v)
  else
    let l := s.heldOf fn
    if l.contains (.message v) then s
    else if l.length < 512 then (s.setHeld fn (l ++ [.message v])).setPba fn v true
    else (s.setPba fn v true).flag F.HOST_FN_STATUS_PENDING_FULL fn

/-- Raise interrupt source `src` of partition `p` (Table 12-3). -/
def State.irq (s : State) (p src : Nat) : State :=
  if s.rdb F.HOST_IRQ_MAP_EN (8 * p + src) then s.msix (s.fnOf p) (s.rd F.HOST_IRQ_MAP_VECTOR (8 * p + src)) else s

/-- Lease kinds of Table 14-5. -/
def leaseChannel : Nat := 1
def leaseRing : Nat := 2
def leaseSync : Nat := 3
def leaseConn : Nat := 4
def leasePin : Nat := 5
def leaseBaler : Nat := 6
def leaseTedder : Nat := 7

/-- A lease instance. -/
def State.lease (s : State) (kind i : Nat) : Lease := Tab.get Lease.free s.leases (kind * 4096 + i)
def State.setLease (s : State) (kind i : Nat) (l : Lease) : State :=
  { s with leases := Tab.set Lease.free s.leases (kind * 4096 + i) l }

def nextEpoch (e : Nat) : Nat := (e + 1) % 2 ^ 32

/-- Grant or renew an instance to `p`: its epoch advances (R517). -/
def State.grantLease (s : State) (kind i p : Nat) : State :=
  s.setLease kind i { state := 1, holder := p, epoch := nextEpoch (s.lease kind i).epoch }

/-- The instance is held by `p`. -/
def State.holds (s : State) (kind i p : Nat) : Bool := (s.lease kind i).state == 1 && (s.lease kind i).holder == p

/-- Advance the epoch of every lease a partition holds (R525 step 2, R529). -/
def State.advanceEpochs (s : State) (p : Nat) : State :=
  { s with leases := Tab.mapVals (fun _ => Lease.free) (fun _ l =>
      if l.state ≠ 0 ∧ l.holder = p then { l with epoch := nextEpoch l.epoch } else l) s.leases }

/-- A result dropped by the epoch check (R518). -/
def State.epochDrop (s : State) (p : Nat) : State := s.sat F.PART_EPOCH_DROPS_COUNT p 1

/-- The plan side of a partition. -/
def State.plan (s : State) (p : Nat) : PlanState := Tab.get PlanState.empty s.plans p
def State.setPlan (s : State) (p : Nat) (x : PlanState) : State :=
  { s with plans := Tab.set PlanState.empty s.plans p x }

/-- PART_STATE codes (Table 14-2). -/
def partActive : Nat := 0
def partResetting : Nat := 1
def partFatal : Nat := 2

def State.partState (s : State) (p : Nat) : Nat := s.rd F.PART_STATE_STATE p

/-- Issue, intake and commands of a partition are served: the device runs, and the partition is ACTIVE (R524, R529,
R630). -/
def State.served (s : State) (p : Nat) : Bool :=
  !s.pins.held && !s.err.deviceStop && s.partState p == partActive

/-- A dead-letter entry's content (Table 17-3); TIME, SEQ and CRC are filled in where it is written. -/
structure Dead where
  kind : Nat
  source : Nat
  status : Nat
  handle : Nat
  tile : Nat
  gen : Nat
  addr : Nat
  addrKind : Nat
  dispBefore : Nat
  dispAfter : Nat
  stateAfter : Nat
  step : Nat
  detail : Nat
  deriving DecidableEq, Repr

/-- An entry that names nothing. -/
def Dead.plain (kind source status detail : Nat) : Dead :=
  { kind, source, status, handle := 0, tile := 0, gen := 0, addr := 0, addrKind := 0, dispBefore := 0, dispAfter := 0
    stateAfter := 0, step := 0, detail }

/-- The first 56 bytes of an entry (Table 17-3). -/
def Dead.bytes (d : Dead) (seq time : Nat) : List Byte :=
  let die := if d.addrKind = 1 then bitsOf d.addr 39 2 else 0
  let stack := if d.addrKind = 1 then bitsOf d.addr 8 1 else 0
  leBytes 8 (low 8 d.kind + low 8 d.source * 2 ^ 8 + low 16 d.status * 2 ^ 16 + low 32 seq * 2 ^ 32) ++
  leBytes 8 time ++
  leBytes 8 (low 32 d.handle + low 24 d.tile * 2 ^ 32 + low 8 d.gen * 2 ^ 56) ++
  leBytes 8 d.addr ++
  leBytes 8 (low 4 d.addrKind + die * 2 ^ 4 + stack * 2 ^ 6 + low 3 d.dispBefore * 2 ^ 8 + low 3 d.dispAfter * 2 ^ 11 +
    low 2 d.stateAfter * 2 ^ 14 + low 32 d.step * 2 ^ 32) ++
  leBytes 8 d.detail ++ leBytes 8 0

/-- Store the words of an entry in the log's window. -/
def State.putDls (s : State) (p slot : Nat) (b : List Byte) : State :=
  (List.range 8).foldl (fun s w =>
    s.setReg Reg.DLS_ENTRY (p * 2048 + 8 * slot + w) (BitVec.ofNat 64 (fieldAt b (8 * w) 8))) s

/-- Write a dead-letter entry of partition `p` and raise DEADLETTER (R623). A full log takes no entry. A partition in
FATAL gets none beyond PARTITION_FATAL (Table 17-2). -/
def State.deadLetter (s : State) (p : Nat) (d : Dead) : State :=
  let prod := s.rd F.DLS_PROD_COUNT p
  let cons := s.rd F.DLS_CONS_COUNT p
  if s.partState p == partFatal && d.kind != 6 then s
  else if (prod + 2 ^ 32 - cons) % 2 ^ 32 ≥ 256 then
    (s.sat F.DLS_DROPPED_COUNT p 1).flag F.DLS_STATUS_OVERFLOW p
  else
    let b := d.bytes (prod + s.rd F.DLS_DROPPED_COUNT p) s.time
    let s := s.putDls p (prod % 256) (b ++ leBytes 4 (crc32c b).toNat ++ leBytes 4 0)
    (s.wr F.DLS_PROD_COUNT p (prod + 1)).irq p 5

/-- Latch a logged translation event (R293). -/
def State.dtuFault (s : State) (p kind agent addr : Nat) (write : Bool) : State :=
  let s := if s.rdb F.DTU_FAULT_INFO_VALID p then s.sat F.DTU_FAULT_INFO_COUNT p 1
    else
      let s := s.wr F.DTU_FAULT_ADDR_ADDR p addr
      let s := (s.wr F.DTU_FAULT_INFO_KIND p kind).wrb F.DTU_FAULT_INFO_WRITE p write
      ((s.wr F.DTU_FAULT_INFO_AGENT p agent).wr F.DTU_FAULT_INFO_VALID p 1).wr F.DTU_FAULT_INFO_COUNT p 1
  s.irq p 3

/-- The HBM4 site of a DPA: 2 n + k for Mn.Hk (R280, Table 17-9). -/
def State.siteOf (s : State) (k : Nat) : Nat :=
  let n := dieOf k
  if s.stacksOn n = 2 then 2 * n + bitsOf k 8 1 else if s.stackOnline (2 * n) then 2 * n else 2 * n + 1

/-- Count an uncorrectable HBM4 error and latch the first (R609, R637). -/
def State.countUe (s : State) (source k : Nat) : State :=
  let site := s.siteOf k
  let s := (s.sat F.ERR_UE_HBM_COUNT site 1).flag F.ERR_STATUS_HBM_UE 0
  if s.rdb F.ERR_FIRST_INFO_VALID 0 then s
  else (((s.wr F.ERR_FIRST_INFO_SOURCE 0 source).wr F.ERR_FIRST_INFO_SITE 0 site).wr F.ERR_FIRST_INFO_VALID 0 1).wr
    F.ERR_FIRST_ADDR_DPA 0 k

end Sys2Proof.Machine
end

