-- ==== Sys2Proof/Machine/Tiles.lean ====
section
/-! DEFINITION. Tile records: their keys, their layout, counts per disposition, release, loss and heal (chapter 2, R616). -/

namespace Sys2Proof.Machine

/-- DISP codes (Table 0-5). -/
def Disp.code : Disp → Nat
  | .keep => 0
  | .hold => 1
  | .press => 2
  | .spill => 3
  | .sink => 4
  | .regrow => 5
  | .ret => 6
  | .drop => 7

def Disp.ofCode (n : Nat) : Disp :=
  match n with
  | 0 => .keep
  | 1 => .hold
  | 2 => .press
  | 3 => .spill
  | 4 => .sink
  | 5 => .regrow
  | 6 => .ret
  | _ => .drop

/-- STATE codes (Table 2-3). -/
def TState.code : TState → Nat
  | .resident => 0
  | .inFlight => 1
  | .lost => 2
  | .released => 3

/-- The key of a tile record. -/
def tileKey (p obj tile : Nat) : Nat := p * 2 ^ 51 + obj * 2 ^ 24 + tile

/-- The handle of an object (Table 2-2). -/
def handleOf (p obj : Nat) : Nat := p * 2 ^ 27 + obj

def State.tile (s : State) (p obj tile : Nat) : TileRec := Tab.get TileRec.fresh s.tiles (tileKey p obj tile)

/-- The object table entry of an object index. -/
def State.obj? (s : State) (p obj : Nat) : Option ObjEntry :=
  match (s.plan p).plan with
  | some pl => pl.objects.find? (fun o => o.index == obj)
  | none => none

/-- The raw size of a tile of an object. -/
def State.tileSize (s : State) (p obj : Nat) : Nat :=
  match s.obj? p obj with
  | some o => 4096 * 2 ^ o.sizeCode
  | none => 4096

/-- The tile is in the object's extent. -/
def State.tileExists (s : State) (p obj tile : Nat) : Bool :=
  match s.obj? p obj with
  | some o => decide (tile < o.tiles)
  | none => false

/-- A record counts in PART_DISP_COUNT (Table 2-8). -/
def TileRec.live (r : TileRec) : Bool := r.state != .released

/-- Write a tile record. -/
def State.setTile (s : State) (p obj tile : Nat) (r : TileRec) : State :=
  { s with tiles := Tab.set TileRec.fresh s.tiles (tileKey p obj tile) r }

/-- PART_DISP_COUNT of a disposition: records not RELEASED with it (R65). -/
def State.dispCount (s : State) (p d : Nat) : Nat :=
  (s.tiles.filter (fun e => e.1 / 2 ^ 51 == p && e.2.live && e.2.disp.code == d)).length

/-- Words 0 to 3 of a record (Tables 2-2 to 2-5). -/
def TileRec.bytes (r : TileRec) (p obj tile sizeCode : Nat) : List Byte :=
  leBytes 8 (handleOf p obj + tile * 2 ^ 32 + low 4 sizeCode * 2 ^ 56 + r.disp.code * 2 ^ 60) ++
  leBytes 8 (r.state.code + r.home.code * 2 ^ 2 + b2n r.compressible * 2 ^ 4 + b2n r.regrowOk * 2 ^ 5 +
    b2n r.returnOk * 2 ^ 6 + b2n r.compressed * 2 ^ 7 + low 3 r.level * 2 ^ 8 + b2n r.replay * 2 ^ 11 +
    low 8 r.uses * 2 ^ 12 + low 16 r.step * 2 ^ 24 + low 16 r.layer * 2 ^ 40 + low 8 r.gen * 2 ^ 56) ++
  leBytes 8 r.location ++
  leBytes 8 (low 21 r.stored + low 11 r.rule * 2 ^ 21 + low 32 r.mta * 2 ^ 32)

/-- The byte of a tile record that lies at virtual address `va`, if one does. -/
def State.recordByte? (s : State) (p va : Nat) : Option Byte :=
  match (s.plan p).plan with
  | none => none
  | some pl => match pl.objects.find? (fun o => decide (o.recordBase ≤ va) && decide (va < o.recordBase + 32 * o.tiles)) with
    | some o =>
      let i := (va - o.recordBase) / 32
      some (((s.tile p o.index i).bytes p o.index i o.sizeCode).getD ((va - o.recordBase) % 32) 0)
    | none => none

/-- The memory key of a tile's LOCATION (Table 8-1). -/
def TileRec.key (r : TileRec) : Nat :=
  match r.home with
  | .moor => moorKey (r.location / 2 ^ 60) (r.location % 2 ^ 60 * 4096)
  | _ => r.location

/-- LOCATION of a memory key (Tables 2-4 and 8-1). -/
def locationOf (k : Nat) : Nat :=
  match homeOf k with
  | .moor => moorTarget k * 2 ^ 60 + (k - moorKey (moorTarget k) 0) / 4096
  | _ => k

/-- A record that holds no data: the home is cleared. -/
def TileRec.homeless (r : TileRec) : TileRec :=
  { r with home := .none, location := 0, stored := 0, compressed := false, mta := 0xFFFFFFFF }

/-- Free a tile's home and its charge (R55, R333). The record is written by the caller. -/
def State.freeTile (s : State) (p : Nat) (r : TileRec) (why : ZeroWhy) : State :=
  if r.home = .none then s
  else (s.uncharge p r.home.tier r.stored).freeRun r.key why

/-- A REGROW record's recipe inputs, as (object, tile) pairs: each input of the recipe names an object index and a tile
offset (chapter 7). The table is the one its rule names. -/
def State.recipeOf (s : State) (p : Nat) (r : TileRec) : Option Recipe :=
  match (s.plan p).active with
  | none => none
  | some rs => match rs.sieve[r.rule]? with
    | some e => rs.recipes[e.recipe]?
    | none => none

end Sys2Proof.Machine
end

