-- ==== Sys2Proof/Machine/Sync.lean ====
section
/-! DEFINITION. Sync objects: values, operations and the waiters an operation satisfies (sections 11.1 to 11.3). -/

namespace Sys2Proof.Machine

/-- The object lies in partition `p`'s range (R387). -/
def State.soInRange (s : State) (p n : Nat) : Bool :=
  let b := s.rd F.SO_RANGE_BASE p
  decide (b ≤ n) && decide (n < b + s.rd F.SO_RANGE_COUNT p)

/-- The partition whose range holds the object. -/
def State.soOwner (s : State) (n : Nat) : Option Nat := (List.range 32).find? (fun p => s.soInRange p n)

def State.soVal (s : State) (n : Nat) : Word := Tab.get 0 s.sos n

/-- The sync unit that holds the object works: its die is not fenced (R387, R633). -/
def State.soUsable (s : State) (n : Nat) : Bool := s.meadowOn (n / 1024)

/-- The value an operation leaves (R209, R389): 64-bit, wrapping. -/
def soApply (op : SoOp) (v x : Word) : Word :=
  match op with
  | .add => v + x
  | .set => x
  | .max => if v.ult x then x else v
  | .or => v ||| x

/-- The comparisons of WAIT (R208): GE, GT, EQ, NE, ANY, ALL, unsigned. -/
def soCmp (f : Nat) (v x : Word) : Bool :=
  match f with
  | 0 => !v.ult x
  | 1 => x.ult v
  | 2 => v == x
  | 3 => v != x
  | 4 => v &&& x != 0
  | _ => v &&& x == x

/-- Core `c`'s blocked WAIT ends with an outcome (R149, R150): RD takes it and the core runs on past the WAIT. -/
def State.wake (s : State) (c : Nat) (w : WaitRec) (outcome : Nat) : State :=
  let s := s.setCore c { s.core c with wait := none }
  let s := (s.setG c w.rd (BitVec.ofNat 64 outcome)).setCoreState c coreRunning
  (s.setPc c (s.pc c + 8)).bump F.SRT_INSTRET_COUNT c 1

/-- Wake every core whose WAIT on object `n` value `v` satisfies (R393). -/
def State.wakeCores (s : State) (n : Nat) (v : Word) : State :=
  (List.range 64).foldl (fun s c => match (s.core c).wait with
    | some w => if w.so = n && soCmp w.cmp v w.x then s.wake c w 0 else s
    | none => s) s

/-- Release every gated item whose gate object reaches its threshold (R188, R393). -/
def State.releaseGates (s : State) (n : Nat) (v : Word) : State :=
  { s with items := s.items.map (fun e =>
      match e.2.gate with
      | some (g, th) => if e.2.stage = .gated && g == n && decide (th ≤ v.toNat) then (e.1, { e.2 with stage := .queued })
          else e
      | none => e) }

/-- Watch `i` fires when it is armed and its object's value is at least its threshold (R394). -/
def State.fireWatch (s : State) (i : Nat) (n : Nat) (v : Word) : State :=
  if s.rdb F.SO_WATCH_CFG_ARM i && s.rd F.SO_WATCH_CFG_SO i == n && decide (s.rd F.SO_WATCH_VAL_THRESHOLD i ≤ v.toNat) then
    ((s.wr F.SO_WATCH_CFG_ARM i 0).flag F.SO_WATCH_CFG_FIRED i).msix (s.fnOf (i / 16)) (s.rd F.SO_WATCH_CFG_VECTOR i)
  else s

/-- A tracker's update (R397): `sample - rate` is signed and its shift arithmetic. -/
def trackerRate (rate lastV lastT shift v t : Nat) : Nat :=
  let sample := min ((t - lastT) / (v - lastV)) (2 ^ 32 - 1)
  ((rate : Int) + Int.shiftRight ((sample : Int) - rate) shift).toNat

/-- Tracker `k` (4 p + number) sees an operation on its object at the present TIME (R397). -/
def State.track (s : State) (k n : Nat) (v : Word) : State :=
  if !(s.rdb F.SO_PROG_CFG_EN k && s.rd F.SO_PROG_CFG_SO k == n) then s
  else
    let lv := s.rd F.SO_PROG_LAST_V_VALUE k
    let lt := s.rd F.SO_PROG_LAST_T_NS k
    if lv < v.toNat then
      let r := trackerRate (s.rd F.SO_PROG_RATE_NS k) lv lt (s.rd F.SO_PROG_CFG_SHIFT k) v.toNat s.time
      ((s.wr F.SO_PROG_RATE_NS k r).wr F.SO_PROG_LAST_V_VALUE k v.toNat).wr F.SO_PROG_LAST_T_NS k s.time
    else if v.toNat < lv then
      (s.wr F.SO_PROG_LAST_V_VALUE k v.toNat).wr F.SO_PROG_LAST_T_NS k s.time
    else s

/-- Evaluate every waiter of object `n` against the value an operation left (R393, R394, R397). Windows, prefetch streams
and walkers act at their own steps. -/
def State.soEvaluate (s : State) (n : Nat) (v : Word) : State :=
  let s := (s.wakeCores n v).releaseGates n v
  match s.soOwner n with
  | none => s
  | some p =>
    let s := (List.range 16).foldl (fun s i => s.fireWatch (16 * p + i) n v) s
    (List.range 4).foldl (fun s i => s.track (4 * p + i) n v) s

/-- An operation reaches object `n` of partition `p` (R388, R393). On a fenced die it is dropped and counted (R633);
under a revoked lease it is discarded (R395). -/
def State.soOp (s : State) (p n : Nat) (op : SoOp) (x : Word) : State :=
  if (s.lease leaseSync n).state = 2 then s
  else if !s.soUsable n then s.sat F.SO_DB_STATUS_COUNT p 1
  else
    let v := soApply op (s.soVal n) x
    ({ s with sos := Tab.set 0 s.sos n v }).soEvaluate n v

/-- An operation of the device's own mechanisms for partition `p`: outside the partition's range it is discarded
(R120, R395). -/
def State.soSignal (s : State) (p n : Nat) (op : SoOp) (x : Word) : State :=
  if s.soInRange p n then s.soOp p n op x else s

/-- The projection of a tracker (R398). -/
def State.proj (s : State) (k x : Nat) : Nat :=
  let lv := s.rd F.SO_PROG_LAST_V_VALUE k
  let lt := s.rd F.SO_PROG_LAST_T_NS k
  if x ≤ lv then lt else min (lt + (x - lv) * s.rd F.SO_PROG_RATE_NS k) (2 ^ 63 - 1)

end Sys2Proof.Machine
end

