-- ==== Sys2Proof/Machine/Vm.lean ====
section
/-! DEFINITION. Translation, protection and device virtual accesses (sections 8.2 and 8.3). -/

namespace Sys2Proof.Machine

/-- The failed check of Table 8-5; the number is the check's order, which DTU_FAULT_INFO.KIND takes. -/
inductive XErr where
  | xlate | prot | tier | lost
  deriving DecidableEq, Repr

def XErr.kind : XErr → Nat
  | .xlate => 1
  | .prot => 2
  | .tier => 3
  | .lost => 4

/-- The status engine work ends with (Table 8-5, Table 10-8). -/
def XErr.status : XErr → Nat
  | .xlate => 0x0020
  | .prot => 0x0021
  | .tier => 0x0022
  | .lost => 0x0040

/-- The page entry of a virtual address, if its page is VALID. -/
def State.page? (s : State) (p va : Nat) : Option PageEnt :=
  if 2 ^ 57 ≤ va then none else Tab.find? s.pages (p * 2 ^ 36 + va / 2 ^ 21)

def State.putPage (s : State) (p va : Nat) (e : PageEnt) : State :=
  { s with pages := Tab.put s.pages (p * 2 ^ 36 + va / 2 ^ 21) e }

/-- The sub-entry of a virtual address's granule. -/
def State.granule? (s : State) (p va : Nat) : Option Granule :=
  if 2 ^ 57 ≤ va then none else Tab.find? s.granules (p * 2 ^ 41 + va / 2 ^ 16)

def State.putGranule (s : State) (p va : Nat) (g : Granule) : State :=
  { s with granules := Tab.put s.granules (p * 2 ^ 41 + va / 2 ^ 16) g }

/-- The location of a granule's first byte (Table 8-3). -/
def Granule.key (g : Granule) : Nat :=
  match g.home with
  | .heath => heathKey (g.unit * 65536)
  | .moor => moorKey g.target (g.unit * 65536)
  | _ => g.unit * 65536

/-- A granule at a location. -/
def granuleAt (k : Nat) (zero : Bool) : Granule :=
  match homeOf k with
  | .heath => { home := .heath, zero, migrating := false, lost := false, unit := (k - heathKey 0) / 65536, target := 0 }
  | .moor => { home := .moor, zero, migrating := false, lost := false
               unit := (k - moorKey (moorTarget k) 0) / 65536, target := moorTarget k }
  | _ => { home := .meadow, zero, migrating := false, lost := false, unit := k / 65536, target := 0 }

/-- The checks of Table 8-5, in order; a device stage's write passes the RECORDS check (section 8.3). -/
def State.xcheck (s : State) (p va : Nat) (write stage : Bool) : Option XErr :=
  match s.page? p va, s.granule? p va with
  | some e, some g =>
    if write && !stage && (!e.write || e.code || e.records) then some .prot
    else if g.home = .moor then some .tier
    else if g.lost then some .lost
    else none
  | _, _ => some .xlate

/-- The location of a virtual address, its page mapped. -/
def State.locate (s : State) (p va : Nat) : Nat :=
  match s.granule? p va with
  | some g => g.key + va % 65536
  | none => 0

/-- Split a virtual run at granule boundaries. -/
def granRuns : Nat → Nat → Nat → List (Nat × Nat)
  | 0, _, _ => []
  | f + 1, va, n => if n = 0 then [] else
    let m := min n (65536 - va % 65536)
    (va, m) :: granRuns f (va + m) (n - m)

def granulesOf (va n : Nat) : List (Nat × Nat) := granRuns (n / 65536 + 2) va n

/-- The first failed check of a run and its offset. -/
def State.xcheckRun (s : State) (p va n : Nat) (write stage : Bool) : Option (XErr × Nat) :=
  (granulesOf va n).findSome? (fun x => (s.xcheck p x.1 write stage).map (fun e => (e, x.1 - va)))

/-- The bytes a read of a RECORDS page returns: a tile record's own bytes where one lies there. -/
def State.overlay (s : State) (p va : Nat) : List Byte → List Byte
  | [] => []
  | b :: t => (s.recordByte? p va).getD b :: s.overlay p (va + 1) t

/-- The page holds tile records or metadata. -/
def State.isRecords (s : State) (p va : Nat) : Bool :=
  match s.page? p va with
  | some e => e.records
  | none => false

/-- Read a run inside one granule, its checks passed: poison, bytes, state. A ZERO granule reads zeros (R290). -/
def State.granRead (s : State) (a : Alloc) (p va n : Nat) : Bool × List Byte × State :=
  match s.granule? p va with
  | some g =>
    let r := if g.zero then (false, List.replicate n 0, s) else s.physRead a p (g.key + va % 65536) n
    if s.isRecords p va then (r.1, s.overlay p va r.2.1, r.2.2) else r
  | none => (false, List.replicate n 0, s)

/-- Read a virtual run, its checks passed. -/
def State.vread (s : State) (a : Alloc) (p va n : Nat) : Bool × List Byte × State :=
  (granulesOf va n).foldl (fun r x =>
    let (bad, bs, t) := r.2.2.granRead a p x.1 x.2
    (r.1 || bad, r.2.1 ++ bs, t)) (false, [], s)

/-- The bytes of a virtual run, without touching the cache. -/
def State.vbytes (s : State) (p va n : Nat) : List Byte :=
  (granulesOf va n).flatMap (fun x => match s.granule? p x.1 with
    | some g =>
      let b := if g.zero then List.replicate x.2 0 else s.bytes (g.key + x.1 % 65536) x.2
      if s.isRecords p x.1 then s.overlay p x.1 b else b
    | none => List.replicate x.2 0)

/-- Before the first write to a ZERO granule its home is zeroed and ZERO clears (R290). -/
def State.unzero (s : State) (p va : Nat) : State :=
  match s.granule? p va with
  | some g => if g.zero then (s.zeroHome g.key 65536).putGranule p va { g with zero := false } else s
  | none => s

/-- Write a virtual run, its checks passed. -/
def State.vwrite (s : State) (a : Alloc) (p va : Nat) (bs : List Byte) : State :=
  (granulesOf va bs.length).foldl (fun s x =>
    let s := s.unzero p x.1
    s.physWrite a p (s.locate p x.1) (bytesAt bs (x.1 - va) x.2)) s

/-- The first offset at which a read of the run meets poison (R242). -/
def State.vpoison (s : State) (p va n : Nat) : Option Nat :=
  (granulesOf va n).findSome? (fun x => match s.granule? p x.1 with
    | some g => if g.zero then none else (s.poisonOffset (g.key + x.1 % 65536) x.2).map (fun o => x.1 - va + o)
    | none => none)

/-- Where a run meets a lower tier that is DOWN or LOST: HEATH_FAIL at once (R321). -/
def State.heathFail (s : State) (k : Nat) : Bool :=
  homeOf k = .heath && s.heathState (s.heathPort k) != 0

/-- The first offset of a virtual run whose home is on a Heath port that is not UP. -/
def State.vheathFail (s : State) (p va n : Nat) : Option Nat :=
  (granulesOf va n).findSome? (fun x => match s.granule? p x.1 with
    | some g => if !g.zero && s.heathFail g.key then some (x.1 - va) else none
    | none => none)

end Sys2Proof.Machine
end

