-- ==== Sys2Proof/Machine/Links.lean ====
section
/-! DEFINITION. What leaves on the x16 ports: ports and roles, requests and tags, notices, completion records (sections
2.9, 10.9, 12.4 to 12.8, 12.11). -/

namespace Sys2Proof.Machine

/-- Role of x16 port `n`: 0 none, 1 HOST, 2 PEER, 3 HEATH (Table 1-9). -/
def State.role (s : State) (n : Nat) : Nat := bitsOf (s.rd F.SYS_PORT_MAP_X16_ROLE 0) (2 * n) 2

/-- The HOST port. -/
def State.hostPort (s : State) : Nat := ((List.range 8).find? (fun n => s.role n == 1)).getD 0

/-- The function whose requester ID a request of partition `p` carries on a port (R426). -/
def State.reqFn (s : State) (p port : Nat) : Nat := if s.role port = 1 then s.fnOf p else 64 + port

/-- Word `w` of peer entry `i`. -/
def State.peerWord (s : State) (i w : Nat) : Nat := (s.reg Reg.HOST_PEER_TABLE (6 * i + w)).toNat

/-- A registered peer has a non-empty window (Table 12-5). -/
def State.peerUsed (s : State) (i : Nat) : Bool := s.peerWord i 2 != 0
def State.peerPart (s : State) (i : Nat) : Nat := bitsOf (s.peerWord i 0) 8 5
def State.peerPort (s : State) (i : Nat) : Nat := bitsOf (s.peerWord i 0) 13 3
def State.peerRid (s : State) (i : Nat) : Nat := bitsOf (s.peerWord i 0) 16 16

/-- Peer `i` is registered to partition `p` (R19). -/
def State.peerOf (s : State) (p i : Nat) : Bool := decide (i < 64) && s.peerUsed i && s.peerPart i == p

/-- The bytes lie in peer `i`'s window (R241). -/
def State.inWindow (s : State) (i a n : Nat) : Bool :=
  decide (s.peerWord i 1 ≤ a) && decide (a + n ≤ s.peerWord i 1 + s.peerWord i 2)

/-- The IDE stream of a request: the selective stream that covers its address, else the link stream (R465). State 0 none,
2 Secure, 3 Insecure; the second component is the stream's number. -/
def State.ideOf (s : State) (port a : Nat) : Nat × Nat :=
  match (List.range 8).find? (fun i =>
    let k := port * 16 + i + 1
    decide (2 ≤ Tab.get 0 s.host.ide k) &&
      (Tab.get [] s.host.ideRange k).any (fun r => decide (r.1 ≤ a) && decide (a ≤ r.2))) with
  | some i => (min 3 (Tab.get 0 s.host.ide (port * 16 + i + 1)), i + 1)
  | none => let v := Tab.get 0 s.host.ide (port * 16); (if 2 ≤ v then min v 3 else 0, 0)

/-- Why partition `p` cannot send a request to an address on a port: the status its work ends with. -/
def State.portErr (s : State) (p port a : Nat) : Option Nat :=
  if !s.rdb F.HOST_PORT_STATUS_UP port then some 0x0034
  else if !s.busMaster (s.reqFn p port) then some 0x0003
  else
    let st := (s.ideOf port a).1
    if st = 3 ∨ (st = 0 ∧ s.rdb F.HOST_IDE_CFG_REQUIRE port) then some 0x0036 else none

/-- A posted write on a port. `data`: bulk data that may carry Relaxed Ordering (R441). -/
def State.sendWrite (s : State) (p port a : Nat) (bs : List Byte) (data : Bool) : State :=
  let fn := s.reqFn p port
  s.emit (.tlpWrite port fn a bs (data && s.feature 21 && s.host.roOn.testBit fn))

/-- Tags of a port's pool (R448). -/
def State.tagPool (s : State) (port : Nat) : Nat := if s.rdb F.HOST_PORT_STATUS_FLIT port then 1024 else 768

def readKey (port tag : Nat) : Nat := port * 16384 + tag

/-- The lowest free tag; the last 64 serve U0 reads only (R448). -/
def State.freeTag (s : State) (port : Nat) (u0 : Bool) : Option Nat :=
  (List.range (s.tagPool port - (if u0 then 0 else 64))).find? (fun t =>
    (Tab.find? s.host.reads (readKey port t)).isNone && (Tab.find? s.host.quar (readKey port t)).isNone)

/-- Send a read; `none` where no tag is free. -/
def State.sendRead (s : State) (p port a n : Nat) (u0 : Bool) (use : ReadFor) (line : Option (Nat × Nat)) : Option State :=
  match s.freeTag port u0 with
  | none => none
  | some t =>
    let fn := s.reqFn p port
    let r : ReadRec := { fn, part := p, addr := a, len := n, use, since := s.time, absorbed := false, line }
    let s := { s with host := { s.host with reads := Tab.put s.host.reads (readKey port t) r } }
    some ((s.bump F.HOST_PORT_STATUS_TAGS_OUT port 1).emit (.tlpRead port fn t a n))

/-- The read under a key has retired. -/
def State.retireRead (s : State) (key : Nat) : State :=
  match Tab.find? s.host.reads key with
  | none => s
  | some _ =>
    let port := key / 16384
    ({ s with host := { s.host with reads := Tab.erase s.host.reads key } }).wr F.HOST_PORT_STATUS_TAGS_OUT port
      (s.rd F.HOST_PORT_STATUS_TAGS_OUT port - 1)

/-- Quarantine a tag of a function (R450). -/
def State.quarantine (s : State) (key fn : Nat) (flr : Bool) : State :=
  let s := { s with host := { s.host with quar := Tab.put s.host.quar key { fn, flr } } }
  let s := s.bump F.HOST_PORT_STATUS_TAGS_QUAR (key / 16384) 1
  if fn < 64 then s.bump F.HOST_FN_STATUS_QUAR_TAGS fn 1 else s

/-- Return a quarantined tag to the pool. -/
def State.unquarantine (s : State) (key : Nat) : State :=
  match Tab.find? s.host.quar key with
  | none => s
  | some q =>
    let port := key / 16384
    let s := { s with host := { s.host with quar := Tab.erase s.host.quar key } }
    let s := s.wr F.HOST_PORT_STATUS_TAGS_QUAR port (s.rd F.HOST_PORT_STATUS_TAGS_QUAR port - 1)
    if q.fn < 64 then s.wr F.HOST_FN_STATUS_QUAR_TAGS q.fn (s.rd F.HOST_FN_STATUS_QUAR_TAGS q.fn - 1) else s

/-- Reads whose use meets `f` are absorbed when they complete (R373, R456). -/
def State.absorb (s : State) (f : ReadRec → Bool) : State :=
  { s with host := { s.host with
      reads := s.host.reads.map (fun e => if f e.2 then (e.1, { e.2 with absorbed := true }) else e) } }

/-- The lines of the reads that meet `f` are free at once (Table 10-9). -/
def State.freeLines (s : State) (f : ReadRec → Bool) : State :=
  { s with host := { s.host with
      reads := s.host.reads.map (fun e => if f e.2 then (e.1, { e.2 with line := none }) else e) } }

/-- Max Read Request Size of a function; 512 bytes where software has not set it (PCIe's default, log entry 13). -/
def State.mrrsOf (s : State) (fn : Nat) : Nat := Tab.get 512 s.host.mrrs fn

/-- The cached translation of a HOST address (R445). -/
def State.atsFind (s : State) (fn a : Nat) : Option AtsEnt :=
  s.host.ats.find? (fun e => e.fn == fn && decide (e.page ≤ a) && decide (a < e.page + e.size))

/-- The address a HOST request carries: `none` while a translation must be asked for. -/
def State.hostAddr (s : State) (fn a : Nat) (write : Bool) : Option Nat :=
  if !s.host.atsOn.testBit fn then some a
  else match s.atsFind fn a with
    | some e => if write && !e.write then none else some (e.target + (a - e.page))
    | none => none

/-- Ask for a translation (R445). -/
def State.askAts (s : State) (fn a : Nat) : State := s.emit (.atsRequest fn (a / 4096 * 4096))

/-- The notice ring of a peer. -/
def State.ring? (s : State) (peer : Nat) : NoticeRing := Tab.get NoticeRing.empty s.notices peer
def State.setRing (s : State) (peer : Nat) (r : NoticeRing) : State :=
  { s with notices := Tab.set NoticeRing.empty s.notices peer r }

/-- What a notice says (Table 2-10), SEQ and CRC apart. -/
structure Notice where
  kind : Nat
  writeBack : Bool
  handle : Nat
  first : Nat
  count : Nat
  deadline : Nat
  latest : Nat
  stride : Nat
  all : Bool
  doneSo : Nat
  doneValue : Nat
  deriving DecidableEq, Repr

/-- The 56 bytes under the CRC. -/
def Notice.bytes (n : Notice) (seq : Nat) : List Byte :=
  leBytes 8 (low 16 seq + n.kind * 2 ^ 16 + b2n n.writeBack * 2 ^ 24 + low 32 n.handle * 2 ^ 32) ++
  leBytes 8 (low 32 n.first + low 32 n.count * 2 ^ 32) ++ leBytes 8 n.deadline ++ leBytes 8 n.latest ++
  leBytes 8 (low 32 n.stride + b2n n.all * 2 ^ 32) ++ leBytes 8 (low 12 n.doneSo) ++ leBytes 8 n.doneValue

/-- A notice image as NOTIFY gives it (R200). -/
def Notice.ofImage (d : Beat) : Notice :=
  let w (i : Nat) := d.toNat / 2 ^ (64 * i) % 2 ^ 64
  { kind := bitsOf (w 0) 16 8, writeBack := (w 0).testBit 24, handle := bitsOf (w 0) 32 32, first := bitsOf (w 1) 0 32
    count := bitsOf (w 1) 32 32, deadline := w 2, latest := w 3, stride := bitsOf (w 4) 0 32, all := (w 4).testBit 32
    doneSo := bitsOf (w 5) 0 12, doneValue := w 6 }

/-- The ring has no room (R76). -/
def State.noticeFull (s : State) (peer : Nat) : Bool :=
  decide ((s.ring? peer).prod - (s.ring? peer).cons ≥ 2 ^ bitsOf (s.peerWord peer 3) 0 4)

/-- Write a notice entry and then the signal count (R75); the ring has room. SEQ is the count that includes the entry
(DEDUCED, log entry 14). -/
def State.writeNotice (s : State) (p peer : Nat) (n : Notice) : State :=
  let r := s.ring? peer
  let port := s.peerPort peer
  let b := n.bytes (r.prod + 1)
  let a := s.peerWord peer 3 / 4096 * 4096 + 64 * (r.prod % 2 ^ bitsOf (s.peerWord peer 3) 0 4)
  let s := s.sendWrite p port a (b ++ leBytes 4 (crc32c b).toNat ++ leBytes 4 0) false
  let s := s.sendWrite p port (s.peerWord peer 5) (leBytes 8 (r.prod + 1)) false
  let s := s.setRing peer { r with prod := r.prod + 1, seq := (r.prod + 1) % 65536 }
  if n.latest < s.time ∧ n.kind ≠ 3 then s.flag F.PART_LIFE_STATUS_NOTICE_LATE p else s

/-- Record what a CANCEL needs and send it if the ring has room (R78, Table 2-7). -/
def State.cancelNotice (s : State) (p peer seq : Nat) : State :=
  let n : Notice := { kind := 3, writeBack := false, handle := 0, first := seq, count := 0, deadline := 0, latest := 0
                      stride := 0, all := false, doneSo := 0, doneValue := 0 }
  if s.noticeFull peer || (s.portErr p (s.peerPort peer) (s.peerWord peer 5)).isSome then s else s.writeNotice p peer n

/-- What became of a completion record. -/
inductive RecPut where
  /-- written, or held in the pending buffer -/
  | done
  /-- dropped: the ring's lease is no longer the record's (R518, Table 10-9) -/
  | gone
  /-- waits for ring space, a pending-buffer entry or a translation -/
  | wait
  /-- the write failed (R379) -/
  | fail
  deriving DecidableEq, Repr

/-- The bytes of a record (Table 10-6). -/
def CplRec.bytes (r : CplRec) (phase : Bool) (time : Nat) : List Byte :=
  leBytes 8 (low 16 r.status + low 8 r.channel * 2 ^ 16 + b2n phase * 2 ^ 24 + b2n r.readback * 2 ^ 25 +
    low 32 r.user * 2 ^ 32) ++
  leBytes 8 r.residue ++ leBytes 8 r.desc ++ leBytes 8 (low 48 time + low 16 r.epoch * 2 ^ 48)

def State.ringRec (s : State) (r : Nat) : RingRec := Tab.get RingRec.idle s.rings r
def State.setRingRec (s : State) (r : Nat) (x : RingRec) : State := { s with rings := Tab.set RingRec.idle s.rings r x }

/-- The ring's message (R380). -/
def State.ringIrq (s : State) (r : Nat) : State :=
  (s.setRingRec r { since := 0 }).msix (s.fnOf (s.lease leaseRing r).holder) (s.rd F.CAR_RING_CFG_VECTOR r)

/-- The ring has no room (R379). -/
def State.ringFull (s : State) (r : Nat) : Bool :=
  decide ((s.rd F.CAR_RING_PROD_COUNT r + 2 ^ 32 - s.rd F.CAR_RING_CONS_COUNT r) % 2 ^ 32 ≥ 2 ^ s.rd F.CAR_RING_CFG_LOG2 r)

/-- A record has reached the ring: PROD advances and the vector fires as R380 says. -/
def State.ringWritten (s : State) (r : CplRec) : State :=
  let s := s.bump F.CAR_RING_PROD_COUNT r.ring 1
  let n := (s.ringRec r.ring).since + 1
  let c := s.rd F.CAR_RING_CFG_COAL_COUNT r.ring
  if r.status ≠ 0 ∨ r.irq ∨ (c ≠ 0 ∧ c ≤ n) then s.ringIrq r.ring else s.setRingRec r.ring { since := n }

/-- Write a completion record to its ring (R377 to R381, R453). -/
def State.putRecord (s : State) (r : CplRec) : RecPut × State :=
  let l := s.lease leaseRing r.ring
  let p := l.holder
  let n := s.rd F.CAR_RING_PROD_COUNT r.ring
  let lg := s.rd F.CAR_RING_CFG_LOG2 r.ring
  let base := s.rd F.CAR_RING_BASE_ADDR r.ring * 32
  let a := base + 32 * (n % 2 ^ lg)
  let b := r.bytes (n / 2 ^ lg % 2 == 0) s.time
  if l.state ≠ 1 ∨ l.epoch ≠ r.epoch then (.gone, s.epochDrop p)
  else if !s.rdb F.CAR_RING_CFG_EN r.ring || s.ringFull r.ring then (.wait, s.wr F.CAR_RING_STATUS_FULL_WAIT r.ring 1)
  else if s.rdb F.CAR_RING_BASE_HOST r.ring then
    let fn := s.fnOf p
    let port := s.hostPort
    if !s.busMaster fn || !(s.heldOf fn).isEmpty then
      let h := s.heldOf fn
      if h.length < 512 then
        (.done, (s.setHeld fn (h ++ [.record r])).wr F.CAR_RING_STATUS_PENDING r.ring 1)
      else (.wait, s.flag F.HOST_FN_STATUS_PENDING_FULL fn)
    else match s.portErr p port a with
      | some _ => (.fail, s.flag F.CAR_RING_STATUS_WRITE_FAIL r.ring)
      | none => match s.hostAddr fn a true with
        | none => (.wait, s.askAts fn a)
        | some x => (.done, (s.sendWrite p port x b false).ringWritten r)
  else match s.xcheckRun p a 32 true false with
    | some (e, _) => (.fail, (s.dtuFault p e.kind 1 a true).flag F.CAR_RING_STATUS_WRITE_FAIL r.ring)
    | none => (.done, (s.vwrite .cached p a b).ringWritten r)

end Sys2Proof.Machine
end

