-- ==== Sys2Proof/Machine/Crr.lean ====
section
/-! DEFINITION. Courier connections: sending, the window, acknowledgement, messages (sections 13.4 to 13.7). -/

namespace Sys2Proof.Machine

/-- Connection states (Table 13-11). -/
def connClosed : Nat := 0
def connListen : Nat := 1
def connOpening : Nat := 2
def connOpen : Nat := 3
def connClosing : Nat := 4
def connFailed : Nat := 5

def State.conn (s : State) (c : Nat) : Conn := Tab.get Conn.closed s.eth.conns c
def State.setConn (s : State) (c : Nat) (x : Conn) : State :=
  { s with eth := { s.eth with conns := Tab.set Conn.closed s.eth.conns c x } }

def State.connState (s : State) (c : Nat) : Nat := s.rd F.CRR_CONN_STATE_STATE c
def State.connVer (s : State) (c : Nat) : Nat := s.rd F.CRR_CONN_STATE_VER c
def State.connPort (s : State) (c : Nat) : Nat := s.rd F.CRR_CONN_STATE_PORT c

/-- The connection is held by the partition (R486). -/
def State.connHeld (s : State) (p c : Nat) : Bool := decide (c < 4096) && s.holds leaseConn c p

/-- A packet of the connection with its header's fixed fields. -/
def State.packetOf (s : State) (c typ : Nat) : Packet :=
  let x := s.conn c
  { ver := s.connVer c, typ, first := false, last := false, ackValid := false, ece := false, cls := 0, dstConn := x.remote
    srcConn := c, dstGen := x.farGen, srcGen := s.rd F.CRR_CONN_STATE_GEN c, psn := 0, ack := 0, opcode := 0, trans := 0
    offset := 0, payload := [] }

/-- Ethernet role of port `n` (Table 1-10): 0 OFF, 1 MOOR, 2 COURIER, 3 MIXED. -/
def State.ethRole (s : State) (n : Nat) : Nat := bitsOf (s.rd F.SYS_PORT_MAP_ETH_ROLE 0) (2 * n) 2

/-- Priority and DSCP of traffic kind `k` on a port, in the row order of Table 13-2 (R473). -/
def State.prio (s : State) (port k : Nat) : Nat := bitsOf (s.reg Reg.CRR_PRIO_MAP port).toNat (4 * k) 3
def State.dscp (s : State) (port k : Nat) : Nat := bitsOf (s.reg Reg.CRR_PRIO_MAP port).toNat (32 + 6 * k) 6

/-- A priority of a port is paused, and its pause frames are honoured (R474, R475). -/
def State.pausedPrio (s : State) (port q : Nat) : Bool :=
  (s.rd F.CRR_PFC_CFG_PFC_EN port).testBit q && (Tab.get 0 s.eth.paused port).testBit q &&
  !(Tab.get 0 s.eth.storm port).testBit q

/-- Send a frame of a traffic kind: nothing leaves a port whose link is down; a paused priority queues it (R474). -/
def State.sendEth (s : State) (port kind : Nat) (m : Msg) : State :=
  let q := s.prio port kind
  if !s.rdb F.CRR_PORT_STATUS_UP port then s
  else if s.pausedPrio port q then
    { s with txq := Tab.set [] s.txq (8 * port + q) (Tab.get [] s.txq (8 * port + q) ++ [m]) }
  else s.emit m

/-- The traffic kind of a Courier packet (Table 13-2). -/
def Packet.kind (pk : Packet) : Nat := if pk.typ = 1 then (if 2 ≤ pk.cls then 1 else 2) else 3

/-- The envelope of a connection's packets (R471, R472, R482). -/
def State.wire (s : State) (c kind : Nat) : Wire :=
  let n := s.connPort c
  let x := s.conn c
  { mac := x.mac
    srcIp := s.rd F.CRR_PORT_IP_ADDR (2 * n) + s.rd F.CRR_PORT_IP_ADDR (2 * n + 1) * 2 ^ 64
    dstIp := x.remoteIp
    srcPort := 49152 + c % 16384
    dstPort := s.rd F.CRR_PORT_CFG_UDP n
    dscp := s.dscp n kind
    ip6 := s.rdb F.CRR_PORT_CFG_IP6 n
    tag := if s.rdb F.CRR_PORT_CFG_TAGGED n then some (s.rd F.CRR_PORT_CFG_VID n, s.prio n kind) else none }

/-- Put a packet of a connection on its port. -/
def State.sendRaw (s : State) (c : Nat) (pk : Packet) : State :=
  s.sendEth (s.connPort c) pk.kind (.packet (s.connPort c) (s.wire c pk.kind) pk.bytes)

/-- The cumulative acknowledgement E - 1, which rides in a packet (R494). -/
def State.withAck (s : State) (c : Nat) (pk : Packet) : Packet :=
  { pk with ackValid := true, ack := ((s.conn c).e + 2 ^ 24 - 1) % 2 ^ 24 }

/-- Send a packet that carries the acknowledgement. -/
def State.sendPacket (s : State) (c : Nat) (pk : Packet) : State :=
  (s.setConn c { s.conn c with unacked := 0 }).sendRaw c (s.withAck c pk)

/-- Send an ACK (R494); it echoes a congestion mark (R477). -/
def State.sendAck (s : State) (c : Nat) : State :=
  let pk := { s.packetOf c 2 with ece := (s.conn c).ceSeen }
  (s.setConn c { s.conn c with ceSeen := false }).sendPacket c pk

/-- Bytes of replay memory a packet takes: header, payload and CRC. -/
def Packet.size (pk : Packet) : Nat := 36 + pk.payload.length

/-- The window is open for one more packet (R492). -/
def Conn.roomFor (x : Conn) (pk : Packet) : Bool :=
  decide ((x.next + 2 ^ 24 - x.u) % 2 ^ 24 < x.w) &&
  decide (x.replay.foldl (fun a q => a + q.size) 0 + pk.size ≤ x.replayKib * 1024)

/-- Transmit waiting packets while the window is open; when it closes, retransmit U once (R492). -/
def State.transmit : Nat → State → Nat → State
  | 0, s, _ => s
  | n + 1, s, c =>
    let x := s.conn c
    match x.waiting with
    | [] => s
    | pk :: t =>
      if x.roomFor pk then
        let pk := { pk with psn := x.next }
        let s := s.setConn c { x with
          waiting := t
          replay := x.replay ++ [pk]
          next := (x.next + 1) % 2 ^ 24
          lastSent := s.time }
        (s.sendPacket c pk).transmit n c
      else match x.replay with
        | q :: _ =>
          if x.early = some x.u then s
          else (s.setConn c { x with early := some x.u }).sendPacket c q
        | [] => s

/-- Queue packets and transmit what the window allows. -/
def State.sendData (s : State) (c : Nat) (pks : List Packet) : State :=
  let x := s.conn c
  (s.setConn c { x with waiting := x.waiting ++ pks }).transmit (x.waiting.length + pks.length + 1) c

/-- Cut message bytes (header and data) into DATA packets; `off` is the offset in the message data of the next packet. -/
def cutMessage (limit : Nat) (base : Packet) : Nat → Nat → List Byte → List Packet
  | 0, _, _ => []
  | f + 1, off, b =>
    let p := b.take limit
    let r := b.drop limit
    let pk := { base with payload := p, offset := off, first := off == 0 && base.first, last := r.isEmpty }
    if r.isEmpty then [pk]
    else pk :: cutMessage limit { base with first := false } f (if base.first then limit - 32 else off + limit) r

/-- Messages travel on a connection that is OPEN, or CLOSING while its requests end (R490). -/
def State.connLive (s : State) (c : Nat) : Bool := s.connState c == connOpen || s.connState c == connClosing

/-- Send a message: opcode, transaction, class, header fields after STATUS and DEADLINE, data (R484). -/
def State.sendMessage (s : State) (c op trans cls status deadline : Nat) (fields data : List Byte) : State :=
  let x := s.conn c
  let h := bytesAt (beBytes 2 status ++ beBytes 8 deadline ++ fields) 0 32
  let base := { s.packetOf c 1 with first := true, cls, opcode := op, trans }
  if !s.connLive c then s else s.sendData c (cutMessage x.limit base ((32 + data.length) / (max x.limit 1) + 2) 0 (h ++ data))

/-- Send a request under a transaction number; it awaits its response. -/
def State.requestAs (s : State) (c op trans cls deadline : Nat) (fields data : List Byte) (item k : Nat) : State :=
  let x := s.conn c
  (s.setConn c { x with reqs := x.reqs ++ [{ trans, opcode := op, item, k, since := s.time }] }).sendMessage
    c op trans cls 0 deadline fields data

/-- Start a request: it takes the next transaction number and awaits its response. -/
def State.sendRequest (s : State) (c op cls deadline : Nat) (fields data : List Byte) (item k : Nat) : State :=
  let x := s.conn c
  (s.setConn c { x with nextTrans := (x.nextTrans + 1) % 2 ^ 32 }).requestAs c op x.nextTrans cls deadline fields data item k

/-- Answer a request with RESP (R484). -/
def State.sendResp (s : State) (c trans cls status : Nat) (data : List Byte) : State :=
  s.sendMessage c 5 trans cls status 0 (beBytes 4 data.length) data

/-- A request's response has come, or it has ended: it leaves the wait list. -/
def State.dropReq (s : State) (c trans opcode : Nat) : State :=
  let x := s.conn c
  s.setConn c { x with reqs := x.reqs.eraseP (fun r => r.trans == trans && r.opcode == opcode) }

/-- Requests an item has outstanding over Courier. -/
def State.remoteReads (s : State) (id : Nat) : Nat :=
  s.eth.conns.foldl (fun a e => a + (e.2.reqs.filter (fun r => r.item == id)).length) 0

/-- LBAs to a block of a set's namespace (R479). -/
def State.lbas (s : State) (set : Nat) : Nat :=
  match Tab.find? s.eth.ns set with
  | some x => if x.lba512 then 8 else 1
  | none => 1

/-- A CONFIRM is not yet acknowledged: its packet is kept (R497, Table 13-8). -/
def Conn.confirmKept (x : Conn) (trans : Nat) : Bool :=
  (x.replay ++ x.waiting).any (fun q => q.opcode == 3 && q.trans == trans)

end Sys2Proof.Machine
end

