-- ==== Sys2Proof/Machine/Layout.lean ====
section
/-! DEFINITION. Tensor descriptors: fields, checks at issue, layouts, images and beats (chapter 6). Every position is in
bits from BASE, so that byte and bit-plane formats share one form (R221). -/

namespace Sys2Proof.Machine

/-- A field of a descriptor. -/
def dget (d : Beat) (lo w : Nat) : Nat := d.toNat / 2 ^ lo % 2 ^ w

namespace Desc

def base (d : Beat) : Nat := dget d 0 58
def format (d : Beat) : Nat := dget d 64 5
def layout (d : Beat) : Nat := dget d 69 2
def rank (d : Beat) : Nat := dget d 71 3
def mx (d : Beat) : Bool := dget d 74 1 == 1
/-- 0 DEVICE, 1 PEER, 2 OWNED (R215). -/
def space (d : Beat) : Nat := dget d 75 2
def peer (d : Beat) : Nat := dget d 77 6
/-- Vector width of CVEC. -/
def cvec (d : Beat) : Nat := 16 * 2 ^ dget d 83 2
/-- EXTk; 1 for a dimension at or above the rank (R214). -/
def ext (d : Beat) (k : Nat) : Nat := if k < rank d then dget d (96 + 24 * k) 24 else 1
def stride (d : Beat) (k : Nat) : Nat := if k = 0 then 0 else dget d (216 + 40 * (k - 1)) 40
def blkA0 (d : Beat) : Nat := 2 ^ dget d 376 4
def blkA1 (d : Beat) : Nat := 2 ^ dget d 380 4
def blkB0 (d : Beat) : Nat := 2 ^ dget d 384 4
def blkB1 (d : Beat) : Nat := 2 ^ dget d 388 4
/-- PERM, 0 read as identity (R216). -/
def perm (d : Beat) : Nat := if dget d 392 15 = 0 then 0x4688 else dget d 392 15
def planeStride (d : Beat) : Nat := dget d 408 40
def scaleOffset (d : Beat) : Nat := dget d 448 40
def ownLog (d : Beat) (k : Nat) : Nat := if k < 3 then dget d (488 + 5 * k) 5 else 0

/-- Entry `i` of a permutation word (R202). -/
def permAt (p i : Nat) : Nat := p / 8 ^ i % 8

/-- Stored dimension of view dimension `v` under the permutation word `p` applied after the descriptor's own. -/
def viewDim (d : Beat) (v : Nat) : Nat := permAt (perm d) v

/-- View extents (R216). -/
def viewExt (d : Beat) (v : Nat) : Nat := ext d (viewDim d v)

/-- The number of elements. -/
def count (d : Beat) : Nat := (List.range 5).foldl (fun a k => a * ext d k) 1

/-- The offset of stored element `i`, in bits (R221, R222). -/
def offset (d : Beat) (i : Nat → Nat) : Nat :=
  let e := if isPlane (format d) then 1 else 8 * fmtEs (format d)
  let s (k : Nat) := 8 * stride d k
  match layout d with
  | 0 => e * i 0 + s 1 * i 1 + s 2 * i 2 + s 3 * i 3 + s 4 * i 4
  | 1 =>
    let a0 := blkA0 d
    let a1 := blkA1 d
    let b0 := blkB0 d
    let b1 := blkB1 d
    e * (i 0 % a0 + a0 * (i 1 % a1) + a0 * a1 * (i 0 / a0 % b0 + b0 * (i 1 / a1 % b1))) +
      e * (a0 * a1 * b0 * b1) * (i 0 / (a0 * b0)) + s 1 * (i 1 / (a1 * b1)) + s 2 * i 2 + s 3 * i 3 + s 4 * i 4
  | _ =>
    let w := cvec d
    e * (i 0 % w) + e * w * i 1 + s 1 * (i 0 / w) + s 2 * i 2 + s 3 * i 3 + s 4 * i 4

/-- Stored index of view element `n` in canonical order (R216), as a function of the stored dimension. -/
def storedIndex (d : Beat) (n : Nat) : Nat → Nat :=
  let j (v : Nat) := n / ((List.range v).foldl (fun a k => a * viewExt d k) 1) % viewExt d v
  fun k => match (List.range 5).find? (fun v => viewDim d v == k) with
    | some v => j v
    | none => 0

/-- The owner block of a stored index and the index within it (R236). -/
def ownerBlock (d : Beat) (i : Nat → Nat) : Nat :=
  let b (k : Nat) := i k / 2 ^ ownLog d k
  let nb (k : Nat) := ceilDiv (ext d k) (2 ^ ownLog d k)
  b 0 + nb 0 * (b 1 + nb 1 * (b 2 + nb 2 * (i 3 + ext d 3 * i 4)))

def ownerLocal (d : Beat) (i : Nat → Nat) (k : Nat) : Nat := if k < 3 then i k % 2 ^ ownLog d k else 0

/-- The number of owner blocks. -/
def ownerBlocks (d : Beat) : Nat :=
  (List.range 3).foldl (fun a k => a * ceilDiv (ext d k) (2 ^ ownLog d k)) (ext d 3 * ext d 4)

/-- Where a position of the tensor lies: the owner block (0 unless OWNED) and the bit offset from its base. -/
abbrev Place := Nat × Nat

/-- Where element `n`'s code starts. -/
def elemPlace (d : Beat) (n : Nat) : Place :=
  let i := storedIndex d n
  if space d = 2 then (ownerBlock d i, offset d (ownerLocal d i)) else (0, offset d i)

/-- The index of the MX block that holds element `n`, with the block's local extents when OWNED, and its place (R220,
R236). -/
def scalePlace (d : Beat) (n : Nat) : Place :=
  let i := storedIndex d n
  let own := space d == 2
  let l (k : Nat) := if own then ownerLocal d i k else i k
  let x (k : Nat) := if own && k < 3 then min (2 ^ ownLog d k) (ext d k - i k / 2 ^ ownLog d k * 2 ^ ownLog d k)
    else if own then 1 else ext d k
  (if own then ownerBlock d i else 0,
    8 * (scaleOffset d + l 0 / 32 + ceilDiv (x 0) 32 * (l 1 + x 1 * (l 2 + x 2 * (l 3 + x 3 * l 4)))))

/-- Bytes of one plane of the image, or of the whole element part for a byte format (R217). -/
def planeBytes (d : Beat) : Nat := ceilDiv (ceilDiv (count d) 8) 64 * 64

def elemPart (d : Beat) : Nat :=
  if isPlane (format d) then fmtBits (format d) * planeBytes d
  else ceilDiv (count d * fmtEs (format d)) 64 * 64

/-- Blocks of the MX scale part. -/
def scaleBlocks (d : Beat) : Nat :=
  if mx d then ceilDiv (viewExt d 0) 32 * ((List.range 4).foldl (fun a k => a * viewExt d (k + 1)) 1) else 0

def scalePart (d : Beat) : Nat := ceilDiv (scaleBlocks d) 64 * 64

/-- The image size (R217). -/
def imageSize (d : Beat) : Nat := ceilDiv (elemPart d + scalePart d) 4096 * 4096

/-- The first element of MX block `m`, in canonical order. -/
def blockFirst (d : Beat) (m : Nat) : Nat :=
  let nb := ceilDiv (viewExt d 0) 32
  m / nb * viewExt d 0 + m % nb * 32

/-- Where image bit `t` of image byte `o` lies; `none` for padding. -/
def bitPlace (d : Beat) (o t : Nat) : Option Place :=
  if o < elemPart d then
    if isPlane (format d) then
      let b := o / planeBytes d
      let n := 8 * (o % planeBytes d) + t
      if n < count d then
        let p := elemPlace d n
        some (p.1, 8 * (b * planeStride d) + p.2)
      else none
    else
      let es := fmtEs (format d)
      let n := o / es
      if n < count d then
        let p := elemPlace d n
        some (p.1, p.2 + 8 * (o % es) + t)
      else none
  else
    let m := o - elemPart d
    if m < scaleBlocks d then
      let p := scalePlace d (blockFirst d m)
      some (p.1, p.2 + t)
    else none

/-- The image offsets of the 64-byte beats, in the canonical beat order (R683). Padding up to the 4 KiB multiple follows
in image order. -/
def beats (d : Beat) : List Nat :=
  let tail := (List.range ((imageSize d - elemPart d) / 64)).map (fun k => elemPart d + 64 * k)
  if isPlane (format d) then
    (List.range (planeBytes d / 64)).flatMap (fun g =>
      (List.range (fmtBits (format d))).map (fun b => b * planeBytes d + 64 * g)) ++ tail
  else (List.range (elemPart d / 64)).map (64 * ·) ++ tail

/-- The work passes an LTE for this descriptor alone (R228). -/
def shaped (d : Beat) : Bool :=
  perm d != 0x4688 || layout d != 0 || isPlane (format d) || mx d

/-- PERM is a permutation that leaves the dimensions at or above the rank alone (R202, R231). -/
def permOk (p rank : Nat) : Bool :=
  (List.range 5).all (fun k => decide (permAt p k ≤ 4) && (decide (k < rank) || permAt p k == k)) &&
  (List.range 5).all (fun k => (List.range 5).all (fun m => k == m || permAt p k != permAt p m))

/-- PERM moves dimension 4. -/
def moves4 (p : Nat) : Bool := permAt p 4 != 4

/-- The feature bits a descriptor's forms are gated by, with the lowest bit of the gating field (R239). -/
def gates (d : Beat) : List (Nat × Nat) :=
  (if format d == 7 || format d == 8 || format d == 9 then [(6, 64)] else []) ++
  (if mx d then [(5, 74)] else []) ++
  (if space d == 2 then [(9, 75)] else []) ++
  (if moves4 (perm d) then [(7, 392)] else [])

/-- Insert an axis behind the axes of a stride no greater than its own. -/
def insertAxis (a : Nat × Nat) : List (Nat × Nat) → List (Nat × Nat)
  | [] => [a]
  | b :: t => if a.1 < b.1 then a :: b :: t else b :: insertAxis a t

/-- The axes of R240 step 1: (stride in bits, count). -/
def axes (d : Beat) : List (Nat × Nat) :=
  let e := if isPlane (format d) then 1 else 8 * fmtEs (format d)
  let s (k : Nat) := 8 * stride d k
  let high (from' : Nat) := ((List.range 5).filter (fun k => decide (from' ≤ k))).map (fun k => (s k, ext d k))
  (match layout d with
    | 0 => (e, ext d 0) :: high 1
    | 1 =>
      let a := blkA0 d * blkA1 d * blkB0 d * blkB1 d
      (e, a) :: (e * a, ceilDiv (ext d 0) (blkA0 d * blkB0 d)) :: (s 1, ceilDiv (ext d 1) (blkA1 d * blkB1 d)) :: high 2
    | _ => (e, cvec d) :: (e * cvec d, ext d 1) :: (s 1, ceilDiv (ext d 0) (cvec d)) :: high 2) ++
  (if isPlane (format d) then [(8 * planeStride d, fmtBits (format d))] else [])

/-- Each axis steps past the one before it. -/
def axesStep : Nat → List (Nat × Nat) → Bool
  | _, [] => true
  | m, (s, c) :: t => decide (m ≤ s) && axesStep (s * c) t

/-- The destination is injective (R240). -/
def injective (d : Beat) : Bool :=
  match ((axes d).filter (fun a => a.2 != 1)).foldl (fun l a => insertAxis a l) [] with
  | [] => true
  | a :: t => a.1 != 0 && axesStep (a.1 * a.2) t

/-- What an instruction allows of one descriptor (Table 6-8). -/
structure Use where
  spaces : List Nat
  /-- the only peer allowed, if one is -/
  peer : Option Nat
  identity : Bool
  dest : Bool
  deriving DecidableEq, Repr

/-- The first failed check of Table 6-9, rows 1 to 16: the value it gives. `registered` says which peers the partition
has. -/
def check (d : Beat) (u : Use) (registered : Nat → Bool) : Option Nat :=
  let f := format d
  let r := rank d
  let plane := isPlane f
  let firstBad (bad : Nat → Bool) (lsb : Nat → Nat) : Option Nat := ((List.range 5).find? bad).map lsb
  if dget d 58 6 ≠ 0 then some 58
  else if dget d 85 11 ≠ 0 then some 85
  else if dget d 407 1 ≠ 0 then some 407
  else if dget d 503 9 ≠ 0 then some 503
  else if f = 0 ∨ 15 < f then some 64
  else if layout d = 3 ∨ (layout d ≠ 0 ∧ r < 2) ∨ (layout d = 2 ∧ (plane ∨ dget d 83 2 = 3)) then some 69
  else if r = 0 ∨ 5 < r then some 71
  else if mx d ∧ (¬ (f ∈ [5, 6, 7, 8, 9, 13]) ∨ perm d ≠ 0x4688) then some 74
  else if ¬ (space d ∈ u.spaces) ∨ (space d = 0 ∧ base d ≥ 2 ^ 57) then some 75
  else if space d = 1 ∧ (registered (peer d) = false ∨ (u.peer.isSome ∧ u.peer ≠ some (peer d))) then some 77
  else if space d ≠ 1 ∧ peer d ≠ 0 then some 77
  else if layout d ≠ 2 ∧ dget d 83 2 ≠ 0 then some 83
  else match firstBad (fun k => (dget d (96 + 24 * k) 24 == 0) == decide (k < r)) (fun k => 96 + 24 * k) with
  | some v => some v
  | none =>
    match firstBad (fun k => decide (r ≤ k) && stride d k != 0) (fun k => 216 + 40 * (k - 1)) with
    | some v => some v
    | none =>
      if !permOk (perm d) r || (u.identity && perm d != 0x4688) then some 392
      else if 8 < dget d 376 4 ∨ 8 < dget d 380 4 ∨ 8 < dget d 384 4 ∨ 8 < dget d 388 4 then some 376
      else if layout d ≠ 1 ∧ dget d 376 16 ≠ 0 then some 376
      else if layout d = 1 ∧ plane ∧ dget d 376 4 < 3 then some 376
      else if plane = (planeStride d == 0) then some 408
      else if !mx d && scaleOffset d ≠ 0 then some 448
      else if dget d 488 15 ≠ 0 ∧ space d ≠ 2 then some 488
      else if 24 < ownLog d 0 ∨ 24 < ownLog d 1 ∨ 24 < ownLog d 2 then some 488
      else if (!plane && base d % fmtEs f ≠ 0) || (space d == 2 && base d % 16 ≠ 0) then some 0
      else match firstBad (fun k => !plane && stride d k % fmtEs f != 0) (fun k => 216 + 40 * (k - 1)) with
      | some v => some v
      | none =>
        if 2 ^ 40 < imageSize d then some 96
        else if u.dest && !injective d then some 216
        else none

end Desc
end Sys2Proof.Machine
end

