-- ==== Sys2Proof/Machine/Items.lean ====
section
/-! DEFINITION. Work items: their table, ticket slots, engine contexts, channels, order and endings (sections 4.6, 7.1, 7.8,
10.1, 10.5, 10.7, 11.4, 11.5). -/

namespace Sys2Proof.Machine

def State.item? (s : State) (id : Nat) : Option Item := Tab.find? s.items id
def State.putItem (s : State) (it : Item) : State := { s with items := Tab.put s.items it.id it }
def State.dropItem (s : State) (id : Nat) : State := { s with items := Tab.erase s.items id }

/-- Add an item; its number is the next one. -/
def State.addItem (s : State) (it : Item) : State :=
  ({ s with nextItem := s.nextItem + 1 }).putItem { it with id := s.nextItem, since := s.time }

def State.chan (s : State) (c : Nat) : ChanRec := Tab.get ChanRec.idle s.chans c
def State.setChan (s : State) (c : Nat) (x : ChanRec) : State := { s with chans := Tab.set ChanRec.idle s.chans c x }

/-- Slot ENGINE codes (Table 5-12). -/
def Work.engine : Work → Nat
  | .intake .. => 1
  | .copy => 1
  | .send .. => 1
  | .press .. => 2
  | .unpress => 2
  | .teddOp .. => 3
  | .regrow => 3
  | .layout _ => 4
  | .notify => 6
  | _ => 5

/-- Work that runs on a Carrier channel (R353). -/
def Work.onCarrier : Work → Bool
  | .intake .. => true
  | .copy => true
  | .send .. => true
  | .deliver _ => true
  | .lattice .. => true
  | .spill _ => true
  | .fetch _ => true
  | _ => false

/-- The order key of R399, class then deadline then arrival then core, as one number. -/
def Item.key (it : Item) : Nat :=
  ((it.urg * 2 ^ 64 + min it.deadline (2 ^ 64 - 1)) * 2 ^ 64 + min it.since (2 ^ 64 - 1)) * 64 + it.core

/-- The image bytes of an item's destination (R371). -/
def State.itemBytes (s : State) (it : Item) : Nat :=
  match it.work with
  | .copy => Desc.imageSize it.tb
  | .layout _ => Desc.imageSize it.tb
  | .teddOp .. => Desc.imageSize it.tb
  | .lattice .. => it.tiles.length * s.tileSize it.part it.obj
  | .notify => 0
  | .drop => 0
  | .relabel _ => 0
  | .granule .. => 65536
  | .spill _ => (s.tile it.part it.obj it.tile).stored
  | .fetch _ => (s.tile it.part it.obj it.tile).stored
  | .move _ => (s.tile it.part it.obj it.tile).stored
  | .chain ws => bitsOf (ws.getD 1 0) 0 32
  | _ => s.tileSize it.part it.obj

/-- T of R273 in ns, without tier terms: 120 + the largest of the read, write and compute times. -/
def regrowNs (op read write elems : Nat) (unbaled : Bool) : Nat :=
  let t := op == 0x23 || op == 9 || op == 0x0A || op == 0x0B || (decide (0x12 ≤ op) && decide (op ≤ 0x17)) ||
    op == 0x27 || op == 0x28
  120 + max (max (ceilDiv read 256) (ceilDiv write 256)) (ceilDiv elems ((if t then 16 else 64) * 2)) +
    (if unbaled then 180 else 0)

/-- The tier latency of a home (R319). -/
def State.tierLat (s : State) (h : Home) : Nat :=
  match h with
  | .heath => s.rd F.TIER_LAT_HEATH_NS 0
  | .moor => s.rd F.TIER_LAT_MOOR_NS 0
  | _ => 0

/-- The service time S of a tile's delivery from a record, as HOLD where it is RETURN (R404, Table 11-4). -/
def State.deliverNs (s : State) (it : Item) (r : TileRec) (readback : Bool) : Nat :=
  700 + s.tierLat r.home + ceilDiv (s.itemBytes it) (if r.home = .moor then 100 else 121) +
    (if r.compressed then 180 else 0) + (if Desc.shaped it.ta then 80 else 0) +
    (if readback then s.rd F.SO_PEER_RD_NS_NS it.part else 0)

/-- The service time S of an item (R404). -/
def State.serviceNs (s : State) (it : Item) : Nat :=
  let r := s.tile it.part it.obj it.tile
  match it.work with
  | .deliver rb =>
    if r.disp = .ret then s.rd F.SO_RETURN_NS_NS it.part + s.deliverNs it r rb
    else if r.disp = .regrow then
      let n := s.itemBytes it
      match s.recipeOf it.part r with
      | some rc => s.deliverNs it r rb + regrowNs (bitsOf (rc.words.getD 0 0) 0 16) n n
          (bitsOf (rc.words.getD 3 0) 16 24 * bitsOf (rc.words.getD 3 0) 40 24) false
      | none => s.deliverNs it r rb
    else s.deliverNs it r rb
  | .lattice _ rb => s.deliverNs it { r with home := .meadow, compressed := false } rb
  | .notify => 700
  | .drop => 700
  | .relabel _ => 700
  | .copy =>
    let far := Desc.space it.ta == 1 || Desc.space it.tb == 1
    700 + ceilDiv (s.itemBytes it) (if far then 121 else 128) +
      (if Desc.shaped it.ta || Desc.shaped it.tb then 80 else 0)
  | .intake .. => 700 + ceilDiv (s.itemBytes it) 121 + (if Desc.shaped it.ta then 80 else 0)
  | _ => 700 + s.tierLat r.home + ceilDiv (s.itemBytes it) (if r.home = .moor then 100 else if r.home = .heath then 121 else 128)

/-- Reports of lateness hold for items with a class and a deadline of the plan, the streams and the walkers (R405). -/
def State.noteStart (s : State) (it : Item) : State :=
  if it.deadline < s.time + s.serviceNs it then s.sat F.SO_LATE_LATE_START (4 * it.part + it.urg) 1 else s

def State.noteEnd (s : State) (it : Item) : State :=
  if it.deadline < s.time then s.sat F.SO_LATE_LATE_END (4 * it.part + it.urg) 1 else s

/-- The class an item runs in: U0 without U0_ALLOW is U1, and counted (R401). -/
def State.classOf (s : State) (p urg : Nat) : Nat × State :=
  if urg = 0 ∧ s.rd F.SO_SCHED_CFG_U0_ALLOW p = 0 then (1, s.sat F.SO_U0_DEMOTED_COUNT p 1) else (urg, s)

/-- No item keeps the tile IN_FLIGHT any longer: it is RESIDENT again (R60). -/
def State.settle (s : State) (p obj tile : Nat) : State :=
  let busy := s.items.any (fun e => e.2.part == p && e.2.flight && e.2.obj == obj &&
    (e.2.tile == tile || e.2.tiles.contains tile))
  let r := s.tile p obj tile
  if !busy && r.state = .inFlight then s.setTile p obj tile { r with state := .resident } else s

/-- Mark a tile IN_FLIGHT. -/
def State.fly (s : State) (p obj tile : Nat) : State :=
  let r := s.tile p obj tile
  if r.state = .resident then s.setTile p obj tile { r with state := .inFlight } else s

/-- The lease instance and the registers of a context: contexts 0 to 127 are Balers', 128 to 191 Tedders'. -/
def ctxKind (x : Nat) : Nat := if x < 128 then leaseBaler else leaseTedder
def ctxIndex (x : Nat) : Nat := if x < 128 then x else x - 128

def State.ctxBusy (s : State) (x : Nat) : Bool :=
  (if x < 128 then s.rdb F.BAL_CTX_BUSY x else s.rdb F.TED_CTX_BUSY (x - 128)) ||
  (s.lease (ctxKind x) (ctxIndex x)).state == 2

def State.unitOnline (s : State) (ted : Bool) (u : Nat) : Bool :=
  if ted then s.rdb F.TED_UNIT_STATUS_ONLINE u && s.meadowOn (u / 4)
  else s.rdb F.BAL_UNIT_STATUS_ONLINE u && s.meadowOn (u / 8)

/-- Take a context for an item: its lease is granted and its registers show the holder (R275, R517). -/
def State.takeCtx (s : State) (it : Item) (x : Nat) : State :=
  let k := ctxKind x
  let i := ctxIndex x
  let s := s.grantLease k i it.part
  let e := (s.lease k i).epoch
  let kib := s.itemBytes it / 1024
  let s := if x < 128 then
      let s := ((s.wr F.BAL_CTX_BUSY i 1).wr F.BAL_CTX_PARTITION i it.part).wr F.BAL_CTX_EPOCH i e
      (s.wr F.BAL_UNIT_STATUS_BUSY (i / 4) (s.rd F.BAL_UNIT_STATUS_BUSY (i / 4) ||| 2 ^ (i % 4))).bump
        F.BAL_UNIT_STATUS_QUEUED (i / 4) kib
    else
      let s := ((s.wr F.TED_CTX_BUSY i 1).wr F.TED_CTX_PARTITION i it.part).wr F.TED_CTX_EPOCH i e
      (s.wr F.TED_UNIT_STATUS_BUSY (i / 4) (s.rd F.TED_UNIT_STATUS_BUSY (i / 4) ||| 2 ^ (i % 4))).bump
        F.TED_UNIT_STATUS_QUEUED (i / 4) kib
  match s.item? it.id with
  | some it => s.putItem { it with ctxs := it.ctxs ++ [(x, e)] }
  | none => s

/-- Give a context up: the lease becomes FREE (R275). -/
def State.freeCtx (s : State) (kib x : Nat) : State :=
  let k := ctxKind x
  let i := ctxIndex x
  let s := s.setLease k i { s.lease k i with state := 0, holder := 0 }
  if x < 128 then
    let s := ((s.wr F.BAL_CTX_BUSY i 0).wr F.BAL_CTX_PARTITION i 0).wr F.BAL_CTX_EPOCH i 0
    (s.wr F.BAL_UNIT_STATUS_BUSY (i / 4) (s.rd F.BAL_UNIT_STATUS_BUSY (i / 4) &&& (15 - 2 ^ (i % 4)))).wr
      F.BAL_UNIT_STATUS_QUEUED (i / 4) (s.rd F.BAL_UNIT_STATUS_QUEUED (i / 4) - kib)
  else
    let s := ((s.wr F.TED_CTX_BUSY i 0).wr F.TED_CTX_PARTITION i 0).wr F.TED_CTX_EPOCH i 0
    (s.wr F.TED_UNIT_STATUS_BUSY (i / 4) (s.rd F.TED_UNIT_STATUS_BUSY (i / 4) &&& (15 - 2 ^ (i % 4)))).wr
      F.TED_UNIT_STATUS_QUEUED (i / 4) (s.rd F.TED_UNIT_STATUS_QUEUED (i / 4) - kib)

/-- Units of a die. -/
def unitsOf (ted : Bool) (die : Nat) : List Nat :=
  if ted then (List.range 4).map (4 * die + ·) else (List.range 8).map (8 * die + ·)

/-- A free context of a unit for a class: context 3 runs U0 work only, and U0 work takes any (R243). -/
def State.freeCtxOf (s : State) (ted : Bool) (u urg : Nat) : Option Nat :=
  let base := (if ted then 128 else 0) + 4 * u
  ((if urg = 0 then [3, 0, 1, 2] else [0, 1, 2]).map (base + ·)).find? (fun x => !s.ctxBusy x)

def State.unitQueued (s : State) (ted : Bool) (u : Nat) : Nat :=
  if ted then s.rd F.TED_UNIT_STATUS_QUEUED u else s.rd F.BAL_UNIT_STATUS_QUEUED u

/-- The unit of a die an item takes: online, a context free for the class, fewest outstanding bytes, lowest number (R245
step 2, R272 step 2). -/
def State.pickUnit (s : State) (ted : Bool) (die urg : Nat) (skip : List Nat) : Option Nat :=
  let us := (unitsOf ted die).filter (fun u => s.unitOnline ted u && !skip.contains u && (s.freeCtxOf ted u urg).isSome)
  us.foldl (fun (b : Option Nat) u => match b with
    | none => some u
    | some v => if s.unitQueued ted u < s.unitQueued ted v then some u else some v) none

/-- The dies an item may use, in order: a Baler's work stays on its die while that die has an online Baler, a Tedder's
tries every online die (R245 steps 3 and 4, R272 step 3). -/
def State.engineDies (s : State) (ted : Bool) (die : Nat) : List Nat :=
  let ds := (List.range 4).map (fun i => (die + i) % 4)
  let on := ds.filter (fun d => (unitsOf ted d).any (s.unitOnline ted))
  if ted then on else on.take 1

/-- Try to give an item the context it wants. An unbale for a delivery in U0 or U1 takes two units (Table 7-1). -/
def State.tryCtx (s : State) (id : Nat) : State :=
  match s.item? id with
  | none => s
  | some it => match it.want with
    | none => s
    | some ted =>
      if !it.ctxs.isEmpty then s
      else match (s.engineDies ted it.die).findSome? (fun d => (s.pickUnit ted d it.urg []).map (fun u => (d, u))) with
      | none => s
      | some (d, u) => match s.freeCtxOf ted u it.urg with
        | none => s
        | some x =>
          let s := s.takeCtx it x
          let two := !ted && decide (it.urg ≤ 1) && (match it.work with | .deliver _ => true | .lattice .. => true | _ => false)
          if two then match s.pickUnit ted d it.urg [u] with
            | none => s
            | some v => match s.freeCtxOf ted v it.urg with
              | none => s
              | some y => s.takeCtx it y
          else s

/-- A resource has served a request (R403). -/
def State.slot (s : State) (k : Nat) : State := { s with slots := Tab.set 0 s.slots k ((Tab.get 0 s.slots k + 1) % 64) }

/-- The aged request that takes one slot in 64 of a resource ahead of U1, never ahead of U0 (R403): the oldest of those that
wait. -/
def State.agedTurn (s : State) (k : Nat) (waiting : List Nat) : Option Nat :=
  if Tab.get 0 s.slots k ≠ 63 then none
  else
    let l := waiting.filterMap (fun i => s.item? i)
    if l.any (fun it => it.urg == 0) then none
    else (l.filter (fun it => it.aged)).foldl (fun (b : Option Nat) it => match b.bind s.item? with
      | some o => if it.since < o.since then some it.id else b
      | none => some it.id) none

/-- Items that wait for a context, best first, each try one in turn (R243, R245, R403). -/
def State.serveCtxs (s : State) : State :=
  let n := s.items.filter (fun e => e.2.want.isSome && e.2.ctxs.isEmpty)
  let s := match s.agedTurn 256 (n.map (·.1)) with
    | some i => (s.tryCtx i).slot 256
    | none => s
  let w := (s.items.filter (fun e => e.2.want.isSome && e.2.ctxs.isEmpty)).map (fun e => (e.2.key, e.1))
  let order := w.foldl (fun l x => l.takeWhile (fun y => decide (y.1 ≤ x.1)) ++ x :: l.dropWhile (fun y => decide (y.1 ≤ x.1))) []
  order.foldl (fun s x =>
    let t := s.tryCtx x.2
    match t.item? x.2 with
    | some it => if it.ctxs.isEmpty then t else t.slot 256
    | none => t) s

/-- Where an error of a Carrier request lies (R373). -/
structure ErrAt where
  addr : Nat
  write : Bool
  /-- 0 DEVICE, 1 PEER, 2 HOST -/
  space : Nat
  peer : Nat
  desc : Bool
  deriving DecidableEq, Repr

def ErrAt.none : ErrAt := { addr := 0, write := false, space := 0, peer := 0, desc := false }

/-- Latch an error of a channel; later errors do not latch while VALID is set. -/
def State.latchErr (s : State) (c status : Nat) (e : ErrAt) : State :=
  if s.rdb F.CAR_CH_ERR_INFO_VALID c then s
  else
    let s := (s.wr F.CAR_CH_ERR_ADDR_ADDR c e.addr).wr F.CAR_CH_ERR_INFO_STATUS c status
    let s := (s.wrb F.CAR_CH_ERR_INFO_DIR c e.write).wr F.CAR_CH_ERR_INFO_SPACE c e.space
    let s := (s.wr F.CAR_CH_ERR_INFO_PEER c e.peer).wrb F.CAR_CH_ERR_INFO_DESC c e.desc
    s.wr F.CAR_CH_ERR_INFO_VALID c 1

/-- Update the pacing lines of a channel and its die from the requests outstanding (R361, Table 10-12). -/
def State.lines (s : State) (c lines : Nat) : State :=
  let d := c / 64
  let was := s.rd F.CAR_CH_STATUS_LINES c
  let s := s.wr F.CAR_CH_STATUS_LINES c lines
  let use := s.rd F.CAR_PACE_STATUS_IN_USE d + lines - was
  let s := s.wr F.CAR_PACE_STATUS_IN_USE d use
  if s.rd F.CAR_PACE_STATUS_PEAK d < use then s.wr F.CAR_PACE_STATUS_PEAK d use else s

/-- Member of a list, without repeats. -/
def distinct : List Nat → List Nat
  | [] => []
  | a :: t => if t.contains a then distinct t else a :: distinct t

/-- The lines a channel's requests hold now: one for each burst with a read outstanding. -/
def State.chanReads (s : State) (c : Nat) : Nat :=
  (distinct (s.host.reads.filterMap (fun e => match e.2.line with
    | some (d, b) => if d = c then some b else none
    | none => none))).length

def State.refreshLines (s : State) (c : Nat) : State := s.lines c (s.chanReads c)

/-- Take an item off its channel: out of the active place, the park slots and the queue. -/
def State.offChannel (s : State) (c id : Nat) : State :=
  let x := s.chan c
  let s := s.setChan c { x with
    active := if x.active = some id then none else x.active
    parked := x.parked.filter (· != id)
    queue := x.queue.filter (· != id)
    chain := x.chain.filter (· != id) }
  s.wr F.CAR_CH_STATUS_PARKED c (x.parked.filter (· != id)).length

/-- Remove an item from everything that serves it, without a completion: its reads are absorbed, its contexts and its
reservation freed (R276, R518). -/
def State.withdraw (s : State) (id : Nat) : State :=
  match s.item? id with
  | none => s
  | some it =>
    let kib := s.itemBytes it / 1024
    let s := s.absorb (fun r => match r.use with
      | .burst i _ => i == id
      | .readback i => i == id
      | .consumer i => i == id
      | .flag i => i == id
      | _ => false)
    let s := it.ctxs.foldl (fun s x => s.freeCtx kib x.1) s
    let s := match it.resv with
      | some (h, k, n) => (s.uncharge it.part h.tier n).freeRun k .normal
      | none => s
    let s := s.dropItem id
    let s := match it.channel with
      | some c => (s.offChannel c id).refreshLines c
      | none => s
    if it.flight then (if it.tiles.isEmpty then [it.tile] else it.tiles).foldl (fun s t => s.settle it.part it.obj t) s else s

/-- Fields of a walk block (Table 11-5). -/
def WB.w (r : WalkRec) (i : Nat) : Nat := r.block.getD i 0
def WB.prog (r : WalkRec) : Nat := bitsOf (WB.w r 0) 4 2
def WB.readback (r : WalkRec) : Bool := (WB.w r 0).testBit 6
def WB.urg (r : WalkRec) : Nat := bitsOf (WB.w r 0) 8 2
def WB.doneSo (r : WalkRec) : Nat := bitsOf (WB.w r 0) 16 12
def WB.k (r : WalkRec) : Nat := bitsOf (WB.w r 0) 28 3
def WB.lo (r : WalkRec) : Nat := bitsOf (WB.w r 1) 0 32
def WB.hi (r : WalkRec) : Nat := bitsOf (WB.w r 1) 32 32
def WB.steps (r : WalkRec) : Nat := bitsOf (WB.w r 2) 0 32
def WB.margin (r : WalkRec) : Nat := bitsOf (WB.w r 2) 32 32
def WB.p0 (r : WalkRec) : Nat := WB.w r 3
def WB.lead (r : WalkRec) : Nat := bitsOf (WB.w r 5) 0 32

/-- The need time N(h) (R410). -/
def State.walkNeed (s : State) (p : Nat) (r : WalkRec) (h : Nat) : Nat :=
  s.proj (4 * p + WB.prog r) (WB.p0 r + WB.steps r - h)

/-- The walks a walk of `(lo, hi)` at level `k` contains, highest sub-segment first (R72). -/
def walkKids (r : WalkRec) (lo hi k : Nat) : List (Nat × Nat × Nat) :=
  let d := max (r.levels.getD (k - 2) (0, false)).1 1
  (List.range ((hi - 1 - lo) / d + 1)).reverse.map (fun j => (lo + j * d, lo + (j + 1) * d, k - 1))

/-- The next group of a walk: walks whose level was kept have none of their own (R72). -/
def WalkRec.nextGroup : Nat → WalkRec → WalkRec
  | 0, r => { r with group := none }
  | f + 1, r => match r.calls with
    | [] => { r with group := none }
    | (lo, h, k) :: t =>
      let hi := min h (WB.steps r)
      let d := r.levels.getD (k - 2) (0, false)
      if k ≤ 1 then { r with calls := t, group := some { lo, hi, stride := 0, level := 1 } }
      else if d.2 then ({ r with calls := walkKids r lo hi k ++ t }).nextGroup f
      else { r with calls := t, group := some { lo, hi, stride := d.1, level := k } }

/-- The walker goes to its next group, or is IDLE again after the last (R412). `k`: 2 p + the walker. -/
def State.walkAdvance (s : State) (k : Nat) (r : WalkRec) : State :=
  let r := WalkRec.nextGroup 8 { r with issued := false, noticing := false, items := [], failed := false, lost := false }
  match r.group with
  | some g => ({ s with walks := Tab.put s.walks k r }).setReg Reg.SO_WALK_POS k (BitVec.ofNat 64 (g.lo + g.hi * 2 ^ 32))
  | none => ({ s with walks := Tab.erase s.walks k }).wr F.SO_WALK_STATUS_STATE k 0

/-- Add items for walker `k`; their numbers. -/
def State.addItems (s : State) (l : List Item) : List Nat × State :=
  l.foldl (fun (x : List Nat × State) it => (x.1 ++ [x.2.nextItem], x.2.addItem it)) ([], s)

/-- The SEGMENT notices of a group whose items have all ended OK (R412). -/
def State.walkNotices (s : State) (k : Nat) (r : WalkRec) (g : WalkGroup) : State :=
  let p := k / 2
  let need := s.walkNeed p r g.hi
  let n : Notice := { kind := 2, writeBack := false, handle := 0, first := g.lo, count := g.hi - g.lo
                      deadline := need + (g.hi - g.lo) * r.stepNs, latest := need, stride := g.stride
                      all := g.stride == 0, doneSo := WB.doneSo r, doneValue := r.written + 1 }
  let image : Beat := BitVec.ofNat 512 (ofLe (n.bytes 0))
  let (ids, s) := r.entries.foldl (fun (x : List Nat × State) e =>
    let (urg, s) := x.2.classOf p (WB.urg r)
    (x.1 ++ [s.nextItem], s.addItem { Item.blank p .notify with
      origin := .walker (k % 2), peer := e.2, urg, deadline := need, ta := image, stage := .placed, started := true }))
    ([], s)
  let w : WalkRec := { r with noticing := true, items := ids, written := r.written + 1 }
  { s with walks := Tab.put s.walks k w }

/-- An item of a walk's group has ended (R412, R413). Once all have: after deliveries that ended OK the notices are
written, after the notices, or a failure, the walk goes on; a failure skips the rest of the segment. -/
def State.walkItemEnd (s : State) (it : Item) (w status : Nat) : State :=
  let k := 2 * it.part + w
  match Tab.find? s.walks k with
  | none => s
  | some r =>
    if !r.items.contains it.id then s
    else
      let r := { r with items := r.items.filter (· != it.id) }
      match r.group with
      | none => s
      | some g =>
        if r.noticing then
          let s := if status = 0 ∧ (Notice.ofImage it.ta).latest < s.time then s.flag F.SO_WALK_STATUS_LATE k else s
          if !r.items.isEmpty then { s with walks := Tab.put s.walks k r }
          else s.walkAdvance k (if g.level ≤ 1 then r else { r with calls := walkKids r g.lo g.hi g.level ++ r.calls })
        else
          let s := if status = 0x0040 ∧ !r.lost then
              let d : Dead := { Dead.plain 4 6 0x0040 w with handle := handleOf it.part it.obj, step := g.lo }
              ((s.deadLetter it.part d).flag F.SO_WALK_STATUS_SEG_LOST k).wr F.SO_WALK_LOST_STEP k g.lo
            else if status = 0 ∨ status = 0x0040 then s
            else s.flag F.SO_WALK_STATUS_ITEM_FAIL k
          let r := { r with failed := r.failed || status != 0, lost := r.lost || status == 0x0040 }
          if !r.items.isEmpty then { s with walks := Tab.put s.walks k r }
          else if r.failed then s.walkAdvance k r
          else s.walkNotices k r g

/-- What the starter of an item learns when it ends. -/
def State.originEnd (s : State) (it : Item) (status : Nat) : State :=
  match it.origin with
  | .stream k =>
    let i := 8 * it.part + k
    let r := Tab.get StreamRec.idle s.streams i
    let s := { s with streams := Tab.set StreamRec.idle s.streams i { r with items := r.items.filter (· != it.id) } }
    let s := if status = 0 then s else s.flag F.TIER_STRM_STATUS_FAILED i
    if it.urg = 1 ∧ it.deadline < s.time then s.flag F.TIER_STRM_STATUS_LATE i else s
  | .watermark t =>
    if status = 0x0002 then
      if t = 0 then s.flag F.TIER_WMARK_MEADOW_STUCK it.part else s.flag F.TIER_WMARK_HEATH_STUCK it.part
    else s
  | .migrate k =>
    match Tab.find? s.migs k with
    | none => s
    | some m =>
      let m := if status = 0 then m else if status = 0x0002 then { m with quota := m.quota + 1 } else { m with other := m.other + 1 }
      { s with migs := Tab.put s.migs k m }
  | .walker w => s.walkItemEnd it w status
  | .courier t => match it.work with
    | .send conn _ => if status ≠ 0 ∧ it.stage ≠ Stage.remote then s.sendResp conn t it.urg status [] else s
    | _ => s
  | .plan => match it.work with
    | .lattice step _ =>
      if status = 0x0040 then
        s.deadLetter it.part { Dead.plain 4 2 0x0040 0xFF with handle := handleOf it.part it.obj, step }
      else s
    | _ => s
  | _ => s

/-- The epochs an item recorded are still current (R518). -/
def State.epochsHold (s : State) (it : Item) : Bool :=
  (match it.channel with
    | some c => (s.lease leaseChannel c).epoch == it.epoch
    | none => true) &&
  it.ctxs.all (fun x => (s.lease (ctxKind x.1) (ctxIndex x.1)).epoch == x.2)

/-- The low 16 bits of the lease epoch a slot shows (R142, R275). -/
def Item.slotEpoch (it : Item) : Nat := match it.ctxs with
  | x :: _ => x.2
  | [] => it.epoch

/-- An item ends with a status (R143, R370 steps 3 and 4): its slot, then its completion object. An item whose epochs have
advanced writes nothing and is counted (R518). -/
def State.finish (s : State) (id status residue : Nat) (e : ErrAt) : State :=
  match s.item? id with
  | none => s
  | some it =>
    if !s.epochsHold it then (s.withdraw id).epochDrop it.part
    else
      let s := s.noteEnd it
      let s := match it.channel with
        | some c =>
          let moved := match it.work with
            | .intake .. => if it.disp = Disp.keep then 0 else s.itemBytes it - residue
            | _ => s.itemBytes it - residue
          let s := (s.wr F.CAR_CH_STATUS_LAST_STATUS c status).bump F.CAR_CH_BYTES_COUNT c (if it.begun then moved else 0)
          if status = 0 ∨ status = 6 then s else s.latchErr c status e
        | none => s
      let s := s.withdraw id
      let s := match it.origin with
        | .plan => s.writeSlot it.core it.ticket slotDone it.work.engine status it.slotEpoch residue
        | _ => s
      let s := match it.cso, it.doneValue with
        | some n, none => s.soSignal it.part n .add 1
        | _, _ => s
      (s.originEnd it status).serveCtxs

/-- An item becomes VOID: nothing of it takes effect and its slot says so (R143, R188, R276). -/
def State.voidItem (s : State) (id : Nat) : State :=
  match s.item? id with
  | none => s
  | some it =>
    let s := s.withdraw id
    let s := match it.before with
      | some r => s.setTile it.part it.obj it.tile r
      | none => s
    let s := match it.origin with
      | .plan => s.writeSlot it.core it.ticket slotVoid it.work.engine 0 it.slotEpoch 0
      | _ => s
    s.originEnd it 0x0001

/-- An item is quenched: nothing of it takes effect and nothing is written (R525 step 3). Its lines are free at once. -/
def State.quenchItem (s : State) (id : Nat) : State :=
  match s.item? id with
  | none => s
  | some it =>
    let s := s.freeLines (fun r => match r.use with
      | .burst i _ => i == id
      | _ => false)
    let s := s.withdraw id
    match it.before with
    | some r => s.setTile it.part it.obj it.tile r
    | none => s

end Sys2Proof.Machine
end

