-- ==== Sys2Proof/Machine/Tedder.lean ====
section
/-! DEFINITION. The Tedder library (section 7.6): operations on FP32 codes, one rounding each, and reductions in the
order of R266. A value carries the events it met: bit 4 OVERFLOW, bit 5 NAN_MADE, as TED_CONV_STATUS places them. -/

namespace Sys2Proof.Machine
namespace Ted

/-- A code of the library (Table 7-7). -/
def known (op : Nat) : Bool :=
  (decide (1 ≤ op) && decide (op ≤ 0x0B)) || (decide (0x10 ≤ op) && decide (op ≤ 0x17)) ||
  (decide (0x20 ≤ op) && decide (op ≤ 0x28)) || (decide (0x40 ≤ op) && decide (op ≤ 0x43)) ||
  (decide (0x48 ≤ op) && decide (op ≤ 0x4B))

/-- The operation has two inputs. -/
def twoInputs (op : Nat) : Bool := decide (0x20 ≤ op) && decide (op ≤ 0x28)

/-- The operation belongs to the reduction and normalisation group. -/
def reduces (op : Nat) : Bool := decide (0x40 ≤ op)

/-- The output has one element a row. -/
def rowOut (op : Nat) : Bool := decide (0x40 ≤ op) && decide (op ≤ 0x43)

/-- An FP32 code and the events met on the way to it. -/
abbrev Val := Nat × Nat

def plus0 : Val := (0, 0)
def minusInf : Val := (0xFF800000, 0)

/-- A quiet NaN whose sign nothing fixes (log entry 20). -/
def nan (op a b : Nat) : Nat :=
  0x7FC00000 + (if Config.nanSign op (BitVec.ofNat 32 a) (BitVec.ofNat 32 b) then 0x80000000 else 0)

/-- Finish an operation whose exact result is `r`: one rounding, and the events of a result that overflows or is a NaN
made from numbers (section 7.6, Edges). -/
def finish (op : Nat) (x y : Val) (r : Num) : Val :=
  let f := x.2 ||| y.2
  let nanIn := (ofFp32 x.1).isNan || (ofFp32 y.1).isNan
  if nanIn then (nan op x.1 y.1, f)
  else match r with
    | .nan _ => (nan op x.1 y.1, f ||| 32)
    | .inf s => ((encodeFp fp32 (.inf s)).1, f)
    | v =>
      let c := (encodeFp fp32 v).1
      (c, if (ofFp32 c).isInf then f ||| 16 else f)

/-- A class T result: a free FP32 value that depends on the operation and its operands only. `over`: an infinite result
from finite operands is an overflow. -/
def free (op c : Nat) (ovf : Bool) (x y : Val) : Val :=
  let f := x.2 ||| y.2
  if (ofFp32 x.1).isNan || (ofFp32 y.1).isNan then (nan op x.1 y.1, f)
  else
    let r := (Config.tedder op (BitVec.ofNat 32 c) (BitVec.ofNat 32 x.1) (BitVec.ofNat 32 y.1)).toNat
    let f := if (ofFp32 r).isNan then f ||| 32 else f
    (r, if ovf && (ofFp32 r).isInf && !(ofFp32 x.1).isInf && !(ofFp32 y.1).isInf then f ||| 16 else f)

def add (op : Nat) (x y : Val) : Val := finish op x y ((ofFp32 x.1).add (ofFp32 y.1))
def sub (op : Nat) (x y : Val) : Val := finish op x y ((ofFp32 x.1).sub (ofFp32 y.1))
def mul (op : Nat) (x y : Val) : Val := finish op x y ((ofFp32 x.1).mul (ofFp32 y.1))
def div (op : Nat) (x y : Val) : Val := finish op x y ((ofFp32 x.1).div (ofFp32 y.1))

/-- MAX: exact, and max(-0, +0) = +0. -/
def max (op : Nat) (x y : Val) : Val :=
  let a := ofFp32 x.1
  let b := ofFp32 y.1
  if a.isNan || b.isNan then (nan op x.1 y.1, x.2 ||| y.2)
  else if a.lt b then (y.1, x.2 ||| y.2)
  else if b.lt a then (x.1, x.2 ||| y.2)
  else (if a.sign then y.1 else x.1, x.2 ||| y.2)

/-- MIN: exact; which zero min(-0, +0) gives is not stated, and stays free. -/
def min (op : Nat) (x y : Val) : Val :=
  let a := ofFp32 x.1
  let b := ofFp32 y.1
  if a.isNan || b.isNan then (nan op x.1 y.1, x.2 ||| y.2)
  else if a.lt b then (x.1, x.2 ||| y.2)
  else if b.lt a then (y.1, x.2 ||| y.2)
  else if Config.nanSign op (BitVec.ofNat 32 x.1) (BitVec.ofNat 32 y.1) then (x.1, x.2 ||| y.2) else (y.1, x.2 ||| y.2)

def abs (x : Nat) : Nat := x % 2 ^ 31

def rsqrt (x : Val) : Val := free 0x09 0 false x plus0
def exp (x : Val) : Val := free 0x0A 0 true x plus0

/-- An elementwise operation other than COPY (Table 7-7); `y` is the second input, +0 where there is none. -/
def elem (op c : Nat) (x y : Val) : Val :=
  let n := ofFp32 x.1
  let k : Val := (c, 0)
  match op with
  | 0x02 => if n.isNan then (nan op x.1 0, x.2) else (x.1 ^^^ 0x80000000, x.2)
  | 0x03 => if n.isNan then (nan op x.1 0, x.2) else (abs x.1, x.2)
  | 0x04 => mul op k x
  | 0x05 => add op x k
  | 0x06 => min op (max op x (abs c + 0x80000000, 0)) (abs c, 0)
  | 0x07 => mul op x x
  | 0x08 => finish op x plus0 n.sqrt
  | 0x09 => rsqrt x
  | 0x0A => exp x
  | 0x10 => if n.isNan then (nan op x.1 0, x.2) else if (ofFp32 0).lt n then x else (0, x.2)
  | 0x11 => if n.isNan then (nan op x.1 0, x.2) else if n.lt (ofFp32 0) then mul op k x else x
  | 0x20 => add op x y
  | 0x21 => sub op x y
  | 0x22 => mul op x y
  | 0x23 => div op x y
  | 0x24 => max op x y
  | 0x25 => min op x y
  | 0x26 => finish op x y (((ofFp32 c).mul n).add (ofFp32 y.1))
  | 0x28 => free op c true x y
  | _ => free op c false x y

/-- Combine the lanes of one level in pairs, the lower lane first (R266). -/
def pairUp (f : Val → Val → Val) : List Val → List Val
  | a :: b :: t => f a b :: pairUp f t
  | l => l

/-- Reduce a row: 64 lanes in ascending order, then the binary tree (R266). -/
def reduce (f : Val → Val → Val) (start : Val) (row : List Val) : Val :=
  let lane (j : Nat) : Val := ((List.range (ceilDiv (row.length - j) 64)).foldl (fun a i => f a (row.getD (64 * i + j) start)) start)
  let l := (List.range 64).map lane
  ((List.range 6).foldl (fun l _ => pairUp f l) l).headD start

def rsum (row : List Val) : Val := reduce (add 0x40) plus0 row
def rmax (row : List Val) : Val := reduce (max 0x41) minusInf row
def sumsq (row : List Val) : Val := rsum (row.map (fun x => mul 0x43 x x))

/-- A row length as an FP32 value. -/
def ofRow (n : Nat) : Val := ((encodeFp fp32 (.fin false n 0)).1, 0)

/-- A row of the reduction and normalisation group (Table 7-7, R266). -/
def row (op c : Nat) (xs : List Val) : List Val :=
  let n := ofRow xs.length
  let k : Val := (c, 0)
  match op with
  | 0x40 => [rsum xs]
  | 0x41 => [rmax xs]
  | 0x42 => [div op (rsum xs) n]
  | 0x43 => [sumsq xs]
  | 0x48 =>
    let mu := div op (rsum xs) n
    let d := xs.map (fun x => sub op x mu)
    let var := div op (rsum (d.map (fun x => mul op x x))) n
    let r := rsqrt (add op var k)
    d.map (fun x => mul op x r)
  | 0x49 =>
    let r := rsqrt (add op (div op (sumsq xs) n) k)
    xs.map (fun x => mul op x r)
  | 0x4A =>
    let m := rmax xs
    let e := xs.map (fun x => exp (sub op x m))
    let s := rsum e
    e.map (fun x => div op x s)
  | _ =>
    let r := rsqrt (max op (sumsq xs) k)
    xs.map (fun x => mul op x r)

/-- Widen an input element to FP32: exact, or, for INT32 and FP64, to nearest, ties to even (R264). -/
def widen (f c : Nat) : Val :=
  let v := decodeNum f c
  ((encodeFp fp32 v).1, 0)

/-- Narrow a result into the output format (R264, Table 6-5). -/
def narrow (f : Nat) (v : Val) : Nat × Nat :=
  let r := if f = 2 then (v.1, 0) else encodeNum f (ofFp32 v.1)
  (r.1, r.2 ||| v.2)

/-- The output codes of an operation over dense inputs, in canonical order, with the events of every element. `len` is
the extent of dimension 0 (COPY converts directly). -/
def run (op c fin0 fin1 fout len : Nat) (xs ys : List Nat) : List (Nat × Nat) :=
  if op = 1 then xs.map (fun x => convert fin0 fout x)
  else if reduces op then
    (List.range (ceilDiv xs.length len)).flatMap (fun r =>
      (row op c (((xs.drop (r * len)).take len).map (widen fin0))).map (narrow fout))
  else if twoInputs op then
    (xs.zip ys).map (fun p => narrow fout (elem op c (widen fin0 p.1) (widen fin1 p.2)))
  else xs.map (fun x => narrow fout (elem op c (widen fin0 x) plus0))

end Ted
end Sys2Proof.Machine
end

