-- ==== Sys2Proof/Machine/Data.lean ====
section
/-! DEFINITION. How bytes move: reading a descriptor's image, converting it, writing it beat by beat in the canonical order
(R232 to R242, R683), and the external reads a source needs (R362, R368, R499). -/

namespace Sys2Proof.Machine

/-- What a read of a source comes to: a byte, or the status the work ends with. `0xFFFF` stands for bytes that have not
arrived yet. -/
abbrev Got := Except Nat

def notArrived : Nat := 0xFFFF

/-- Keys of external bytes: a bus address, or an address on the far device of connection `c`. -/
def farKey (c a : Nat) : Nat := 2 ^ 64 * (c + 1) + a

/-- One byte of the partition's own range as an engine reads it (Table 8-5, R242, R321). -/
def State.devByte (s : State) (p va : Nat) : Got Byte :=
  match s.xcheck p va false false with
  | some e => .error e.status
  | none =>
    if (s.vheathFail p va 1).isSome then .error 0x0041
    else if (s.vpoison p va 1).isSome then .error 0x0040
    else .ok ((s.vbytes p va 1).headD 0)

/-- A little-endian word of the partition's range. -/
def State.devWord (s : State) (p va : Nat) : Nat → Got Nat
  | 0 => .ok 0
  | n + 1 => match s.devByte p va, s.devWord p (va + 1) n with
    | .ok b, .ok r => .ok (b.toNat + 256 * r)
    | .error e, _ => .error e
    | _, .error e => .error e

/-- Where an owner block lies: `none` for this device, a connection otherwise, with its base (R235, R237). -/
def State.ownerEntry (s : State) (p : Nat) (d : Beat) (blk : Nat) : Got (Option Nat × Nat) :=
  match s.devWord p (Desc.base d + 16 * blk) 8, s.devWord p (Desc.base d + 16 * blk + 8) 8 with
  | .ok w0, .ok w1 =>
    if !w0.testBit 16 || w0 / 2 ^ 17 ≠ 0 || w1 / 2 ^ 57 ≠ 0 then .error 0x0024
    else
      let es := if isPlane (Desc.format d) then 1 else fmtEs (Desc.format d)
      let base := bitsOf w1 0 57
      if base % es ≠ 0 then .error 0x0024
      else if w0 % 2 ^ 16 = 0xFFFF then .ok (none, base)
      else
        let c := w0 % 2 ^ 16
        if s.connHeld p c && s.connState c == connOpen && s.connVer c == 2 then .ok (some c, base) else .error 0x0024
  | .error e, _ => .error e
  | _, .error e => .error e

/-- The external key of a byte of a PEER or remote place; `none` for a place of this device. -/
inductive Spot where
  | dev (va : Nat)
  | ext (key : Nat)
  deriving DecidableEq, Repr

/-- Where byte `off` of block `blk` of a descriptor lies (R237, R241). -/
def State.spot (s : State) (p : Nat) (d : Beat) (blk off : Nat) : Got Spot :=
  match Desc.space d with
  | 0 => .ok (.dev (Desc.base d + off))
  | 1 => if s.inWindow (Desc.peer d) (Desc.base d + off) 1 then .ok (.ext (Desc.base d + off)) else .error 0x0023
  | _ => match s.ownerEntry p d blk with
    | .ok (none, b) => .ok (.dev (b + off))
    | .ok (some c, b) => .ok (.ext (farKey c (b + off)))
    | .error e => .error e

/-- A byte that came from outside: received, failed, or not arrived. -/
def Item.extByte (it : Item) (key : Nat) : Got Byte :=
  match Tab.find? it.src key with
  | some b => .ok b
  | none => match it.bad with
    | some (_, st) => .error st
    | none => .error notArrived

/-- One byte of a source descriptor. -/
def State.srcByte (s : State) (it : Item) (d : Beat) (blk off : Nat) : Got Byte :=
  match s.spot it.part d blk off with
  | .ok (.dev va) => s.devByte it.part va
  | .ok (.ext k) => it.extByte k
  | .error e => .error e

/-- Fold a list through readings that may fail. -/
def gotAll {α β : Type} (f : α → Got β) : List α → Got (List β)
  | [] => .ok []
  | a :: t => match f a with
    | .ok b => match gotAll f t with
      | .ok l => .ok (b :: l)
      | .error e => .error e
    | .error e => .error e

/-- The bit at a place. -/
def State.srcBit (s : State) (it : Item) (d : Beat) (pl : Desc.Place) : Got Bool :=
  match s.srcByte it d pl.1 (pl.2 / 8) with
  | .ok b => .ok (b.toNat.testBit (pl.2 % 8))
  | .error e => .error e

/-- Bits, lowest first, as a number. -/
def ofBits (l : List Bool) : Nat := l.foldr (fun b a => b2n b + 2 * a) 0

/-- Image byte `o` of a source descriptor (R217): padding reads 0. -/
def State.srcImage (s : State) (it : Item) (d : Beat) (o : Nat) : Got Byte :=
  if isPlane (Desc.format d) && decide (o < Desc.elemPart d) then
    match gotAll (fun t => match Desc.bitPlace d o t with
      | some pl => s.srcBit it d pl
      | none => .ok false) (List.range 8) with
    | .ok l => .ok (BitVec.ofNat 8 (ofBits l))
    | .error e => .error e
  else match Desc.bitPlace d o 0 with
    | some pl => s.srcByte it d pl.1 (pl.2 / 8)
    | none => .ok 0

/-- The code of view element `n` of a source descriptor. -/
def State.srcCode (s : State) (it : Item) (d : Beat) (n : Nat) : Got Nat :=
  let pl := Desc.elemPlace d n
  if isPlane (Desc.format d) then
    match gotAll (fun b => s.srcBit it d (pl.1, 8 * (b * Desc.planeStride d) + pl.2)) (List.range (fmtBits (Desc.format d))) with
    | .ok l => .ok (ofBits l)
    | .error e => .error e
  else
    match gotAll (fun i => s.srcByte it d pl.1 (pl.2 / 8 + i)) (List.range (fmtEs (Desc.format d))) with
    | .ok l => .ok (ofLe l)
    | .error e => .error e

/-- The scale code of view block `m` of an MX source. -/
def State.srcScale (s : State) (it : Item) (d : Beat) (m : Nat) : Got Nat :=
  let pl := Desc.scalePlace d (Desc.blockFirst d m)
  match s.srcByte it d pl.1 (pl.2 / 8) with
  | .ok b => .ok b.toNat
  | .error e => .error e

/-- The MX block of view element `n`. -/
def mxBlock (d : Beat) (n : Nat) : Nat :=
  n / Desc.viewExt d 0 * ceilDiv (Desc.viewExt d 0) 32 + n % Desc.viewExt d 0 / 32

/-- The value of view element `n` of a source (R220). -/
def State.srcNum (s : State) (it : Item) (d : Beat) (n : Nat) : Got Num :=
  match s.srcCode it d n with
  | .error e => .error e
  | .ok c =>
    if Desc.mx d then match s.srcScale it d (mxBlock d n) with
      | .ok x => .ok (mxValue (Desc.format d) x c)
      | .error e => .error e
    else .ok (decodeNum (Desc.format d) c)

/-- The view elements of block `m`. -/
def blockElems (d : Beat) (m : Nat) : List Nat :=
  let f := Desc.blockFirst d m
  (List.range (min 32 (Desc.viewExt d 0 - f % Desc.viewExt d 0))).map (f + ·)

/-- The copy changes no element's code. -/
def plainPair (a b : Beat) : Bool := Desc.format a == Desc.format b && Desc.mx a == Desc.mx b

/-- The scale code of destination block `m` and its flags (R233). -/
def State.dstScale (s : State) (it : Item) (a b : Beat) (m : Nat) : Got (Nat × Flags) :=
  match gotAll (s.srcNum it a) (blockElems b m) with
  | .ok vs => .ok (mxScale (Desc.format b) vs)
  | .error e => .error e

/-- The code of destination element `n` and its flags (R232, R233). -/
def State.dstCode (s : State) (it : Item) (a b : Beat) (n : Nat) : Got (Nat × Flags) :=
  if Desc.mx b then
    match s.dstScale it a b (mxBlock b n), s.srcNum it a n with
    | .ok (x, f), .ok v =>
      let r := if x = 0xFF then (0, 0) else mxEncode (Desc.format b) x v
      .ok (r.1, r.2 ||| f)
    | .error e, _ => .error e
    | _, .error e => .error e
  else if Desc.mx a then
    match s.srcNum it a n with
    | .ok v => .ok (encodeNum (Desc.format b) v)
    | .error e => .error e
  else match s.srcCode it a n with
    | .ok c => .ok (convert (Desc.format a) (Desc.format b) c)
    | .error e => .error e

/-- Image byte `o` of a descriptor whose elements' codes are given. -/
def codeImage (d : Beat) (code : Nat → Got (Nat × Flags)) (scale : Nat → Got (Nat × Flags)) (o : Nat) : Got (Byte × Flags) :=
  if o < Desc.elemPart d then
    if isPlane (Desc.format d) then
      let b := o / Desc.planeBytes d
      let k := 8 * (o % Desc.planeBytes d)
      match gotAll (fun t => if k + t < Desc.count d then
          (match code (k + t) with | .ok (c, f) => Except.ok (c.testBit b, f) | .error e => .error e)
        else .ok (false, 0)) (List.range 8) with
      | .ok l => .ok (BitVec.ofNat 8 (ofBits (l.map (·.1))), l.foldl (fun a x => a ||| x.2) 0)
      | .error e => .error e
    else
      let es := fmtEs (Desc.format d)
      if o / es < Desc.count d then match code (o / es) with
        | .ok (c, f) => .ok (BitVec.ofNat 8 (c / 256 ^ (o % es)), f)
        | .error e => .error e
      else .ok (0, 0)
  else if o - Desc.elemPart d < Desc.scaleBlocks d then match scale (o - Desc.elemPart d) with
    | .ok (c, f) => .ok (BitVec.ofNat 8 c, f)
    | .error e => .error e
  else .ok (0, 0)

/-- The destination image of a copy from `a` to `b` (MOVE COPY, LAYOUT). -/
def State.copyImage (s : State) (it : Item) (a b : Beat) (o : Nat) : Got (Byte × Flags) :=
  if plainPair a b then match s.srcImage it a o with
    | .ok x => .ok (x, 0)
    | .error e => .error e
  else codeImage b (s.dstCode it a b) (s.dstScale it a b) o

/-- The cells a beat writes: (block × 2^60 + byte offset) with a mask of bits and their values. Padding writes nothing. -/
def beatCells (d : Beat) (o : Nat) (bs : List Byte) : Tab (Nat × Nat) :=
  (List.range bs.length).foldl (fun t i =>
    let b := (bs.getD i 0).toNat
    if isPlane (Desc.format d) && decide (o + i < Desc.elemPart d) then
      (List.range 8).foldl (fun t j => match Desc.bitPlace d (o + i) j with
        | some pl =>
          let k := pl.1 * 2 ^ 60 + pl.2 / 8
          let c := Tab.get (0, 0) t k
          let m := 2 ^ (pl.2 % 8)
          Tab.put t k (c.1 ||| m, c.2 ||| (if b.testBit j then m else 0))
        | none => t) t
    else match Desc.bitPlace d (o + i) 0 with
      | some pl => Tab.put t (pl.1 * 2 ^ 60 + pl.2 / 8) (255, b)
      | none => t) []

/-- Join cells at consecutive places: (first place, masks and values). -/
def cellRuns : List (Nat × Nat × Nat) → List (Nat × List (Nat × Nat))
  | [] => []
  | (k, c) :: t => match cellRuns t with
    | (j, l) :: r => if j = k + 1 then (k, c :: l) :: r else (k, [c]) :: (j, l) :: r
    | [] => [(k, [c])]

/-- Merge masked bits into the bytes held. -/
def mergeBits (old : List Byte) (cs : List (Nat × Nat)) : List Byte :=
  (List.range cs.length).map (fun i =>
    let c := cs.getD i (255, 0)
    BitVec.ofNat 8 (((old.getD i 0).toNat &&& (255 - c.1)) ||| c.2))

/-- What a write of a run of cells comes to. -/
inductive Wrote where
  | ok (s : State)
  | fault (s : State) (status addr : Nat)

/-- Write masked bytes to the partition's own range as an engine (R241). -/
def State.devWrite (s : State) (p va : Nat) (cs : List (Nat × Nat)) : Wrote :=
  match s.xcheckRun p va cs.length true false with
  | some (e, o) => .fault (s.dtuFault p e.kind 1 (va + o) true) e.status (va + o)
  | none => match s.vheathFail p va cs.length with
    | some o => .fault s 0x0041 (va + o)
    | none => .ok (s.vwrite .bulk p va (mergeBits (s.vbytes p va cs.length) cs))

/-- Write one run of a destination descriptor: to this device, to a peer as posted writes, or as a request to the far
device of an owner block (R499), which the item keeps until it is its turn. -/
def State.runWrite (s : State) (id : Nat) (d : Beat) (k : Nat) (cs : List (Nat × Nat)) (before : Nat) : Wrote :=
  match s.item? id with
  | none => .ok s
  | some it =>
    match s.spot it.part d (k / 2 ^ 60) (k % 2 ^ 60) with
    | .error e => .fault s e (Desc.base d + k % 2 ^ 60)
    | .ok (.dev va) => s.devWrite it.part va cs
    | .ok (.ext key) =>
      if key < 2 ^ 64 then
        let port := s.peerPort (Desc.peer d)
        if !s.inWindow (Desc.peer d) key cs.length then .fault s 0x0023 key
        else match s.portErr it.part port key with
          | some e => .fault s e key
          | none => .ok (s.sendWrite it.part port key (mergeBits [] cs) true)
      else
        let w : OwnerWr := { conn := key / 2 ^ 64 - 1, addr := key % 2 ^ 64, bytes := mergeBits [] cs
                             firstMask := (cs.headD (255, 0)).1, lastMask := (cs.getLastD (255, 0)).1, before }
        .ok (s.putItem { it with writes := it.writes ++ [w] })

/-- Write the runs of one beat in ascending order. -/
def State.runsWrite (id : Nat) (d : Beat) (before : Nat) : List (Nat × List (Nat × Nat)) → State → Wrote
  | [], s => .ok s
  | (k, cs) :: t, s => match s.runWrite id d k cs before with
    | .ok s => State.runsWrite id d before t s
    | w => w

/-- How a sequence of beats went: the state, the image bytes of the beats written, the conversion flags, and the status
and address at which it stopped. -/
structure Beats where
  s : State
  written : Nat
  flags : Flags
  stop : Option (Nat × ErrAt)

/-- Run the beats of a destination in order, until a source or destination fault (R242). -/
def State.runBeats (id : Nat) (d : Beat) (img : Nat → Got (Byte × Flags)) (src : ErrAt) : List Nat → Beats → Beats
  | [], r => r
  | o :: t, r =>
    match gotAll (fun i => img (o + i)) (List.range 64) with
    | .error e => { r with stop := some (e, src) }
    | .ok l =>
      match State.runsWrite id d r.written (cellRuns (beatCells d o (l.map (·.1)))) r.s with
      | .fault s e a => { r with s := s, stop := some (e, { addr := a, write := true, space := min (Desc.space d) 1, peer := Desc.peer d, desc := false }) }
      | .ok s => State.runBeats id d img src t
          { r with s := s, written := r.written + 64, flags := l.foldl (fun a x => a ||| x.2) r.flags }

/-- Set conversion flags in LTE_CONV_STATUS (R234). -/
def State.lteFlags (s : State) (p : Nat) (f : Flags) : State :=
  s.setReg Reg.LTE_CONV_STATUS p (s.reg Reg.LTE_CONV_STATUS p ||| BitVec.ofNat 64 (f % 16))

def State.tedFlags (s : State) (p : Nat) (f : Flags) : State :=
  s.setReg Reg.TED_CONV_STATUS p (s.reg Reg.TED_CONV_STATUS p ||| BitVec.ofNat 64 (f % 64))

/-- Consecutive places as runs: (start, length), each place an address and the next one `step` on. -/
def joinRuns (step : Nat) : List Nat → List (Nat × Nat)
  | [] => []
  | a :: t => match joinRuns step t with
    | (b, n) :: r => if b = a + step then (a, n + step) :: r else (a, step) :: (b, n) :: r
    | [] => [(a, step)]

/-- For each element of a run list, whether its run meets the full-rate conditions (R225), in bits. -/
def fullFlags (step unit : Nat) (places : List Nat) : List Bool :=
  (joinRuns step places).flatMap (fun r => List.replicate (r.2 / step) (r.1 % unit == 0 && r.2 % unit == 0))

/-- Elements of a view that move at the full rate on one side. -/
def sideFull (d : Beat) : List Bool :=
  let base := 8 * (if Desc.space d = 2 then 0 else Desc.base d)
  let step := if isPlane (Desc.format d) then 1 else 8 * fmtEs (Desc.format d)
  fullFlags step 1024 ((List.range (Desc.count d)).map (fun n => let pl := Desc.elemPlace d n; pl.1 * 2 ^ 70 + base + pl.2))

/-- Lanes of 2 bytes a dimension of `n` elements spans (R229). -/
def lanes (f n : Nat) : Nat := if isPlane f then n / 16 else n * fmtEs f / 2

/-- The permutation changes the innermost dimension, and the smaller innermost extent is below 64 lanes (R230). -/
def slowPerm (a b : Beat) : Bool :=
  Desc.permAt (Desc.perm a) 0 != Desc.permAt (Desc.perm b) 0 &&
  decide (min (lanes (Desc.format a) (Desc.ext a 0)) (lanes (Desc.format b) (Desc.ext b 0)) < 64)

/-- Count the bytes work moved through an LTE at each rate (R225, R227, R230): the larger of the two byte counts. -/
def State.lteCount (s : State) (p : Nat) (a b : Beat) (written : Nat) : State :=
  let fa := sideFull a
  let fb := sideFull b
  let bits := max (fmtBits (Desc.format a)) (fmtBits (Desc.format b))
  let full := if slowPerm a b then 0 else ((fa.zip fb).filter (fun x => x.1 && x.2)).length * bits / 8
  let all := max (Desc.count a * bits / 8) (Desc.count b * bits / 8)
  let done (n : Nat) := if Desc.imageSize b = 0 then 0 else n * min written (Desc.imageSize b) / Desc.imageSize b
  (s.bump F.LTE_BYTES_FULL_BYTES p (done full)).bump F.LTE_BYTES_HALF_BYTES p (done (all - full))

/-- Bytes a source descriptor reads outside the partition's own range, in generation order: external keys. Faults of the
owner table and of the window are left to the beat that meets them. -/
def State.extKeys (s : State) (p : Nat) (d : Beat) : List Nat :=
  if Desc.space d = 0 then []
  else
    let bytes := (Desc.beats d).flatMap (fun o => (List.range 64).flatMap (fun i =>
      if isPlane (Desc.format d) && decide (o + i < Desc.elemPart d) then
        (List.range 8).filterMap (fun t => (Desc.bitPlace d (o + i) t).map (fun pl => (pl.1, pl.2 / 8)))
      else ((Desc.bitPlace d (o + i) 0).map (fun pl => (pl.1, pl.2 / 8))).toList))
    (bytes.filterMap (fun x => match s.spot p d x.1 x.2 with
      | .ok (.ext k) => some k
      | _ => none)).foldl (fun l k => if l.getLast? = some k then l else l ++ [k]) []

/-- Cut a run at multiples of `m` and to at most `m` bytes. -/
def cutRun (m : Nat) : Nat → Nat → Nat → List (Nat × Nat)
  | 0, _, _ => []
  | f + 1, a, n => if n = 0 then [] else
    let k := min n (m - a % m)
    (a, k) :: cutRun m f (a + k) (n - k)

/-- The requests for external bytes: consecutive keys joined, cut at the Max Read Request Size, or at 64 KiB for an owner
block (R362, R499). -/
def State.extRuns (s : State) (p port : Nat) (keys : List Nat) : List (Nat × Nat) :=
  (joinRuns 1 keys).flatMap (fun r =>
    let m := if r.1 < 2 ^ 64 then min 4096 (s.mrrsOf (s.reqFn p port)) else 65536
    cutRun m (r.2 / m + 2) r.1 r.2)

/-- Cut a run of `n` bytes at destination offset `o` at multiples of the burst size: address, length, burst (R362). -/
def burstPieces (b : Nat) : Nat → Nat → Nat → Nat → List (Nat × Nat × Nat)
  | 0, _, _, _ => []
  | f + 1, o, a, n => if n = 0 then [] else
    let m := min n (b - o % b)
    (a, m, o / b) :: burstPieces b f (o + m) (a + m) (n - m)

/-- Cut the requests of a destination that begins at offset `o` into bursts. -/
def burstCut (b : Nat) : Nat → List (Nat × Nat) → List (Nat × Nat × Nat)
  | _, [] => []
  | o, (a, n) :: t => burstPieces b (n / b + 2) o a n ++ burstCut b (o + n) t

/-- Bytes of a burst code of Table 10-1, with the channel's default for 0 (Table 10-10). -/
def State.burstBytes (s : State) (c code : Nat) : Nat :=
  let d := s.rd F.CAR_CH_CFG_BURST c
  let d := if 1 ≤ d ∧ d ≤ 5 then d else 5
  128 * 2 ^ (if code = 0 then d else code)

/-- Give an item its external requests, cut into bursts. -/
def Item.withRuns (it : Item) (l : List (Nat × Nat × Nat)) : Item :=
  { it with runs := l.map (fun x => (x.1, x.2.1)), bursts := l.map (fun x => x.2.2), begun := true }

/-- The line tag of request `k`. -/
def Item.lineTag (it : Item) (k : Nat) : Nat := it.id * 2 ^ 64 + it.bursts.getD k k

/-- The request's burst has a line already. -/
def State.hasLine (s : State) (c tag : Nat) : Bool := s.host.reads.any (fun e => e.2.line == some (c, tag))

/-- Lines a class may take on a die, and the limit of the channel (R361). -/
def State.lineFree (s : State) (c urg : Nat) : Bool :=
  let d := c / 64
  let cap := if urg = 0 then 256 else if urg = 1 then 240 else 224
  let m := s.rd F.CAR_CH_CFG_MAX_LINES c
  let m := if 1 ≤ m ∧ m ≤ 64 then m else 16
  decide (s.rd F.CAR_PACE_STATUS_IN_USE d < cap) && (decide (urg ≤ 1) || decide (s.rd F.CAR_CH_STATUS_LINES c < m))

/-- Issue an item's next external requests while lines and tags allow (R361, R448, R499). A request that cannot be sent
because its port, bus mastering or IDE refuses it fails there. -/
def State.issueReads : Nat → State → Nat → State
  | 0, s, _ => s
  | f + 1, s, id =>
    match s.item? id with
    | none => s
    | some it =>
      match it.runs[it.issued]?, it.channel with
      | some (k, n), some c =>
        if it.bad.isSome || it.stage = .parked then s
        else if 2 ^ 64 ≤ k then
          if s.remoteReads id < 16 then
            let conn := k / 2 ^ 64 - 1
            let a := k % 2 ^ 64
            if s.connState conn != connOpen then s.putItem { it with bad := some (it.issued, 0x0024) }
            else
              let s := s.sendRequest conn 0x08 it.urg it.deadline (beBytes 8 a ++ beBytes 4 n) [] id it.issued
              (s.putItem { it with issued := it.issued + 1 }).issueReads f id
          else s
        else
          let peer := match it.work with
            | .intake .. => it.peer
            | _ => Desc.peer it.ta
          let host := match it.work with
            | .chain ws => bitsOf (ws.getD 0 0) 4 2 == 2
            | _ => false
          let peer := match it.work with
            | .chain ws => bitsOf (ws.getD 0 0) 24 6
            | _ => peer
          let port := if host then s.hostPort else s.peerPort peer
          if !host && !s.inWindow peer k n then s.putItem { it with bad := some (it.issued, 0x0023) }
          else match s.portErr it.part port k with
          | some e => s.putItem { it with bad := some (it.issued, e) }
          | none =>
            if !s.hasLine c (it.lineTag it.issued) && !s.lineFree c it.urg then
              if it.urg = 0 then s.sat F.CAR_PACE_STATUS_U0_WAITS (c / 64) 1 else s
            else match (if host then s.hostAddr (s.fnOf it.part) k false else some k) with
              | none => (s.askAts (s.fnOf it.part) k).putItem { it with stage := .ats }
              | some a => match s.sendRead it.part port a n (it.urg == 0) (.burst id it.issued)
                  (some (c, it.lineTag it.issued)) with
                | none => s
                | some s => ((s.putItem { it with issued := it.issued + 1 }).refreshLines c).issueReads f id
      | _, _ => s

/-- Every request of an item has been answered, or every one before the first that failed has. -/
def Item.arrived (it : Item) : Bool :=
  let n := match it.bad with
    | some (k, _) => k
    | none => it.runs.length
  (List.range n).all (fun k => it.got.testBit k)

/-- Request `k` of an item is answered with data. -/
def State.gotRead (s : State) (id k : Nat) (data : List Byte) : State :=
  match s.item? id with
  | none => s
  | some it =>
    let a := (it.runs.getD k (0, 0)).1
    let n := (it.runs.getD k (0, 0)).2
    let src := (List.range n).foldl (fun t i => Tab.put t (a + i) (data.getD i 0)) it.src
    s.putItem { it with src, got := it.got ||| 2 ^ k, since := s.time }

/-- Request `k` of an item has failed. -/
def State.badRead (s : State) (id k status : Nat) : State :=
  match s.item? id with
  | none => s
  | some it => match it.bad with
    | some (j, _) => if k < j then s.putItem { it with bad := some (k, status) } else s
    | none => s.putItem { it with bad := some (k, status) }

/-- Send an item's next owner-block writes, at most 16 requests outstanding (R499). -/
def State.issueWrites : Nat → State → Nat → State
  | 0, s, _ => s
  | f + 1, s, id =>
    match s.item? id with
    | none => s
    | some it => match it.writes with
      | [] => s
      | w :: t =>
        if it.wrBad.isSome then s.putItem { it with writes := [] }
        else if s.remoteReads id < 16 then
          let s := s.sendRequest w.conn 0x09 it.urg it.deadline
            (beBytes 8 w.addr ++ beBytes 4 w.bytes.length ++ beBytes 1 w.firstMask ++ beBytes 1 w.lastMask) w.bytes id w.before
          (s.putItem { it with writes := t }).issueWrites f id
        else s

end Sys2Proof.Machine
end

