-- ==== Sys2Proof/Machine/Life.lean ====
section
/-! DEFINITION. What can befall a tile outside a movement: release, loss, heal by recompute, the fallback of a regrow, and
what follows for the tiles that depend on it (R58 to R64, R271, R616). -/

namespace Sys2Proof.Machine

/-- A 24-bit signed field. -/
def signed24 (n : Nat) : Int := if n < 2 ^ 23 then n else (n : Int) - 2 ^ 24

/-- A tile index moved by a recipe's delta; `none` below 0. -/
def shiftTile (tile delta : Nat) : Option Nat :=
  let i := (tile : Int) + signed24 delta
  if i < 0 then none else some i.toNat

/-- The inputs of a recipe for a tile: (object, tile), `none` where the index falls below 0 (Table 7-8). -/
def recipeInputs (rc : Recipe) (tile : Nat) : List (Nat × Option Nat) :=
  let w1 := rc.words.getD 1 0
  let w2 := rc.words.getD 2 0
  (bitsOf w1 0 27, shiftTile tile (bitsOf w1 32 24)) ::
    (if w1.testBit 27 then [(bitsOf w2 0 27, shiftTile tile (bitsOf w2 32 24))] else [])

/-- The inputs of a REGROW record that exist as tiles. -/
def State.inputsOf (s : State) (p : Nat) (r : TileRec) (tile : Nat) : List (Nat × Nat) :=
  match s.recipeOf p r with
  | none => []
  | some rc => (recipeInputs rc tile).filterMap (fun x => match x.2 with
      | some t => if s.tileExists p x.1 t then some (x.1, t) else none
      | none => none)

/-- A live REGROW tile: one that depends on its inputs (R63). -/
def TileRec.regrows (r : TileRec) : Bool := r.disp == .regrow && r.state != .lost && r.state != .released

/-- The live REGROW tiles that have a tile as an input. -/
def State.dependents (s : State) (p obj tile : Nat) : List (Nat × Nat) :=
  ((s.tiles.filter (fun e => e.1 / 2 ^ 51 == p && e.2.regrows &&
    (s.inputsOf p e.2 (e.1 % 2 ^ 24)).contains (obj, tile)))).map (fun e => (e.1 / 2 ^ 24 % 2 ^ 27, e.1 % 2 ^ 24))

/-- Release a tile (R63, R203): it becomes DROP and RELEASED and its home is freed; an input of a live REGROW tile waits
with USES 0. A REGROW tile that goes lets its own inputs go. -/
def State.releaseTile : Nat → State → Nat → Nat → Nat → State
  | 0, s, _, _, _ => s
  | f + 1, s, p, obj, tile =>
    let r := s.tile p obj tile
    if !(s.dependents p obj tile).isEmpty then s.setTile p obj tile { r with uses := 0 }
    else
      let ins := if r.disp = .regrow then s.inputsOf p r tile else []
      let s := (s.freeTile p r .normal).setTile p obj tile { r.homeless with disp := .drop, state := .released, uses := 0 }
      ins.foldl (fun s i =>
        let q := s.tile p i.1 i.2
        if q.uses = 0 ∧ q.state = .resident then s.releaseTile f p i.1 i.2 else s) s

/-- Release a tile. -/
def State.release (s : State) (p obj tile : Nat) : State := s.releaseTile (s.tiles.length + 1) p obj tile

/-- Inputs whose USES reached 0 go once nothing depends on them (R63). -/
def State.releaseInputs (s : State) (p : Nat) (ins : List (Nat × Nat)) : State :=
  ins.foldl (fun s i =>
    let q := s.tile p i.1 i.2
    if q.uses = 0 ∧ q.state = .resident then s.release p i.1 i.2 else s) s

/-- ADDR and ADDR_KIND of a location (Table 17-3). -/
def deadAddr (k : Nat) : Nat × Nat :=
  match homeOf k with
  | .heath => (k - heathKey 0, 3)
  | .moor => (locationOf k, 4)
  | _ => (k, 1)

/-- A dead-letter entry about a tile: its record before, its record after. -/
def tileDead (kind source status p obj tile : Nat) (was now : TileRec) (at' : Option Nat) (detail : Nat) : Dead :=
  let a := match at' with
    | some k => deadAddr k
    | none => if was.home = Home.none then (0, 0) else deadAddr was.key
  { kind, source, status, handle := handleOf p obj, tile, gen := was.gen, addr := a.1, addrKind := a.2
    dispBefore := was.disp.code, dispAfter := now.disp.code, stateAfter := now.state.code, step := was.step, detail }

/-- A DELIVER of one tile. -/
def Work.isDeliver : Work → Bool
  | .deliver _ => true
  | _ => false

/-- Deliveries that wait for a tile to be RESIDENT are placed again. -/
def State.requeueWaiters (s : State) (p obj tile : Nat) : State :=
  { s with items := s.items.map (fun e =>
      if e.2.part = p ∧ e.2.obj = obj ∧ e.2.tile = tile ∧ e.2.stage = .deferred ∧
        e.2.work.isDeliver then (e.1, { e.2 with stage := .queued, started := false })
      else e) }

/-- The regrow in progress of a tile. -/
def State.regrowItem (s : State) (p obj tile : Nat) : Option Nat :=
  (List.find? (fun (e : Nat × Item) => e.2.part == p && e.2.obj == obj && e.2.tile == tile && e.2.work == .regrow && e.2.started)
    s.items).map (·.1)

/-- A tile's data is unrecoverable: LOST, its home freed, an entry in the log (R60, R616, R627). REGROW tiles that depend
on it fall back: to RETURN where their flag permits, otherwise LOST with an entry (R271). -/
def State.loseTile : Nat → State → (p obj tile source status : Nat) → Option Nat → State
  | 0, s, _, _, _, _, _, _ => s
  | f + 1, s, p, obj, tile, source, status, at' =>
    let r := s.tile p obj tile
    let ins := if r.regrows then s.inputsOf p r tile else []
    let deps := s.dependents p obj tile
    let now := { r.homeless with state := .lost }
    let s := (s.freeTile p r .normal).setTile p obj tile now
    let s := (s.sat F.DLS_LOST_COUNT p 1).deadLetter p (tileDead 1 source status p obj tile r now at' 0)
    let s := s.releaseInputs p ins
    let s := deps.foldl (fun s d =>
      let s := match s.regrowItem p d.1 d.2 with
        | some id => s.finish id 0x0056 0 ErrAt.none
        | none => s
      let q := s.tile p d.1 d.2
      let s := (s.flag F.PART_LIFE_STATUS_REGROW_FALLBACK p).sat F.TED_FALLBACK_COUNT p 1
      if q.returnOk then
        ((s.setTile p d.1 d.2 { q with disp := .ret }).releaseInputs p (s.inputsOf p q d.2)).requeueWaiters p d.1 d.2
      else s.loseTile f p d.1 d.2 source status none) s
    s.requeueWaiters p obj tile

/-- A tile becomes LOST. -/
def State.lose (s : State) (p obj tile source status : Nat) (at' : Option Nat) : State :=
  s.loseTile (s.tiles.length + 1) p obj tile source status at'

/-- A regrow cannot start or go on: the tile goes to RETURN or LOST (R271). -/
def State.fallback (s : State) (p obj tile : Nat) : State :=
  let r := s.tile p obj tile
  let s := (s.flag F.PART_LIFE_STATUS_REGROW_FALLBACK p).sat F.TED_FALLBACK_COUNT p 1
  if r.returnOk then
    ((s.setTile p obj tile { r with disp := .ret, state := .resident }).releaseInputs p (s.inputsOf p r tile)).requeueWaiters
      p obj tile
  else s.lose p obj tile 2 0x0056 none

/-- A tile's stored bytes include poison. -/
def State.tilePoisoned (s : State) (r : TileRec) : Bool :=
  r.home != .none && (s.poisonOffset r.key r.stored).isSome

/-- A recipe's inputs are all RESIDENT and none of them holds poison (Table 2-6, R616). -/
def State.inputsGood (s : State) (p : Nat) (r : TileRec) (tile : Nat) : Bool :=
  match s.recipeOf p r with
  | none => false
  | some rc => (recipeInputs rc tile).all (fun x => match x.2 with
      | none => false
      | some t => s.tileExists p x.1 t && (s.tile p x.1 t).state == .resident && !s.tilePoisoned (s.tile p x.1 t))

/-- A disposition of the poste restante. -/
def Disp.stored (d : Disp) : Bool := d == .hold || d == .press || d == .spill || d == .sink

/-- Heal a RESIDENT tile by recompute, or lose it (R616). -/
def State.heal (s : State) (p obj tile source status : Nat) (at' : Option Nat) : State :=
  let r := s.tile p obj tile
  if r.state ≠ .resident ∨ !r.disp.stored then s
  else if r.regrowOk ∧ s.inputsGood p r tile then
    let now := { r.homeless with disp := .regrow }
    ((s.setTile p obj tile now).freeTile p r .normal).deadLetter p (tileDead 2 source status p obj tile r now at' 0)
  else if r.returnOk then
    let now := { r.homeless with disp := .ret }
    ((s.setTile p obj tile now).freeTile p r .normal).deadLetter p (tileDead 2 source status p obj tile r now at' 0)
  else s.lose p obj tile source status at'

/-- After work on a tile has ended: a RESIDENT tile with poison in its stored bytes is healed or lost (Table 2-7, R617). -/
def State.afterTile (s : State) (p obj tile source status : Nat) : State :=
  let r := s.tile p obj tile
  if r.state = .resident ∧ r.disp.stored ∧ s.tilePoisoned r then
    s.heal p obj tile source status ((s.poisonOffset r.key r.stored).map (fun o => r.key + o / 32 * 32))
  else s

/-- Work ends with a status, and what its end brings to its tile. -/
def State.endItem (s : State) (id status residue : Nat) (e : ErrAt) : State :=
  match s.item? id with
  | none => s
  | some it =>
    let s := s.finish id status residue e
    (if it.tiles.isEmpty then [it.tile] else it.tiles).foldl (fun s t => s.afterTile it.part it.obj t 2 0x0040) s

/-- An intake or movement ends before its commit: an intake's record returns to what it was (R60). -/
def State.failItem (s : State) (id status residue : Nat) (e : ErrAt) : State :=
  match s.item? id with
  | none => s
  | some it =>
    let s := match it.before with
      | some r => s.setTile it.part it.obj it.tile r
      | none => s
    s.endItem id status residue e

end Sys2Proof.Machine
end

