-- ==== Sys2Proof/Machine/Moor.lean ====
section
/-! DEFINITION. Transfers to and from Moor targets: NVMe commands and BLOCK requests (R282, R478 to R480, R500, R685). -/

namespace Sys2Proof.Machine

/-- Commands or requests a Moor target has outstanding. -/
def State.moorOut (s : State) (t : Nat) : Nat :=
  if s.rd F.TIER_MOOR_TGT_KIND t = 1 then (s.eth.nvme.filter (fun e => e.2.target == t)).length
  else ((s.conn (s.rd F.TIER_MOOR_TGT_CONN t)).reqs.filter (fun r => decide (0x0C ≤ r.opcode))).length

/-- The most a target holds at once (R685). -/
def State.moorRoom (s : State) (t : Nat) : Nat :=
  if s.rd F.TIER_MOOR_TGT_KIND t = 1 then
    let n := s.rd F.TIER_MOOR_TGT_CONN t
    s.rd F.CRR_NVME_CFG_QPS n * s.rd F.CRR_NVME_CFG_DEPTH n
  else 64

/-- Send one run of blocks to a target. -/
def State.moorOne (s : State) (it : Item) (w : Bool) (k n : Nat) : State :=
  let t := moorTarget k
  let lba := (k - moorKey t 0) / 4096
  let cnt := ceilDiv n 4096
  let c := s.rd F.TIER_MOOR_TGT_CONN t
  if s.rd F.TIER_MOOR_TGT_KIND t = 1 then
    let cmd := s.eth.nextCmd
    let x : NvmeCmd := { set := c, target := t, item := some it.id, write := w, lba, count := cnt, since := s.time, moved := 0
                         retries := 0 }
    let e := s.eth
    ({ s with eth := { e with nvme := Tab.put e.nvme cmd x, nextCmd := cmd + 1 } }).sendEth (s.rd F.CRR_NVME_CFG_PORT c) 0
      (.nvmeCommand (s.rd F.CRR_NVME_CFG_PORT c) cmd w (lba * s.lbas c) (cnt * s.lbas c))
  else
    s.sendRequest c (if w then 0x0D else 0x0C) it.urg it.deadline (beBytes 8 lba ++ beBytes 1 cnt)
      (if w then s.bytes k (cnt * 4096) else []) it.id lba

/-- Send an item's next block transfers while their targets have room; a target that is not UP fails it (R321). -/
def State.moorSend : Nat → State → Nat → State
  | 0, s, _ => s
  | f + 1, s, id =>
    match s.item? id with
    | none => s
    | some it => match it.blocks with
      | [] => s
      | (w, k, n) :: t =>
        let g := moorTarget k
        if it.bad.isSome then s.putItem { it with blocks := [] }
        else if !s.moorUp g then s.putItem { it with blocks := [], bad := some (it.issued, 0x0042) }
        else if s.rd F.TIER_MOOR_TGT_KIND g = 2 ∧ s.connState (s.rd F.TIER_MOOR_TGT_CONN g) ≠ connOpen then
          s.putItem { it with blocks := [], bad := some (it.issued, 0x0043) }
        else if s.moorOut g < s.moorRoom g then
          ((s.putItem { it with blocks := t }).moorOne it w k n).moorSend f id
        else s

/-- Cut a run of Moor bytes into commands of at most 32 blocks (R479). -/
def moorRuns (w : Bool) : Nat → Nat → Nat → List (Bool × Nat × Nat)
  | 0, _, _ => []
  | f + 1, k, n => if n = 0 then [] else
    let m := min n (32 * 4096)
    (w, k, m) :: moorRuns w f (k + m) (n - m)

/-- Queue and send the transfer of a run of Moor bytes for an item. -/
def State.moorMove (s : State) (id : Nat) (w : Bool) (k n : Nat) : State :=
  match s.item? id with
  | none => s
  | some it =>
    let b := it.blocks ++ moorRuns w (n / (32 * 4096) + 2) k n
    (s.putItem { it with blocks := b }).moorSend b.length id

/-- Block transfers of an item are still outstanding. -/
def State.moorBusy (s : State) (id : Nat) : Bool :=
  s.eth.nvme.any (fun e => e.2.item == some id) ||
  s.eth.conns.any (fun e => e.2.reqs.any (fun r => r.item == id && decide (0x0C ≤ r.opcode))) ||
  (match s.item? id with
    | some it => !it.blocks.isEmpty
    | none => false)

/-- One block command of an item has ended. -/
def State.moorDone (s : State) (id : Nat) (bad : Option Nat) : State :=
  match s.item? id with
  | none => s
  | some it =>
    let s := match bad with
      | some st => if it.bad.isNone then s.putItem { it with bad := some (it.issued, st), blocks := [] } else s
      | none => s
    s.moorSend (it.blocks.length + 1) id

/-- What reading a stored tile comes to: the image bytes up to the first fault, the fault, whether the image CRC holds. -/
structure TileRead where
  bytes : List Byte
  stop : Option Nat
  crc : Bool
  deriving DecidableEq, Repr

/-- IMAGE_CRC of a tile's metadata entry (Table 7-6). -/
def State.metaCrc (s : State) (p n : Nat) : Nat := fieldAt (s.vbytes p (s.rd F.PART_META_BASE_ADDR p + 32 * n) 32) 28 4

/-- Frames of a bale that end below offset `o`. -/
def framesBelow (b : List Byte) (o : Nat) : Nat :=
  let n := fieldAt b 8 2
  if o < Bale.frameArea n then 0
  else ((List.range n).takeWhile (fun i =>
    let e := fieldAt b (32 + 8 * i) 8
    decide (bitsOf e 0 24 + bitsOf e 32 13 ≤ o))).length

/-- Read a stored tile's image, unbaling it where it is compressed (section 2.7, R242, R258, R320). -/
def State.readTile (s : State) (p : Nat) (r : TileRec) (size : Nat) : TileRead :=
  let k := r.key
  let b := s.bytes k r.stored
  let po := s.poisonOffset k r.stored
  if s.heathFail k then { bytes := [], stop := some 0x0041, crc := true }
  else if homeOf k = .moor && s.moorState (moorTarget k) != 0 then { bytes := [], stop := some 0x0042, crc := true }
  else if r.compressed then
    match po with
    | some o => { bytes := (Bale.unbale b r.gen size).image.take (4096 * framesBelow b o), stop := some 0x0040, crc := true }
    | none =>
      let u := Bale.unbale b r.gen size
      if !u.header then { bytes := [], stop := some 0x0060, crc := true }
      else if !u.frames then { bytes := u.image, stop := some 0x0060, crc := true }
      else { bytes := u.image, stop := none, crc := (crc32c u.image).toNat == s.metaCrc p r.mta }
  else match po with
    | some o => { bytes := b.take (o / 64 * 64), stop := some 0x0040, crc := true }
    | none => { bytes := b, stop := none, crc := true }

/-- The image as the source of a delivery's beats. -/
def TileRead.img (t : TileRead) (o : Nat) : Got (Byte × Flags) :=
  if o < t.bytes.length then .ok (t.bytes.getD o 0, 0) else .error (t.stop.getD 0x0040)

end Sys2Proof.Machine
end

