-- ==== Sys2Proof/Machine/Intake.lean ====
section
/-! DEFINITION. The way in: Intake's checks, the Sieve, the Placer and its overflow, the commit with the Baler's pass and its
metadata entry (sections 2.3, 2.4, 2.8, 3.8, 7.4, 7.5). -/

namespace Sys2Proof.Machine

/-- LEVEL of a step under a lattice (R70): the largest level whose stride divides the step. -/
def levelOf (rs : RuleSet) (lat : Option Nat) (step : Nat) : Nat :=
  match lat with
  | none => 0
  | some l => (rs.lattice.filter (fun e => e.lattice == l && decide (0 < e.stride) && step % e.stride == 0)).foldl
      (fun a e => max a e.level) 0

/-- A Sieve entry matches (R80). -/
def SieveEntry.matches (e : SieveEntry) (cls layer level : Nat) (replay : Bool) : Bool :=
  (e.cls == 0xFFFF || e.cls == cls) && decide (e.layerLo ≤ layer) && decide (layer ≤ e.layerHi) &&
  e.levelMask.testBit level && (e.replayMatch == 0 || (e.replayMatch == 2) == replay)

/-- The first matching entry and its index. -/
def sieve (rs : RuleSet) (cls layer level : Nat) (replay : Bool) : Option (Nat × SieveEntry) :=
  match rs.sieve.findIdx? (fun e => e.matches cls layer level replay) with
  | some i => (rs.sieve[i]?).map (fun e => (i, e))
  | none => none

/-- The disposition the Sieve gives (R52, R71). -/
def sieveDisp (rs : RuleSet) (e : SieveEntry) (lat : Option Nat) (level : Nat) (replay : Bool) : Disp :=
  match lat with
  | none => e.disp
  | some l => match rs.lattice.find? (fun x => x.lattice == l && x.level == level) with
    | some x => if e.latticeDisp && decide (1 ≤ level) && (replay || x.forward) then x.disp else e.disp
    | none => e.disp

/-- The override that covers a tile, if one does (R106, R107). -/
def overrideFor (pl : Plan) (e : SieveEntry) (obj tile step : Nat) (replay : Bool) : Option Disp :=
  (pl.overrides.find? (fun o => match pl.schedule[o.entry]? with
    | some x => !x.change && x.obj == obj && decide (x.first ≤ tile) && decide (tile < x.first + x.count) &&
        x.step == step && x.replay == replay &&
        (o.disp != .regrow || e.regrowOk) && (o.disp != .ret || e.returnOk)
    | none => false)).map (·.disp)

/-- The Sieve entry that classified a record, under the tables its intake uses. -/
def sieveOf (rs : RuleSet) (r : TileRec) : Option SieveEntry := rs.sieve[r.rule]?

/-- The Placer entry of a record. -/
def placerOf (rs : RuleSet) (r : TileRec) : PlacerEntry :=
  match sieveOf rs r with
  | some e => (rs.placer[e.placerRule]?).getD { policy := 0, fixedDie := 0, ovfDown := false, ovfReturn := false }
  | none => { policy := 0, fixedDie := 0, ovfDown := false, ovfReturn := false }

/-- The Baler entry of a record. -/
def balerOf (rs : RuleSet) (r : TileRec) : BalerEntry :=
  match sieveOf rs r with
  | some e => (rs.baler[e.balerRule]?).getD { mode := 0, minRatio := 256, eps := 0, params := 0 }
  | none => { mode := 0, minRatio := 256, eps := 0, params := 0 }

/-- The rule tables a tile's later work goes by: the active ones. -/
def State.rulesOf (s : State) (p : Nat) : RuleSet :=
  ((s.plan p).active).getD { gen := 0, sieve := [], baler := [], placer := [], recipes := [], lattice := [] }

/-- The die a Placer rule selects (Table 2-14). -/
def State.placerDie (s : State) (e : PlacerEntry) (tile here : Nat) : Nat :=
  match e.policy with
  | 1 => let ds := s.onlineDies; ds.getD (tile % max ds.length 1) here
  | 2 => e.fixedDie
  | _ => here

/-- The home a disposition is stored in. -/
def Disp.home : Disp → Home
  | .hold => .meadow
  | .press => .meadow
  | .spill => .heath
  | .sink => .moor
  | _ => .none

/-- The tile passes a Baler on the way in (section 2.4, R54). -/
def bales (rs : RuleSet) (r : TileRec) (d : Disp) (size : Nat) : Bool :=
  let b := balerOf rs r
  (d == .press || ((d == .spill || d == .sink) && r.compressible)) && b.mode != 0 && !(b.mode == 2 && size == 4096)

/-- STALLED of PART_QUOTA_STATUS: the tiers with a stalled tile. -/
def State.refreshStalled (s : State) (p : Nat) : State :=
  let t (h : Home) := s.items.any (fun e => e.2.part == p && e.2.stage == .stalled && e.2.disp.home == h)
  s.wr F.PART_QUOTA_STATUS_STALLED p (b2n (t .meadow) + 2 * b2n (t .heath) + 4 * b2n (t .moor))

/-- QUOTA_PRESSURE for a tier (R116). -/
def State.pressure (s : State) (p tier : Nat) : State :=
  let s := s.wr F.PART_QUOTA_STATUS_PRESSURE p (s.rd F.PART_QUOTA_STATUS_PRESSURE p ||| 2 ^ tier)
  let s := s.irq p 1
  if s.rdb F.PART_QUOTA_SO_EN p then s.soSignal p (s.rd F.PART_QUOTA_SO_SO p) .add 1 else s

/-- Compressed-disposition intakes between reservation and commit (R99). -/
def State.windowUse (s : State) (p : Nat) : Nat :=
  (s.items.filter (fun e => e.2.part == p && e.2.resv.isSome && e.2.before.isSome &&
    (match e.2.rules with
      | some rs => bales rs (s.tile p e.2.obj e.2.tile) e.2.disp (s.tileSize p e.2.obj)
      | none => false))).length

/-- Engine wait of an intake that is to be baled; with no online Baler anywhere none is waited for (R245). -/
def State.wantBaler (s : State) (id die : Nat) : State :=
  match s.item? id with
  | none => s
  | some it => if (s.engineDies false die).isEmpty then s else s.putItem { it with want := some false, die }

/-- The stage of an item that waits for nothing but its channel. -/
def State.onStage (s : State) (it : Item) : Stage :=
  match it.channel with
  | none => .queued
  | some c =>
    let x := s.chan c
    if x.active = some it.id then .running else if x.parked.contains it.id then .parked else .placed

/-- The item's intake is a Courier PUT. -/
def Item.isPut (it : Item) : Bool :=
  match it.work with
  | .put .. => true
  | _ => false

/-- A reservation of the Placer is made: the record and the item take it. -/
def State.placed (s : State) (it : Item) (r : TileRec) (h : Home) (k size : Nat) (d : Disp) : State :=
  let rs := it.rules.getD (s.rulesOf it.part)
  let s := s.setTile it.part it.obj it.tile { r with disp := d }
  let st := if it.isPut then .running else s.onStage it
  let s := s.putItem { it with resv := some (h, k, size), disp := d, stage := st }
  if bales rs r d size then
    s.wantBaler it.id (if isMeadow k then dieOf k else s.placerDie (placerOf rs r) it.tile (it.core / 16))
  else s

/-- The Placer acts on a tile (R99, R115, R117): reserve; overflow one tier down; RETURN; stall. `again` marks a retry, which
raises no second QUOTA_PRESSURE. -/
def State.placeTile (s : State) (id : Nat) (again : Bool) : State :=
  match s.item? id with
  | none => s
  | some it =>
    let p := it.part
    let r := s.tile p it.obj it.tile
    let rs := it.rules.getD (s.rulesOf p)
    let size := s.tileSize p it.obj
    let pl := placerOf rs r
    let die := s.placerDie pl it.tile (it.core / 16)
    let kind := OwnKind.tile it.obj it.tile
    let d := it.disp
    if bales rs r d size && decide (s.rd F.PART_INTAKE_WINDOW_TILES p ≤ s.windowUse p) then
      s.putItem { it with stage := .windowed, since := s.time }
    else match s.reserve p d.home die 64 size kind with
    | some (k, s) => (s.placed it r d.home k size d).refreshStalled p
    | none =>
      let down : Option (Nat × State) := if pl.ovfDown then
          (match d with
            | .hold => s.reserve p .heath die 64 size kind
            | .press => s.reserve p .heath die 64 size kind
            | .spill => s.reserve p .moor die 64 size kind
            | _ => none)
        else none
      match down with
      | some (k, s) =>
        let d' := if d = .spill then Disp.sink else Disp.spill
        ((s.flag F.PART_QUOTA_STATUS_OVF_DOWN_TAKEN p).placed it r d'.home k size d').refreshStalled p
      | none =>
        if r.returnOk && pl.ovfReturn then
          let s := s.flag F.PART_QUOTA_STATUS_OVF_RETURN_TAKEN p
          let s := s.setTile p it.obj it.tile { r.homeless with disp := .ret, state := .resident }
          let s := (s.count p 0 size).putItem { it with before := none, ended := some (0, 0), flight := false
                                                        stage := if it.isPut then .running else s.onStage it }
          s.refreshStalled p
        else
          let s := s.putItem { it with stage := .stalled, since := if again then it.since else s.time }
          let s := s.refreshStalled p
          if again then s else s.pressure p d.home.tier

/-- Attributes of an intake: step, layer, replay, no data. -/
def Item.attrs (it : Item) : Nat × Nat × Bool × Bool :=
  match it.work with
  | .intake st la re nd => (st, la, re, nd)
  | .put _ _ st la re => (st, la, re, false)
  | _ => (0, 0, false, false)

/-- Why Intake refuses a tile (R49, R192); `size` is the size of the data that comes. -/
def State.intakeErr (s : State) (it : Item) (size : Nat) : Option Nat :=
  let a := it.attrs
  match (s.plan it.part).plan with
  | none => some 0x0050
  | some _ =>
    if !s.tileExists it.part it.obj it.tile || decide (0xFFFF < a.1) || decide (0xFFFF < a.2.1) ||
      (!a.2.2.2 && size != s.tileSize it.part it.obj) then some 0x0051
    else
      let r := s.tile it.part it.obj it.tile
      if r.state = .released ∨ r.state = .lost then none else some 0x0052

/-- Intake accepts a tile or refuses it (R48 to R53, R106): the refusal answers the status. An accepted tile whose data is
discarded is committed at once, and the intake ends. -/
def State.intake (s : State) (id size : Nat) (peerAt : Nat) : State :=
  match s.item? id with
  | none => s
  | some it =>
    let p := it.part
    match s.intakeErr it size with
    | some e => (s.flag F.PART_LIFE_STATUS_INTAKE_REFUSED p).putItem
        { it with ended := some (e, s.tileSize p it.obj), started := true }
    | none =>
      match (s.plan p).plan, (s.plan p).active, s.obj? p it.obj with
      | some pl, some rs, some o =>
        let a := it.attrs
        let level := levelOf rs o.lattice a.1
        match sieve rs o.cls a.2.1 level a.2.2.1 with
        | none => s
        | some (i, e) =>
          let was := s.tile p it.obj it.tile
          let d := (overrideFor pl e it.obj it.tile a.1 a.2.2.1).getD (sieveDisp rs e o.lattice level a.2.2.1)
          let r : TileRec := { TileRec.fresh with
            disp := d, state := .inFlight, compressible := e.compressible, regrowOk := e.regrowOk, returnOk := e.returnOk
            level, replay := a.2.2.1, uses := e.uses, step := a.1, layer := a.2.1, gen := (was.gen + 1) % 256, rule := i
            mta := 0xFFFFFFFF }
          let raw := s.tileSize p it.obj
          if d.stored then
            if a.2.2.2 then
              (s.flag F.PART_LIFE_STATUS_INTAKE_REFUSED p).putItem { it with ended := some (0x0051, raw), started := true }
            else
              ((s.setTile p it.obj it.tile r).putItem { it with
                before := some was, rules := some rs, disp := d, started := true }).placeTile id false
          else
            let s := if a.2.2.2 then s else s.count p 0 raw
            let r := match d with
              | .drop => { r with state := .released, uses := 0 }
              | .keep => { r with state := .resident, location := peerAt }
              | _ => { r with state := .resident }
            (s.setTile p it.obj it.tile r).putItem { it with ended := some (0, 0), started := true }
      | _, _, _ => s

/-- Tile number n in the metadata reserve (R259). -/
def metaIndex (pl : Plan) (obj tile : Nat) : Nat :=
  (pl.objects.takeWhile (fun o => o.index != obj)).foldl (fun a o => a + o.tiles) 0 + tile

/-- What a Baler pass over a tile image comes to. -/
inductive Pass where
  | kept (bytes : List Byte) (eps : Nat) (exceptions : Nat)
  | abandoned
  deriving DecidableEq, Repr

/-- One pass (R54, R256). -/
def runPass (par : Bale.Par) (minRatio sizeCode gen : Nat) (image : List Byte) : Pass :=
  let b := Bale.bale par sizeCode gen image
  if Bale.keeps image.length minRatio b.bytes.length then
    .kept b.bytes (encodeFp fp32 (b.most.rndUp fp32)).1 b.exceptions
  else .abandoned

/-- Write a tile's metadata entry (R260, R261): `first` marks a new life. The entry's index is the answer. -/
def State.writeMeta (s : State) (p obj tile gen : Nat) (par : Bale.Par) (raw : Nat) (image : List Byte) (x : Pass)
    (first : Bool) : Nat × State :=
  match (s.plan p).plan with
  | none => (0xFFFFFFFF, s)
  | some pl =>
    let n := metaIndex pl obj tile
    let at' := s.rd F.PART_META_BASE_ADDR p + 32 * n
    let old := s.vbytes p at' 32
    let oldEps := if first ∨ fieldAt old 7 1 ≠ gen then 0 else fieldAt old 16 4
    let oldAcc := if first ∨ fieldAt old 7 1 ≠ gen then false else (fieldAt old 8 8).testBit 9
    let stored := match x with
      | .kept b _ _ => b.length
      | .abandoned => raw
    let eps := match x with
      | .kept _ e _ => if par.mode = 3 then (if oldEps = 0 then e else Bale.epsSum oldEps e) else oldEps
      | .abandoned => oldEps
    let acc := match x with
      | .kept _ _ _ => oldAcc || (par.mode == 3 && oldEps != 0)
      | .abandoned => oldAcc
    let kept := match x with
      | .kept _ _ _ => true
      | .abandoned => false
    let f := match x with
      | .kept _ _ n => (BitVec.ofNat 64 n, s)
      | .abandoned => if par.mode = 3 then s.freeWord else (0, s)
    let ratio := if kept then min 0xFFFF (raw * 256 / stored) else 0
    let b := leBytes 8 (handleOf p obj + tile * 2 ^ 32 + gen * 2 ^ 56) ++
      leBytes 8 (par.mode + par.format * 2 ^ 2 + b2n kept * 2 ^ 7 + b2n (!kept) * 2 ^ 8 + b2n acc * 2 ^ 9 + ratio * 2 ^ 16 +
        par.eps * 2 ^ 32) ++
      leBytes 8 (eps + low 20 f.1.toNat * 2 ^ 32) ++
      leBytes 8 (stored + (crc32c image).toNat * 2 ^ 32)
    let s := f.2.vwrite .cached p at' b
    (n, if kept && par.mode == 3 && oldEps != 0 then s.flag F.BAL_STATUS_ACCUM p else s)

/-- The image an intake brings: the source of a MOVE, or the data of a PUT. -/
def State.intakeImage (s : State) (it : Item) (size : Nat) : Got (List Byte) :=
  if it.isPut then .ok ((List.range size).map (fun i => Tab.get 0 it.src i))
  else gotAll (fun o => s.srcImage it it.ta o) (List.range size)

/-- The counters of a pass (Table 7-9). `reread`: an intake reads its source again. -/
def State.countPass (s : State) (p raw : Nat) (x : Pass) (reread : Bool) : State :=
  let s := s.bump F.BAL_IN_BYTES p raw
  match x with
  | .kept b _ n => (s.bump F.BAL_STORED_BYTES p b.length).bump F.BAL_EXCEPT_COUNT p n
  | .abandoned =>
    let s := (s.bump F.BAL_BELOW_TILES p 1).flag F.BAL_STATUS_BELOW_RATIO p
    if reread then s.bump F.BAL_REREAD_BYTES p raw else s

/-- The Baler's part of an intake: the bytes to store, whether compressed, the metadata index. -/
def State.balePart (s : State) (it : Item) (r : TileRec) (rs : RuleSet) (size : Nat) (image : List Byte) :
    List Byte × Bool × Nat × State :=
  if !bales rs r it.disp size then (image, false, 0xFFFFFFFF, s)
  else
    let e := balerOf rs r
    let par := Bale.parOf e.mode e.params.toNat e.eps.toNat
    let code := match s.obj? it.part it.obj with
      | some o => o.sizeCode
      | none => 0
    if it.ctxs.isEmpty then
      let m := s.writeMeta it.part it.obj it.tile r.gen par size image .abandoned true
      (image, false, m.1, m.2.flag F.BAL_STATUS_ENGINE_FAULT it.part)
    else
      let x := if it.faults = 0 then runPass par e.minRatio code r.gen image else .abandoned
      let s := s.countPass it.part size x true
      let m := s.writeMeta it.part it.obj it.tile r.gen par size image x true
      match x with
      | .kept b _ _ => (b, true, m.1, m.2)
      | .abandoned => (image, false, m.1, m.2)

/-- The last beat of an intake is stored: the record is committed (R54, R55, R261). A Courier intake's record stays
IN_FLIGHT until CONFIRM (R497). -/
def State.commitIntake (s : State) (it : Item) (r : TileRec) (h : Home) (k : Nat) (stored : Nat) (comp : Bool) (n : Nat) :
    State :=
  let size := s.tileSize it.part it.obj
  let d := if it.disp = .press ∧ !comp then Disp.hold else it.disp
  let s := ((s.uncharge it.part h.tier size).setOcc it.part h.tier
    ((s.uncharge it.part h.tier size).occupancy it.part h.tier + stored)).trimRun k stored
  let s := s.setTile it.part it.obj it.tile { r with
    disp := d, home := h, location := locationOf k, stored, compressed := comp, mta := n
    state := if it.isPut then .inFlight else .resident }
  let s := (s.count it.part 0 size).count it.part (1 + h.code) stored
  s.putItem { it with resv := none, before := none, flight := false, ended := some (0, 0) }

/-- INTAKE_COMMIT of one item: bale, store, and commit once every block of a Moor home has been written (R319). -/
def State.intakeCommit (s : State) (id : Nat) : State :=
  match s.item? id with
  | none => s
  | some it =>
    let p := it.part
    let size := s.tileSize p it.obj
    let r := s.tile p it.obj it.tile
    let rs := it.rules.getD (s.rulesOf p)
    match it.resv with
    | none => s
    | some (h, k, _) =>
      if it.stage ≠ .running ∨ it.ended.isSome ∨ s.moorBusy id then s
      else match it.laid with
      | some (b, comp, m) => if it.bad.isSome then s else s.commitIntake it r h k b comp m
      | none =>
      if bales rs r it.disp size && it.ctxs.isEmpty && !(s.engineDies false it.die).isEmpty then s
      else match s.intakeImage it size with
        | .error _ => s
        | .ok image =>
          let (b, comp, m, s) := s.balePart it r rs size image
          let s := s.physWrite .bulk p k b
          match h with
          | .moor =>
            (s.putItem { it with laid := some (b.length, comp, m) }).moorMove id true k b.length
          | _ => s.commitIntake it r h k b.length comp m

/-- A write error meets an intake before its commit: the reservation goes, the record is LOST (section 2.4). -/
def State.intakeFault (s : State) (id status : Nat) (at' : Option Nat) : State :=
  match s.item? id with
  | none => s
  | some it =>
    let size := s.tileSize it.part it.obj
    let s := s.putItem { it with before := none }
    let s := s.finish id status size ErrAt.none
    s.lose it.part it.obj it.tile 9 status at'

end Sys2Proof.Machine
end

