-- ==== Sys2Proof/Machine/Front.lean ====
section
/-! DEFINITION. Where a work item first meets the device: the tile's home slice, the notice writer, the reservation of a
movement (sections 2.5 to 2.7, 2.9, 4.6, 5.8, 7.7, 8.5; R440). -/

namespace Sys2Proof.Machine

/-- What the home slice answers to a disposition request (R146). -/
inductive Slice where
  | refuse
  | accept
  /-- the tile is IN_FLIGHT: checked later (R61) -/
  | defer
  /-- no such tile: the work ends TILE_RELEASED (R186) -/
  | missing
  deriving DecidableEq, Repr

/-- Disposition requests (R146). -/
def Work.asks : Work → Bool
  | .press .. => true
  | .unpress => true
  | .spill _ => true
  | .fetch _ => true
  | .regrow => true
  | .drop => true
  | .relabel _ => true
  | _ => false

/-- The transition a request asks for is legal on a RESIDENT tile (Table 2-6); a DROP is legal on a LOST tile too (R60). -/
def State.legal (s : State) (p : Nat) (r : TileRec) (tile : Nat) (w : Work) : Bool :=
  let res := r.state == .resident
  match w with
  | .press .. => res && r.disp == .hold && r.compressible
  | .unpress => res && r.disp == .press
  | .spill toMoor => res && (r.disp == .hold || r.disp == .press || r.disp == .spill) && (toMoor || true)
  | .fetch 0 => res && (r.disp == .sink || r.disp == .spill)
  | .fetch _ => res && (r.disp == .sink || r.disp == .spill)
  | .regrow => res && r.disp == .regrow
  | .drop => (res && r.disp != .drop) || r.state == .lost
  | .relabel .regrow => res && r.disp.stored && r.regrowOk && s.inputsGood p r tile
  | .relabel _ => res && r.disp.stored && r.returnOk
  | _ => true

/-- A FETCH stops a demotion of its tile before the home slice looks at it (Table 2-7). -/
def Work.isFetch : Work → Bool
  | .fetch _ => true
  | _ => false

/-- The home slice's answer (R61, R146). -/
def State.askSlice (s : State) (it : Item) : Slice :=
  if !s.tileExists it.part it.obj it.tile then .missing
  else
    let r := s.tile it.part it.obj it.tile
    if r.state = .inFlight then .defer
    else if s.legal it.part r it.tile it.work then .accept else .refuse

/-- The disposition a movement of a stored tile leads to (R196). -/
def landDisp (r : TileRec) (h : Home) : Disp :=
  match h with
  | .heath => .spill
  | .moor => .sink
  | _ => if r.compressed then .press else .hold

/-- Where a movement goes: SPILL down, FETCH up (R196). -/
def Work.target (w : Work) (r : TileRec) : Home :=
  match w with
  | .spill toMoor => if toMoor || r.home == .heath then .moor else .heath
  | .fetch form => if form = 0 ∧ r.home = .moor then .heath else .meadow
  | .move h => h
  | .granule _ h => h
  | _ => .meadow

/-- The die work on a tile runs on: its Meadow home, or the die next to the Post die that carries a lower tier (R353). -/
def State.tileDie (s : State) (r : TileRec) : Nat :=
  match r.home with
  | .heath => s.heathPort r.key / 2
  | .moor =>
    let t := moorTarget r.key
    let c := s.rd F.TIER_MOOR_TGT_CONN t
    (if s.rd F.TIER_MOOR_TGT_KIND t = 1 then s.rd F.CRR_NVME_CFG_PORT c else s.connPort c) / 2
  | _ => dieOf r.key

/-- Reserve a movement's destination: the stored bytes move as they are; UNPRESS, PRESS and regrow take the raw size
(R118, R195, R274). -/
def State.reserveMove (s : State) (id : Nat) : State :=
  match s.item? id with
  | none => s
  | some it =>
    if it.resv.isSome then s
    else
      let p := it.part
      let r := s.tile p it.obj it.tile
      let raw := s.tileSize p it.obj
      let rule := s.placerDie (placerOf (s.rulesOf p) r) it.tile (it.core / 16)
      let here := if r.home = .meadow then dieOf r.key else rule
      let go (h : Home) (die n : Nat) : State := match s.reserve p h die 64 n (.tile it.obj it.tile) with
        | some (k, s) => s.putItem { it with resv := some (h, k, n), die := if isMeadow k then dieOf k else it.die
                                             stage := if it.work.onCarrier then s.onStage it else .placed }
        | none => s.putItem { it with stage := .reserving, since := if it.stage = .reserving then it.since else s.time }
      match it.work with
      | .spill _ => go (it.work.target r) here r.stored
      | .fetch _ => go (it.work.target r) rule r.stored
      | .move h => go h rule r.stored
      | .press .. => go .meadow here raw
      | .unpress => go .meadow here raw
      | .regrow => go .meadow rule raw
      | _ => s

/-- A demotion before its commit gives way to a read of its tile (Table 2-7, R686): its destination is freed. A plan SPILL
starts again later (Table 5-13); the device's own demotion ends. -/
def State.stopDemotion (s : State) (id : Nat) : State :=
  match s.item? id with
  | none => s
  | some it =>
    let s := match it.resv with
      | some (h, k, n) => (s.uncharge it.part h.tier n).freeRun k .normal
      | none => s
    match it.origin with
    | .plan =>
      let s := s.putItem { it with resv := none, stage := .deferred, started := false, flight := false, laid := none, blocks := [], bad := none
                                   channel := none, begun := false }
      let s := match it.channel with
        | some c => s.offChannel c id
        | none => s
      s.settle it.part it.obj it.tile
    | _ => (s.putItem { it with resv := none }).finish id 0x0001 0 ErrAt.none

/-- Movements down of a tile that have not committed. -/
def State.demotions (s : State) (p obj tile : Nat) : List Nat :=
  ((s.items.filter (fun e => e.2.part == p && e.2.obj == obj && e.2.tile == tile && e.2.flight && e.2.ended.isNone &&
    (match e.2.work with
      | .spill _ => true
      | .move h => h == .heath || h == .moor
      | _ => false)))).map (·.1)

/-- Stop every demotion of a tile. -/
def State.stopDemotions (s : State) (p obj tile : Nat) : State :=
  (s.demotions p obj tile).foldl (fun s i => s.stopDemotion i) s

/-- Start the regrow of a REGROW tile, or end it where an input is not there (R271). An item of its own does the work; its
reservation comes at its start (R274). -/
def State.startRegrow (s : State) (it : Item) : State :=
  let p := it.part
  if s.items.any (fun e => e.2.part == p && e.2.obj == it.obj && e.2.tile == it.tile && e.2.work == .regrow) then s
  else s.addItem { Item.blank p .regrow with
    origin := .delivery, core := it.core, obj := it.obj, tile := it.tile, urg := it.urg, deadline := it.deadline
    stage := .queued }

/-- The regrow's inputs meet R271: RESIDENT, stored, of the same step. -/
def State.regrowReady (s : State) (p : Nat) (r : TileRec) (tile : Nat) : Bool :=
  match s.recipeOf p r with
  | none => false
  | some rc => (recipeInputs rc tile).all (fun x => match x.2 with
      | none => false
      | some t =>
        let q := s.tile p x.1 t
        s.tileExists p x.1 t && q.state == .resident && q.disp.stored && q.step == r.step)

/-- The RETURN notice of a tile that is outstanding, or on its way. -/
def State.noticeOut (s : State) (p obj tile : Nat) (but : Nat) : Bool :=
  s.host.awaited.any (fun a => a.part == p && a.obj == obj && a.tile == tile) ||
  s.items.any (fun e => e.1 != but && e.2.part == p && e.2.obj == obj &&
    (e.2.stage == .noticeReserve || e.2.stage == .notice) &&
    (e.2.tile == tile || e.2.tiles.contains tile))

def State.setAwaited (s : State) (l : List Awaited) : State := { s with host := { s.host with awaited := l } }

/-- Write the TILE notice of a DELIVER whose Meadow space is reserved; it waits while the ring is full (R76, R198, R406). -/
def State.tileNotice (s : State) (id tile : Nat) : State :=
  match s.item? id with
  | none => s
  | some it => match it.resv, it.cso with
    | some (_, k, n), some so =>
      let p := it.part
      let port := s.peerPort it.peer
      match s.portErr p port (s.peerWord it.peer 5) with
      | some e => s.endItem id e (s.itemBytes it) { addr := s.peerWord it.peer 5, write := true, space := 1, peer := it.peer
                                                    desc := false }
      | none =>
        if s.noticeFull it.peer then
          (s.flag F.PART_LIFE_STATUS_NOTICE_RING_FULL p).putItem { it with stage := .notice }
        else
          let v := (s.soVal so + 1).toNat
          let hold := s.deliverNs it { s.tile p it.obj tile with disp := .hold, home := .meadow, compressed := false }
            (match it.work with | .deliver b => b | .lattice _ b => b | _ => false)
          let nt : Notice := { kind := 1, writeBack := true, handle := handleOf p it.obj, first := tile, count := 1
                               deadline := it.deadline, latest := it.deadline - s.rd F.SO_RETURN_NS_NS p - hold, stride := 0
                               all := false, doneSo := so, doneValue := v }
          let s := s.writeNotice p it.peer nt
          let a : Awaited := { part := p, peer := it.peer, obj := it.obj, tile, seq := (s.ring? it.peer).seq, place := k
                               bytes := n }
          (s.setAwaited (s.host.awaited ++ [a])).putItem { it with resv := none, stage := .awaiting, doneValue := some v }
    | _, _ => s

/-- A delivery meets a RETURN tile (R198, R440, section 2.7 Edges). -/
def State.startReturn (s : State) (id tile : Nat) : State :=
  match s.item? id with
  | none => s
  | some it =>
    let p := it.part
    if it.cso.isNone then s.endItem id 0x0055 0 ErrAt.none
    else if s.noticeOut p it.obj tile id then s.putItem { it with stage := .awaiting }
    else match s.reserve p .meadow (s.placerDie (placerOf (s.rulesOf p) (s.tile p it.obj tile)) tile (it.core / 16)) 64
        (s.tileSize p it.obj) (.tile it.obj tile) with
      | some (k, s) => (s.putItem { it with resv := some (.meadow, k, s.tileSize p it.obj) }).tileNotice id tile
      | none => s.putItem { it with stage := .noticeReserve, since := if it.stage = .noticeReserve then it.since else s.time }

/-- The notice outstanding for a tile is cancelled: its reservation is freed (R78, R440, Table 2-7). Deliveries that waited
for the write-back are placed again and meet the tile as it now is. -/
def State.cancelAwaited (s : State) (p obj tile : Nat) : State :=
  let mine := s.host.awaited.filter (fun a => a.part == p && a.obj == obj && a.tile == tile)
  let s := s.setAwaited (s.host.awaited.filter (fun a => !(a.part == p && a.obj == obj && a.tile == tile)))
  let s := mine.foldl (fun s a =>
    ((s.uncharge p 0 a.bytes).freeRun a.place .normal).cancelNotice p a.peer a.seq) s
  { s with items := s.items.map (fun e =>
      if e.2.part = p ∧ e.2.obj = obj ∧ (e.2.tile = tile ∨ e.2.tiles.contains tile) ∧ e.2.stage = .awaiting then
        (e.1, { e.2 with stage := .queued, started := false })
      else e) }

/-- A plan or the walk drops a tile (R203, Table 2-7). -/
def State.dropTile (s : State) (p obj tile : Nat) : State := (s.release p obj tile).cancelAwaited p obj tile

/-- A tile is relabelled: the record first, then its home is freed (R203). -/
def State.relabelTile (s : State) (p obj tile : Nat) (d : Disp) : State :=
  let r := s.tile p obj tile
  (s.setTile p obj tile { r.homeless with disp := d }).freeTile p r .normal

/-- Tiles a lattice delivery takes: RESIDENT, of the step, in ascending index (R199). -/
def State.latticeTiles (s : State) (p obj step : Nat) : List Nat :=
  (s.tiles.filter (fun e => e.1 / 2 ^ 24 == p * 2 ^ 27 + obj && e.2.state == .resident && e.2.step == step)).map
    (fun e => e.1 % 2 ^ 24)

/-- Tiles of the step that are LOST: a checkpoint that is lost is delivered as POISONED (R72, Faults). -/
def State.latticeLost (s : State) (p obj step : Nat) : List Nat :=
  (s.tiles.filter (fun e => e.1 / 2 ^ 24 == p * 2 ^ 27 + obj && e.2.state == .lost && e.2.step == step)).map
    (fun e => e.1 % 2 ^ 24)

/-- A delivery decrements USES, and the tile goes at 0 (R64, R68). -/
def State.useTile (s : State) (p obj tile : Nat) : State :=
  let r := s.tile p obj tile
  if r.uses = 0xFF ∨ r.uses = 0 then s
  else
    let s := s.setTile p obj tile { r with uses := r.uses - 1 }
    if r.uses = 1 then s.release p obj tile else s

/-- Mark the tile of a movement or delivery IN_FLIGHT, and the item as keeping it so. -/
def State.flyItem (s : State) (id : Nat) : State :=
  match s.item? id with
  | none => s
  | some it =>
    let s := (if it.tiles.isEmpty then [it.tile] else it.tiles).foldl (fun s t => s.fly it.part it.obj t) s
    s.putItem { it with flight := true }

/-- Engine work on a tile's stored form starts: what it reserves and the context it wants (R195, R245, R274). -/
def State.startEngine (s : State) (id : Nat) : State :=
  match s.item? id with
  | none => s
  | some it =>
    let r := s.tile it.part it.obj it.tile
    let s := (s.flyItem id).reserveMove id
    match s.item? id with
    | none => s
    | some it =>
      let die := if r.home = .meadow then dieOf r.key else it.die
      match it.work with
      | .press .. => s.putItem { it with want := some false, die }
      | .unpress => s.putItem { it with want := some false, die }
      | .regrow => s.putItem { it with want := if it.resv.isSome then some true else none }
      | _ => s

/-- The front of a DELIVER of one tile. -/
def State.frontDeliver (s : State) (id : Nat) : State :=
  match s.item? id with
  | none => s
  | some it =>
    let p := it.part
    let size := s.tileSize p it.obj
    if !s.tileExists p it.obj it.tile then s.endItem id 0x0053 (Desc.imageSize it.ta) ErrAt.none
    else if Desc.imageSize it.ta ≠ size then s.endItem id 0x0012 (Desc.imageSize it.ta) ErrAt.none
    else
      let r := s.tile p it.obj it.tile
      match r.state with
      | .released => s.endItem id 0x0053 size ErrAt.none
      | .lost => s.endItem id 0x0040 size ErrAt.none
      | _ =>
        if r.state = .inFlight ∧ r.home = .none then s.putItem { it with stage := .deferred }
        else match r.disp with
          | .keep => (s.useTile p it.obj it.tile).endItem id 0 0 ErrAt.none
          | .drop => s.endItem id 0x0053 size ErrAt.none
          | .ret => s.startReturn id it.tile
          | .regrow => (s.putItem { it with stage := .deferred }).startRegrow it
          | _ => (s.stopDemotions p it.obj it.tile).putItem { it with started := true }

/-- The front of a lattice delivery: its tiles, their total against the destination, and what a RETURN or REGROW tile needs
first (R199, R218). -/
def State.frontLattice (s : State) (id step : Nat) : State :=
  match s.item? id with
  | none => s
  | some it =>
    let p := it.part
    let ts := if it.tiles.isEmpty then s.latticeTiles p it.obj step else it.tiles
    let lost := if it.tiles.isEmpty then s.latticeLost p it.obj step else []
    let it := { it with tiles := ts ++ lost }
    if ts.isEmpty then s.endItem id (if lost.isEmpty then 0x0053 else 0x0040) (lost.length * s.tileSize p it.obj) ErrAt.none
    else if Desc.imageSize it.ta < (ts.filter (fun t => (s.tile p it.obj t).state != .lost)).length * s.tileSize p it.obj then
      s.endItem id 0x0012 (ts.length * s.tileSize p it.obj) ErrAt.none
    else
      let s := s.putItem it
      let open' (d : Disp) := ts.find? (fun t => (s.tile p it.obj t).disp == d && (s.tile p it.obj t).state == .resident)
      match open' .ret with
      | some t => s.startReturn id t
      | none => match open' .regrow with
        | some t => (s.putItem { it with stage := .deferred }).startRegrow { it with tile := t }
        | none => (ts.foldl (fun s t => s.stopDemotions p it.obj t) s).putItem { it with started := true }

/-- The item reaches the front of its work: Intake, the home slice, the notice writer. It may end there. -/
def State.front (s : State) (id : Nat) : State :=
  match s.item? id with
  | none => s
  | some it =>
    if it.started then s
    else
      let p := it.part
      match it.work with
      | .intake .. => s.intake id (Desc.imageSize it.ta) (it.peer * 2 ^ 58 + Desc.base it.ta % 2 ^ 58)
      | .deliver _ => s.frontDeliver id
      | .lattice st _ => s.frontLattice id st
      | .recallWork conn remote =>
        let r := s.tile p it.obj it.tile
        if !s.tileExists p it.obj it.tile then s.endItem id 0x0053 (s.tileSize p it.obj) ErrAt.none
        else if r.state ≠ .released ∧ r.state ≠ .lost then s.endItem id 0x0052 (s.tileSize p it.obj) ErrAt.none
        else if s.connState conn ≠ connOpen then s.endItem id 0x0043 (s.tileSize p it.obj) ErrAt.none
        else
          (s.putItem { it with started := true, stage := .remote }).sendRequest conn 0x04 it.urg it.deadline
            (beBytes 4 remote ++ beBytes 3 it.tile ++ beBytes 4 (handleOf p it.obj)) [] id 0
      | .send .. =>
        let r := s.tile p it.obj it.tile
        if !s.tileExists p it.obj it.tile ∨ r.state = .released then s.endItem id 0x0053 (s.tileSize p it.obj) ErrAt.none
        else if r.state = .lost then s.endItem id 0x0040 (s.tileSize p it.obj) ErrAt.none
        else if r.state = .inFlight ∧ r.home = .none then s.putItem { it with stage := .deferred }
        else if !r.disp.stored then s.endItem id 0x0054 (s.tileSize p it.obj) ErrAt.none
        else (s.stopDemotions p it.obj it.tile).putItem { it with started := true }
      | .notify => s.putItem { it with started := true }
      | .teddOp .. => s.putItem { it with started := true, want := some true, die := it.core / 16, stage := .placed }
      | .layout _ => s.putItem { it with started := true, stage := .placed }
      | w =>
        if !w.asks then s.putItem { it with started := true }
        else
          let s := if w.isFetch then s.stopDemotions p it.obj it.tile else s
          match s.askSlice it with
          | .missing => s.endItem id 0x0053 (s.itemBytes it) ErrAt.none
          | .defer => s.putItem { it with stage := .deferred }
          | .refuse =>
            let s := s.flag F.PART_LIFE_STATUS_ILLEGAL_DISP p
            let s := match it.origin with
              | .plan => s.setCore it.core { s.core it.core with deferred := (s.core it.core).deferred ++ [it.ticket] }
              | _ => s
            s.endItem id 0x0054 0 ErrAt.none
          | .accept => match w with
            | .drop => (s.dropTile p it.obj it.tile).endItem id 0 0 ErrAt.none
            | .relabel d => (s.relabelTile p it.obj it.tile d).endItem id 0 0 ErrAt.none
            | .spill _ => (s.putItem { it with started := true }).flyItem id
            | .fetch _ => (s.putItem { it with started := true }).flyItem id
            | .regrow => s.putItem { it with started := true, stage := .placed }
            | _ => (s.putItem { it with started := true, stage := .placed }).startEngine id

end Sys2Proof.Machine
end

