-- ==== Sys2Proof/Machine/Chan.lean ====
section
/-! DEFINITION. Plan work on Carrier channels: the choice of a channel, pre-emption, what an item does when it begins
(sections 10.1, 10.5; R193, R353, R366, R367). -/

namespace Sys2Proof.Machine

/-- The PLAN channels of a partition on a die. -/
def State.planChans (s : State) (p die : Nat) : List Nat :=
  ((List.range 64).map (64 * die + ·)).filter (fun c => s.holds leaseChannel c p && s.rd F.CAR_CH_CFG_POOL c == 0)

/-- An arriving item pre-empts the active one (R366). -/
def preempts (new act : Item) : Bool :=
  decide (new.urg < act.urg) || (new.urg == act.urg && decide (new.urg ≤ 1) && decide (new.deadline < act.deadline))

/-- A channel can start an item at once. -/
def State.canStart (s : State) (it : Item) (c : Nat) : Bool :=
  let x := s.chan c
  match x.active with
  | none => true
  | some a => match s.item? a with
    | some b => preempts it b && decide (x.parked.length < 4)
    | none => true

/-- Bytes queued on a channel. -/
def State.queuedBytes (s : State) (c : Nat) : Nat :=
  (s.chan c).queue.foldl (fun a i => a + (match s.item? i with
    | some b => s.itemBytes b
    | none => 0)) 0

/-- The channel with the fewest queued bytes, then the lowest number. -/
def State.leastQueued (s : State) (cs : List Nat) : Option Nat :=
  cs.foldl (fun (b : Option Nat) c => match b with
    | none => some c
    | some d => if s.queuedBytes c < s.queuedBytes d then some c else some d) none

/-- The die plan work takes its channel on (R353). -/
def State.workDie (s : State) (it : Item) : Nat :=
  match it.work with
  | .intake .. => it.core / 16
  | .copy => it.core / 16
  | .lattice .. => s.tileDie (s.tile it.part it.obj (it.tiles.headD 0))
  | _ => s.tileDie (s.tile it.part it.obj it.tile)

/-- The PLAN channel an item goes to (R353). -/
def State.pickChannel (s : State) (it : Item) : Option Nat :=
  let die := s.workDie it
  (((List.range 4).map (fun i => (die + i) % 4)).filter s.meadowOn).findSome? (fun d =>
    let cs := s.planChans it.part d
    match s.leastQueued (cs.filter (s.canStart it)) with
    | some c => some c
    | none => s.leastQueued cs)

/-- The state field of a PLAN channel follows what runs on it. -/
def State.showChan (s : State) (c : Nat) : State :=
  let x := s.chan c
  (s.wr F.CAR_CH_STATUS_STATE c (if x.active.isSome then 1 else 0)).wr F.CAR_CH_STATUS_PARKED c x.parked.length

/-- A waiting stage that a channel does not end. -/
def Stage.waits : Stage → Bool
  | .stalled => true
  | .windowed => true
  | .reserving => true
  | .remote => true
  | _ => false

/-- An item is parked (R367). -/
def State.park (s : State) (c id : Nat) : State :=
  let x := s.chan c
  let s := s.setChan c { x with active := none, parked := x.parked ++ [id] }
  match s.item? id with
  | some it => s.putItem { it with stage := if it.stage.waits then it.stage else .parked }
  | none => s

/-- The external reads of an item's source, with their bursts. -/
def State.sourceRuns (s : State) (it : Item) : List (Nat × Nat × Nat) :=
  burstCut (s.burstBytes (it.channel.getD 0) 0) 0 <| s.extRuns it.part (s.peerPort (match it.work with | .intake .. => it.peer | _ => Desc.peer it.ta)) (s.extKeys it.part it.ta)

/-- Send the PUT of a MOVE SEND (R193, R497): the image, unbaled where the tile is compressed. A source that cannot be read
ends the work. -/
def State.sendPut (s : State) (id : Nat) : State :=
  match s.item? id with
  | none => s
  | some it => match it.work with
    | .send conn remote =>
      let p := it.part
      let r := s.tile p it.obj it.tile
      let size := s.tileSize p it.obj
      let t := s.readTile p r size
      if t.stop.isSome ∨ !t.crc then s.endItem id (t.stop.getD 0x0060) size ErrAt.none
      else if s.connState conn ≠ connOpen ∧ (it.origin = .plan ∨ !s.connLive conn) then s.endItem id 0x0043 size ErrAt.none
      else
        let code := match s.obj? p it.obj with
          | some o => o.sizeCode
          | none => 0
        let s := (s.count p (4 + r.home.code) r.stored).putItem { it with stage := .remote }
        let f := beBytes 4 remote ++ beBytes 3 it.tile ++ beBytes 1 code ++ beBytes 2 r.step ++ beBytes 2 r.layer ++
          beBytes 1 (b2n r.replay) ++ beBytes 4 size
        match it.origin with
        | .courier tr => s.requestAs conn 0x01 tr it.urg it.deadline f t.bytes id 0
        | _ => s.sendRequest conn 0x01 it.urg it.deadline f t.bytes id 0
    | _ => s

/-- Reads from Moor that an item's stored sources need before its data can move. -/
def State.moorReads (s : State) (id : Nat) (tiles : List Nat) : State :=
  match s.item? id with
  | none => s
  | some it => tiles.foldl (fun s t =>
      let r := s.tile it.part it.obj t
      if r.home = .moor then s.moorMove id false r.key r.stored else s) s

/-- A chain item's front and the rest of the beginnings are alike: its first request starts it (R405). -/
def State.beginWork (s : State) (id : Nat) : State :=
  match s.item? id with
  | none => s
  | some it =>
    if it.stage = .stalled ∨ it.stage = .windowed then s else
    let s := (s.noteStart it).putItem { it with begun := true }
    let p := it.part
    let r := s.tile p it.obj it.tile
    match it.work with
    | .intake .. =>
      if it.ended.isSome then s
      else
        let n := s.sourceRuns it
        (s.putItem (it.withRuns n)).issueReads (n.length + 1) id
    | .copy =>
      let n := s.sourceRuns it
      (s.putItem (it.withRuns n)).issueReads (n.length + 1) id
    | .deliver _ =>
      let s := s.flyItem id
      let s := match s.item? id with
        | some it => if r.compressed ∧ r.home ≠ Home.none then
            s.putItem { it with want := some false, die := s.tileDie r } else s
        | none => s
      s.moorReads id [it.tile]
    | .lattice .. =>
      let s := s.flyItem id
      let comp := it.tiles.any (fun t => (s.tile p it.obj t).compressed)
      let s := match s.item? id with
        | some it => if comp then s.putItem { it with want := some false, die := s.workDie it } else s
        | none => s
      s.moorReads id it.tiles
    | .send .. => (s.flyItem id).sendPut id
    | .spill _ => s.reserveMove id
    | .fetch _ =>
      let s := s.reserveMove id
      match s.item? id with
      | some it => if it.resv.isSome then s.moorReads id [it.tile] else s
      | none => s
    | _ => s

/-- An item becomes its channel's active one: it begins, or resumes where it stopped (R367). -/
def State.activate (s : State) (c id : Nat) : State :=
  let x := s.chan c
  let s := s.setChan c { x with
    active := some id
    parked := x.parked.filter (· != id)
    queue := x.queue.filter (· != id) }
  let s := s.showChan c
  match s.item? id with
  | none => s
  | some it =>
    let s := s.putItem { it with stage := if it.stage.waits then it.stage else .running }
    let s := if it.begun then s.issueReads (it.runs.length + 1) id else s.beginWork id
    s.showChan c

/-- The best of a channel's parked and queued items: class, then deadline, then arrival; a parked one first (R354, R367);
one slot in 64 goes to an aged one (R403). -/
def State.bestOf (s : State) (c : Nat) : Option Nat :=
  let x := s.chan c
  match s.agedTurn c (x.parked ++ x.queue) with
  | some i => some i
  | none => (x.parked ++ x.queue).foldl (fun (b : Option Nat) i => match b with
    | none => some i
    | some j => match s.item? i, s.item? j with
      | some a, some d => if a.key < d.key then some i else some j
      | _, _ => some j) none

/-- Give a free channel its next item, while items end as they begin. -/
def State.pump : Nat → State → Nat → State
  | 0, s, _ => s
  | f + 1, s, c =>
    if (s.chan c).active.isSome then s
    else match s.bestOf c with
      | none => s.showChan c
      | some i => ((s.slot c).activate c i).pump f c

/-- Every free PLAN channel takes its next item, and every free context (R243, R354, R367). -/
def State.pumpAll (s : State) : State :=
  (s.chans.foldl (fun s e =>
    if s.rd F.CAR_CH_CFG_POOL e.1 = 0 then s.pump (e.2.parked.length + e.2.queue.length + 1) e.1 else s) s).serveCtxs

/-- Place a plan item on a channel, or end it with NO_CHANNEL (R353, R366, R367). -/
def State.placeItem (s : State) (id : Nat) : State :=
  match s.item? id with
  | none => s
  | some it =>
    match s.pickChannel it with
    | none => s.failItem id 0x0004 (s.itemBytes it) ErrAt.none
    | some c =>
      let start := s.canStart it c
      let s := s.putItem { it with channel := some c, epoch := (s.lease leaseChannel c).epoch
                                   stage := if it.stage.waits then it.stage else .placed }
      if start then
        let s := match (s.chan c).active with
          | some a => s.park c a
          | none => s
        s.activate c id
      else
        let x := s.chan c
        s.setChan c { x with queue := x.queue ++ [id] }

/-- A delivery or movement that a change lets go on: the item on its channel goes on reading. -/
def State.goOn (s : State) (id : Nat) : State :=
  match s.item? id with
  | none => s
  | some it =>
    if it.stage = .running then (if it.begun then s.issueReads (it.runs.length + 1) id else s.beginWork id) else s

end Sys2Proof.Machine
end

