-- ==== Sys2Proof/Machine/Move.lean ====
section
/-! DEFINITION. How work on tiles and tensors ends: deliveries, copies, movements, passes, regrows (chapters 2, 6, 7, 8, 10). -/

namespace Sys2Proof.Machine

/-- Count bytes read from, or written into, a home (R547). -/
def State.countHome (s : State) (p : Nat) (out : Bool) (h : Home) (n : Nat) : State :=
  if h = .none ∨ n = 0 then s else s.count p ((if out then 4 else 1) + h.code) n

/-- The homes of the bytes of the first `n` beats of a descriptor that lie on this device. -/
def State.descHomes (s : State) (p : Nat) (d : Beat) (n : Nat) : List Home :=
  ((Desc.beats d).take n).flatMap (fun o => (List.range 64).filterMap (fun i =>
    match Desc.bitPlace d (o + i) 0 with
    | some pl => match s.spot p d pl.1 (pl.2 / 8) with
      | .ok (.dev va) => (s.granule? p va).map (·.home)
      | _ => none
    | none => none))

/-- Count the device bytes of the first `n` beats of a descriptor. -/
def State.countDesc (s : State) (p : Nat) (out : Bool) (d : Beat) (n : Nat) : State :=
  let hs := s.descHomes p d n
  [Home.meadow, Home.heath, Home.moor].foldl (fun s h => s.countHome p out h (hs.filter (· == h)).length) s

/-- A lower tier failed a request of the partition (Table 8-18). -/
def State.tierFail (s : State) (p status : Nat) : State :=
  if status = 0x0041 then s.flag F.TIER_FAIL_STATUS_HEATH_FAIL p
  else if status = 0x0042 then s.flag F.TIER_FAIL_STATUS_MOOR_FAIL p else s

/-- Unbaling can go on: the item holds a context. `none`: it has to wait; `some false`: no Baler is online (R245). -/
def State.unbaler (s : State) (it : Item) (comp : Bool) : Option Bool :=
  if !comp then some true
  else if (s.engineDies false it.die).isEmpty then some false
  else if it.ctxs.isEmpty then none else some true

/-- The address of the last byte run that a descriptor's image writes. -/
def lastPlace (d : Beat) : Nat :=
  let ks := (Desc.beats d).flatMap (fun o => (List.range 64).filterMap (fun i => (Desc.bitPlace d (o + i) 0).map (fun x => x.2 / 8)))
  ks.getLastD 0

/-- Read back the last 4 bytes written to a peer (R368). -/
def State.readBack (s : State) (it : Item) (port a : Nat) : State :=
  match s.sendRead it.part port (a / 4 * 4) 4 (it.urg == 0) (.readback it.id) none with
  | some s => s.putItem { it with stage := .readback }
  | none => s.putItem { it with stage := .readback }

/-- After the tiles of a delivery have been written: USES, and the end (R68). -/
def State.delivered (s : State) (id status residue : Nat) (ts : List Nat) (e : ErrAt) : State :=
  match s.item? id with
  | none => s
  | some it => (ts.foldl (fun s t => s.useTile it.part it.obj t) s).endItem id status residue e

/-- Bytes moved through an LTE for work with one descriptor that is not plain (R225, R228). -/
def State.lteOne (s : State) (p : Nat) (d : Beat) (written : Nat) : State :=
  if !Desc.shaped d then s
  else
    let bits := fmtBits (Desc.format d)
    let full := ((sideFull d).filter (fun b => b)).length * bits / 8
    let all := Desc.count d * bits / 8
    let done (n : Nat) := if Desc.imageSize d = 0 then 0 else n * min written (Desc.imageSize d) / Desc.imageSize d
    (s.bump F.LTE_BYTES_FULL_BYTES p (done full)).bump F.LTE_BYTES_HALF_BYTES p (done (all - full))

/-- A bale failed the Unbaler's checks: the tile is healed or lost (R258). -/
def State.baleFault (s : State) (p obj tile : Nat) : State :=
  (s.flag F.BAL_STATUS_BALE_CRC p).heal p obj tile 2 0x0060 none

/-- The end of a DELIVER of one tile (section 2.7, R64, R68, R198, R242, R258, R320, R371). -/
def State.endDeliver (s : State) (id : Nat) (readback : Bool) : State :=
  match s.item? id with
  | none => s
  | some it =>
    let p := it.part
    let r := s.tile p it.obj it.tile
    let size := s.tileSize p it.obj
    let waitSo : Bool := match it.cso, it.doneValue with
      | some n, some v => decide ((s.soVal n).toNat < v)
      | _, _ => false
    if s.moorBusy id ∨ waitSo then s
    else if it.wrBad.isSome ∨ it.bad.isSome then
      let e := match it.bad with
        | some x => x.2
        | none => 0x0042
      (s.tierFail p e).endItem id e size ErrAt.none
    else if r.state = .released then s.endItem id 0x0053 size ErrAt.none
    else if r.state = .lost then s.endItem id 0x0040 size ErrAt.none
    else match s.unbaler it r.compressed with
      | none => s
      | some false => (s.flag F.BAL_STATUS_ENGINE_FAULT p).endItem id 0x0061 size ErrAt.none
      | some true =>
        if r.compressed && it.ctxs.length ≤ it.faults && decide (0 < it.faults) then
          (s.flag F.BAL_STATUS_ENGINE_FAULT p).endItem id 0x0061 size ErrAt.none
        else
          let t := s.readTile p r size
          let b := State.runBeats id it.ta t.img { addr := r.key, write := false, space := 0, peer := 0, desc := false }
            (Desc.beats it.ta) ⟨s, 0, 0, none⟩
          let s := ((b.s.lteOne p it.ta b.written).count p 1 b.written).countHome p true r.home
            (if r.compressed then r.stored else b.written)
          match b.stop with
          | some (e, at') =>
            let s := (s.tierFail p e).endItem id e (size - b.written) at'
            if e = 0x0060 then s.baleFault p it.obj it.tile else s
          | none =>
            if !t.crc then (s.endItem id 0x0060 0 ErrAt.none).baleFault p it.obj it.tile
            else if readback then
              match s.item? id with
              | some it => s.readBack it (s.peerPort it.peer) (Desc.base it.ta + lastPlace it.ta)
              | none => s
            else s.delivered id 0 0 [it.tile] ErrAt.none

/-- One tile of a lattice delivery, as a raw image at a place in peer memory: state, bytes written, status. -/
def State.latticeOne (s : State) (it : Item) (tile at' : Nat) : State × Nat × Nat :=
  let p := it.part
  let r := s.tile p it.obj tile
  let size := s.tileSize p it.obj
  let port := s.peerPort it.peer
  if r.state = .released then (s, 0, 0x0053)
  else if r.state = .lost then (s, 0, 0x0040)
  else if !r.disp.stored then (s, 0, if r.disp = .keep then 0 else 0x0053)
  else if !s.inWindow it.peer at' size then (s, 0, 0x0023)
  else match s.portErr p port at' with
    | some e => (s, 0, e)
    | none =>
      let t := s.readTile p r size
      let n := t.bytes.length / 64 * 64
      let s := (List.range (n / 64)).foldl (fun s i => s.sendWrite p port (at' + 64 * i) (bytesAt t.bytes (64 * i) 64) true) s
      let s := (s.count p 1 n).countHome p true r.home (if r.compressed then r.stored else n)
      (s, n, if n < size then t.stop.getD 0x0040 else if t.crc then 0 else 0x0060)

/-- The end of a lattice delivery (R199, R218): every tile in turn; the first error met is the status. -/
def State.endLattice (s : State) (id : Nat) (readback : Bool) : State :=
  match s.item? id with
  | none => s
  | some it =>
    let p := it.part
    let size := s.tileSize p it.obj
    let total := it.tiles.length * size
    let comp := it.tiles.any (fun t => (s.tile p it.obj t).compressed && (s.tile p it.obj t).disp.stored)
    let waitSo : Bool := match it.cso, it.doneValue with
      | some n, some v => decide ((s.soVal n).toNat < v)
      | _, _ => false
    if s.moorBusy id ∨ waitSo then s
    else match s.unbaler it comp with
      | none => s
      | some false => (s.flag F.BAL_STATUS_ENGINE_FAULT p).endItem id 0x0061 total ErrAt.none
      | some true =>
        let step := fun (x : State × Nat × Nat × Nat × List Nat × List Nat) (t : Nat) =>
          let (s, i, status, whole', good, crc) := x
          let (s, n, e) := s.latticeOne it t (Desc.base it.ta + i * size)
          let pre := if whole' = i * size then whole' + n else whole'
          (s, i + 1, if status = 0 then e else status, pre, if e = 0 then good ++ [t] else good,
            if e = 0x0060 then crc ++ [t] else crc)
        let (s, _, status, pre, good, crc) := it.tiles.foldl step (s, 0, 0, 0, [], [])
        let s := crc.foldl (fun s t => s.baleFault p it.obj t) s
        if readback ∧ status = 0 then
          match s.item? id with
          | some it => s.readBack it (s.peerPort it.peer) (Desc.base it.ta + total - 4)
          | none => s
        else (s.tierFail p status).delivered id status (total - pre) good ErrAt.none

/-- The end of a descriptor copy: MOVE COPY and LAYOUT (R232 to R242). Remote owner blocks are written by requests of their
own, and the work ends with their last response (R499). -/
def State.endCopy (s : State) (id : Nat) (perm : Nat) : State :=
  match s.item? id with
  | none => s
  | some it =>
    let p := it.part
    let total := Desc.imageSize it.tb
    if it.confirmed then
      if s.remoteReads id ≠ 0 ∨ !it.writes.isEmpty then s
      else match it.wrBad with
        | some (before, st) => s.endItem id st (total - before) ErrAt.none
        | none => s.endItem id 0 0 ErrAt.none
    else if !it.arrived then s
    else
      let a := if perm = 0x4688 then it.ta
        else (it.ta &&& ~~~ (BitVec.ofNat 512 (2 ^ 15 - 1) <<< 392)) ||| (BitVec.ofNat 512 perm <<< 392)
      let b := State.runBeats id it.tb (s.copyImage it a it.tb)
        { addr := Desc.base it.ta, write := false, space := min (Desc.space it.ta) 1, peer := Desc.peer it.ta, desc := false }
        (Desc.beats it.tb) ⟨s, 0, 0, none⟩
      let shaped := Desc.shaped it.ta || Desc.shaped it.tb || !plainPair it.ta it.tb || perm != 0x4688
      let s := b.s.lteFlags p b.flags
      let s := if shaped then s.lteCount p a it.tb b.written else s
      let s := (s.countDesc p true it.ta (b.written / 64)).countDesc p false it.tb (b.written / 64)
      match s.item? id with
      | none => s
      | some it =>
        if it.writes.isEmpty then match b.stop with
          | some (e, at') => (s.tierFail p e).endItem id e (total - b.written) at'
          | none => s.endItem id 0 0 ErrAt.none
        else
          (s.putItem { it with confirmed := true
                               wrBad := b.stop.map (fun x => (b.written, x.1)) }).issueWrites (it.writes.length + 1) id

/-- The output dense view of a Tedder run, written beat by beat. -/
def State.endTedd (s : State) (id op param : Nat) : State :=
  match s.item? id with
  | none => s
  | some it =>
    let p := it.part
    let total := Desc.imageSize it.tb
    if it.ctxs.isEmpty then s
    else if 0 < it.faults then s.endItem id 0x0061 total ErrAt.none
    else
      let src : ErrAt := { addr := Desc.base it.ta, write := false, space := 0, peer := 0, desc := false }
      let codes (d : Beat) := gotAll (fun n => s.srcCode it d n) (List.range (Desc.count d))
      let out : Got (List (Nat × Nat)) :=
        match codes it.ta, (if Ted.twoInputs op then codes it.ta2 else .ok []) with
        | .ok xs, .ok ys => .ok (Ted.run op param (Desc.format it.ta) (Desc.format it.ta2) (Desc.format it.tb)
            (Desc.ext it.ta 0) xs ys)
        | .error e, _ => .error e
        | _, .error e => .error e
      let img : Nat → Got (Byte × Flags) :=
        if op = 1 then s.copyImage it it.ta it.tb
        else match out with
          | .ok l => codeImage it.tb (fun n => .ok (l.getD n (0, 0))) (fun _ => .ok (0, 0))
          | .error e => fun _ => .error e
      let b := State.runBeats id it.tb img src (Desc.beats it.tb) ⟨s, 0, 0, none⟩
      let s := (b.s.tedFlags p b.flags).countDesc p true it.ta (b.written / 64)
      let s := (if Ted.twoInputs op then s.countDesc p true it.ta2 (b.written / 64) else s).countDesc p false it.tb
        (b.written / 64)
      match b.stop with
      | some (e, at') => s.endItem id e (total - b.written) at'
      | none => (s.bump F.TED_OPS_COUNT p 1).endItem id 0 0 ErrAt.none

/-- A movement is over without a commit: its reservation goes, the tile stays at its home (R66, section 8.5). -/
def State.abandon (s : State) (id status residue : Nat) : State :=
  match s.item? id with
  | none => s
  | some it =>
    let s := match it.resv with
      | some (h, k, n) => (s.uncharge it.part h.tier n).freeRun k .normal
      | none => s
    (s.tierFail it.part status).putItem { it with resv := none, ended := some (status, residue), blocks := [] }

/-- A tile's record takes a new home; the old one is freed after it (R66, R304). -/
def State.commitMove (s : State) (it : Item) (r : TileRec) (d : Disp) (h : Home) (k stored n : Nat) (comp : Bool)
    (mta : Nat) : State :=
  let p := it.part
  let s := s.setTile p it.obj it.tile { r with
    disp := d, home := h, location := locationOf k, stored, compressed := comp, mta }
  let s := s.freeTile p r .normal
  let s := (s.setOcc p h.tier (s.occupancy p h.tier + stored - n)).trimRun k stored
  let s := (s.countHome p true r.home r.stored).countHome p false h stored
  s.putItem { it with resv := none, ended := some (0, 0) }

/-- Why a movement's destination cannot be written now. -/
def State.destDown (s : State) (h : Home) (k : Nat) : Option Nat :=
  match h with
  | .heath => if s.heathFail k then some 0x0041 else none
  | .moor => if s.moorUp (moorTarget k) then none else some 0x0042
  | _ => none

/-- Commit a movement of a tile's stored bytes (R66, R196, Table 8-12). -/
def State.commitStored (s : State) (id : Nat) : State :=
  match s.item? id with
  | none => s
  | some it =>
    let p := it.part
    let r := s.tile p it.obj it.tile
    match it.resv with
    | none => s
    | some (h, k, n) =>
      if it.ended.isSome ∨ s.moorBusy id ∨ it.stage = .reserving ∨ it.stage = .parked ∨ it.stage = .deferred then s
      else if r.state = .released then s.abandon id 0x0053 r.stored
      else if r.state = .lost then s.abandon id 0x0040 r.stored
      else match it.bad with
      | some (_, e) => s.abandon id e r.stored
      | none => match s.destDown h k with
        | some e => s.abandon id e r.stored
        | none =>
          if it.laid.isSome then s.commitMove it r (landDisp r h) h k r.stored n r.compressed r.mta
          else if s.heathFail r.key then s.abandon id 0x0041 r.stored
          else match s.poisonOffset r.key r.stored with
            | some o => s.abandon id 0x0040 (r.stored - o / 64 * 64)
            | none =>
              let s := s.physWrite .bulk p k (s.bytes r.key r.stored)
              if h = .moor then
                (s.putItem { it with laid := some (r.stored, r.compressed, r.mta) }).moorMove id true k r.stored
              else s.commitMove it r (landDisp r h) h k r.stored n r.compressed r.mta

/-- The mode a PRESS runs under: its own, or the tile's rule (R194). -/
def pressRule (e : BalerEntry) (mode eps ratio : Nat) : Nat × Nat × Bale.Par :=
  if mode = 0 then (e.mode, e.minRatio, Bale.parOf e.mode e.params.toNat e.eps.toNat)
  else (mode, ratio, Bale.parOf mode e.params.toNat eps)

/-- Commit a PRESS (R54, R194, R245, R256, R257, R261). -/
def State.commitPress (s : State) (id mode eps ratio : Nat) : State :=
  match s.item? id with
  | none => s
  | some it =>
    let p := it.part
    let r := s.tile p it.obj it.tile
    let size := s.tileSize p it.obj
    let e := balerOf (s.rulesOf p) r
    let (m, q, par) := pressRule e mode eps ratio
    match it.resv with
    | none => s
    | some (h, k, n) =>
      if it.ended.isSome ∨ it.stage = .reserving then s
      else if r.state = .released then s.abandon id 0x0053 size
      else if r.state = .lost then s.abandon id 0x0040 size
      else if m = 0 ∨ (m = 2 ∧ size = 4096) then s.abandon id 0x0006 0
      else if mode ≠ 0 ∧ !Bale.parFits par then s.abandon id 0x0010 size
      else if (s.engineDies false it.die).isEmpty then (s.flag F.BAL_STATUS_ENGINE_FAULT p).abandon id 0x0061 size
      else if it.ctxs.isEmpty then s
      else match s.poisonOffset r.key r.stored with
        | some _ => s.abandon id 0x0040 size
        | none =>
          let image := s.bytes r.key r.stored
          let code := match s.obj? p it.obj with
            | some o => o.sizeCode
            | none => 0
          let x := if it.faults = 0 then runPass par q code r.gen image else .abandoned
          let s := s.countPass p size x false
          let w := s.writeMeta p it.obj it.tile r.gen par size image x (r.mta == 0xFFFFFFFF)
          match x with
          | .kept b _ _ =>
            (w.2.physWrite .bulk p k b).commitMove it r .press h k b.length n true w.1
          | .abandoned => (w.2.setTile p it.obj it.tile { r with mta := w.1 }).abandon id 0x0006 0

/-- Commit an UNPRESS (R195, R258). -/
def State.commitUnpress (s : State) (id : Nat) : State :=
  match s.item? id with
  | none => s
  | some it =>
    let p := it.part
    let r := s.tile p it.obj it.tile
    let size := s.tileSize p it.obj
    match it.resv with
    | none => s
    | some (h, k, n) =>
      if it.ended.isSome ∨ it.stage = .reserving then s
      else if r.state = .released then s.abandon id 0x0053 size
      else if r.state = .lost then s.abandon id 0x0040 size
      else if (s.engineDies false it.die).isEmpty then (s.flag F.BAL_STATUS_ENGINE_FAULT p).abandon id 0x0061 size
      else if it.ctxs.isEmpty then s
      else if 0 < it.faults then (s.flag F.BAL_STATUS_ENGINE_FAULT p).abandon id 0x0061 size
      else
        let t := s.readTile p r size
        match t.stop with
        | some e => s.abandon id e size
        | none =>
          if !t.crc then s.abandon id 0x0060 0
          else (s.physWrite .bulk p k t.bytes).commitMove it r .hold h k size n false r.mta

/-- An ended movement or engine work writes its slot; a bale that failed is healed or lost. -/
def State.endEnded (s : State) (id : Nat) : State :=
  match s.item? id with
  | none => s
  | some it => match it.ended with
    | none => s
    | some (st, res) =>
      let s := s.endItem id st res ErrAt.none
      if st = 0x0060 then s.baleFault it.part it.obj it.tile else s

/-- REGROW_START: inputs and reservation, then the context (R271, R274). -/
def State.regrowStart (s : State) (id : Nat) : State :=
  match s.item? id with
  | none => s
  | some it =>
    let p := it.part
    let r := s.tile p it.obj it.tile
    if r.disp ≠ .regrow ∨ (r.state ≠ .resident ∧ !it.flight) then s
    else if !s.regrowReady p r it.tile && !it.flight then
      let s := s.endItem id 0x0056 0 ErrAt.none
      s.fallback p it.obj it.tile
    else match s.recipeOf p r with
      | none => s
      | some rc =>
        let w3 := rc.words.getD 3 0
        let rows := bitsOf w3 40 24
        let row := if Ted.rowOut (bitsOf (rc.words.getD 0 0) 0 16) then 1 else bitsOf w3 16 24
        let f := bitsOf w3 10 5
        if ceilDiv (row * rows * fmtEs f) 64 * 64 |> fun n => ceilDiv n 4096 * 4096 ≠ s.tileSize p it.obj then
          (s.flag F.TED_CONV_STATUS_RECIPE_SHAPE p).endItem id 0x0057 0 ErrAt.none
        else
          let s := (s.flyItem id).reserveMove id
          match s.item? id with
          | some it => if it.resv.isSome then (s.putItem { it with want := some true, stage := .running, begun := true }).serveCtxs
              else s
          | none => s

/-- Codes of an image read as dense elements. -/
def imageCodes (f n : Nat) (b : List Byte) : List Nat := (Bale.chunks (fmtEs f) n b).map ofLe

/-- REGROW_COMMIT: the recipe runs over its inputs' images and the tile is committed as HOLD (R63, R269, R274). -/
def State.regrowCommit (s : State) (id : Nat) : State :=
  match s.item? id with
  | none => s
  | some it =>
    let p := it.part
    let r := s.tile p it.obj it.tile
    match it.resv, s.recipeOf p r with
    | some (_, k, n), some rc =>
      if it.ctxs.isEmpty ∨ it.ended.isSome then s
      else
        let w (i : Nat) := rc.words.getD i 0
        let op := bitsOf (w 0) 0 16
        let f0 := bitsOf (w 3) 0 5
        let f1 := bitsOf (w 3) 5 5
        let fo := bitsOf (w 3) 10 5
        let row := bitsOf (w 3) 16 24
        let count := row * bitsOf (w 3) 40 24
        let ins := s.inputsOf p r it.tile
        let reads := ins.map (fun i => (i, s.readTile p (s.tile p i.1 i.2) (s.tileSize p i.1)))
        match reads.find? (fun x => x.2.stop.isSome || !x.2.crc) with
        | some (i, t) =>
          let st := t.stop.getD 0x0060
          let s := s.endItem id st 0 ErrAt.none
          if st = 0x0060 then s.baleFault p i.1 i.2
          else s.afterTile p i.1 i.2 2 0x0040
        | none =>
          let img (j : Nat) := (reads[j]?).map (fun x => x.2.bytes)
          let out := Ted.run op (w 0 / 2 ^ 32 % 2 ^ 32) f0 f1 fo row (imageCodes f0 count ((img 0).getD []))
            (imageCodes f1 count ((img 1).getD []))
          let bytes := bytesAt (out.flatMap (fun x => leBytes (fmtEs fo) x.1)) 0 n
          let s := s.tedFlags p (out.foldl (fun a x => a ||| x.2) 0)
          let s := reads.foldl (fun s x =>
            let q := s.tile p x.1.1 x.1.2
            s.countHome p true q.home q.stored) s
          let s := s.physWrite .bulk p k bytes
          let s := s.setTile p it.obj it.tile { r with
            disp := .hold, home := .meadow, location := locationOf k, stored := n, compressed := false, mta := 0xFFFFFFFF }
          let s := (s.countHome p false .meadow n).bump F.TED_REGROWS_COUNT p 1
          let s := s.putItem { it with resv := none, ended := some (0, 0) }
          s.releaseInputs p ins
    | _, _ => s

/-- A regrow has ended. Deliveries that waited for it are placed again, or end with its status where the tile is REGROW
still (R274). -/
def State.endRegrow (s : State) (p obj tile status : Nat) : State :=
  let r := s.tile p obj tile
  if status ≠ 0 ∧ r.disp = .regrow ∧ r.state = .resident then
    (s.items.filter (fun e => e.2.part == p && e.2.obj == obj && e.2.stage == .deferred &&
      (match e.2.work with
        | .deliver _ => e.2.tile == tile
        | .lattice .. => e.2.tiles.contains tile
        | _ => false))).foldl (fun s e => s.endItem e.1 status (s.itemBytes e.2) ErrAt.none) s
  else s

/-- The notice of a NOTIFY is written, or waits for ring space (R75, R76, R200). -/
def State.endNotify (s : State) (id : Nat) : State :=
  match s.item? id with
  | none => s
  | some it =>
    let p := it.part
    let port := s.peerPort it.peer
    let nt := Notice.ofImage it.ta
    match s.portErr p port (s.peerWord it.peer 5) with
    | some e => s.endItem id e 0 { addr := s.peerWord it.peer 5, write := true, space := 1, peer := it.peer, desc := false }
    | none =>
      if s.noticeFull it.peer then (s.flag F.PART_LIFE_STATUS_NOTICE_RING_FULL p).putItem { it with stage := .notice }
      else
        let obj := nt.handle % 2 ^ 27
        let arms := nt.kind == 1 && nt.writeBack && s.tileExists p obj nt.first && (s.tile p obj nt.first).disp == .ret &&
          (s.tile p obj nt.first).state == .resident && !s.noticeOut p obj nt.first id
        if arms ∧ it.resv.isNone then
          match s.reserve p .meadow (s.placerDie (placerOf (s.rulesOf p) (s.tile p obj nt.first)) nt.first (it.core / 16)) 64
              (s.tileSize p obj) (.tile obj nt.first) with
          | none => s.putItem { it with stage := .noticeReserve, since := if it.stage = .noticeReserve then it.since else s.time }
          | some (k, s) =>
            let s := s.writeNotice p it.peer nt
            let a : Awaited := { part := p, peer := it.peer, obj, tile := nt.first, seq := (s.ring? it.peer).seq, place := k
                                 bytes := s.tileSize p obj }
            (s.setAwaited (s.host.awaited ++ [a])).endItem id 0 0 ErrAt.none
        else (s.writeNotice p it.peer nt).endItem id 0 0 ErrAt.none

end Sys2Proof.Machine
end

