-- ==== Sys2Proof/Machine/PartOps.lean ====
section
/-! DEFINITION. What takes a partition's work away: quench, partition reset, fatal quench, teardown of a connection,
revocation of a sync object and of the other leases (R276, R341, R383, R395, R491, R516 to R529). -/

namespace Sys2Proof.Machine

/-- A request over Courier ends without its response (R491, Table 13-8). -/
def State.failReq (s : State) (r : CrrReq) (status : Nat) : State :=
  match s.item? r.item with
  | none => s
  | some it =>
    if r.opcode = 0x08 then s.badRead r.item r.k status
    else if r.opcode = 0x09 then
      match it.wrBad with
      | some (j, _) => if r.k < j then s.putItem { it with wrBad := some (r.k, status) } else s
      | none => s.putItem { it with wrBad := some (r.k, status) }
    else if 0x0C ≤ r.opcode then s.moorDone r.item (some status)
    else s.endItem r.item status (s.itemBytes it) ErrAt.none

/-- The item serves a request of connection `c`: a PUT, or a RECALL. -/
def Item.serves (it : Item) (c : Nat) : Bool :=
  match it.work, it.origin with
  | .put k _ _ _ _, _ => k == c
  | .send k _, .courier _ => k == c
  | _, _ => false

/-- The intake of a PUT is over: HELD goes back with its status. A RECALL that asked for the tile ends with it (R497,
R498). -/
def State.putOver (s : State) (it : Item) (conn trans status : Nat) : State :=
  let s := s.sendMessage conn 2 trans it.urg status 0 [] []
  match (s.conn conn).reqs.find? (fun r => r.trans == trans && r.opcode == 4) with
  | none => s
  | some r => match s.item? r.item with
    | none => s
    | some k =>
      if k.obj = it.obj ∧ k.tile = it.tile then
        (s.dropReq conn trans 4).endItem r.item status (if status = 0 then 0 else s.itemBytes k) ErrAt.none
      else s

/-- A dead-letter entry of a sent tile whose CONFIRM is not acknowledged (Table 13-8). -/
def State.inDoubt (s : State) (p c trans obj tile : Nat) : State :=
  let d : Dead := { Dead.plain 5 4 0x0043 (c + trans * 2 ^ 32) with
    handle := handleOf p obj, tile, gen := (s.tile p obj tile).gen, dispBefore := 7, dispAfter := 7, stateAfter := 3 }
  (s.deadLetter p d).sat F.CRR_CONN_STATE_IN_DOUBT c 1

/-- A connection command of a partition's function ends with a result of Table 13-7. -/
def State.crrDone (s : State) (p result : Nat) : State :=
  ((s.wr F.CRR_CMD_CTRL_GO p 0).flag F.CRR_CMD_STATUS_DONE p).wr F.CRR_CMD_STATUS_RESULT p result

/-- Tear a connection down (R491): its requests end, a tile received and not confirmed is LOST, a partial intake is undone,
its replay space returns, its next generation starts 2^23 after the last postmark (R488). -/
def State.teardown (s : State) (c newState : Nat) : State :=
  let x := s.conn c
  let st := s.connState c
  let p := s.rd F.CRR_CONN_STATE_PARTITION c
  let begun := st = connOpening ∨ st = connOpen ∨ st = connClosing
  let s := s.setConn c { Conn.closed with isn := if begun then (x.next + 2 ^ 24 - 1 + 2 ^ 23) % 2 ^ 24 else x.isn }
  let s := if st = connListen ∨ st = connOpening ∨ st = connOpen ∨ st = connClosing then
      s.wr F.CRR_PORT_STATUS_REPLAY_FREE (s.connPort c) (s.rd F.CRR_PORT_STATUS_REPLAY_FREE (s.connPort c) + x.replayKib)
    else s
  let s := (s.wr F.CRR_CONN_STATE_STATE c newState).wr F.CRR_CONN_STATE_RETRIES c 0
  let s := match x.cmd with
    | some (q, _) => s.crrDone q 2
    | none => s
  let s := { s with eth := { s.eth with flows := Tab.erase s.eth.flows c } }
  let s := x.reqs.foldl (fun s r => s.failReq r 0x0043) s
  let s := if st = connOpen ∨ st = connClosing then (List.range 16).foldl (fun s t =>
      if s.rd F.TIER_MOOR_TGT_KIND t = 2 ∧ s.rd F.TIER_MOOR_TGT_CONN t = c ∧ s.moorState t = 0 then s.setMoorState t 1 else s) s
    else s
  let s := ((s.items.filter (fun e => e.2.serves c)).map (·.1)).foldl (fun s i => s.failItem i 0x0043 0 ErrAt.none) s
  let s := x.held.foldl (fun s h =>
    if (s.tile p h.obj h.tile).state = .inFlight then s.lose p h.obj h.tile 4 0x0043 none else s) s
  (x.confirms.filter (fun h => x.confirmKept h.trans)).foldl (fun s h => s.inDoubt p c h.trans h.obj h.tile) s

/-- Send CLOSE on a connection. -/
def State.sendClose (s : State) (c : Nat) : State :=
  (s.setConn c { s.conn c with closes := (s.conn c).closes + 1 }).sendRaw c (s.packetOf c 6)

/-- Stop a stream (R313): no new migrations, and no page names it. -/
def State.stopStream (s : State) (i : Nat) (revoked : Bool) : State :=
  let s := s.wr F.TIER_STRM_CFG_EN i 0
  let s := { s with
    pages := s.pages.map (fun e =>
      if e.1 / 2 ^ 36 = i / 8 ∧ e.2.stream = i % 8 + 1 then (e.1, { e.2 with stream := 0 }) else e)
    streams := Tab.erase s.streams i }
  if revoked then s.flag F.TIER_STRM_STATUS_REVOKED i else s

/-- Stop a walk: items already issued run to their end, and nothing further is written (section 11.6, Edges). -/
def State.stopWalk (s : State) (k : Nat) : State :=
  ({ s with walks := Tab.erase s.walks k }).wr F.SO_WALK_STATUS_STATE k 0

/-- The tracker's object a walk in progress uses. -/
def State.walkUses (s : State) (k n : Nat) : Bool :=
  match Tab.find? s.walks k with
  | some r => WB.doneSo r == n || s.rd F.SO_PROG_CFG_SO (4 * (k / 2) + WB.prog r) == n
  | none => false

/-- What the revocation of a sync object does to everything that uses it (R395). -/
def State.revokeSo (s : State) (p n : Nat) : State :=
  let s := (List.range 64).foldl (fun s c => match (s.core c).wait with
    | some w => if w.so = n then s.wake c w 2 else s
    | none => s) s
  let gated := (s.items.filter (fun e => e.2.stage == .gated && (match e.2.gate with
    | some (g, _) => g == n
    | none => false))).map (·.1)
  let s := gated.foldl (fun s i => s.voidItem i) s
  let s := (List.range 16).foldl (fun s i =>
    let j := 16 * p + i
    if s.rdb F.SO_WATCH_CFG_ARM j && s.rd F.SO_WATCH_CFG_SO j == n then
      (s.wr F.SO_WATCH_CFG_ARM j 0).flag F.SO_WATCH_CFG_REVOKED j
    else s) s
  let s := (List.range 8).foldl (fun s i =>
    let j := 8 * p + i
    if s.rdb F.TIER_STRM_CFG_EN j && (s.rd F.TIER_STRM_SO_PROGRESS j == n ||
        (s.rdb F.TIER_STRM_SO_READY_EN j && s.rd F.TIER_STRM_SO_READY j == n)) then s.stopStream j true
    else s) s
  let s := (List.range 2).foldl (fun s i =>
    let k := 2 * p + i
    if s.rdb F.SO_WALK_CFG_EN k && (s.rd F.SO_WALK_CFG_START_SO k == n || s.walkUses k n) then
      ((s.stopWalk k).wr F.SO_WALK_CFG_EN k 0).flag F.SO_WALK_STATUS_REVOKED k
    else s) s
  let s := (List.range 4).foldl (fun s i =>
    let k := 4 * p + i
    if s.rdb F.SO_PROG_CFG_EN k && s.rd F.SO_PROG_CFG_SO k == n then s.wr F.SO_PROG_CFG_EN k 0 else s) s
  { s with sos := Tab.set 0 s.sos n 0 }

/-- Discard held records that meet `f` from every pending buffer (R383, R525). -/
def State.dropHeld (s : State) (f : Nat → Held → Bool) : State :=
  s.host.held.foldl (fun s e =>
    let l := (s.heldOf e.1).filter (fun h => !f e.1 h)
    if l.length = (s.heldOf e.1).length then s else s.setHeld e.1 l) s

/-- The work of a channel whose lease goes: plan slots become VOID, the chain is discarded (R383). -/
def State.revokeChannel (s : State) (c : Nat) : State :=
  let ids := (s.items.filter (fun e => e.2.channel == some c)).map (·.1)
  let s := ids.foldl (fun s i => s.voidItem i) s
  let s := s.freeLines (fun r => match r.line with
    | some (d, _) => d == c
    | none => false)
  let s := s.absorb (fun r => match r.use with
    | .desc k => k == c
    | .kick k => k == c
    | _ => false)
  let s := s.dropHeld (fun _ h => match h with
    | .record r => r.channel == c
    | .message _ => false)
  (s.setChan c ChanRec.idle).refreshLines c

/-- The records of a ring whose lease goes: EN clears, held records are dropped (R383). -/
def State.revokeRing (s : State) (r : Nat) : State :=
  let s := s.dropHeld (fun _ h => match h with
    | .record x => x.ring == r
    | .message _ => false)
  (s.setRingRec r RingRec.idle).wr F.CAR_RING_CFG_EN r 0

/-- Clear a partition's pin mask and range table (R341, R344). -/
def State.clearPins (s : State) (p : Nat) : State :=
  let s := ((s.wr F.LLC_PIN_MASK_WAYS p 0).wr F.LLC_PIN_LINES_LINES p 0).wr F.LLC_PIN_LINES_RANGES p 0
  { s with pinRanges := Tab.erase s.pinRanges p, pinUnits := s.pinUnits.filter (fun e => e.2 != p + 1) }

/-- The work item that holds a context. -/
def State.ctxHolder (s : State) (x : Nat) : Option Nat :=
  (List.find? (fun (e : Nat × Item) => e.2.ctxs.any (fun y => y.1 == x)) s.items).map (·.1)

/-- A context is revoked: its work is void, the other context of a two-unit unbale with it (R276). Deliveries that waited
for a regrow it was are placed again. -/
def State.revokeCtx (s : State) (x : Nat) : State :=
  let l := s.lease (ctxKind x) (ctxIndex x)
  match (s.ctxHolder x).bind s.item? with
  | none => s.setLease (ctxKind x) (ctxIndex x) { l with state := 2, epoch := nextEpoch l.epoch }
  | some it =>
    let xs := it.ctxs.map (·.1)
    let bump (s : State) (y : Nat) : State :=
      s.setLease (ctxKind y) (ctxIndex y) { state := 2, holder := it.part, epoch := nextEpoch (s.lease (ctxKind y) (ctxIndex y)).epoch }
    let hold (s : State) (y : Nat) : State :=
      s.setLease (ctxKind y) (ctxIndex y) { s.lease (ctxKind y) (ctxIndex y) with state := 2, holder := it.part }
    (xs.foldl hold ((xs.foldl bump s).voidItem it.id)).requeueWaiters it.part it.obj it.tile

/-- Steps 2 to 6 of R525, for a partition reset and a fatal quench alike. -/
def State.quench (s : State) (p : Nat) : State :=
  let s := s.advanceEpochs p
  let n := s.zeroQ.length
  let own := s.fnOf p
  -- engines and streams
  let s := ((s.items.filter (fun e => e.2.part == p)).map (·.1)).foldl (fun s i => s.quenchItem i) s
  let s := (s.absorb (fun r => r.part == p && r.use != .probe)).freeLines (fun r => r.part == p)
  let s := s.dropHeld (fun fn h => match h with
    | .record r => (s.lease leaseRing r.ring).holder == p
    | .message _ => fn == p && own == p)
  let s := { s with
    host := { s.host with
      streams := s.host.streams.filter (fun e => s.peerPart e.2.peer != p)
      awaited := s.host.awaited.filter (fun a => a.part != p) }
    walks := Tab.keep (fun k => k / 2 != p) s.walks
    streams := Tab.keep (fun k => k / 8 != p) s.streams
    migs := Tab.keep (fun k => k / 2 != p) s.migs
    demoting := Tab.keep (fun k => k / 3 != p) s.demoting
    chans := Tab.keep (fun c => !s.holds leaseChannel c p) s.chans
    rings := Tab.keep (fun c => !s.holds leaseRing c p) s.rings }
  let s := (List.range 256).foldl (fun s c => if s.holds leaseChannel c p then s.refreshLines c else s) s
  -- last-level cache
  let s := (s.dropPartLines p).clearPins p
  let s := s.setLease leasePin p { s.lease leasePin p with state := 0, holder := 0 }
  -- connections
  let s := (s.eth.conns.map (·.1)).foldl (fun s c =>
    if s.holds leaseConn c p && s.connState c != connClosed then (s.sendClose c).teardown c connClosed else s) s
  -- records, plan, pages
  let s := ((s.space.filter (fun e => e.2.part == p)).map (·.1)).foldl (fun s k => s.freeRun k .reset) s
  let s := { s with
    tiles := Tab.keep (fun k => k / 2 ^ 51 != p) s.tiles
    pages := Tab.keep (fun k => k / 2 ^ 36 != p) s.pages
    granules := Tab.keep (fun k => k / 2 ^ 41 != p) s.granules
    zeroQ := s.zeroQ.take n ++ (s.zeroQ.drop n).map (fun (z : ZeroRange) => { z with why := ZeroWhy.reset }) }
  let s := (((s.setOcc p 0 0).setOcc p 1 0).setOcc p 2 0).setPlan p PlanState.empty
  (s.wr F.DTU_PIN_USED_PAGES p 0).wr F.PART_PLAN_STATUS_STATE p 0

/-- A partition-fatal error (R529). During a reset it is ignored (Table 14-8); a second one is logged only. `detail` is
DETAIL of the entry above FATAL_CAUSE (Table 17-4). -/
def State.fatal (s : State) (p cause src detail : Nat) : State :=
  if s.partState p = partResetting then s
  else if s.partState p = partFatal then s.deadLetter p (Dead.plain 6 src 0 (cause + detail))
  else
    let s := (List.range 64).foldl (fun s c =>
      if s.corePart? c = some p ∧ coreRunning ≤ s.coreState c ∧ s.coreState c ≤ coreStalled then s.haltCore c 5 else s) s
    let s := (s.wr F.PART_STATE_STATE p partFatal).wr F.PART_RECOVERY_STATUS_FATAL_CAUSE p cause
    (s.deadLetter p (Dead.plain 6 src 0 (cause + detail))).quench p

/-- The register instance belongs to partition `p`. -/
def State.regOf (s : State) (p : Nat) (r : Reg) (i : Nat) : Bool :=
  match (regSpec r).scope with
  | .device _ => false
  | .part k => i / k == p
  | .core k => s.corePart? (i / k) == some p
  | .channel => s.holds leaseChannel i p
  | .ring => s.holds leaseRing i p
  | .conn => s.holds leaseConn i p

/-- The partition's registers take their partition reset values (R525 step 7). PART_STATE and PART_CTRL follow the reset
itself. -/
def State.resetPartRegs (s : State) (p : Nat) : State :=
  { s with
    regs := Tab.mapVals (fun j => Reg.cold ⟨j / 131072⟩)
      (fun j w =>
        let r : Reg := ⟨j / 131072⟩
        if s.regOf p r (j % 131072) && r != Reg.PART_STATE && r != Reg.PART_CTRL then
          resetWord .part (regSpec r).fields w
        else w) s.regs }

/-- A partition reset up to its step 7 (R525, R527). -/
def State.startReset (s : State) (p : Nat) : State :=
  let s := (s.wr F.PART_STATE_STATE p partResetting).wr F.PART_CTRL_RESET p 1
  let s := (s.quench p).resetPartRegs p
  let b := s.rd F.SO_RANGE_BASE p
  let s := { s with sos := Tab.keep (fun n => !(decide (b ≤ n) && decide (n < b + s.rd F.SO_RANGE_COUNT p))) s.sos }
  (List.range 64).foldl (fun s c =>
    if s.corePart? c = some p then
      let was := s.coreState c
      let s := (s.clearCore c).zeroScratch c
      s.setCoreState c (if was = coreFenced then coreFenced else coreIdle)
    else s) s

/-- Step 8 of R525: the partition is ACTIVE again. -/
def State.endReset (s : State) (p : Nat) : State :=
  ((s.wr F.PART_STATE_STATE p partActive).wr F.PART_CTRL_RESET p 0).flag F.PART_RECOVERY_STATUS_RESET_DONE p

end Sys2Proof.Machine
end

