-- ==== Sys2Proof/Machine/Chain.lean ====
section
/-! DEFINITION. Chain work: descriptors, their checks and data, the order of their ends, halts and what leaves them
(sections 10.2 to 10.9). -/

namespace Sys2Proof.Machine

/-- Fields of a descriptor's words (Tables 10-1 and 10-2). -/
def CD.w (ws : List Nat) (i : Nat) : Nat := ws.getD i 0
def CD.op (ws : List Nat) : Nat := bitsOf (CD.w ws 0) 0 4
def CD.srcSpace (ws : List Nat) : Nat := bitsOf (CD.w ws 0) 4 2
def CD.dstSpace (ws : List Nat) : Nat := bitsOf (CD.w ws 0) 6 2
def CD.round (ws : List Nat) : Bool := (CD.w ws 0).testBit 8
def CD.shuffle (ws : List Nat) : Nat := bitsOf (CD.w ws 0) 9 3
def CD.burst (ws : List Nat) : Nat := bitsOf (CD.w ws 0) 12 3
def CD.urg (ws : List Nat) : Nat := bitsOf (CD.w ws 0) 16 2
def CD.readback (ws : List Nat) : Bool := (CD.w ws 0).testBit 18
def CD.cpl (ws : List Nat) : Bool := (CD.w ws 0).testBit 19
def CD.irq (ws : List Nat) : Bool := (CD.w ws 0).testBit 20
def CD.soEn (ws : List Nat) : Bool := (CD.w ws 0).testBit 21
def CD.fence (ws : List Nat) : Bool := (CD.w ws 0).testBit 22
def CD.ro (ws : List Nat) : Bool := (CD.w ws 0).testBit 23
def CD.srcPeer (ws : List Nat) : Nat := bitsOf (CD.w ws 0) 24 6
def CD.dstPeer (ws : List Nat) : Nat := bitsOf (CD.w ws 0) 30 6
def CD.so (ws : List Nat) : Nat := bitsOf (CD.w ws 0) 36 12
def CD.len (ws : List Nat) : Nat := bitsOf (CD.w ws 1) 0 32
def CD.user (ws : List Nat) : Nat := bitsOf (CD.w ws 1) 32 32
def CD.src (ws : List Nat) : Nat := CD.w ws 2
def CD.dst (ws : List Nat) : Nat := CD.w ws 3
def CD.next (ws : List Nat) : Nat := CD.w ws 4
def CD.planeStride (ws : List Nat) : Nat := bitsOf (CD.w ws 5) 0 40
def CD.planes (ws : List Nat) : Nat := bitsOf (CD.w ws 5) 40 4
def CD.unit (ws : List Nat) : Nat := 2 ^ bitsOf (CD.w ws 5) 48 4
def CD.ways (ws : List Nat) : Nat := 2 ^ bitsOf (CD.w ws 5) 52 3
def CD.ilStride (ws : List Nat) : Nat := bitsOf (CD.w ws 6) 0 40
def CD.ring (ws : List Nat) : Nat := bitsOf (CD.w ws 7) 0 9
/-- The descriptor's own address, in the form of word 4. -/
def CD.addr (ws : List Nat) : Nat := CD.w ws 8

/-- PACK or UNPACK; INTERLEAVE or DEINTERLEAVE. -/
def CD.packs (ws : List Nat) : Bool := CD.shuffle ws == 1 || CD.shuffle ws == 2
def CD.weaves (ws : List Nat) : Bool := CD.shuffle ws == 3 || CD.shuffle ws == 4

/-- Bytes of one plane of PACK and UNPACK (R364). -/
def CD.planeLen (ws : List Nat) : Nat := CD.len ws / max (CD.planes ws) 1

/-- Check 1 of R357: reserved fields and codes. -/
def CD.reserved (ws : List Nat) : Bool :=
  (CD.w ws 0).testBit 15 || bitsOf (CD.w ws 0) 48 16 != 0 || bitsOf (CD.w ws 4) 1 5 != 0 || bitsOf (CD.w ws 5) 44 4 != 0 ||
  bitsOf (CD.w ws 5) 55 9 != 0 || bitsOf (CD.w ws 6) 40 24 != 0 || decide (512 ≤ CD.w ws 7) || CD.op ws == 0 ||
  decide (4 < CD.op ws) || decide (4 < CD.shuffle ws) || decide (5 < CD.burst ws) || CD.srcSpace ws == 3 ||
  CD.dstSpace ws == 3

/-- Checks 2 and 3 of R357: LENGTH and the spaces. -/
def CD.shapeOk (ws : List Nat) : Bool :=
  match CD.op ws with
  | 1 => CD.len ws != 0 && (CD.srcSpace ws == 0 || CD.dstSpace ws == 0)
  | 2 => CD.len ws != 0 && CD.srcSpace ws == 0
  | _ => CD.len ws == 0 && CD.srcSpace ws == 0 && CD.dstSpace ws == 0

/-- Check 6 of R357 (R364, R365). -/
def CD.shuffleOk (ws : List Nat) : Bool :=
  let unitCode := bitsOf (CD.w ws 5) 48 4
  let wayCode := bitsOf (CD.w ws 5) 52 3
  (CD.op ws != 2 || CD.shuffle ws == 0) &&
  (if CD.packs ws then
    (CD.planes ws == 4 || CD.planes ws == 6) && CD.len ws % CD.planes ws == 0 && decide (CD.planeLen ws ≤ CD.planeStride ws)
  else CD.planes ws == 0 && CD.planeStride ws == 0) &&
  (if CD.weaves ws then
    decide (unitCode ≤ 12) && decide (1 ≤ wayCode) && decide (wayCode ≤ 4) && CD.len ws % (CD.ways ws * CD.unit ws) == 0 &&
      decide (CD.len ws / CD.ways ws ≤ CD.ilStride ws)
  else unitCode == 0 && wayCode == 0 && CD.ilStride ws == 0)

/-- Check 7 of R357: STRICT alignment (R360). -/
def CD.alignOk (ws : List Nat) : Bool :=
  let a64 (n : Nat) := n % 64 == 0
  if CD.round ws ∨ 2 < CD.op ws then true
  else if CD.op ws = 2 then a64 (CD.dst ws) && a64 (CD.len ws)
  else
    let streams (a : Nat) := (List.range (CD.ways ws)).all (fun i => a64 (a + i * CD.ilStride ws)) && decide (64 ≤ CD.unit ws)
    match CD.shuffle ws with
    | 1 => a64 (CD.dst ws) && a64 (CD.len ws)
    | 2 => a64 (CD.src ws) && a64 (CD.len ws)
    | 3 => a64 (CD.dst ws) && a64 (CD.len ws) && streams (CD.src ws)
    | 4 => a64 (CD.src ws) && a64 (CD.len ws) && streams (CD.dst ws)
    | _ => a64 (CD.src ws) && a64 (CD.dst ws) && a64 (CD.len ws)

/-- A peer field agrees with its space (check 4 of R357). -/
def State.peerField (s : State) (p space peer : Nat) : Bool := if space = 1 then s.peerOf p peer else peer == 0

/-- The checks of R357 in order: the status a descriptor ends with. -/
def State.descStatus (s : State) (p : Nat) (ws : List Nat) : Option Nat :=
  let host := CD.srcSpace ws == 2 || CD.dstSpace ws == 2 || (CD.next ws).testBit 0
  if CD.reserved ws || !CD.shapeOk ws || !s.peerField p (CD.srcSpace ws) (CD.srcPeer ws) ||
      !s.peerField p (CD.dstSpace ws) (CD.dstPeer ws) || (if CD.soEn ws then !s.soInRange p (CD.so ws) else CD.so ws != 0) ||
      !s.holds leaseRing (CD.ring ws) p || !CD.shuffleOk ws || (host && !s.feature 20) then some 0x0010
  else if !CD.alignOk ws then some 0x0011
  else none

/-- Where destination byte `k` goes, in generation order: ascending addresses (R362), for UNPACK element by element. -/
def CD.dstAt (ws : List Nat) (k : Nat) : Nat :=
  match CD.shuffle ws with
  | 2 => CD.dst ws + k % CD.planes ws * CD.planeStride ws + k / CD.planes ws
  | 4 =>
    let n := CD.len ws / CD.ways ws
    CD.dst ws + k / n * CD.ilStride ws + k % n
  | _ => CD.dst ws + k

/-- The source bit of bit `t` of destination byte `k`: an address and a bit (R364, R365). -/
def CD.srcAt (ws : List Nat) (k t : Nat) : Nat × Nat :=
  match CD.shuffle ws with
  | 1 =>
    let q := 8 * k + t
    let n := q / CD.planes ws
    (CD.src ws + q % CD.planes ws * CD.planeStride ws + n / 8, n % 8)
  | 2 =>
    let q := CD.planes ws * (8 * (k / CD.planes ws) + t) + k % CD.planes ws
    (CD.src ws + q / 8, q % 8)
  | 3 =>
    let m := k / CD.unit ws
    (CD.src ws + m % CD.ways ws * CD.ilStride ws + m / CD.ways ws * CD.unit ws + k % CD.unit ws, t)
  | 4 =>
    let n := CD.len ws / CD.ways ws
    let j := k % n
    (CD.src ws + (j / CD.unit ws * CD.ways ws + k / n) * CD.unit ws + j % CD.unit ws, t)
  | _ => (CD.src ws + k, t)

/-- One source byte of a descriptor. -/
def State.chainSrc (s : State) (it : Item) (ws : List Nat) (a : Nat) : Got Byte :=
  if CD.srcSpace ws = 0 then s.devByte it.part a else it.extByte a

/-- The value of destination byte `k`. -/
def State.chainByte (s : State) (it : Item) (ws : List Nat) (k : Nat) : Got Byte :=
  if CD.op ws = 2 then .ok (BitVec.ofNat 8 (CD.src ws / 256 ^ (k % 8)))
  else if CD.packs ws then
    match gotAll (fun t =>
      let a := CD.srcAt ws k t
      match s.chainSrc it ws a.1 with
      | .ok b => Except.ok (b.toNat.testBit a.2)
      | .error e => .error e) (List.range 8) with
    | .ok l => .ok (BitVec.ofNat 8 (ofBits l))
    | .error e => .error e
  else s.chainSrc it ws (CD.srcAt ws k 0).1

/-- The source regions outside the device, in generation order (R362). PACK reads its planes one after the other. -/
def CD.regions (ws : List Nat) : List (Nat × Nat) :=
  if CD.srcSpace ws = 0 ∨ CD.op ws ≠ 1 then []
  else match CD.shuffle ws with
    | 1 => (List.range (CD.planes ws)).map (fun b => (CD.src ws + b * CD.planeStride ws, CD.planeLen ws))
    | 3 => (List.range (CD.len ws / CD.unit ws)).map (fun m => ((CD.srcAt ws (m * CD.unit ws) 0).1, CD.unit ws))
    | _ => [(CD.src ws, CD.len ws)]

/-- The item's descriptor words. -/
def Item.words (it : Item) : List Nat :=
  match it.work with
  | .chain ws => ws
  | _ => []

/-- The port a side of a descriptor uses. -/
def State.sidePort (s : State) (space peer : Nat) : Nat := if space = 2 then s.hostPort else s.peerPort peer

/-- The external reads of a descriptor, cut at the Max Read Request Size and into bursts (R362). -/
def State.chainRuns (s : State) (it : Item) (c : Nat) : List (Nat × Nat × Nat) :=
  let ws := it.words
  let m := min 4096 (s.mrrsOf (s.reqFn it.part (s.sidePort (CD.srcSpace ws) (CD.srcPeer ws))))
  let b := s.burstBytes c (CD.burst ws)
  burstCut b (CD.dst ws % b) ((CD.regions ws).flatMap (fun r => cutRun m (r.2 / m + 2) r.1 r.2))

/-- Where an error of a descriptor's own lies. -/
def chainErr (ws : List Nat) (status : Nat) : ErrAt :=
  if status = 0x0010 ∨ status = 0x0011 ∨ status = 0x0013 then
    { addr := CD.addr ws, write := false, space := 0, peer := 0, desc := true }
  else { addr := CD.src ws, write := false, space := CD.srcSpace ws, peer := CD.srcPeer ws, desc := false }

/-- Where a failed source read lies: the first address of the request. -/
def Item.srcErr (it : Item) (ws : List Nat) : ErrAt :=
  match it.bad with
  | some (k, _) => { chainErr ws 0 with addr := (it.runs.getD k (CD.src ws, 0)).1 }
  | none => chainErr ws 0

/-- Consecutive addresses as runs of bytes. -/
def byteRuns : List (Nat × Byte) → List (Nat × List Byte)
  | [] => []
  | (a, b) :: t => match byteRuns t with
    | (j, l) :: r => if j = a + 1 then (a, b :: l) :: r else (a, [b]) :: (j, l) :: r
    | [] => [(a, [b])]

/-- Write one run of a descriptor's destination (R241, R376, R441). -/
def State.chainWrite (s : State) (it : Item) (ws : List Nat) (a : Nat) (bs : List Byte) : Wrote :=
  let p := it.part
  match CD.dstSpace ws with
  | 0 => s.devWrite p a (bs.map (fun b => (255, b.toNat)))
  | 1 =>
    let port := s.peerPort (CD.dstPeer ws)
    if !s.inWindow (CD.dstPeer ws) a bs.length then .fault s 0x0023 a
    else match s.portErr p port a with
      | some e => .fault s e a
      | none => .ok (s.sendWrite p port a bs (CD.ro ws))
  | _ =>
    match s.portErr p s.hostPort a with
    | some e => .fault s e a
    | none => match s.hostAddr (s.fnOf p) a true with
      | some x => .ok (s.sendWrite p s.hostPort x bs (CD.ro ws))
      | none => .fault s 0x0025 a

/-- Write runs in order. -/
def State.chainWrites (it : Item) (ws : List Nat) : List (Nat × List Byte) → State → Wrote
  | [], s => .ok s
  | (a, bs) :: t, s => match s.chainWrite it ws a bs with
    | .ok s => State.chainWrites it ws t s
    | w => w

/-- Destination bytes of one beat: up to the next multiple of 64 of the address, or 64 columns of UNPACK. -/
def CD.beatLen (ws : List Nat) (k : Nat) : Nat :=
  if CD.shuffle ws = 2 then min (64 * CD.planes ws) (CD.len ws - k)
  else
    let n := if CD.shuffle ws = 4 then CD.len ws / CD.ways ws - k % (CD.len ws / CD.ways ws) else CD.len ws - k
    min (64 - CD.dstAt ws k % 64) n

/-- Run a descriptor's beats from byte `k` until its end, a fault, or data that has not arrived (R371). -/
def State.chainBeats (it : Item) (ws : List Nat) : Nat → Nat → State → Beats
  | 0, k, s => ⟨s, k, 0, none⟩
  | f + 1, k, s =>
    if CD.len ws ≤ k then ⟨s, k, 0, none⟩
    else
      let n := CD.beatLen ws k
      match gotAll (fun i => s.chainByte it ws (k + i)) (List.range n) with
      | .error e => ⟨s, k, 0, some (e, it.srcErr ws)⟩
      | .ok l =>
        let cells := (List.range n).map (fun i => (CD.dstAt ws (k + i), l.getD i 0))
        let cells := if CD.shuffle ws = 2 then
            (List.range (CD.planes ws)).flatMap (fun b => (List.range (n / CD.planes ws)).map (fun j =>
              (CD.dstAt ws (k + j * CD.planes ws + b), l.getD (j * CD.planes ws + b) 0)))
          else cells
        match State.chainWrites it ws (byteRuns cells) s with
        | .fault s e a => ⟨s, k, 0, some (e, { addr := a, write := true, space := CD.dstSpace ws, peer := CD.dstPeer ws
                                               desc := false })⟩
        | .ok s => State.chainBeats it ws f (k + n) s

/-- The first HOST page of a destination that has no translation yet (R445). -/
def State.untranslated (s : State) (it : Item) (ws : List Nat) : Option Nat :=
  if CD.dstSpace ws ≠ 2 ∨ 2 < CD.op ws then none
  else
    let fn := s.fnOf it.part
    ((List.range ((CD.dst ws % 4096 + CD.len ws) / 4096 + 1)).map (fun i => CD.dst ws / 4096 * 4096 + i * 4096)).find?
      (fun a => (s.hostAddr fn a true).isNone)

/-- The state code of a channel (Table 10-10). -/
def chIdle : Nat := 0
def chRunning : Nat := 1
def chWaitRing : Nat := 2
def chHalted : Nat := 3

def State.chState (s : State) (c : Nat) : Nat := s.rd F.CAR_CH_STATUS_STATE c
def State.setChState (s : State) (c v : Nat) : State := s.wr F.CAR_CH_STATUS_STATE c v

/-- A channel is a CHAIN channel of a partition that is served. -/
def State.chainLive (s : State) (c : Nat) : Bool :=
  let l := s.lease leaseChannel c
  decide (c < 256) && l.state == 1 && s.served l.holder && s.rd F.CAR_CH_CFG_POOL c == 1 && s.meadowOn (c / 64)

/-- Write the records that wait in a channel, in order, while their rings take them (R359, R379). -/
def State.writeRecs : Nat → State → Nat → State
  | 0, s, _ => s
  | f + 1, s, c =>
    let x := s.chan c
    match x.recs with
    | [] => s
    | r :: t => match s.putRecord r with
      | (.done, s) => (s.setChan c { s.chan c with recs := t }).writeRecs f c
      | (.gone, s) =>
        let s := s.setChan c { s.chan c with recs := t }
        if s.rd F.CAR_CH_CFG_POOL c = 0 then s.writeRecs f c
        else (s.setChState c chHalted).wr F.CAR_CH_STATUS_CAUSE c 5
      | (.wait, s) => s
      | (.fail, s) => (s.setChState c chHalted).wr F.CAR_CH_STATUS_CAUSE c 5

/-- The device address of a descriptor or its word 4 is read through translation: 8-byte words, or a failure. -/
def State.descWords (s : State) (p a : Nat) : Nat → Option (List Nat)
  | 0 => some []
  | n + 1 => match s.devWord p a 8, s.descWords p (a + 8) n with
    | .ok w, some l => some (w :: l)
    | _, _ => none

/-- Add a descriptor to its chain as an item that has not begun. -/
def State.addDesc (s : State) (c p : Nat) (ws : List Nat) (ended : Option (Nat × Nat)) : State :=
  let (urg, s) := s.classOf p (CD.urg ws)
  let id := s.nextItem
  let s := s.addItem { Item.blank p (.chain ws) with
    origin := .chain, urg, deadline := s.time, peer := CD.srcPeer ws, channel := some c
    epoch := (s.lease leaseChannel c).epoch, cso := if CD.soEn ws && ended.isNone then some (CD.so ws) else none
    stage := .placed, ended
    ringEpoch := if CD.w ws 7 < 512 ∧ s.holds leaseRing (CD.ring ws) p then some (s.lease leaseRing (CD.ring ws)).epoch else none }
  s.setChan c { s.chan c with chain := (s.chan c).chain ++ [id], reading := false }

/-- Begin a descriptor: its external reads go out (R358, R359). -/
def State.beginDesc (s : State) (c id : Nat) : State :=
  match s.item? id with
  | none => s
  | some it =>
    if it.begun ∨ it.ended.isSome then s
    else
      let l := s.chainRuns it c
      let s := s.setChan c { s.chan c with next := CD.next it.words, reading := CD.next it.words != 0 }
      (s.putItem { it.withRuns l with stage := .running }).issueReads (l.length + 1) id

/-- A descriptor that waits behind its FENCE begins once it is the oldest; the others at once. -/
def State.beginChain (s : State) (c : Nat) : State :=
  match (s.chan c).chain.getLast? with
  | none => s
  | some id => match s.item? id with
    | some it => if CD.fence it.words ∧ (s.chan c).chain.length ≠ 1 then s else s.beginDesc c id
    | none => s

/-- A descriptor has been read: check it, take it into the chain, begin it (R357, R359). -/
def State.takeDesc (s : State) (c addr : Nat) (words : Option (List Nat)) : State :=
  let p := (s.lease leaseChannel c).holder
  let s := s.wr F.CAR_CH_CUR_ADDR c addr
  match words with
  | none => s.addDesc c p ([4, 0, 0, 0, 0, 0, 0, 512, addr]) (some (0x0013, 0))
  | some l =>
    let ws := l ++ [addr]
    match s.descStatus p ws with
    | some e => s.addDesc c p ws (some (e, CD.len ws))
    | none => (s.addDesc c p ws none).beginChain c

/-- A request cannot go out of the HOST port for the reading of descriptors: the status. -/
def State.hostReadErr (s : State) (p a : Nat) : Option Nat := s.portErr p s.hostPort a

/-- The chain halts with a cause; descriptors in progress after the halted one are given up, and read again later. -/
def State.haltChain (s : State) (c cause : Nat) (halted : Option (Nat × List Nat)) : State :=
  let later := (s.chan c).chain
  let s0 := s
  let s := later.foldl (fun s i => s.withdraw i) s
  let s := s.absorb (fun r => match r.use with
    | .desc k => k == c
    | .kick k => k == c
    | _ => false)
  let x := s.chan c
  let first := later.findSome? (fun i => (s0.item? i).map (fun it => CD.addr it.words))
  let s := s.setChan c { x with
    chain := [], reading := x.reading || first.isSome, next := first.getD x.next, halted, headNew := false }
  let s := s.wr F.CAR_CH_STATUS_CAUSE c cause
  (s.setChState c (if x.recs.isEmpty ∨ cause = 4 ∨ cause = 5 then chHalted else chWaitRing)).refreshLines c

/-- The end of the chain: a KICK that waits re-reads word 4 of the last descriptor, otherwise the channel is IDLE (R358). -/
def State.endChain (s : State) (c : Nat) : State :=
  let x := s.chan c
  if !x.chain.isEmpty ∨ x.reading ∨ !x.recs.isEmpty ∨ s.chState c ≠ chRunning then s
  else if s.rdb F.CAR_CH_STATUS_KICK_PENDING c then
    s.wr F.CAR_CH_STATUS_KICK_PENDING c 0 |>.setChan c { x with reading := true, kickRead := true }
  else s.setChState c chIdle

/-- A ring has taken the waiting records: the channel goes on, or shows the halt that waited for them (R379, Table 10-9). -/
def State.afterRecs (s : State) (c : Nat) : State :=
  let x := s.chan c
  if s.chState c ≠ chWaitRing ∨ !x.recs.isEmpty then s
  else if s.rd F.CAR_CH_STATUS_CAUSE c ≠ 0 then (s.setChState c chHalted).wr F.CAR_CH_CTRL_ABORT c 0
  else if s.rd F.CAR_CH_CFG_POOL c = 0 then s.showChan c
  else (s.setChState c chRunning).endChain c

/-- Write what waits and go on. -/
def State.drainRecs (s : State) (c : Nat) : State :=
  if s.chState c = chHalted then s else (s.writeRecs ((s.chan c).recs.length + 1) c).afterRecs c

/-- A record of channel `c` is produced: it joins those that wait, and goes to its ring if it can (R359, R379). -/
def State.addRec (s : State) (c : Nat) (r : CplRec) : State :=
  let x := s.chan c
  let s := s.setChan c { x with recs := x.recs ++ [r] }
  if !x.recs.isEmpty then s
  else
    let s := s.writeRecs 2 c
    if s.chState c = chHalted ∨ (s.chan c).recs.isEmpty then s else s.setChState c chWaitRing

/-- The ring of a descriptor's records and the epoch they carry: its own where the partition held it when the descriptor was
read, else the channel's ERR_RING (Table 10-10, R518). -/
def State.descRing (s : State) (c : Nat) (it : Item) : Nat × Option Nat :=
  let r := s.rd F.CAR_CH_CFG_ERR_RING c
  match it.ringEpoch with
  | some e => (CD.ring it.words, some e)
  | none => (r, if s.holds leaseRing r it.part then some (s.lease leaseRing r).epoch else none)

/-- A record, if it reaches a ring of the partition at all: a ring it does not hold takes nothing (R380). -/
def recordOf (c : Nat) (ring : Nat × Option Nat) (status user residue desc : Nat) (readback irq : Bool) : Option CplRec :=
  ring.2.map (fun e => { ring := ring.1, status, channel := c, readback, user, residue, desc, epoch := e, irq })

def State.addRec? (s : State) (c : Nat) (r : Option CplRec) : State :=
  match r with
  | some r => s.addRec c r
  | none => s

/-- A descriptor ends (R370, R373): its record, its sync object, and the halt that an error brings. `cause` is 0 for an end
of its own. -/
def State.endDesc (s : State) (id status residue : Nat) (e : ErrAt) (readback : Bool) (cause : Nat) : State :=
  match s.item? id with
  | none => s
  | some it => match it.channel with
    | none => s
    | some c =>
      let ws := it.words
      if !s.epochsHold it then s.finish id status residue e
      else
        let s := s.wr F.CAR_CH_RESIDUE_BYTES c residue
        let ring := s.descRing c it
        let r := if CD.cpl ws ∨ status ≠ 0 then
            recordOf c ring status (CD.user ws) residue (CD.addr ws) readback (CD.irq ws)
          else none
        let s := (s.finish id status residue e).addRec? c r
        if cause = 2 then s
        else if cause ≠ 0 ∨ (status ≠ 0 ∧ status ≠ 6) then
          s.haltChain c (if s.chState c = chHalted then 5 else if cause = 0 then 1 else cause)
            (some (CD.addr ws, ws.take 8))
        else if s.chState c = chHalted then s.haltChain c 5 none
        else (s.beginChain c).endChain c

/-- The residue of a descriptor of which `k` destination bytes in generation order were written (R371). -/
def CD.residue (ws : List Nat) (k : Nat) : Nat :=
  if CD.shuffle ws = 2 then CD.len ws - k / CD.planes ws * CD.planes ws else CD.len ws - k

/-- Homes of device bytes a descriptor reads or writes, for the tally (R547). -/
def State.countRange (s : State) (p : Nat) (out : Bool) (a : List Nat) : State :=
  let hs := a.filterMap (fun v => (s.granule? p v).map (·.home))
  [Home.meadow, Home.heath, Home.moor].foldl (fun s h => s.countHome p out h (hs.filter (· == h)).length) s

/-- Move a descriptor's data as far as it goes. -/
def State.runDesc (s : State) (it : Item) : Beats :=
  let ws := it.words
  let r := if 2 < CD.op ws then ⟨s, 0, 0, none⟩ else State.chainBeats it ws (CD.len ws + 1) 0 s
  let ks := List.range r.written
  let t := if CD.dstSpace ws = 0 then r.s.countRange it.part false (ks.map (CD.dstAt ws)) else r.s
  let t := if CD.srcSpace ws = 0 ∧ CD.op ws = 1 then t.countRange it.part true (ks.map (fun k => (CD.srcAt ws k 0).1)) else t
  { r with s := t }

/-- The last destination byte of a descriptor. -/
def CD.lastDst (ws : List Nat) : Nat := CD.dstAt ws (CD.len ws - 1)

/-- The oldest descriptor of a chain comes to its end (R359, R368, R370). Data that has not all arrived, and translations
not yet granted, keep it. -/
def State.endChainItem (s : State) (id : Nat) : State :=
  match s.item? id with
  | none => s
  | some it => match it.channel with
    | none => s
    | some c =>
      let ws := it.words
      if (s.chan c).chain.head? ≠ some id ∨ s.chState c ≠ chRunning then s
      else match it.ended with
      | some (st, res) => s.endDesc id st res (chainErr ws st) false 0
      | none =>
        if it.stage ≠ .running ∨ !it.arrived then s
        else match s.untranslated it ws with
        | some a => (s.askAts (s.fnOf it.part) a).putItem { it with stage := .ats }
        | none =>
          let r := s.runDesc it
          let s := r.s
          match r.stop with
          | some (e, at') => (s.tierFail it.part e).endDesc id e (CD.residue ws r.written) at' false 0
          | none =>
            if CD.readback ws ∧ CD.op ws ≤ 2 then
              let a := CD.lastDst ws
              match CD.dstSpace ws with
              | 0 => match s.devByte it.part a with
                | .ok _ => s.endDesc id 0 0 ErrAt.none true 0
                | .error _ => s.endDesc id 0x0035 0 ErrAt.none false 0
              | sp => s.readBack it (s.sidePort sp (CD.dstPeer ws)) (if sp = 2 then (s.hostAddr (s.fnOf it.part) a true).getD a
                  else a)
            else s.endDesc id 0 0 ErrAt.none false 0

/-- A descriptor in progress is stopped: what has arrived has been written, and it ends with a status (R371, R372, R376). A
read-back that is outstanding leaves residue 0. -/
def State.stopDesc (s : State) (id status cause : Nat) : State :=
  match s.item? id with
  | none => s
  | some it =>
    let ws := it.words
    if it.stage = .readback then s.endDesc id status 0 ErrAt.none false cause
    else if !it.begun ∨ it.runs.isEmpty then s.endDesc id status (CD.len ws) (chainErr ws 0) false cause
    else
      let r := s.runDesc it
      r.s.endDesc id status (CD.residue ws r.written) (chainErr ws 0) false cause

/-- The channel reads its next descriptor (R356, R358). -/
def State.readNext (s : State) (c : Nat) : State :=
  let x := s.chan c
  let p := (s.lease leaseChannel c).holder
  let a := x.next / 64 * 64
  let waits := s.host.reads.any (fun e => !e.2.absorbed && (e.2.use == .desc c || e.2.use == .kick c))
  let issued := x.chain.all (fun i => match s.item? i with
    | some it => it.ended.isNone && it.begun && it.issued == it.runs.length
    | none => true)
  if s.chState c ≠ chRunning ∨ !x.reading ∨ waits ∨ !issued then s
  else
    let kick := x.kickRead
    let at' := if kick then s.rd F.CAR_CH_CUR_ADDR c else x.next
    let base := if kick then at' / 64 * 64 + 32 else a
    if bitsOf at' 1 5 ≠ 0 then s.takeDesc c at' none
    else if at'.testBit 0 then
      if !s.feature 20 then s.addDesc c p ([4, 0, 0, 0, 0, 0, 0, 512, at']) (some (0x0010, 0))
      else match s.hostReadErr p base with
        | some 0x0003 => s.haltChain c 3 none
        | some _ => s.takeDesc c at' none
        | none => match s.hostAddr (s.fnOf p) base false with
          | none => s.askAts (s.fnOf p) base
          | some b => (s.sendRead p s.hostPort b (if kick then 8 else 64) false (if kick then .kick c else .desc c) none).getD s
    else if kick then
      match s.devWord p base 8 with
      | .error _ => s.takeDesc c at' none
      | .ok 0 => (s.setChan c { x with reading := false, kickRead := false }).setChState c chIdle
      | .ok w => s.setChan c { x with next := w, kickRead := false }
    else s.takeDesc c at' (s.descWords p a 8)

/-- Word 4 that a KICK re-read has come from host memory (R358). -/
def State.kickRead (s : State) (c w : Nat) : State :=
  let x := s.chan c
  if w = 0 then (s.setChan c { x with reading := false, kickRead := false }).setChState c chIdle
  else s.setChan c { x with next := w, kickRead := false }

end Sys2Proof.Machine
end

