-- ==== Sys2Proof/Machine/CoreExec.lean ====
section
/-! DEFINITION. How a Sorter core runs one word (sections 4.2, 4.3, 4.8): state, fetch, guard, traps, retirement. Taking a
trap is one shared operation here, and so is the return from a handler. -/

namespace Sys2Proof.Machine

/-- A trap of class H (Table 4-9). -/
structure Trap where
  code : Nat
  value : Nat
  detail : Nat
  deriving DecidableEq, Repr

/-- What an instruction's body does: it retires, it blocks without retiring, it takes a class H trap, it meets a class F
error. -/
inductive CRes where
  | ok (s : State)
  | block (s : State)
  | trap (t : Trap)
  /-- a precise trap that leaves a change outside the core -/
  | trapIn (s : State) (t : Trap)
  | fatal (code value : Nat)
  deriving DecidableEq, Repr

def trapIllegalInstr (w : Word) : Trap := ⟨0x01, w.toNat, 0⟩
def trapFeature (bit : Nat) : Trap := ⟨0x02, bit, 0⟩
/-- ILLEGAL_OPERAND: the position in [7:0], the offending value's bits [55:0] above (Tables 4-9 and 5-2). -/
def trapOperand (pos v : Nat) : Trap := ⟨0x03, pos + low 56 v * 256, 0⟩
def trapFetchRange (pc : Nat) : Trap := ⟨0x04, pc, 0⟩
def trapScratchRange (a : Nat) : Trap := ⟨0x05, a, 0⟩
def trapAlign (a : Nat) : Trap := ⟨0x06, a, 0⟩
def trapTranslation (a : Nat) : Trap := ⟨0x07, a, 0⟩
def trapProtection (a : Nat) : Trap := ⟨0x08, a, 0⟩
def trapTier (a detail : Nat) : Trap := ⟨0x09, a, detail⟩
def trapPoison (a : Nat) : Trap := ⟨0x0A, a, 0⟩
def trapIllegalDisp (v : Nat) : Trap := ⟨0x0B, v, 0⟩
def trapEpochRange (e : Nat) : Trap := ⟨0x0C, e, 0⟩
def trapIssueTimeout (t : Nat) : Trap := ⟨0x0D, t, 0⟩
def trapDivide : Trap := ⟨0x0E, 0, 0⟩
def trapBreak (v : Nat) : Trap := ⟨0x0F, v, 0⟩
def trapAsyncStore (a : Nat) : Trap := ⟨0x10, a, 0⟩

/-- Take a class H trap (R151 to R153, R155). `pc` is what SRT_TRAP_PC takes. In a handler the trap becomes DOUBLE: the
first trap's registers stand and the core halts with cause 4. -/
def State.takeTrap (s : State) (c : Nat) (t : Trap) (imprecise : Bool) (pc : Nat) : State :=
  let part := s.corePart c
  if s.rdb F.SRT_STATUS_IN_TRAP c then
    let s := s.setCore c { s.core c with doubleValue := t.code }
    (s.haltCore c 4).irq part 2
  else
    let s := s.wr F.SRT_TRAP_CAUSE_CAUSE c t.code
    let s := (s.wrb F.SRT_TRAP_CAUSE_IMPRECISE c imprecise).wr F.SRT_TRAP_CAUSE_DETAIL c t.detail
    let s := (s.wr F.SRT_TRAP_PC_PC c pc).wr F.SRT_TRAP_VALUE_VALUE c t.value
    if s.rdb F.SRT_TRAP_VEC_EN c then
      (((s.wr F.SRT_STATUS_IN_TRAP c 1).setPc c (s.rd F.SRT_TRAP_VEC_ADDR c * 8))).setCoreState c coreRunning
    else (s.haltCore c 3).irq part 2

/-- Return from a handler (section 4.8): IN_TRAP clears and execution continues at SRT_TRAP_PC. -/
def State.trapReturn (s : State) (c : Nat) : State :=
  (s.wr F.SRT_STATUS_IN_TRAP c 0).setPc c (s.rd F.SRT_TRAP_PC_PC c)

/-- A class F trap (R152, R154): the core's trap registers take it, and the partition becomes fatal with cause 1. -/
def State.takeFatal (s : State) (c code value : Nat) : State :=
  let s := ((s.wr F.SRT_TRAP_CAUSE_CAUSE c code).wr F.SRT_TRAP_PC_PC c (s.pc c)).wr F.SRT_TRAP_VALUE_VALUE c value
  let s := s.flag F.ERR_STATUS_CORE_UE 0
  match s.corePart? c with
  | some p => s.fatal p 1 5 (code * 16 + c * 4096)
  | none => s.haltCore c 5

/-- The size of the CODE section the core runs. -/
def State.codeSize (s : State) (c : Nat) : Nat :=
  match (s.plan (s.corePart c)).plan with
  | some pl => pl.codeSize
  | none => 0

/-- PC is valid when it is a multiple of 8 and below the CODE section's SIZE (R131). -/
def State.pcValid (s : State) (c : Nat) : Bool := s.pc c % 8 == 0 && decide (s.pc c < s.codeSize c)

/-- The instruction retires: SRT_INSTRET counts it. -/
def State.retire (s : State) (c : Nat) : State := s.bump F.SRT_INSTRET_COUNT c 1

/-- A pending imprecise trap is taken at this boundary when no handler runs: ASYNC_STORE first, then a deferred
ILLEGAL_DISP (section 4.8, Edges). -/
def State.imprecise? (s : State) (c : Nat) : Option State :=
  let r := s.core c
  if s.rdb F.SRT_STATUS_IN_TRAP c then none else
  match r.async with
  | some a =>
    let s := (s.setCore c { r with async := none }).wr F.SRT_STATUS_ASYNC_PENDING c 0
    some (s.takeTrap c (trapAsyncStore a) true (s.pc c))
  | none =>
    match r.deferred with
    | t :: ts => some ((s.setCore c { r with deferred := ts }).takeTrap c (trapIllegalDisp t) true (s.pc c))
    | [] => none

/-- The device has stopped all issue: held in reset, or after a device cause (R630). -/
def State.stopped (s : State) : Bool := s.pins.held || s.err.deviceStop

/-- A RUNNING core runs word `w` as an instruction of row `k` (R129, R131, R151, R168). The body sees PC already moved
past the word. A word of another row, or a core that is not RUNNING, changes nothing (log entry 2). -/
def State.instr (s : State) (c : Nat) (w : Word) (k : Ulital.Kind) (err : CoreErr) (body : State → CRes) : State :=
  if s.stopped || s.coreState c != coreRunning || Ulital.kind? w != some k || !Ulital.reservedZero w k ||
      !(if s.isV1 c then Ulital.v1Ok w k else Ulital.urgOk w k) then s
  else
    let pc := s.pc c
    match err with
    | .code => s.takeFatal c 0x31 pc
    | .regfile f => s.takeFatal c 0x32 f.toNat
    | _ =>
      if !s.pcValid c then s.takeTrap c (trapFetchRange pc) false pc
      else
        let s1 := s.setPc c (pc + 8)
        let r := if s.p c (Ulital.gpred w) = (Ulital.gsense w == 0) then body s1 else .ok s1
        match r with
        | .trap t => s.takeTrap c t false pc
        | .trapIn s2 t => s2.takeTrap c t false pc
        | .fatal code v => s.takeFatal c code v
        | .ok s2 => match s.imprecise? c with
          | some s3 => s3
          | none => s2.retire c
        | .block s2 => match s.imprecise? c with
          | some s3 => s3
          | none => s2

end Sys2Proof.Machine
end

