-- ==== Sys2Proof/Machine/Scalar.lean ====
section
/-! DEFINITION. Scalar, branch, scratch, CSR and tensor-descriptor instructions (sections 5.3 to 5.6). -/

namespace Sys2Proof.Machine

open Ulital

/-- The ALU operations of Table 5-4; `sel` is the predicate SEL reads. -/
def aluOp (f : Nat) (a b : Word) (sel : Bool) : Word :=
  let n := b.toNat % 64
  match f with
  | 0 => a + b
  | 1 => a - b
  | 2 => a &&& b
  | 3 => a ||| b
  | 4 => a ^^^ b
  | 5 => a <<< n
  | 6 => a >>> n
  | 7 => a.sshiftRight n
  | 8 => if a.slt b then a else b
  | 9 => if a.slt b then b else a
  | 10 => if a.ult b then a else b
  | 11 => if a.ult b then b else a
  | 12 => if sel then a else b
  | 13 => BitVec.ofNat 64 (64 - Nat.log2 (2 * a.toNat + 1))
  | _ => BitVec.ofNat 64 (popcount 64 a.toNat)

/-- The relations of R175. -/
def cmpRel (f : Nat) (a b : Word) : Bool :=
  match f with
  | 0 => a == b
  | 1 => a != b
  | 2 => a.slt b
  | 3 => !a.slt b
  | 4 => a.ult b
  | _ => !a.ult b

/-- The multiply group (R174). -/
def mulOp (f : Nat) (a b : Word) : Word :=
  match f with
  | 0 => a * b
  | 1 => BitVec.ofNat 64 (a.toNat * b.toNat / 2 ^ 64)
  | _ => BitVec.ofInt 64 (a.toInt * b.toInt / 2 ^ 64)

/-- The divide group, for a divisor that is not 0 (R174): signed division rounds toward zero, and -2^63 by -1 wraps to
-2^63 with remainder 0. -/
def divOp (f : Nat) (a b : Word) : Word :=
  match f with
  | 3 => a / b
  | 4 => BitVec.ofInt 64 (Int.tdiv a.toInt b.toInt)
  | 5 => a % b
  | _ => BitVec.ofInt 64 (Int.tmod a.toInt b.toInt)

/-- ALU (R172). -/
def execAlu (core : BitVec 6) (word : Word) (err : CoreErr) (s : State) : Res :=
  let c := core.toNat
  .next (s.instr c word .alu err fun s =>
    .ok (s.setG c (rd word) (aluOp (func word) (s.g c (rs1 word)) (s.g c (rs2 word)) (s.p c (ps1 word)))))

/-- ALUI (R172). -/
def execAlui (core : BitVec 6) (word : Word) (err : CoreErr) (s : State) : Res :=
  let c := core.toNat
  .next (s.instr c word .alui err fun s =>
    .ok (s.setG c (rd word) (aluOp (func word) (s.g c (rs1 word)) (imm word) false)))

/-- MOVI (R173). -/
def execMovi (core : BitVec 6) (word : Word) (err : CoreErr) (s : State) : Res :=
  let c := core.toNat
  .next (s.instr c word .movi err fun s => .ok (s.setG c (rd word) (imm word)))

/-- MOVHI (R173). -/
def execMovhi (core : BitVec 6) (word : Word) (err : CoreErr) (s : State) : Res :=
  let c := core.toNat
  .next (s.instr c word .movhi err fun s =>
    .ok (s.setG c (rd word) (BitVec.ofNat 64 (immU word * 2 ^ 32 + (s.g c (rd word)).toNat % 2 ^ 32))))

/-- MUL, MULHU, MULH (R174). -/
def execMul (core : BitVec 6) (word : Word) (err : CoreErr) (s : State) : Res :=
  let c := core.toNat
  .next (s.instr c word .mul err fun s =>
    .ok (s.setG c (rd word) (mulOp (func word) (s.g c (rs1 word)) (s.g c (rs2 word)))))

/-- DIVU, DIV, REMU, REM (R174): a divisor of 0 takes DIVIDE. -/
def execDiv (core : BitVec 6) (word : Word) (err : CoreErr) (s : State) : Res :=
  let c := core.toNat
  .next (s.instr c word .div err fun s =>
    let b := s.g c (rs2 word)
    if b = 0 then .trap trapDivide
    else .ok (s.setG c (rd word) (divOp (func word) (s.g c (rs1 word)) b)))

/-- CMP (R175). -/
def execCmp (core : BitVec 6) (word : Word) (err : CoreErr) (s : State) : Res :=
  let c := core.toNat
  .next (s.instr c word .cmp err fun s =>
    .ok (s.setP c (pdA word) (cmpRel (func word) (s.g c (rs1 word)) (s.g c (rs2 word)))))

/-- CMPI (R175). -/
def execCmpi (core : BitVec 6) (word : Word) (err : CoreErr) (s : State) : Res :=
  let c := core.toNat
  .next (s.instr c word .cmpi err fun s =>
    .ok (s.setP c (pdI word) (cmpRel (func word) (s.g c (rs1 word)) (imm word))))

/-- p7 to p0 as a number; under v1 p4 to p7 read as zero (R176). -/
def State.predBits (s : State) (c : Nat) : Nat :=
  (List.range (if s.isV1 c then 4 else 8)).foldl (fun a i => a + b2n (s.p c i) * 2 ^ i) 0

/-- SETP: p1 to p7 from bits [7:1]; under v1 bits [7:4] are ignored (R176). -/
def State.setPreds (s : State) (c : Nat) (v : Word) : State :=
  (List.range (if s.isV1 c then 4 else 8)).foldl (fun s i => s.setP c i (v.getLsbD i)) s

/-- PRED (R176). -/
def execPred (core : BitVec 6) (word : Word) (err : CoreErr) (s : State) : Res :=
  let c := core.toNat
  .next (s.instr c word .pred err fun s =>
    let a := s.p c (ps1 word)
    let b := s.p c (ps2 word)
    .ok (match func word with
      | 0 => s.setP c (pdA word) (a && b)
      | 1 => s.setP c (pdA word) (a || b)
      | 2 => s.setP c (pdA word) (a != b)
      | 3 => s.setP c (pdA word) (a && !b)
      | 4 => s.setP c (pdA word) (!a)
      | 5 => s.setP c (pdA word) (s.g c (rs1 word) != 0)
      | 6 => s.setG c (rd word) (BitVec.ofNat 64 (s.predBits c))
      | _ => s.setPreds c (s.g c (rs1 word))))

/-- The PC of the instruction whose body runs: the wrapper has moved the 32-bit PC past it. -/
def State.ownPc (s : State) (c : Nat) : Nat := (s.pc c + 4294967288) % 4294967296

/-- A branch target: a code address plus a signed offset, modulo 2^64, kept in the 32-bit PC. -/
def branchTarget (base : Word) (off : Word) : Nat := (base + off).toNat

/-- BRA (R177). -/
def execBra (core : BitVec 6) (word : Word) (err : CoreErr) (s : State) : Res :=
  let c := core.toNat
  .next (s.instr c word .bra err fun s =>
    .ok (s.setPc c (branchTarget (BitVec.ofNat 64 (s.ownPc c)) (imm word))))

/-- CALL (R177). -/
def execCall (core : BitVec 6) (word : Word) (err : CoreErr) (s : State) : Res :=
  let c := core.toNat
  .next (s.instr c word .call err fun s =>
    let t := branchTarget (BitVec.ofNat 64 (s.ownPc c)) (imm word)
    .ok ((s.setG c (rd word) (BitVec.ofNat 64 (s.pc c))).setPc c t))

/-- JR (R177, R178). -/
def execJr (core : BitVec 6) (word : Word) (err : CoreErr) (s : State) : Res :=
  let c := core.toNat
  .next (s.instr c word .jr err fun s =>
    .ok (s.setPc c (branchTarget (s.g c (rs1 word)) (imm word))))

/-- CALLR (R177, R178): the target uses the value before the link write. -/
def execCallr (core : BitVec 6) (word : Word) (err : CoreErr) (s : State) : Res :=
  let c := core.toNat
  .next (s.instr c word .callr err fun s =>
    let t := branchTarget (s.g c (rs1 word)) (imm word)
    .ok ((s.setG c (rd word) (BitVec.ofNat 64 (s.pc c))).setPc c t))

/-- The size in bytes and the signedness of a load's FUNC (R179). -/
def loadForm (f : Nat) : Nat × Bool :=
  match f with
  | 0 => (1, false) | 1 => (2, false) | 2 => (4, false) | 3 => (8, false)
  | 4 => (1, true) | 5 => (2, true) | _ => (4, true)

/-- The size in bytes of a store's FUNC (R179). -/
def storeSize (f : Nat) : Nat := 2 ^ f

/-- The register value of loaded bytes (R179). -/
def extendLoad (bs : List Byte) (signed : Bool) : Word :=
  let v := ofLe bs
  let n := 8 * bs.length
  if signed && v.testBit (n - 1) then BitVec.ofInt 64 ((v : Int) - 2 ^ n) else BitVec.ofNat 64 v

/-- The checks of a scratch access (R134, R180): alignment, then range; a store may not reach the ticket table. -/
def scratchTrap? (v1 : Bool) (a n : Nat) (store : Bool) : Option Trap :=
  if 2 ^ 32 ≤ a then some (trapScratchRange a)
  else if a % n ≠ 0 then some (trapAlign a)
  else if scratchEnd v1 < a + n then some (trapScratchRange a)
  else if store && decide (ticketBase v1 < a + n) then some (trapScratchRange a)
  else none

/-- SLOAD (R134, R179, R180). -/
def execSload (core : BitVec 6) (word : Word) (err : CoreErr) (s : State) : Res :=
  let c := core.toNat
  .next (s.instr c word .sload err fun s =>
    let a := (s.g c (rs1 word) + imm word).toNat
    let (n, signed) := loadForm (func word)
    match scratchTrap? (s.isV1 c) a n false with
    | some t => .trap t
    | none =>
      if err = .scratch then .fatal 0x30 a
      else .ok (s.setG c (rd word) (extendLoad (s.scratchRead c a n) signed)))

/-- SSTORE (R134, R179, R180). -/
def execSstore (core : BitVec 6) (word : Word) (err : CoreErr) (s : State) : Res :=
  let c := core.toNat
  .next (s.instr c word .sstore err fun s =>
    let a := (s.g c (rs1 word) + imm word).toNat
    let n := storeSize (func word)
    match scratchTrap? (s.isV1 c) a n true with
    | some t => .trap t
    | none => .ok (s.scratchWrite c a (leBytes n (s.g c (rd word)).toNat)))

/-- Items in the core's issue queue: issued and released, not yet taken by an engine's queue. -/
def State.queuedOf (s : State) (c : Nat) : Nat :=
  (s.items.filter (fun e => e.2.origin == .plan && e.2.core == c && e.2.stage == .queued)).length

/-- Items in the core's gate list (R188). -/
def State.gatedOf (s : State) (c : Nat) : Nat :=
  (s.items.filter (fun e => e.2.origin == .plan && e.2.core == c && e.2.stage == .gated)).length

/-- SRT_ISSUE_STATUS with its QUEUED view. -/
def State.issueStatus (s : State) (c : Nat) : Word :=
  F.SRT_ISSUE_STATUS_QUEUED.put (s.reg Reg.SRT_ISSUE_STATUS c) (s.queuedOf c)

/-- The value of a core CSR (Table 4-11). -/
def State.csr (s : State) (c n : Nat) : Word :=
  if n = 0x000 then F.SRT_IDENT_CORE.put (s.reg Reg.SRT_IDENT c) c
  else if n = 0x001 then s.reg Reg.SRT_STATUS c
  else if n = 0x004 then s.reg Reg.SRT_TRAP_VEC c
  else if n = 0x005 then s.reg Reg.SRT_TRAP_CAUSE c
  else if n = 0x006 then s.reg Reg.SRT_TRAP_PC c
  else if n = 0x007 then s.reg Reg.SRT_TRAP_VALUE c
  else if n = 0x010 then s.reg Reg.SRT_CYCLE c
  else if n = 0x011 then s.reg Reg.SRT_INSTRET c
  else if n = 0x012 then BitVec.ofNat 64 s.time
  else if n = 0x018 then s.issueStatus c
  else if n < 0x024 then s.reg Reg.SYS_FEAT_ACCEPT (n - 0x020)
  else BitVec.ofNat 64 (s.plan (s.corePart c)).epoch

/-- CSRR (R160, R182). -/
def execCsrr (core : BitVec 6) (word : Word) (err : CoreErr) (s : State) : Res :=
  let c := core.toNat
  .next (s.instr c word .csrr err fun s => .ok (s.setG c (rd word) (s.csr c (field word 0 12))))

/-- CSRW (R158, R182): only SRT_TRAP_VEC and SRT_TRAP_PC take a write; another CSR takes ILLEGAL_OPERAND at position 9. -/
def execCsrw (core : BitVec 6) (word : Word) (err : CoreErr) (s : State) : Res :=
  let c := core.toNat
  .next (s.instr c word .csrw err fun s =>
    let v := (s.g c (rs1 word)).toNat
    let n := field word 0 12
    if n = 0x004 then
      .ok ((s.wr F.SRT_TRAP_VEC_EN c (bitsOf v 0 1)).wr F.SRT_TRAP_VEC_ADDR c (bitsOf v 3 29))
    else if n = 0x006 then .ok (s.wr F.SRT_TRAP_PC_PC c v)
    else .trap (trapOperand 9 n))

/-- TLD (R183). -/
def execTld (core : BitVec 6) (word : Word) (err : CoreErr) (s : State) : Res :=
  let c := core.toNat
  .next (s.instr c word .tld err fun s =>
    let a := (s.g c (rg word) + imm20 word).toNat
    match scratchTrap? (s.isV1 c) a 64 false with
    | some t => .trap t
    | none =>
      if err = .scratch then .fatal 0x30 a
      else .ok (s.setT c (td word) (BitVec.ofNat 512 (ofLe (s.scratchRead c a 64)))))

/-- TST (R183). -/
def execTst (core : BitVec 6) (word : Word) (err : CoreErr) (s : State) : Res :=
  let c := core.toNat
  .next (s.instr c word .tst err fun s =>
    let a := (s.g c (rg word) + imm20 word).toNat
    match scratchTrap? (s.isV1 c) a 64 true with
    | some t => .trap t
    | none => .ok (s.scratchWrite c a (leBytes 64 (s.t c (ts word)).toNat)))

/-- TMOV (R183). -/
def execTmov (core : BitVec 6) (word : Word) (err : CoreErr) (s : State) : Res :=
  let c := core.toNat
  .next (s.instr c word .tmov err fun s => .ok (s.setT c (td word) (s.t c (ts word))))

/-- TZERO (R183). -/
def execTzero (core : BitVec 6) (word : Word) (err : CoreErr) (s : State) : Res :=
  let c := core.toNat
  .next (s.instr c word .tzero err fun s => .ok (s.setT c (td word) 0))

/-- A beat with bits `pos` to `pos + n - 1` replaced by the low `n` bits of `v` (R183, TSET). -/
def beatPut (b : Beat) (pos n : Nat) (v : Nat) : Beat :=
  (b &&& ~~~ (BitVec.ofNat 512 (2 ^ n - 1) <<< pos)) ||| (BitVec.ofNat 512 (v % 2 ^ n) <<< pos)

/-- Bits `pos` to `pos + n - 1` of a beat (R183, TGET). -/
def beatGet (b : Beat) (pos n : Nat) : Nat := b.toNat / 2 ^ pos % 2 ^ n

/-- TSET (R183, R184). -/
def execTset (core : BitVec 6) (word : Word) (err : CoreErr) (s : State) : Res :=
  let c := core.toNat
  .next (s.instr c word .tset err fun s =>
    .ok (s.setT c (td word) (beatPut (s.t c (td word)) (pos word) (wm1 word + 1) (s.g c (rg word)).toNat)))

/-- TGET (R183, R184). -/
def execTget (core : BitVec 6) (word : Word) (err : CoreErr) (s : State) : Res :=
  let c := core.toNat
  .next (s.instr c word .tget err fun s =>
    .ok (s.setG c (rg word) (BitVec.ofNat 64 (beatGet (s.t c (ts word)) (pos word) (wm1 word + 1)))))

/-- HALT (R124, R212). -/
def execHalt (core : BitVec 6) (word : Word) (err : CoreErr) (s : State) : Res :=
  let c := core.toNat
  .next (s.instr c word .halt err fun s => .ok ((s.wr F.SRT_EXIT_CODE c (immU word)).haltCore c 1))

/-- BRK (R212). -/
def execBrk (core : BitVec 6) (word : Word) (err : CoreErr) (s : State) : Res :=
  let c := core.toNat
  .next (s.instr c word .brk err fun _ => .trap (trapBreak (immU word)))

/-- TRET (R212): outside a handler it takes ILLEGAL_INSTR. -/
def execTret (core : BitVec 6) (word : Word) (err : CoreErr) (s : State) : Res :=
  let c := core.toNat
  .next (s.instr c word .tret err fun s =>
    if s.rdb F.SRT_STATUS_IN_TRAP c then .ok (s.trapReturn c) else .trap (trapIllegalInstr word))

end Sys2Proof.Machine
end

