-- ==== Sys2Proof/Machine/Issue.lean ====
section
/-! DEFINITION. Engine issue (sections 5.7 and 5.8): feature gates, operands, descriptors, gates and tickets. -/

namespace Sys2Proof.Machine

open Ulital

/-- A tile word is well formed for partition `p` (R186); `usesPeer`: the instruction uses PEER. -/
def State.tileWord (s : State) (p : Nat) (v : Nat) (usesPeer : Bool) : Option Trap :=
  let peer := bitsOf v 56 6
  if bitsOf v 62 2 ≠ 0 ∨ bitsOf v 27 5 ≠ p ∨ (usesPeer ∧ !s.peerOf p peer) ∨ (!usesPeer ∧ peer ≠ 0) then
    some (trapOperand 2 v)
  else none

/-- A lattice word (R199): as a tile word with PEER, its bits [55:48] zero. -/
def State.latticeWord (s : State) (p v : Nat) : Option Trap :=
  if bitsOf v 48 8 ≠ 0 then some (trapOperand 2 v) else s.tileWord p v true

/-- The object index of a handle. -/
def objOf (v : Nat) : Nat := bitsOf v 0 27

/-- The tile index of a tile word. -/
def tileOf (v : Nat) : Nat := bitsOf v 32 24

/-- A descriptor fails Table 6-9 at an operand position. -/
def State.descTrap (s : State) (p pos : Nat) (d : Beat) (u : Desc.Use) : Option Trap :=
  (Desc.check d u (fun i => s.peerOf p i)).map (trapOperand pos)

/-- A connection operand of SEND or RECALL (R502): held by the partition, OPEN, and version 2 for a RECALL. -/
def State.connTrap (s : State) (p rb : Nat) (v2 : Bool) : Option Trap :=
  let n := bitsOf rb 0 16
  if bitsOf rb 16 16 ≠ 0 ∨ !s.connHeld p n ∨ s.connState n ≠ connOpen ∨ (v2 ∧ s.connVer n ≠ 2) then
    some (trapOperand 3 rb)
  else none

/-- The first trap of a list of checks. -/
def firstTrap (l : List (Option Trap)) : Option Trap := l.findSome? id

/-- The lowest of the feature bits that are not accepted. -/
def State.failedGate (s : State) (bits : List Nat) : Option Nat := leastOf (bits.filter (fun b => !s.feature b))

/-- The first gated form of a v1 instruction's descriptors (R239). -/
def gatedForm (ds : List (Nat × Beat)) : Option Trap :=
  ds.findSome? (fun d => ((Desc.gates d.2).head?).map (fun g => trapOperand d.1 g.2))

/-- Room for one more issue (R144, R188, R189). -/
def State.issueRoom (s : State) (c : Nat) (gated : Bool) : Bool :=
  decide (s.queuedOf c < 32) && s.slotState c (s.nextTicket c) != slotPending && (!gated || decide (s.gatedOf c < 16))

/-- An item of core `c` enters its queue: it takes the ticket, and its slot becomes PENDING (R142, R185 to R189). A refused
disposition request traps and takes no ticket (R146). -/
def State.issueNow (s : State) (c : Nat) (it : Item) : CRes :=
  if it.work.asks && s.askSlice it == .refuse then
    .trapIn (s.flag F.PART_LIFE_STATUS_ILLEGAL_DISP it.part) (trapIllegalDisp (handleOf it.part it.obj + it.tile * 2 ^ 32))
  else
    let t := s.nextTicket c
    let s := (s.setG c it.rd (BitVec.ofNat 64 t)).writeSlot c t slotPending it.work.engine 0 0 0
    let s := s.wr F.SRT_ISSUE_STATUS_NEXT_TICKET c (t + 1)
    let (urg, s) := s.classOf it.part it.urg
    let held := match it.gate with
      | some (n, th) => decide ((s.soVal n).toNat < th)
      | none => false
    let id := s.nextItem
    let s := s.addItem { it with ticket := t, urg, stage := if held then .gated else .queued }
    .ok (if held then s else s.front id)

/-- Issue or stall (R144, R189). A stalled core keeps its PC at the instruction. -/
def State.issueOrStall (s : State) (c : Nat) (it : Item) : CRes :=
  if s.issueRoom c it.gate.isSome then s.issueNow c it
  else
    let s := (s.setCore c { s.core c with stalled := some { it with since := s.time } }).setPc c (s.ownPc c)
    .block (s.setCoreState c coreStalled)

/-- The traps of an engine instruction before it issues: gates, operands at positions 2 to 6, CSO and gate object (R168, R185
to R190, R239). `bits`: the feature bits its own forms need; `ds`: its descriptors with their positions. -/
def State.issueTrap? (s : State) (c : Nat) (w : Word) (bits : List Nat) (ds : List (Nat × Beat)) (bad : Option Trap) :
    Option Trap :=
  let p := s.corePart c
  let form : Option Trap := if s.isV1 c then gatedForm ds
    else (s.failedGate (bits ++ (if gate w then [11] else []) ++ ds.flatMap (fun d => (Desc.gates d.2).map (·.1)))).map
      trapFeature
  let gateObj := bitsOf (s.g c (rc w)).toNat 0 12
  firstTrap [form, bad,
    if csoEn w && !s.soInRange p (cso w) then some (trapOperand 7 (cso w)) else none,
    if gate w && !s.soInRange p gateObj then some (trapOperand 8 gateObj) else none]

/-- The item an engine instruction issues: the core, RD, the class, the completion object and the gate its word names (R187
to R189; a v1 image has fixed classes). -/
def State.issueItem (s : State) (c : Nat) (w : Word) (it : Item) : Item :=
  let urg := if !s.isV1 c then urg w else match it.work with
    | .deliver _ => 1
    | .fetch _ => 1
    | .notify => 1
    | _ => 2
  let g := (s.g c (rc w)).toNat
  { it with
    core := c, rd := Ulital.rd w, urg, cso := if csoEn w then some (cso w) else none
    gate := if gate w then some (bitsOf g 0 12, bitsOf g 12 52) else none }

/-- The common part of an engine instruction: its traps, its wait for the store buffer, its issue. -/
def State.issue (s : State) (c : Nat) (w : Word) (bits : List Nat) (ds : List (Nat × Beat)) (bad : Option Trap)
    (it : Item) : CRes :=
  match s.issueTrap? c w bits ds bad with
  | some t => .trap t
  | none =>
    if !(s.core c).stores.isEmpty then .block (s.setPc c (s.ownPc c))
    else s.issueOrStall c (s.issueItem c w it)

/-- An item of the core's partition whose deadline is TIME at issue (R187). -/
def State.itemOf (s : State) (c : Nat) (work : Work) : Item :=
  { Item.blank (s.corePart c) work with deadline := s.time }

/-- The deadline of a DELIVER or FETCH (R187). -/
def State.deadlineOf (s : State) (c : Nat) (w : Word) : Nat :=
  if s.isV1 c then s.time + 1000000 else (s.g c (rb w)).toNat

/-- Run an engine instruction. -/
def State.engine (s : State) (core : BitVec 6) (w : Word) (k : Kind) (err : CoreErr) (body : State → CRes) : Res :=
  .next (s.instr core.toNat w k err body).pumpAll

/-- MOVE INTAKE (R192). -/
def execMoveIntake (core : BitVec 6) (word : Word) (err : CoreErr) (s : State) : Res :=
  let c := core.toNat
  s.engine core word .moveIntake err fun s =>
    let p := s.corePart c
    let a := (s.g c (ra word)).toNat
    let b := (s.g c (rb word)).toNat
    let nodata := (mode word).testBit 3
    let d := s.t c (ta word)
    let ds := if nodata then [] else [(5, d)]
    let bad := firstTrap [s.tileWord p a true,
      if nodata then none else s.descTrap p 5 d { spaces := [1], peer := some (bitsOf a 56 6), identity := false, dest := false }]
    s.issue c word [] ds bad { s.itemOf c (.intake (bitsOf b 0 32) (bitsOf b 32 32) ((mode word).testBit 2) nodata) with
      obj := objOf a, tile := tileOf a, peer := bitsOf a 56 6, ta := d }

/-- The first EXT field of `b` whose extent is not `want k`, as a bit number (Table 6-9 row 17). -/
def extDiffers (b : Beat) (want : Nat → Nat) : Option Nat :=
  ((List.range 5).find? (fun k => Desc.ext b k != want k)).map (fun k => 96 + 24 * k)

/-- The view dimension that stored dimension `k` of a descriptor appears as. -/
def viewOf (d : Beat) (k : Nat) : Nat := ((List.range 5).find? (fun v => Desc.viewDim d v == k)).getD k

/-- Row 17 of Table 6-9 for MOVE COPY. -/
def copyShape (a b : Beat) : Option Trap :=
  match extDiffers b (fun k => Desc.viewExt a (viewOf b k)) with
  | some v => some (trapOperand 6 v)
  | none => if pairOk (Desc.format a) (Desc.format b) then none else some (trapOperand 6 64)

/-- MOVE COPY (R192, Table 6-8). -/
def execMoveCopy (core : BitVec 6) (word : Word) (err : CoreErr) (s : State) : Res :=
  let c := core.toNat
  s.engine core word .moveCopy err fun s =>
    let p := s.corePart c
    let a := s.t c (ta word)
    let b := s.t c (tb word)
    let rest := [0, 1, 2].filter (fun x => x == 0 || x != Desc.space a)
    let bad := firstTrap [
      s.descTrap p 5 a { spaces := [0, 1, 2], peer := none, identity := false, dest := false },
      s.descTrap p 6 b { spaces := rest, peer := none, identity := false, dest := true }, copyShape a b]
    s.issue c word [] [(5, a), (6, b)] bad { s.itemOf c .copy with
      peer := if Desc.space a = 1 then Desc.peer a else Desc.peer b, ta := a, tb := b }

/-- MOVE SEND (R193, R502). -/
def execMoveSend (core : BitVec 6) (word : Word) (err : CoreErr) (s : State) : Res :=
  let c := core.toNat
  s.engine core word .moveSend err fun s =>
    let p := s.corePart c
    let a := (s.g c (ra word)).toNat
    let b := (s.g c (rb word)).toNat
    s.issue c word [9] [] (firstTrap [s.tileWord p a false, s.connTrap p b false])
      { s.itemOf c (.send (bitsOf b 0 16) (bitsOf b 32 32)) with obj := objOf a, tile := tileOf a }

/-- EPS of a SWARD request: positive and finite; 0 otherwise (Table 2-13). -/
def epsOk (mode eps : Nat) : Bool :=
  if mode = 3 then !eps.testBit 31 && eps != 0 && bitsOf eps 23 8 != 0xFF else eps == 0

/-- PRESS (R194). -/
def execPress (core : BitVec 6) (word : Word) (err : CoreErr) (s : State) : Res :=
  let c := core.toNat
  s.engine core word .press err fun s =>
    let p := s.corePart c
    let a := (s.g c (ra word)).toNat
    let b := (s.g c (rb word)).toNat
    let m := mode word
    let range := if m ≠ 0 ∧ (bitsOf b 48 16 ≠ 0 ∨ bitsOf b 32 16 < 0x100 ∨ !epsOk m (bitsOf b 0 32)) then
      some (trapOperand 3 b) else none
    s.issue c word (if m = 3 then [1] else if m = 2 then [2] else []) []
      (firstTrap [s.tileWord p a false, range])
      { s.itemOf c (.press m (bitsOf b 0 32) (bitsOf b 32 16)) with obj := objOf a, tile := tileOf a }

/-- An engine instruction whose only operand is a tile word. -/
def State.tileIssue (s : State) (core : BitVec 6) (word : Word) (k : Kind) (err : CoreErr) (work : Work) : Res :=
  let c := core.toNat
  s.engine core word k err fun s =>
    let a := (s.g c (ra word)).toNat
    s.issue c word [] [] (s.tileWord (s.corePart c) a false) { s.itemOf c work with obj := objOf a, tile := tileOf a }

/-- UNPRESS (R195). -/
def execUnpress (core : BitVec 6) (word : Word) (err : CoreErr) (s : State) : Res :=
  s.tileIssue core word .unpress err .unpress

/-- SPILL (R196). -/
def execSpill (core : BitVec 6) (word : Word) (err : CoreErr) (s : State) : Res :=
  s.tileIssue core word .spill err (.spill ((mode word).testBit 0))

/-- FETCH forms 0 and 1 (R196). -/
def execFetch (core : BitVec 6) (word : Word) (err : CoreErr) (s : State) : Res :=
  let c := core.toNat
  s.engine core word .fetch err fun s =>
    let a := (s.g c (ra word)).toNat
    s.issue c word [] [] (s.tileWord (s.corePart c) a false) { s.itemOf c (.fetch (mode word)) with
      obj := objOf a, tile := tileOf a, deadline := if s.isV1 c then s.time else (s.g c (rb word)).toNat }

/-- FETCH RECALL (R197, R502). -/
def execFetchRecall (core : BitVec 6) (word : Word) (err : CoreErr) (s : State) : Res :=
  let c := core.toNat
  s.engine core word .fetchRecall err fun s =>
    let p := s.corePart c
    let a := (s.g c (ra word)).toNat
    let b := (s.g c (rb word)).toNat
    s.issue c word [9] [] (firstTrap [s.tileWord p a false, s.connTrap p b true])
      { s.itemOf c (.recallWork (bitsOf b 0 16) (bitsOf b 32 32)) with obj := objOf a, tile := tileOf a }

/-- What R263 asks of one descriptor of a TEDD OP beside Table 6-9; `want`: the extents its shape asks for. -/
def teddDesc (op pos : Nat) (d : Beat) (want : Nat → Nat) : Option Trap :=
  let v : Option Nat :=
    if Desc.layout d ≠ 0 then some 69
    else if op ≠ 1 ∧ (Desc.mx d ∨ isPlane (Desc.format d) ∨ Desc.format d = 10) then some 64
    else match extDiffers d want with
      | some k => some k
      | none => if Ted.reduces op ∧ 65536 < Desc.ext d 0 * fmtEs (Desc.format d) then some 96 else none
  v.map (trapOperand pos)

/-- TEDD OP (R201, R263). -/
def execTeddOp (core : BitVec 6) (word : Word) (err : CoreErr) (s : State) : Res :=
  let c := core.toNat
  s.engine core word .teddOp err fun s =>
    let p := s.corePart c
    let v := (s.g c (ra word)).toNat
    let op := bitsOf v 0 16
    let two := Ted.twoInputs op
    let top := if s.isV1 c then 7 else 15
    let a := s.t c (ta word)
    let a2 := s.t c (ta word + 1)
    let b := s.t c (tb word)
    let u (dest : Bool) : Desc.Use := { spaces := [0], peer := none, identity := true, dest }
    let out (k : Nat) := if Ted.rowOut op ∧ k = 0 then 1 else Desc.ext a k
    let second := two && ta word != top
    let bad := firstTrap [
      if !Ted.known op ∨ bitsOf v 16 16 ≠ 0 then some (trapOperand 2 v) else none,
      if two ∧ ta word = top then some (trapOperand 5 (ta word)) else none,
      s.descTrap p 5 a (u false), teddDesc op 5 a (Desc.ext a),
      if second then s.descTrap p 5 a2 (u false) else none,
      if second then teddDesc op 5 a2 (Desc.ext a) else none,
      s.descTrap p 6 b (u true), teddDesc op 6 b out,
      if op = 1 ∧ !pairOk (Desc.format a) (Desc.format b) then some (trapOperand 6 64) else none]
    s.issue c word (if Ted.reduces op then [8] else [])
      ((5, a) :: (if second then [(5, a2)] else []) ++ [(6, b)]) bad
      { s.itemOf c (.teddOp op (bitsOf v 32 32)) with ta := a, ta2 := a2, tb := b }

/-- TEDD REGROW (R201). -/
def execTeddRegrow (core : BitVec 6) (word : Word) (err : CoreErr) (s : State) : Res :=
  s.tileIssue core word .teddRegrow err .regrow

/-- LAYOUT (R202, R231). -/
def execLayout (core : BitVec 6) (word : Word) (err : CoreErr) (s : State) : Res :=
  let c := core.toNat
  s.engine core word .layout err fun s =>
    let p := s.corePart c
    let v := (s.g c (ra word)).toNat
    let perm := bitsOf v 0 15
    let a := s.t c (ta word)
    let b := s.t c (tb word)
    let u (dest : Bool) : Desc.Use := { spaces := [0], peer := none, identity := true, dest }
    let shape : Option Trap := match extDiffers b (fun k => Desc.ext a (Desc.permAt perm k)) with
      | some k => some (trapOperand 6 k)
      | none => if pairOk (Desc.format a) (Desc.format b) then none else some (trapOperand 6 64)
    let bad := firstTrap [
      if 2 ^ 15 ≤ v then some (trapOperand 2 v) else none,
      if !Desc.permOk perm (Desc.rank a) ∨ (Desc.mx a ∧ Desc.mx b ∧ Desc.permAt perm 0 ≠ 0) ∨
          (s.isV1 c ∧ Desc.moves4 perm) then some (trapOperand 2 perm) else none,
      s.descTrap p 5 a (u false), s.descTrap p 6 b (u true), shape]
    s.issue c word (if Desc.moves4 perm then [7] else []) [(5, a), (6, b)] bad
      { s.itemOf c (.layout perm) with ta := a, tb := b }

/-- DELIVER of one tile (R198). -/
def execDeliver (core : BitVec 6) (word : Word) (err : CoreErr) (s : State) : Res :=
  let c := core.toNat
  s.engine core word .deliver err fun s =>
    let p := s.corePart c
    let a := (s.g c (ra word)).toNat
    let d := s.t c (ta word)
    let rb' := (mode word).testBit 0
    let bad := firstTrap [s.tileWord p a true,
      s.descTrap p 5 d { spaces := [1], peer := some (bitsOf a 56 6), identity := false, dest := true }]
    s.issue c word (if rb' then [4] else []) [(5, d)] bad { s.itemOf c (.deliver rb') with
      obj := objOf a, tile := tileOf a, peer := bitsOf a 56 6, deadline := s.deadlineOf c word, ta := d }

/-- The lattice form's rules for its destination (R218). -/
def latticeDest (d : Beat) : Option Nat :=
  if isPlane (Desc.format d) then some 64
  else if Desc.layout d ≠ 0 then some 69
  else if Desc.mx d then some 74
  else if Desc.perm d ≠ 0x4688 then some 392
  else none

/-- DELIVER of the tiles of a lattice step (R199, R218). -/
def execDeliverLattice (core : BitVec 6) (word : Word) (err : CoreErr) (s : State) : Res :=
  let c := core.toNat
  s.engine core word .deliverLattice err fun s =>
    let p := s.corePart c
    let a := (s.g c (ra word)).toNat
    let d := s.t c (ta word)
    let rb' := (mode word).testBit 0
    let bad := firstTrap [s.latticeWord p a,
      s.descTrap p 5 d { spaces := [1], peer := some (bitsOf a 56 6), identity := false, dest := true },
      (latticeDest d).map (trapOperand 5)]
    s.issue c word (3 :: (if rb' then [4] else [])) [(5, d)] bad { s.itemOf c (.lattice (bitsOf a 32 16) rb') with
      obj := objOf a, peer := bitsOf a 56 6, deadline := s.deadlineOf c word, ta := d }

/-- The first failed check of a notice image, as the lowest bit of its field (R200; the value is the model's choice). -/
def State.noticeBad (s : State) (p : Nat) (v1 : Bool) (d : Beat) : Option Nat :=
  let n := Notice.ofImage d
  let f (lo k : Nat) := d.toNat / 2 ^ lo % 2 ^ k
  if n.kind = 0 ∨ 3 < n.kind ∨ (v1 ∧ n.kind = 2) then some 16
  else if f 25 7 ≠ 0 then some 25
  else if f 289 31 ≠ 0 then some 289
  else if f 332 52 ≠ 0 then some 332
  else if f 480 32 ≠ 0 then some 480
  else if !s.soInRange p n.doneSo then some 320
  else if n.kind = 1 ∧ n.handle / 2 ^ 27 ≠ p then some 32
  else none

/-- NOTIFY (R200). -/
def execNotify (core : BitVec 6) (word : Word) (err : CoreErr) (s : State) : Res :=
  let c := core.toNat
  s.engine core word .notify err fun s =>
    let p := s.corePart c
    let a := (s.g c (ra word)).toNat
    let d := s.t c (ta word)
    let bad := firstTrap [
      if 64 ≤ a ∨ !s.peerOf p a then some (trapOperand 2 a) else none,
      (s.noticeBad p (s.isV1 c) d).map (trapOperand 5)]
    s.issue c word (if (Notice.ofImage d).kind = 2 then [3] else []) [] bad { s.itemOf c .notify with peer := a, ta := d }

/-- TILE DROP (R203). -/
def execTileDrop (core : BitVec 6) (word : Word) (err : CoreErr) (s : State) : Res :=
  s.tileIssue core word .tileDrop err .drop

/-- TILE RELABEL (R203). -/
def execTileRelabel (core : BitVec 6) (word : Word) (err : CoreErr) (s : State) : Res :=
  s.tileIssue core word .tileRelabel err (.relabel (if mode word = 5 then .regrow else .ret))

end Sys2Proof.Machine
end

