-- ==== Sys2Proof/Machine/Rules.lean ====
section
/-! DEFINITION. Rule-table sets: their headers and entries, and the checks a plan load and RSTAGE make of them (R70, R79 to
R84, R87, R204, R247, R270). -/

namespace Sys2Proof.Machine
namespace Rules

/-- Why a set is refused; the numbers are those of Table 5-14. -/
def errFormat : Nat := 1
def errIndex : Nat := 2
def errTransition : Nat := 3
def errGeneration : Nat := 4
def errSize : Nat := 5

/-- A refusal: its cause, the entry counted across its section (0xFFFF_FFFF: a header, no entry), and the section: 0 the
rule tables, 1 the lattice table, 2 the object table. -/
structure Bad where
  err : Nat
  entry : Nat
  place : Nat
  deriving DecidableEq, Repr

/-- No entry is at fault. -/
def noEntry : Nat := 0xFFFFFFFF

/-- A table with its header checked: its kind, its GENERATION, the number of entries before it in its section, and the
words of its entries. -/
structure Raw where
  kind : Nat
  gen : Nat
  first : Nat
  words : List (List Nat)
  deriving DecidableEq, Repr

/-- ENTRY_SIZE of a kind (Table 2-11, R268). -/
def entrySize (kind : Nat) : Nat := if kind = 5 then 32 else 16

/-- The most entries of a kind. -/
def entryMax (kind : Nat) : Nat :=
  match kind with
  | 1 => 2048
  | 4 => 64
  | 5 => 4096
  | _ => 256

/-- The table at the front of a byte string, its header checked (R79); `none`: a bad header or CRC. -/
def table (b : List Byte) (first : Nat) : Option (Raw × Nat) :=
  let kind := fieldAt b 4 2
  let n := fieldAt b 8 4
  let len := entrySize kind * n
  if b.length < 32 ∨ fieldAt b 0 4 ≠ 0x42415452 ∨ kind = 0 ∨ 5 < kind ∨ fieldAt b 6 2 ≠ entrySize kind ∨
      n = 0 ∨ entryMax kind < n ∨ !allZero (bytesAt b 16 12) ∨ b.length < 32 + len then none
  else
    let body := (b.drop 32).take len
    if (crc32c (b.take 28 ++ body)).toNat ≠ fieldAt b 28 4 then none
    else
      let words := (List.range n).map (fun i =>
        (List.range (entrySize kind / 8)).map (fun k => fieldAt body (i * entrySize kind + 8 * k) 8))
      some (⟨kind, fieldAt b 12 4, first, words⟩, 32 + len)

/-- The tables of a byte string, back to back. -/
def tables : Nat → List Byte → Nat → Option (List Raw)
  | 0, _, _ => none
  | f + 1, b, first =>
    if b.isEmpty then some []
    else match table b first with
      | none => none
      | some (t, len) => (tables f (b.drop len) (first + t.words.length)).map (t :: ·)

/-- The one table of a kind. -/
def ofKind (ts : List Raw) (k : Nat) : Option Raw := ts.find? (fun t => t.kind == k)

def sieveOf (w : List Nat) : SieveEntry :=
  let a := w.getD 0 0
  let b := w.getD 1 0
  { cls := bitsOf a 0 16, layerLo := bitsOf a 16 16, layerHi := bitsOf a 32 16, levelMask := bitsOf a 48 5
    replayMatch := bitsOf a 53 2, disp := Disp.ofCode (bitsOf b 0 3), compressible := bitOf b 3, regrowOk := bitOf b 4
    returnOk := bitOf b 5, latticeDisp := bitOf b 6, uses := bitsOf b 8 8, balerRule := bitsOf b 16 8
    placerRule := bitsOf b 24 8, recipe := bitsOf b 32 16, urgency := bitsOf b 48 2 }

/-- Reserved bits and ranges of a Sieve entry (Table 2-12). -/
def sieveOk (w : List Nat) : Bool :=
  let e := sieveOf w
  bitsOf (w.getD 0 0) 55 9 == 0 && !bitOf (w.getD 1 0) 7 && bitsOf (w.getD 1 0) 50 14 == 0 && e.replayMatch != 3 &&
    (e.uses != 0 || e.disp == .drop)

/-- A Sieve entry that matches every tile (R84). -/
def matchesAll (e : SieveEntry) : Bool :=
  e.cls == 0xFFFF && e.layerLo == 0 && e.layerHi == 0xFFFF && e.levelMask == 0x1F && e.replayMatch == 0

def balerOf (w : List Nat) : BalerEntry :=
  let a := w.getD 0 0
  { mode := bitsOf a 0 2, minRatio := bitsOf a 8 16, eps := BitVec.ofNat 32 (a / 2 ^ 32)
    params := BitVec.ofNat 64 (w.getD 1 0) }

/-- EPS is an FP32 number above 0 and finite. -/
def epsPositive (e : Nat) : Bool := decide (0 < e) && decide (e < 0x7F800000)

/-- A Baler entry keeps Tables 2-13 and 7-2 and needs no feature that is not accepted (R247). -/
def balerOk (feature : Nat → Bool) (w : List Nat) : Bool :=
  let a := w.getD 0 0
  let m := w.getD 1 0
  let e := balerOf w
  let par := Bale.parOf e.mode m e.eps.toNat
  bitsOf a 2 6 == 0 && bitsOf a 24 8 == 0 && decide (0x100 ≤ e.minRatio) &&
  (if e.mode = 3 then epsPositive e.eps.toNat else e.eps == 0) &&
  (match e.mode with
    | 0 => m == 0
    | k => !bitOf m 7 && bitsOf m 34 30 == 0 && decide (1 ≤ par.format) && decide (par.format ≤ 15) &&
        (k != 3 || decide (par.format ≤ 4)) && (k != 2 || par.predictor == 0) && (k == 3 || decide (par.predictor ≤ 2)) &&
        (if par.predictor = 2 ∨ par.predictor = 3 then decide (1 ≤ par.rowElems) else par.rowElems == 0) &&
        (k == 2 || par.granule == 0)) &&
  (e.mode != 3 || feature 1) && (e.mode != 2 || feature 2)

def placerOf (w : List Nat) : PlacerEntry :=
  let a := w.getD 0 0
  { policy := bitsOf a 0 2, fixedDie := bitsOf a 2 2, ovfDown := bitOf a 4, ovfReturn := bitOf a 5 }

def placerOk (w : List Nat) : Bool :=
  bitsOf (w.getD 0 0) 6 58 == 0 && w.getD 1 0 == 0 && bitsOf (w.getD 0 0) 0 2 != 3

def latOf (w : List Nat) : LatEntry :=
  let a := w.getD 0 0
  { lattice := bitsOf a 0 4, level := bitsOf a 4 3, forward := bitOf a 7, disp := Disp.ofCode (bitsOf a 8 3)
    stride := bitsOf a 32 32, stepNs := bitsOf (w.getD 1 0) 0 32 }

def latOk (w : List Nat) : Bool :=
  let e := latOf w
  bitsOf (w.getD 0 0) 11 21 == 0 && bitsOf (w.getD 1 0) 32 32 == 0 && decide (1 ≤ e.level) && decide (e.level ≤ 4) &&
    decide (1 ≤ e.stride) && decide (e.stride ≤ 65536)

/-- The STRIDE of a level of a lattice. -/
def strideOf (l : List LatEntry) (id level : Nat) : Option Nat :=
  (l.find? (fun e => e.lattice == id && e.level == level)).map (·.stride)

/-- A level stands on the one below it, whose stride divides its own (R70; levels 1 to n without a gap, log entry 21). -/
def latFits (l : List LatEntry) (e : LatEntry) : Bool :=
  e.disp.stored && (e.level == 1 || (match strideOf l e.lattice (e.level - 1) with
    | some k => k != 0 && e.stride % k == 0
    | none => false))

/-- Two entries name one level of one lattice (R84): the later one. -/
def latTwice : Nat → List LatEntry → Option Nat
  | _, [] => none
  | i, e :: t => match t.findIdx? (fun x => x.lattice == e.lattice && x.level == e.level) with
    | some j => some (i + 1 + j)
    | none => latTwice (i + 1) t

/-- A format a recipe may name for an operation (R263). -/
def recipeFmt (op f : Nat) : Bool := decide (1 ≤ f) && decide (f ≤ 15) && !isPlane f && (op == 1 || f != 10)

/-- The image size of a dense tensor of `n` elements (R217). -/
def denseSize (f n : Nat) : Nat := ceilDiv (n * fmtEs f) 4096 * 4096

/-- What is wrong with a recipe (R270): its cause. `size` gives an object's tile size, `none` for an absent object. -/
def recipeBad (feature : Nat → Bool) (size : Nat → Option Nat) (w : List Nat) : Option Nat :=
  let a := w.getD 0 0
  let b := w.getD 1 0
  let c := w.getD 2 0
  let d := w.getD 3 0
  let op := bitsOf a 0 16
  let two := bitOf b 27
  let row := bitsOf d 16 24
  let n := row * bitsOf d 40 24
  let fits (obj f : Nat) : Option Nat := match size obj with
    | none => some errIndex
    | some k => if denseSize f n = k then none else some errFormat
  if bitsOf a 16 16 ≠ 0 ∨ bitsOf b 28 4 ≠ 0 ∨ bitsOf b 56 8 ≠ 0 ∨ bitsOf c 27 5 ≠ 0 ∨ bitsOf c 56 8 ≠ 0 ∨ bitOf d 15 then
    some errFormat
  else if !Ted.known op || two != Ted.twoInputs op then some errFormat
  else if !two && (c != 0 || bitsOf d 5 5 != 0) then some errFormat
  else if !recipeFmt op (bitsOf d 0 5) || (two && !recipeFmt op (bitsOf d 5 5)) || !recipeFmt op (bitsOf d 10 5) ||
      row == 0 || bitsOf d 40 24 == 0 then some errFormat
  else if Ted.reduces op && (!feature 8 || decide (65536 < row * fmtEs (bitsOf d 0 5))) then some errFormat
  else match fits (bitsOf b 0 27) (bitsOf d 0 5) with
    | some e => some e
    | none => if two then fits (bitsOf c 0 27) (bitsOf d 5 5) else none

/-- The Sieve's disposition asks for a home or a later move that the entry's own flags forbid (Table 2-6, log entry 22). -/
def sieveMoves (e : SieveEntry) : Bool :=
  (e.disp != .regrow || e.regrowOk) && (e.disp != .ret || e.returnOk)

/-- The first entry of a table that fails a check. -/
def firstBad (t : Raw) (err place : Nat) (ok : List Nat → Bool) : Option Bad :=
  (t.words.findIdx? (fun w => !ok w)).map (fun i => ⟨err, t.first + i, place⟩)

/-- What a set is checked against. -/
structure Ctx where
  feature : Nat → Bool
  /-- object indices with the lattice each names, in table order -/
  objects : List (Nat × Option Nat)
  size : Nat → Option Nat
  /-- the tables a set without its own keeps (R205) -/
  recipes : List Recipe
  lattice : List LatEntry

/-- Check a set of tables (R84, R87, R247, R270): the rule set, or the first fault. `place` is the section of the lattice
table. The order is: the tables, the entries' fields, indices, transitions (log entry 22). -/
def check (cx : Ctx) (ts : List Raw) (place : Nat) : Except Bad RuleSet :=
  match ofKind ts 1, ofKind ts 2, ofKind ts 3 with
  | some sv, some bl, some pl =>
    let la := (ofKind ts 4).getD ⟨4, sv.gen, 0, []⟩
    let rc := (ofKind ts 5).getD ⟨5, sv.gen, 0, []⟩
    let one (k : Nat) := decide ((ts.filter (fun t => t.kind == k)).length ≤ 1)
    if !(one 1 && one 2 && one 3 && one 4 && one 5) || ts.any (fun t => t.gen != sv.gen) then .error ⟨errFormat, noEntry, 0⟩
    else
      let sieves := sv.words.map sieveOf
      let lats := la.words.map latOf
      let recipes := if rc.words.isEmpty then cx.recipes else rc.words.map (fun w => (⟨w⟩ : Recipe))
      let lattice := if la.words.isEmpty then cx.lattice else lats
      let format := [firstBad sv errFormat 0 sieveOk,
        if matchesAll (sieves.getLastD (sieveOf [])) then none else some ⟨errFormat, sv.first + sv.words.length - 1, 0⟩,
        firstBad bl errFormat 0 (balerOk cx.feature), firstBad pl errFormat 0 placerOk, firstBad la errFormat place latOk,
        (List.range rc.words.length).findSome? (fun i =>
          (recipeBad cx.feature cx.size (rc.words.getD i [])).map (fun e => ⟨e, rc.first + i, 0⟩))]
      let index := [firstBad sv errIndex 0 (fun w =>
          let e := sieveOf w
          decide (e.balerRule < bl.words.length) && decide (e.placerRule < pl.words.length) &&
          (e.recipe == 0xFFFF || decide (e.recipe < recipes.length)) && (!e.regrowOk || e.recipe != 0xFFFF)),
        (cx.objects.findIdx? (fun o => match o.2 with
          | some l => !lattice.any (fun e => e.lattice == l)
          | none => false)).map (fun i => ⟨errIndex, i, 2⟩)]
      let trans := [(latTwice 0 lats).map (fun i => ⟨errTransition, la.first + i, place⟩),
        firstBad la errTransition place (fun w => latFits lats (latOf w)),
        firstBad sv errTransition 0 (fun w => sieveMoves (sieveOf w))]
      match (format ++ index ++ trans).findSome? id with
      | some b => .error b
      | none => .ok { gen := sv.gen, sieve := sieves, baler := bl.words.map balerOf, placer := pl.words.map placerOf
                      recipes, lattice }
  | _, _, _ => .error ⟨errFormat, noEntry, 0⟩

end Rules
end Sys2Proof.Machine
end

