-- ==== Sys2Proof/Machine/MemInstr.lean ====
section
/-! DEFINITION. Instructions on device memory, sync objects, rule tables and epochs (sections 4.5, 4.7, 5.5, 5.6, 5.9, 5.10),
with the store buffer and the instruction-side events of the block. -/

namespace Sys2Proof.Machine

open Ulital

/-- The precise traps of a device-memory access (R136, Table 8-5): a size of 64 is a descriptor's. -/
def State.memTrap? (s : State) (p va n : Nat) (write : Bool) : Option Trap :=
  if 2 ^ 57 ≤ va then some (trapTranslation va)
  else if va % n ≠ 0 then some (trapAlign va)
  else match s.xcheck p va write false with
    | some .xlate => some (trapTranslation va)
    | some .prot => some (trapProtection va)
    | some .tier => some (trapTier va 1)
    | some .lost => some (trapPoison va)
    | none => none

/-- The home of a virtual address is in Heath. -/
def State.vheath (s : State) (p va : Nat) : Bool :=
  match s.granule? p va with
  | some g => g.home == .heath
  | none => false

/-- A read of the address would reach Heath and find nothing there: its port is not UP, or the outside says the read
fails (section 4.5, Faults). A ZERO granule is read without its home (R290). -/
def State.heathReadFails (s : State) (p va : Nat) (err : CoreErr) : Bool :=
  match s.granule? p va with
  | some g => g.home == .heath && !g.zero && (err == .heathRead || s.heathFail g.key)
  | none => false

/-- A core's own stores that have not left the buffer show in its loads (R137). -/
def overlayStores (va : Nat) (bs : List Byte) (st : List BufStore) : List Byte :=
  st.foldl (fun b x => (List.range b.length).map (fun i =>
    if x.va ≤ va + i then x.bytes.getD (va + i - x.va) (b.getD i 0) else b.getD i 0)) bs

/-- Read `n` bytes of device memory for a core: a trap, or the bytes and the state after the access. -/
def State.coreRead (s : State) (c va n : Nat) (err : CoreErr) : Except (State × Trap) (List Byte × State) :=
  let p := s.corePart c
  match s.memTrap? p va n false with
  | some t => .error (s, t)
  | none =>
    if s.heathReadFails p va err then .error (s, trapTier va 2)
    else
      let r := s.vread .cached p va n
      if r.1 then .error (r.2.2, trapPoison va)
      else .ok (overlayStores va r.2.1 (s.core c).stores, r.2.2)

/-- The store buffer takes a store. -/
def State.bufferStore (s : State) (c va : Nat) (bs : List Byte) : State :=
  let r := s.core c
  s.setCore c { r with stores := r.stores ++ [⟨va, bs⟩] }

/-- A store to a Heath home has failed after the instruction: the trap waits in the core (R141, section 4.5 Faults). The
first failing address stands while the trap is pending. -/
def State.setAsync (s : State) (c va : Nat) : State :=
  let r := s.core c
  if r.async.isSome then s
  else (s.setCore c { r with async := some va }).wr F.SRT_STATUS_ASYNC_PENDING c 1

/-- A core's store, its checks passed (R137): to Meadow at once; to a Heath home, or behind one, through the store buffer.
`none`: the buffer is full. -/
def State.coreStore (s : State) (c va : Nat) (bs : List Byte) : Option State :=
  let p := s.corePart c
  let r := s.core c
  if s.vheath p va ∨ !r.stores.isEmpty then
    if (s.vheathFail p va bs.length).isSome then some (s.setAsync c va)
    else if r.stores.length < 16 then some (s.bufferStore c va bs) else none
  else some (s.vwrite .cached p va bs)

/-- Bytes of a store that lands after its page may have gone (an UNMAP in between discards it). -/
def State.landStore (s : State) (c : Nat) (x : BufStore) : State :=
  let p := s.corePart c
  match s.xcheck p x.va true false with
  | some _ => s
  | none => s.vwrite .cached p x.va x.bytes

/-- The oldest buffered store is answered: it is in memory, and the Meadow stores behind it follow. -/
def State.drainStores : Nat → State → Nat → Bool → State
  | 0, s, _, _ => s
  | f + 1, s, c, first =>
    let r := s.core c
    match r.stores with
    | [] => s
    | x :: t =>
      if s.vheath (s.corePart c) x.va ∧ !first then s
      else ((s.landStore c x).setCore c { r with stores := t }).drainStores f c false

/-- An instruction that waits keeps its PC (R139 to R141). -/
def State.waitHere (s : State) (c : Nat) : CRes := .block (s.setPc c (s.ownPc c))

/-- LOAD (R136, R179, R180). -/
def execLoad (core : BitVec 6) (word : Word) (err : CoreErr) (s : State) : Res :=
  let c := core.toNat
  .next (s.instr c word .load err fun s =>
    let (n, signed) := loadForm (func word)
    match s.coreRead c (s.g c (rs1 word) + imm word).toNat n err with
    | .error (s, t) => .trapIn s t
    | .ok (b, s) => .ok (s.setG c (Ulital.rd word) (extendLoad b signed)))

/-- A store of bytes by a core: its traps, the buffer, the write. -/
def State.storeRun (s : State) (c va : Nat) (bs : List Byte) : CRes :=
  match s.memTrap? (s.corePart c) va bs.length true with
  | some t => .trap t
  | none => match s.coreStore c va bs with
    | some s => .ok s
    | none => s.waitHere c

/-- STORE (R136, R179, R180). -/
def execStore (core : BitVec 6) (word : Word) (err : CoreErr) (s : State) : Res :=
  let c := core.toNat
  .next (s.instr c word .store err fun s =>
    s.storeRun c (s.g c (rs1 word) + imm word).toNat (leBytes (storeSize (func word)) (s.g c (Ulital.rd word)).toNat))

/-- What an atomic stores (R181); `n` is its size in bytes. -/
def amoNew (f n : Nat) (old x y : Nat) : Nat :=
  match f / 2 with
  | 0 => low (8 * n) (old + x)
  | 1 => low (8 * n) x
  | _ => if old = low (8 * n) y then low (8 * n) x else old

/-- AMO (R138, R181): ordered after every earlier store of the core. -/
def execAmo (core : BitVec 6) (word : Word) (err : CoreErr) (s : State) : Res :=
  let c := core.toNat
  .next (s.instr c word .amo err fun s =>
    if !s.isV1 c && !s.feature 10 then .trap (trapFeature 10)
    else
      let p := s.corePart c
      let n := if func word % 2 = 0 then 4 else 8
      let va := (s.g c (rs1 word)).toNat
      match s.memTrap? p va n true with
      | some t => .trap t
      | none =>
        if !(s.core c).stores.isEmpty then s.waitHere c
        else match s.coreRead c va n err with
          | .error (s, t) => .trapIn s t
          | .ok (b, s) =>
            let new := amoNew (func word) n (ofLe b) (s.g c (rs2 word)).toNat (s.g c (rs3 word)).toNat
            .ok ((s.vwrite .cached p va (leBytes n new)).setG c (Ulital.rd word) (extendLoad b false)))

/-- TLDD (R183, R184). -/
def execTldd (core : BitVec 6) (word : Word) (err : CoreErr) (s : State) : Res :=
  let c := core.toNat
  .next (s.instr c word .tldd err fun s =>
    match s.coreRead c (s.g c (rg word) + imm20 word).toNat 64 err with
    | .error (s, t) => .trapIn s t
    | .ok (b, s) => .ok (s.setT c (td word) (BitVec.ofNat 512 (ofLe b))))

/-- TSTD (R183, R184). -/
def execTstd (core : BitVec 6) (word : Word) (err : CoreErr) (s : State) : Res :=
  let c := core.toNat
  .next (s.instr c word .tstd err fun s =>
    s.storeRun c (s.g c (rg word) + imm20 word).toNat (leBytes 64 (s.t c (ts word)).toNat))

/-- The features of SYS_FEAT_ACCEPT that rule tables ask for. -/
def State.rulesCtx (s : State) (recipes : List Recipe) (lattice : List LatEntry) (objects : List ObjEntry) :
    Rules.Ctx :=
  { feature := s.feature, objects := objects.map (fun o => (o.index, o.lattice))
    size := fun i => (objects.find? (fun o => o.index == i)).map (fun o => 4096 * 2 ^ o.sizeCode), recipes, lattice }

/-- The result of RSTAGE on the bytes of a set (Table 5-14, R205): a code, or the set to stage. -/
def State.stageSet (s : State) (p : Nat) (v1 : Bool) (bs : List Byte) : Nat × Option RuleSet :=
  match (s.plan p).plan, (s.plan p).active with
  | some pl, some act =>
    match Rules.tables (bs.length / 32 + 2) bs 0 with
    | none => (1, none)
    | some ts =>
      if v1 && ts.any (fun t => t.kind == 4) then (1, none)
      else match Rules.check (s.rulesCtx act.recipes act.lattice pl.objects) ts 0 with
        | .error b => (b.err, none)
        | .ok rs =>
          let old := match (s.plan p).staged with
            | some x => max act.gen x.gen
            | none => act.gen
          let n (k : Nat) : Nat := match Rules.ofKind ts k with
            | some t => t.words.length
            | none => 0
          let im := pl.rules
          if rs.gen ≤ old then (Rules.errGeneration, none)
          else if im.sieve.length < n 1 ∨ im.baler.length < n 2 ∨ im.placer.length < n 3 ∨ im.lattice.length < n 4 ∨
              im.recipes.length < n 5 then (Rules.errSize, none)
          else (0, some rs)
  | _, _ => (1, none)

/-- RSTAGE (R204, R205). -/
def execRstage (core : BitVec 6) (word : Word) (err : CoreErr) (s : State) : Res :=
  let c := core.toNat
  .next (s.instr c word .rstage err fun s =>
    let p := s.corePart c
    let a := (s.g c (rs1 word)).toNat
    let n := (s.g c (rs2 word)).toNat
    let put (s : State) (v : Nat) : CRes := .ok (s.setG c (Ulital.rd word) (BitVec.ofNat 64 v))
    if a % 64 ≠ 0 then .trap (trapAlign a)
    else if 2 ^ 57 < a + n then .trap (trapTranslation (max a (2 ^ 57)))
    else match (granulesOf a n).find? (fun x => s.xcheck p x.1 false false == some .xlate) with
    | some x => .trap (trapTranslation x.1)
    | none =>
      if (s.xcheckRun p a n false false).isSome || (granulesOf a n).any (fun x => s.heathReadFails p x.1 err) then put s 6
      else
        let r := s.vread .cached p a n
        if r.1 then put r.2.2 6
        else match s.stageSet p (s.isV1 c) r.2.1 with
          | (v, some rs) => put (r.2.2.setPlan p { s.plan p with staged := some rs }) v
          | (v, none) => put r.2.2 v)

/-- Activate the staged generation (R51, R205). -/
def State.activateRules (s : State) (p : Nat) : State :=
  match (s.plan p).staged with
  | some rs => (s.setPlan p { s.plan p with active := some rs, staged := none }).wr F.PART_RULE_GEN_ACTIVE_GEN p rs.gen
  | none => s

/-- EADV (R206). -/
def execEadv (core : BitVec 6) (word : Word) (err : CoreErr) (s : State) : Res :=
  let c := core.toNat
  .next (s.instr c word .eadv err fun s =>
    let p := s.corePart c
    let want := (s.g c (rs1 word)).toNat
    let x := s.plan p
    let last := match x.plan with
      | some pl => pl.epochs
      | none => 0
    if x.epoch ≠ want then .ok (s.setG c (Ulital.rd word) (BitVec.ofNat 64 x.epoch))
    else if last < want + 2 then .trap (trapEpochRange (want + 1))
    else
      let s := (s.setPlan p { x with epoch := want + 1 }).activateRules p
      .ok (s.setG c (Ulital.rd word) (BitVec.ofNat 64 (want + 1))))

/-- The object a sync instruction names, or its trap (R207). -/
def State.soOperand (s : State) (c : Nat) (w : Word) : Except Trap Nat :=
  let n := (BitVec.ofNat 64 (soBase w) + s.g c (rso w)).toNat
  if n < 4096 ∧ s.soInRange (s.corePart c) n then .ok n else .error (trapOperand 7 n)

/-- WAIT (R148 to R150, R207, R208). A blocked core keeps its PC at the WAIT; its wake moves past it. -/
def execWait (core : BitVec 6) (word : Word) (err : CoreErr) (s : State) : Res :=
  let c := core.toNat
  .next (s.instr c word .wait err fun s =>
    let v := (s.g c (rs2 word)).toNat
    let v1 := s.isV1 c
    if v = 0 ∨ (if v1 then 2 ^ 32 else 2 ^ 40) ≤ v then .trap (trapOperand 3 v)
    else match s.soOperand c word with
      | .error t => .trap t
      | .ok n =>
        let x := s.g c (rs1 word)
        if !s.soUsable n then .ok (s.setG c (Ulital.rd word) 2)
        else if soCmp (cmp word) (s.soVal n) x then .ok (s.setG c (Ulital.rd word) 0)
        else
          let r : WaitRec := { so := n, cmp := cmp word, x, timeout := if v1 then v * 1000 else v, rd := Ulital.rd word }
          .block (((s.setPc c (s.ownPc c)).setCore c { s.core c with wait := some r }).setCoreState c coreWaiting))

/-- The operation a SIGNAL code names (R209). -/
def soOpOf (n : Nat) : SoOp :=
  match n with
  | 0 => .add
  | 1 => .set
  | 2 => .max
  | _ => .or

/-- SIGNAL (R139, R207, R209). -/
def execSignal (core : BitVec 6) (word : Word) (err : CoreErr) (s : State) : Res :=
  let c := core.toNat
  .next (s.instr c word .signal err fun s =>
    match s.soOperand c word with
    | .error t => .trap t
    | .ok n =>
      if !(s.core c).stores.isEmpty then s.waitHere c
      else .ok (s.soOp (s.corePart c) n (soOpOf (cmp word)) (s.g c (rs1 word))))

/-- SREAD (R207, R210). -/
def execSread (core : BitVec 6) (word : Word) (err : CoreErr) (s : State) : Res :=
  let c := core.toNat
  .next (s.instr c word .sread err fun s =>
    match s.soOperand c word with
    | .error t => .trap t
    | .ok n => .ok (s.setG c (Ulital.rd word) (s.soVal n)))

/-- FENCE (R141, R211). -/
def execFence (core : BitVec 6) (word : Word) (err : CoreErr) (s : State) : Res :=
  let c := core.toNat
  .next (s.instr c word .fence err fun s =>
    let m := mask word
    if (m.testBit 0 && !(s.core c).stores.isEmpty) ∨ (m.testBit 1 && s.rd F.SRT_ISSUE_STATUS_OUTSTANDING c != 0) then
      s.waitHere c
    else .ok s)

/-- ASYNC_STORE_FAIL: the oldest store of a core that waits on Heath fails (section 4.5, Faults). -/
def execAsyncStoreFail (core : BitVec 6) (s : State) : Res :=
  let c := core.toNat
  match (s.core c).stores with
  | [] => .next s
  | x :: t =>
    let s := (s.setCore c { s.core c with stores := t }).setAsync c x.va
    .next (s.drainStores 17 c false)

/-- WAIT_TIMEOUT: a blocked WAIT's timeout expires (R148 to R150). A value that satisfies it gives outcome 0. -/
def execWaitTimeout (core : BitVec 6) (s : State) : Res :=
  let c := core.toNat
  match (s.core c).wait with
  | some w => .next (s.wake c w (if soCmp w.cmp (s.soVal w.so) w.x then 0 else 1))
  | none => .next s

end Sys2Proof.Machine
end

