-- ==== Sys2Proof/Machine/Tier.lean ====
section
/-! DEFINITION. The Mover: granule and tile migrations that the device starts, watermarks, ready objects of windows, and the
loss of lower tiers (sections 8.4 to 8.8). -/

namespace Sys2Proof.Machine

/-- A migration of the granule is in progress or waits. -/
def State.granMoving (s : State) (p va : Nat) : Bool :=
  s.items.any (fun e => e.2.part == p && (match e.2.work with
    | .granule a _ => a / 65536 == va / 65536
    | _ => false))

/-- The sites of policy BANDWIDTH, in the order of R299, those offline left out: their dies. -/
def State.bandDies (s : State) : List Nat :=
  ([0, 2, 4, 6, 1, 3, 5, 7].filter (fun i => s.stackOnline i && s.meadowOn (i / 2))).map (· / 2)

/-- The die of granule number `g` of a mapping (R299). -/
def State.policyDie (s : State) (policy fixed g : Nat) : Nat :=
  match policy with
  | 1 => let l := s.bandDies; l.getD (g % max l.length 1) 0
  | 2 => fixed
  | _ => let l := s.onlineDies; l.getD (g % max l.length 1) 0

/-- Set the MIGRATING bit of a granule. -/
def State.setMigrating (s : State) (p va : Nat) (b : Bool) : State :=
  match s.granule? p va with
  | some g => s.putGranule p va { g with migrating := b }
  | none => s

/-- A movement into Meadow that waits for space raises every demotion of the partition out of Meadow to its class and
deadline (R306). -/
def State.raiseDemotions (s : State) (p urg deadline : Nat) : State :=
  { s with items := s.items.map (fun e =>
      let it := e.2
      let down : Bool := match it.work with
        | .move h => h != .meadow
        | .granule _ h => h != .meadow
        | .spill _ => true
        | _ => false
      if it.part = p ∧ down ∧ (urg < it.urg ∨ (urg = it.urg ∧ deadline < it.deadline)) then
        (e.1, { it with urg := urg, deadline := deadline })
      else e) }

/-- Start a granule's migration: reserve its destination (R118, section 8.5 step 1). A granule already there has moved; a
LOST one never does (R300). -/
def State.granReserve (s : State) (id : Nat) : State :=
  match s.item? id with
  | none => s
  | some it => match it.work with
    | .granule va h =>
      let p := it.part
      match s.page? p va, s.granule? p va with
      | some e, some g =>
        if g.home = h then s.putItem { it with ended := some (0, 0), stage := .running }
        else if g.lost then s.putItem { it with ended := some (0x0040, 65536), stage := .running }
        else
          let policy := match it.origin with
            | .stream _ => 1
            | _ => e.diePolicy
          match s.reserve p h (s.policyDie policy e.fixedDie (va / 65536)) 65536 65536 (.granule va) with
          | some (k, s) =>
            let s := (s.setMigrating p va true).putItem { it with resv := some (h, k, 65536), stage := .running, started := true }
            if g.home = .moor ∧ !g.zero then s.moorMove id false g.key 65536 else s
          | none =>
            let s := s.putItem { it with stage := .reserving, since := if it.stage = .reserving then it.since else s.time }
            if h = .meadow then s.raiseDemotions p it.urg it.deadline else s
      | _, _ => s.putItem { it with ended := some (0x0020, 65536), stage := .running }
    | _ => s

/-- Ask for a granule's migration. A second request for one granule waits for the first (R305). -/
def State.addGranule (s : State) (p va : Nat) (h : Home) (o : Origin) (urg deadline : Nat) : State :=
  let busy := s.granMoving p va
  let id := s.nextItem
  let s := s.addItem { Item.blank p (.granule va h) with
    origin := o, urg, deadline, stage := if busy then .deferred else .queued }
  let s := match o with
    | .stream k =>
      let r := Tab.get StreamRec.idle s.streams (8 * p + k)
      { s with streams := Tab.set StreamRec.idle s.streams (8 * p + k) { r with items := r.items ++ [id] } }
    | _ => s
  if busy then s else s.granReserve id

/-- The next waiting migration of a granule starts. -/
def State.nextGran (s : State) (p va : Nat) : State :=
  match List.find? (fun (e : Nat × Item) => e.2.part == p && e.2.stage == .deferred && (match e.2.work with
      | .granule a _ => a / 65536 == va / 65536
      | _ => false)) s.items with
  | some e => s.granReserve e.1
  | none => s

/-- Release what a granule migration holds, and let the next one of the granule start. -/
def State.leaveGran (s : State) (it : Item) : State :=
  match it.work with
  | .granule va _ => (s.setMigrating it.part va false).nextGran it.part va
  | _ => s

/-- A granule movement that is over ends, and the next one of the granule starts. -/
def State.endGran (s : State) (id : Nat) : State :=
  match s.item? id with
  | none => s
  | some it => (s.endEnded id).leaveGran it

/-- Layer of sequence position `k` of a window (R310). -/
def winLayer (order layers k : Nat) : Nat :=
  match order with
  | 0 => k % layers
  | 1 => layers - 1 - k % layers
  | _ => let r := k % (2 * layers); if r < layers then r else 2 * layers - 1 - r

/-- Every granule of a slice has a Meadow home. -/
def State.sliceIn (s : State) (p base slice layer : Nat) : Bool :=
  (granulesOf (base + layer * slice) slice).all (fun x => match s.granule? p x.1 with
    | some g => g.home == .meadow
    | none => false)

/-- Raise a window's ready object to v + m (R312); m stops at the period of the order, beyond which the layers repeat. -/
def State.winReady (s : State) (i : Nat) : State :=
  if !(s.rdb F.TIER_STRM_CFG_EN i && s.rd F.TIER_STRM_CFG_KIND i == 0 && s.rdb F.TIER_STRM_SO_READY_EN i) then s
  else
    let p := i / 8
    let v := (s.soVal (s.rd F.TIER_STRM_SO_PROGRESS i)).toNat
    let layers := s.rd F.TIER_STRM_CFG_LAYERS i
    let order := s.rd F.TIER_STRM_CFG_ORDER i
    let m := ((List.range (if order ≤ 1 then layers else 2 * layers)).takeWhile (fun j =>
      s.sliceIn p (s.rd F.TIER_STRM_BASE_ADDR i) (s.rd F.TIER_STRM_SIZE_VALUE i) (winLayer order layers (v + j)))).length
    s.soSignal p (s.rd F.TIER_STRM_SO_READY i) .max (BitVec.ofNat 64 (v + m))

/-- The ready objects of every window of a partition. -/
def State.winReadyAll (s : State) (p : Nat) : State := (List.range 8).foldl (fun s k => s.winReady (8 * p + k)) s

/-- A granule movement is over without a commit: its destination is freed. -/
def State.granAbandon (s : State) (id status : Nat) : State :=
  match s.item? id with
  | none => s
  | some it =>
    let s := match it.resv with
      | some (h, k, n) => (s.uncharge it.part h.tier n).freeRun k .normal
      | none => s
    (s.tierFail it.part status).putItem { it with resv := none, ended := some (status, 65536), blocks := [] }

/-- Lines a partition's pins hold: 512 to a granule. -/
def State.refreshPins (s : State) (p : Nat) : State :=
  (s.wr F.LLC_PIN_LINES_LINES p (512 * (s.pinUnits.filter (fun e => e.2 == p + 1)).length)).wr F.LLC_PIN_LINES_RANGES p
    (Tab.get [] s.pinRanges p).length

/-- A granule leaves its Meadow home: it leaves its pinned range (R340). -/
def State.unpinUnit (s : State) (p : Nat) (g : Granule) : State :=
  if g.home = .meadow ∧ Tab.get 0 s.pinUnits (g.key / 65536) = p + 1 then
    let s := ({ s with pinUnits := Tab.erase s.pinUnits (g.key / 65536) }).refreshPins p
    let s := s.flag F.LLC_CMD_STATUS_PIN_DROPPED (2 * p)
    if p = 0 then s else s.flag F.LLC_CMD_STATUS_PIN_DROPPED (2 * p + 1)
  else s

/-- Commit a granule's migration in one update of its sub-entry, then free the source (section 8.5, R304). A granule
written meanwhile starts over (Table 6-10). -/
def State.granCommit (s : State) (id : Nat) : State :=
  match s.item? id with
  | none => s
  | some it => match it.work, it.resv with
    | .granule va _, some (h, k, _) =>
      let p := it.part
      if it.ended.isSome ∨ it.stage ≠ .running ∨ s.moorBusy id then s
      else match s.granule? p va with
      | none => s.granAbandon id 0x0020
      | some g =>
        let take (s : State) : State :=
          let s := s.putGranule p va (granuleAt k g.zero)
          let s := (s.uncharge p g.home.tier 65536).freeRun g.key .normal
          let s := if g.zero then s else (s.countHome p true g.home 65536).countHome p false h 65536
          ((s.unpinUnit p g).putItem { it with resv := none, ended := some (0, 0) }).winReadyAll p
        if g.lost then s.granAbandon id 0x0040
        else match it.bad, s.destDown h k with
        | some (_, e), _ => s.granAbandon id e
        | _, some e => s.granAbandon id e
        | none, none =>
          if g.zero then take s
          else if s.heathFail g.key then s.granAbandon id 0x0041
          else if (s.poisonOffset g.key 65536).isSome then s.granAbandon id 0x0040
          else
            let bs := s.bytes g.key 65536
            if h = .moor then
              if it.laid.isSome && s.bytes k 65536 == bs then take s
              else ((s.physWrite .bulk p k bs).putItem { it with laid := some (65536, false, 0) }).moorMove id true k 65536
            else take (s.physWrite .bulk p k bs)
    | _, _ => s

/-- A tile movement of the Mover starts: the tile is IN_FLIGHT and its destination is asked for (R60, R118). -/
def State.startMove (s : State) (id : Nat) : State :=
  match s.item? id with
  | none => s
  | some it =>
    let r := s.tile it.part it.obj it.tile
    if r.state ≠ .resident then s.putItem { it with stage := .deferred }
    else
      let s := (s.putItem { it with started := true }).flyItem id
      let s := s.reserveMove id
      match s.item? id with
      | some it =>
        if it.resv.isSome then (s.putItem { it with stage := .running }).moorReads id [it.tile]
        else if it.work.target r = .meadow then s.raiseDemotions it.part it.urg it.deadline else s
      | none => s

/-- The first item of stall order among those that meet `f`. -/
def State.oldest (s : State) (f : Item → Bool) : List Nat :=
  let l := (s.items.filter (fun e => f e.2)).map (fun e => (e.2.since, e.1))
  (l.foldl (fun l x => l.takeWhile (fun y => decide (y.1 ≤ x.1)) ++ x :: l.dropWhile (fun y => decide (y.1 ≤ x.1))) []).map
    (·.2)

/-- Every stalled tile of a partition and tier retries, in the order in which they stalled (R117). -/
def State.retryStalled (s : State) (p tier : Nat) : State :=
  (s.oldest (fun it => it.part == p && it.stage == .stalled && it.disp.home.tier == tier)).foldl
    (fun s id => (s.placeTile id true).goOn id) s

/-- Intakes that wait behind PART_INTAKE_WINDOW go on as others commit (R99). -/
def State.serveWindows (s : State) : State :=
  (s.oldest (fun it => it.stage == .windowed)).foldl (fun s id => (s.placeTile id false).goOn id) s

/-- Requests that waited for a line or a tag go out, in order of class, deadline and arrival (R361, R399, R448). -/
def State.reissue (s : State) : State :=
  let w := (s.items.filter (fun e => e.2.stage == .running && e.2.begun && e.2.bad.isNone &&
    decide (e.2.issued < e.2.runs.length))).map (fun e => (e.2.key, e.1, e.2.runs.length))
  let order := w.foldl (fun l x => l.takeWhile (fun y => decide (y.1 ≤ x.1)) ++ x :: l.dropWhile (fun y => decide (y.1 ≤ x.1))) []
  order.foldl (fun s x => s.issueReads (x.2.2 + 1) x.2.1) s

/-- Everything that can go on goes on: windowed intakes, free channels, free contexts, waiting requests. -/
def State.flow (s : State) : State := s.serveWindows.pumpAll.reissue

/-- Take a tile's items off a tier that has gone, with a failure status: deliveries and movements end, an intake whose
destination lies there is LOST. -/
def State.failHomed (s : State) (on : Nat → Bool) (status : Nat) : State :=
  let bad := s.items.filter (fun e =>
    (match e.2.resv with
      | some (_, k, _) => on k
      | none => false) ||
    (e.2.flight && (let r := s.tile e.2.part e.2.obj e.2.tile; r.home != .none && on r.key)) ||
    (match e.2.work with
      | .granule va _ => e.2.resv.isSome && (match s.granule? e.2.part va with
        | some g => on g.key
        | none => false)
      | _ => false))
  bad.foldl (fun s e => match e.2.work with
    | .granule .. => s.granAbandon e.1 status
    | _ =>
      if e.2.before.isSome then s.intakeFault e.1 status (e.2.resv.map (fun x => x.2.1))
      else s.endItem e.1 status (s.itemBytes e.2) ErrAt.none) s

/-- A lower-tier port or target is LOST (R322): its requests fail, its tiles are healed or LOST, its granules are LOST and
its charges are released. -/
def State.tierLost (s : State) (on : Nat → Bool) (status : Nat) : State :=
  let s := s.failHomed on status
  let tiles := s.tiles.filter (fun e => e.2.home != .none && e.2.live && on e.2.key)
  let grans := s.granules.filter (fun e => !e.2.lost && on e.2.key)
  let parts := (List.range 32).filter (fun p =>
    tiles.any (fun e => e.1 / 2 ^ 51 == p) || grans.any (fun e => e.1 / 2 ^ 41 == p))
  let s := tiles.foldl (fun s e =>
    let p := e.1 / 2 ^ 51
    let obj := e.1 / 2 ^ 24 % 2 ^ 27
    let t := e.1 % 2 ^ 24
    let s := s.settle p obj t
    if (s.tile p obj t).state = .resident then s.heal p obj t 3 status none else s.lose p obj t 3 status none) s
  let s := grans.foldl (fun s e =>
    let p := e.1 / 2 ^ 41
    match Tab.find? s.granules e.1 with
    | some g => ({ (s.uncharge p g.home.tier 65536) with
        granules := Tab.put s.granules e.1 { g with lost := true } }).freeRun g.key .normal
    | none => s) s
  parts.foldl (fun s p => s.flag F.TIER_FAIL_STATUS_LOST_BY_TIER p) s

/-- The Heath port holds a location. -/
def State.onHeath (s : State) (n k : Nat) : Bool := homeOf k == .heath && s.heathPort k == n

/-- The Moor target holds a location. -/
def onMoor (t k : Nat) : Bool := homeOf k == .moor && moorTarget k == t

/-- The commands and requests to a Moor target end at once with a status (R321). -/
def State.dropMoorReqs (s : State) (t status : Nat) : State :=
  let cmds := s.eth.nvme.filter (fun e => e.2.target == t)
  let s := { s with eth := { s.eth with nvme := s.eth.nvme.filter (fun e => e.2.target != t) } }
  let s : State := cmds.foldl (fun (s : State) e => match e.2.item with
    | some i => s.moorDone i (some status)
    | none => s) s
  if s.rd F.TIER_MOOR_TGT_KIND t = 2 then
    let c := s.rd F.TIER_MOOR_TGT_CONN t
    let x := s.conn c
    let mine := x.reqs.filter (fun r => decide (0x0C ≤ r.opcode))
    let s := s.setConn c { x with reqs := x.reqs.filter (fun r => !decide (0x0C ≤ r.opcode)) }
    mine.foldl (fun s r => s.moorDone r.item (some status)) s
  else s

/-- A Heath port is DOWN: buffered stores to it fail late (R321, section 4.5 Faults). -/
def State.heathDown (s : State) (n : Nat) : State :=
  let s := s.setHeathState n 1
  (List.range 64).foldl (fun s c =>
    let r := s.core c
    let p := s.corePart c
    let hit (x : BufStore) : Bool := match s.granule? p x.va with
      | some g => s.onHeath n g.key
      | none => false
    match r.stores.find? hit with
    | none => s
    | some x =>
      let s := s.setCore c { r with stores := r.stores.filter (fun y => !hit y) }
      let r := s.core c
      if r.async.isSome then s
      else (s.setCore c { r with async := some x.va }).wr F.SRT_STATUS_ASYNC_PENDING c 1) s

/-- A watermark's quota share in bytes: `m` of 256 parts (R307). -/
def State.wmarkAt (s : State) (p tier m : Nat) : Nat := s.quotaUnits p tier * 65536 * m / 256

/-- The watermark registers of a tier: EN, HI, LO. -/
def State.wmark (s : State) (p tier : Nat) : Bool × Nat × Nat :=
  if tier = 0 then (s.rdb F.TIER_WMARK_MEADOW_EN p, s.rd F.TIER_WMARK_MEADOW_HI p, s.rd F.TIER_WMARK_MEADOW_LO p)
  else (s.rdb F.TIER_WMARK_HEATH_EN p, s.rd F.TIER_WMARK_HEATH_HI p, s.rd F.TIER_WMARK_HEATH_LO p)

def State.setStuck (s : State) (p tier : Nat) : State :=
  if tier = 0 then s.flag F.TIER_WMARK_MEADOW_STUCK p else s.flag F.TIER_WMARK_HEATH_STUCK p

/-- The order of demotion candidates: STEP, LAYER, handle, tile index (R307). -/
def demoteKey (key : Nat) (r : TileRec) : Nat := (r.step * 65536 + r.layer) * 2 ^ 51 + key % 2 ^ 51

/-- The tile a watermark demotes next (R307). -/
def State.demoteNext (s : State) (p tier : Nat) : Option Nat :=
  let c := s.tiles.filter (fun e =>
    e.1 / 2 ^ 51 == p && e.2.state == .resident &&
    (if tier = 0 then e.2.disp == .hold || e.2.disp == .press else e.2.disp == .spill) &&
    (placerOf (s.rulesOf p) e.2).ovfDown &&
    !s.items.any (fun i => i.2.part == p && tileKey p i.2.obj i.2.tile == e.1 && (match i.2.origin with
      | .stream _ => true
      | _ => false)))
  (c.foldl (fun (b : Option (Nat × Nat)) e =>
    let k := demoteKey e.1 e.2
    match b with
    | none => some (k, e.1)
    | some (j, _) => if k < j then some (k, e.1) else b) none).map (·.2)

/-- One demotion of a watermark run (R307). -/
def State.demoteOne (s : State) (p tier : Nat) : State :=
  let stop (s : State) : State := { s with demoting := Tab.set false s.demoting (3 * p + tier) false }
  match s.demoteNext p tier with
  | none => s
  | some key =>
    let obj := key / 2 ^ 24 % 2 ^ 27
    let tile := key % 2 ^ 24
    let id := s.nextItem
    let s1 := (s.addItem { Item.blank p (.move (if tier = 0 then .heath else .moor)) with
      origin := .watermark tier, obj, tile, urg := 3, deadline := s.time }).startMove id
    match s1.item? id with
    | some it => if it.resv.isSome then s1 else stop ((s1.withdraw id).setStuck p tier)
    | none => s1

/-- A watermark acts (R307): above HI a run begins, and it goes on one tile at a time down to LO. -/
def State.watermark (s : State) (p tier : Nat) : State :=
  let (en, hi, lo) := s.wmark p tier
  let k := 3 * p + tier
  let stop (s : State) : State := { s with demoting := Tab.set false s.demoting k false }
  if !en then stop s
  else if hi ≤ lo then stop (s.setStuck p tier)
  else
    let busy := s.items.any (fun e => e.2.part == p && e.2.origin == .watermark tier)
    let occ := s.occupancy p tier
    let on := Tab.get false s.demoting k || decide (s.wmarkAt p tier hi < occ)
    if !on then s
    else if occ ≤ s.wmarkAt p tier lo then stop s
    else
      let s := { s with demoting := Tab.set false s.demoting k true }
      if busy then s else s.demoteOne p tier

end Sys2Proof.Machine
end

