-- ==== Sys2Proof/Machine/CoreCmd.lean ====
section
/-! DEFINITION. The host's and the device's own events at the Sorter cores and the sync objects: start, halt, resume, the
debug window, stalled issue, gates, doorbells (sections 4.1, 4.6, 4.10, 11.1, 11.2). -/

namespace Sys2Proof.Machine

/-- Function `n` exists: the PF, and the enabled VFs (chapter 12). -/
def State.fnExists (s : State) (fn : Nat) : Bool := decide (fn ≤ s.host.numVfs)

/-- The partition a function acts for (R424): the PF for partition 0, VF `n` for partition `n`. -/
def State.fnPart (_s : State) (fn : Nat) : Nat := fn

/-- Registers of a core at a start (Tables 4-2 and 4-12). -/
def State.startCore (s : State) (c : Nat) (pl : Plan) : State :=
  let p := s.corePart c
  let s := s.clearCore c
  let s := ((s.setG c 1 (BitVec.ofNat 64 (s.rd F.SRT_IDENT_RANK c))).setG c 2 (BitVec.ofNat 64 pl.cores)).setG c 3
    (BitVec.ofNat 64 p)
  let s := (s.setG c 4 (BitVec.ofNat 64 pl.areaBase)).setG c 5 (BitVec.ofNat 64 pl.epochs)
  ((s.setPc c pl.entryPc).wrb F.SRT_STATUS_ISA_V1 c (pl.ulital == 1)).setCoreState c coreRunning

/-- SRT_START: a write of 1 to SRT_CTRL.START (R123). -/
def execSrtStart (core : BitVec 6) (s : State) : Res :=
  let c := core.toNat
  let p := s.corePart c
  .next (if s.pins.held then s else
    match (s.plan p).plan with
    | some pl =>
      if s.coreState c = coreIdle ∧ s.rd F.PART_PLAN_STATUS_STATE p = 2 ∧ s.rd F.SRT_IDENT_RANK c < pl.cores ∧ s.served p then
        s.startCore c pl
      else s.flag F.SRT_STATUS_REFUSED c
    | none => s.flag F.SRT_STATUS_REFUSED c)

/-- HALT_REQ: a write of 1 to SRT_CTRL.HALT_REQ (R125): the model stands at an instruction boundary between commands. -/
def execHaltReq (core : BitVec 6) (s : State) : Res :=
  let c := core.toNat
  .next (if s.pins.held then s
    else if coreRunning ≤ s.coreState c ∧ s.coreState c ≤ coreStalled then s.haltCore c 2
    else if s.coreState c = coreHalted then s.wr F.SRT_CTRL_HALT_REQ c 0
    else s.wr F.SRT_CTRL_HALT_REQ c 1)

/-- SRT_RESUME: a write of 1 to SRT_CTRL.RESUME (R125). -/
def execSrtResume (core : BitVec 6) (s : State) : Res :=
  let c := core.toNat
  .next (if s.pins.held then s
    else if s.coreState c = coreHalted ∧ s.rd F.SRT_STATUS_HALT_CAUSE c = 2 ∧ s.served (s.corePart c) then
      s.setCoreState c coreRunning
    else s.flag F.SRT_STATUS_REFUSED c)

/-- One byte of the debug window (R161). -/
def State.dbgByte (s : State) (c a : Nat) : Option Byte :=
  if a < 0x40000 then some (s.scratchByte c a)
  else if 0x100000 ≤ a ∧ a < 0x100100 then some ((leBytes 8 (s.g c ((a - 0x100000) / 8)).toNat).getD (a % 8) 0)
  else if 0x100100 ≤ a ∧ a < 0x100500 then some ((leBytes 64 (s.t c ((a - 0x100100) / 64)).toNat).getD (a % 64) 0)
  else if a = 0x100500 then
    some (BitVec.ofNat 8 ((List.range 8).foldl (fun n r => n + b2n (s.p c r) * 2 ^ r) 0))
  else if 0x100500 < a ∧ a < 0x100508 then some 0
  else none

/-- SRT_DBG_READ: a read of SRT_DBG_DATA by a function (R161, Table 4-12). -/
def execSrtDbgRead (fn : Nat) (core : BitVec 6) (s : State) : Res :=
  let c := core.toNat
  let a := s.rd F.SRT_DBG_ADDR_ADDR c
  let bs := (List.range 8).map (fun i => s.dbgByte c (a + i))
  let open' := s.coreState c == coreIdle || s.coreState c == coreHalted
  let s1 := s.wr F.SRT_DBG_ADDR_ADDR c (a + 8)
  .next (if s.pins.held || !s.fnExists fn then s
    else if open' && bs.all Option.isSome then s1.emit (.readData fn (bs.map (fun b => b.getD 0)))
    else (s1.flag F.SRT_STATUS_REFUSED c).emit (.readData fn (List.replicate 8 0)))

/-- What an issue that had stalled comes to: its instruction retires or traps. -/
def State.endStall (s : State) (c : Nat) (r : CRes) : State :=
  let pc := s.pc c
  match r with
  | .ok s1 => (s1.setPc c (pc + 8)).retire c
  | .block s1 => s1
  | .trap t => s.takeTrap c t false pc
  | .trapIn s1 t => s1.takeTrap c t false pc
  | .fatal code v => s.takeFatal c code v

/-- STALLED_ISSUE_PROCEEDS: queue room and a free slot exist (R144). -/
def execStalledIssueProceeds (core : BitVec 6) (s : State) : Res :=
  let c := core.toNat
  match (s.core c).stalled with
  | some it =>
    if s.coreState c = coreStalled ∧ s.issueRoom c it.gate.isSome then
      let s := (s.setCore c { s.core c with stalled := none }).setCoreState c coreRunning
      .next (s.endStall c (s.issueNow c it)).pumpAll
    else .next s
  | none => .next s

/-- ISSUE_TIMEOUT: an issue stalled for SRT_ISSUE_TIMEOUT (R145); where the slot frees in the same cycle, the issue
proceeds (Table 4-7). -/
def execIssueTimeout (core : BitVec 6) (s : State) : Res :=
  let c := core.toNat
  match (s.core c).stalled with
  | some it =>
    if s.coreState c ≠ coreStalled then .next s
    else
      let room := s.issueRoom c it.gate.isSome
      let s := (s.setCore c { s.core c with stalled := none }).setCoreState c coreRunning
      if room then .next (s.endStall c (s.issueNow c it)).pumpAll
      else .next (s.takeTrap c (trapIssueTimeout (s.nextTicket c)) false (s.pc c))
  | none => .next s

/-- An item reaches the front of its work and, where it needs one, a channel (R353). -/
def State.arrive (s : State) (id : Nat) : State :=
  let s := s.front id
  match s.item? id with
  | some it =>
    if it.work.onCarrier && it.started && it.channel.isNone && (it.stage == .queued || it.stage.waits) then s.placeItem id
    else s
  | none => s

/-- DEFERRED_DISP_CHECK: a request deferred on an IN_FLIGHT tile reaches the home slice again (R61, R146). -/
def execDeferredDispCheck (item : Nat) (s : State) : Res :=
  match s.item? item with
  | some it =>
    if it.stage = .deferred ∧ (s.tile it.part it.obj it.tile).state ≠ .inFlight ∧ s.served it.part then
      .next (match it.work with
        | .granule .. => s
        | .move _ => (s.startMove item).flow
        | _ => ((s.putItem { it with stage := .queued }).arrive item).flow)
    else .next s
  | none => .next s

/-- GATE_TIMEOUT: a gated item is not released within SRT_ISSUE_TIMEOUT of its issue (R188). -/
def execGateTimeout (item : Nat) (s : State) : Res :=
  match s.item? item with
  | some it => .next (if it.stage = .gated then (s.finish item 0x0005 (s.itemBytes it) ErrAt.none).pumpAll else s)
  | none => .next s

/-- SYNC_OBJECT_UPDATE: an operation of the device's own mechanisms takes effect (R388, R393). -/
def execSyncObjectUpdate (object : BitVec 12) (op : SoOp) (value : Word) (s : State) : Res :=
  .next (if s.stopped then s else s.soOp ((s.soOwner object.toNat).getD 0) object.toNat op value)

/-- A doorbell write of a function (R389 to R391). A 4-byte write reaches the low half of its word and is zero-extended.
During a partition reset it is dropped (Table 11-2). -/
def State.doorbell (s : State) (fn n : Nat) (op : SoOp) (v : Word) (short : Bool) : State :=
  let x := if short then (v.setWidth 32).setWidth 64 else v
  let owner := s.soOwner n
  if s.pins.held || !s.fnExists fn then s
  else if fn ≠ 0 ∧ s.partState (s.fnPart fn) = partResetting then s
  else if fn ≠ 0 ∧ owner ≠ some (s.fnPart fn) then (s.flag F.SO_DB_STATUS_OUT_OF_RANGE (s.fnPart fn)).sat F.SO_DB_STATUS_COUNT (s.fnPart fn) 1
  else match owner with
    | some p => if s.partState p = partResetting then s else s.soOp p n op x
    | none => s.soOp 0 n op x

/-- DOORBELL_SET (R389). -/
def execDoorbellSet (fn : Nat) (object : BitVec 12) (value : Word) (short : Bool) (s : State) : Res :=
  .next (s.doorbell fn object.toNat .set value short)

/-- DOORBELL_ADD (R389). -/
def execDoorbellAdd (fn : Nat) (object : BitVec 12) (value : Word) (short : Bool) (s : State) : Res :=
  .next (s.doorbell fn object.toNat .add value short)

/-- DOORBELL_MAX (R389). -/
def execDoorbellMax (fn : Nat) (object : BitVec 12) (value : Word) (short : Bool) (s : State) : Res :=
  .next (s.doorbell fn object.toNat .max value short)

/-- DOORBELL_OR (R389). -/
def execDoorbellOr (fn : Nat) (object : BitVec 12) (value : Word) (short : Bool) (s : State) : Res :=
  .next (s.doorbell fn object.toNat .or value short)

/-- BAD_WRITE: a BAR2 access of a form R390 does not list: a write is dropped, a read returns 0. -/
def execBadWrite (fn : Nat) (read : Bool) (bytes : Nat) (s : State) : Res :=
  if s.pins.held || !s.fnExists fn then .next s
  else
    let s := s.flag F.SO_DB_STATUS_BAD_WRITE (s.fnPart fn)
    .next (if read then s.emit (.readData fn (List.replicate bytes 0)) else s.sat F.SO_DB_STATUS_COUNT (s.fnPart fn) 1)

end Sys2Proof.Machine
end

