-- ==== Sys2Proof/Machine/ChainCmd.lean ====
section
/-! DEFINITION. Commands of Carrier channels and completion rings, and notices that wait (sections 10.2, 10.7 to 10.9; R76,
R375, R440). -/

namespace Sys2Proof.Machine

/-- A function sees a lease instance's registers: the PF all of them, a VF its partition's (R384, R385). -/
def State.fnSees (s : State) (fn kind i : Nat) : Bool :=
  !s.pins.held && s.fnExists fn && (fn == 0 || ((s.lease kind i).state != 0 && (s.lease kind i).holder == s.fnPart fn))

/-- A channel a function may command: held by a partition that is served. -/
def State.fnChannel (s : State) (fn c : Nat) : Bool :=
  s.fnSees fn leaseChannel c && (s.lease leaseChannel c).state == 1 && s.served (s.lease leaseChannel c).holder &&
  s.meadowOn (c / 64)

/-- The channel is of pool CHAIN. -/
def State.isChain (s : State) (c : Nat) : Bool := s.rd F.CAR_CH_CFG_POOL c == 1

/-- The channel goes on from HALTED: records that waited are written first. -/
def State.goChain (s : State) (c : Nat) : State :=
  let s := (s.setChState c chRunning).wr F.CAR_CH_STATUS_CAUSE c 0
  let s := s.writeRecs ((s.chan c).recs.length + 1) c
  if s.chState c = chHalted then s
  else if (s.chan c).recs.isEmpty then s.endChain c
  else s.setChState c chWaitRing

/-- What waits to leave HALTED acts once every line of the channel is free (R374). -/
def State.leaveHalt (s : State) (c : Nat) : State :=
  if s.chState c ≠ chHalted ∨ s.chanReads c ≠ 0 ∨ !s.chainLive c then s
  else
    let x := s.chan c
    let fresh := { x with halted := none }
    if s.rdb F.CAR_CH_CTRL_RESUME c then
      let s := s.wr F.CAR_CH_CTRL_RESUME c 0
      match x.halted with
      | some (a, ws) =>
        if CD.w ws 7 = 512 then (s.setChan c { fresh with next := a, reading := true }).goChain c
        else ((s.setChan c { fresh with reading := false }).goChain c).takeDesc c a (some ws)
      | none => (s.setChan c fresh).goChain c
    else if s.rdb F.CAR_CH_CTRL_SKIP c then
      let s := s.wr F.CAR_CH_CTRL_SKIP c 0
      match x.halted with
      | some (_, ws) => (s.setChan c { fresh with next := CD.next ws, reading := CD.next ws != 0 }).goChain c
      | none => (s.setChan c fresh).goChain c
    else if s.rdb F.CAR_CH_CTRL_CLEAR c then
      let s := ((s.wr F.CAR_CH_CTRL_CLEAR c 0).setChan c ChanRec.idle).wr F.CAR_CH_CUR_ADDR c 0
      ((s.wr F.CAR_CH_STATUS_KICK_PENDING c 0).wr F.CAR_CH_STATUS_CAUSE c 0).setChState c chIdle
    else if s.rdb F.CAR_CH_CTRL_START c then
      let s := s.wr F.CAR_CH_CTRL_START c 0
      if x.headNew then
        (s.setChan c { ChanRec.idle with recs := x.recs, next := s.rd F.CAR_CH_HEAD_ADDR c, reading := true }).goChain c
      else s
    else s

/-- CHANNEL_START: a write of 1 to CAR_CH_CTRL.START (R358, R374). -/
def State.chStart (s : State) (c : Nat) : State :=
  if !s.isChain c then s
  else if s.chState c = chIdle then
    let s := s.setChan c { ChanRec.idle with next := s.rd F.CAR_CH_HEAD_ADDR c, reading := true }
    (s.wr F.CAR_CH_CUR_ADDR c (s.rd F.CAR_CH_HEAD_ADDR c)).goChain c
  else if s.chState c = chHalted then (s.wr F.CAR_CH_CTRL_START c 1).leaveHalt c
  else s

/-- KICK: a write of 1 to CAR_CH_CTRL.KICK (R358, Table 10-9). -/
def State.chKick (s : State) (c : Nat) : State :=
  if !s.isChain c then s
  else if s.chState c = chIdle then
    ((s.setChan c { s.chan c with reading := true, kickRead := true }).setChState c chRunning).readNext c
  else s.wr F.CAR_CH_STATUS_KICK_PENDING c 1

/-- The ERR_RING's message, without coalescing (R372). -/
def State.errRingIrq (s : State) (c p : Nat) : State :=
  let r := s.rd F.CAR_CH_CFG_ERR_RING c
  if s.holds leaseRing r p then s.ringIrq r else s

/-- A channel's ERR_RING and its epoch, where the partition holds it. -/
def State.errRing (s : State) (c p : Nat) : Nat × Option Nat :=
  let r := s.rd F.CAR_CH_CFG_ERR_RING c
  (r, if s.holds leaseRing r p then some (s.lease leaseRing r).epoch else none)

/-- Request bytes that have arrived before the first gap: what an item has moved (R371). -/
def Item.moved (it : Item) : Nat :=
  let n := ((List.range it.runs.length).takeWhile (fun k => it.got.testBit k)).length
  (it.runs.take n).foldl (fun a r => a + r.2) 0

/-- A plan item on a channel is stopped with a status (R371, R372, R376). -/
def State.stopItem (s : State) (id status : Nat) : State :=
  match s.item? id with
  | none => s
  | some it =>
    let size := s.itemBytes it
    let residue := if it.stage = .readback then 0 else size - min size it.moved
    s.failItem id status residue ErrAt.none

/-- ABORT: a write of 1 to CAR_CH_CTRL.ABORT (R372, R383). -/
def State.chAbort (s : State) (c : Nat) : State :=
  let p := (s.lease leaseChannel c).holder
  if s.isChain c then
    if s.chState c = chRunning ∨ (s.chState c = chWaitRing ∧ s.rd F.CAR_CH_STATUS_CAUSE c = 0) then
      let ids := (s.chan c).chain
      let head := (ids.head?).bind s.item?
      let s := ids.foldl (fun s i => s.stopDesc i 0x0001 2) s
      let s := s.haltChain c (if s.chState c = chHalted then 5 else 2)
        (head.map (fun it => (CD.addr it.words, it.words.take 8)))
      s.errRingIrq c p
    else if s.chState c = chWaitRing then s.wr F.CAR_CH_CTRL_ABORT c 1
    else s
  else
    let x := s.chan c
    let ids := x.active.toList ++ x.parked ++ x.queue
    let s := ids.foldl (fun s i => s.stopItem i 0x0001) s
    let s := s.addRec? c (recordOf c (s.errRing c p) 0x0001 ids.length 0 0 false true)
    (s.errRingIrq c p).pumpAll

/-- DESCRIPTOR_READ (R357 to R359). -/
def execDescriptorRead (channel : BitVec 8) (s : State) : Res :=
  .next (if s.chainLive channel.toNat then s.readNext channel.toNat else s)

/-- The Placer gives a stalled intake up: its record is RELEASED (R117). -/
def State.giveUp (s : State) (id : Nat) : State :=
  match s.item? id with
  | none => s
  | some it =>
    let p := it.part
    let s := s.setTile p it.obj it.tile { (s.tile p it.obj it.tile).homeless with disp := .drop, state := .released, uses := 0 }
    let s := (s.putItem { it with before := none }).endItem id 0x0002 (s.itemBytes it) ErrAt.none
    let s := match it.work with
      | .put conn txn .. => s.putOver it conn txn 0x0002
      | _ => s
    (s.flag F.PART_QUOTA_STATUS_STALL_TIMEOUT p).refreshStalled p

/-- An item's stall timer or wait expires: STALL_TIMEOUT (R117 to R119, R375). -/
def State.stallOut (s : State) (id : Nat) : State :=
  match s.item? id with
  | none => s
  | some it =>
    if it.stage = .stalled then s.giveUp id
    else match it.work with
      | .chain _ => s.stopDesc id 0x0002 0
      | .granule .. => (s.granAbandon id 0x0002).endGran id
      | .regrow => (s.stopItem id 0x0002).endRegrow it.part it.obj it.tile 0x0002
      | _ => s.stopItem id 0x0002

/-- CHANNEL_STALL_TIMEOUT (R375): of the record that waits for ring space, or of an item on the channel; one that is parked
or queued, or that waits for a notice ring, has its timer held. -/
def execChannelStallTimeout (channel : BitVec 8) (item : Option Nat) (s : State) : Res :=
  let c := channel.toNat
  if s.pins.held then .next s
  else match item with
  | none =>
    let full : Bool := match (s.chan c).recs.head? with
      | some r => s.rdb F.CAR_RING_CFG_EN r.ring && s.ringFull r.ring
      | none => false
    .next (if s.chState c = chWaitRing ∧ s.isChain c ∧ full then s.haltChain c 4 (s.chan c).halted else s)
  | some id => match s.item? id with
    | some it =>
      let active := if s.isChain c then (s.chan c).chain.head? == some id && s.chState c == chRunning
        else (s.chan c).active == some id
      .next (if it.channel = some c ∧ active ∧ it.ended.isNone ∧ it.stage ≠ .parked ∧ it.stage ≠ .placed ∧
          it.stage ≠ .notice then (s.stallOut id).flow else s)
    | none => .next s

/-- CHANNEL_START (R358, R374). -/
def execChannelStart (fn : Nat) (channel : BitVec 8) (s : State) : Res :=
  .next (if s.fnChannel fn channel.toNat then s.chStart channel.toNat else s)

/-- KICK (R358). -/
def execKick (fn : Nat) (channel : BitVec 8) (s : State) : Res :=
  .next (if s.fnChannel fn channel.toNat then s.chKick channel.toNat else s)

/-- ABORT (R372). -/
def execAbort (fn : Nat) (channel : BitVec 8) (s : State) : Res :=
  .next (if s.fnChannel fn channel.toNat then s.chAbort channel.toNat else s)

/-- A bit of CAR_CH_CTRL that acts on a HALTED channel once its lines are free (R374); in other states it does nothing. -/
def State.chHaltBit (s : State) (c : Nat) (f : Fld) : State :=
  if s.isChain c ∧ s.chState c = chHalted then (s.wr f c 1).leaveHalt c else s

/-- CHANNEL_RESUME (R374). -/
def execChannelResume (fn : Nat) (channel : BitVec 8) (s : State) : Res :=
  .next (if s.fnChannel fn channel.toNat then s.chHaltBit channel.toNat F.CAR_CH_CTRL_RESUME else s)

/-- SKIP (R374). -/
def execSkip (fn : Nat) (channel : BitVec 8) (s : State) : Res :=
  .next (if s.fnChannel fn channel.toNat then s.chHaltBit channel.toNat F.CAR_CH_CTRL_SKIP else s)

/-- CLEAR (R374). -/
def execClear (fn : Nat) (channel : BitVec 8) (s : State) : Res :=
  .next (if s.fnChannel fn channel.toNat then s.chHaltBit channel.toNat F.CAR_CH_CTRL_CLEAR else s)

/-- Channels whose records wait for a ring go on. -/
def State.ringRoom (s : State) (r : Nat) : State :=
  let cs := (s.chans.filter (fun e => e.2.recs.any (fun x => x.ring == r))).map (·.1)
  let s := s.wr F.CAR_RING_STATUS_FULL_WAIT r 0
  cs.foldl (fun s c => if s.chState c = chWaitRing then s.drainRecs c else s) s

/-- A write of CAR_RING_CFG (R385, Table 12-4): its fields, and the enable with its checks. -/
def State.ringCfg (s : State) (r : Nat) (v : Word) : State :=
  let was := s.rdb F.CAR_RING_CFG_EN r
  let put (s : State) (f : Fld) : State := s.wr f r (f.get v)
  let s := put (put (put (put s F.CAR_RING_CFG_LOG2) F.CAR_RING_CFG_COAL_COUNT) F.CAR_RING_CFG_COAL_US) F.CAR_RING_CFG_VECTOR
  let s := if F.CAR_RING_CFG_CFG_ERR.get v = 1 then s.wr F.CAR_RING_CFG_CFG_ERR r 0 else s
  if F.CAR_RING_CFG_EN.get v = 0 then s.wr F.CAR_RING_CFG_EN r 0
  else if was then s
  else
    let lg := s.rd F.CAR_RING_CFG_LOG2 r
    let base := s.rd F.CAR_RING_BASE_ADDR r * 32
    if lg < 6 ∨ 16 < lg ∨ base % max (32 * 2 ^ lg) 4096 ≠ 0 ∨ (s.rdb F.CAR_RING_BASE_HOST r ∧ !s.feature 20) then
      s.flag F.CAR_RING_CFG_CFG_ERR r
    else
      let s := ((s.wr F.CAR_RING_CFG_EN r 1).wr F.CAR_RING_PROD_COUNT r 0).wr F.CAR_RING_CONS_COUNT r 0
      (s.setRingRec r RingRec.idle).ringRoom r

/-- RING_ENABLE: a write of CAR_RING_CFG (R385). -/
def execRingEnable (fn : Nat) (ring : BitVec 9) (value : Word) (s : State) : Res :=
  .next (if s.fnSees fn leaseRing ring.toNat then s.ringCfg ring.toNat value else s)

/-- Write a function's held entries in order, while their rings take them (R454). `l` is what is still held. -/
def State.drainHeldList (fn : Nat) : Nat → State → List Held → State
  | 0, s, l => s.setHeld fn l
  | _ + 1, s, [] => s
  | f + 1, s, .message v :: t =>
    State.drainHeldList fn f ((s.setPba fn v false).emit (.msix fn v)) t
  | f + 1, s, .record r :: t => match s.putRecord r with
    | (.wait, s) => s.setHeld fn (.record r :: t)
    | (_, s) => State.drainHeldList fn f s t

/-- The held entries of a function that may master the bus again (R454); the rings with none held show PENDING 0. -/
def State.drainHeld (s : State) (fn : Nat) : State :=
  if !s.busMaster fn then s
  else
    let l := s.heldOf fn
    let s := State.drainHeldList fn (l.length + 1) (s.setHeld fn []) l
    let left := s.heldOf fn
    l.foldl (fun s h => match h with
      | .record r => if left.any (fun x => match x with
          | .record q => q.ring == r.ring
          | .message _ => false) then s else s.wr F.CAR_RING_STATUS_PENDING r.ring 0
      | .message _ => s) s

/-- A write of CAR_RING_CONS: a value that would make PROD - CONS exceed the ring is ignored (Table 10-11). -/
def State.ringCons (s : State) (r n : Nat) : State :=
  if (s.rd F.CAR_RING_PROD_COUNT r + 2 ^ 32 - n % 2 ^ 32) % 2 ^ 32 > 2 ^ s.rd F.CAR_RING_CFG_LOG2 r then s
  else ((s.wr F.CAR_RING_CONS_COUNT r n).drainHeld (s.fnOf (s.lease leaseRing r).holder)).ringRoom r

/-- RING_CONS_WRITE (R379, R385). -/
def execRingConsWrite (fn : Nat) (ring : BitVec 9) (count : BitVec 32) (s : State) : Res :=
  .next (if s.fnSees fn leaseRing ring.toNat then s.ringCons ring.toNat count.toNat else s)

/-- RING_COALESCE_TIMEOUT: COAL_US after the first record that has had no message (R380). -/
def execRingCoalesceTimeout (ring : BitVec 9) (s : State) : Res :=
  let r := ring.toNat
  .next (if !s.pins.held ∧ 0 < (s.ringRec r).since ∧ s.rd F.CAR_RING_CFG_COAL_US r ≠ 0 then s.ringIrq r else s)

/-- The RETURN tile whose notice a delivery has in hand. -/
def State.noticeTile (s : State) (it : Item) : Nat :=
  match it.work with
  | .lattice .. => (it.tiles.find? (fun t => (s.tile it.part it.obj t).disp == .ret &&
      (s.tile it.part it.obj t).state == .resident)).getD it.tile
  | _ => it.tile

/-- NOTICE_RING_RETRY: a notice that waits for ring space reads the consumer index from peer memory (R76). -/
def execNoticeRingRetry (item : Nat) (s : State) : Res :=
  match s.item? item with
  | some it =>
    if it.stage ≠ .notice ∨ !s.served it.part ∨ s.host.reads.any (fun e => !e.2.absorbed && e.2.use == .consumer item) then
      .next s
    else
      let port := s.peerPort it.peer
      let a := s.peerWord it.peer 4
      match s.portErr it.part port a with
      | some e => .next (s.endItem item e (s.itemBytes it) { addr := a, write := false, space := 1, peer := it.peer
                                                             desc := false }).flow
      | none => .next ((s.sendRead it.part port a 4 (it.urg == 0) (.consumer item) none).getD s)
  | none => .next s

/-- NOTICE_RESERVATION: the Meadow reservation before a write-back notice is tried again (R440). -/
def execNoticeReservation (item : Nat) (s : State) : Res :=
  match s.item? item with
  | some it =>
    if it.stage ≠ .noticeReserve ∨ !s.served it.part then .next s
    else .next (match it.work with
      | .notify => s.endNotify item
      | _ => s.startReturn item (s.noticeTile it)).flow
  | none => .next s

end Sys2Proof.Machine
end

