-- ==== Sys2Proof/Machine/ItemCmd.lean ====
section
/-! DEFINITION. Commands at which work items go on and end: stalls, commits, reservations, regrows, unit faults, the ends of
engine and Carrier work, arrivals (chapters 2, 3, 5, 7, 8 and 10). -/

namespace Sys2Proof.Machine

/-- STALL_RETRY: the stalled tiles of a partition and tier retry in the order in which they stalled (R117). -/
def execStallRetry (partition : BitVec 5) (tier : BitVec 2) (s : State) : Res :=
  .next (if s.served partition.toNat then (s.retryStalled partition.toNat tier.toNat).flow else s)

/-- The intake of a Courier PUT is over: HELD goes back, and the record stays IN_FLIGHT until CONFIRM (R497). -/
def State.endPut (s : State) (id : Nat) : State :=
  match s.item? id with
  | none => s
  | some it => match it.work, it.ended with
    | .put conn txn .., some (st, res) =>
      let p := it.part
      let s := s.finish id st res ErrAt.none
      let r := s.tile p it.obj it.tile
      let s := if st = 0 ∧ r.state ≠ .released then
          let s := s.setTile p it.obj it.tile { r with state := .inFlight }
          let x := s.conn conn
          s.setConn conn { x with held := x.held ++ [{ trans := txn, obj := it.obj, tile := it.tile }] }
        else s
      s.putOver it conn txn st
    | _, _ => s

/-- INTAKE_COMMIT (R54, R55, R257, R261, R319). -/
def execIntakeCommit (item : Nat) (s : State) : Res :=
  match s.item? item with
  | some it => .next (if !s.served it.part ∨ it.before.isNone then s
      else
        let s := s.intakeCommit item
        (if it.isPut then s.endPut item else s).flow)
  | none => .next s

/-- The status of a write error at a home (section 2.4). -/
def homeFault (h : Home) : Nat :=
  match h with
  | .heath => 0x0041
  | .moor => 0x0042
  | _ => 0x0040

/-- INTAKE_WRITE_FAULT: a write error before the commit (section 2.4, Faults). -/
def execIntakeWriteFault (item : Nat) (s : State) : Res :=
  match s.item? item with
  | some it => match it.resv with
    | some (h, k, _) =>
      if it.before.isNone ∨ it.ended.isSome ∨ !s.served it.part then .next s
      else
        let s := (s.tierFail it.part (homeFault h)).intakeFault item (homeFault h) (some k)
        .next (match it.work with
          | .put conn txn .. => s.putOver it conn txn (homeFault h)
          | _ => s).flow
    | none => .next s
  | none => .next s

/-- MIGRATION_RESERVE: a movement that waits obtains its destination (R118, R195, R274). -/
def execMigrationReserve (item : Nat) (s : State) : Res :=
  match s.item? item with
  | some it =>
    if it.stage ≠ .reserving ∨ !s.served it.part then .next s
    else .next (match it.work with
      | .granule .. => s.granReserve item
      | .regrow => s.regrowStart item
      | _ =>
        let s := s.reserveMove item
        match s.item? item with
        | some it =>
          if it.resv.isNone then s
          else match it.work with
            | .fetch _ => s.moorReads item [it.tile]
            | .move _ => (s.putItem { it with stage := .running }).moorReads item [it.tile]
            | _ => s
        | none => s).flow
  | none => .next s

/-- MIGRATION_COMMIT: one update of HOME, LOCATION and DISP, then the source is freed (R66, R304). -/
def execMigrationCommit (item : Nat) (s : State) : Res :=
  match s.item? item with
  | some it =>
    if !s.served it.part then .next s
    else .next (match it.work with
      | .spill _ => if it.begun then s.commitStored item else s
      | .fetch _ => if it.begun then s.commitStored item else s
      | .move _ => s.commitStored item
      | .press m e r => s.commitPress item m e r
      | .unpress => s.commitUnpress item
      | .granule .. => s.granCommit item
      | _ => s).flow
  | none => .next s

/-- An item waits without a channel for something the partition's wait timeout bounds (R119). -/
def Item.waitsFree (it : Item) : Bool :=
  it.channel.isNone && (it.stage == .stalled || it.stage == .reserving || it.stage == .noticeReserve)

/-- RESERVATION_WAIT_TIMEOUT: a wait that holds no channel reaches PART_WAIT_TMO (R118, R119). -/
def execReservationWaitTimeout (item : Nat) (s : State) : Res :=
  match s.item? item with
  | some it => .next (if it.waitsFree && s.served it.part then (s.stallOut item).flow else s)
  | none => .next s

/-- WATERMARK_DEMOTION (R307). -/
def execWatermarkDemotion (partition : BitVec 5) (heath : Bool) (s : State) : Res :=
  .next (if s.served partition.toNat then (s.watermark partition.toNat (b2n heath)).flow else s)

/-- REGROW_START (R271, R274). -/
def execRegrowStart (item : Nat) (s : State) : Res :=
  match s.item? item with
  | some it => .next (if it.work = .regrow ∧ it.resv.isNone ∧ it.ended.isNone ∧ it.stage ≠ .gated ∧ s.served it.part then
      (s.regrowStart item).flow else s)
  | none => .next s

/-- REGROW_COMMIT (R63, R269, R274). -/
def execRegrowCommit (item : Nat) (s : State) : Res :=
  match s.item? item with
  | some it => .next (if it.work = .regrow ∧ s.served it.part then (s.regrowCommit item).flow else s)
  | none => .next s

/-- What a unit's fault does to one item on it (section 7.4 Faults, section 7.7 Faults, Table 7-5). -/
def State.unitFaultItem (s : State) (id : Nat) : State :=
  match s.item? id with
  | none => s
  | some it => match it.work with
    | .regrow =>
      if 0 < it.faults then (s.stopItem id 0x0061).endRegrow it.part it.obj it.tile 0x0061
      else
        let s := it.ctxs.foldl (fun s x => s.freeCtx (s.itemBytes it / 1024) x.1) s
        s.putItem { it with ctxs := [], faults := 1 }
    | _ => s.putItem { it with faults := it.faults + 1 }

/-- ENGINE_UNIT_FAULT: an internal parity error takes a unit offline (R245, R272). -/
def execEngineUnitFault (tedder : Bool) (unit : BitVec 5) (s : State) : Res :=
  let u := unit.toNat
  if s.pins.held ∨ (tedder ∧ 16 ≤ u) then .next s
  else
    let s := if tedder then (s.wr F.TED_UNIT_STATUS_ONLINE u 0).wr F.TED_UNIT_STATUS_FAULT u 1
      else (s.wr F.BAL_UNIT_STATUS_ONLINE u 0).wr F.BAL_UNIT_STATUS_FAULT u 1
    let base := (if tedder then 128 else 0) + 4 * u
    let ids := (s.items.filter (fun e => e.2.ctxs.any (fun x => decide (base ≤ x.1) && decide (x.1 < base + 4)))).map (·.1)
    .next (ids.foldl (fun s i => s.unitFaultItem i) s).flow

/-- A regrow that has committed ends; deliveries that waited for it go on (R274). -/
def State.endRegrowItem (s : State) (id : Nat) : State :=
  match s.item? id with
  | none => s
  | some it => match it.ended with
    | some (st, res) =>
      ((s.endItem id st res ErrAt.none).endRegrow it.part it.obj it.tile st).requeueWaiters it.part it.obj it.tile
    | none => s

/-- WORK_ITEM_END: engine work that needs no channel ends (R143). -/
def execWorkItemEnd (item : Nat) (s : State) : Res :=
  match s.item? item with
  | some it =>
    if !s.served it.part ∨ it.stage = .gated ∨ it.stage = .queued ∧ !it.started then .next s
    else .next (match it.work with
      | .press .. => s.endEnded item
      | .unpress => s.endEnded item
      | .move _ => s.endEnded item
      | .granule .. => if it.ended.isSome then s.endGran item else s
      | .regrow => s.endRegrowItem item
      | .teddOp op param => s.endTedd item op param
      | .layout perm => s.endCopy item perm
      | .notify => if it.stage = Stage.notice ∨ it.stage = Stage.noticeReserve then s else s.endNotify item
      | .put .. => s.endPut item
      | _ => s).flow
  | none => .next s

/-- The end of a MOVE INTAKE (R54, R192, R371). -/
def State.endIntake (s : State) (id : Nat) : State :=
  match s.item? id with
  | none => s
  | some it => match it.ended with
    | some (st, res) => s.endItem id st res ErrAt.none
    | none => match it.bad with
      | some (k, st) =>
        let size := s.itemBytes it
        if it.laid.isSome then s.intakeFault id st (it.resv.map (fun x => x.2.1))
        else if it.arrived then
          s.failItem id st (size - min size it.moved)
            { addr := (it.runs.getD k (0, 0)).1, write := false, space := 1, peer := it.peer, desc := false }
        else s
      | none => s

/-- CARRIER_ITEM_END: the last write, the read-back, the completion, the signal, the interrupt (R370). -/
def execCarrierItemEnd (item : Nat) (s : State) : Res :=
  match s.item? item with
  | some it =>
    if !s.served it.part ∨ (it.stage ≠ .running ∧ it.ended.isNone) ∨ it.channel.isNone then .next s
    else .next (match it.work with
      | .chain _ => s.endChainItem item
      | .intake .. => s.endIntake item
      | .copy => s.endCopy item 0x4688
      | .deliver rb => s.endDeliver item rb
      | .lattice _ rb => s.endLattice item rb
      | .spill _ => s.endEnded item
      | .fetch _ => s.endEnded item
      | _ => s).flow
  | none => .next s

/-- ITEM_ARRIVAL: an item that is released, or that can go on, reaches its front and its channel (R353, R366, R367). -/
def execItemArrival (item : Nat) (s : State) : Res :=
  match s.item? item with
  | some it =>
    if !s.served it.part then .next s
    else if it.stage = .queued ∧ it.channel.isNone ∧ (!it.started ∨ it.work.onCarrier) then
      .next (match it.work with
        | .move _ => s.startMove item
        | .granule .. => s.granReserve item
        | .chain _ => s
        | _ => s.arrive item).flow
    else if it.channel.isNone ∧ it.started ∧ it.work.onCarrier ∧ it.stage.waits then .next (s.placeItem item).flow
    else .next s
  | none => .next s

end Sys2Proof.Machine
end

