-- ==== Sys2Proof/Machine/DtuCmd.lean ====
section
/-! DEFINITION. Quotas, and the DTU's commands: mapping, protection, hints, migration, translation pins (R110 to R120, R291,
sections 8.3 to 8.5). -/

namespace Sys2Proof.Machine

/-- The sum of a quota over the partitions, with `p`'s at `v`. -/
def State.quotaSum (s : State) (tier p v : Nat) : Nat :=
  (List.range 32).foldl (fun a q => a + (if q = p then v else s.quotaUnits q tier)) 0

/-- Assignable capacity of a tier in bytes (R111). Before READY nothing is online or mapped yet, so a start value of a
quota is measured against the populated stacks and the 8 TB that Heath may have (DESIGN CHOICE, log entry 42). -/
def State.assignable (s : State) (tier : Nat) : Nat :=
  let early := !s.rdb F.SYS_START_STATUS_READY 0
  match tier with
  | 0 => if early then popcount 8 s.variant.sites * 48 * gib - 4 * gib else s.meadowAssignable
  | 1 => if early then 8192 * gib else s.rd F.TIER_HEATH_MAPPED_BYTES 0
  | _ => s.rd F.TIER_CAP_MOOR_BYTES 0

def quotaFld (tier : Nat) : Fld :=
  match tier with
  | 0 => F.TIER_QUOTA_MEADOW_UNITS
  | 1 => F.TIER_QUOTA_HEATH_UNITS
  | _ => F.TIER_QUOTA_MOOR_UNITS

/-- A PF write of a tier quota (R111, R117). A load in VERIFYING keeps its snapshot and notes the change (Table 3-7). -/
def State.quotaWrite (s : State) (p tier v : Nat) : State :=
  let v := v % 2 ^ 32
  let was := s.quotaUnits p tier
  if was < v ∧ s.assignable tier < s.quotaSum tier p v * 65536 then s.flag F.TIER_QUOTA_ERR_OVERCOMMIT 0
  else
    let s := s.wr (quotaFld tier) p v
    let s := match (s.plan p).load with
      | some l => if was = v then s else s.setPlan p { s.plan p with load := some { l with changed := true } }
      | none => s
    if was < v then
      let s := s.retryStalled p tier
      (if 0 < tier then s.retryStalled p (tier - 1) else s).flow
    else s

/-- QUOTA_WRITE: tier 0 Meadow, 1 Heath, 2 Moor (R111, R114). -/
def execQuotaWrite (partition : BitVec 5) (tier : BitVec 2) (units : BitVec 32) (s : State) : Res :=
  .next (if s.pins.held ∨ tier = 3 then s else s.quotaWrite partition.toNat tier.toNat units.toNat)

/-- Capacity has fallen: CAPACITY_LOST where the quotas exceed it (section 3.7, Faults). -/
def State.capacityCheck (s : State) (tier : Nat) : State :=
  if s.assignable tier < s.quotaSum tier 32 0 * 65536 then s.flag F.TIER_QUOTA_ERR_CAPACITY_LOST 0 else s

/-- A write of PART_QUOTA_SO (R120). -/
def State.quotaSoWrite (s : State) (p : Nat) (v : Word) : State :=
  if F.PART_QUOTA_SO_EN.get v = 1 ∧ !s.soInRange p (F.PART_QUOTA_SO_SO.get v) then s.flag F.PART_QUOTA_STATUS_SO_ERR p
  else (s.wr F.PART_QUOTA_SO_SO p (F.PART_QUOTA_SO_SO.get v)).wr F.PART_QUOTA_SO_EN p (F.PART_QUOTA_SO_EN.get v)

/-- PART_QUOTA_SO_WRITE (R120). -/
def execPartQuotaSoWrite (partition : BitVec 5) (value : Word) (s : State) : Res :=
  .next (if s.pins.held then s else s.quotaSoWrite partition.toNat value)

/-- A PF write of DTU_PIN_QUOTA (section 8.2, Edges). -/
def State.pinQuotaWrite (s : State) (p v : Nat) : State :=
  let sum := (List.range 32).foldl (fun a q => a + (if q = p then v else s.rd F.DTU_PIN_QUOTA_PAGES q)) 0
  if s.rd F.DTU_PIN_QUOTA_PAGES p < v ∧ 512 < sum then s.flag F.TIER_QUOTA_ERR_OVERCOMMIT 0
  else s.wr F.DTU_PIN_QUOTA_PAGES p v

/-- DTU_PIN_QUOTA_WRITE. -/
def execDtuPinQuotaWrite (partition : BitVec 5) (pages : BitVec 10) (s : State) : Res :=
  .next (if s.pins.held then s else s.pinQuotaWrite partition.toNat pages.toNat)

/-- Fields of a DTU command's word 0 (R296). -/
def Dtu.op (w : Nat) : Nat := bitsOf w 0 8
def Dtu.write (w : Nat) : Bool := w.testBit 8
def Dtu.tier (w : Nat) : Nat := bitsOf w 9 2
def Dtu.policy (w : Nat) : Nat := bitsOf w 11 2
def Dtu.fixed (w : Nat) : Nat := bitsOf w 13 2
def Dtu.hint (w : Nat) : Nat := bitsOf w 15 3

/-- The command word names no command (BAD_CMD, Table 8-7). -/
def Dtu.bad (w : Nat) : Bool :=
  Dtu.op w == 0 || decide (7 < Dtu.op w) || w / 2 ^ 18 != 0 || Dtu.policy w == 3 || decide (5 < Dtu.hint w) ||
  (Dtu.op w == 5 && Dtu.tier w == 0)

/-- The unit of a command (R296). -/
def Dtu.unit (w : Nat) : Nat := if Dtu.op w = 5 then 65536 else 2 ^ 21

/-- Pages of a range, by their first addresses. -/
def pagesOf (va n : Nat) : List Nat :=
  (List.range ((va % 2 ^ 21 + n + 2 ^ 21 - 1) / 2 ^ 21)).map (fun i => va / 2 ^ 21 * 2 ^ 21 + i * 2 ^ 21)

/-- Granules of a range, by their first addresses. -/
def granAddrs (va n : Nat) : List Nat := (List.range (n / 65536)).map (fun i => va + i * 65536)

/-- A tier whose every port or target is DOWN or LOST; a tier with none is merely empty. -/
def State.tierDown (s : State) (h : Home) : Bool :=
  match h with
  | .heath =>
    let l := (List.range 8).filter (fun n => s.regions.any (fun r => r.1 == n))
    !l.isEmpty && l.all (fun n => s.heathState n != 0)
  | .moor =>
    let l := (List.range 16).filter (fun t => s.rd F.TIER_MOOR_TGT_KIND t == 1 || s.rd F.TIER_MOOR_TGT_KIND t == 2)
    !l.isEmpty && l.all (fun t => !s.moorUp t)
  | _ => false

/-- A page no command but PIN_XLATE and UNPIN_XLATE may touch (Table 8-7 PROTECTED). -/
def PageEnt.guarded (e : PageEnt) : Bool := e.plan || e.records || e.code || e.stream != 0

/-- Pages of the range that are mapped and not pinned, or pinned, as `b` says. -/
def State.pinCount (s : State) (p : Nat) (ps : List Nat) (b : Bool) : Nat :=
  (ps.filter (fun v => match s.page? p v with
    | some e => e.pinned == b
    | none => false)).length

/-- The result of a command's checks; 0 where they pass (Table 8-7, in the order of log entry 23). -/
def State.dtuCheck (s : State) (p w va n : Nat) : Nat :=
  let u := Dtu.unit w
  let ps := pagesOf va n
  let mapped (v : Nat) := (s.page? p v).isSome
  let guarded (v : Nat) := match s.page? p v with
    | some e => e.guarded
    | none => false
  if Dtu.bad w then 9
  else if va % u ≠ 0 ∨ n % u ≠ 0 ∨ n = 0 ∨ 2 ^ 40 < n ∨ 2 ^ 57 < va + n then 1
  else if Dtu.op w = 1 ∧ ps.any mapped then 2
  else if Dtu.op w ≠ 1 ∧ !ps.all mapped then 3
  else if 2 ≤ Dtu.op w ∧ Dtu.op w ≤ 5 ∧ ps.any guarded then 6
  else if (Dtu.op w = 1 ∨ Dtu.op w = 5) ∧ s.tierDown (Home.ofCode (Dtu.tier w)) then 8
  else if Dtu.op w = 1 ∧ 2097152 < s.pages.length + ps.length then 5
  else if Dtu.op w = 6 ∧ s.rd F.DTU_PIN_QUOTA_PAGES p < s.rd F.DTU_PIN_USED_PAGES p + s.pinCount p ps false then 7
  else 0

/-- Place one granule of a MAP: the named tier, or each tier in turn (R298, R299). -/
def State.mapGranule (s : State) (p w va g : Nat) : Option State :=
  let die := s.policyDie (Dtu.policy w) (Dtu.fixed w) g
  let hs := if Dtu.tier w = 0 then [Home.meadow, Home.heath, Home.moor] else [Home.ofCode (Dtu.tier w)]
  hs.findSome? (fun h => match s.reserve p h die 65536 65536 (.granule va) with
    | some (k, s) => some (s.putGranule p va (granuleAt k true))
    | none => none)

/-- Place the granules of a MAP one at a time in ascending order; `none` where one cannot be placed (R298). -/
def State.mapGranules (p w : Nat) : List Nat → Nat → State → Option State
  | [], _, s => some s
  | va :: t, g, s => match s.mapGranule p w va g with
    | some s => State.mapGranules p w t (g + 1) s
    | none => none

/-- Rewrite the page entries of a range. -/
def State.eachPage (s : State) (p : Nat) (ps : List Nat) (f : PageEnt → PageEnt) : State :=
  ps.foldl (fun s v => match s.page? p v with
    | some e => s.putPage p v (f e)
    | none => s) s

/-- The movement of one granule a hint asks for (Table 8-8): its target and class. -/
def State.hintMove (s : State) (p code : Nat) (g : Granule) : Option (Home × Nat) :=
  let low := s.occupancy p 0 < s.wmarkAt p 0 (s.rd F.TIER_WMARK_MEADOW_LO p)
  match code, g.home with
  | 1, .meadow => none
  | 1, _ => if low then some (.meadow, 3) else none
  | 2, .meadow => some (.heath, 3)
  | 3, .meadow => none
  | 3, _ => some (.meadow, 2)
  | 4, .meadow => some (.heath, 3)
  | 4, .heath => some (.moor, 3)
  | _, _ => none

/-- The movements of a hint over granules (R301). -/
def State.hintGranules (s : State) (p code : Nat) (vs : List Nat) : State :=
  vs.foldl (fun s v => match s.granule? p v with
    | some g => match s.hintMove p code g with
      | some (h, u) => if g.lost then s else s.addGranule p v h .hint u s.time
      | none => s
    | none => s) s

/-- A hint takes effect on a range (R301, Table 8-8). -/
def State.applyHint (s : State) (p va n code : Nat) : State :=
  let s := s.eachPage p (pagesOf va n) (fun e => { e with hint := code, nomove := code == 5 })
  s.hintGranules p code (granAddrs va n)

/-- A granule of an unmapped page goes: its movement stops, its run is freed, its pins drop (Table 8-9, R340). -/
def State.unmapGranule (s : State) (p va : Nat) : State :=
  let ids := (s.items.filter (fun e => e.2.part == p && (match e.2.work with
    | .granule a _ => a / 65536 == va / 65536
    | _ => false))).map (·.1)
  let s := ids.foldl (fun s i => s.withdraw i) s
  match s.granule? p va with
  | none => s
  | some g =>
    let s := if g.lost then s else ((s.unpinUnit p g).uncharge p g.home.tier 65536).freeRun g.key .normal
    { s with granules := Tab.erase s.granules (p * 2 ^ 41 + va / 2 ^ 16) }

/-- UNMAP of a range that its checks admit (R297). -/
def State.unmapRange (s : State) (p va n : Nat) : State :=
  let ps := pagesOf va n
  let pinned := s.pinCount p ps true
  let s := (granAddrs va n).foldl (fun s v => s.unmapGranule p v) s
  let s := ps.foldl (fun (s : State) v => { s with pages := Tab.erase s.pages (p * 2 ^ 36 + v / 2 ^ 21) }) s
  let s := s.wr F.DTU_PIN_USED_PAGES p (s.rd F.DTU_PIN_USED_PAGES p - pinned)
  if s.pages.any (fun e => e.1 / 2 ^ 36 == p) then s else s.wr F.DTU_ROOT_DPA p 0

/-- The die that holds a partition's translation tables (R689). -/
def State.tableDie (s : State) (p : Nat) : Nat :=
  let l := (List.range 4).filter (fun n => s.boot.startDies.testBit n)
  l.getD (p % max l.length 1) 0

/-- DTU_ROOT of a partition that has pages: on its table die, at a place the device chooses (R286, R689). -/
def State.openRoot (s : State) (p : Nat) : State :=
  if s.rd F.DTU_ROOT_DPA p ≠ 0 then s
  else
    let (x, s) := s.freeWord
    s.wr F.DTU_ROOT_DPA p (s.tableDie p * 2 ^ 39 + x.toNat % 2 ^ 27 * 4096)

/-- MAP of a range that its checks admit (R297 to R299). -/
def State.mapRange (s : State) (p w va n : Nat) : Option State :=
  match State.mapGranules p w (granAddrs va n) 0 s with
  | none => none
  | some s =>
    let e : PageEnt := { write := Dtu.write w, nomove := false, records := false, code := false, stream := 0
                         tier := Dtu.tier w, diePolicy := Dtu.policy w, fixedDie := Dtu.fixed w, hint := 0, plan := false
                         pinned := false }
    let s := (pagesOf va n).foldl (fun s v => s.putPage p v e) s
    some ((s.openRoot p).applyHint p va n (Dtu.hint w))

/-- A command ends: DONE, its result, its log entry (R293, R303). -/
def State.dtuDone (s : State) (set p result units : Nat) : State :=
  let s := ((s.wr F.DTU_CMD_STATUS_RESULT set result).wr F.DTU_CMD_STATUS_UNITS_NOT_DONE set units).flag
    F.DTU_CMD_STATUS_DONE set
  let s := s.wr F.DTU_CMD_CTRL_GO set 0
  let s := s.irq p 4
  if result = 0 then s else s.dtuFault p 5 4 (s.rd F.DTU_CMD1_WORD set) false

/-- The granules a MIGRATE has to move. -/
def State.migrateRange (s : State) (set p va n : Nat) (h : Home) : State :=
  let s := { s with migs := Tab.put s.migs set { quota := 0, other := 0 } }
  (granAddrs va n).foldl (fun s v => match s.granule? p v with
    | some g => if g.home = h ∧ !g.lost then s else s.addGranule p v h (.migrate set) 2 s.time
    | none => s) s

/-- Run the command of a set. -/
def State.dtuExec (s : State) (set : Nat) : State :=
  let p := set / 2
  let w := s.rd F.DTU_CMD0_WORD set
  let va := s.rd F.DTU_CMD1_WORD set
  let n := s.rd F.DTU_CMD2_WORD set
  match s.dtuCheck p w va n with
  | 0 =>
    match Dtu.op w with
    | 1 => match s.mapRange p w va n with
      | some s => s.dtuDone set p 0 0
      | none => s.dtuDone set p 4 0
    | 2 => (s.unmapRange p va n).dtuDone set p 0 0
    | 3 => (s.eachPage p (pagesOf va n) (fun e => { e with write := Dtu.write w })).dtuDone set p 0 0
    | 4 => (s.applyHint p va n (Dtu.hint w)).dtuDone set p 0 0
    | 5 => s.migrateRange set p va n (Home.ofCode (Dtu.tier w))
    | 6 =>
      let k := s.pinCount p (pagesOf va n) false
      ((s.eachPage p (pagesOf va n) (fun e => { e with pinned := true })).wr F.DTU_PIN_USED_PAGES p
        (s.rd F.DTU_PIN_USED_PAGES p + k)).dtuDone set p 0 0
    | _ =>
      let k := s.pinCount p (pagesOf va n) true
      ((s.eachPage p (pagesOf va n) (fun e => { e with pinned := false })).wr F.DTU_PIN_USED_PAGES p
        (s.rd F.DTU_PIN_USED_PAGES p - k)).dtuDone set p 0 0
  | r => s.dtuDone set p r 0

/-- The other set of the partition. -/
def otherSet (set : Nat) : Nat := if set % 2 = 0 then set + 1 else set - 1

/-- The set's command runs: only a MIGRATE does so beyond its own step. -/
def State.dtuRunning (s : State) (set : Nat) : Bool := (Tab.find? s.migs set).isSome

/-- A command that waited behind the other set's starts (R296). -/
def State.dtuNext (s : State) (set : Nat) : State :=
  let o := otherSet set
  if s.rdb F.DTU_CMD_CTRL_GO o && !s.dtuRunning o && !s.dtuRunning set then s.dtuExec o else s

/-- A write of 1 to DTU_CMD_CTRL.GO (R296). -/
def State.dtuGo (s : State) (set : Nat) : State :=
  if s.rdb F.DTU_CMD_CTRL_GO set then s.flag F.DTU_CMD_STATUS_BUSY_REFUSED set
  else
    let s := s.wr F.DTU_CMD_CTRL_GO set 1
    if s.dtuRunning (otherSet set) then s else (s.dtuExec set).flow

/-- The function that owns a command set exists and its partition is served: set `2 p` is VF p's (the PF's for partition
0), set `2 p + 1` the PF's window p (R296, R342). -/
def State.setOpen (s : State) (set : Nat) : Bool :=
  s.served (set / 2) && (if set % 2 = 0 then s.fnExists (set / 2) else set != 1)

/-- A DTU command: its words are written, then GO. The row's operation stands in word 0. -/
def State.dtuCommand (s : State) (set op : Nat) (c0 c1 c2 : Word) : State :=
  if !s.setOpen set then s
  else if s.rdb F.DTU_CMD_CTRL_GO set then s.flag F.DTU_CMD_STATUS_BUSY_REFUSED set
  else
    let s := s.wr F.DTU_CMD0_WORD set (c0.toNat / 256 * 256 + op)
    ((s.setReg Reg.DTU_CMD1 set c1).setReg Reg.DTU_CMD2 set c2).dtuGo set

/-- MAP (R297 to R299). -/
def execMap (set : BitVec 6) (cmd0 cmd1 cmd2 : Word) (s : State) : Res := .next (s.dtuCommand set.toNat 1 cmd0 cmd1 cmd2)

/-- UNMAP (R297). -/
def execUnmap (set : BitVec 6) (cmd0 cmd1 cmd2 : Word) (s : State) : Res := .next (s.dtuCommand set.toNat 2 cmd0 cmd1 cmd2)

/-- PROTECT (R297). -/
def execProtect (set : BitVec 6) (cmd0 cmd1 cmd2 : Word) (s : State) : Res :=
  .next (s.dtuCommand set.toNat 3 cmd0 cmd1 cmd2)

/-- HINT (R297, R301). -/
def execHint (set : BitVec 6) (cmd0 cmd1 cmd2 : Word) (s : State) : Res := .next (s.dtuCommand set.toNat 4 cmd0 cmd1 cmd2)

/-- MIGRATE (R297, R300). -/
def execMigrate (set : BitVec 6) (cmd0 cmd1 cmd2 : Word) (s : State) : Res :=
  .next (s.dtuCommand set.toNat 5 cmd0 cmd1 cmd2)

/-- MIGRATE_COMPLETE: every granule is committed or refused (R300, R302). -/
def execMigrateComplete (set : BitVec 6) (s : State) : Res :=
  let k := set.toNat
  match Tab.find? s.migs k with
  | none => .next s
  | some m =>
    if s.items.any (fun e => e.2.part == k / 2 && e.2.origin == .migrate k) ∨ !s.served (k / 2) then .next s
    else
      let s := { s with migs := Tab.erase s.migs k }
      .next (((s.dtuDone k (k / 2) (if 0 < m.quota then 4 else if 0 < m.other then 10 else 0) (m.quota + m.other)).dtuNext
        k).flow)

/-- PIN_XLATE (R297). -/
def execPinXlate (set : BitVec 6) (cmd0 cmd1 cmd2 : Word) (s : State) : Res :=
  .next (s.dtuCommand set.toNat 6 cmd0 cmd1 cmd2)

/-- UNPIN_XLATE (R297). -/
def execUnpinXlate (set : BitVec 6) (cmd0 cmd1 cmd2 : Word) (s : State) : Res :=
  .next (s.dtuCommand set.toNat 7 cmd0 cmd1 cmd2)

/-- BLOCKS of a target, clamped to the namespace of the set it names (section 13.3, Edges). -/
def State.nsClamp (s : State) (kind set blocks : Nat) : Nat :=
  match Tab.find? s.eth.ns set with
  | some x => if kind = 1 then min blocks x.blocks else blocks
  | none => blocks

/-- A PF write of a Moor target's configuration (R285). -/
def State.moorTgtWrite (s : State) (t : Nat) (v : Word) : State :=
  if s.space.any (fun e => homeOf e.1 == .moor && moorTarget e.1 == t) then s
  else ((s.wr F.TIER_MOOR_TGT_KIND t (F.TIER_MOOR_TGT_KIND.get v)).wr F.TIER_MOOR_TGT_CONN t (F.TIER_MOOR_TGT_CONN.get v)).wr
    F.TIER_MOOR_TGT_BLOCKS t (s.nsClamp (F.TIER_MOOR_TGT_KIND.get v) (F.TIER_MOOR_TGT_CONN.get v) (F.TIER_MOOR_TGT_BLOCKS.get v))

/-- TIER_MOOR_TGT_WRITE (R285). -/
def execTierMoorTgtWrite (target : BitVec 4) (value : Word) (s : State) : Res :=
  .next (if s.pins.held then s else s.moorTgtWrite target.toNat value)

end Sys2Proof.Machine
end

