-- ==== Sys2Proof/Machine/Stream.lean ====
section
/-! DEFINITION. Weight windows and prefetch streams, and the events of the lower tiers (sections 8.6 to 8.8). -/

namespace Sys2Proof.Machine

/-- The members of a window's wanted set, in order: slice and position (R310, R311). -/
def State.wanted (s : State) (i v : Nat) : List (Nat × Nat) :=
  (List.range (s.rd F.TIER_STRM_CFG_DEPTH i)).map (fun j =>
    (winLayer (s.rd F.TIER_STRM_CFG_ORDER i) (s.rd F.TIER_STRM_CFG_LAYERS i) (v + j), j))

/-- The layer of a window a granule lies in. -/
def State.winSlice (s : State) (i va : Nat) : Nat :=
  (va - s.rd F.TIER_STRM_BASE_ADDR i) / max (s.rd F.TIER_STRM_SIZE_VALUE i) 1

/-- A movement of the granule for the stream is under way or waits. -/
def State.winMoving (s : State) (i va : Nat) : Bool :=
  s.items.any (fun e => e.2.part == i / 8 && e.2.origin == .stream (i % 8) && e.2.ended.isNone && (match e.2.work with
    | .granule a _ => a == va
    | _ => false))

/-- Promotions of the window whose slice is wanted no longer are abandoned (R311). -/
def State.winAbandon (s : State) (i : Nat) (ws : List (Nat × Nat)) : State :=
  let ids := (s.items.filter (fun e => e.2.part == i / 8 && e.2.origin == .stream (i % 8) && e.2.ended.isNone &&
    (match e.2.work with
      | .granule a h => h == .meadow && !ws.any (fun x => x.1 == s.winSlice i a)
      | _ => false))).map (·.1)
  ids.foldl (fun s id => match s.item? id with
    | some it =>
      let r := Tab.get StreamRec.idle s.streams i
      let s := { s with streams := Tab.set StreamRec.idle s.streams i { r with items := r.items.filter (· != id) } }
      (s.withdraw id).leaveGran it
    | none => s) s

/-- Reconcile a window (R311, R312). -/
def State.reconcile (s : State) (i : Nat) : State :=
  let p := i / 8
  let t := s.time
  let v := (s.soVal (s.rd F.TIER_STRM_SO_PROGRESS i)).toNat
  let base := s.rd F.TIER_STRM_BASE_ADDR i
  let slice := s.rd F.TIER_STRM_SIZE_VALUE i
  let ws := s.wanted i v
  let back := Home.ofCode (s.rd F.TIER_STRM_CFG_BACKING i)
  let s := (s.wr F.TIER_STRM_POS_VALUE i v).winAbandon i ws
  let s := ws.foldl (fun s x => (granAddrs (base + x.1 * slice) slice).foldl (fun s a =>
    match s.granule? p a with
    | some g => if g.home = .meadow ∨ s.winMoving i a then s
        else s.addGranule p a .meadow (.stream (i % 8)) 1 (t + x.2 * s.rd F.TIER_STRM_TIME_NS i)
    | none => s) s) s
  let s := (granAddrs base (s.rd F.TIER_STRM_CFG_LAYERS i * slice)).foldl (fun s a =>
    match s.granule? p a with
    | some g => if g.home = .meadow ∧ !ws.any (fun x => x.1 == s.winSlice i a) ∧ !s.winMoving i a then
        s.addGranule p a back (.stream (i % 8)) 3 t else s
    | none => s) s
  s.winReady i

/-- The checks of a window's enable (R309). The ready object is checked where READY_EN uses it (DEDUCED, log entry 24). -/
def State.winOk (s : State) (i : Nat) : Bool :=
  let p := i / 8
  let base := s.rd F.TIER_STRM_BASE_ADDR i
  let slice := s.rd F.TIER_STRM_SIZE_VALUE i
  let layers := s.rd F.TIER_STRM_CFG_LAYERS i
  let back := s.rd F.TIER_STRM_CFG_BACKING i
  base % 65536 == 0 && slice % 65536 == 0 && decide (1 ≤ layers) && decide (1 ≤ s.rd F.TIER_STRM_CFG_DEPTH i) &&
  (back == 2 || back == 3) && s.soInRange p (s.rd F.TIER_STRM_SO_PROGRESS i) &&
  (!s.rdb F.TIER_STRM_SO_READY_EN i || s.soInRange p (s.rd F.TIER_STRM_SO_READY i)) &&
  decide (base + layers * slice ≤ 2 ^ 57) &&
  (pagesOf base (layers * slice)).all (fun a => match s.page? p a with
    | some e => !e.nomove && !e.guarded
    | none => false)

/-- The checks of a prefetch stream's enable (R315). -/
def State.preOk (s : State) (i : Nat) : Bool :=
  s.rd F.TIER_STRM_BASE_ADDR i % 32 == 0 && decide (1 ≤ s.rd F.TIER_STRM_SIZE_VALUE i) &&
  s.soInRange (i / 8) (s.rd F.TIER_STRM_SO_PROGRESS i)

/-- The fields of TIER_STRM_CFG but EN take a write's values. -/
def State.strmFields (s : State) (i : Nat) (v : Word) : State :=
  let put (s : State) (f : Fld) : State := s.wr f i (f.get v)
  put (put (put (put (put (put s F.TIER_STRM_CFG_KIND) F.TIER_STRM_CFG_ORDER) F.TIER_STRM_CFG_DEPTH)
    F.TIER_STRM_CFG_BACKING) F.TIER_STRM_CFG_OUTSTANDING) F.TIER_STRM_CFG_LAYERS

/-- A write of TIER_STRM_CFG (R309, R313, R315, Table 12-4). -/
def State.strmCfg (s : State) (i : Nat) (v : Word) : State :=
  let p := i / 8
  if s.rdb F.TIER_STRM_CFG_EN i then
    if F.TIER_STRM_CFG_EN.get v = 1 then s else s.stopStream i false
  else
    let s := s.strmFields i v
    if F.TIER_STRM_CFG_EN.get v = 0 then s
    else if !s.feature 18 then s.flag F.TIER_STRM_STATUS_CFG_ERR i
    else if s.rd F.TIER_STRM_CFG_KIND i = 0 then
      if s.winOk i then
        let ps := pagesOf (s.rd F.TIER_STRM_BASE_ADDR i) (s.rd F.TIER_STRM_CFG_LAYERS i * s.rd F.TIER_STRM_SIZE_VALUE i)
        let s := s.eachPage p ps (fun e => { e with stream := i % 8 + 1 })
        ((s.wr F.TIER_STRM_CFG_EN i 1).reconcile i).flow
      else s.flag F.TIER_STRM_STATUS_CFG_ERR i
    else if s.preOk i then (s.wr F.TIER_STRM_CFG_EN i 1).wr F.TIER_STRM_POS_VALUE i 0
    else s.flag F.TIER_STRM_STATUS_CFG_ERR i

/-- A function may write a partition's stream. -/
def State.strmOpen (s : State) (i : Nat) : Bool := s.served (i / 8)

/-- STREAM_ENABLE_WINDOW: a write of TIER_STRM_CFG with EN 1 and KIND 0 (R309). -/
def execStreamEnableWindow (stream : BitVec 8) (cfg : Word) (s : State) : Res :=
  .next (if s.strmOpen stream.toNat then s.strmCfg stream.toNat ((cfg ||| 1) &&& ~~~ 2) else s)

/-- STREAM_ENABLE_PREFETCH: a write of TIER_STRM_CFG with EN 1 and KIND 1 (R315). -/
def execStreamEnablePrefetch (stream : BitVec 8) (cfg : Word) (s : State) : Res :=
  .next (if s.strmOpen stream.toNat then s.strmCfg stream.toNat (cfg ||| 3) else s)

/-- STREAM_DISABLE: a write of TIER_STRM_CFG with EN 0 (R313). -/
def execStreamDisable (stream : BitVec 8) (cfg : Word) (s : State) : Res :=
  .next (if s.strmOpen stream.toNat then s.strmCfg stream.toNat (cfg &&& ~~~ 1) else s)

/-- WINDOW_RECONCILE: the progress object's value has changed (R311). -/
def execWindowReconcile (stream : BitVec 8) (s : State) : Res :=
  let i := stream.toNat
  .next (if s.strmOpen i ∧ s.rdb F.TIER_STRM_CFG_EN i ∧ s.rd F.TIER_STRM_CFG_KIND i = 0 then (s.reconcile i).flow else s)

/-- The movement a prefetch entry asks of a tile; `none`: the tile is skipped (R316). -/
def State.prefetchWork (s : State) (p obj tile action : Nat) (step : Option Nat) : Option Work :=
  let r := s.tile p obj tile
  let moving := s.items.any (fun e => e.2.part == p && e.2.obj == obj && e.2.tile == tile && (match e.2.work with
    | .spill _ => true
    | .fetch _ => true
    | .move _ => true
    | .regrow => true
    | _ => false))
  let late := match step with
    | some n => r.step != n
    | none => false
  if !s.tileExists p obj tile || r.state == .released || r.state == .lost || late || moving then none
  else match action, r.disp with
    | 1, .spill => some (.move .meadow)
    | 1, .sink => some (.move .meadow)
    | 2, .spill => some (.move .meadow)
    | 2, .sink => some (.move (if r.home = .moor then .heath else .meadow))
    | 3, .regrow => some .regrow
    | _, _ => none

/-- Issue one prefetch item (R315, R317). -/
def State.prefetchItem (s : State) (i obj tile deadline : Nat) (w : Work) : State :=
  let p := i / 8
  let id := s.nextItem
  let r := Tab.get StreamRec.idle s.streams i
  let s := { s with streams := Tab.set StreamRec.idle s.streams i { r with items := r.items ++ [id] } }
  let it := { Item.blank p w with origin := .stream (i % 8), obj, tile, urg := 1, deadline, stage := .queued }
  match w with
  | .regrow => s.addItem { it with stage := .placed, started := true }
  | _ => (s.addItem it).startMove id

/-- Issue an entry's tiles from the one reached, while OUTSTANDING allows: the next tile to issue (R315, R316). -/
def State.prefetchTiles (i obj action deadline last : Nat) (step : Option Nat) : Nat → Nat → State → Nat × State
  | 0, t, s => (t, s)
  | f + 1, t, s =>
    if last ≤ t then (t, s)
    else match s.prefetchWork (i / 8) obj t action step with
      | none => State.prefetchTiles i obj action deadline last step f (t + 1) (s.bump F.TIER_STRM_SKIP_COUNT i 1)
      | some w =>
        if s.rd F.TIER_STRM_CFG_OUTSTANDING i ≤ (Tab.get StreamRec.idle s.streams i).items.length then (t, s)
        else State.prefetchTiles i obj action deadline last step f (t + 1) (s.prefetchItem i obj t deadline w)

/-- The entry at the cursor fires, or goes on issuing (R314 to R316). -/
def State.prefetchFire (s : State) (i : Nat) : State :=
  let p := i / 8
  let cur := s.rd F.TIER_STRM_POS_VALUE i
  let a := s.rd F.TIER_STRM_BASE_ADDR i + 32 * cur
  let next (s : State) : State :=
    let r := Tab.get StreamRec.idle s.streams i
    ({ s with streams := Tab.set StreamRec.idle s.streams i { r with tile := 0, fired := 0 } }).wr F.TIER_STRM_POS_VALUE i
      (cur + 1)
  if s.rd F.TIER_STRM_SIZE_VALUE i ≤ cur then s
  else match s.devWord p a 8, s.devWord p (a + 8) 8, s.devWord p (a + 16) 8, s.devWord p (a + 24) 8 with
    | .ok w0, .ok w1, .ok trig, .ok w3 =>
      let action := bitsOf w0 56 4
      let count := bitsOf w1 0 24
      if w0 / 2 ^ 60 ≠ 0 ∨ bitsOf w1 24 8 ≠ 0 ∨ bitsOf w1 49 15 ≠ 0 ∨ bitsOf w3 32 32 ≠ 0 ∨ bitsOf w0 27 5 ≠ p ∨ action = 0 ∨
          3 < action ∨ count = 0 then
        next (s.flag F.TIER_STRM_STATUS_BAD_ENTRY i)
      else if (s.soVal (s.rd F.TIER_STRM_SO_PROGRESS i)).toNat < trig then s
      else
        let r := Tab.get StreamRec.idle s.streams i
        if s.rd F.TIER_STRM_CFG_OUTSTANDING i ≤ r.items.length then s
        else
          let fired := if r.fired = 0 then s.time + 1 else r.fired
          let lead := if bitsOf w3 0 32 = 0 then s.rd F.TIER_STRM_TIME_NS i else bitsOf w3 0 32
          let first := bitsOf w0 32 24
          let step := if w1.testBit 48 then some (bitsOf w1 32 16) else none
          let (t, s) := State.prefetchTiles i (bitsOf w0 0 27) action (fired - 1 + lead) (first + count) step (count + 1)
            (first + r.tile) s
          if first + count ≤ t then next s
          else
            let r := Tab.get StreamRec.idle s.streams i
            { s with streams := Tab.set StreamRec.idle s.streams i { r with tile := t - first, fired } }
    | _, _, _, _ => next (s.flag F.TIER_STRM_STATUS_BAD_ENTRY i)

/-- PREFETCH_FIRE (R315). -/
def execPrefetchFire (stream : BitVec 8) (s : State) : Res :=
  let i := stream.toNat
  .next (if s.strmOpen i ∧ s.rdb F.TIER_STRM_CFG_EN i ∧ s.rd F.TIER_STRM_CFG_KIND i = 1 then (s.prefetchFire i).flow else s)

/-- HEATH_RESPONSE: Heath has taken a core's oldest buffered store; `late`: after the tier latency (R320). -/
def execHeathResponse (core : BitVec 6) (late : Bool) (s : State) : Res :=
  let c := core.toNat
  if s.pins.held ∨ (s.core c).stores.isEmpty then .next s
  else
    let s := if late then s.flag F.TIER_FAIL_STATUS_HEATH_LATE (s.corePart c) else s
    .next (s.drainStores 17 c true)

/-- An item's lower-tier request fails: what becomes of the item (Table 8-16). -/
def State.tierReqFail (s : State) (id status : Nat) : State :=
  match s.item? id with
  | none => s
  | some it =>
    let p := it.part
    let s := s.tierFail p status
    match it.work with
    | .granule .. => (s.granAbandon id status).endGran id
    | .chain _ => s.stopDesc id status 0
    | .put conn txn .. =>
      (s.intakeFault id status (it.resv.map (fun x => x.2.1))).putOver it conn txn status
    | .intake .. => s.intakeFault id status (it.resv.map (fun x => x.2.1))
    | .regrow => (s.stopItem id status).endRegrow p it.obj it.tile status
    | _ => s.stopItem id status

/-- An item works on a home in a tier: its tile's, its granule's, or its destination's. -/
def State.usesTier (s : State) (it : Item) (h : Home) : Bool :=
  (match it.resv with
    | some (g, _, _) => g == h
    | none => false) ||
  (it.flight && (if it.tiles.isEmpty then [it.tile] else it.tiles).any (fun t => (s.tile it.part it.obj t).home == h)) ||
  (match it.work with
    | .granule va _ => (match s.granule? it.part va with
      | some g => g.home == h
      | none => false)
    | .copy => true
    | .chain _ => true
    | .teddOp .. => true
    | .layout _ => true
    | .regrow => true
    | _ => false)

/-- HEATH_TIMEOUT: a Heath request reaches TIER_TMO_HEATH (R320): an item's, or with no item the oldest buffered store of
the core, which fails as ASYNC_STORE does. -/
def execHeathTimeout (item : Option Nat) (core : BitVec 6) (s : State) : Res :=
  match item with
  | none => execAsyncStoreFail core s
  | some id => match s.item? id with
    | some it =>
      .next (if s.served it.part ∧ it.ended.isNone ∧ (it.stage = .running ∨ it.stage = .placed) ∧ (it.started || it.begun) then
        if s.usesTier it .heath then (s.tierReqFail id 0x0041).flow else s else s)
    | none => .next s

/-- No port or target of the tier is UP. -/
def State.tierGone (s : State) (tier : Nat) : Bool := s.tierDown (if tier = 1 then .heath else .moor)

/-- QUOTA_PRESSURE as a tier goes DOWN whole: for every partition with a quota in it (R116, R321; log entry 25). -/
def State.downPressure (s : State) (tier : Nat) : State :=
  if s.tierGone tier then
    (List.range 32).foldl (fun s p => if 0 < s.quotaUnits p tier then s.pressure p tier else s) s
  else s

/-- A Heath port, or a Moor target, goes DOWN (R321). -/
def State.tierPortDown (s : State) (moor : Bool) (n : Nat) : State :=
  if moor then
    if s.rd F.TIER_MOOR_TGT_KIND n = 0 ∨ s.moorState n ≠ 0 then s
    else
      let s := (s.setMoorState n 1).dropMoorReqs n 0x0042
      (s.failHomed (onMoor n) 0x0042).downPressure 2
  else if 8 ≤ n ∨ s.role n ≠ 3 ∨ s.heathState n ≠ 0 then s
  else ((s.heathDown n).failHomed (s.onHeath n) 0x0041).downPressure 1

/-- A DOWN Heath port, or Moor target, is UP again (R321): stalled intakes retry. -/
def State.tierPortUp (s : State) (moor : Bool) (n : Nat) : State :=
  let retry (s : State) (tier : Nat) : State :=
    (List.range 32).foldl (fun s p => (s.retryStalled p tier).retryStalled p (tier - 1)) s
  if moor then (if s.moorState n = 1 then retry (s.setMoorState n 0) 2 else s)
  else if n < 8 ∧ s.heathState n = 1 ∧ s.err.postDown.testBit (n / 2) = false then retry (s.setHeathState n 0) 1 else s

/-- The Moor targets a connection serves are DOWN with it: work on their tiles ends, and their tiers may be gone (R321). -/
def State.connLost (s : State) (c : Nat) : State :=
  (List.range 16).foldl (fun s t =>
    if s.rd F.TIER_MOOR_TGT_KIND t = 2 ∧ s.rd F.TIER_MOOR_TGT_CONN t = c ∧ s.moorState t = 1 then
      (s.failHomed (onMoor t) 0x0042).downPressure 2
    else s) s

/-- The targets of a connection, or set, that is back are UP again (R321). -/
def State.targetsUp (s : State) (kind c : Nat) : State :=
  (List.range 16).foldl (fun s t =>
    if s.rd F.TIER_MOOR_TGT_KIND t = kind ∧ s.rd F.TIER_MOOR_TGT_CONN t = c then s.tierPortUp true t else s) s

/-- TIER_PORT_DOWN: a Heath link, or a Moor target, fails (R321). -/
def execTierPortDown (moor : Bool) (index : BitVec 4) (s : State) : Res :=
  .next (if s.pins.held then s else (s.tierPortDown moor index.toNat).flow)

/-- TIER_PORT_UP: a DOWN port or target returns within TIER_LOSS_TIME (R321). -/
def execTierPortUp (moor : Bool) (index : BitVec 4) (s : State) : Res :=
  .next (if s.pins.held then s else (s.tierPortUp moor index.toNat).flow)

/-- A Heath port is LOST (R322). -/
def State.loseHeath (s : State) (n : Nat) : State := ((s.heathDown n).setHeathState n 2).tierLost (s.onHeath n) 0x0041

/-- A Moor target is LOST (R322). -/
def State.loseMoor (s : State) (t : Nat) : State := ((s.setMoorState t 2).dropMoorReqs t 0x0042).tierLost (onMoor t) 0x0042

/-- TIER_LOSS_TIMEOUT: DOWN for TIER_LOSS_TIME (R322). -/
def execTierLossTimeout (moor : Bool) (index : BitVec 4) (s : State) : Res :=
  let n := index.toNat
  if s.pins.held then .next s
  else if moor then .next (if s.moorState n = 1 then (s.loseMoor n).flow else s)
  else .next (if n < 8 ∧ s.heathState n = 1 then (s.loseHeath n).flow else s)

/-- DECLARE_HEATH: the PF declares Heath ports lost, a bit each (R322, Table 8-18). -/
def execDeclareHeath (ports : BitVec 8) (s : State) : Res :=
  .next (if s.pins.held then s else
    ((List.range 8).foldl (fun s n => if ports.toNat.testBit n ∧ s.role n = 3 ∧ s.heathState n ≠ 2 then s.loseHeath n
      else s) s).flow)

/-- DECLARE_MOOR: the PF declares Moor targets lost, a bit each (R322, Table 8-18). -/
def execDeclareMoor (targets : BitVec 16) (s : State) : Res :=
  .next (if s.pins.held then s else
    ((List.range 16).foldl (fun s t => if targets.toNat.testBit t ∧ s.rd F.TIER_MOOR_TGT_KIND t ≠ 0 ∧ s.moorState t ≠ 2 then
      s.loseMoor t else s) s).flow)

end Sys2Proof.Machine
end

