-- ==== Sys2Proof/Machine/HostCmd.lean ====
section
/-! DEFINITION. Completions, timeouts and quarantine of reads; write-back streams; opening the device; peers; BAR4; bus
mastering; links; ATS and PRI; IDE streams (sections 12.2 to 12.11). -/

namespace Sys2Proof.Machine

/-- The function that reports a port's link errors: the PF on the HOST port, else the port function (Table 17-8). -/
def State.portFn (s : State) (port : Nat) : Nat := if s.role port = 1 then 0 else 64 + port

/-- AER reports (Table 17-8): the numbers the model gives their kinds. -/
def aerTimeout : Nat := 1
def aerUnexpected : Nat := 2
def aerAbort : Nat := 3
def aerUnsupported : Nat := 4
def aerPoison : Nat := 5
def aerIde : Nat := 6
def aerCorrected : Nat := 7
def aerInternal : Nat := 8
def aerSurprise : Nat := 9

/-- Invalidations whose users have all retired complete (R446). -/
def State.settleInvals (s : State) : State :=
  let l := s.host.invals.map (fun v => { v with keys := v.keys.filter (fun k => (Tab.find? s.host.reads k).isSome) })
  let s := { s with host := { s.host with invals := l.filter (fun v => !v.keys.isEmpty) } }
  (l.filter (fun v => v.keys.isEmpty)).foldl (fun s v => s.emit (.invalDone v.fn v.page)) s

/-- Retire a read: its tag, its pacing line, and what waited for either (R361, R446, R448). -/
def State.endRead (s : State) (key : Nat) (r : ReadRec) : State :=
  let s := (s.retireRead key).settleInvals
  match r.line with
  | some (c, _) => (s.refreshLines c).leaveHalt c
  | none => s

/-- Post the result of a peer command (R433, Table 12-10). -/
def State.peerDone (s : State) (result probe : Nat) : State :=
  let s := (s.wr F.HOST_PEER_STATUS_RESULT 0 result).wr F.HOST_PEER_STATUS_PROBE_STATUS 0 probe
  ((s.wr F.HOST_PEER_CTRL_GO 0 0).flag F.HOST_PEER_STATUS_DONE 0).irq 0 6

/-- Word `w` of the peer command. -/
def State.peerCmd (s : State) (w : Nat) : Nat :=
  match w with
  | 0 => s.rd F.HOST_PEER_CMD0_WORD 0
  | 1 => s.rd F.HOST_PEER_CMD1_WORD 0
  | 2 => s.rd F.HOST_PEER_CMD2_WORD 0
  | 3 => s.rd F.HOST_PEER_CMD3_WORD 0
  | 4 => s.rd F.HOST_PEER_CMD4_WORD 0
  | _ => s.rd F.HOST_PEER_CMD5_WORD 0

/-- The probe of a REGISTER has ended (R435): `status` 0 for data, else the Carrier status of its failure. -/
def State.probeEnd (s : State) (status : Nat) : State :=
  match s.host.probe with
  | none => s
  | some (key, t) =>
    let s := { s with host := { s.host with probe := none } }
    let _ := key
    if status ≠ 0 then s.peerDone 5 status
    else
      let w0 := s.peerCmd 0
      let i := bitsOf w0 0 6
      let ns := min (s.time - t) (2 ^ 31 - 1)
      let slow := decide (2 * s.rd F.SO_PEER_RD_NS_NS (bitsOf w0 8 5) < ns)
      let e0 := bitsOf w0 0 6 + bitsOf w0 8 5 * 2 ^ 8 + bitsOf w0 13 3 * 2 ^ 13 + bitsOf w0 16 16 * 2 ^ 16 + ns * 2 ^ 32 +
        b2n slow * 2 ^ 63
      let s := s.setReg Reg.HOST_PEER_TABLE (6 * i) (BitVec.ofNat 64 e0)
      let s := [1, 2, 3, 4, 5].foldl (fun s w =>
        s.setReg Reg.HOST_PEER_TABLE (6 * i + w) (BitVec.ofNat 64 (s.peerCmd w))) s
      (s.setRing i NoticeRing.empty).peerDone 0 0

/-- What a read was for learns that it failed, with a Carrier status (R368, R373, R423, R435, R449). A failed read-back is
READBACK_FAIL, except where the port went down. -/
def State.readFailed (s : State) (r : ReadRec) (status : Nat) : State :=
  let back (id : Nat) : State :=
    let st := if status = 0x0034 then status else 0x0035
    match s.item? id with
    | some it => match it.work with
      | .chain _ => s.endDesc id st 0 ErrAt.none false 0
      | _ => s.endItem id st 0 ErrAt.none
    | none => s
  match r.use with
  | .burst id k => s.badRead id k status
  | .readback id => back id
  | .flag id => back id
  | .probe => s.probeEnd status
  | .desc c => s.takeDesc c (s.chan c).next none
  | .kick c => s.takeDesc c (s.rd F.CAR_CH_CUR_ADDR c) none
  | .consumer id => match s.item? id with
    | some it => s.endItem id status (s.itemBytes it) { addr := r.addr, write := false, space := 1, peer := it.peer
                                                        desc := false }
    | none => s

/-- What a read was for takes its data. -/
def State.readGot (s : State) (r : ReadRec) (data : List Byte) : State :=
  match r.use with
  | .burst id k => s.gotRead id k data
  | .readback id => match s.item? id with
    | some it => match it.work with
      | .chain _ => s.endDesc id 0 0 ErrAt.none true 0
      | .lattice .. => s.delivered id 0 0 it.tiles ErrAt.none
      | _ => s.delivered id 0 0 [it.tile] ErrAt.none
    | none => s
  | .flag _ => s
  | .probe => s.probeEnd 0
  | .desc c => s.takeDesc c (s.chan c).next (some ((List.range 8).map (fun w => fieldAt data (8 * w) 8)))
  | .kick c => s.kickRead c (fieldAt data 0 8)
  | .consumer id => match s.item? id with
    | some it =>
      let s := s.setRing it.peer { s.ring? it.peer with cons := fieldAt data 0 4 }
      match it.work with
      | .notify => s.endNotify id
      | _ => s.tileNotice id (s.noticeTile it)
    | none => s

/-- CPL_RECEIVED (R449, R450): the last part of a completion. `status`: 0 successful with data, 1 UR, 2 CA, 4 poisoned
data. -/
def execCplReceived (port : BitVec 3) (tag : BitVec 14) (status : BitVec 3) (data : List Byte) (s : State) : Res :=
  let key := readKey port.toNat tag.toNat
  .next (if s.pins.held then s else
    match Tab.find? s.host.reads key with
    | some r =>
      let s := s.endRead key r
      if r.absorbed then s.flow
      else if status = 0 then (s.readGot r data).flow
      else
        let s := if status = 4 then s.emit (.aer r.fn aerPoison) else s
        (s.readFailed r (if status = 1 then 0x0031 else if status = 2 then 0x0032 else 0x0033)).flow
    | none => match Tab.find? s.host.quar key with
      | some q =>
        let s := s.unquarantine key
        let s := if q.flr then s else
          let s := s.emit (.aer q.fn aerUnexpected)
          if q.fn < 64 then s.sat F.HOST_FN_STATUS_LATE_CPL q.fn 1 else s
        s.flow
      | none => s.emit (.aer (s.portFn port.toNat) aerUnexpected))

/-- COMPLETION_TIMEOUT (R449, R450): the read's tag is quarantined and its user ends. -/
def execCompletionTimeout (port : BitVec 3) (tag : BitVec 14) (s : State) : Res :=
  let key := readKey port.toNat tag.toNat
  .next (if s.pins.held then s else
    match Tab.find? s.host.reads key with
    | some r =>
      let s := (((s.endRead key r).quarantine key r.fn false).emit (.aer r.fn aerTimeout))
      (if r.absorbed then s else s.readFailed r 0x0030).flow
    | none => s)

/-- TAG_QUARANTINE_END (R450): 1 ms after its read retired the tag returns to the pool. -/
def execTagQuarantineEnd (port : BitVec 3) (tag : BitVec 14) (s : State) : Res :=
  .next (if s.pins.held then s else (s.unquarantine (readKey port.toNat tag.toNat)).flow)

/-- Discard a write-back stream, or data that no stream expects (R59, R439). -/
def State.wbStray (s : State) (p rid : Nat) : State :=
  ({ s with host := { s.host with streams := Tab.erase s.host.streams rid } }).flag F.PART_LIFE_STATUS_WB_STRAY p

/-- The notice a write-back header answers: its RID's peer, its tile, its SEQ (R439). -/
def State.awaitedOf (s : State) (p rid : Nat) (b : List Byte) : Option Awaited :=
  s.host.awaited.find? (fun a => a.part == p && s.peerOf p a.peer && s.peerRid a.peer == rid &&
    handleOf p a.obj == fieldAt b 0 4 && a.tile == fieldAt b 4 3 && a.seq == fieldAt b 12 2)

/-- A function takes inbound writes: it exists and is not under FLR (R459). -/
def State.fnOpen (s : State) (fn : Nat) : Bool :=
  !s.pins.held && s.fnExists fn && !s.rdb F.HOST_FN_STATUS_FLR_ACTIVE fn

/-- WRITE_BACK_HEADER (R438, R439): one 64-byte write of a requester to a function's write-back port. A header that meets a
stream in progress ends that stream, and is then checked as the next header (log entry 28). -/
def execWriteBackHeader (fn : BitVec 5) (rid : BitVec 16) (bytes : List Byte) (s : State) : Res :=
  let p := fn.toNat
  let r := rid.toNat
  let b := bytesAt bytes 0 64
  .next (if !s.fnOpen p then s else
    let s := if (Tab.find? s.host.streams r).isSome then s.wbStray p r else s
    let good := fieldAt b 7 1 == 0 && fieldAt b 14 2 == 0 && allZero (bytesAt b 16 40) && fieldAt b 60 4 == 0 &&
      fieldAt b 56 4 == (crc32c (b.take 56)).toNat
    match s.awaitedOf p r b with
    | some a =>
      let t := s.tile p a.obj a.tile
      if good ∧ t.disp = .ret ∧ t.state = .resident ∧ fieldAt b 8 4 = s.tileSize p a.obj then
        let w : WbStream := { fn := p, peer := a.peer, obj := a.obj, tile := a.tile, len := fieldAt b 8 4, next := 0 }
        { s with host := { s.host with streams := Tab.put s.host.streams r w } }
      else s.wbStray p r
    | none => s.wbStray p r)

/-- The write-back of a tile is complete: it commits as HOLD in the Meadow bytes reserved for it (R77, R439, R440). -/
def State.wbCommit (s : State) (p : Nat) (a : Awaited) : State :=
  let t := s.tile p a.obj a.tile
  let s := s.setAwaited (s.host.awaited.filter (fun x => x != a))
  s.setTile p a.obj a.tile { t with
    disp := .hold
    home := .meadow
    location := a.place
    stored := a.bytes
    compressed := false
    mta := 0xFFFFFFFF }

/-- WRITE_BACK_DATA (R438, R439): a data write at an offset of the data window. -/
def execWriteBackData (fn : BitVec 5) (rid : BitVec 16) (offset : BitVec 17) (bytes : List Byte) (s : State) : Res :=
  let p := fn.toNat
  let r := rid.toNat
  .next (if !s.fnOpen p then s else
    match Tab.find? s.host.streams r with
    | none => s.wbStray p r
    | some w =>
      if w.fn ≠ p ∨ w.next % 131072 ≠ offset.toNat ∨ w.len < w.next + bytes.length then s.wbStray p r
      else match s.host.awaited.find? (fun a => a.part == p && a.peer == w.peer && a.obj == w.obj && a.tile == w.tile) with
        | none => s.wbStray p r
        | some a =>
          let s := s.physWrite .bulk p (a.place + w.next) bytes
          if w.next + bytes.length = w.len then
            (({ s with host := { s.host with streams := Tab.erase s.host.streams r } }).wbCommit p a).flow
          else
            let w : WbStream := { w with next := w.next + bytes.length }
            { s with host := { s.host with streams := Tab.put s.host.streams r w } })

/-- The feature bits offered (R431, section 18.3). -/
def State.offer (s : State) (k : Nat) : Nat :=
  if k ≠ 0 then 0 else if s.rdb F.SYS_STRAPS_BAR4_EN 0 && !s.rdb F.SYS_START_STATUS_SAFE_BOOT 0 then 0x00FF0FFF else 0x007F0FFF

/-- Why an open fails (R430): the ERR code. -/
def State.openErr (s : State) : Nat :=
  let a (k : Nat) : Nat := s.rd F.SYS_FEAT_ACCEPT_BITS k
  let w := a 0
  let needs (b d : Nat) : Bool := w.testBit b && !w.testBit d
  if s.rdb F.SYS_OPEN_OPENED 0 then 3
  else if !s.rdb F.SYS_START_STATUS_READY 0 then 4
  else if (List.range 4).any (fun k => (a k) &&& (s.offer k) != a k) then 1
  else if needs 3 0 || needs 11 0 || needs 0 16 || needs 17 3 || needs 20 19 then 2
  else 0

/-- SYS_OPEN: a write of 1 to SYS_OPEN.OPEN by the PF (R430). -/
def execSysOpen (s : State) : Res :=
  .next (if s.pins.held then s else
    let e := s.openErr
    if e ≠ 0 then s.wr F.SYS_OPEN_ERR 0 e
    else
      let s := (s.wr F.SYS_OPEN_ERR 0 0).wr F.SYS_OPEN_OPENED 0 1
      (List.range 256).foldl (fun s i => s.wr F.SRT_FEAT_BITS i (s.rd F.SYS_FEAT_ACCEPT_BITS (i % 4))) s)

/-- A REGISTER command's fields are in range (Table 12-5). -/
def peerFieldsOk (w : Nat → Nat) : Bool :=
  let base := w 1
  let size := w 2
  let inside (a n : Nat) : Bool := decide (base ≤ a) && decide (a + n ≤ base + size)
  let lg := bitsOf (w 3) 0 4
  base % 4096 == 0 && size % 4096 == 0 && decide (0 < size) && decide (base + size ≤ 2 ^ 64) && bitsOf (w 3) 4 8 == 0 &&
  decide (6 ≤ lg) && decide (lg ≤ 12) && inside (w 3 / 4096 * 4096) (64 * 2 ^ lg) && w 4 % 4 == 0 && inside (w 4) 4 &&
  w 5 % 8 == 0 && inside (w 5) 8

/-- REGISTER, its command words written (R434, R435): the checks of Table 12-6 in order, then the probe. -/
def State.peerRegister (s : State) : State :=
  let w := s.peerCmd
  let i := bitsOf (w 0) 0 6
  let p := bitsOf (w 0) 8 5
  let port := bitsOf (w 0) 13 3
  let rid := bitsOf (w 0) 16 16
  if !s.rdb F.SYS_OPEN_OPENED 0 then s.peerDone 7 0
  else if !peerFieldsOk w then s.peerDone 1 0
  else if s.variant.ports ≤ port ∨ (s.role port ≠ 1 ∧ s.role port ≠ 2) then s.peerDone 4 0
  else if s.peerUsed i || (List.range 64).any (fun j => s.peerUsed j && s.peerPort j == port && s.peerRid j == rid) then
    s.peerDone 2 0
  else match s.portErr p port (w 1) with
    | some 0x0003 => s.peerDone 8 0
    | some e => s.peerDone 5 e
    | none => match s.freeTag port false with
      | none => s
      | some t =>
        match s.sendRead p port (w 1) 4 false .probe none with
        | some s => { s with host := { s.host with probe := some (readKey port t, s.time) } }
        | none => s

/-- Work of an item that reaches a peer (R372, R376, R437). -/
def Item.names (it : Item) (peer : Nat) : Bool :=
  match it.work with
  | .chain ws => (CD.srcSpace ws == 1 && CD.op ws == 1 && CD.srcPeer ws == peer) || (CD.dstSpace ws == 1 && CD.dstPeer ws == peer)
  | .intake _ _ _ nodata => !nodata && it.peer == peer
  | .deliver _ => it.peer == peer
  | .lattice .. => it.peer == peer
  | .notify => it.peer == peer
  | _ => [it.ta, it.ta2, it.tb].any (fun d => Desc.space d == 1 && Desc.peer d == peer)

/-- UNREGISTER, its command word written (R437). -/
def State.peerUnregister (s : State) : State :=
  let i := bitsOf (s.peerCmd 0) 0 6
  let p := s.peerPart i
  if !s.rdb F.SYS_OPEN_OPENED 0 then s.peerDone 7 0
  else if !s.peerUsed i then s.peerDone 3 0
  else if s.rd F.PART_PLAN_STATUS_STATE p = 2 ∨ s.items.any (fun e => e.2.part == p && e.2.names i) then s.peerDone 6 0
  else
    let rid := s.peerRid i
    let s := (List.range 6).foldl (fun s w => s.setReg Reg.HOST_PEER_TABLE (6 * i + w) 0) s
    let s := { s with
      notices := Tab.erase s.notices i
      host := { s.host with streams := Tab.erase s.host.streams rid } }
    s.peerDone 0 0

/-- A write of 1 to HOST_PEER_CTRL.GO (R433, R434): another OP is BAD_FIELD. -/
def State.peerGo (s : State) : State :=
  if s.rdb F.HOST_PEER_CTRL_GO 0 then s.flag F.HOST_PEER_STATUS_BUSY_REFUSED 0
  else
    let s := s.wr F.HOST_PEER_CTRL_GO 0 1
    match bitsOf (s.peerCmd 0) 6 2 with
    | 1 => s.peerRegister
    | 2 => s.peerUnregister
    | _ => if s.rdb F.SYS_OPEN_OPENED 0 then s.peerDone 1 0 else s.peerDone 7 0

/-- Write the six command words; while a command runs they are kept. -/
def State.peerWords (s : State) (l : List Word) (op : Nat) : State :=
  let w (i : Nat) : Nat := (l.getD i 0).toNat
  let w0 := w 0 - bitsOf (w 0) 6 2 * 64 + op * 64
  if s.rdb F.HOST_PEER_CTRL_GO 0 then s
  else ((((((s.wr F.HOST_PEER_CMD0_WORD 0 w0).wr F.HOST_PEER_CMD1_WORD 0 (w 1)).wr F.HOST_PEER_CMD2_WORD 0 (w 2)).wr
    F.HOST_PEER_CMD3_WORD 0 (w 3)).wr F.HOST_PEER_CMD4_WORD 0 (w 4)).wr F.HOST_PEER_CMD5_WORD 0 (w 5))

/-- REGISTER (R434, R435): the PF writes the command words and GO. -/
def execRegister (words : List Word) (s : State) : Res :=
  .next (if s.pins.held then s else ((s.peerWords words 1).peerGo).flow)

/-- UNREGISTER (R437). -/
def execUnregister (peer : BitVec 6) (s : State) : Res :=
  .next (if s.pins.held then s else ((s.peerWords [BitVec.ofNat 64 peer.toNat] 2).peerGo).flow)

/-- PROBE_RESULT (R435): the probe completes (0), with UR (1), CA (2) or poisoned data (4), or reaches 1 ms (7): then its
tag is quarantined. -/
def execProbeResult (result : BitVec 3) (s : State) : Res :=
  .next (if s.pins.held then s else
    match s.host.probe with
    | none => if s.rdb F.HOST_PEER_CTRL_GO 0 && result == 7 then s.peerDone 5 0x0030 else s
    | some (key, _) =>
      match Tab.find? s.host.reads key with
      | none => s.probeEnd 0x0030
      | some r =>
        let s := s.endRead key r
        if result = 0 then (s.probeEnd 0).flow
        else if result = 1 then (s.probeEnd 0x0031).flow
        else if result = 2 then (s.probeEnd 0x0032).flow
        else if result = 4 then ((s.emit (.aer r.fn aerPoison)).probeEnd 0x0033).flow
        else (((s.quarantine key r.fn false).emit (.aer r.fn aerTimeout)).probeEnd 0x0030).flow)

/-- The device virtual address BAR4 offset `o` reaches (R428). -/
def State.bar4 (s : State) (p o : Nat) : Nat := s.rd F.HOST_BAR4_WIN_BASE p * 2 ^ 36 + o

/-- The failed check of a BAR4 access, and the address where it failed (R428, R431, Table 8-5). -/
def State.bar4Check (s : State) (p va n : Nat) (write : Bool) : Option (XErr × Nat) :=
  if !s.feature 23 then some (.xlate, 0) else s.xcheckRun p va n write false

/-- A BAR4 access that Table 8-5 refuses: it is logged, and reported as Completer Abort on the accessed function. -/
def State.bar4Refuse (s : State) (p : Nat) (e : XErr × Nat) (va : Nat) (write : Bool) : State :=
  let s := (s.dtuFault p e.1.kind 2 (va + e.2) write).emit (.aer p aerAbort)
  if write then s else s.emit (.completerAbort p)

/-- BAR4_READ (R428, R610): the bytes, or Completer Abort. -/
def execBar4Read (fn : BitVec 5) (offset : BitVec 36) (bytes : Nat) (s : State) : Res :=
  let p := fn.toNat
  let va := s.bar4 p offset.toNat
  .next (if s.pins.held || !s.fnExists p then s
    else if s.rdb F.HOST_FN_STATUS_FLR_ACTIVE p then s.emit (.unsupported p)
    else match s.bar4Check p va bytes false with
      | some e => s.bar4Refuse p e va false
      | none =>
        if (s.vheathFail p va bytes).isSome then (s.emit (.aer p aerAbort)).emit (.completerAbort p)
        else
          let r := s.vread .cached p va bytes
          if r.1 then (r.2.2.emit (.aer p aerAbort)).emit (.completerAbort p) else r.2.2.emit (.readData p r.2.1))

/-- BAR4_WRITE (R428): the bytes are written, or dropped. -/
def execBar4Write (fn : BitVec 5) (offset : BitVec 36) (bytes : List Byte) (s : State) : Res :=
  let p := fn.toNat
  let va := s.bar4 p offset.toNat
  .next (if !s.fnOpen p then s
    else match s.bar4Check p va bytes.length true with
      | some e => s.bar4Refuse p e va true
      | none => if (s.vheathFail p va bytes.length).isSome then s else s.vwrite .cached p va bytes)

/-- Function `fn` carries requests of work of partition `p` to a space and peer. -/
def State.rides (s : State) (fn p space peer : Nat) : Bool :=
  match space with
  | 1 => s.reqFn p (s.peerPort peer) == fn
  | 2 => s.fnOf p == fn
  | _ => false

/-- An item on a channel needs requests under function `fn` (R376). -/
def State.itemRides (s : State) (fn : Nat) (it : Item) : Bool :=
  match it.work with
  | .chain ws => (CD.op ws == 1 && s.rides fn it.part (CD.srcSpace ws) (CD.srcPeer ws)) ||
      s.rides fn it.part (CD.dstSpace ws) (CD.dstPeer ws)
  | .intake _ _ _ nodata => !nodata && s.rides fn it.part 1 it.peer
  | .deliver _ => s.rides fn it.part 1 it.peer
  | .lattice .. => s.rides fn it.part 1 it.peer
  | .copy => [it.ta, it.tb].any (fun d => s.rides fn it.part (Desc.space d) (Desc.peer d))
  | _ => false

/-- A chain channel needs requests under function `fn` for its descriptors or its records (R376). -/
def State.chainRides (s : State) (fn c : Nat) : Bool :=
  let x := s.chan c
  let p := (s.lease leaseChannel c).holder
  s.fnOf p == fn && ((x.reading && x.next.testBit 0) || x.chain.any (fun i => match s.item? i with
    | some it => (CD.addr it.words).testBit 0 || s.rdb F.CAR_RING_BASE_HOST (s.descRing c it).1
    | none => false))

/-- Stop everything that needs requests under a function, with MASTER_OFF (R376, R452). -/
def State.stopRiders (s : State) (fn : Nat) : State :=
  let s := (List.range 256).foldl (fun s c =>
    if s.rd F.CAR_CH_CFG_POOL c = 1 then
      let x := s.chan c
      let hit := s.chainRides fn c || x.chain.any (fun i => match s.item? i with
        | some it => s.itemRides fn it
        | none => false)
      if s.chState c ≠ chRunning ∨ !hit then s
      else match x.chain.head? with
        | some id => s.stopDesc id 0x0003 3
        | none => s.haltChain c 3 none
    else
      let x := s.chan c
      let ids := (x.active.toList ++ x.parked).filter (fun i => match s.item? i with
        | some it => s.itemRides fn it
        | none => false)
      ids.foldl (fun s i => s.stopItem i 0x0003) s) s
  s.absorb (fun r => r.fn == fn && r.use != .probe)

/-- Bus Master Enable of a function takes a value. -/
def State.setBme (s : State) (fn : Nat) (b : Bool) : State :=
  if 64 ≤ fn then
    { s with host := { s.host with portBme :=
        if b then s.host.portBme ||| 2 ^ (fn - 64) else s.host.portBme - b2n (s.host.portBme.testBit (fn - 64)) * 2 ^ (fn - 64) } }
  else s.wrb F.HOST_FN_STATUS_BME fn b

/-- The function number exists: a PF or VF, or the function of a PEER port (R424, R425). -/
def State.anyFn (s : State) (fn : Nat) : Bool :=
  if 64 ≤ fn then decide (fn - 64 < s.variant.ports) && s.role (fn - 64) == 2 else s.fnExists fn

/-- A Bus Master Enable bit is cleared (R451, R452, R455). -/
def State.bmeClear (s : State) (fn : Nat) : State :=
  if s.anyFn fn && s.busMaster fn then (((s.setBme fn false).stopRiders fn).flow) else s

/-- A Bus Master Enable bit is set: held entries go out first (R454). -/
def State.bmeSet (s : State) (fn : Nat) : State :=
  if !s.anyFn fn || s.busMaster fn || (decide (fn < 64) && s.rdb F.HOST_FN_STATUS_FLR_ACTIVE fn) then s
  else
    let s := (s.setBme fn true).drainHeld fn
    ((List.range 256).foldl (fun s c => if (s.chan c).recs.isEmpty then s else s.drainRecs c) s).flow

/-- BUS_MASTER_CLEAR. -/
def execBusMasterClear (fn : BitVec 7) (s : State) : Res := .next (if s.pins.held then s else s.bmeClear fn.toNat)

/-- BUS_MASTER_SET. -/
def execBusMasterSet (fn : BitVec 7) (s : State) : Res := .next (if s.pins.held then s else s.bmeSet fn.toNat)

/-- Every outstanding read that meets `f` moves to quarantine, to be absorbed (R456). -/
def State.quarReads (s : State) (f : ReadRec → Nat → Bool) : State :=
  (s.host.reads.filter (fun e => f e.2 e.1)).foldl (fun s e => (s.retireRead e.1).quarantine e.1 e.2.fn true) s

/-- What an FLR takes from the link side of a function (R454, R456): pending entries, page requests, translations, reads,
its MSI-X table and control bits. -/
def State.flrLink (s : State) (fn : Nat) : State :=
  let s := (s.setHeld fn []).quarReads (fun r _ => r.fn == fn)
  let h := s.host
  let clr (m : Nat) : Nat := if m.testBit fn then m - 2 ^ fn else m
  let s := { s with host := { h with
    msixAddr := Tab.keep (fun k => k / 2048 != fn) h.msixAddr
    msixData := Tab.keep (fun k => k / 2048 != fn) h.msixData
    unmasked := Tab.keep (fun k => k / 2048 != fn) h.unmasked
    pba := Tab.keep (fun k => k / 2048 != fn) h.pba
    ats := h.ats.filter (fun e => e.fn != fn)
    pageReqs := h.pageReqs.filter (fun e => e.1 != fn)
    pageWaits := h.pageWaits.filter (fun e => e.1 != fn)
    pageAlloc := Tab.erase h.pageAlloc fn
    atsOn := clr h.atsOn
    priOn := clr h.priOn
    roOn := clr h.roOn
    mrrs := Tab.erase h.mrrs fn
    devTmo := Tab.erase h.devTmo fn } }
  (s.setBme fn false).settleInvals

/-- The FLR of one VF's function, or of the PF's: its partition resets (R456). -/
def State.flrPart (s : State) (p : Nat) : State :=
  let s := ((s.flrLink p).startReset p).wr F.HOST_FN_STATUS_FLR_ACTIVE p 1
  s.wr F.HOST_FN_STATUS_PENDING p 0

/-- An FLR of a VF (R456). -/
def State.vfFlr (s : State) (n : Nat) : State := if 1 ≤ n ∧ s.fnExists n then (s.flrPart n).flow else s

/-- What an FLR of the PF clears beside the partitions (R457): every VF goes, the device is no longer open, the peer table is
empty. -/
def State.pfClear (s : State) : State :=
  let s := { s with host := { s.host with numVfs := 0, probe := none, streams := [], awaited := [] }, notices := [] }
  let s := (List.range 384).foldl (fun s i => s.setReg Reg.HOST_PEER_TABLE i 0) s
  let s := (List.range 4).foldl (fun s i => s.setReg Reg.SYS_FEAT_ACCEPT i 0) s
  (s.setReg Reg.SYS_OPEN 0 0).wr F.HOST_PEER_CTRL_GO 0 0

/-- An FLR of the PF (R432, R457): every partition resets, and what the PF configured is cleared. -/
def State.pfFlr (s : State) : State := ((List.range 32).foldl (fun s p => s.flrPart p) s).pfClear.flow

/-- An FLR of a port function (R458): items on the port end as MASTER_OFF would, and the port's tags are quarantined. -/
def State.portFlr (s : State) (port : Nat) : State :=
  if s.role port ≠ 2 then s
  else
    let fn := 64 + port
    let s := (s.setBme fn false).stopRiders fn
    (s.quarReads (fun _ k => k / 16384 == port)).settleInvals.flow

/-- VF_FLR. -/
def execVfFlr (vf : BitVec 5) (s : State) : Res := .next (if s.pins.held then s else s.vfFlr vf.toNat)

/-- PF_FLR. -/
def execPfFlr (s : State) : Res := .next (if s.pins.held then s else s.pfFlr)

/-- PORT_FUNCTION_FLR: an FLR, or PERST_L, of a port function. -/
def execPortFunctionFlr (port : BitVec 3) (s : State) : Res := .next (if s.pins.held then s else s.portFlr port.toNat)

/-- D3HOT_TO_D0 (R458): an FLR of the function. -/
def execD3hotToD0 (fn : BitVec 7) (s : State) : Res :=
  let n := fn.toNat
  .next (if s.pins.held then s else if n = 0 then s.pfFlr else if n < 64 then s.vfFlr n else s.portFlr (n - 64))

/-- An x16 port in the role HOST or PEER goes down (R423): every request outstanding on it retires and its item ends
LINK_DOWN. -/
def State.hostLinkDown (s : State) (n : Nat) : State :=
  if !s.rdb F.HOST_PORT_STATUS_UP n || (s.role n != 1 && s.role n != 2) then s
  else
    let s := (s.wr F.HOST_PORT_STATUS_UP n 0).sat F.HOST_PORT_STATUS_DOWN_COUNT n 1
    let s := (s.emit (.aer (s.portFn n) aerSurprise)).irq 0 7
    let mine := s.host.reads.filter (fun e => e.1 / 16384 == n)
    let s := mine.foldl (fun s e => s.endRead e.1 e.2) s
    mine.foldl (fun s e => if e.2.absorbed then s else s.readFailed e.2 0x0034) s

/-- HOST_LINK_DOWN (R423). -/
def execHostLinkDown (port : BitVec 3) (s : State) : Res :=
  .next (if s.pins.held then s else (s.hostLinkDown port.toNat).flow)

/-- LINK_UP (R423): the port trains again, with its generation, width and mode. -/
def execLinkUp (port : BitVec 3) (gen : BitVec 3) (width : BitVec 5) (flit cxl : Bool) (s : State) : Res :=
  let n := port.toNat
  .next (if s.pins.held || s.role n == 0 || decide (s.variant.ports ≤ n) || s.err.postDown.testBit (n / 2) then s else
    let was := s.rdb F.HOST_PORT_STATUS_UP n
    let s := (((s.wr F.HOST_PORT_STATUS_UP n 1).wr F.HOST_PORT_STATUS_GEN n gen.toNat).wr F.HOST_PORT_STATUS_WIDTH n
      width.toNat).wrb F.HOST_PORT_STATUS_FLIT n flit
    let s := s.wrb F.HOST_PORT_STATUS_CXL n cxl
    (if was then s else s.irq 0 7).flow)

/-- Chain items that wait for a translation of a page under a function (R445, R447). -/
def State.atsUsers (s : State) (fn page : Nat) : List Nat :=
  (s.items.filter (fun e =>
    let it := e.2
    s.fnOf it.part == fn && (match it.work with
      | .chain ws =>
        (it.stage == .ats && (s.untranslated it ws).any (fun a => a / 4096 * 4096 == page)) ||
        (CD.srcSpace ws == 2 && CD.op ws == 1 && it.begun && (match it.runs[it.issued]? with
          | some r => r.1 / 4096 * 4096 == page
          | none => false))
      | _ => false))).map (·.1)

/-- A HOST address cannot be translated: what waits for it ends with ATS_FAULT (R447); a record cannot be written. -/
def State.atsFault (s : State) (fn page : Nat) : State :=
  let ids := s.atsUsers fn page
  let s := ids.foldl (fun s i => match s.item? i with
    | some it => if it.stage = .ats then (s.putItem { it with stage := .running }).stopDesc i 0x0025 0 else s.stopDesc i 0x0025 0
    | none => s) s
  (List.range 256).foldl (fun s c =>
    let x := s.chan c
    let p := (s.lease leaseChannel c).holder
    if s.rd F.CAR_CH_CFG_POOL c ≠ 1 ∨ s.fnOf p ≠ fn then s
    else match x.recs with
      | r :: _ =>
        let a := s.rd F.CAR_RING_BASE_ADDR r.ring * 32 + 32 * (s.rd F.CAR_RING_PROD_COUNT r.ring % 2 ^ s.rd F.CAR_RING_CFG_LOG2 r.ring)
        if s.rdb F.CAR_RING_BASE_HOST r.ring && a / 4096 * 4096 == page then
          ((s.flag F.CAR_RING_STATUS_WRITE_FAIL r.ring).setChState c chHalted).wr F.CAR_CH_STATUS_CAUSE c 5
        else s
      | [] =>
        if s.chState c = chRunning ∧ x.reading ∧ x.next.testBit 0 ∧ x.next / 4096 * 4096 = page ∧ x.chain.isEmpty then
          s.takeDesc c x.next none
        else s) s

/-- What waited for a translation tries again. -/
def State.atsRetry (s : State) (fn : Nat) : State :=
  let l : Tab Item := s.items.map (fun (e : Nat × Item) =>
    if e.2.stage = Stage.ats ∧ s.fnOf e.2.part = fn then (e.1, { e.2 with stage := .running }) else e)
  let s : State := { s with items := l }
  ((List.range 256).foldl (fun s c =>
    if s.fnOf (s.lease leaseChannel c).holder = fn ∧ !(s.chan c).recs.isEmpty then s.drainRecs c else s) s).flow

/-- Send a Page Request, or let it wait for an allocation (R447). -/
def State.askPage (s : State) (fn page : Nat) : State :=
  let h := s.host
  if (h.pageReqs ++ h.pageWaits).contains (fn, page) then s
  else if (h.pageReqs.filter (fun e => e.1 == fn)).length < Tab.get 0 h.pageAlloc fn then
    ({ s with host := { h with pageReqs := h.pageReqs ++ [(fn, page)] } }).emit (.pageRequest fn page)
  else { s with host := { h with pageWaits := h.pageWaits ++ [(fn, page)] } }

/-- A page request is over: the next one that waits goes out. -/
def State.donePage (s : State) (fn page : Nat) : State :=
  let h := s.host
  let s := { s with host := { h with pageReqs := h.pageReqs.filter (fun e => e != (fn, page)) } }
  match s.host.pageWaits.find? (fun e => e.1 == fn) with
  | some (_, g) => ({ s with host := { s.host with pageWaits := s.host.pageWaits.filter (fun e => e != (fn, g)) } }).askPage fn g
  | none => s

/-- Put an entry into the translation cache: it replaces what it covers, and the oldest leaves a full cache (R445). -/
def State.cacheAts (s : State) (e : AtsEnt) : State :=
  let l := s.host.ats.filter (fun x => !(x.fn == e.fn && overlaps x.page x.size e.page e.size)) ++ [e]
  { s with host := { s.host with ats := l.drop (l.length - 4096) } }

/-- TRANSLATION_COMPLETION (R445, R447): the page's translation, its size, and what it grants. -/
def execTranslationCompletion (fn : BitVec 5) (page target : Word) (size : Nat) (read write : Bool) (s : State) : Res :=
  let f := fn.toNat
  let n := min (max size 4096) (2 ^ 30)
  let a := page.toNat / 4096 * 4096
  .next (if s.pins.held || !s.fnExists f || !s.host.atsOn.testBit f then s else
    let needWrite := (s.atsUsers f a).any (fun i => match s.item? i with
      | some it => it.stage == .ats
      | none => false)
    let s := if read then s.cacheAts { fn := f, page := a / n * n, size := n, target := target.toNat / n * n, write } else s
    if read && (write || !needWrite) then s.atsRetry f
    else if s.feature 22 && s.host.priOn.testBit f then s.askPage f a
    else (s.atsFault f a).flow)

/-- INVALIDATION_REQUEST (R446): the entries go at once; the completion follows the reads that used them. -/
def execInvalidationRequest (fn : BitVec 5) (page : Word) (size : Nat) (s : State) : Res :=
  let f := fn.toNat
  let a := page.toNat / 4096 * 4096
  .next (if s.pins.held || !s.fnExists f then s else
    let gone := s.host.ats.filter (fun x => x.fn == f && overlaps x.page x.size a (max size 4096))
    let keys := (s.host.reads.filter (fun e => e.2.fn == f && gone.any (fun x => overlaps x.target x.size e.2.addr e.2.len))).map (·.1)
    let v : Inval := { fn := f, page := a, keys }
    let h : HostState := { s.host with
      ats := s.host.ats.filter (fun x => !gone.contains x)
      invals := s.host.invals ++ [v] }
    ({ s with host := h }).settleInvals)

/-- PAGE_REQUEST_RESPONSE (R447): Success (0) translates again; Invalid Request or Response Failure end what waited. -/
def execPageRequestResponse (fn : BitVec 5) (page : Word) (code : BitVec 4) (s : State) : Res :=
  let f := fn.toNat
  let a := page.toNat / 4096 * 4096
  .next (if s.pins.held || !s.host.pageReqs.contains (f, a) then s else
    let s := s.donePage f a
    if code = 0 then s.askAts f a else (s.atsFault f a).flow)

/-- PRI_TIMEOUT (R447): a page request held for 100 ms. -/
def execPriTimeout (fn : BitVec 5) (page : Word) (s : State) : Res :=
  let f := fn.toNat
  let a := page.toNat / 4096 * 4096
  .next (if s.pins.held || !s.host.pageReqs.contains (f, a) then s else ((s.donePage f a).atsFault f a).flow)

/-- IDE_CHECK_FAIL (R466): the stream is Insecure, and what waits on a completion through it ends with IDE_FAIL. -/
def execIdeCheckFail (port : BitVec 3) (stream : BitVec 4) (s : State) : Res :=
  let n := port.toNat
  let i := stream.toNat
  .next (if s.pins.held || decide (8 < i) || (s.role n != 1 && s.role n != 2) || Tab.get 0 s.host.ide (n * 16 + i) != 2 then s else
    let mine := s.host.reads.filter (fun e => e.1 / 16384 == n && s.ideOf n e.2.addr == (2, i) && !e.2.absorbed)
    let h : HostState := { s.host with
      ide := Tab.set 0 s.host.ide (n * 16 + i) 3
      reads := s.host.reads.map (fun (e : Nat × ReadRec) =>
        if mine.any (fun m => m.1 == e.1) then (e.1, { e.2 with absorbed := true }) else e) }
    let s : State := { s with host := h }
    let s := s.wr F.HOST_IDE_STATUS_INSECURE n (s.rd F.HOST_IDE_STATUS_INSECURE n ||| 2 ^ i)
    let s := s.emit (.aer (s.portFn n) aerIde)
    (mine.foldl (fun s e => s.readFailed e.2 0x0036) s).flow)

/-- VF_ENABLE (R424): VF Enable and NumVFs. Clearing VF Enable resets every VF (R457). -/
def execVfEnable (enable : Bool) (count : BitVec 5) (s : State) : Res :=
  let total := match s.rd F.SYS_STRAPS_VFCOUNT 0 with
    | 0 => 0
    | 1 => 8
    | 2 => 16
    | _ => 31
  let total := if s.rdb F.SYS_START_STATUS_SAFE_BOOT 0 then 0 else total
  .next (if s.pins.held then s
    else if enable then
      if total < count.toNat ∨ s.host.numVfs ≠ 0 then s
      else { s with host := { s.host with numVfs := count.toNat } }
    else
      let n := s.host.numVfs
      let s := (List.range n).foldl (fun s i => s.flrPart (i + 1)) s
      ({ s with host := { s.host with numVfs := 0 } }).flow)

end Sys2Proof.Machine
end

