-- ==== Sys2Proof/Machine/Power.lean ====
section
/-! DEFINITION. Telemetry, throttling, trips and clock loss (chapter 19). -/

namespace Sys2Proof.Machine

/-- Every die except Frank enters the state of R574: DEV_READY falls and nothing runs. -/
def State.hold (s : State) : State := { s with pins := { s.pins with held := true, devReady := false } }

/-- Logic die `n` (0 to 3: M0 to M3, 4 to 7: P0 to P3) is present and online (Table 19-7). -/
def State.dieOnline (s : State) (n : Nat) : Bool :=
  if n < 4 then (s.rd F.SYS_TOPOLOGY_MEADOW_ONLINE 0).testBit n else s.variant.posts.testBit (n - 4)

/-- A reading in 1/16 C; a sensor out of its range counts as 110 C (section 19.4, Faults). -/
def readingOf : Option Nat → Nat
  | some t => min t 4095
  | none => 110 * 16

/-- Write the sensor registers of one sample; an offline sensor is not valid. -/
def State.sampleTemps (s : State) (fT fV : Fld) (online : Nat → Bool) (l : List (Option Nat)) : Nat → State
  | 0 => s
  | i + 1 =>
    let s := s.sampleTemps fT fV online l i
    if online i then (s.wr fT i (readingOf (l.getD i (some 0)))).wr fV i 1 else (s.wr fT i 0).wr fV i 0

/-- The highest online reading among eight sensors. -/
def maxReading (online : Nat → Bool) (l : List (Option Nat)) : Nat → Nat
  | 0 => 0
  | i + 1 => max (maxReading online l i) (if online i then readingOf (l.getD i (some 0)) else 0)

/-- The highest valid reading and its SOURCE among the sensor registers, the lowest source on a tie. -/
def State.hottest (s : State) : Nat → Nat × Nat
  | 0 => (0, 0)
  | i + 1 =>
    let (t, n) := s.hottest i
    let v := if i < 8 then (if s.rdb F.PWR_TEMP_DIE_VALID i then s.rd F.PWR_TEMP_DIE_TEMP i else 0)
      else (if s.rdb F.PWR_TEMP_HBM_VALID (i - 8) then s.rd F.PWR_TEMP_HBM_TEMP (i - 8) else 0)
    if t < v then (v, i) else (t, n)

/-- Rail voltages in Table 19-3 order. -/
def State.sampleRails (s : State) : Nat → List Nat → State
  | _, [] => s
  | i, v :: t => (if i < 10 then s.wr F.PWR_RAIL_MV_MV i v else s).sampleRails (i + 1) t

/-- The hardware comparator: three consecutive samples with a die at 110 C or a stack at 100 C trip the device (R667). -/
def State.tripCheck (s : State) (dies hbm : List (Option Nat)) : State :=
  let hot := decide (110 * 16 ≤ maxReading s.dieOnline dies 8) || decide (100 * 16 ≤ maxReading s.stackOnline hbm 8)
  if !hot then { s with overRun := 0 }
  else if s.overRun + 1 < 3 then { s with overRun := s.overRun + 1 }
  else ({ s with overRun := 3, pins := { s.pins with thermTripLow := true } }).hold

/-- SENSOR_SAMPLE (R662, R667): one 100 us sample of the sensors and the package power estimate in mW. -/
def execSensorSample (dies hbm : List (Option Nat)) (power : Nat) (rails : List Nat) (s : State) : Res :=
  .next (s.live fun s =>
    let s := s.sampleTemps F.PWR_TEMP_DIE_TEMP F.PWR_TEMP_DIE_VALID s.dieOnline dies 8
    let s := s.sampleTemps F.PWR_TEMP_HBM_TEMP F.PWR_TEMP_HBM_VALID s.stackOnline hbm 8
    let (t, n) := s.hottest 16
    let s := (s.wr F.PWR_TEMP_MAX_TEMP 0 t).wr F.PWR_TEMP_MAX_SOURCE 0 n
    let s := (s.wr F.PWR_POWER_MW 0 power).sampleRails 0 rails
    s.tripCheck dies hbm)

/-- PWR_LIMIT in watts: a value outside 200 to TDP reads back as TDP (Table 19-7). -/
def State.powerLimit (s : State) : Nat :=
  let w := s.rd F.PWR_LIMIT_W 0
  if 200 ≤ w ∧ w ≤ s.variant.tdp then w else s.variant.tdp

/-- PWR_THERM_CFG.THROTTLE_C: a value outside 80 to 95 reads back as 95 (Table 19-7). -/
def State.throttleC (s : State) : Nat :=
  let c := s.rd F.PWR_THERM_CFG_THROTTLE_C 0
  if 80 ≤ c ∧ c ≤ 95 then c else 95

/-- The highest online die reading and the highest online stack reading, in 1/16 C. -/
def State.tDie (s : State) : Nat :=
  (List.range 8).foldl (fun m i => if s.rdb F.PWR_TEMP_DIE_VALID i then max m (s.rd F.PWR_TEMP_DIE_TEMP i) else m) 0

def State.tHbm (s : State) : Nat :=
  (List.range 8).foldl (fun m i => if s.rdb F.PWR_TEMP_HBM_VALID i then max m (s.rd F.PWR_TEMP_HBM_TEMP i) else m) 0

/-- The level the procedure of R663 sets next. -/
def throttleLevel (level : Nat) (pwrbrkLow hot cool : Bool) : Nat :=
  if pwrbrkLow then 7 else if hot then min (level + 1) 7 else if cool then level - 1 else level

/-- THERM_ALERT_L is low while the level is above 0 or OVER_TJ holds (R664). -/
def State.thermAlert (s : State) : State :=
  { s with pins := { s.pins with thermAlertLow := s.rdb F.PWR_THROTTLE_STATUS_LEVEL 0 || s.overTj } }

/-- THROTTLE_TICK (R663, R664): the binding procedure of R663, once a millisecond. -/
def execThrottleTick (s : State) : Res :=
  .next (s.live fun s =>
    let tDie := s.tDie
    let tHbm := s.tHbm
    let p := s.rd F.PWR_POWER_MW 0
    let c := s.throttleC
    let limit := s.powerLimit
    let hotT := decide (c * 16 ≤ tDie) || decide (85 * 16 ≤ tHbm)
    let hotP := decide (limit * 1000 < p)
    let cool := decide (tDie < (c - 3) * 16) && decide (tHbm < 82 * 16) && decide (p * 100 < limit * 95000)
    let level := s.rd F.PWR_THROTTLE_STATUS_LEVEL 0
    let next := throttleLevel level s.pins.pwrbrkLow (hotT || hotP) cool
    let raised := !s.pins.pwrbrkLow && decide (level < next)
    let hot := decide (100 * 16 ≤ tDie)
    let s := { s with overTj := hot }
    let s := s.wr F.PWR_THROTTLE_STATUS_LEVEL 0 next
    let s := if raised && hotT then s.flag F.PWR_THROTTLE_STATUS_THERMAL 0 else s
    let s := if raised && hotP then s.flag F.PWR_THROTTLE_STATUS_POWER 0 else s
    let s := if hot then s.flag F.PWR_THROTTLE_STATUS_OVER_TJ 0 else s
    let s := if 0 < next then s.sat F.PWR_THROTTLE_STATUS_MS 0 1 else s
    s.thermAlert)

/-- PWRBRK_FALL (R665): level 7 without waiting for a tick. -/
def execPwrbrkFall (s : State) : Res :=
  let s := { s with pins := { s.pins with pwrbrkLow := true } }
  .next (s.live fun s =>
    ((s.wr F.PWR_THROTTLE_STATUS_LEVEL 0 7).flag F.PWR_THROTTLE_STATUS_PWRBRK 0).thermAlert)

/-- PWRBRK_RISE (R665): R663 resumes at the next tick, from level 7. -/
def execPwrbrkRise (s : State) : Res :=
  .next { s with pins := { s.pins with pwrbrkLow := false } }

/-- CLOCK_LOSS (R657): loss of REF, or of a PLL's lock after start-up, holds the device and drives DEV_FAULT_L low until
the cold reset that follows PWROK's next rise. -/
def execClockLoss (pll : Bool) (s : State) : Res :=
  .next (s.live fun s =>
    if pll && !s.rdb F.SYS_START_STATUS_READY 0 then s
    else ({ s with pins := { s.pins with devFaultLow := true } }).hold)

end Sys2Proof.Machine
end

