-- ==== Sys2Proof/Machine/Reset.lean ====
section
/-! DEFINITION. Cold and warm resets, straps, images, and the phases of start-up that need no register map (sections 16.1
to 16.6). -/

namespace Sys2Proof.Machine

/-- Phases of start-up (Table 16-5). -/
def phStraps : Nat := 1
def phRom : Nat := 2
def phRecovery : Nat := 3
def phConfig : Nat := 4
def phDies : Nat := 5
def phZero : Nat := 6
def phLinks : Nat := 7
def phReady : Nat := 8
def phFailed : Nat := 15

def State.phase (s : State) : Nat := s.rd F.SYS_START_STATUS_PHASE 0
def State.setPhase (s : State) (v : Nat) : State := s.wr F.SYS_START_STATUS_PHASE 0 v

/-- What both reset kinds do to everything but the registers (R600, Table 16-7). Heath and Moor keep their bytes until they
are zeroed (R596). -/
def State.wipe (s : State) (retired : Tab Nat) (list : Tab (List Nat)) : State :=
  let i := State.reset
  { s with
    time := 0, overRun := 0, overTj := false, mcRecord := none
    gregs := [], tregs := [], pregs := [], scratch := [], cores := [], items := [], plans := [], tiles := []
    mem := s.mem.filter (fun e => !isMeadow e.1), poison := s.poison.filter (fun e => !isMeadow (e.1 * 32))
    llc := [], plru := [], pinUnits := [], pinRanges := [], pages := [], granules := [], space := [], zeroQ := []
    sos := [], leases := [], err := { ErrState.none with retired, retireList := list }, host := i.host
    chans := [], rings := [], notices := [], walks := [], streams := [], migs := [], eth := i.eth, txq := [], rangeWr := []
    demoting := [], slots := [], spdm := i.spdm
    boot := { s.boot with running := none, fromSlot := none, sites := 0, startDies := 0, moorSeen := 0, inUse := []
                          escalate := false }
    pins := { s.pins with devReady := false, perstLow := 255, thermAlertLow := false } }

/-- Record a reset's cause: the bit numbered `bit` of SYS_RESET_CAUSE and LAST (Table 16-9). -/
def State.cause (s : State) (bit : Nat) : State :=
  let s := s.setReg Reg.SYS_RESET_CAUSE 0 (s.reg Reg.SYS_RESET_CAUSE 0 ||| BitVec.ofNat 64 (2 ^ bit))
  s.wr F.SYS_RESET_CAUSE_LAST 0 bit

/-- A cold reset (R599, R600): straps are sampled again, RSTK bits and a debug unlock are cleared, the retirement list is
empty. -/
def State.coldReset (s : State) (bit : Nat) : State :=
  let s := { s.wipe [] [] with
    regs := resetRegs .cold s.regs
    admits := []
    boot := { s.boot with running := none, fromSlot := none, secret := true, sites := 0, startDies := 0, moorSeen := 0
                          inUse := [], escalate := false }
    pins := { s.pins with held := true, devReady := false, devFaultLow := false, thermAlertLow := false
                          thermTripLow := false, perstLow := 255 } }
  (s.cause bit).setPhase phStraps

/-- A warm reset (R599, R600): it begins at ROM, or waits while HOST PERST_L is low. It does not leave the hold of R574 or of
a clock loss. -/
def State.warmReset (s : State) (bit : Nat) : State :=
  if s.pins.held then s
  else
    let esc := s.boot.escalate
    let n := s.rd F.SYS_RESET_CAUSE_WARM_COUNT 0
    let s := { s.wipe s.err.retired s.err.retireList with regs := resetRegs .warm s.regs }
    let s := (s.cause bit).wr F.SYS_RESET_CAUSE_WARM_COUNT 0 (min (n + 1) 4095)
    let s := if esc then s.wr F.SYS_RESET_CAUSE_ESCALATION 0 1 else s
    s.setPhase (if s.pins.hostPerstLow then 0 else phRom)

/-- Start-up ends in FAILED (R598). -/
def State.startFail (s : State) (c : Nat) : State := (s.setPhase phFailed |>.wr F.SYS_START_STATUS_FAILED 0 1).wr
  F.SYS_START_STATUS_FAIL_CAUSE 0 c

/-- PWROK_RISE (R573, R574): a cold reset. -/
def execPwrokRise (s : State) : Res :=
  .next (if s.pins.pwrok then s else ({ s with pins := { s.pins with pwrok := true } }).coldReset 0)

/-- PWROK_FALL (R574). -/
def execPwrokFall (s : State) : Res := .next ({ s with pins := { s.pins with pwrok := false } }).hold

/-- STRAP_SAMPLE (R576 to R579): PWROK has been high for 10 ms, or 10 ms have passed since a cold reset request. `straps`:
the levels of the lands, in the bit places of SYS_STRAPS; `testmode`: TESTMODE is high. -/
def execStrapSample (straps : BitVec 12) (testmode : Bool) (s : State) : Res :=
  .next (if !s.pins.pwrok || s.phase != phStraps || !s.pins.held then s else
    let s := { s with pins := { s.pins with straps := straps.toNat, testmode } }
    let w := s.pins.straps
    let f (lo n : Nat) : Nat := bitsOf w lo n
    let bs := f 0 2
    let mg := f 4 2
    let ep := f 9 2
    let s := ((((s.wr F.SYS_STRAPS_BOOT_SRC 0 bs).wr F.SYS_STRAPS_HOSTPORT 0 (f 2 2)).wr F.SYS_STRAPS_MAXGEN 0 mg).wr
      F.SYS_STRAPS_VFCOUNT 0 (f 6 2)).wr F.SYS_STRAPS_BAR4_EN 0 (f 8 1)
    let s := (s.wr F.SYS_STRAPS_ETH_PROFILE 0 ep).wr F.SYS_STRAPS_SAFE_L 0 (f 11 1)
    let s := ((s.wr F.SYS_STRAPS_BOOT_SRC_APPLIED 0 (if bs = 3 then 0 else bs)).wr F.SYS_STRAPS_MAXGEN_APPLIED 0
      (if mg = 3 then 2 else mg)).wr F.SYS_STRAPS_ETH_PROFILE_APPLIED 0 ep
    let s := s.wr F.SYS_STRAPS_FALLBACK 0 (b2n (bs == 3) + 2 * b2n (mg == 3) + 4 * b2n (ep == 3))
    if s.pins.testmode then s.setPhase 0
    else ({ s with pins := { s.pins with held := false } }).setPhase phRom)

/-- PLL_LOCK_TIMEOUT (R598). -/
def execPllLockTimeout (s : State) : Res :=
  .next (if s.pins.held || s.phase != phRom then s else s.startFail 1)

/-- The ROM accepts an image (R531). -/
def State.accepts (s : State) (i : FwImage) : Bool := i.genuine && decide (s.boot.minSvn ≤ i.svn)

/-- SEQUENCE `a` is newer than `b` (R582). -/
def newer (a b : Nat) : Bool := let d := (a + 2 ^ 32 - b) % 2 ^ 32; decide (1 ≤ d) && decide (d < 2 ^ 31)

/-- The firmware runs: CONFIG begins, and MGT_SEC_STATUS reports the image (R582, R593). An Alias key is derived where the
unique secret's copy is present (R532, R536). -/
def State.runImage (s : State) (i : FwImage) (slot : Option Bool) : State :=
  let s := { s with
    boot := { s.boot with running := some i, fromSlot := slot }
    spdm := { Spdm.initial with aliasKey := s.boot.secret } }
  let s := ((s.wr F.SYS_FW_VERSION_BUILD 0 i.build).wr F.SYS_FW_VERSION_MINOR 0 i.minor).wr F.SYS_FW_VERSION_MAJOR 0 i.major
  (((s.wrb F.MGT_SEC_STATUS_IMAGE 0 (slot == some true)).wr F.MGT_SEC_STATUS_KEY_SLOT 0 i.keySlot).wr F.MGT_SEC_STATUS_SVN 0
    i.svn).setPhase phConfig

/-- FIRMWARE_START (R531, R582, R583, R598): the OTP check, then the newest slot whose image the ROM accepts, or recovery.
`errA`, `errB`: a flash read error makes that slot empty for this boot. -/
def execFirmwareStart (otpOk errA errB : Bool) (s : State) : Res :=
  .next (if s.pins.held || s.phase != phRom then s
    else if !otpOk then s.startFail 2
    else if s.rd F.SYS_STRAPS_BOOT_SRC_APPLIED 0 ≠ 0 then s.setPhase phRecovery
    else
      let a := (if errA then none else s.boot.slotA).map (fun x => (x, false))
      let b := (if errB then none else s.boot.slotB).map (fun x => (x, true))
      let l : List (FwSlot × Bool) := match a, b with
        | some x, some y => if newer y.1.sequence x.1.sequence then [y, x] else [x, y]
        | some x, none => [x]
        | none, some y => [y]
        | none, none => []
      match l.findIdx? (fun x => s.accepts x.1.image) with
      | none => s.setPhase phRecovery
      | some k => match l[k]? with
        | some x =>
          let s := s.runImage x.1.image (some x.2)
          if k = 0 then s else s.wr F.SYS_START_STATUS_IMAGE_FALLBACK 0 1
        | none => s)

/-- RECOVERY_IMAGE (R584): an image arrives over the HOST port or over I3C. The HOST source is not offered under BOOT_SRC
0b10. -/
def execRecoveryImage (host : Bool) (image : FwImage) (s : State) : Res :=
  .next (if s.pins.held || s.phase != phRecovery || (host && s.rd F.SYS_STRAPS_BOOT_SRC_APPLIED 0 == 2) || !s.accepts image then s
    else s.runImage image none)

/-- The online sites and dies take effect (R27, R29, R595): cores, slices and units of a die left out. -/
def State.setSites (s : State) (sites : Nat) : State :=
  let up (n : Nat) : Bool := bitsOf sites (2 * n) 2 != 0
  let dies := (List.range 4).foldl (fun a n => if up n then a + 2 ^ n else a) 0
  let s := (s.wr F.SYS_HBM_STATUS_ONLINE 0 sites).wr F.SYS_TOPOLOGY_MEADOW_ONLINE 0 dies
  let s := s.wr F.SYS_HBM_STATUS_MEADOW_GB 0 (48 * popcount 8 sites)
  let s := (List.range 64).foldl (fun s c => if up (c / 16) then s else s.setCoreState c coreFenced) s
  let s := (List.range 4).foldl (fun s n => if up n then s else s.wr F.LLC_SLICE_STATUS_ONLINE n 0) s
  let s := (List.range 32).foldl (fun s u => if up (u / 8) then s else s.wr F.BAL_UNIT_STATUS_ONLINE u 0) s
  (List.range 16).foldl (fun s u => if up (u / 4) then s else s.wr F.TED_UNIT_STATUS_ONLINE u 0) s

/-- DIES_DONE (R595, R598): the sites that trained, the dies left out for a failed Meadow-Meadow link, and the Post dies whose
Mn-Pn link failed. -/
def execDiesDone (sites : BitVec 8) (meshLost postLost : BitVec 4) (s : State) : Res :=
  .next (if s.pins.held || s.phase != phDies then s else
    let ok (i : Nat) : Bool := sites.toNat.testBit i && s.variant.sites.testBit i && !meshLost.toNat.testBit (i / 2) &&
      !s.rdb F.ERR_RETIRE_FULL i
    let w := (List.range 8).foldl (fun a i => if ok i then a + 2 ^ i else a) 0
    let s := ({ s with err := { s.err with postDown := postLost.toNat }, boot := { s.boot with sites := w } }).setSites w
    if w = 0 then s.startFail 4
    else if w % 4 = 0 ∨ postLost.toNat.testBit 0 then s.startFail 3
    else s.setPhase phZero)

/-- ZERO_PASS_DONE (R593, R595, R601): a site that fails the zero pass is offline; the HEATH ports leave reset. -/
def execZeroPassDone (failed : BitVec 8) (s : State) : Res :=
  .next (if s.pins.held || s.phase != phZero then s else
    let w := (List.range 8).foldl (fun a i => if s.boot.sites.testBit i && !failed.toNat.testBit i then a + 2 ^ i else a) 0
    let s := ({ s with boot := { s.boot with sites := w } }).setSites w
    if w = 0 then s.startFail 4
    else if w % 4 = 0 then s.startFail 3
    else ({ s with pins := { s.pins with perstLow := 0 } }).setPhase phLinks)

/-- The Heath regions of the ports that came up, in port and decoder order (R36, R281): port, decoder, units of 256 MiB; and
the bytes left out. -/
def heathRegions (l : List HeathPortUp) : List (Nat × Nat × Nat) × Nat :=
  let ds := l.flatMap (fun h => (List.range h.decoders.length).map (fun d => (h.port, d, h.decoders.getD d 0)))
  ds.foldl (fun (a : List (Nat × Nat × Nat) × Nat) x =>
    let used := a.1.foldl (fun t r => t + r.2.2) 0
    let n := if a.1.length < 16 then min (x.2.2 / 2 ^ 28) (2 ^ 15 - used) else 0
    if n = 0 then (a.1, a.2 + x.2.2) else (a.1 ++ [(x.1, x.2.1, n)], a.2 + (x.2.2 - n * 2 ^ 28))) ([], 0)

/-- Heath ports that trained are UP, the others DOWN; a port whose device another host manages is FOREIGN (R595). -/
def State.heathPortsUp (s : State) (heath mine : List HeathPortUp) : State :=
  let s := heath.foldl (fun s h => if h.foreign && s.role h.port == 3 then s.wr F.HOST_PORT_STATUS_FOREIGN h.port 1 else s) s
  (List.range 8).foldl (fun s n => if s.role n ≠ 3 then s
    else if mine.any (fun h => h.port == n) then ((s.setHeathState n 0).wr F.HOST_PORT_STATUS_UP n 1).wr F.HOST_PORT_STATUS_CXL n 1
    else s.setHeathState n 1) s

/-- The mapped regions of Heath, one after the other, in units of 256 MiB: the registers that show them and their sum. -/
def State.mapRegions (s : State) (rs : List (Nat × Nat × Nat)) : State × Nat :=
  let r := rs.foldl (fun (a : State × Nat × Nat) r =>
    let k := a.2.2
    let s := (((a.1.wr F.TIER_HEATH_RGN_PORT k r.1).wr F.TIER_HEATH_RGN_VALID k 1).wr F.TIER_HEATH_RGN_DECODER k r.2.1).wr
      F.TIER_HEATH_RGN_SIZE k r.2.2
    (s.wr F.TIER_HEATH_RGN_BASE k a.2.1, a.2.1 + r.2.2, k + 1)) (s, 0, 0)
  (r.1, r.2.1)

/-- The mapped regions as ranges that start-up zeroes (R596). -/
def bootZeroes (rs : List (Nat × Nat × Nat)) : List ZeroRange :=
  (rs.foldl (fun (a : List ZeroRange × Nat) r =>
    (a.1 ++ [{ key := heathKey (a.2 * 2 ^ 28), len := r.2.2 * 2 ^ 28, part := 0, why := ZeroWhy.boot }], a.2 + r.2.2)) ([], 0)).1

/-- The device is ready (R597). -/
def State.startReady (s : State) (z : List ZeroRange) : State :=
  let s := { s with
    zeroQ := s.zeroQ ++ z
    boot := { s.boot with startDies := s.rd F.SYS_TOPOLOGY_MEADOW_ONLINE 0 }
    pins := { s.pins with devReady := true } }
  (s.wr F.SYS_START_STATUS_READY 0 1).wr F.SYS_START_STATUS_START_MS 0 (s.time / 1000000)

/-- LINKS_DONE (R281, R596, R597): Heath is mapped, its space waits to be zeroed, and the device is ready. -/
def execLinksDone (heath : List HeathPortUp) (s : State) : Res :=
  .next (if s.pins.held || s.phase != phLinks then s else
    let mine := (List.range 8).filterMap (fun n => if s.role n = 3 ∧ !s.err.postDown.testBit (n / 2) then
      heath.find? (fun h => h.port == n && h.up) else none)
    let r := heathRegions mine
    let x := (s.heathPortsUp heath mine).mapRegions r.1
    let s := (x.1.wr F.TIER_HEATH_MAPPED_BYTES 0 (x.2 * 2 ^ 28)).wr F.TIER_HEATH_UNMAPPED_BYTES 0 r.2
    (((s.startReady (bootZeroes r.1)).capacityCheck 0).capacityCheck 1).setPhase phReady)

/-- HOST_PERST_DEASSERT (R594, R599): a warm reset that PERST_L held goes on at ROM. -/
def execHostPerstDeassert (s : State) : Res :=
  let s := { s with pins := { s.pins with hostPerstLow := false } }
  .next (if !s.pins.held ∧ s.phase = 0 then s.setPhase phRom else s)

/-- PERST_ASSERT (R599): HOST PERST_L. -/
def execPerstAssert (s : State) : Res :=
  .next (({ s with pins := { s.pins with hostPerstLow := true } }).warmReset 2)

/-- HOT_RESET (R599): Hot Reset or Link Disable on the HOST link. -/
def execHotReset (s : State) : Res := .next (s.warmReset 3)

/-- A write of SYS_RESET_CTRL (R599): KEY 0xA5; COLD wins over WARM. -/
def State.resetCtrl (s : State) (w : Word) : State :=
  if F.SYS_RESET_CTRL_KEY.get w ≠ 0xA5 then s
  else if F.SYS_RESET_CTRL_COLD.get w = 1 then if s.pins.held then s else s.coldReset 1
  else if F.SYS_RESET_CTRL_WARM.get w = 1 then s.warmReset 4
  else s

/-- COLD: a PF write of SYS_RESET_CTRL with COLD set. -/
def execCold (key : BitVec 8) (s : State) : Res :=
  .next (s.resetCtrl (BitVec.ofNat 64 (key.toNat * 2 ^ 8 + 2 ^ 16)))

/-- WARM: a PF write of SYS_RESET_CTRL with WARM set and COLD clear. -/
def execWarm (key : BitVec 8) (s : State) : Res :=
  .next (s.resetCtrl (BitVec.ofNat 64 (key.toNat * 2 ^ 8 + 2 ^ 17)))

/-- MC_WATCHDOG (R599, R629, R630): device cause 4; the watchdog hardware performs only the warm reset, which takes both
causes. -/
def execMcWatchdog (s : State) : Res :=
  .next (if s.pins.held then s else
    let s := { s with boot := { s.boot with escalate := true } }
    let s := s.flag F.ERR_STATUS_DEVICE_FATAL 0
    (if s.rd F.ERR_DEVICE_CAUSE_CAUSE 0 = 0 then s.wr F.ERR_DEVICE_CAUSE_CAUSE 0 4 else s).warmReset 6)

/-- PLDM_RESET_REQUEST (R599): from the management port. -/
def execPldmResetRequest (s : State) : Res := .next (s.warmReset 5)

/-- A device cause (R629, R630). Cause 1 leaves only the watchdog's warm reset. -/
def State.deviceCause (s : State) (c : Nat) : State :=
  let s := s.flag F.ERR_STATUS_DEVICE_FATAL 0
  if s.err.deviceStop then s
  else
    let s := if s.rd F.ERR_DEVICE_CAUSE_CAUSE 0 = 0 then s.wr F.ERR_DEVICE_CAUSE_CAUSE 0 c else s
    if c = 1 then s.warmReset 7
    else
      let s := s.deadLetter 0 (Dead.plain 10 7 0 c)
      let s := if s.rdb F.HOST_PORT_STATUS_UP s.hostPort then s.emit (.aer 0 aerInternal) else s
      ({ s with err := { s.err with deviceStop := true } }).emit (.pldmEvent c)

/-- ESCALATION_TIMEOUT (R630): ERR_ESCALATE_MS after a device cause. -/
def execEscalationTimeout (s : State) : Res :=
  .next (if s.err.deviceStop ∧ s.rd F.ERR_ESCALATE_MS_MS 0 ≠ 0 then s.warmReset 7 else s)

/-- FLR_TIMEOUT (R629): an FLR not complete within 100 ms. -/
def execFlrTimeout (fn : BitVec 7) (s : State) : Res :=
  .next (if !s.pins.held ∧ fn.toNat < 64 ∧ s.rdb F.HOST_FN_STATUS_FLR_ACTIVE fn.toNat = true then s.deviceCause 3 else s)

/-- FIRMWARE_UPDATE (R585, R603): a PLDM update of the slot that does not hold the running image. `complete`: it ran to
ActivateFirmware without a fault; the slot record is written last. -/
def execFirmwareUpdate (image : FwImage) (complete : Bool) (s : State) : Res :=
  .next (match s.boot.running with
    | none => s
    | some _ =>
      if s.pins.held then s
      else
        let seqOf (x : Option FwSlot) : Nat := match x with
          | some y => y.sequence
          | none => 0
        let newest : Nat := match s.boot.slotA, s.boot.slotB with
          | some x, some y => if newer y.sequence x.sequence then y.sequence else x.sequence
          | some x, none => x.sequence
          | none, some y => y.sequence
          | none, none => 0
        let toB : Bool := match s.boot.fromSlot with
          | some b => !b
          | none => match s.boot.slotA, s.boot.slotB with
            | some x, some y => newer x.sequence y.sequence
            | some _, none => true
            | none, _ => false
        let seq := match s.boot.fromSlot with
          | some true => seqOf s.boot.slotB + 1
          | some false => seqOf s.boot.slotA + 1
          | none => newest + 1
        let x : Option FwSlot := if complete && s.accepts image && !s.pins.pwrfailLow then
          some { sequence := seq % 2 ^ 32, image } else none
        if s.pins.pwrfailLow then s
        else { s with boot := if toB then { s.boot with slotB := x } else { s.boot with slotA := x } })

/-- PWRFAIL_FALL (R550, R603): the tally engine's final frame, no new flash writes, a configuration command in progress ends
POWER_FAIL. -/
def execPwrfailFall (s : State) : Res :=
  let s := { s with pins := { s.pins with pwrfailLow := true } }
  .next (if s.rdb F.PWR_PWRFAIL_STATUS_LEVEL 0 || s.pins.held then s else
    let s := s.finalFrame
    let s := ((s.wr F.PWR_PWRFAIL_STATUS_LEVEL 0 1).flag F.PWR_PWRFAIL_STATUS_SEEN 0).sat F.PWR_PWRFAIL_STATUS_COUNT 0 1
    let s := if s.rdb F.MGT_CFGS_CTRL_GO 0 then
      ((s.wr F.MGT_CFGS_STATUS_RESULT 0 5).flag F.MGT_CFGS_STATUS_DONE 0).wr F.MGT_CFGS_CTRL_GO 0 0 else s
    s.emit (.pldmEvent 0))

/-- PWRFAIL_RISE (R605). -/
def execPwrfailRise (s : State) : Res :=
  let s := { s with pins := { s.pins with pwrfailLow := false } }
  .next (if s.pins.held then s else s.wr F.PWR_PWRFAIL_STATUS_LEVEL 0 0)

end Sys2Proof.Machine
end

