-- ==== Sys2Proof/Machine/Err.lean ====
section
/-! DEFINITION. Errors of memory and of dies: poison nobody asked for, page retirement, scrubbing, zeroing, the fence of a
Meadow die, lost links (chapter 17). -/

namespace Sys2Proof.Machine

/-- Entries of retired pages and weak pages are kept by stack. -/
def addTo (t : Tab (List Nat)) (k x : Nat) : Tab (List Nat) :=
  let l := Tab.get [] t k
  if l.contains x then t else Tab.put t k (l ++ [x])

/-- The range leaves the zeroing queue. -/
def unqueue (q : List ZeroRange) (k n : Nat) : List ZeroRange :=
  q.flatMap (fun z =>
    if overlaps z.key z.len k n then
      (if z.key < k then [{ z with len := k - z.key }] else []) ++
      (if k + n < z.key + z.len then [{ z with key := k + n, len := z.key + z.len - (k + n) }] else [])
    else [z])

/-- A page of Meadow holds nothing of anyone: no allocated run meets it, and it lies outside the device reserve. -/
def State.pageIdle (s : State) (page : Nat) : Bool :=
  let k := page * 4096
  let n := dieOf k
  s.meadowOn n && decide (k % 2 ^ 39 + 4096 ≤ s.dieCap n - s.reserveShare n) &&
    s.space.all (fun e => !overlaps e.1 e.2.len k 4096)

/-- A page is free: idle, and none of it waits to be zeroed. -/
def State.pageFree (s : State) (page : Nat) : Bool :=
  s.pageIdle page && s.zeroQ.all (fun z => !overlaps z.key z.len (page * 4096) 4096)

/-- An entry of partition 0's log about a retirement of stack `site` (Table 17-4). -/
def retireDead (source k count : Nat) (refused : Bool) : Dead :=
  { Dead.plain 8 source 0 (count + b2n refused * 2 ^ 11) with addr := k, addrKind := 1 }

/-- Retire a page that nobody uses, against a stack, or refuse it where the stack's list is full (R619 to R622). The answer
says whether it is retired. -/
def State.retirePage (s : State) (page site source : Nat) : Bool × State :=
  if (Tab.find? s.err.retired page).isSome then (true, s)
  else
    let n := s.rd F.ERR_RETIRE_COUNT site
    if 1024 ≤ n then
      let s := ((s.wr F.ERR_RETIRE_FULL site 1).sat F.ERR_RETIRE_REFUSED site 1).flag F.ERR_STATUS_RETIRE_FULL 0
      (false, s.deadLetter 0 (retireDead source (page * 4096) n true))
    else
      let e := s.err
      let s := { s with
        err := { e with
          retired := Tab.put e.retired page site
          retireList := addTo e.retireList site page }
        zeroQ := unqueue s.zeroQ (page * 4096) 4096 }
      let s := s.wr F.ERR_RETIRE_COUNT site (n + 1)
      (true, (s.deadLetter 0 (retireDead source (page * 4096) (n + 1) false)).capacityCheck 0)

/-- The cause of Table 14-9 for poison in a plan area: 2 for plan code, object table, records, rule tables and override
table, 4 for the metadata reserve and the rest of the plan area. -/
def State.planCause (s : State) (p va : Nat) : Nat :=
  match (s.plan p).plan with
  | none => 4
  | some pl =>
    let inside (a n : Nat) : Bool := decide (a ≤ va) && decide (va < a + n)
    let tiles := pl.objects.foldl (fun n o => n + o.tiles) 0
    if inside pl.metaBase (32 * tiles) then 4
    else if inside pl.codeBase pl.codeSize || inside pl.imageAddr pl.imageSize ||
      pl.objects.any (fun o => inside o.recordBase (32 * o.tiles)) || inside pl.areaBase pl.areaSize then 2
    else 4

/-- The allocated run that holds a location. -/
def State.runOf (s : State) (k : Nat) : Option (Nat × Extent) :=
  List.find? (fun (e : Nat × Extent) => decide (e.1 ≤ k) && decide (k < e.1 + e.2.len)) s.space

/-- A movement of which `k` is the destination and that has not committed. -/
def State.destItem (s : State) (k : Nat) : Option Item :=
  (List.find? (fun (e : Nat × Item) => match e.2.resv with
    | some (_, a, n) => decide (a ≤ k) && decide (k < a + n) && e.2.before.isNone
    | none => false) s.items).map (·.2)

/-- A poisoned sector that nobody asked for: what it costs its owner (R615 to R618, Table 17-1). -/
def State.poisonFound (s : State) (k source : Nat) : State :=
  match s.destItem k with
  | some it => match it.work with
    | .granule .. => s.granAbandon it.id 0x0040
    | _ => s.stopItem it.id 0x0040
  | none => match s.runOf k with
    | some (base, e) => match e.kind with
      | .tile obj tile =>
        let r := s.tile e.part obj tile
        if r.home != .none && r.key == base && decide (k < base + r.stored) then s.heal e.part obj tile source 0 (some k)
        else s
      | .granule va =>
        let at' := va + (k - base)
        match s.page? e.part va with
        | some pg =>
          if pg.plan then s.fatal e.part (s.planCause e.part at') source 0
          else
            let a := deadAddr k
            s.deadLetter e.part { Dead.plain 3 source 0 0 with addr := a.1, addrKind := a.2 }
        | none => s
    | none =>
      if isMeadow k && s.pageFree (k / 4096) then (s.retirePage (k / 4096) (s.siteOf k) source).2 else s

/-- A location lies in the Meadow device reserve (R689). -/
def State.inReserve (s : State) (k : Nat) : Bool :=
  let n := dieOf k
  isMeadow k && s.meadowOn n && decide (s.dieCap n - s.reserveShare n ≤ k % 2 ^ 39) && decide (k % 2 ^ 39 < s.dieCap n)

/-- The cached sector of a DPA. -/
def State.cachedSector (s : State) (k : Nat) : Option (Nat × Line × Sector) :=
  match s.llcWay k with
  | none => none
  | some w => (Tab.find? s.llc (llcIndex k * 16 + w)).map (fun l => (w, l, l.sectors.getD (bitsOf k 5 2) Sector.invalid))

/-- Replace a cached sector without touching the replacement state. -/
def State.setCached (s : State) (k w : Nat) (l : Line) (x : Sector) : State :=
  { s with llc := Tab.put s.llc (llcIndex k * 16 + w) { l with sectors := setAt l.sectors (bitsOf k 5 2) x } }

/-- Count a corrected error of a site (R608). -/
def State.countCe (s : State) (site : Nat) : State := s.sat F.ERR_CE_HBM_COUNT site 1

/-- The scrubber finds an uncorrectable error at a sector (R613, R615). -/
def State.scrubUe (s : State) (k : Nat) (use : RsvUse) : State :=
  if s.poisonAt k then s
  else
    let bad := (s.countUe 1 k).setPoison k true
    match s.cachedSector k with
    | some (w, l, x) =>
      if x.valid && !x.poison then
        (if x.dirty then s.setCached k w l { x with stale := s.bytes k 32 } else s).countCe (s.siteOf k)
      else if x.valid || x.dirty then bad
      else if s.inReserve k then bad else bad.poisonFound k 1
    | none =>
      if s.inReserve k then
        match use with
        | .device => bad.deviceCause 2
        | .table p => bad.fatal p.toNat 3 1 0
      else bad.poisonFound k 1

/-- A sector corrected in two successive passes is weak: its page is listed, and retired once it is free (R612, R619). -/
def State.noteFixed (s : State) (k : Nat) : State :=
  let site := s.siteOf k
  let e := s.err
  let weak := (Tab.get [] e.fixedLast site).contains (k / 32)
  let s := { s with err := { e with fixedNow := addTo e.fixedNow site (k / 32) } }
  if weak && decide ((Tab.get [] s.err.weak site).length < 256) then
    let e := s.err
    let s := { s with err := { e with weak := addTo e.weak site (k / 4096) } }
    if s.pageFree (k / 4096) then (s.retirePage (k / 4096) site 1).2 else s
  else s

/-- SCRUB_READ (R611 to R613, R615): the scrubber of a stack reads a sector. `last`: the read completes a pass; `behind`: the
pass has run beyond its period. -/
def execScrubRead (dpa : BitVec 41) (find : ScrubFind) (last behind : Bool) (s : State) : Res :=
  let k := dpa.toNat / 32 * 32
  .next (if s.pins.held || !s.rdb F.ERR_SCRUB_CFG_EN 0 || !s.meadowOn (dieOf k) || decide (s.dieCap (dieOf k) ≤ k % 2 ^ 39) then s
    else
      let site := s.siteOf k
      let s := match find with
        | .clean => s
        | .correctable => (s.countCe site).noteFixed k
        | .uncorrectable use => s.scrubUe k use
      let s := if behind then s.flag F.ERR_SCRUB_STATUS_BEHIND 0 else s
      (if last then
        let e := s.err
        ({ s with err := { e with
            fixedLast := Tab.set [] e.fixedLast site (Tab.get [] e.fixedNow site)
            fixedNow := Tab.erase e.fixedNow site } }).bump F.ERR_SCRUB_STATUS_PASSES 0 1
      else s).flow)

/-- HEATH_MEDIA_EVENT (R463, R618): an expander reports uncorrectable data at a Heath offset. -/
def execHeathMediaEvent (offset : BitVec 48) (s : State) : Res :=
  let k := heathKey (offset.toNat / 32 * 32)
  .next (if s.pins.held || !s.regions.any (fun r => decide (heathKey r.2.1 ≤ k) && decide (k < heathKey (r.2.1 + r.2.2))) then s
    else if s.poisonAt k then s
    else ((s.setPoison k true).poisonFound k 3).flow)

/-- Ways of a die's slice that are retired. -/
def State.retiredWays (s : State) (n : Nat) : Nat :=
  (s.err.ways.filter (fun e => e.1 / 32768 == n)).foldl (fun a e => a + popcount 16 e.2) 0

/-- Die `n`'s tiles and granules have gone with it (R632 step 4): one DIE_LOST entry goes to each partition that lost any. -/
def State.dieTiles (s : State) (n cause : Nat) : State :=
  let on (k : Nat) : Bool := isMeadow k && dieOf k == n
  let s := s.failHomed on 0x0040
  let tiles := s.tiles.filter (fun e => e.2.home != .none && e.2.live && on e.2.key)
  let grans := s.granules.filter (fun e => !e.2.lost && on e.2.key)
  let parts := (List.range 32).filter (fun p =>
    tiles.any (fun e => e.1 / 2 ^ 51 == p) || grans.any (fun e => e.1 / 2 ^ 41 == p))
  let s := tiles.foldl (fun s e =>
    let p := e.1 / 2 ^ 51
    let obj := e.1 / 2 ^ 24 % 2 ^ 27
    let t := e.1 % 2 ^ 24
    let s := s.settle p obj t
    if (s.tile p obj t).state = .resident then s.heal p obj t 8 0 none else s.lose p obj t 8 0 none) s
  let s := grans.foldl (fun s e =>
    let p := e.1 / 2 ^ 41
    match Tab.find? s.granules e.1 with
    | some g =>
      let s := s.unpinUnit p g
      ({ (s.uncharge p 0 65536) with granules := Tab.put s.granules e.1 { g with lost := true } }).freeRun g.key .normal
    | none => s) s
  parts.foldl (fun s p => s.deadLetter p (Dead.plain 9 8 0 (n + cause * 16))) s

/-- A work item that runs on a fenced die's engines ends (R632 step 2). -/
def State.dieItem (s : State) (id : Nat) : State :=
  match s.item? id with
  | none => s
  | some it => match it.work with
    | .chain _ => s.stopDesc id 0x0061 0
    | .regrow => (s.stopItem id 0x0061).endRegrow it.part it.obj it.tile 0x0061
    | .granule .. => s.granAbandon id 0x0061
    | .put conn txn .. =>
      if it.before.isSome then (s.stopItem id 0x0061).putOver it conn txn 0x0061 else s
    | _ => s.stopItem id 0x0061

/-- Work queued on a fenced die's channel moves to another die, or ends NO_CHANNEL (R353, R632 step 2). -/
def State.moveItem (s : State) (c id : Nat) : State :=
  match (s.offChannel c id).item? id with
  | none => s
  | some it => ((s.offChannel c id).putItem { it with channel := none, stage := if it.stage.waits then it.stage else .queued }).placeItem id

/-- A context number lies on die `n`: Baler contexts are 4 u + c, Tedder contexts 128 + 4 u + c. -/
def ctxOn (n x : Nat) : Bool := if x < 128 then x / 32 == n else (x - 128) / 16 == n

/-- Work on the engines of die `n` ends or moves (R632 step 2). -/
def State.dieWork (s : State) (n : Nat) : State :=
  let onChan (it : Item) : Bool := match it.channel with
    | some c => c / 64 == n
    | none => false
  let run := s.items.filter (fun e => e.2.ctxs.any (fun x => ctxOn n x.1) || (onChan e.2 && e.2.begun))
  let s := (run.map (·.1)).foldl (fun s i => s.dieItem i) s
  let rest := s.items.filter (fun e => onChan e.2)
  rest.foldl (fun s e => match e.2.work, e.2.channel with
    | .chain _, _ => s.stopDesc e.1 0x0061 0
    | _, some c => s.moveItem c e.1
    | _, none => s) s

/-- Partition `p` had a core, a sync object, plan-area or record pages, or translation tables on die `n` (R632 step 3). -/
def State.partOnDie (s : State) (p n : Nat) : Bool :=
  let cores := s.rd F.PART_CORE_MASK_CORES p / 2 ^ (16 * n) % 2 ^ 16 != 0
  let b := s.rd F.SO_RANGE_BASE p
  let e := b + s.rd F.SO_RANGE_COUNT p
  let objects := decide (b < 1024 * (n + 1)) && decide (1024 * n < e)
  let plan := s.granules.any (fun g => g.1 / 2 ^ 41 == p && g.2.home == .meadow && dieOf g.2.key == n &&
    (match Tab.find? s.pages (p * 2 ^ 36 + g.1 % 2 ^ 41 / 32) with
      | some pg => pg.plan
      | none => false))
  let tables := decide (s.rd F.DTU_ROOT_DPA p ≠ 0) && decide (s.rd F.DTU_ROOT_DPA p / 2 ^ 39 % 4 = n)
  cores || objects || plan || tables

/-- An Ethernet port is down (section 13.1, Faults): connections keep their state. -/
def State.ethDown (s : State) (n : Nat) : State := s.wr F.CRR_PORT_STATUS_UP n 0

/-- The Ethernet port a Moor target is reached through (Table 8-2). -/
def State.moorPort (s : State) (t : Nat) : Nat :=
  let c := s.rd F.TIER_MOOR_TGT_CONN t
  if s.rd F.TIER_MOOR_TGT_KIND t = 1 then s.rd F.CRR_NVME_CFG_PORT c else s.connPort c

/-- The ports of Post die Pn go down, with the Heath ports and Moor targets behind them (section 1.2 Faults, R632 step 5). -/
def State.postLost (s : State) (n : Nat) : State :=
  let s := { s with err := { s.err with postDown := s.err.postDown ||| 2 ^ n } }
  let s := [2 * n, 2 * n + 1].foldl (fun s i =>
    if s.role i = 3 then (s.wr F.HOST_PORT_STATUS_UP i 0).tierPortDown false i else s.hostLinkDown i) s
  let s := [2 * n, 2 * n + 1].foldl (fun s i => s.ethDown i) s
  (List.range 16).foldl (fun s t =>
    if s.rd F.TIER_MOOR_TGT_KIND t ≠ 0 ∧ s.moorPort t / 2 = n then s.tierPortDown true t else s) s

/-- The cause field of ERR_DIE_STATUS of die `n` (R631). -/
def State.setDieCause (s : State) (n cause : Nat) : State :=
  let w := s.rd F.ERR_DIE_STATUS_CAUSE 0
  (s.wr F.ERR_DIE_STATUS_CAUSE 0 (w - bitsOf w (4 * n) 4 * 16 ^ n + cause * 16 ^ n)).wr F.ERR_DIE_STATUS_FENCED 0
    (s.rd F.ERR_DIE_STATUS_FENCED 0 ||| 2 ^ n)

/-- Step 1 of R632: the die's cores, slice, units and sites go. -/
def State.dieOff (s : State) (n : Nat) : State :=
  let online := s.rd F.SYS_HBM_STATUS_ONLINE 0
  let sites := online - bitsOf online (2 * n) 2 * 4 ^ n
  let dies := s.rd F.SYS_TOPOLOGY_MEADOW_ONLINE 0
  let s := (s.wr F.SYS_TOPOLOGY_MEADOW_ONLINE 0 (dies - bitsOf dies n 1 * 2 ^ n)).wr F.LLC_SLICE_STATUS_ONLINE n 0
  let s := (s.wr F.SYS_HBM_STATUS_ONLINE 0 sites).wr F.SYS_HBM_STATUS_MEADOW_GB 0 (48 * popcount 8 sites)
  let s := (List.range 16).foldl (fun s i => ((s.clearCore (16 * n + i)).zeroScratch (16 * n + i)).setCoreState (16 * n + i) coreFenced) s
  let s := (List.range 8).foldl (fun s i => s.wr F.BAL_UNIT_STATUS_ONLINE (8 * n + i) 0) s
  let s := (List.range 4).foldl (fun s i => s.wr F.TED_UNIT_STATUS_ONLINE (4 * n + i) 0) s
  { s with llc := s.llc.filter (fun e => e.1 / (32768 * 16) != n) }

/-- Fence Meadow die `n` (R631 to R633). A fence of M0 is device cause 1, a fence of the last die device cause 5. -/
def State.fence (s : State) (n cause : Nat) : State :=
  if !s.meadowOn n then s
  else
    let s := (s.flag F.ERR_STATUS_DIE_FENCED 0).setDieCause n cause
    let s := if s.rdb F.HOST_PORT_STATUS_UP s.hostPort then s.emit (.aer 0 aerCorrected) else s
    if n = 0 then s.deviceCause 1
    else if s.onlineDies.length ≤ 1 then s.deviceCause 5
    else
      let hit := (List.range 32).filter (fun p => s.partOnDie p n)
      let s := ((s.dieOff n).dieWork n).flag F.ERR_DIE_STATUS_UNCOUNTED 0
      let s := hit.foldl (fun s p => s.fatal p 6 8 0) s
      (((s.dieTiles n cause).postLost n).capacityCheck 0).flow

/-- LLC_SCRUB (R346 to R349, R614): the scrubber reads a sector or tag entry of a slice, idle scratch, or a sync-object
value. -/
def execLlcScrub (die : BitVec 2) (set : BitVec 15) (way : BitVec 4) (find : ArrayFind) (s : State) : Res :=
  let n := die.toNat
  let idx := n * 32768 + set.toNat
  let key := idx * 16 + way.toNat
  .next (if s.pins.held || !s.rdb F.ERR_SCRUB_CFG_EN 0 || !s.meadowOn n then s
    else (match find with
      | .clean => s
      | .dataCorrected => s.sat F.ERR_CE_OTHER_LLC 0 1
      | .tagCorrected => s.sat F.ERR_CE_OTHER_LLC 0 1
      | .scratchCorrected => s.sat F.ERR_CE_OTHER_SCRATCH 0 1
      | .syncCorrected => s.sat F.ERR_CE_OTHER_SYNC 0 1
      | .data i => match Tab.find? s.llc key with
        | none => s
        | some l =>
          let k := llcBase idx l.tag + 32 * i.toNat
          let x := l.sectors.getD i.toNat Sector.invalid
          if x.dirty then
            let s := (s.flag F.ERR_STATUS_LLC_UE 0).flag F.LLC_SLICE_STATUS_DATA_UE n
            let s := s.setCached k way.toNat l { x with valid := true, mask := fullMask, poison := true }
            s.deadLetter l.part { Dead.plain 3 1 0 0 with addr := k, addrKind := 1 }
          else if x.valid then (s.setCached k way.toNat l Sector.invalid).sat F.ERR_CE_OTHER_LLC 0 1
          else s
      | .tag readable =>
        let s := (s.flag F.ERR_STATUS_LLC_UE 0).flag F.LLC_SLICE_STATUS_TAG_UE n
        let e := s.err
        let s := { s with err := { e with ways := Tab.set 0 e.ways idx (Tab.get 0 e.ways idx ||| 2 ^ way.toNat) } }
        let s := s.wr F.LLC_SLICE_STATUS_WAYS_RETIRED n (s.retiredWays n)
        let written : Bool := match Tab.find? s.llc key with
          | some l => l.sectors.any (fun x => x.dirty)
          | none => false
        if !readable || written then s.fence n 1
        else
          let s := { s with llc := Tab.erase s.llc key }
          if 256 < s.retiredWays n then s.fence n 2 else s
      | .scratch c => match s.corePart? c.toNat with
        | some p =>
          if s.coreState c.toNat = coreIdle ∨ s.coreState c.toNat = coreHalted then
            (s.flag F.ERR_STATUS_CORE_UE 0).fatal p 1 1 (0x30 * 16 + c.toNat * 4096)
          else s
        | none => s
      | .sync o => match s.soOwner o.toNat with
        | some p => (s.flag F.ERR_STATUS_SO_UE 0).fatal p 5 1 (o.toNat * 2 ^ 18)
        | none => s.flag F.ERR_STATUS_SO_UE 0).flow)

/-- The pages of a Meadow range. -/
def pagesIn (k n : Nat) : List Nat := (List.range ((k + n + 4095) / 4096 - k / 4096)).map (k / 4096 + ·)

/-- Pages of a range of Meadow that are retired rather than zeroed: those with a poisoned sector, and weak ones (R619). -/
def State.retireIn (s : State) (k n : Nat) : State :=
  let bad := s.poison.filter (fun e => decide (k / 32 ≤ e.1) && decide (e.1 < (k + n) / 32))
  let weak := (s.err.weak.flatMap (fun (e : Nat × List Nat) => e.2)).filter (fun g => (overlaps (g * 4096) 4096 k n))
  let pages := (bad.map (fun (e : Nat × Bool) => e.1 / 128) ++ weak).foldl (fun (a : List Nat) g => if a.contains g then a else a ++ [g]) []
  pages.foldl (fun s g =>
    if s.pageIdle g then
      let at' : Nat := match bad.find? (fun (e : Nat × Bool) => e.1 / 128 == g) with
        | some e => e.1 * 32
        | none => g * 4096
      (s.retirePage g (s.siteOf at') 7).2
    else s) s

/-- Zero a range of a memory, but nothing of a retired page (R619). Poisoned sectors of a page whose retirement was refused
stay poisoned (R621). -/
def State.zeroRun (s : State) (k n : Nat) : State :=
  { s with
    mem := Tab.keep (fun j => !(decide (k ≤ j) && decide (j < k + n)) ||
      (isMeadow k && (Tab.find? s.err.retired (j / 4096)).isSome)) s.mem
    poison := Tab.keep (fun j =>
      !(decide (k / 32 ≤ j) && decide (j < (k + n) / 32)) || (isMeadow k && s.pageIdle (j / 128))) s.poison }

/-- ZERO_RANGE (R284, R619, R684): U3 work zeroes the oldest freed range of a memory, port or target; of a Moor target, its
next 32 blocks at most. A DOWN port or target zeroes nothing. -/
def execZeroRange (unit : BitVec 6) (s : State) : Res :=
  let u := unit.toNat
  .next (if s.pins.held then s
    else match s.zeroQ.find? (fun z => s.unitOf z.key == u) with
      | none => s
      | some z =>
        let up : Bool := match homeOf z.key with
          | .heath => s.heathState (s.heathPort z.key) == 0
          | .moor => s.moorUp (moorTarget z.key)
          | _ => true
        if !up then s
        else
          let n := if homeOf z.key = .moor then min z.len (32 * 4096) else z.len
          let s := { s with zeroQ := unqueue s.zeroQ z.key n }
          let s := if isMeadow z.key then s.retireIn z.key n else s
          let s := s.zeroRun z.key n
          let t := moorTarget z.key
          let lba := (z.key - moorKey t 0) / 4096
          let c := s.rd F.TIER_MOOR_TGT_CONN t
          (if homeOf z.key ≠ Home.moor then s
          else if s.rd F.TIER_MOOR_TGT_KIND t = 1 then
            s.sendEth (s.rd F.CRR_NVME_CFG_PORT c) 0 (.nvmeZeroes (s.rd F.CRR_NVME_CFG_PORT c) (lba * s.lbas c) (ceilDiv n 4096 * s.lbas c))
          else if s.connState c = connOpen then
            s.sendRequest c 0x0E 3 0 (beBytes 8 lba ++ beBytes 1 (ceilDiv n 4096)) [] (2 ^ 64) lba
          else s).flow)

/-- HBM_STACK_FAILURE (R631): a stack fails at run time, and its die is fenced. -/
def execHbmStackFailure (stack : BitVec 3) (s : State) : Res :=
  .next (if s.pins.held || !s.stackOnline stack.toNat then s else s.fence (stack.toNat / 2) 5)

/-- MESH_LINK_FAILURE (section 1.2, Table 17-6): the higher-numbered of the link's two dies is fenced. -/
def execMeshLinkFailure (a b : BitVec 2) (s : State) : Res :=
  .next (if s.pins.held || a == b || !s.meadowOn a.toNat || !s.meadowOn b.toNat then s else s.fence (max a.toNat b.toNat) 4)

/-- DIE_PARITY_ERROR (R631): an internal parity error in a die's sync unit or DTU. -/
def execDieParityError (die : BitVec 2) (s : State) : Res :=
  .next (if s.pins.held then s else s.fence die.toNat 6)

/-- POST_LINK_FAILURE (section 1.2 Faults, Table 17-6): the Mn-Pn link fails; of P0 it is device cause 1. -/
def execPostLinkFailure (post : BitVec 2) (s : State) : Res :=
  let n := post.toNat
  .next (if s.pins.held || !s.variant.posts.testBit n || s.err.postDown.testBit n then s
    else if n = 0 then s.deviceCause 1
    else (s.postLost n).flow)

/-- FENCE_TIMEOUT (R629): the fence of a die has not completed within 10 ms. -/
def execFenceTimeout (die : BitVec 2) (s : State) : Res :=
  .next (if !s.pins.held ∧ (s.rd F.ERR_DIE_STATUS_FENCED 0).testBit die.toNat = true then s.deviceCause 5 else s)

end Sys2Proof.Machine
end

