-- ==== Sys2Proof/Machine/Leases.lean ====
section
/-! DEFINITION. Partition resets, leases and their revocation, core assignment, range writes (sections 14.1 to 14.5, R120,
R121, R512, R516 to R527, R688). -/

namespace Sys2Proof.Machine

/-- PART_RESET: a PF write of 1 to PART_CTRL[p].RESET. A reset in progress takes it up (R525, Table 14-8). -/
def State.partReset (s : State) (p : Nat) : State :=
  if s.partState p = partResetting then s else (s.startReset p).flow

/-- PART_RESET (R525). -/
def execPartReset (partition : BitVec 5) (s : State) : Res :=
  .next (if s.pins.held then s else s.partReset partition.toNat)

/-- Every engine is quiescent: the reset, and an FLR that started it, complete (R456, R525 step 8). -/
def State.resetDone (s : State) (p : Nat) : State :=
  if s.partState p = partResetting then ((s.endReset p).wr F.HOST_FN_STATUS_FLR_ACTIVE p 0).flow else s

/-- PART_RESET_COMPLETE (R525 step 8). -/
def execPartResetComplete (partition : BitVec 5) (s : State) : Res :=
  .next (if s.pins.held then s else s.resetDone partition.toNat)

/-- Instances of a lease kind (Table 14-5); 0 for a code that is no kind. -/
def leaseCount (kind : Nat) : Nat :=
  match kind with
  | 1 => 256
  | 2 => 512
  | 3 => 4096
  | 4 => 4096
  | 5 => 32
  | 6 => 128
  | 7 => 64
  | _ => 0

/-- Instance `n` lies in a range-register value: BASE and COUNT stand alike in SO_RANGE and CRR_CONN_RANGE. -/
def inRange (v n : Nat) : Bool := decide (bitsOf v 0 12 ≤ n) && decide (n < bitsOf v 0 12 + bitsOf v 12 13)

/-- The range register of a kind of object (Tables 11-5 and 13-11). -/
def rangeReg (kind : Nat) : Reg := if kind = leaseSync then Reg.SO_RANGE else Reg.CRR_CONN_RANGE

def State.rangeVal (s : State) (kind p : Nat) : Nat := (s.reg (rangeReg kind) p).toNat

/-- The range a revoked instance is renewed in: the value a range write is about to give the register, else the register
(R520, R523). -/
def State.rangeAfter (s : State) (kind p : Nat) : Nat :=
  match Tab.find? s.rangeWr kind with
  | some (q, v) => if q = p then v else s.rangeVal kind p
  | none => s.rangeVal kind p

/-- Registers of a channel or ring take their partition reset values as its lease changes hands (R384, R385). -/
def State.leaseRegs (s : State) (kind i : Nat) : State :=
  let sc := if kind = leaseChannel then Scope.channel else Scope.ring
  (regTable.filter (fun (r : RegSpec) => r.scope = sc)).foldl (fun s r => s.partReg r.reg i) s

/-- A connection becomes CLOSED with a new holder or a new lease. -/
def State.freshConn (s : State) (c p : Nat) : State :=
  (s.wr F.CRR_CONN_STATE_STATE c connClosed).wr F.CRR_CONN_STATE_PARTITION c p

/-- Give a free instance to a partition (R387, R516, R517): value 0 or CLOSED. -/
def State.giveLease (s : State) (kind i p : Nat) : State :=
  let s := s.grantLease kind i p
  match kind with
  | 1 => s.leaseRegs leaseChannel i
  | 2 => s.leaseRegs leaseRing i
  | 3 => { s with sos := Tab.set 0 s.sos i 0 }
  | 4 => s.freshConn i p
  | _ => s

/-- The first steps of a revocation (R520): the epoch advances, the instance is REVOKING, the holder's work on it is
stopped and its outputs are void. -/
def State.revoke (s : State) (kind i : Nat) : State :=
  let l := s.lease kind i
  let p := l.holder
  if kind = leaseBaler then s.revokeCtx i
  else if kind = leaseTedder then s.revokeCtx (128 + i)
  else
    let s := s.setLease kind i { l with state := 2, epoch := nextEpoch l.epoch }
    match kind with
    | 1 => s.revokeChannel i
    | 2 =>
      let s := s.revokeRing i
      (List.range 256).foldl (fun s c => if (s.chan c).recs.any (fun r => r.ring == i) then s.drainRecs c else s) s
    | 3 => s.revokeSo p i
    | 4 => if s.connState i = connClosed then s else ((s.sendClose i).teardown i connFailed).connLost i
    | _ => (s.clearPins p).flag F.LLC_PIN_ERR_REVOKED p

/-- A lease command ends (Tables 14-11 and 14-12). -/
def State.leaseEnd (s : State) (result : Nat) : State :=
  ((s.wr F.PART_LEASE_STATUS_RESULT 0 result).flag F.PART_LEASE_STATUS_DONE 0).wr F.PART_LEASE_CTRL_GO 0 0

/-- The running command is the REVOKE of this instance. -/
def State.revoking (s : State) (kind i : Nat) : Bool :=
  s.rdb F.PART_LEASE_CTRL_GO 0 && s.rd F.PART_LEASE_CMD0_OP 0 == 2 && s.rd F.PART_LEASE_CMD0_KIND 0 == kind &&
  s.rd F.PART_LEASE_CMD0_INDEX 0 == i

/-- Steps 3 and 4 of R523, once nothing that the pending write removes is still REVOKING: the instances it adds are granted,
and the register takes its value. -/
def State.rangeFinish (s : State) (kind : Nat) : State :=
  match Tab.find? s.rangeWr kind with
  | none => s
  | some (p, v) =>
    let old := s.rangeVal kind p
    if (List.range 4096).any (fun n => inRange old n && !inRange v n && (s.lease kind n).state == 2) then s
    else
      let s := (List.range 4096).foldl (fun s n => if inRange v n && !inRange old n then s.giveLease kind n p else s) s
      { s.setReg (rangeReg kind) p (BitVec.ofNat 64 v) with rangeWr := Tab.erase s.rangeWr kind }

/-- The end of a revocation (R520, R521): the instance is FREE, or renewed to its holder while it lies in the range. What
has begun to wait on a sync object meanwhile is released as at its start. -/
def State.revoked (s : State) (kind i : Nat) : State :=
  let l := s.lease kind i
  let p := l.holder
  if l.state ≠ 2 then s
  else
    let s := if kind = leaseSync then s.revokeSo p i else s
    let s := if (kind = leaseSync ∨ kind = leaseConn) ∧ inRange (s.rangeAfter kind p) i = true then s.giveLease kind i p
      else s.setLease kind i { state := 0, holder := 0, epoch := (s.lease kind i).epoch }
    let s := if kind = leaseChannel ∨ kind = leaseRing then s.leaseRegs kind i else s
    let s := if kind = leaseConn then s.wr F.CRR_CONN_STATE_STATE i connClosed else s
    s.rangeFinish kind

/-- REVOCATION_COMPLETE (R521): every internal engine is quiescent for the instance. -/
def State.revocationDone (s : State) (kind i result : Nat) : State :=
  if (s.lease kind i).state ≠ 2 then s
  else
    let run := s.revoking kind i
    let s := s.revoked kind i
    (if run then s.leaseEnd result else s).flow

/-- REVOCATION_COMPLETE (R521). -/
def execRevocationComplete (kind : BitVec 4) (index : BitVec 12) (s : State) : Res :=
  .next (if s.pins.held then s else s.revocationDone kind.toNat index.toNat 0)

/-- The cores of a mask are all OFF, IDLE or HALTED, and every partition that gains or loses one has no plan (R512). -/
def State.coresFree (s : State) (mask : Nat) (gainer : Option Nat) : Bool :=
  let noPlan (p : Nat) : Bool := s.rd F.PART_PLAN_STATUS_STATE p == 0 || s.rd F.PART_PLAN_STATUS_STATE p == 4
  (List.range 64).all (fun c => !mask.testBit c ||
    (let st := s.coreState c
     (st == coreOff || st == coreIdle || st == coreHalted) &&
     (s.corePart? c == gainer ||
      (match s.corePart? c with
        | some q => noPlan q
        | none => true) &&
      (match gainer with
        | some p => noPlan p
        | none => true))))

/-- Every core's rank, and every partition's core mask, from the assignment (R121, R512). -/
def State.showRanks (s : State) : State :=
  let mask (p : Nat) : Nat := (List.range 64).foldl (fun a c => if s.corePart? c = some p then a + 2 ^ c else a) 0
  let s := (List.range 32).foldl (fun s p => s.wr F.PART_CORE_MASK_CORES p (mask p)) s
  (List.range 64).foldl (fun s c => s.wr F.SRT_IDENT_RANK c (match s.corePart? c with
    | some p => rankIn (mask p) c
    | none => 0)) s

/-- The cores of a mask change hands (R512): a core newly assigned is zeroed and IDLE, a core withdrawn zeroed and OFF. -/
def State.moveCores (s : State) (mask : Nat) (gainer : Option Nat) : State :=
  ((List.range 64).foldl (fun s c =>
    if !mask.testBit c || s.corePart? c == gainer then s
    else
      let s := (s.clearCore c).zeroScratch c
      match gainer with
      | some p => ((s.wr F.SRT_IDENT_PARTITION c p).wr F.SRT_IDENT_ASSIGNED c 1).setCoreState c coreIdle
      | none => ((s.wr F.SRT_IDENT_PARTITION c 0).wr F.SRT_IDENT_ASSIGNED c 0).setCoreState c coreOff) s).showRanks

/-- The result of a lease command's checks (R688). -/
def State.leaseCheck (s : State) (op kind index p rsv cores : Nat) : Nat :=
  let l := s.lease kind index
  let lease := op == 1 || op == 2 || op == 3
  let gone := s.partState p == partResetting || s.partState p == partFatal
  if op = 0 ∨ 5 < op ∨ (lease = true ∧ leaseCount kind = 0) ∨ (op = 1 ∧ 2 < kind) then 2
  else if rsv ≠ 0 ∨ (lease = true ∧ leaseCount kind ≤ index) then 1
  else if (op = 1 ∨ op = 4) ∧ gone = true then 6
  else if (op = 1 ∧ l.state ≠ 0) ∨ (op = 2 ∧ l.state = 2) then 3
  else if op = 2 ∧ l.state = 0 then 4
  else if (op = 4 ∧ s.coresFree cores (some p) = false) ∨ (op = 5 ∧ s.coresFree cores none = false) then 5
  else 0

/-- A write of 1 to PART_LEASE_CTRL.GO (R537, R688). REVOKE runs until its revocation completes. -/
def State.leaseGo (s : State) : State :=
  if s.rdb F.PART_LEASE_CTRL_GO 0 then s.flag F.PART_LEASE_STATUS_BUSY_REFUSED 0
  else
    let op := s.rd F.PART_LEASE_CMD0_OP 0
    let kind := s.rd F.PART_LEASE_CMD0_KIND 0
    let i := s.rd F.PART_LEASE_CMD0_INDEX 0
    let p := s.rd F.PART_LEASE_CMD0_PARTITION 0
    let cores := s.rd F.PART_LEASE_CMD1_CORES 0
    let s := s.wr F.PART_LEASE_CTRL_GO 0 1
    let r := s.leaseCheck op kind i p ((s.reg Reg.PART_LEASE_CMD0 0).toNat / 2 ^ 29) cores
    if r ≠ 0 then s.leaseEnd r
    else match op with
      | 1 => (s.giveLease kind i p).leaseEnd 0
      | 2 => (s.revoke kind i).flow
      | 3 =>
        let l := s.lease kind i
        (((s.wr F.PART_LEASE_RESULT_STATE 0 l.state).wr F.PART_LEASE_RESULT_HOLDER 0 l.holder).wr
          F.PART_LEASE_RESULT_EPOCH 0 l.epoch).leaseEnd 0
      | 4 => (s.moveCores cores (some p)).leaseEnd 0
      | _ => (s.moveCores cores none).leaseEnd 0

/-- A lease command: its words are written, unless a command runs, then GO. -/
def State.leaseCommand (s : State) (op : Nat) (cmd0 cmd1 : Word) : State :=
  if s.pins.held then s
  else if s.rdb F.PART_LEASE_CTRL_GO 0 then s.leaseGo
  else
    let s := (s.setReg Reg.PART_LEASE_CMD0 0 (F.PART_LEASE_CMD0_OP.put cmd0 op)).setReg Reg.PART_LEASE_CMD1 0 cmd1
    s.leaseGo

/-- GRANT (R516, R688). -/
def execGrant (cmd0 : Word) (s : State) : Res := .next (s.leaseCommand 1 cmd0 (s.reg Reg.PART_LEASE_CMD1 0))

/-- REVOKE (R520, R688). -/
def execRevoke (cmd0 : Word) (s : State) : Res := .next (s.leaseCommand 2 cmd0 (s.reg Reg.PART_LEASE_CMD1 0))

/-- QUERY (R688). -/
def execQuery (cmd0 : Word) (s : State) : Res := .next (s.leaseCommand 3 cmd0 (s.reg Reg.PART_LEASE_CMD1 0))

/-- ASSIGN_CORES (R512). -/
def execAssignCores (cmd0 cores : Word) (s : State) : Res := .next (s.leaseCommand 4 cmd0 cores)

/-- UNASSIGN_CORES (R512). -/
def execUnassignCores (cmd0 cores : Word) (s : State) : Res := .next (s.leaseCommand 5 cmd0 cores)

/-- CONTEXT_RECLAIM (R522): a context's item has made no progress for PART_RECLAIM_TMO. -/
def execContextReclaim (tedder : Bool) (ctx : BitVec 7) (s : State) : Res :=
  let x := if tedder then 128 + ctx.toNat else ctx.toNat
  let l := s.lease (ctxKind x) (ctxIndex x)
  .next (if s.pins.held || l.state != 1 || decide (192 ≤ x) then s
    else ((s.revokeCtx x).flag F.PART_RECOVERY_STATUS_CTX_RECLAIMED l.holder).flow)

/-- A PF write of SO_RANGE or CRR_CONN_RANGE (R120, R387, R523). -/
def State.rangeWrite (s : State) (kind p v : Nat) : State :=
  let b := bitsOf v 0 12
  let n := bitsOf v 12 13
  let hits (q : Nat) : Bool :=
    let w := s.rangeVal kind q
    decide (b < bitsOf w 0 12 + bitsOf w 12 13) && decide (bitsOf w 0 12 < b + n)
  if s.pins.held ∨ s.partState p = partResetting then s
  else if (Tab.find? s.rangeWr kind).isSome then s.flag F.PART_LEASE_STATUS_BUSY_REFUSED 0
  else if 4096 < b + n ∨ (n ≠ 0 ∧ (List.range 32).any (fun q => q != p && s.rangeVal kind q / 2 ^ 12 != 0 && hits q)) then
    s.flag F.SO_RANGE_ERR_OVERLAP 0
  else
    let old := s.rangeVal kind p
    let v := b + n * 2 ^ 12
    let s := { s with rangeWr := Tab.put s.rangeWr kind (p, v) }
    let s := if kind = leaseSync ∧ s.rdb F.PART_QUOTA_SO_EN p = true ∧ inRange v (s.rd F.PART_QUOTA_SO_SO p) = false then
        (s.wr F.PART_QUOTA_SO_EN p 0).flag F.PART_QUOTA_STATUS_SO_ERR p
      else s
    let s := (List.range 4096).foldl (fun s i =>
      if inRange old i && !inRange v i && (s.lease kind i).state == 1 then s.revoke kind i else s) s
    (s.rangeFinish kind).flow

/-- SO_RANGE_WRITE (R120, R387, R523). -/
def execSoRangeWrite (partition : BitVec 5) (base : BitVec 12) (count : BitVec 13) (s : State) : Res :=
  .next (s.rangeWrite leaseSync partition.toNat (base.toNat + count.toNat * 2 ^ 12))

/-- CRR_CONN_RANGE_WRITE (R523). -/
def execCrrConnRangeWrite (partition : BitVec 5) (base : BitVec 12) (count : BitVec 13) (s : State) : Res :=
  .next (s.rangeWrite leaseConn partition.toNat (base.toNat + count.toNat * 2 ^ 12))

/-- QUIESCENCE_TIMEOUT (section 14.4 and 14.5, Faults; R631): an engine of a die does not report quiescence for a revoked
instance within 50 us, or for a partition reset within 10 ms. The die is fenced; what waited for it then completes. -/
def execQuiescenceTimeout (die : BitVec 2) (revocation : Option (BitVec 4 × BitVec 12)) (partition : BitVec 5) (s : State) :
    Res :=
  .next (if s.pins.held then s
    else match revocation with
      | some (k, i) =>
        if (s.lease k.toNat i.toNat).state ≠ 2 then s
        else
          let t := s.fence die.toNat 3
          if t.meadowOn die.toNat then t else t.revocationDone k.toNat i.toNat 7
      | none =>
        if s.partState partition.toNat ≠ partResetting then s
        else
          let t := s.fence die.toNat 3
          if t.meadowOn die.toNat then t else t.resetDone partition.toNat)

end Sys2Proof.Machine
end

