-- ==== Sys2Proof/Machine/WalkCmd.lean ====
section
/-! DEFINITION. Watches, progress trackers, the lattice walker and aging (sections 11.2 to 11.4 and 11.6). -/

namespace Sys2Proof.Machine

/-- Registers of a partition take writes: the dies run and the partition is not in reset (R459, R524). -/
def State.partOpen (s : State) (p : Nat) : Bool := !s.pins.held && s.partState p != partResetting

/-- A write of SO_WATCH_CFG (R394): watch `i` is 16 p + its number. A write with ARM set arms it, or fails; the watch fires at
once where its condition holds. -/
def State.watchCfg (s : State) (i : Nat) (v : Word) : State :=
  let p := i / 16
  let n := F.SO_WATCH_CFG_SO.get v
  let s := (s.wr F.SO_WATCH_CFG_SO i n).wr F.SO_WATCH_CFG_VECTOR i (F.SO_WATCH_CFG_VECTOR.get v)
  let s := if F.SO_WATCH_CFG_FIRED.get v = 1 then s.wr F.SO_WATCH_CFG_FIRED i 0 else s
  let s := if F.SO_WATCH_CFG_REVOKED.get v = 1 then s.wr F.SO_WATCH_CFG_REVOKED i 0 else s
  if F.SO_WATCH_CFG_ARM.get v = 0 then s.wr F.SO_WATCH_CFG_ARM i 0
  else if !s.soInRange p n then (s.wr F.SO_WATCH_CFG_ARM i 0).flag F.SO_DB_STATUS_OUT_OF_RANGE p
  else (s.wr F.SO_WATCH_CFG_ARM i 1).fireWatch i n (s.soVal n)

/-- WATCH_ARM (R394): a write of SO_WATCH_CFG with ARM set. -/
def execWatchArm (watch : BitVec 9) (cfg : Word) (s : State) : Res :=
  .next (if s.partOpen (watch.toNat / 16) then s.watchCfg watch.toNat (F.SO_WATCH_CFG_ARM.put cfg 1) else s)

/-- A walk in progress whose tracker is `t` (4 p + number) stops with ITEM_FAIL (section 11.6, Edges). -/
def State.trackerOff (s : State) (t : Nat) : State :=
  let s := s.wr F.SO_PROG_CFG_EN t 0
  (List.range 2).foldl (fun s i =>
    let k := 2 * (t / 4) + i
    match Tab.find? s.walks k with
    | some r => if WB.prog r = t % 4 then (s.stopWalk k).flag F.SO_WALK_STATUS_ITEM_FAIL k else s
    | none => s) s

/-- A write of SO_PROG_CFG (R396): tracker `t` is 4 p + its number. While EN = 1 only EN and CFG_ERR take a write. -/
def State.progCfg (s : State) (t : Nat) (v : Word) : State :=
  let p := t / 4
  let s := if F.SO_PROG_CFG_CFG_ERR.get v = 1 then s.wr F.SO_PROG_CFG_CFG_ERR t 0 else s
  if s.rdb F.SO_PROG_CFG_EN t then (if F.SO_PROG_CFG_EN.get v = 1 then s else s.trackerOff t)
  else
    let n := F.SO_PROG_CFG_SO.get v
    let s := (s.wr F.SO_PROG_CFG_SO t n).wr F.SO_PROG_CFG_SHIFT t (F.SO_PROG_CFG_SHIFT.get v)
    if F.SO_PROG_CFG_EN.get v = 0 then s
    else if !s.soInRange p n then s.flag F.SO_PROG_CFG_CFG_ERR t
    else
      let s := (s.wr F.SO_PROG_LAST_V_VALUE t (s.soVal n).toNat).wr F.SO_PROG_LAST_T_NS t s.time
      (s.wr F.SO_PROG_RATE_NS t (s.rd F.SO_PROG_INIT_NS t)).wr F.SO_PROG_CFG_EN t 1

/-- TRACKER_ENABLE (R396): a write of SO_PROG_CFG with EN set. -/
def execTrackerEnable (tracker : BitVec 7) (cfg : Word) (s : State) : Res :=
  .next (if s.partOpen (tracker.toNat / 4) then s.progCfg tracker.toNat (F.SO_PROG_CFG_EN.put cfg 1) else s)

/-- TRACKER_DISABLE (R396; section 11.6, Edges): a write of SO_PROG_CFG with EN clear. -/
def execTrackerDisable (tracker : BitVec 7) (cfg : Word) (s : State) : Res :=
  .next (if s.partOpen (tracker.toNat / 4) then s.progCfg tracker.toNat (F.SO_PROG_CFG_EN.put cfg 0) else s)

/-- A write of SO_WALK_CFG (R407, Table 12-4): walker `k` is 2 p + its number. START_SO takes no write while it runs. -/
def State.walkCfg (s : State) (k : Nat) (v : Word) : State :=
  let p := k / 2
  let run := s.rd F.SO_WALK_STATUS_STATE k == 1
  let s := if run then s else s.wr F.SO_WALK_CFG_START_SO k (F.SO_WALK_CFG_START_SO.get v)
  if F.SO_WALK_CFG_EN.get v = 0 then (s.stopWalk k).wr F.SO_WALK_CFG_EN k 0
  else if run then s
  else if !s.feature 17 ∨ !s.soInRange p (s.rd F.SO_WALK_CFG_START_SO k) ∨ s.rd F.SO_WALK_BLOCK_ADDR k % 64 ≠ 0 then
    (s.wr F.SO_WALK_CFG_EN k 0).flag F.SO_WALK_STATUS_BAD_BLOCK k
  else
    let s := if s.rdb F.SO_WALK_CFG_EN k then s else s.wr F.SO_WALK_COUNT_WALKS k 0
    s.wr F.SO_WALK_CFG_EN k 1

/-- WALKER_ENABLE (R407): SO_WALK_BLOCK is written, then SO_WALK_CFG with EN set. The block takes no write while a walk
runs. -/
def execWalkerEnable (walker : BitVec 6) (cfg block : Word) (s : State) : Res :=
  let k := walker.toNat
  .next (if !s.partOpen (k / 2) then s
    else
      let s := if s.rd F.SO_WALK_STATUS_STATE k = 1 then s else s.setReg Reg.SO_WALK_BLOCK k block
      s.walkCfg k (F.SO_WALK_CFG_EN.put cfg 1))

/-- WALKER_DISABLE (section 11.6, Edges): a write of SO_WALK_CFG with EN clear. -/
def execWalkerDisable (walker : BitVec 6) (cfg : Word) (s : State) : Res :=
  .next (if s.partOpen (walker.toNat / 2) then s.walkCfg walker.toNat (F.SO_WALK_CFG_EN.put cfg 0) else s)

/-- STRIDE and FORWARD of a lattice's levels, from level 1 up, and STEP_NS of level 1. -/
def State.latticeLevels (s : State) (p id : Nat) : List (Nat × Bool) × Nat :=
  let es := (s.rulesOf p).lattice.filter (fun e => e.lattice == id)
  ((List.range 4).filterMap (fun i => (es.find? (fun e => e.level == i + 1)).map (fun e => (e.stride, e.forward))),
    ((es.find? (fun e => e.level == 1)).map (·.stepNs)).getD 0)

/-- The entries of a walk block's table and their descriptors as read, or a failed read (Table 11-6): the first word, the
address of the descriptor and the descriptor. -/
def State.walkEntries (s : State) (p a : Nat) : Nat → Option (List (Nat × Beat))
  | 0 => some []
  | n + 1 => match s.descWords p a 2 with
    | some [w, d] => match s.descWords p d 8, s.walkEntries p (a + 16) n with
      | some ws, some t => some ((w, BitVec.ofNat 512 (ofLe (ws.flatMap (leBytes 8)))) :: t)
      | _, _ => none
    | _ => none

/-- The walk block and its entries pass the checks of R409. -/
def State.walkOk (s : State) (p : Nat) (r : WalkRec) (es : List (Nat × Beat)) : Bool :=
  let w0 := WB.w r 0
  let top := r.levels.length
  let k := WB.k r
  let stride := if k = top + 1 then WB.steps r else (r.levels.getD (k - 1) (0, false)).1
  !w0.testBit 7 && bitsOf w0 14 2 == 0 && bitsOf w0 31 33 == 0 && bitsOf (WB.w r 5) 32 32 == 0 && WB.w r 6 == 0 &&
  WB.w r 7 == 0 && WB.w r 4 % 16 == 0 && decide (1 ≤ bitsOf w0 10 4) && decide (bitsOf w0 10 4 ≤ 8) &&
  decide (WB.steps r ≤ 65536) && decide (1 ≤ top) && s.rdb F.SO_PROG_CFG_EN (4 * p + WB.prog r) &&
  s.soInRange p (WB.doneSo r) && decide (1 ≤ k) && decide (k ≤ top + 1) && decide (WB.lo r < WB.hi r) &&
  decide (WB.hi r ≤ WB.steps r) && WB.lo r % max stride 1 == 0 && decide (WB.hi r - WB.lo r ≤ stride) &&
  es.all (fun e =>
    let peer := bitsOf e.1 32 6
    bitsOf e.1 38 26 == 0 && bitsOf e.1 27 5 == p && s.peerOf p peer && (latticeDest e.2).isNone &&
    (Desc.check e.2 { spaces := [1], peer := some peer, identity := false, dest := true } (fun i => s.peerOf p i)).isNone)

/-- WALK_START (R407 to R409): an IDLE walker whose START_SO is above its count reads the block; a refused walk counts. -/
def execWalkStart (walker : BitVec 6) (s : State) : Res :=
  let k := walker.toNat
  let p := k / 2
  .next (if !s.served p || !s.rdb F.SO_WALK_CFG_EN k || s.rd F.SO_WALK_STATUS_STATE k != 0 ||
      decide ((s.soVal (s.rd F.SO_WALK_CFG_START_SO k)).toNat ≤ s.rd F.SO_WALK_COUNT_WALKS k) then s
    else
      let s := s.bump F.SO_WALK_COUNT_WALKS k 1
      match s.descWords p (s.rd F.SO_WALK_BLOCK_ADDR k) 8 with
      | none => s.flag F.SO_WALK_STATUS_BAD_BLOCK k
      | some block =>
        let n := min (bitsOf (block.getD 0 0) 10 4) 8
        match s.walkEntries p (block.getD 4 0) n with
        | none => s.flag F.SO_WALK_STATUS_BAD_BLOCK k
        | some es =>
          let (levels, stepNs) := s.latticeLevels p (bitsOf (block.getD 0 0) 0 4)
          let r : WalkRec := { block, entries := es.map (fun e => (bitsOf e.1 0 27, bitsOf e.1 32 6))
                               descs := es.map (·.2), levels, stepNs, calls := [], group := none, issued := false
                               noticing := false, items := [], written := 0, failed := false, lost := false }
          if s.walkOk p r es then
            (s.wr F.SO_WALK_STATUS_STATE k 1).walkAdvance k { r with calls := [(WB.lo r, WB.hi r, WB.k r)] }
          else s.flag F.SO_WALK_STATUS_BAD_BLOCK k)

/-- B of R410: the raw bytes of the RESIDENT tiles a group's items will deliver. -/
def State.walkBytes (s : State) (p : Nat) (r : WalkRec) (g : WalkGroup) : Nat :=
  r.entries.foldl (fun a e => a + (s.latticeTiles p e.1 g.lo).length * s.tileSize p e.1) 0

/-- The group's deadline D and latest start L (R410). A time before 0 counts as 0 (DEDUCED, log entry 29). -/
def State.walkTimes (s : State) (p : Nat) (r : WalkRec) (g : WalkGroup) : Nat × Nat :=
  let d := s.walkNeed p r g.hi - WB.margin r
  let q := ((r.entries.map (fun e => s.peerPort e.2)).eraseDups).length
  (d, d - (s.walkBytes p r g / (121 * max q 1) + (if WB.readback r then s.rd F.SO_PEER_RD_NS_NS p else 0)))

/-- WALKER_GROUP_ISSUE (R410, R411): the walker issues every item of its next group, at its latest start less the lead or
later. -/
def execWalkerGroupIssue (walker : BitVec 6) (s : State) : Res :=
  let k := walker.toNat
  let p := k / 2
  match Tab.find? s.walks k with
  | none => .next s
  | some r => match r.group with
    | none => .next s
    | some g =>
      let (d, l) := s.walkTimes p r g
      if !s.served p ∨ r.issued ∨ s.time + WB.lead r < l then .next s
      else
        let s := if l < s.time then s.flag F.SO_WALK_STATUS_LATE k else s
        let (ids, s) := (List.range r.entries.length).foldl (fun (x : List Nat × State) i =>
          let e := r.entries.getD i (0, 0)
          let (urg, s) := x.2.classOf p (WB.urg r)
          (x.1 ++ [s.nextItem], s.addItem { Item.blank p (.lattice g.lo (WB.readback r)) with
            origin := .walker (k % 2), obj := e.1, peer := e.2, urg, deadline := d, ta := r.descs.getD i 0 }))
          ([], s)
        let w : WalkRec := { r with issued := true, items := ids }
        let s := { s with walks := Tab.put s.walks k w }
        .next (ids.foldl (fun s i => s.front i) s).flow

/-- The item waits at a channel or for a context (R403; log entry 30: the model ages requests at these resources). -/
def State.waits (s : State) (it : Item) : Bool :=
  (it.want.isSome && it.ctxs.isEmpty) || (match it.channel with
    | some c => (s.chan c).queue.contains it.id || (s.chan c).parked.contains it.id
    | none => false)

/-- AGING (R403): a U2 or U3 request has waited 100 us at a resource without service. -/
def execAging (item : Nat) (s : State) : Res :=
  .next (match s.item? item with
    | some it => if !s.pins.held ∧ 2 ≤ it.urg ∧ s.waits it = true then s.putItem { it with aged := true } else s
    | none => s)

end Sys2Proof.Machine
end

