-- ==== Sys2Proof/Machine/Cfgs.lean ====
section
/-! DEFINITION. The configuration store (section 16.4): payloads, banks, and the commands of partition 0. -/

namespace Sys2Proof.Machine

/-- An item of a payload: TAG and value (R590). -/
structure CfgItem where
  tag : Nat
  value : List Byte
  deriving DecidableEq, Repr

/-- The items of a payload, and whether its form holds: every item whole, its padding zero, TAG 0 at the end (R590). The
first argument bounds the number of items. -/
def cfgItems : Nat → List Byte → List CfgItem × Bool
  | 0, _ => ([], false)
  | n + 1, b =>
    if b.length < 4 then ([], false)
    else
      let tag := fieldAt b 0 2
      let len := fieldAt b 2 2
      if tag = 0 then ([], len == 0)
      else if b.length < 4 + ceilDiv len 4 * 4 then ([], false)
      else
        let r := cfgItems n (b.drop (4 + ceilDiv len 4 * 4))
        ({ tag, value := bytesAt b 4 len } :: r.1, r.2 && allZero (bytesAt b (4 + len) (ceilDiv len 4 * 4 - len)))

/-- The start-up settable registers by PF BAR0 offset (Table 18-4, R646). -/
def regInitOffset (o : Nat) : Bool :=
  let win := 0x2000000 ≤ o ∧ o < 0x2000000 + 32 * 0x100000 ∧
    [0x3000, 0x3008, 0x3010, 0x4008, 0x6010, 0x6020, 0x6028, 0x3030, 0x3038].contains (o % 0x100000)
  let run (base step n : Nat) : Bool := base ≤ o && o < base + step * n && (o - base) % step == 0
  decide win || o == 0x105008 || run 0x105028 8 5 || run 0x105180 8 16 || run 0x200068 0x100 64 || run 0x109040 8 8 ||
  o == 0x108028 || o == 0x104140 || o == 0x1041D8 || o == 0x10C028

/-- Why an item is ignored (R591): 0 it is not, 1 its form, 2 a port the variant has not. Of a role table only the entry of such
a port is ignored (R33; DEDUCED, log entry 41). -/
def CfgItem.check (v : Variant) (it : CfgItem) : Nat :=
  let b := it.value
  match it.tag with
  | 1 => if b.length ≠ 8 ∨ fieldAt b 6 2 ≠ 0 then 1 else 0
  | 2 => if b.length ≠ 40 ∨ fieldAt b 1 3 ≠ 0 ∨ fieldAt b 18 2 ≠ 0 ∨ 8 ≤ fieldAt b 0 1 then 1
    else if v.ports ≤ fieldAt b 0 1 then 2 else 0
  | 3 => if b.length ≠ 4 then 1 else 0
  | 4 => if b.length ≠ 4 then 1 else 0
  | 5 => if b.length % 12 ≠ 0 ∨ b.length = 0 then 1
    else if (List.range (b.length / 12)).any (fun i => !regInitOffset (fieldAt b (12 * i) 4)) then 1 else 0
  | _ => 1

/-- A payload a WRITE accepts (R588, R590, R592): its items too, but for ports that another variant has. -/
def payloadOk (v : Variant) (b : List Byte) : Bool :=
  let (items, ok) := cfgItems (b.length / 4 + 1) b
  decide (4 ≤ b.length) && decide (b.length ≤ 1048560) && b.length % 4 == 0 && ok && items.all (fun i => i.check v != 1)

/-- The bank that holds the newest valid record, `true` for bank 1 (R582, R589; bank 0 on a tie, as slot A). -/
def Boot.newest (b : Boot) : Option (Bool × CfgBank) :=
  match b.bank0, b.bank1 with
  | some x, some y => if newer y.sequence x.sequence then some (true, y) else some (false, x)
  | some x, none => some (false, x)
  | none, some y => some (true, y)
  | none, none => none

/-- Replace a bank's record. -/
def Boot.putBank (b : Boot) (one : Bool) (x : Option CfgBank) : Boot :=
  if one then { b with bank1 := x } else { b with bank0 := x }

/-- A command of the configuration store ends (Table 16-4). -/
def State.cfgsDone (s : State) (result : Nat) : State :=
  ((s.wr F.MGT_CFGS_STATUS_RESULT 0 result).flag F.MGT_CFGS_STATUS_DONE 0).wr F.MGT_CFGS_CTRL_GO 0 0

/-- The bank a WRITE goes to: the one that does not hold the newest valid record. -/
def Boot.target (b : Boot) : Bool := match b.newest with
  | some (one, _) => !one
  | none => false

/-- A write of 1 to MGT_CFGS_CTRL.GO (R592, R603). READ ends at once; WRITE and CLEAR begin with an erase, and run until the
flash ends them. -/
def State.cfgsGo (s : State) : State :=
  if s.rdb F.MGT_CFGS_CTRL_GO 0 then s.flag F.MGT_CFGS_STATUS_BUSY_REFUSED 0
  else
    let s := s.flag F.MGT_CFGS_CTRL_GO 0
    let a := s.rd F.MGT_CFGS_CMD1_ADDR 0
    let n := s.rd F.MGT_CFGS_CMD2_LENGTH 0
    match s.rd F.MGT_CFGS_CMD0_OP 0 with
    | 1 =>
      match s.boot.newest with
      | none => s.cfgsDone 3
      | some (_, b) =>
        let bs := b.payload.take n
        if bs.isEmpty then (s.wr F.MGT_CFGS_STATUS_LENGTH 0 0).cfgsDone 0
        else if (s.xcheckRun 0 a n true false).isSome then s.cfgsDone 2
        else ((s.vwrite .cached 0 a bs).wr F.MGT_CFGS_STATUS_LENGTH 0 bs.length).cfgsDone 0
    | 2 =>
      if s.pins.pwrfailLow then s.cfgsDone 5
      else if n < 4 ∨ 1048560 < n ∨ n % 4 ≠ 0 then s.cfgsDone 1
      else if (s.xcheckRun 0 a n false false).isSome then s.cfgsDone 2
      else if !payloadOk s.variant (s.vbytes 0 a n) then s.cfgsDone 1
      else { s with boot := s.boot.putBank s.boot.target none }
    | 3 => if s.pins.pwrfailLow then s.cfgsDone 5 else { s with boot := { s.boot with bank0 := none, bank1 := none } }
    | _ => s.cfgsDone 6

/-- The flash ends a WRITE or CLEAR in progress (R592): a verified WRITE has its MAGIC, last. -/
def State.cfgsFlash (s : State) (e : FlashEnd) : State :=
  if !s.rdb F.MGT_CFGS_CTRL_GO 0 then s
  else match e with
    | .failed => s.cfgsDone 4
    | .verified =>
      if s.rd F.MGT_CFGS_CMD0_OP 0 = 2 then
        let payload := s.vbytes 0 (s.rd F.MGT_CFGS_CMD1_ADDR 0) (s.rd F.MGT_CFGS_CMD2_LENGTH 0)
        let sequence := match s.boot.newest with
          | some (_, b) => (b.sequence + 1) % 2 ^ 32
          | none => 1
        ({ s with boot := s.boot.putBank s.boot.target (some { sequence, payload }) }).cfgsDone 0
      else s.cfgsDone 0

/-- The command words of an operation, then GO; while a command runs the words are kept. -/
def State.cfgsCommand (s : State) (op : Nat) (addr : Word) (length : BitVec 32) : State :=
  if s.rdb F.MGT_CFGS_CTRL_GO 0 then s.cfgsGo
  else (((s.wr F.MGT_CFGS_CMD0_OP 0 op).setReg Reg.MGT_CFGS_CMD1 0 addr).wr F.MGT_CFGS_CMD2_LENGTH 0 length.toNat).cfgsGo

/-- The firmware serves the commands of the configuration store. -/
def State.cfgsOpen (s : State) : Bool := !s.pins.held && s.boot.running.isSome && s.partOpen 0

/-- CFGS_READ (R592). -/
def execCfgsRead (addr : Word) (length : BitVec 32) (s : State) : Res :=
  .next (if s.cfgsOpen then s.cfgsCommand 1 addr length else s)

/-- CFGS_WRITE (R592): `start` writes the command words and GO; `ends` is the flash's end of the WRITE in progress. -/
def execCfgsWrite (start : Option (Word × BitVec 32)) (ends : Option FlashEnd) (s : State) : Res :=
  .next (if !s.cfgsOpen then s else
    let s := match start with
      | some (a, n) => s.cfgsCommand 2 a n
      | none => s
    match ends with
    | some e => if s.rd F.MGT_CFGS_CMD0_OP 0 = 2 then s.cfgsFlash e else s
    | none => s)

/-- CFGS_CLEAR (R592): `start` writes OP 3 and GO; `ends` is the flash's end of the CLEAR in progress. -/
def execCfgsClear (start : Bool) (ends : Option FlashEnd) (s : State) : Res :=
  .next (if !s.cfgsOpen then s else
    let s := if start then s.cfgsCommand 3 0 0 else s
    match ends with
    | some e => if s.rd F.MGT_CFGS_CMD0_OP 0 = 3 then s.cfgsFlash e else s
    | none => s)

end Sys2Proof.Machine
end

