-- ==== Sys2Proof/Machine/CrrRx.lean ====
section
/-! DEFINITION. What a Courier packet does at its receiver: the checks, opening and closing, acknowledgement, postmark order,
messages put together (sections 13.4 to 13.6). -/

namespace Sys2Proof.Machine

/-- The payload limit codes of R489. -/
def limitOf (code : Nat) : Nat := 4096 / 2 ^ code

/-- Bytes of a DATA frame beside its payload (R489). -/
def State.frameOver (s : State) (port : Nat) : Nat :=
  14 + (if s.rdb F.CRR_PORT_CFG_TAGGED port then 4 else 0) + (if s.rdb F.CRR_PORT_CFG_IP6 port then 40 else 20) + 8 + 32 + 4 + 4

/-- MAX_FRAME of a port; values out of range read back as 9,216 (Table 13-10). -/
def State.maxFrame (s : State) (port : Nat) : Nat :=
  let m := s.rd F.CRR_PORT_CFG_MAX_FRAME port
  if 1518 ≤ m ∧ m ≤ 9216 then m else 9216

/-- The limit code a port's MAX_FRAME gives; none where it cannot carry 512 bytes (R489). -/
def State.limitCode (s : State) (port : Nat) : Option Nat :=
  [0, 1, 2, 3].find? (fun k => decide (s.frameOver port + limitOf k ≤ s.maxFrame port))

/-- OPEN or OPEN_ACK of a connection (R487, R489): a version 1 end sends limit code 0. -/
def State.openPacket (s : State) (c typ : Nat) : Packet :=
  let x := s.conn c
  let code := if x.verMax = 1 then 0 else (s.limitCode (s.connPort c)).getD 3
  { s.packetOf c typ with ver := if typ = 4 then 1 else s.connVer c, trans := x.cookie
                          offset := x.isn + x.wMax * 2 ^ 24 + x.verMax * 2 ^ 48 + code * 2 ^ 52 }

/-- The connection enters OPEN with what the far end offered (R487, R489). -/
def State.entersOpen (s : State) (c : Nat) (pk : Packet) : State :=
  let x := s.conn c
  let o := pk.offset
  let ver := min x.verMax (bitsOf o 48 4)
  let lim := min (limitOf ((s.limitCode (s.connPort c)).getD 3)) (limitOf (bitsOf o 52 2))
  let s := s.setConn c { x with
    w := min x.wMax (bitsOf o 24 24)
    limit := if ver = 1 then min lim 2048 else lim
    farGen := pk.srcGen
    u := x.isn
    next := x.isn
    e := bitsOf o 0 24 }
  ((s.wr F.CRR_CONN_STATE_VER c ver).wr F.CRR_CONN_STATE_STATE c connOpen).targetsUp 2 c

/-- Connection states that accept a packet TYPE (R485 check 2). -/
def typeAccepted (typ st : Nat) : Bool :=
  match typ with
  | 4 => st == connListen || st == connOpen
  | 5 => st == connOpening
  | 7 => st == connClosing
  | _ => st == connOpen || st == connClosing

/-- The version of a packet: OPEN and OPEN_ACK may carry either, later packets carry the negotiated one, SACK is of
version 2 (R485 check 1). -/
def State.verOk (s : State) (c : Nat) (pk : Packet) : Bool :=
  (pk.ver == 1 || pk.ver == 2) && decide (1 ≤ pk.typ) && decide (pk.typ ≤ 7) && (pk.typ != 3 || pk.ver == 2) &&
  (pk.typ == 4 || pk.typ == 5 || s.connState c != connOpen && s.connState c != connClosing || pk.ver == s.connVer c)

/-- SRC_CONN, SRC_GEN, the source address and DST_GEN (R485 check 3). OPEN knows no generation of its receiver, and OPEN and
OPEN_ACK bring the sender's (DEDUCED, log entry 31). -/
def State.fromPeer (s : State) (c : Nat) (pk : Packet) (src : Nat) : Bool :=
  let x := s.conn c
  pk.srcConn == x.remote && src == x.remoteIp &&
  (pk.typ == 4 || pk.dstGen == s.rd F.CRR_CONN_STATE_GEN c) &&
  (pk.typ == 4 || pk.typ == 5 || pk.srcGen == x.farGen)

/-- Lengths and reserved fields (R485 check 4). -/
def State.lengthOk (s : State) (c : Nat) (pk : Packet) (b : List Byte) : Bool :=
  headerSound b && (match pk.typ with
    | 1 => decide (pk.payload.length ≤ (s.conn c).limit)
    | 3 => decide (8 ≤ pk.payload.length) && decide (pk.payload.length ≤ 32) && pk.payload.length % 8 == 0
    | 4 => pk.payload.isEmpty && bitsOf pk.offset 54 10 == 0
    | 5 => pk.payload.isEmpty && bitsOf pk.offset 54 10 == 0
    | _ => pk.payload.isEmpty)

/-- Opcodes of a version (Table 13-6). -/
def opcodeOk (ver op : Nat) : Bool :=
  op ≤ 3 || op == 5 || (0x0C ≤ op && op ≤ 0x0E) || (ver == 2 && (op == 4 || op == 8 || op == 9))

/-- A request of Table 13-6, which the receiver starts in postmark order (R501). -/
def isRequest (op : Nat) : Bool := op == 1 || op == 4 || op == 8 || op == 9 || (0x0C ≤ op && op ≤ 0x0E)

/-- STATUS and DEADLINE of a message header, and its fields after them (R484). -/
def msgStatus (b : List Byte) : Nat := beField b 0 2
def msgDeadline (b : List Byte) : Nat := beField b 2 8
def msgField (b : List Byte) (o n : Nat) : Nat := beField b (10 + o) n

/-- The message header of a FIRST packet is in range (R485 check 5): it is there, a request's STATUS is 0, and the lengths
and counts of owner and block requests are those of R499 and R282. -/
def msgOk (op : Nat) (b : List Byte) : Bool :=
  decide (32 ≤ b.length) && (op == 2 || op == 5 || msgStatus b == 0) &&
  (if op = 8 ∨ op = 9 then decide (1 ≤ msgField b 8 4) && decide (msgField b 8 4 ≤ 65536)
   else if 0x0C ≤ op then decide (1 ≤ msgField b 8 1) && decide (msgField b 8 1 ≤ 32)
   else true)

/-- The message of a transaction and opcode that is still coming in. -/
def Rx.open? (rx : List Rx) (pk : Packet) : Option Rx :=
  rx.find? (fun r => r.trans == pk.trans && r.opcode == pk.opcode && !r.done)

/-- Put the message of a packet back, as `f` makes it. -/
def Rx.update (rx : List Rx) (pk : Packet) (f : Rx → Rx) : List Rx :=
  match rx with
  | [] => []
  | r :: t => if r.trans == pk.trans && r.opcode == pk.opcode && !r.done then f r :: t else r :: Rx.update t pk f

/-- Check 5 of R485 for an in-order DATA packet. -/
def dataOk (ver : Nat) (rx : List Rx) (pk : Packet) : Bool :=
  opcodeOk ver pk.opcode &&
  (if pk.first then pk.offset == 0 && msgOk pk.opcode pk.payload
   else match Rx.open? rx pk with
    | some r => pk.offset + 32 == r.bytes.length
    | none => true)

/-- The length of a complete message is the one its header gives (R485 check 5, R500). -/
def msgLengthOk (op : Nat) (b : List Byte) : Bool :=
  if op = 1 then b.length == 32 + msgField b 13 4
  else if op = 9 then b.length == 32 + msgField b 8 4
  else if op = 0x0D then b.length == 32 + 4096 * msgField b 8 1
  else if op = 5 then b.length == 32 + msgField b 0 4
  else b.length == 32

/-- An in-order DATA packet joins its message. A message with a packet that fails check 5 ends with RESP of the one status
Table 13-8 names, and is dropped (DEDUCED, log entry 32). -/
def State.takeData (s : State) (c : Nat) (pk : Packet) : State :=
  let x := s.conn c
  let ok := dataOk (s.connVer c) x.rx pk
  let rx := if pk.first then
      x.rx.filter (fun r => !(r.trans == pk.trans && r.opcode == pk.opcode && !r.done)) ++
        [{ trans := pk.trans, opcode := pk.opcode, cls := pk.cls, bytes := pk.payload, done := pk.last, bad := !ok }]
    else Rx.update x.rx pk (fun r => { r with
      bytes := r.bytes ++ pk.payload
      done := pk.last
      bad := r.bad || !ok })
  let rx := rx.map (fun (r : Rx) => { r with bad := r.bad || (r.done && !msgLengthOk r.opcode r.bytes) })
  let spoilt := rx.any (fun r => r.done && r.bad)
  let s := s.setConn c { x with
    e := (x.e + 1) % 2 ^ 24
    unacked := x.unacked + 1
    rx := rx.filter (fun r => !(r.done && r.bad)) }
  if spoilt && !(pk.opcode == 2 || pk.opcode == 3 || pk.opcode == 5) then s.sendResp c pk.trans pk.cls 0x0043 [] else s

/-- Ranges of postmarks received out of order, from the next expected one on: first and last of each (R493). -/
def sackRanges : Nat → List Nat → List (Nat × Nat)
  | 0, _ => []
  | _, [] => []
  | f + 1, p :: t =>
    let run := (List.range t.length).takeWhile (fun i => t.getD i 0 == p + 1 + i)
    (p, p + run.length) :: sackRanges f (t.drop run.length)

/-- Insert into an ascending list. -/
def insertAsc (a : Nat) : List Nat → List Nat
  | [] => [a]
  | b :: t => if a ≤ b then a :: b :: t else b :: insertAsc a t

/-- Answer a gap with a SACK of up to four ranges (R493). -/
def State.sendSack (s : State) (c : Nat) : State :=
  let x := s.conn c
  let ds := x.reorder.foldl (fun l q => insertAsc ((q.psn + 2 ^ 24 - x.e) % 2 ^ 24) l) []
  let rs := (sackRanges ds.length ds).take 4
  let b := rs.flatMap (fun r => beBytes 3 ((x.e + r.1) % 2 ^ 24) ++ [0] ++ beBytes 3 ((x.e + r.2) % 2 ^ 24) ++ [0])
  s.sendPacket c { s.packetOf c 3 with payload := b }

/-- Bytes of reorder memory in use on a port (R493). -/
def State.reorderUse (s : State) (port : Nat) : Nat :=
  s.eth.conns.foldl (fun a e => if s.connPort e.1 = port then e.2.reorder.foldl (fun b q => b + q.size) a else a) 0

/-- Packets received out of order that have come to their turn (R493). -/
def State.drainReorder : Nat → State → Nat → State
  | 0, s, _ => s
  | f + 1, s, c =>
    let x := s.conn c
    match x.reorder.find? (fun q => q.psn == x.e) with
    | none => s
    | some q => ((s.setConn c { x with reorder := x.reorder.filter (fun r => r.psn != x.e) }).takeData c q).drainReorder f c

/-- A PUT of the connection is stalled at the Placer: nothing beyond E is accepted (section 13.7, Edges). -/
def State.putStalled (s : State) (c : Nat) : Bool :=
  s.items.any (fun e => e.2.stage == .stalled && (match e.2.work with
    | .put k _ _ _ _ => k == c
    | _ => false))

/-- A DATA packet that passed the checks (R493, R494). -/
def State.gotData (s : State) (c : Nat) (pk : Packet) : State :=
  let x := s.conn c
  let p := pk.psn
  if (p + 2 ^ 24 - x.e) % 2 ^ 24 < x.w then
    if s.putStalled c then s
    else if p = x.e then
      let s := (s.takeData c pk).drainReorder (x.reorder.length + 1) c
      if 16 ≤ (s.conn c).unacked then s.sendAck c else s
    else if s.connVer c = 1 then s.sendAck c
    else if x.reorder.any (fun q => q.psn == p) then s.sendSack c
    else if 8 * 2 ^ 20 < s.reorderUse (s.connPort c) + pk.size then s
    else (s.setConn c { x with reorder := x.reorder ++ [pk] }).sendSack c
  else if (x.e + 2 ^ 24 - 1 - p) % 2 ^ 24 < x.w then s.sendAck c
  else s.sat F.CRR_PORT_DROP_STRAY (s.connPort c) 1

/-- A flow's line rate in Mb/s, from the trained mode of its port (Table 13-1). -/
def State.lineRate (s : State) (port : Nat) : Nat :=
  match s.rd F.CRR_PORT_STATUS_MODE port with
  | 1 => 800000
  | 2 => 400000
  | 3 => 400000
  | 4 => 200000
  | 5 => 100000
  | _ => 0

/-- A congestion mark halves a flow's rate, down to no less than 1 Gb/s (R477). -/
def State.halveFlow (s : State) (key port : Nat) : State :=
  let r := (Tab.find? s.eth.flows key).getD (s.lineRate port)
  { s with eth := { s.eth with flows := Tab.put s.eth.flows key (max (r / 2) 1000) } }

/-- A CLOSING connection whose requests have ended, both ways, and whose replay buffer is empty sends CLOSE (R490). -/
def State.tryClose (s : State) (c : Nat) : State :=
  let x := s.conn c
  let serving := s.items.any (fun e => e.2.serves c) || x.rx.any (fun r => isRequest r.opcode)
  if s.connState c = connClosing ∧ x.closes = 0 ∧ x.reqs.isEmpty ∧ x.replay.isEmpty ∧ x.waiting.isEmpty ∧ x.held.isEmpty ∧
      !serving then s.sendClose c
  else s

/-- A cumulative acknowledgement (R494, R495): the replay copies up to it are freed, and what waited goes out. -/
def State.gotAck (s : State) (c a : Nat) : State :=
  let x := s.conn c
  let n := (a + 1 + 2 ^ 24 - x.u) % 2 ^ 24
  if n = 0 ∨ x.replay.length < n then s
  else
    let y := { x with
      u := (x.u + n) % 2 ^ 24
      replay := x.replay.drop n
      early := none
      sacked := x.sacked.filter (fun p => (x.replay.drop n).any (fun q => q.psn == p)) }
    let s := s.setConn c { y with confirms := y.confirms.filter (fun h => y.confirmKept h.trans) }
    (((s.wr F.CRR_CONN_STATE_RETRIES c 0).transmit (x.waiting.length + 1) c).tryClose c)

/-- A SACK names packets the far end holds (R493, R495). -/
def State.gotSack (s : State) (c : Nat) (pk : Packet) : State :=
  let x := s.conn c
  let rs := (List.range (pk.payload.length / 8)).map (fun i => (beField pk.payload (8 * i) 3, beField pk.payload (8 * i + 4) 3))
  let hit (p : Nat) : Bool := rs.any (fun r => decide ((p + 2 ^ 24 - r.1) % 2 ^ 24 ≤ (r.2 + 2 ^ 24 - r.1) % 2 ^ 24))
  s.setConn c { x with sacked := (x.replay.map (·.psn)).filter (fun p => hit p || x.sacked.contains p) }

/-- A received OPEN (R487). -/
def State.gotOpen (s : State) (c : Nat) (pk : Packet) : State :=
  let x := s.conn c
  if pk.trans ≠ x.cookie ∨ bitsOf pk.offset 48 4 = 0 ∨ bitsOf pk.offset 24 24 = 0 then s
  else if s.connState c = connListen then
    let s := (s.wr F.CRR_CONN_STATE_GEN c (s.rd F.CRR_CONN_STATE_GEN c + 1)).entersOpen c pk
    s.sendRaw c (s.openPacket c 5)
  else if pk.srcGen = x.farGen then s.sendRaw c (s.openPacket c 5)
  else s

/-- A received OPEN_ACK: the initiator is OPEN and its command ends (R487). -/
def State.gotOpenAck (s : State) (c : Nat) (pk : Packet) : State :=
  let x := s.conn c
  if pk.trans ≠ x.cookie ∨ bitsOf pk.offset 48 4 = 0 ∨ bitsOf pk.offset 24 24 = 0 then s
  else
    let s := s.entersOpen c pk
    let s := s.setConn c { s.conn c with cmd := none }
    match x.cmd with
    | some (p, _) => s.crrDone p 0
    | none => s

/-- A received CLOSE is answered, and the connection torn down (R490, R491). -/
def State.gotClose (s : State) (c : Nat) : State := ((s.sendRaw c (s.packetOf c 7)).teardown c connClosed).connLost c

/-- A packet that passed checks 1 to 4: the marks it carries, its acknowledgement, and what its TYPE does. -/
def State.gotPacket (s : State) (c : Nat) (pk : Packet) (ce : Bool) : State :=
  let s := if ce then s.setConn c { s.conn c with ceSeen := true } else s
  let s := if pk.ece then s.halveFlow c (s.connPort c) else s
  let s := if pk.ackValid && s.connLive c then s.gotAck c pk.ack else s
  match pk.typ with
  | 1 => s.gotData c pk
  | 3 => s.gotSack c pk
  | 4 => s.gotOpen c pk
  | 5 => s.gotOpenAck c pk
  | 6 => s.gotClose c
  | 7 => if 1 ≤ (s.conn c).closes then (s.teardown c connClosed).connLost c else s
  | _ => s

/-- Count a packet that fails a check of R485. -/
def State.dropCheck (s : State) (port : Nat) : State := s.sat F.CRR_PORT_DROP_CHECK port 1

/-- A frame for Courier arrives (R471, R474, R485). -/
def State.receive (s : State) (port : Nat) (f : RxFrame) : State :=
  if s.pins.held ∨ !s.rdb F.CRR_PORT_STATUS_UP port then s
  else if !f.fcs ∨ s.maxFrame port < f.size.toNat then s.sat F.CRR_PORT_DROP_FCS port 1
  else if f.full then s.sat F.CRR_PORT_DROP_BUFFER port 1
  else if f.udp.toNat ≠ s.rd F.CRR_PORT_CFG_UDP port ∨ s.ethRole port < 2 then s.dropCheck port
  else match Packet.parse f.bytes with
  | none => s.dropCheck port
  | some pk =>
    let c := pk.dstConn
    if !s.verOk c pk then s.dropCheck port
    else if !(decide (c < 4096) && (s.lease leaseConn c).state == 1 && s.connPort c == port && typeAccepted pk.typ (s.connState c))
      then s.dropCheck port
    else if !s.fromPeer c pk f.src.toNat then s.dropCheck port
    else if !s.lengthOk c pk f.bytes then s.dropCheck port
    else (s.gotPacket c pk f.ce).flow

/-- TYPE of the datagram a frame carries. -/
def RxFrame.typ (f : RxFrame) : Nat := beField f.bytes 0 1 % 16

/-- OPEN_RECEIVED (R487). -/
def execOpenReceived (port : BitVec 3) (frame : RxFrame) (s : State) : Res :=
  .next (if frame.typ = 4 then s.receive port.toNat frame else s)

/-- OPEN_ACK_RECEIVED (R487). -/
def execOpenAckReceived (port : BitVec 3) (frame : RxFrame) (s : State) : Res :=
  .next (if frame.typ = 5 then s.receive port.toNat frame else s)

/-- CLOSE_RECEIVED (R490, R491). -/
def execCloseReceived (port : BitVec 3) (frame : RxFrame) (s : State) : Res :=
  .next (if frame.typ = 6 then s.receive port.toNat frame else s)

/-- CLOSE_ACK_RECEIVED (R490). -/
def execCloseAckReceived (port : BitVec 3) (frame : RxFrame) (s : State) : Res :=
  .next (if frame.typ = 7 then s.receive port.toNat frame else s)

/-- DATA_RECEIVED (R493): a DATA packet, or one of a TYPE no other row takes. -/
def execDataReceived (port : BitVec 3) (frame : RxFrame) (s : State) : Res :=
  .next (if 2 ≤ frame.typ ∧ frame.typ ≤ 7 then s else s.receive port.toNat frame)

/-- ACK_RECEIVED (R494). -/
def execAckReceived (port : BitVec 3) (frame : RxFrame) (s : State) : Res :=
  .next (if frame.typ = 2 then s.receive port.toNat frame else s)

/-- SACK_RECEIVED (R493, R495). -/
def execSackReceived (port : BitVec 3) (frame : RxFrame) (s : State) : Res :=
  .next (if frame.typ = 3 then s.receive port.toNat frame else s)

end Sys2Proof.Machine
end

