-- ==== Sys2Proof/Machine/CrrCmd.lean ====
section
/-! DEFINITION. Connection commands and the timers of a connection (sections 13.5 and 13.6), and the messages of Table 13-6
(section 13.7). -/

namespace Sys2Proof.Machine

/-- Fields of an OPEN are in range (Tables 13-7 and 13-11, R489). -/
def State.openFields (s : State) (p : Nat) : Bool :=
  let port := s.rd F.CRR_CMD0_PORT p
  let v := s.rd F.CRR_CMD0_VER_MAX p
  let w := s.rd F.CRR_CMD1_W p
  let k := s.rd F.CRR_CMD1_REPLAY_KIB p
  (v == 1 || v == 2) && decide (1 ≤ w) && decide (w ≤ 2 ^ 23) && decide (64 ≤ k) && decide (k ≤ 32768) &&
  decide (s.rd F.CRR_CMD1_RESP_S p ≤ 600) && (s.limitCode port).isSome

/-- The result of a connection command's checks, in the order of Table 13-7; 0 where they pass. -/
def State.crrCheck (s : State) (p : Nat) : Nat :=
  let op := s.rd F.CRR_CMD0_OP p
  let c := s.rd F.CRR_CMD0_CONN p
  let port := s.rd F.CRR_CMD0_PORT p
  if op ≠ 1 ∧ op ≠ 2 ∨ op = 1 ∧ !s.openFields p then 1
  else if !s.connHeld p c then 2
  else if op = 1 ∧ s.connState c ≠ connClosed ∨ op = 2 ∧ s.connState c = connClosed then 3
  else if op = 1 ∧ s.ethRole port < 2 then 4
  else if op = 1 ∧ s.rd F.CRR_PORT_STATUS_REPLAY_FREE port < s.rd F.CRR_CMD1_REPLAY_KIB p then 5
  else 0

/-- OPEN takes the configuration of the command words and its replay space (R486, R492). -/
def State.connConfig (s : State) (p c : Nat) : State :=
  let port := s.rd F.CRR_CMD0_PORT p
  let x := s.conn c
  let k := s.rd F.CRR_CMD1_REPLAY_KIB p
  let y : Conn := { Conn.closed with
    isn := x.isn
    remote := s.rd F.CRR_CMD0_REMOTE_CONN p
    verMax := s.rd F.CRR_CMD0_VER_MAX p
    wMax := s.rd F.CRR_CMD1_W p
    replayKib := k
    respS := s.rd F.CRR_CMD1_RESP_S p
    cookie := s.rd F.CRR_CMD2_COOKIE p
    exportBase := s.rd F.CRR_CMD3_EXPORT_BASE p
    exportBlocks := s.rd F.CRR_CMD6_EXPORT_BLOCKS p
    remoteIp := s.rd F.CRR_CMD4_REMOTE_IP p + s.rd F.CRR_CMD5_REMOTE_IP p * 2 ^ 64
    mac := s.rd F.CRR_CMD7_NEXT_HOP_MAC p
    u := x.isn
    next := x.isn }
  let s := (s.setConn c y).wr F.CRR_PORT_STATUS_REPLAY_FREE port (s.rd F.CRR_PORT_STATUS_REPLAY_FREE port - k)
  (s.wr F.CRR_CONN_STATE_PORT c port).wr F.CRR_CONN_STATE_VER c 0

/-- CLOSE of a connection (R490). -/
def State.connClose (s : State) (c : Nat) : State :=
  let st := s.connState c
  if st = connOpen then (s.wr F.CRR_CONN_STATE_STATE c connClosing).tryClose c
  else if st = connClosing then s
  else s.teardown c connClosed

/-- A write of 1 to CRR_CMD_CTRL.GO of partition `p`'s function (R486, R487, R490). -/
def State.crrGo (s : State) (p : Nat) : State :=
  if s.rdb F.CRR_CMD_CTRL_GO p then s.flag F.CRR_CMD_STATUS_BUSY_REFUSED p
  else
    let c := s.rd F.CRR_CMD0_CONN p
    let r := s.crrCheck p
    if r ≠ 0 then s.crrDone p r
    else if s.rd F.CRR_CMD0_OP p = 2 then (s.connClose c).crrDone p 0
    else
      let s := s.connConfig p c
      if s.rdb F.CRR_CMD0_LISTEN p then (s.wr F.CRR_CONN_STATE_STATE c connListen).crrDone p 0
      else
        let s := (s.wr F.CRR_CONN_STATE_GEN c (s.rd F.CRR_CONN_STATE_GEN c + 1)).wr F.CRR_CONN_STATE_STATE c connOpening
        let s := (s.setConn c { s.conn c with cmd := some (p, s.time) }).wr F.CRR_CMD_CTRL_GO p 1
        s.sendRaw c (s.openPacket c 4)

/-- Write the command words; while a command runs they are kept. -/
def State.crrWords (s : State) (p : Nat) (l : List Word) (op : Nat) (listen : Bool) : State :=
  let w (i : Nat) : Word := l.getD i 0
  let put (s : State) (f : Fld) (i : Nat) : State := s.wr f p (f.get (w i))
  if s.rdb F.CRR_CMD_CTRL_GO p then s
  else
    let s := (put (put (put (put s F.CRR_CMD0_CONN 0) F.CRR_CMD0_PORT 0) F.CRR_CMD0_REMOTE_CONN 0) F.CRR_CMD0_VER_MAX 0)
    let s := (s.wr F.CRR_CMD0_OP p op).wrb F.CRR_CMD0_LISTEN p listen
    let s := put (put (put s F.CRR_CMD1_W 1) F.CRR_CMD1_REPLAY_KIB 1) F.CRR_CMD1_RESP_S 1
    let s := put (put (put s F.CRR_CMD2_COOKIE 2) F.CRR_CMD3_EXPORT_BASE 3) F.CRR_CMD4_REMOTE_IP 4
    put (put (put s F.CRR_CMD5_REMOTE_IP 5) F.CRR_CMD6_EXPORT_BLOCKS 6) F.CRR_CMD7_NEXT_HOP_MAC 7

/-- CONN_OPEN_LISTEN (R486): the command words with OP 1 and LISTEN 1, then GO. -/
def execConnOpenListen (partition : BitVec 5) (words : List Word) (s : State) : Res :=
  let p := partition.toNat
  .next (if s.served p then (s.crrWords p words 1 true).crrGo p else s)

/-- CONN_OPEN (R487): the command words with OP 1 and LISTEN 0, then GO. -/
def execConnOpen (partition : BitVec 5) (words : List Word) (s : State) : Res :=
  let p := partition.toNat
  .next (if s.served p then (s.crrWords p words 1 false).crrGo p else s)

/-- CONN_CLOSE (R490): CRR_CMD0 with OP 2, then GO. -/
def execConnClose (partition : BitVec 5) (conn : BitVec 12) (s : State) : Res :=
  let p := partition.toNat
  .next (if s.served p then
      let s := if s.rdb F.CRR_CMD_CTRL_GO p then s
        else (s.wr F.CRR_CMD0_OP p 2).wr F.CRR_CMD0_CONN p conn.toNat
      (s.crrGo p).flow
    else s)

/-- OPEN_REPEAT (R487): an initiator sends OPEN again every 100 µs. -/
def execOpenRepeat (conn : BitVec 12) (s : State) : Res :=
  let c := conn.toNat
  .next (if s.pins.held ∨ s.connState c ≠ connOpening then s else s.sendRaw c (s.openPacket c 4))

/-- OPEN_TIMEOUT (R487): no OPEN_ACK within 1 s. The connection is CLOSED again (DEDUCED, log entry 33). -/
def execOpenTimeout (conn : BitVec 12) (s : State) : Res :=
  let c := conn.toNat
  .next (if s.pins.held ∨ s.connState c ≠ connOpening then s
    else
      let x := s.conn c
      let s := (s.setConn c { x with cmd := none }).teardown c connClosed
      match x.cmd with
      | some (p, _) => s.crrDone p 6
      | none => s)

/-- CLOSE_REPEAT (R490): CLOSE again every 300 µs; 1 ms after the third the connection is CLOSED. -/
def execCloseRepeat (conn : BitVec 12) (s : State) : Res :=
  let c := conn.toNat
  let n := (s.conn c).closes
  .next (if s.pins.held ∨ s.connState c ≠ connClosing ∨ n = 0 then s
    else if n < 3 then s.sendClose c
    else ((s.teardown c connClosed).connLost c).flow)

/-- ACK_TIMER (R494). -/
def execAckTimer (conn : BitVec 12) (s : State) : Res :=
  let c := conn.toNat
  .next (if s.pins.held ∨ !s.connLive c ∨ (s.conn c).unacked = 0 then s else s.sendAck c)

/-- The path of a connection fails (R491, R495, R496). -/
def State.pathFail (s : State) (c : Nat) : State := (((s.sat F.CRR_CONN_STATE_FAILS c 1).teardown c connFailed).connLost c).flow

/-- RETRANSMIT_TIMEOUT (R495). -/
def execRetransmitTimeout (conn : BitVec 12) (s : State) : Res :=
  let c := conn.toNat
  let x := s.conn c
  let k := s.rd F.CRR_CONN_STATE_RETRIES c
  .next (if s.pins.held ∨ !s.connLive c ∨ x.replay.isEmpty then s
    else if k = 7 then s.pathFail c
    else
      let l := if s.connVer c = 1 then x.replay else x.replay.filter (fun q => !x.sacked.contains q.psn)
      l.foldl (fun s q => s.sendPacket c q) (s.wr F.CRR_CONN_STATE_RETRIES c (k + 1)))

/-- NOP_KEEPALIVE (R496): a NOP while responses are awaited and no DATA has been sent for 100 µs. -/
def execNopKeepalive (conn : BitVec 12) (s : State) : Res :=
  let c := conn.toNat
  let x := s.conn c
  .next (if s.pins.held ∨ !s.connLive c ∨ x.reqs.isEmpty then s
    else (s.setConn c { x with nextTrans := (x.nextTrans + 1) % 2 ^ 32 }).sendMessage c 0 x.nextTrans 3 0 0 [] [])

/-- RESPONSE_TIMEOUT (R496): a response is not there RESP_S seconds after its request. -/
def execResponseTimeout (conn : BitVec 12) (trans : BitVec 32) (s : State) : Res :=
  let c := conn.toNat
  .next (if s.pins.held ∨ !(s.conn c).reqs.any (fun r => r.trans == trans.toNat) then s else s.pathFail c)

/-- Requests of a connection in service (R501). -/
def State.inService (s : State) (c : Nat) : Nat := (s.items.filter (fun e => e.2.serves c)).length

/-- Take a complete message off a connection. A request starts in the order of the FIRST packets, and where fewer than 64
are in service (R501). -/
def State.takeRx (s : State) (c trans op : Nat) : Option (Rx × State) :=
  let x := s.conn c
  let hit (r : Rx) : Bool := r.trans == trans && r.opcode == op && r.done
  match x.rx.find? hit with
  | none => none
  | some r =>
    let before := (x.rx.takeWhile (fun q => !hit q)).any (fun q => q.done && isRequest q.opcode)
    if s.pins.held || !s.connLive c || (isRequest op && (before || decide (64 ≤ s.inService c))) then none
    else some (r, s.setConn c { x with rx := x.rx.eraseP hit })

/-- The partition that holds the receiving end serves a request; a CLOSING end takes none (R490, DEDUCED, log entry 34). -/
def State.connPart (s : State) (c : Nat) : Nat := s.rd F.CRR_CONN_STATE_PARTITION c

/-- A complete message is served: `f` has it, its connection, its partition. -/
def State.message (s : State) (conn : BitVec 12) (trans : BitVec 32) (op : Nat) (f : State → Nat → Nat → Rx → State) : Res :=
  let c := conn.toNat
  .next (match s.takeRx c trans.toNat op with
    | none => s
    | some (r, s) =>
      let s := if isRequest op && s.connState c == connClosing then
          (if op = 1 then s.sendMessage c 2 r.trans r.cls 0x0043 0 [] [] else s.sendResp c r.trans r.cls 0x0043 [])
        else f s c (s.connPart c) r
      (s.tryClose c).flow)

/-- PUT (R48 to R53, R497): the image goes to Intake. A handle of another partition names no tile of this one. -/
def execPut (conn : BitVec 12) (trans : BitVec 32) (s : State) : Res :=
  s.message conn trans 1 fun s c p r =>
    let b := r.bytes
    let handle := msgField b 0 4
    if handle / 2 ^ 27 ≠ p then s.sendMessage c 2 r.trans r.cls 0x0051 0 [] []
    else
      let (urg, s) := s.classOf p r.cls
      let id := s.nextItem
      let work := Work.put c r.trans (msgField b 8 2) (msgField b 10 2) (msgField b 12 1 != 0)
      let s := s.addItem { Item.blank p work with
        origin := .courier r.trans
        obj := handle % 2 ^ 27
        tile := msgField b 4 3
        urg
        deadline := msgDeadline b
        src := (List.range (b.length - 32)).foldl (fun t i => Tab.put t i (b.getD (32 + i) 0)) [] }
      let s := s.intake id (msgField b 13 4) 0
      match s.item? id with
      | some it => if it.ended.isSome then s.endPut id else s
      | none => s

/-- A tile sent away becomes DROP and RELEASED (R497 step 3). -/
def State.tileSent (s : State) (p obj tile : Nat) : State :=
  let r := s.tile p obj tile
  (s.freeTile p r .normal).setTile p obj tile { r.homeless with disp := .drop, state := .released, uses := 0 }

/-- HELD (R193, R497 step 3): on STATUS 0 the tile is released, the work ends, and CONFIRM goes out. A tile its own delivery
has released already ends the work TILE_RELEASED; work that is over already sends no CONFIRM. -/
def execHeld (conn : BitVec 12) (trans : BitVec 32) (s : State) : Res :=
  s.message conn trans 2 fun s c p r =>
    let st := msgStatus r.bytes
    match (s.conn c).reqs.find? (fun q => q.trans == r.trans && q.opcode == 1) with
    | none => s
    | some q =>
      let s := s.dropReq c r.trans 1
      match s.item? q.item with
      | none => s
      | some it =>
        let n := s.tileSize p it.obj
        if st ≠ 0 then s.endItem it.id (st ||| 0x8000) n ErrAt.none
        else
          let gone := (s.tile p it.obj it.tile).state = TState.released
          let s := if gone then s.endItem it.id 0x0053 n ErrAt.none
            else (s.tileSent p it.obj it.tile).endItem it.id 0 0 ErrAt.none
          let x := s.conn c
          let s := s.setConn c { x with confirms := x.confirms ++ [{ trans := r.trans, obj := it.obj, tile := it.tile }] }
          s.sendMessage c 3 r.trans it.urg 0 0 [] []

/-- CONFIRM (R497 step 4): the record is RESIDENT, and what waited for it goes on (R61). -/
def execConfirm (conn : BitVec 12) (trans : BitVec 32) (s : State) : Res :=
  s.message conn trans 3 fun s c p r =>
    let x := s.conn c
    match x.held.find? (fun h => h.trans == r.trans) with
    | none => s
    | some h =>
      let s := s.setConn c { x with held := x.held.filter (fun k => k.trans != r.trans) }
      let t := s.tile p h.obj h.tile
      if t.state = .inFlight then
        (s.setTile p h.obj h.tile { t with state := .resident }).requeueWaiters p h.obj h.tile
      else s

/-- RECALL (R498): the held tile moves to the requester by PUT, or RESP tells why not. An IN_FLIGHT tile is waited for
(DEDUCED, log entry 35). -/
def execRecall (conn : BitVec 12) (trans : BitVec 32) (s : State) : Res :=
  s.message conn trans 4 fun s c p r =>
    let b := r.bytes
    let handle := msgField b 0 4
    let obj := handle % 2 ^ 27
    let tile := msgField b 4 3
    let t := s.tile p obj tile
    let bad : Nat := if handle / 2 ^ 27 ≠ p ∨ !s.tileExists p obj tile ∨ t.state = .released then 0x0053
      else if t.state = .lost then 0x0040
      else if !t.disp.stored then 0x0054
      else 0
    if bad ≠ 0 then s.sendResp c r.trans r.cls bad []
    else
      let (urg, s) := s.classOf p r.cls
      let id := s.nextItem
      (s.addItem { Item.blank p (.send c (msgField b 7 4)) with
        origin := .courier r.trans, obj, tile, urg, deadline := msgDeadline b }).front id

/-- The Moor target that a connection serves. -/
def State.moorOfConn (s : State) (c : Nat) : Option Nat :=
  (List.range 16).find? (fun t => s.rd F.TIER_MOOR_TGT_KIND t == 2 && s.rd F.TIER_MOOR_TGT_CONN t == c)

/-- RESP (R484, R499, R500): the response ends its request, with REMOTE where its status is not 0 (R382). -/
def execResp (conn : BitVec 12) (trans : BitVec 32) (s : State) : Res :=
  s.message conn trans 5 fun s c _ r =>
    let st := msgStatus r.bytes
    let data := r.bytes.drop 32
    match (s.conn c).reqs.find? (fun q => q.trans == r.trans) with
    | none => s
    | some q =>
      let s := s.dropReq c r.trans q.opcode
      if q.opcode = 8 then
        if st = 0 then s.gotRead q.item q.k data else s.badRead q.item q.k (st ||| 0x8000)
      else if 0x0C ≤ q.opcode then
        if st ≠ 0 then s.moorDone q.item (some 0x0042)
        else
          let s := match s.moorOfConn c with
            | some t => if q.opcode = 0x0C then { s with mem := memStore s.mem (moorKey t (q.k * 4096)) data } else s
            | none => s
          s.moorDone q.item none
      else if st ≠ 0 then s.failReq q (st ||| 0x8000)
      else s

/-- Serve a read of `n` bytes at `a` for a message (Table 8-5, R499, R500). -/
def State.serveRead (s : State) (c p : Nat) (r : Rx) (a n : Nat) : State :=
  match s.xcheckRun p a n false false with
  | some (e, o) => (s.dtuFault p e.kind 3 (a + o) false).sendResp c r.trans r.cls e.status []
  | none =>
    if (s.vheathFail p a n).isSome then (s.tierFail p 0x0041).sendResp c r.trans r.cls 0x0041 []
    else
      let (bad, b, s) := s.vread .bulk p a n
      if bad then s.sendResp c r.trans r.cls 0x0040 [] else s.sendResp c r.trans r.cls 0 b

/-- Serve a write at `a` for a message (Table 8-5, R499, R500). -/
def State.serveWrite (s : State) (c p : Nat) (r : Rx) (a : Nat) (b : List Byte) : State :=
  match s.xcheckRun p a b.length true false with
  | some (e, o) => (s.dtuFault p e.kind 3 (a + o) true).sendResp c r.trans r.cls e.status []
  | none =>
    if (s.vheathFail p a b.length).isSome then (s.tierFail p 0x0041).sendResp c r.trans r.cls 0x0041 []
    else (s.vwrite .bulk p a b).sendResp c r.trans r.cls 0 []

/-- Serve the blocks a BLOCK_ message names, of the connection end's export (R500). -/
def State.serveBlocks (s : State) (c : Nat) (r : Rx) (f : State → Nat → Nat → State) : State :=
  let x := s.conn c
  let b := msgField r.bytes 0 8
  let n := msgField r.bytes 8 1
  if x.exportBlocks < b + n then s.sendResp c r.trans r.cls 0x0020 []
  else f s (x.exportBase + 4096 * b) (4096 * n)

/-- OWNER_READ (R292, R499): the bytes under the serving partition's translation. -/
def execOwnerRead (conn : BitVec 12) (trans : BitVec 32) (s : State) : Res :=
  s.message conn trans 8 fun s c p r => s.serveRead c p r (msgField r.bytes 0 8) (msgField r.bytes 8 4)

/-- OWNER_WRITE (R292, R499): the bits FIRST_MASK and LAST_MASK select of the first and last byte, and the bytes between. -/
def execOwnerWrite (conn : BitVec 12) (trans : BitVec 32) (s : State) : Res :=
  s.message conn trans 9 fun s c p r =>
    let b := r.bytes
    let a := msgField b 0 8
    let n := msgField b 8 4
    let mask (i : Nat) : Byte := (if i = 0 then BitVec.ofNat 8 (msgField b 12 1) else 0xFF) &&&
      (if i + 1 = n then BitVec.ofNat 8 (msgField b 13 1) else 0xFF)
    let old := s.vbytes p a n
    let new := (List.range n).map (fun i => (b.getD (32 + i) 0 &&& mask i) ||| (old.getD i 0 &&& ~~~ mask i))
    s.serveWrite c p r a new

/-- BLOCK_READ (R500). -/
def execBlockRead (conn : BitVec 12) (trans : BitVec 32) (s : State) : Res :=
  s.message conn trans 0x0C fun s c p r => s.serveBlocks c r (fun s a n => s.serveRead c p r a n)

/-- BLOCK_WRITE (R500). -/
def execBlockWrite (conn : BitVec 12) (trans : BitVec 32) (s : State) : Res :=
  s.message conn trans 0x0D fun s c p r =>
    s.serveBlocks c r (fun s a n => s.serveWrite c p r a (bytesAt r.bytes 32 n))

/-- BLOCK_ZERO (R500). -/
def execBlockZero (conn : BitVec 12) (trans : BitVec 32) (s : State) : Res :=
  s.message conn trans 0x0E fun s c p r => s.serveBlocks c r (fun s a n => s.serveWrite c p r a (List.replicate n 0))

/-- NOP (R484): a keep-alive asks for nothing. -/
def execNop (conn : BitVec 12) (trans : BitVec 32) (s : State) : Res :=
  s.message conn trans 0 fun s _ _ _ => s

end Sys2Proof.Machine
end

