-- ==== Sys2Proof/Machine/EthCmd.lean ====
section
/-! DEFINITION. The Ethernet ports: training, priorities, flow control, congestion (sections 13.1 and 13.2), NVMe sets and
their commands (section 13.3), and the TIME discipline (section 13.8). -/

namespace Sys2Proof.Machine

/-- An Ethernet link trains in a mode of Table 13-1, or fails to (mode 0): the MODE of CRR_PORT_CFG, or under AUTO any. A
port in role OFF, or of a lost Post die, does not train (R470, section 13.1). -/
def State.ethTrain (s : State) (n mode : Nat) : State :=
  let cfg := s.rd F.CRR_PORT_CFG_MODE n
  let can := s.ethRole n != 0 && !s.err.postDown.testBit (n / 2) && decide (1 ≤ mode) && decide (mode ≤ 5) &&
    (cfg == 0 || cfg == mode)
  if can then (s.wr F.CRR_PORT_STATUS_UP n 1).wr F.CRR_PORT_STATUS_MODE n mode
  else (s.wr F.CRR_PORT_STATUS_UP n 0).wr F.CRR_PORT_STATUS_MODE n 0

/-- Frames queued on a port are lost with its link. -/
def State.dropTx (s : State) (n : Nat) : State := { s with txq := Tab.keep (fun k => k / 8 != n) s.txq }

/-- RETRAIN: a write of 1 to CRR_PORT_CFG.RETRAIN, and the mode the link trains in; 0: none. RETRAIN clears as training
ends. -/
def execRetrain (port : BitVec 3) (mode : BitVec 3) (s : State) : Res :=
  let n := port.toNat
  .next (if s.pins.held then s else ((s.dropTx n).wr F.CRR_PORT_CFG_RETRAIN n 0).ethTrain n mode.toNat)

/-- ETH_LINK_UP: a link that went down trains again. -/
def execEthLinkUp (port : BitVec 3) (mode : BitVec 3) (s : State) : Res :=
  let n := port.toNat
  .next (if s.pins.held ∨ s.rdb F.CRR_PORT_STATUS_UP n then s else s.ethTrain n mode.toNat)

/-- ETH_LINK_DOWN: UP clears; connections keep their state (section 13.1, Faults). -/
def execEthLinkDown (port : BitVec 3) (s : State) : Res :=
  let n := port.toNat
  .next (if s.pins.held then s else (s.dropTx n).ethDown n)

/-- A write of CRR_PRIO_MAP (R473). -/
def State.prioMapWrite (s : State) (n : Nat) (v : Word) : State :=
  let p (k : Nat) : Nat := bitsOf v.toNat (4 * k) 3
  if s.ethRole n = 3 ∧ (p 0 = p 1 ∨ p 0 = p 2 ∨ p 0 = p 3) then s.flag F.CRR_PORT_STATUS_CFG_ERR n
  else
    s.setReg Reg.CRR_PRIO_MAP n (BitVec.ofNat 64
      ((List.range 5).foldl (fun a k => a + p k * 2 ^ (4 * k) + bitsOf v.toNat (32 + 6 * k) 6 * 2 ^ (32 + 6 * k)) 0))

/-- PRIO_MAP_WRITE (R473). -/
def execPrioMapWrite (port : BitVec 3) (value : Word) (s : State) : Res :=
  .next (if s.pins.held then s else s.prioMapWrite port.toNat value)

/-- Frames queued for a priority that is no longer paused go out in order (R474). -/
def State.drainTx (s : State) (n q : Nat) : State :=
  if s.pausedPrio n q then s
  else
    let l := Tab.get [] s.txq (8 * n + q)
    let s := { s with txq := Tab.erase s.txq (8 * n + q) }
    { s with out := s.out ++ l }

/-- PFC_FRAME (R474): of the priorities it enables, those with a pause time are paused, the others go on. A pause that runs
out is the same as a frame with no pause time. -/
def execPfcFrame (port : BitVec 3) (enable : BitVec 8) (pause : BitVec 8) (s : State) : Res :=
  let n := port.toNat
  .next (if s.pins.held ∨ !s.rdb F.CRR_PORT_STATUS_UP n then s
    else
      let old := BitVec.ofNat 8 (Tab.get 0 s.eth.paused n)
      let m := enable &&& BitVec.ofNat 8 (s.rd F.CRR_PFC_CFG_PFC_EN n)
      let s := { s with eth := { s.eth with paused := Tab.set 0 s.eth.paused n ((old &&& ~~~ m) ||| (pause &&& m)).toNat } }
      (List.range 8).foldl (fun s q => s.drainTx n q) s)

/-- PFC_WATCHDOG (R475): a priority paused for PFC_WD_MS without a break. -/
def execPfcWatchdog (port : BitVec 3) (prio : BitVec 3) (s : State) : Res :=
  let n := port.toNat
  let q := prio.toNat
  .next (if s.pins.held ∨ !s.pausedPrio n q then s
    else
      let s := { s with txq := Tab.erase s.txq (8 * n + q) }
      let s := s.wr F.CRR_PORT_STATUS_STORM n (s.rd F.CRR_PORT_STATUS_STORM n ||| 2 ^ q)
      { s with eth := { s.eth with storm := Tab.set 0 s.eth.storm n (Tab.get 0 s.eth.storm n ||| 2 ^ q) } })

/-- PFC_STORM_RECOVERY (R475): 10 ms without a pause frame for the priority. -/
def execPfcStormRecovery (port : BitVec 3) (prio : BitVec 3) (s : State) : Res :=
  let n := port.toNat
  let q := prio.toNat
  let clear (m : Nat) : Nat := m &&& (255 - 2 ^ q)
  .next (if s.pins.held ∨ !(Tab.get 0 s.eth.storm n).testBit q then s
    else { s with eth := { s.eth with
      storm := Tab.set 0 s.eth.storm n (clear (Tab.get 0 s.eth.storm n))
      paused := Tab.set 0 s.eth.paused n (clear (Tab.get 0 s.eth.paused n)) } })

/-- CNP (R477): a congestion notification for a set's queue pair. -/
def execCnp (set : BitVec 4) (s : State) : Res :=
  let n := set.toNat
  .next (if s.pins.held ∨ s.rd F.CRR_NVME_STATUS_STATE n ≠ 2 then s
    else s.halveFlow (4096 + n) (s.rd F.CRR_NVME_CFG_PORT n))

/-- RATE_RECOVERY (R477): 50 µs without a mark. A flow is connection `flow`, or NVMe set `flow - 4096`. -/
def execRateRecovery (flow : BitVec 13) (s : State) : Res :=
  let k := flow.toNat
  let port := if k < 4096 then s.connPort k else s.rd F.CRR_NVME_CFG_PORT (k % 16)
  let line := s.lineRate port
  .next (match Tab.find? s.eth.flows k with
    | none => s
    | some r =>
      if s.pins.held then s
      else
        let r := min line (r + line / 20)
        { s with eth := { s.eth with
            flows := if r = line then Tab.erase s.eth.flows k else Tab.put s.eth.flows k r } })

/-- Bytes of a RoCEv2 frame with a payload of 4,096 bytes: BTH 12, RETH 16, ICRC 4 (R489; PRESUMED, log entry 36). -/
def State.roceFrame (s : State) (port : Nat) : Nat :=
  14 + (if s.rdb F.CRR_PORT_CFG_TAGGED port then 4 else 0) + (if s.rdb F.CRR_PORT_CFG_IP6 port then 40 else 20) + 8 + 12 + 16 +
    4096 + 4 + 4

/-- The checks of an enable, in the order of Table 13-4; 0 where they pass. -/
def State.nvmeCheck (s : State) (n : Nat) : Nat :=
  let port := s.rd F.CRR_NVME_CFG_PORT n
  let q := s.rd F.CRR_NVME_CFG_QPS n
  let d := s.rd F.CRR_NVME_CFG_DEPTH n
  let fields := decide (1 ≤ q) && decide (q ≤ 4) && decide (16 ≤ d) && decide (d ≤ 128) &&
    (s.xcheckRun 0 (s.rd F.CRR_NVME_NQN_ADDR n) 512 false false).isNone && decide (s.roceFrame port ≤ s.maxFrame port)
  if !fields then 1
  else if s.ethRole port % 2 = 0 then 2
  else if !(s.rd F.CRR_PFC_CFG_PFC_EN port).testBit (s.prio port 0) then 3
  else 0

/-- What the MC meets as it connects a set (R481): a namespace of `blocks` logical blocks of `lba` bytes, or no
connection. -/
def State.nvmeMeets (s : State) (n : Nat) (o : NvmeMeet) : State :=
  let set (s : State) (state result : Nat) : State :=
    (s.wr F.CRR_NVME_STATUS_STATE n state).wr F.CRR_NVME_STATUS_RESULT n result
  let port := s.rd F.CRR_NVME_CFG_PORT n
  let s := s.sendEth port 0 (.nvmeFabric port n 1)
  match o with
  | .unreachable => set s 0 4
  | .timeout => set s 0 7
  | .found blocks lba =>
    if !s.rdb F.CRR_PORT_STATUS_UP port then set s 0 4
    else if lba ≠ 4096 ∧ lba ≠ 512 then set s 0 5
    else
      let b := if lba = 512 then blocks.toNat / 8 else blocks.toNat
      let s := { s with eth := { s.eth with ns := Tab.put s.eth.ns n { blocks := b, lba512 := lba == 512 } } }
      let s := (List.range 16).foldl (fun s t =>
        if s.rd F.TIER_MOOR_TGT_CONN t = n then
          s.wr F.TIER_MOOR_TGT_BLOCKS t (s.nsClamp (s.rd F.TIER_MOOR_TGT_KIND t) n (s.rd F.TIER_MOOR_TGT_BLOCKS t))
        else s) s
      ((set s 2 0).targetsUp 1 n).flow

/-- A write of CRR_NVME_CFG with EN 1 (R481). A set that is not OFF keeps its configuration. -/
def State.nvmeEnable (s : State) (n : Nat) (v : Word) (o : NvmeMeet) : State :=
  if s.rd F.CRR_NVME_STATUS_STATE n ≠ 0 then s
  else
    let put (s : State) (f : Fld) : State := s.wr f n (f.get v)
    let s := put (put (put s F.CRR_NVME_CFG_PORT) F.CRR_NVME_CFG_QPS) F.CRR_NVME_CFG_DEPTH
    let s := (put (put s F.CRR_NVME_CFG_TMO_EXP) F.CRR_NVME_CFG_NSID).wr F.CRR_NVME_CFG_EN n 1
    let r := s.nvmeCheck n
    if r ≠ 0 then s.wr F.CRR_NVME_STATUS_RESULT n r else s.nvmeMeets n o

/-- The outstanding commands of a set end with a status. -/
def State.dropSet (s : State) (n status : Nat) : State :=
  let cmds := s.eth.nvme.filter (fun e => e.2.set == n)
  let s := { s with eth := { s.eth with nvme := s.eth.nvme.filter (fun e => e.2.set != n) } }
  cmds.foldl (fun (s : State) e => match e.2.item with
    | some i => s.moorDone i (some status)
    | none => s) s

/-- A write of CRR_NVME_CFG with EN 0 (R481): refused while a partition occupies a target that names the set. -/
def State.nvmeDisable (s : State) (n : Nat) : State :=
  let used := s.space.any (fun e => homeOf e.1 == .moor && s.rd F.TIER_MOOR_TGT_KIND (moorTarget e.1) == 1 &&
    s.rd F.TIER_MOOR_TGT_CONN (moorTarget e.1) == n)
  if used then s.wr F.CRR_NVME_STATUS_RESULT n 6
  else
    let port := s.rd F.CRR_NVME_CFG_PORT n
    let s := if s.rd F.CRR_NVME_STATUS_STATE n = 0 then s else s.sendEth port 0 (.nvmeFabric port n 2)
    let s := (s.dropSet n 0x0042).wr F.CRR_NVME_CFG_EN n 0
    let s := (s.wr F.CRR_NVME_STATUS_STATE n 0).wr F.CRR_NVME_STATUS_RESULT n 0
    { s with eth := { s.eth with ns := Tab.erase s.eth.ns n } }

/-- NVME_SET_ENABLE (R481). -/
def execNvmeSetEnable (set : BitVec 4) (cfg : Word) (meets : NvmeMeet) (s : State) : Res :=
  .next (if s.pins.held then s else s.nvmeEnable set.toNat cfg meets)

/-- NVME_SET_DISABLE (R481). -/
def execNvmeSetDisable (set : BitVec 4) (s : State) : Res :=
  .next (if s.pins.held then s else s.nvmeDisable set.toNat)

/-- A set that is UP goes DOWN, and the targets that name it (R321, R480). -/
def State.setDown (s : State) (n : Nat) : State :=
  if s.rd F.CRR_NVME_STATUS_STATE n ≠ 2 then s
  else
    let s := (s.wr F.CRR_NVME_STATUS_STATE n 3).dropSet n 0x0042
    ((List.range 16).foldl (fun s t =>
      if s.rd F.TIER_MOOR_TGT_KIND t = 1 ∧ s.rd F.TIER_MOOR_TGT_CONN t = n then s.tierPortDown true t else s) s).flow

/-- QP_ERROR (R480). -/
def execQpError (set : BitVec 4) (s : State) : Res := .next (if s.pins.held then s else s.setDown set.toNat)

/-- NVME_RECONNECT (R480): an attempt every 100 ms at a DOWN set; one that fails leaves it DOWN. -/
def execNvmeReconnect (set : BitVec 4) (connected : Bool) (s : State) : Res :=
  let n := set.toNat
  let port := s.rd F.CRR_NVME_CFG_PORT n
  .next (if s.pins.held ∨ s.rd F.CRR_NVME_STATUS_STATE n ≠ 3 then s
    else
      let s := s.sendEth port 0 (.nvmeFabric port n 1)
      if connected ∧ s.rdb F.CRR_PORT_STATUS_UP port then ((s.wr F.CRR_NVME_STATUS_STATE n 2).targetsUp 1 n).flow else s)

/-- KEEP_ALIVE (R480): Keep Alive is sent; one that fails makes the set DOWN. -/
def execKeepAlive (set : BitVec 4) (answered : Bool) (s : State) : Res :=
  let n := set.toNat
  let port := s.rd F.CRR_NVME_CFG_PORT n
  .next (if s.pins.held ∨ s.rd F.CRR_NVME_STATUS_STATE n ≠ 2 then s
    else
      let s := s.sendEth port 0 (.nvmeFabric port n 3)
      if answered then s else s.setDown n)

/-- An NVMe command goes out again, or for the first time. -/
def State.sendNvme (s : State) (k : Nat) (x : NvmeCmd) : State :=
  let port := s.rd F.CRR_NVME_CFG_PORT x.set
  s.sendEth port 0 (.nvmeCommand port k x.write (x.lba * s.lbas x.set) (x.count * s.lbas x.set))

/-- LOCAL_ACK_TIMEOUT (R480): the transport retries a command's packet; after 7 retries the queue pair enters the error
state. -/
def execLocalAckTimeout (command : BitVec 32) (s : State) : Res :=
  let k := command.toNat
  .next (match Tab.find? s.eth.nvme k with
    | none => s
    | some x =>
      if s.pins.held then s
      else if 7 ≤ x.retries then s.setDown x.set
      else
        let y : NvmeCmd := { x with retries := x.retries + 1 }
        ({ s with eth := { s.eth with nvme := Tab.put s.eth.nvme k y } }).sendNvme k x)

/-- A packet of a set's queue pair has come: it resets the retry count, and is answered with a CNP where it is marked CE
(R477, R480). -/
def State.roceSeen (s : State) (k : Nat) (x : NvmeCmd) (n : Nat) (ce : Bool) : State :=
  let y : NvmeCmd := { x with retries := 0, moved := x.moved + n }
  let s := { s with eth := { s.eth with nvme := Tab.put s.eth.nvme k y } }
  let port := s.rd F.CRR_NVME_CFG_PORT x.set
  if ce then s.sendEth port 3 (.cnp port x.set) else s

/-- RDMA_READ (R478): the target fetches write data of a command. -/
def execRdmaRead (command : BitVec 32) (offset : BitVec 17) (length : BitVec 18) (ce : Bool) (s : State) : Res :=
  let k := command.toNat
  .next (match Tab.find? s.eth.nvme k with
    | none => s
    | some x =>
      let o := offset.toNat
      let n := length.toNat
      if s.pins.held ∨ !x.write ∨ x.count * 4096 < o + n then s
      else
        let port := s.rd F.CRR_NVME_CFG_PORT x.set
        (s.roceSeen k x n ce).sendEth port 0 (.rdmaData port k (s.bytes (moorKey x.target (x.lba * 4096) + o) n)))

/-- RDMA_WRITE (R478): the target places read data of a command. -/
def execRdmaWrite (command : BitVec 32) (offset : BitVec 17) (data : List Byte) (ce : Bool) (s : State) : Res :=
  let k := command.toNat
  .next (match Tab.find? s.eth.nvme k with
    | none => s
    | some x =>
      let o := offset.toNat
      if s.pins.held ∨ x.write ∨ x.count * 4096 < o + data.length then s
      else
        let s := s.roceSeen k x data.length ce
        { s with mem := memStore s.mem (moorKey x.target (x.lba * 4096) + o) data })

/-- MOOR_COMPLETION (R320, R480): an NVMe completion with its status; `late`: after the tier latency. A completion of an
aborted command finds nothing and is discarded. -/
def execMoorCompletion (command : BitVec 32) (status : BitVec 16) (late : Bool) (s : State) : Res :=
  let k := command.toNat
  .next (match Tab.find? s.eth.nvme k with
    | none => s
    | some x =>
      if s.pins.held then s
      else
        let s := { s with eth := { s.eth with nvme := Tab.erase s.eth.nvme k } }
        match x.item with
        | none => s
        | some i =>
          let s := match late, s.item? i with
            | true, some it => s.flag F.TIER_FAIL_STATUS_MOOR_LATE it.part
            | _, _ => s
          (s.moorDone i (if status = 0 then none else some 0x0042)).flow)

/-- MOOR_TIMEOUT (R320, R480): an NVMe command, or a request to a Courier target on a connection, reaches TIER_TMO_MOOR. The
NVMe command is aborted; what comes late is discarded. -/
def execMoorTimeout (conn : Option (BitVec 12)) (request : BitVec 32) (s : State) : Res :=
  let k := request.toNat
  .next (if s.pins.held then s
    else match conn with
      | none => match Tab.find? s.eth.nvme k with
        | none => s
        | some x =>
          let port := s.rd F.CRR_NVME_CFG_PORT x.set
          let s := ({ s with eth := { s.eth with nvme := Tab.erase s.eth.nvme k } }).sendEth port 0 (.nvmeFabric port x.set 4)
          (match x.item with
            | some i => s.moorDone i (some 0x0042)
            | none => s).flow
      | some c => match (s.conn c.toNat).reqs.find? (fun r => r.trans == k && decide (0x0C ≤ r.opcode)) with
        | none => s
        | some r => ((s.dropReq c.toNat k r.opcode).moorDone r.item (some 0x0042)).flow)

/-- The rate limit of TIME, 500 ppm in units of 2^-32 (R504). -/
def rateLimit : Int := 2147483

/-- A signed number in a field of `w` bits, saturating. -/
def signedSat (w : Nat) (i : Int) : Nat :=
  ((max (-(2 ^ (w - 1) : Int)) (min (2 ^ (w - 1) - 1) i)) % 2 ^ w).toNat

/-- A Sync message measures the offset of TIME from the master (R504, R505). The new rate is the servo's own: a free value
within the limit, and the limit itself where an offset after the open is beyond 1 s. -/
def State.ptpSync (s : State) (offset : Int) : State :=
  let s := s.wr F.CRR_PTP_STATUS_OFFSET 0 (signedSat 32 offset)
  let opened := s.rdb F.SYS_OPEN_OPENED 0
  if !opened ∧ !s.eth.stepped ∧ offset < 0 then
    { s with time := s.time + (-offset).toNat, eth := { s.eth with stepped := true, within := 0 } }
  else
    let near := decide (-100 < offset) && decide (offset < 100)
    let w := if near then min (s.eth.within + 1) 16 else 0
    let s := ({ s with eth := { s.eth with within := w } }).wr F.CRR_PTP_STATUS_STATE 0 (if w = 16 then 1 else 0)
    let far := opened && (decide (1000000000 < offset) || decide (offset < -1000000000))
    let (x, s) := s.freeWord
    let free : Int := (x.toNat % 4294967 : Nat) - rateLimit
    let rate : Int := if far then (if 0 < offset then -rateLimit else rateLimit) else free
    let s := s.wr F.CLK_TIME_RATE_RATE 0 (signedSat 32 rate)
    if far then s.flag F.CRR_PTP_STATUS_FAR 0 else s

/-- PTP_EVENT_MESSAGE (R503, R504): an event message on a port. A Sync carries the master's time of departure and the path
delay as measured; TIME is its arrival. The end-to-end mechanism answers it with Delay_Req. The other event messages are
timestamped only. -/
def execPtpEventMessage (port : BitVec 3) (message : PtpMessage) (s : State) : Res :=
  let n := port.toNat
  .next (if s.pins.held ∨ !s.rdb F.CRR_PTP_CFG_EN 0 ∨ s.rd F.CRR_PTP_CFG_PORT 0 ≠ n ∨ !s.rdb F.CRR_PORT_STATUS_UP n then s
    else match message with
      | .sync domain departed delay =>
        if domain.toNat ≠ s.rd F.CRR_PTP_CFG_DOMAIN 0 then s
        else
          let s := s.ptpSync ((s.time : Int) - (departed.toNat + delay.toNat : Nat))
          if s.rdb F.CRR_PTP_CFG_P2P 0 then s else s.sendEth n 4 (.delayReq n)
      | .other => s)

/-- HOLDOVER (R505): 10 s without a Sync message; the rate is held. -/
def execHoldover (s : State) : Res :=
  .next (if s.pins.held ∨ !s.rdb F.CRR_PTP_CFG_EN 0 then s
    else ({ s with eth := { s.eth with within := 0 } }).wr F.CRR_PTP_STATUS_STATE 0 2)

end Sys2Proof.Machine
end

