-- ==== Sys2Proof/Machine/LlcCmd.lean ====
section
/-! DEFINITION. The last-level cache's commands and way masks (sections 9.4 and 9.5). -/

namespace Sys2Proof.Machine

/-- The DPAs of a range's Meadow granules. -/
def State.meadowUnits (s : State) (p va n : Nat) : List Nat :=
  (granAddrs va n).filterMap (fun a => match s.granule? p a with
    | some g => if g.home = .meadow then some g.key else none
    | none => none)

/-- The checks of a command in the order of Table 9-5, its PIN checks apart. -/
def State.llcCheck (s : State) (p w va n : Nat) : Nat :=
  if w = 0 ∨ 4 < w then 7
  else if va % 65536 ≠ 0 ∨ n % 65536 ≠ 0 ∨ n = 0 ∨ 2 ^ 40 < n ∨ 2 ^ 57 < va + n then 1
  else if !(pagesOf va n).all (fun a => (s.page? p a).isSome) then 2
  else 0

/-- Ways of a mask that a set has for pinned lines (R337, R349). -/
def State.setWays (s : State) (p idx : Nat) : Nat :=
  let r := Tab.get 0 s.err.ways idx
  popcount 16 ((List.range 16).foldl (fun a w => if (s.pinMask p).testBit w && !r.testBit w then a + 2 ^ w else a) 0)

/-- Lines each set would hold for granules at the given DPAs, keyed by slice and set. -/
def pinCounts (units : List Nat) : Tab Nat :=
  units.foldl (fun t k => (List.range 512).foldl (fun t i =>
    let x := llcIndex (k + 128 * i)
    Tab.put t x (Tab.get 0 t x + 1)) t) []

/-- The partition's pinned units with those of a new range fit its ways in every set (R339). -/
def State.pinsFit (s : State) (p : Nat) (units : List Nat) : Bool :=
  let held := (s.pinUnits.filter (fun e => e.2 == p + 1)).map (fun e => e.1 * 65536)
  let all := held ++ (distinct units).filter (fun k => !held.contains k)
  (pinCounts all).all (fun e => decide (e.2 ≤ s.setWays p e.1))

/-- Write back and drop a line that sits in a way its range may not use, then fetch the four sectors (R338, R339). -/
def State.pinLine (s : State) (p k : Nat) : State :=
  let s := match s.llcWay k with
    | some w =>
      if s.wayEligible k w then s
      else match Tab.find? s.llc (llcIndex k * 16 + w) with
        | some l =>
          let s := s.writeBackLine k l
          { s with llc := Tab.erase s.llc (llcIndex k * 16 + w) }
        | none => s
    | none => s
  (List.range 4).foldl (fun s i => (s.readSector .cached p (k + 32 * i) 32).2) s

/-- PIN of a range (R339). -/
def State.llcPin (s : State) (p va n : Nat) : Nat × State :=
  let units := s.meadowUnits p va n
  let l := Tab.get [] s.pinRanges p
  if units.length ≠ n / 65536 then (3, s)
  else if s.pinMask p = 0 ∨ !s.pinsFit p units then (4, s)
  else if 64 ≤ l.length then (5, s)
  else
    let s := { s with
      pinRanges := Tab.set [] s.pinRanges p (l ++ [(va, n)])
      pinUnits := units.foldl (fun t k => Tab.put t (k / 65536) (p + 1)) s.pinUnits }
    let s := units.foldl (fun s k => (List.range 512).foldl (fun s i => s.pinLine p (k + 128 * i)) s) s
    (0, s.refreshPins p)

/-- UNPIN of a range exactly as it was pinned (Table 9-4): granules that another pinned range covers stay. -/
def State.llcUnpin (s : State) (p va n : Nat) : Nat × State :=
  let l := Tab.get [] s.pinRanges p
  if !l.contains (va, n) then (6, s)
  else
    let l' := l.erase (va, n)
    let keep := l'.flatMap (fun r => s.meadowUnits p r.1 r.2)
    let units := (s.meadowUnits p va n).filter (fun k => !keep.contains k)
    let s := { s with
      pinRanges := Tab.set [] s.pinRanges p l'
      pinUnits := units.foldl (fun t k => Tab.erase t (k / 65536)) s.pinUnits }
    (0, s.refreshPins p)

/-- FLUSH of a range (Table 9-4, R343). -/
def State.llcFlush (s : State) (p va n : Nat) : State :=
  (s.meadowUnits p va n).foldl (fun s k => s.flushLines k (k + 65536)) s

/-- EVICT of a range: pinned lines stay (Table 9-4). -/
def State.llcEvict (s : State) (p va n : Nat) : State :=
  (s.meadowUnits p va n).foldl (fun s k =>
    let s := s.flushLines k (k + 65536)
    if Tab.get 0 s.pinUnits (k / 65536) = 0 then s.evictLines k (k + 65536) else s) s

/-- A command of a set runs to its end (R342, R343). -/
def State.llcExec (s : State) (set : Nat) : State :=
  let p := set / 2
  let w := s.rd F.LLC_CMD0_WORD set
  let va := s.rd F.LLC_CMD1_WORD set
  let n := s.rd F.LLC_CMD2_WORD set
  let r := match s.llcCheck p w va n, w with
    | 0, 1 => (0, s.llcFlush p va n)
    | 0, 2 => (0, s.llcEvict p va n)
    | 0, 3 => s.llcPin p va n
    | 0, 4 => s.llcUnpin p va n
    | e, _ => (e, s)
  (((r.2.wr F.LLC_CMD_STATUS_RESULT set r.1).flag F.LLC_CMD_STATUS_DONE set).wr F.LLC_CMD_CTRL_GO set 0).irq p 4

/-- An LLC command: its words are written, then GO. Every command ends in its own step, so a set is never found busy. -/
def State.llcCommand (s : State) (set op : Nat) (c0 c1 c2 : Word) : State :=
  if !s.setOpen set then s
  else
    let s := s.wr F.LLC_CMD0_WORD set (c0.toNat / 256 * 256 + op)
    ((s.setReg Reg.LLC_CMD1 set c1).setReg Reg.LLC_CMD2 set c2).llcExec set

/-- LLC_FLUSH (Table 9-4). -/
def execLlcFlush (set : BitVec 6) (cmd0 cmd1 cmd2 : Word) (s : State) : Res :=
  .next (s.llcCommand set.toNat 1 cmd0 cmd1 cmd2)

/-- LLC_EVICT (Table 9-4). -/
def execLlcEvict (set : BitVec 6) (cmd0 cmd1 cmd2 : Word) (s : State) : Res :=
  .next (s.llcCommand set.toNat 2 cmd0 cmd1 cmd2)

/-- LLC_PIN (R339). -/
def execLlcPin (set : BitVec 6) (cmd0 cmd1 cmd2 : Word) (s : State) : Res :=
  .next (s.llcCommand set.toNat 3 cmd0 cmd1 cmd2)

/-- LLC_UNPIN (Table 9-4). -/
def execLlcUnpin (set : BitVec 6) (cmd0 cmd1 cmd2 : Word) (s : State) : Res :=
  .next (s.llcCommand set.toNat 4 cmd0 cmd1 cmd2)

/-- A PF write of LLC_PIN_MASK (R337): the grant is the partition's pin lease. -/
def State.pinMaskWrite (s : State) (p v : Nat) : State :=
  let ways := bitsOf v 4 12
  let low := bitsOf v 0 4 != 0
  let taken := (List.range 32).any (fun q => q != p && (s.rd F.LLC_PIN_MASK_WAYS q &&& ways) != 0)
  let used := !(Tab.get [] s.pinRanges p).isEmpty
  let s := if low then s.flag F.LLC_PIN_ERR_BAD_WAYS p else s
  let s := if taken then s.flag F.LLC_PIN_ERR_OVERCOMMIT p else s
  let s := if used then s.flag F.LLC_PIN_ERR_IN_USE p else s
  if low || taken || used then s
  else
    let s := s.wr F.LLC_PIN_MASK_WAYS p ways
    if ways = 0 then s.setLease leasePin p { s.lease leasePin p with state := 0, holder := 0 } else s.grantLease leasePin p p

/-- LLC_PIN_MASK_WRITE (R337). -/
def execLlcPinMaskWrite (partition : BitVec 5) (ways : BitVec 16) (s : State) : Res :=
  .next (if s.pins.held then s else s.pinMaskWrite partition.toNat ways.toNat)

end Sys2Proof.Machine
end

