-- ==== Sys2Proof/Machine/PlanLoad.lean ====
section
/-! DEFINITION. Plan loading: verification, admission, reports, unloading (chapter 3, sections 3.1 to 3.6). -/

namespace Sys2Proof.Machine
namespace Admit

/-- What ends a load that is not admitted: the fields of the report (Table 3-11). -/
structure Bad where
  reason : Nat
  sec : Nat
  entry : Nat
  tier : Nat
  epoch : Nat
  rung : Nat
  overrides : Nat
  quota : Nat
  peak : Nat
  sched : Nat
  /-- an uncorrectable error in this section: its dead-letter DETAIL -/
  ue : Option Nat
  /-- verification passed; only step 11 failed -/
  late : Bool
  deriving DecidableEq, Repr

/-- No section and no entry is at fault. -/
def noSec : Nat := 0xFFFF
def noEnt : Nat := 0xFFFFFFFF

/-- A reason with nothing else to name. -/
def Bad.plain (reason : Nat) : Bad :=
  { reason, sec := noSec, entry := noEnt, tier := 0, epoch := noEnt, rung := 0, overrides := 0, quota := 0, peak := 0
    sched := 0, ue := none, late := false }

/-- A reason with a section and an entry. -/
def Bad.at (reason sec entry : Nat) : Bad := { Bad.plain reason with sec, entry }

/-- Reason codes of Table 3-12. -/
def rHeader : Nat := 0x01
def rSection : Nat := 0x02
def rFeature : Nat := 0x03
def rCode : Nat := 0x04
def rObject : Nat := 0x05
def rRules : Nat := 0x06
def rSchedule : Nat := 0x07
def rLimit : Nat := 0x08
def rArea : Nat := 0x09
def rResidency : Nat := 0x10
def rQuota : Nat := 0x11
def rTimeout : Nat := 0x12

/-- The header's fields (Table 3-1). -/
structure Head where
  format : Nat
  size : Nat
  ulital : Nat
  policy : Nat
  sections : Nat
  epochs : Nat
  cores : Nat
  entryPc : Nat
  areaBase : Nat
  areaSize : Nat
  req : Nat
  deriving DecidableEq, Repr

def headOf (b : List Byte) : Head :=
  let f := fieldAt b 4 2
  { format := f, size := fieldAt b 6 2, ulital := fieldAt b 12 2, policy := if f = 2 then fieldAt b 14 1 else 0
    sections := fieldAt b 15 1, epochs := fieldAt b 16 4, cores := fieldAt b 20 2, entryPc := fieldAt b 24 8
    areaBase := fieldAt b 32 8, areaSize := fieldAt b 40 8, req := if f = 2 then fieldAt b 64 16 else 0 }

/-- A section of the directory (Table 3-2). -/
structure Sec where
  idx : Nat
  kind : Nat
  off : Nat
  size : Nat
  deriving DecidableEq, Repr

/-- Step 1: where the plan area lies (Table 3-6). -/
def areaOk (s : State) (p addr size base len : Nat) : Bool :=
  base % 2 ^ 21 == 0 && len % 2 ^ 21 == 0 && decide (0 < len) && decide (base + len ≤ 2 ^ 57) && addr % 64 == 0 &&
  decide (base ≤ addr) && decide (addr + size ≤ base + len) &&
  (List.range (len / 65536)).all (fun i =>
    match s.page? p (base + 65536 * i), s.granule? p (base + 65536 * i) with
    | some _, some g => g.home == .meadow
    | _, _ => false)

/-- Step 2: the header's own fields (Table 3-1). -/
def headOk (b : List Byte) (size : Nat) : Bool :=
  let h := headOf b
  let n := if h.format = 2 then 96 else 64
  fieldAt b 0 4 == 0x4E414C50 && (h.format == 1 || h.format == 2) && h.size == n && decide (n ≤ size) &&
  fieldAt b (n - 4) 4 == (crc32c (b.take (n - 4))).toNat && fieldAt b 8 4 == size &&
  (h.ulital == 1 || (h.format == 2 && h.ulital == 2)) &&
  (if h.format = 2 then decide (h.policy ≤ 2) && allZero (bytesAt b 60 4) && allZero (bytesAt b 80 12)
   else fieldAt b 14 1 == 0) &&
  decide (3 ≤ h.sections) && decide (h.sections ≤ 16) && decide (1 ≤ h.epochs) && decide (h.epochs ≤ 1048576) &&
  decide (1 ≤ h.cores) && decide (h.cores ≤ 64) && allZero (bytesAt b 22 2) && allZero (bytesAt b 48 12)

/-- The size of one entry of a section kind, where its SIZE is a whole number of them. -/
def unitOf (kind : Nat) : Nat :=
  match kind with
  | 1 => 8
  | 2 => 32
  | 5 => 32
  | 7 => 24
  | _ => 1

/-- Directory entry `i`, if it passes step 3 beside the entries before it. -/
def secOf (b : List Byte) (h : Head) (size i : Nat) (before : List Sec) : Option Sec :=
  let o := h.size + 16 * i
  let k := fieldAt b o 2
  let off := fieldAt b (o + 4) 4
  let n := fieldAt b (o + 8) 4
  if allZero (bytesAt b (o + 2) 2) && decide (1 ≤ k) && decide (k ≤ 7) && (h.format == 2 || (k != 4 && k != 7)) &&
      !before.any (fun x => x.kind == k) && off % 64 == 0 && decide (h.size + 16 * h.sections ≤ off) &&
      decide (off + n ≤ size) && !before.any (fun x => overlaps off n x.off x.size) && n % unitOf k == 0 &&
      (k != 7 || n == 24) && fieldAt b (o + 12) 4 == (crc32c (bytesAt b off n)).toNat then
    some { idx := i, kind := k, off, size := n }
  else none

/-- Step 3: the directory. An uncorrectable error in a section names it. -/
def dirOf (s : State) (p addr : Nat) (b : List Byte) (h : Head) (size : Nat) : Except Bad (List Sec) :=
  if size < h.size + 16 * h.sections then .error (Bad.plain rSection)
  else
    let r := (List.range h.sections).foldl (fun (a : Except Bad (List Sec)) i => match a with
      | .error e => .error e
      | .ok l =>
        let o := h.size + 16 * i
        let off := fieldAt b (o + 4) 4
        let n := fieldAt b (o + 8) 4
        if off + n ≤ size ∧ (s.vpoison p (addr + off) n).isSome then
          .error { Bad.at rSection i noEnt with ue := some i }
        else match secOf b h size i l with
        | some x => .ok (l ++ [x])
        | none => .error (Bad.at rSection i noEnt)) (.ok [])
    match r with
    | .error e => .error e
    | .ok l => if [1, 2, 3, 5].all (fun k => l.any (fun x => x.kind == k)) then .ok l else .error (Bad.plain rSection)

/-- The section of a kind: its directory index and its bytes; absent, no bytes. -/
def sec (b : List Byte) (l : List Sec) (kind : Nat) : Nat × List Byte :=
  match l.find? (fun x => x.kind == kind) with
  | some x => (x.idx, bytesAt b x.off x.size)
  | none => (noSec, [])

/-- Word `w` of entry `i` of a section with entries of `n` bytes. -/
def wordAt (b : List Byte) (n i w : Nat) : Nat := fieldAt b (n * i + 8 * w) 8

/-- An object table entry (Table 3-4). -/
def objOf (b : List Byte) (i : Nat) : ObjEntry :=
  let w := wordAt b 32 i 0
  { index := bitsOf w 0 27, sizeCode := bitsOf w 32 4, cls := bitsOf w 36 16
    lattice := if bitOf w 56 then some (bitsOf w 52 4) else none, tiles := bitsOf (wordAt b 32 i 1) 0 25
    recordBase := wordAt b 32 i 2 }

/-- Step 7 of one object (R89). -/
def objOk (b : List Byte) (h : Head) (i : Nat) (before : List ObjEntry) : Bool :=
  let w := wordAt b 32 i 0
  let o := objOf b i
  bitsOf w 27 5 == 0 && bitsOf w 57 7 == 0 && (h.format == 2 || bitsOf w 52 5 == 0) && decide (o.sizeCode ≤ 8) &&
  o.cls != 0xFFFF && bitsOf (wordAt b 32 i 1) 25 39 == 0 && decide (1 ≤ o.tiles) && decide (o.tiles ≤ 16777216) &&
  wordAt b 32 i 3 == 0 && o.recordBase % 32 == 0 && decide (h.areaBase ≤ o.recordBase) &&
  decide (o.recordBase + 32 * o.tiles ≤ h.areaBase + h.areaSize) &&
  before.all (fun x => x.index != o.index && !overlaps x.recordBase (32 * x.tiles) o.recordBase (32 * o.tiles))

/-- Objects and tiles of every plan on the device, those about to be admitted included. -/
def deviceTotals (s : State) : Nat × Nat :=
  s.plans.foldl (fun a e =>
    let n : List ObjEntry := match e.2.plan with
      | some x => x.objects
      | none => match e.2.load with
        | some l => match l.plan with
          | some x => if l.reason = 0 then x.objects else []
          | none => []
        | none => []
    (a.1 + n.length, n.foldl (fun t o => t + o.tiles) a.2)) (0, 0)

/-- Step 7: the object table. -/
def objsOf (s : State) (b : List Byte) (h : Head) (idx : Nat) : Except Bad (List ObjEntry) :=
  let r := (List.range (b.length / 32)).foldl (fun (a : Except Bad (List ObjEntry)) i => match a with
    | .error e => .error e
    | .ok l => if objOk b h i l then .ok (l ++ [objOf b i]) else .error (Bad.at rObject idx i)) (.ok [])
  match r with
  | .error e => .error e
  | .ok l =>
    let (n, t) := deviceTotals s
    match (List.range l.length).find? (fun i =>
      decide (2 ^ 20 < n + (i + 1)) || decide (2 ^ 27 < (l.take (i + 1)).foldl (fun a o => a + o.tiles) t)) with
    | some i => .error (Bad.at rLimit idx i)
    | none => .ok l

/-- Step 8: the rule tables (R84, R87). -/
def rulesOf (s : State) (h : Head) (objs : List ObjEntry) (rules lat : Nat × List Byte) (objIdx : Nat) :
    Except Bad RuleSet :=
  match Rules.tables (rules.2.length / 32 + 2) rules.2 0, Rules.tables (lat.2.length / 32 + 2) lat.2 0 with
  | some ts, some ls =>
    if ts.any (fun t => t.kind == 4) then .error (Bad.at rRules rules.1 noEnt)
    else if lat.1 ≠ noSec ∧ !(ls.length == 1 && ls.all (fun t => t.kind == 4)) then .error (Bad.at rRules lat.1 noEnt)
    else match Rules.check (s.rulesCtx [] [] objs) (ts ++ ls) 1 with
      | .ok rs => .ok rs
      | .error e => .error (Bad.at rRules (if e.place = 0 then rules.1 else if e.place = 1 then lat.1 else objIdx) e.entry)
  | none, _ => .error (Bad.at rRules rules.1 noEnt)
  | _, none => .error (Bad.at rRules (if h.format = 2 then lat.1 else rules.1) noEnt)

/-- A schedule entry (Table 3-5). -/
def schedOf (b : List Byte) (i : Nat) : SchedEntry :=
  let w0 := wordAt b 32 i 0
  let w1 := wordAt b 32 i 1
  let w2 := wordAt b 32 i 2
  let w3 := wordAt b 32 i 3
  { obj := bitsOf w0 0 27, first := bitsOf w0 32 24, change := bitsOf w0 56 4 == 2, count := bitsOf w1 0 25
    layer := bitsOf w1 32 16, step := bitsOf w1 48 16, epoch := bitsOf w2 0 32, endEpoch := bitsOf w2 32 32
    replay := bitOf w3 0, newDisp := Disp.ofCode (bitsOf w3 1 3) }

/-- What admission knows of a plan: objects, rules, schedule. -/
structure Ctx where
  objects : List ObjEntry
  rules : RuleSet
  sched : List SchedEntry
  deriving DecidableEq, Repr

def Ctx.obj? (x : Ctx) (i : Nat) : Option ObjEntry := x.objects.find? (fun o => o.index == i)

/-- The raw size of an entry's tiles. -/
def Ctx.rawOf (x : Ctx) (e : SchedEntry) : Nat :=
  match x.obj? e.obj with
  | some o => 4096 * 2 ^ o.sizeCode
  | none => 0

/-- The Sieve entry of a PRODUCE entry's tiles, and the requested disposition (section 3.5, steps 1 and 2). -/
def Ctx.class? (x : Ctx) (e : SchedEntry) : Option (SieveEntry × Disp) :=
  match x.obj? e.obj with
  | none => none
  | some o =>
    let level := levelOf x.rules o.lattice e.step
    (sieve x.rules o.cls e.layer level e.replay).map (fun m => (m.2, sieveDisp x.rules m.2 o.lattice level e.replay))

def Ctx.flags (x : Ctx) (e : SchedEntry) : Bool × Bool × Bool :=
  match x.class? e with
  | some (m, _) => (m.compressible, m.regrowOk, m.returnOk)
  | none => (false, false, false)

/-- A CHANGE of a PRODUCE entry's tiles (R91). -/
def changes (e c : SchedEntry) : Bool :=
  c.change && !e.change && c.obj == e.obj && c.first == e.first && c.count == e.count && c.step == e.step && c.replay == e.replay

/-- The disposition the requested one and the CHANGE entries among the first `n` entries give at an epoch: of the changes
made by then, the one with the latest EPOCH, the later entry on a tie (log entry 26). -/
def Ctx.planned (x : Ctx) (n : Nat) (e : SchedEntry) (epoch : Nat) : Disp :=
  let base : Disp := match x.class? e with
    | some (_, d) => d
    | none => .keep
  ((x.sched.take n).foldl (fun (a : Nat × Disp) c =>
    if changes e c && decide (c.epoch ≤ epoch) && decide (a.1 ≤ c.epoch) then (c.epoch, c.newDisp) else a) (0, base)).2

/-- A legal transition of Table 2-6 for an entry's tiles. -/
def legalMove (flags : Bool × Bool × Bool) (a b : Disp) : Bool :=
  match a, b with
  | .drop, _ => false
  | _, .drop => true
  | .hold, .press => flags.1
  | .hold, .spill => true
  | .hold, .sink => true
  | .press, .spill => true
  | .press, .sink => true
  | .press, .hold => true
  | .spill, .sink => true
  | .spill, .hold => true
  | .sink, .hold => true
  | .spill, .press => flags.1
  | .sink, .press => flags.1
  | .sink, .spill => true
  | .regrow, .hold => true
  | .ret, .hold => true
  | .regrow, .ret => flags.2.2
  | _, .regrow => a.stored && flags.2.1
  | _, .ret => a.stored && flags.2.2
  | _, _ => false

/-- Step 9 of schedule entry `i`. -/
def schedOk (x : Ctx) (b : List Byte) (epochs i : Nat) : Bool :=
  let e := schedOf b i
  let k := bitsOf (wordAt b 32 i 0) 56 4
  let base := bitsOf (wordAt b 32 i 0) 27 5 == 0 && bitsOf (wordAt b 32 i 0) 60 4 == 0 && bitsOf (wordAt b 32 i 1) 25 7 == 0 &&
    bitsOf (wordAt b 32 i 3) 4 60 == 0 && decide (1 ≤ e.count) && decide (e.count ≤ 16777216) && decide (e.epoch < epochs) &&
    (match x.obj? e.obj with
      | some o => decide (e.first + e.count ≤ o.tiles)
      | none => false)
  if k = 1 then base && decide (e.epoch ≤ e.endEpoch) && decide (e.endEpoch < epochs) && e.newDisp == Disp.ofCode 0
  else if k = 2 then
    base && e.endEpoch == 0 &&
    (match (x.sched.take i).reverse.find? (fun d => changes d e) with
      | some d => legalMove (x.flags d) (x.planned i d e.epoch) e.newDisp
      | none => false)
  else false

/-- Depth of a stored disposition: Meadow, Heath, Moor. -/
def depth (d : Disp) : Nat :=
  match d with
  | .spill => 1
  | .sink => 2
  | _ => 0

/-- The disposition in effect for entry `i` at an epoch under overrides: an override holds for the entry's whole life, and
never raises a tile (R103, section 3.5 Edges; log entry 26). -/
def Ctx.effect (x : Ctx) (ov : List Override) (i epoch : Nat) (e : SchedEntry) : Disp :=
  let d := x.planned x.sched.length e epoch
  match ov.find? (fun o => o.entry == i) with
  | none => d
  | some o => if o.disp.stored && (!d.stored || decide (depth o.disp < depth d)) then d else o.disp

/-- The compressed charge of an entry's tile where one applies (R97). -/
def Ctx.packed (x : Ctx) (e : SchedEntry) (d : Disp) (raw : Nat) : Option Nat :=
  match x.class? e with
  | none => none
  | some (m, _) => match x.rules.baler[m.balerRule]? with
    | none => none
    | some b =>
      if (d == .press || m.compressible) && b.mode != 0 && !(b.mode == 2 && raw == 4096) then
        some (ceilDiv (ceilDiv (raw * 256) (max b.minRatio 1)) 4096 * 4096)
      else none

/-- The charge of entry `i` in an epoch: tier, bytes of one tile, and whether it is a compressed charge (Table 3-9). -/
def Ctx.charge (x : Ctx) (ov : List Override) (i epoch : Nat) : Option (Nat × Nat × Bool) :=
  match x.sched[i]? with
  | none => none
  | some e =>
    if e.change ∨ epoch < e.epoch ∨ e.endEpoch < epoch then none
    else match x.obj? e.obj with
      | none => none
      | some o =>
        let raw := 4096 * 2 ^ o.sizeCode
        let d := x.effect ov i epoch e
        let mk (t : Nat) : Option (Nat × Nat × Bool) := match x.packed e d raw with
          | some n => some (t, n, true)
          | none => some (t, raw, false)
        match d with
        | .hold => some (0, raw, false)
        | .press => mk 0
        | .spill => mk 1
        | .sink => mk 2
        | .regrow => if epoch = e.endEpoch then some (0, raw, false) else none
        | .ret => if epoch = e.endEpoch then some (0, raw, false) else none
        | .keep => none
        | .drop => none

/-- Everything admission is measured against: the plan area, the window, the quotas in bytes, the epochs. -/
structure Limits where
  area : Nat
  window : Nat
  quota : List Nat
  epochs : Nat
  deriving DecidableEq, Repr

/-- The largest raw tile charged compressed in a tier (R98). -/
def Ctx.largest (x : Ctx) (ov : List Override) (tier : Nat) : Nat :=
  (List.range x.sched.length).foldl (fun (m : Nat) (i : Nat) => match x.sched[i]? with
    | none => m
    | some e =>
      let raw := x.rawOf e
      if raw ≤ m then m
      else if (List.range (e.endEpoch + 1 - e.epoch)).any (fun k => match x.charge ov i (e.epoch + k) with
        | some (t, _, c) => t == tier && c
        | none => false) then raw else m) 0

/-- The peak of a tier in an epoch (R98). -/
def Ctx.peak (x : Ctx) (l : Limits) (ov : List Override) (tier epoch : Nat) : Nat :=
  (if tier = 0 then l.area else 0) + l.window * x.largest ov tier +
    (List.range x.sched.length).foldl (fun a i => match x.charge ov i epoch, x.sched[i]? with
      | some (t, n, _), some e => if t = tier then a + n * e.count else a
      | _, _ => a) 0

/-- Entries charged to a tier in an epoch, in the order of R105. -/
def Ctx.cands (x : Ctx) (ov : List Override) (tier epoch : Nat) : List Nat :=
  let key (i : Nat) : Nat := match x.sched[i]? with
    | some e => ((2 ^ 32 - e.endEpoch) * 2 ^ 16 + e.step) * 2 ^ 32 + i
    | none => 0
  let l := (List.range x.sched.length).filter (fun i => match x.charge ov i epoch with
    | some (t, _, _) => t == tier
    | none => false)
  l.mergeSort (fun a b => decide (key a ≤ key b))

/-- Tile ranges cover `lo ≤ tile < hi`. -/
def covers (rs : List (Nat × Nat)) : Nat → Nat → Nat → Bool
  | 0, lo, hi => decide (hi ≤ lo)
  | f + 1, lo, hi =>
    if hi ≤ lo then true
    else match rs.find? (fun r => decide (r.1 ≤ lo) && decide (lo < r.2)) with
      | some r => covers rs f r.2 hi
      | none => false

/-- Every recipe input of an entry's tiles is scheduled as long as the entry, and none is in effect REGROW or RETURN at its
END_EPOCH (Table 3-10, rung 3; inputs are of the same STEP and REPLAY, R271). -/
def Ctx.inputsOk (x : Ctx) (ov : List Override) (e : SchedEntry) : Bool :=
  match x.class? e with
  | none => false
  | some (m, _) => match x.rules.recipes[m.recipe]? with
    | none => false
    | some rc => (recipeInputs rc e.first).all (fun y => match y.2 with
      | none => false
      | some lo =>
        let rs := (List.range x.sched.length).filterMap (fun i => match x.sched[i]? with
          | some q =>
            let d := x.effect ov i e.endEpoch q
            if !q.change && q.obj == y.1 && q.step == e.step && q.replay == e.replay && decide (e.endEpoch ≤ q.endEpoch) &&
                d != .regrow && d != .ret then some (q.first, q.first + q.count) else none
          | none => none)
        covers rs (rs.length + 1) lo (lo + e.count))

/-- The override list with one entry's override replaced. -/
def override (ov : List Override) (o : Override) : List Override := ov.filter (fun z => z.entry != o.entry) ++ [o]

/-- The rung of an entry's override. -/
def lastRung (ov : List Override) (i : Nat) : Nat :=
  match ov.find? (fun o => o.entry == i) with
  | some o => o.rung
  | none => 0

/-- The override `rung` makes of entry `i` at an epoch, if it is accepted (Table 3-10). -/
def Ctx.rungOf (x : Ctx) (l : Limits) (ov : List Override) (tier epoch rung i : Nat) : Option Override :=
  match x.sched[i]? with
  | none => none
  | some e =>
    let raw := x.rawOf e
    let d := x.effect ov i epoch e
    let fl := x.flags e
    let last := lastRung ov i
    let mk (n : Disp) : Option Override := some { entry := i, disp := n, rung }
    if rung ≤ last then none
    else match rung with
      | 1 => if tier = 0 ∧ d = .hold ∧ fl.1 = true ∧ (match x.packed e .press raw with
          | some n => decide (n < raw)
          | none => false) = true then mk .press else none
      | 2 => if tier = 0 ∧ d = .press ∧ (List.range (e.endEpoch + 1 - e.epoch)).all (fun k =>
          decide (x.peak l (override ov { entry := i, disp := .spill, rung := 2 }) 1 (e.epoch + k) ≤ l.quota.getD 1 0)) then
          mk .spill else none
      | 3 => if fl.2.1 && d != .regrow && x.inputsOk ov e then mk .regrow else none
      | _ => if fl.2.2 && d != .ret then mk .ret else none

/-- The victim of R103 and R104: the override to make. -/
def Ctx.victim (x : Ctx) (l : Limits) (ov : List Override) (policy tier epoch : Nat) : Option Override :=
  let cs := x.cands ov tier epoch
  if policy = 1 then
    cs.findSome? (fun i => match x.sched[i]? with
      | none => none
      | some e => match x.effect ov i epoch e with
        | .hold => some { entry := i, disp := .spill, rung := 0 }
        | .press => some { entry := i, disp := .spill, rung := 0 }
        | .spill => some { entry := i, disp := .sink, rung := 0 }
        | _ => none)
  else [1, 2, 3, 4].findSome? (fun r => cs.findSome? (fun i => x.rungOf l ov tier epoch r i))

/-- The inner loop of R102 at one tier and epoch. -/
def Ctx.relieve (x : Ctx) (l : Limits) (policy tier epoch : Nat) : Nat → List Override → List Override
  | 0, ov => ov
  | f + 1, ov =>
    if x.peak l ov tier epoch ≤ l.quota.getD tier 0 then ov
    else match x.victim l ov policy tier epoch with
      | none => ov
      | some o => x.relieve l policy tier epoch f (override ov o)

/-- One pass of R102 over the epochs and tiers. -/
def Ctx.pass (x : Ctx) (l : Limits) (policy : Nat) (ov : List Override) : List Override :=
  (List.range l.epochs).foldl (fun ov e =>
    [0, 1, 2].foldl (fun ov t => x.relieve l policy t e (4 * x.sched.length + 1) ov) ov) ov

/-- R102: passes until one changes nothing. Every override moves an entry down or up its rungs, so the number of overrides,
and with it of passes, is bounded. -/
def Ctx.reshape (x : Ctx) (l : Limits) (policy : Nat) : Nat → List Override → List Override
  | 0, ov => ov
  | f + 1, ov =>
    let n := x.pass l policy ov
    if n = ov then ov else x.reshape l policy f n

/-- The first violation: earliest epoch, then tier order (R109). -/
def Ctx.violation (x : Ctx) (l : Limits) (ov : List Override) : Option (Nat × Nat) :=
  (List.range l.epochs).findSome? (fun e =>
    ([0, 1, 2].find? (fun t => decide (l.quota.getD t 0 < x.peak l ov t e))).map (fun t => (e, t)))

/-- The highest Meadow peak and its first epoch. -/
def Ctx.top (x : Ctx) (l : Limits) (ov : List Override) : Nat × Nat :=
  (List.range l.epochs).foldl (fun a e => let v := x.peak l ov 0 e; if a.1 < v then (v, e) else a) (0, 0)

def maxRung (ov : List Override) : Nat := ov.foldl (fun m o => max m o.rung) 0

/-- An override table entry (R106). -/
def overrideBytes (o : Override) : List Byte :=
  leBytes 4 o.entry ++ leBytes 1 o.disp.code ++ leBytes 1 o.rung ++ List.replicate 10 0

/-- Words 0 to 6 of the report (Table 3-11). -/
def words (policy : Nat) (hints : Nat → Nat) (e : Bad) (short : Bool) : List Nat :=
  [low 8 e.reason + low 2 policy * 2 ^ 8 + low 2 e.tier * 2 ^ 10 + low 3 e.rung * 2 ^ 12 + low 16 e.sec * 2 ^ 16 +
     low 32 e.entry * 2 ^ 32,
   low 32 e.epoch + low 32 e.overrides * 2 ^ 32, low 64 e.quota, low 64 e.peak,
   if short then low 64 (e.peak - e.quota) else 0, if e.tier = 0 then 0 else hints (e.tier - 1), low 32 e.sched]

/-- A load that ends early: its report. -/
def failed (policy : Nat) (hints : Nat → Nat) (e : Bad) : Load :=
  { reason := e.reason, plan := none, report := words policy hints e false, changed := false }

/-- Steps 4 and 5. -/
def limits (s : State) (p : Nat) (h : Head) (dataIdx dataLen : Nat) : Option Bad :=
  let acc := (List.range 4).foldl (fun a k => a + s.rd F.SYS_FEAT_ACCEPT_BITS k * 2 ^ (32 * k)) 0
  let cores := ((List.range 64).filter (fun c => s.corePart? c == some p)).length
  if !(List.range 128).all (fun i => !bitOf h.req i || bitOf acc i) || (h.ulital == 2 && !s.feature 0) then
    some (Bad.plain rFeature)
  else if cores < h.cores then some (Bad.plain rLimit)
  else if (if h.ulital = 1 then 114688 else 245760) < dataLen then some (Bad.at rLimit dataIdx noEnt)
  else none

/-- Step 10: the top of the plan area stays clear of the image and the records, and these of each other (R106, R259). -/
def roomOk (h : Head) (objs : List ObjEntry) (addr size : Nat) : Bool :=
  let t := objs.foldl (fun a o => a + o.tiles) 0
  let n := 32 * t + (if h.policy = 0 then 0 else 2 ^ 20)
  let top := h.areaBase + h.areaSize - n
  decide (n ≤ h.areaSize) && decide (addr + size ≤ top) &&
  objs.all (fun o => decide (o.recordBase + 32 * o.tiles ≤ top) && !overlaps o.recordBase (32 * o.tiles) addr size)

/-- Steps 10 and 11 (R97 to R109): the load of a plan that verification accepts. -/
def admission (s : State) (p addr size : Nat) (h : Head) (x : Ctx) (plan : Plan) (hints : Nat → Nat) : Load :=
  let n := x.sched.length
  if !roomOk h x.objects addr size then failed h.policy hints { Bad.plain rArea with sched := n }
  else
    let l : Limits := { area := h.areaSize, window := s.rd F.PART_INTAKE_WINDOW_TILES p
                        quota := [0, 1, 2].map (fun t => s.quotaUnits p t * 65536), epochs := h.epochs }
    let ov := if h.policy = 0 then [] else x.reshape l h.policy (4 * n + 1) []
    let base : Bad := { Bad.plain 0 with sched := n, rung := maxRung ov, overrides := ov.length }
    if 65536 < ov.length then
      { reason := rLimit, plan := some plan, report := words h.policy hints { base with reason := rLimit } false
        changed := false }
    else match x.violation l ov with
      | some (e, t) =>
        let r := { base with
          reason := rResidency
          tier := t + 1
          epoch := e
          quota := l.quota.getD t 0
          peak := x.peak l ov t e }
        { reason := rResidency, plan := some plan, report := words h.policy hints r true, changed := false }
      | none =>
        let (v, e) := x.top l ov
        let r := { base with tier := 1, epoch := e, quota := l.quota.getD 0 0, peak := v }
        let sorted := ov.mergeSort (fun a b => decide (a.entry ≤ b.entry))
        { reason := 0, plan := some { plan with overrides := sorted }, report := words h.policy hints r false
          changed := false }

/-- Verification and admission (R93): the outcome a load will publish, and the section in which an uncorrectable error was
met. Until the device is open every load ends with FEATURE (R432). -/
def run (s : State) (p : Nat) : Load × Option Nat :=
  let addr := s.rd F.PART_PLAN_ADDR_ADDR p
  let size := s.rd F.PART_PLAN_SIZE_SIZE p
  let none' : Nat → Nat := fun _ => 0
  let b := s.vbytes p addr size
  let h := headOf b
  let stop (e : Bad) : Load × Option Nat := (failed 0 none' e, e.ue)
  if !s.rdb F.SYS_OPEN_OPENED 0 then stop (Bad.plain rFeature)
  else if size < 48 ∨ (s.xcheckRun p addr (min size 48) false false).isSome ∨ !areaOk s p addr size h.areaBase h.areaSize then
    stop (Bad.plain rArea)
  else if (s.vpoison p addr (min size 96)).isSome then stop { Bad.plain rSection with ue := some noSec }
  else if !headOk b size then stop (Bad.plain rHeader)
  else
    let pol := h.policy
    match dirOf s p addr b h size with
    | .error e => (failed pol none' e, e.ue)
    | .ok dir =>
      let hb := (sec b dir 7).2
      let hints (t : Nat) : Nat := fieldAt hb (8 * t) 8
      let bad (e : Bad) : Load × Option Nat := (failed pol hints e, none)
      let data := sec b dir 6
      let code := sec b dir 1
      let v1 := h.ulital == 1
      match limits s p h data.1 data.2.length with
      | some e => bad e
      | none =>
      match (List.range (code.2.length / 8)).find? (fun i =>
          !Ulital.wordOk v1 (BitVec.ofNat 64 (fieldAt code.2 (8 * i) 8)) (8 * i) code.2.length) with
      | some i => bad (Bad.at rCode code.1 i)
      | none =>
      match objsOf s (sec b dir 2).2 h (sec b dir 2).1 with
      | .error e => bad e
      | .ok objs =>
      match rulesOf s h objs (sec b dir 3) (sec b dir 4) (sec b dir 2).1 with
      | .error e => bad e
      | .ok rs =>
      let sb := sec b dir 5
      let n := sb.2.length / 32
      let x : Ctx := { objects := objs, rules := rs, sched := (List.range n).map (schedOf sb.2) }
      match (List.range n).find? (fun i => !schedOk x sb.2 h.epochs i) with
      | some i => bad { Bad.at rSchedule sb.1 i with sched := i }
      | none =>
      let t := objs.foldl (fun a o => a + o.tiles) 0
      let off : Nat := match dir.find? (fun y => y.kind == 1) with
        | some y => y.off
        | none => 0
      let plan : Plan := { format := h.format, ulital := h.ulital, policy := pol, epochs := h.epochs, cores := h.cores
                           entryPc := h.entryPc, areaBase := h.areaBase, areaSize := h.areaSize, imageAddr := addr
                           imageSize := size, codeBase := addr + off, codeSize := code.2.length, data := data.2
                           objects := objs, rules := rs, schedule := x.sched, overrides := []
                           metaBase := h.areaBase + h.areaSize - 32 * t, digest := Config.sha384 b }
      (admission s p addr size h x plan hints, none)

end Admit

/-- Set or clear a bit of the page entries of a range of partition `p`. -/
def State.markPages (s : State) (p base len : Nat) (f : PageEnt → PageEnt) : State :=
  { s with pages := s.pages.map (fun e =>
      let va := e.1 % 2 ^ 36 * 2 ^ 21
      if e.1 / 2 ^ 36 = p ∧ base ≤ va + (2 ^ 21 - 1) ∧ va < base + len then (e.1, f e.2) else e) }

/-- Clear the bits a plan set in the partition's page entries. -/
def State.unmarkPages (s : State) (p : Nat) : State :=
  s.markPages p 0 (2 ^ 57) (fun e => { e with plan := false, records := false, code := false })

/-- PLAN_LOAD: a write of 1 to PART_PLAN_CTRL.LOAD (R93, R95, Table 3-7). -/
def execPlanLoad (partition : BitVec 5) (s : State) : Res :=
  let p := partition.toNat
  .next (if s.pins.held || !s.served p then s
    else if s.rd F.PART_PLAN_STATUS_STATE p ≠ 0 ∧ s.rd F.PART_PLAN_STATUS_STATE p ≠ 4 then
      s.flag F.PART_PLAN_STATUS_BUSY_REFUSED p
    else
      let (l, ue) := Admit.run s p
      let s := (s.wr F.PART_PLAN_CTRL_LOAD p 1).wr F.PART_PLAN_STATUS_STATE p 1
      let b := s.vbytes p (s.rd F.PART_PLAN_ADDR_ADDR p) 48
      let s := if (l.reason = Admit.rArea ∨ l.reason = Admit.rFeature) ∧ l.plan = none then s
        else s.markPages p (fieldAt b 32 8) (fieldAt b 40 8) (fun e => { e with plan := true })
      let s := match ue with
        | some k => s.deadLetter p { Dead.plain 7 7 0 k with addr := s.rd F.PART_PLAN_ADDR_ADDR p, addrKind := 2 }
        | none => s
      s.setPlan p { PlanState.empty with load := some l })

/-- Publish a report, with its CRC, and DONE (R94, R96, R108). -/
def State.report (s : State) (p : Nat) (l : List Nat) (reason state : Nat) : State :=
  let b := (l.map (leBytes 8)).foldl (· ++ ·) []
  let l := l ++ [(crc32c b).toNat]
  let s := (List.range 8).foldl (fun s k => s.setReg Reg.PART_PLAN_REPORT (8 * p + k) (BitVec.ofNat 64 (l.getD k 0))) s
  let s := (s.wr F.PART_PLAN_STATUS_STATE p state).wr F.PART_PLAN_STATUS_REASON p reason
  ((s.wr F.PART_PLAN_CTRL_LOAD p 0).flag F.PART_PLAN_STATUS_DONE p).irq p 0

/-- A load ends without a plan (R94). -/
def State.rejectLoad (s : State) (p reason : Nat) (l : List Nat) : State :=
  ((s.setPlan p PlanState.empty).unmarkPages p).report p l reason 4

/-- What admission writes (R90, R106, R132, R259, section 3.4): records, override table, page bits, META base, scratch. -/
def State.admitPlan (s : State) (p : Nat) (pl : Plan) : State :=
  let s := s.setPlan p { PlanState.empty with plan := some pl, active := some pl.rules }
  let s := { s with
    tiles := Tab.keep (fun k => k / 2 ^ 51 != p) s.tiles
    admits := Tab.set 0 s.admits p (Tab.get 0 s.admits p + 1) }
  let s := if pl.overrides.isEmpty then s
    else s.vwrite .cached p (pl.metaBase - 2 ^ 20) ((pl.overrides.map Admit.overrideBytes).foldl (· ++ ·) [])
  let t : Nat := pl.objects.foldl (fun a o => a + o.tiles) 0
  let s := s.vwrite .cached p pl.metaBase (List.replicate (32 * t) 0)
  let s := s.markPages p pl.codeBase pl.codeSize (fun e => { e with code := true })
  let s := pl.objects.foldl (fun s o => s.markPages p o.recordBase (32 * o.tiles) (fun e => { e with records := true })) s
  let s := if (t : Nat) = 0 then s else s.markPages p pl.metaBase (32 * t) (fun e => { e with records := true })
  let s := s.wr F.PART_META_BASE_ADDR p pl.metaBase
  (List.range 64).foldl (fun s c =>
    if s.corePart? c = some p ∧ s.rd F.SRT_IDENT_RANK c < pl.cores then s.scratchWrite c 0 pl.data else s) s

/-- PLAN_LOAD_END (R94, R108): the report is written and DONE set; a quota or window that changed in the meantime ends an
otherwise verified load with QUOTA_CHANGED (Table 3-7). -/
def execPlanLoadEnd (partition : BitVec 5) (s : State) : Res :=
  let p := partition.toNat
  .next (if s.pins.held || !s.served p then s
    else match (s.plan p).load with
      | none => s
      | some l => match l.plan with
        | none => s.rejectLoad p l.reason l.report
        | some pl =>
          if l.changed then
            s.rejectLoad p Admit.rQuota (Admit.words pl.policy (fun _ => 0)
              { Admit.Bad.plain Admit.rQuota with sched := pl.schedule.length } false)
          else if l.reason ≠ 0 then s.rejectLoad p l.reason l.report
          else (s.admitPlan p pl).report p l.report 0 2)

/-- PLAN_LOAD_TIMEOUT (R94): a load not ended 30 s after its LOAD write. -/
def execPlanLoadTimeout (partition : BitVec 5) (s : State) : Res :=
  let p := partition.toNat
  .next (if s.pins.held || !s.served p then s
    else match (s.plan p).load with
      | none => s
      | some l =>
        let policy : Nat := match l.plan with
          | some pl => pl.policy
          | none => 0
        s.rejectLoad p Admit.rTimeout
          (Admit.words policy (fun _ => 0) (Admit.Bad.plain Admit.rTimeout) false))

/-- The partition has a core that runs, or work outstanding (R126, Table 3-7). -/
def State.partBusy (s : State) (p : Nat) : Bool :=
  (List.range 64).any (fun c =>
    s.corePart? c == some p && decide (coreRunning ≤ s.coreState c) && decide (s.coreState c ≤ coreStalled)) ||
  s.items.any (fun e => e.2.part == p)

/-- Every record becomes RELEASED and its home is freed; the records stand in memory as they are left (Table 3-7, R333).
Mapped pages stay mapped (log entry 27). -/
def State.releaseAll (s : State) (p : Nat) : State :=
  let s := (s.tiles.filter (fun e => e.1 / 2 ^ 51 == p)).foldl (fun s e => s.freeTile p e.2 .reset) s
  let s := { s with tiles := Tab.keep (fun k => k / 2 ^ 51 != p) s.tiles }
  match (s.plan p).plan with
  | none => s
  | some pl => pl.objects.foldl (fun s o => (List.range o.tiles).foldl (fun s t =>
      s.vwrite .cached p (o.recordBase + 32 * t) (TileRec.fresh.bytes p o.index t o.sizeCode)) s) s

/-- UNLOAD: a write of 1 to PART_PLAN_CTRL.UNLOAD (R96, Table 3-7). -/
def execUnload (partition : BitVec 5) (s : State) : Res :=
  let p := partition.toNat
  let st := s.rd F.PART_PLAN_STATUS_STATE p
  .next (if s.pins.held || !s.served p then s
    else if st = 1 ∨ st = 3 ∨ s.partBusy p = true then s.flag F.PART_PLAN_STATUS_BUSY_REFUSED p
    else ((s.releaseAll p).wr F.PART_PLAN_CTRL_UNLOAD p 1).wr F.PART_PLAN_STATUS_STATE p 3)

/-- UNLOAD_COMPLETE (R96, R95, section 4.2 Edges): every home is freed, the plan is gone and its cores are IDLE. -/
def execUnloadComplete (partition : BitVec 5) (s : State) : Res :=
  let p := partition.toNat
  .next (if s.pins.held || s.rd F.PART_PLAN_STATUS_STATE p ≠ 3 then s
    else
      let s := ((s.setPlan p PlanState.empty).unmarkPages p).wr F.PART_META_BASE_ADDR p 0
      let s := (List.range 64).foldl (fun s c =>
        if s.corePart? c = some p ∧ s.coreState c ≠ coreFenced then
          ((s.clearCore c).zeroScratch c).setCoreState c coreIdle else s) s
      ((s.wr F.PART_PLAN_CTRL_UNLOAD p 0).wr F.PART_PLAN_STATUS_STATE p 0).flow)

end Sys2Proof.Machine
end

