-- ==== Sys2Proof/Machine/RegMap.lean ====
section
/-! DEFINITION. The register map (chapter 18): where every register lies in BAR0, and what a read of it gives. -/

namespace Sys2Proof.Machine

/-- A run of register slots: `count` instances of `reg`, `step` bytes apart from `base`. -/
structure Slots where
  base : Nat
  step : Nat
  count : Nat
  reg : Reg
  deriving DecidableEq, Repr

/-- The instance at an offset, if the run holds one there. -/
def Slots.at? (x : Slots) (o : Nat) : Option Nat :=
  if x.base ≤ o ∧ (o - x.base) % x.step = 0 ∧ (o - x.base) / x.step < x.count then some ((o - x.base) / x.step) else none

/-- The register and instance at an offset of a list of runs. -/
def findSlot : List Slots → Nat → Option (Reg × Nat)
  | [], _ => none
  | x :: t, o => match x.at? o with
    | some i => some (x.reg, i)
    | none => findSlot t o

/-- The function page below 0x0_3000 (Table 18-6). -/
def pageLow : List Slots := [
  ⟨0x0000, 8, 1, .SYS_IDENT⟩, ⟨0x0008, 8, 1, .SYS_VERSION⟩, ⟨0x0010, 8, 1, .SYS_FW_VERSION⟩, ⟨0x0018, 8, 1, .SYS_SERIAL⟩,
  ⟨0x0020, 8, 1, .SYS_BAD_ACCESS⟩, ⟨0x0040, 8, 4, .SYS_FEAT_OFFER⟩, ⟨0x0060, 8, 4, .SYS_FEAT_ACCEPT⟩,
  ⟨0x0080, 8, 1, .SYS_OPEN⟩, ⟨0x0088, 8, 1, .SYS_START_STATUS⟩, ⟨0x0090, 8, 1, .SYS_TOPOLOGY⟩,
  ⟨0x0098, 8, 1, .SYS_PORT_MAP⟩, ⟨0x00A0, 8, 1, .SYS_HBM_STATUS⟩,
  ⟨0x1000, 8, 1, .PART_PLAN_ADDR⟩, ⟨0x1008, 8, 1, .PART_PLAN_SIZE⟩, ⟨0x1010, 8, 1, .PART_PLAN_CTRL⟩,
  ⟨0x1018, 8, 1, .PART_PLAN_STATUS⟩, ⟨0x1020, 8, 8, .PART_PLAN_REPORT⟩, ⟨0x1060, 8, 1, .PART_INTAKE_WINDOW⟩,
  ⟨0x1068, 8, 1, .PART_RULE_GEN⟩, ⟨0x1070, 8, 1, .PART_LIFE_STATUS⟩, ⟨0x1080, 8, 8, .PART_DISP_COUNT⟩,
  ⟨0x10C0, 8, 1, .PART_QUOTA_STATUS⟩, ⟨0x10C8, 8, 1, .PART_QUOTA_SO⟩, ⟨0x10D0, 8, 1, .PART_META_BASE⟩,
  ⟨0x10E0, 8, 1, .PART_STATE⟩, ⟨0x10E8, 8, 1, .PART_RECOVERY_STATUS⟩, ⟨0x10F0, 8, 1, .PART_EPOCH_DROPS⟩,
  ⟨0x10F8, 8, 1, .PART_ZERO_PENDING⟩, ⟨0x1100, 8, 1, .PART_WAIT_TMO⟩,
  ⟨0x2000, 8, 1, .BAL_IN⟩, ⟨0x2008, 8, 1, .BAL_STORED⟩, ⟨0x2010, 8, 1, .BAL_BELOW⟩, ⟨0x2018, 8, 1, .BAL_REREAD⟩,
  ⟨0x2020, 8, 1, .BAL_EXCEPT⟩, ⟨0x2028, 8, 1, .BAL_STATUS⟩, ⟨0x2030, 8, 1, .TED_OPS⟩, ⟨0x2038, 8, 1, .TED_REGROWS⟩,
  ⟨0x2040, 8, 1, .TED_FALLBACK⟩, ⟨0x2048, 8, 1, .TED_CONV_STATUS⟩, ⟨0x2050, 8, 1, .LTE_BYTES_FULL⟩,
  ⟨0x2058, 8, 1, .LTE_BYTES_HALF⟩, ⟨0x2060, 8, 1, .LTE_CONV_STATUS⟩]

/-- The function page from 0x0_3000 to 0x0_5FFF (Table 18-6). -/
def pageMid : List Slots := [
  ⟨0x3000, 8, 1, .TIER_QUOTA_MEADOW⟩, ⟨0x3008, 8, 1, .TIER_QUOTA_HEATH⟩, ⟨0x3010, 8, 1, .TIER_QUOTA_MOOR⟩,
  ⟨0x3018, 8, 1, .TIER_OCC_MEADOW⟩, ⟨0x3020, 8, 1, .TIER_OCC_HEATH⟩, ⟨0x3028, 8, 1, .TIER_OCC_MOOR⟩,
  ⟨0x3030, 8, 1, .TIER_WMARK_MEADOW⟩, ⟨0x3038, 8, 1, .TIER_WMARK_HEATH⟩, ⟨0x3040, 8, 1, .TIER_FAIL_STATUS⟩,
  ⟨0x3100, 0x40, 8, .TIER_STRM_CFG⟩, ⟨0x3108, 0x40, 8, .TIER_STRM_BASE⟩, ⟨0x3110, 0x40, 8, .TIER_STRM_SIZE⟩,
  ⟨0x3118, 0x40, 8, .TIER_STRM_SO⟩, ⟨0x3120, 0x40, 8, .TIER_STRM_TIME⟩, ⟨0x3128, 0x40, 8, .TIER_STRM_POS⟩,
  ⟨0x3130, 0x40, 8, .TIER_STRM_SKIP⟩, ⟨0x3138, 0x40, 8, .TIER_STRM_STATUS⟩,
  ⟨0x4000, 8, 1, .DTU_ROOT⟩, ⟨0x4008, 8, 1, .DTU_PIN_QUOTA⟩, ⟨0x4010, 8, 1, .DTU_PIN_USED⟩, ⟨0x4018, 8, 1, .DTU_FAULT_ADDR⟩,
  ⟨0x4020, 8, 1, .DTU_FAULT_INFO⟩, ⟨0x4040, 8, 1, .DTU_CMD0⟩, ⟨0x4048, 8, 1, .DTU_CMD1⟩, ⟨0x4050, 8, 1, .DTU_CMD2⟩,
  ⟨0x4058, 8, 1, .DTU_CMD_CTRL⟩, ⟨0x4060, 8, 1, .DTU_CMD_STATUS⟩,
  ⟨0x5000, 8, 1, .LLC_PIN_MASK⟩, ⟨0x5008, 8, 1, .LLC_PIN_LINES⟩, ⟨0x5010, 8, 1, .LLC_PIN_ERR⟩,
  ⟨0x5018, 8, 1, .LLC_HIT_SECTORS⟩, ⟨0x5020, 8, 1, .LLC_MISS_SECTORS⟩, ⟨0x5028, 8, 1, .LLC_WB_BYTES⟩,
  ⟨0x5040, 8, 1, .LLC_CMD0⟩, ⟨0x5048, 8, 1, .LLC_CMD1⟩, ⟨0x5050, 8, 1, .LLC_CMD2⟩, ⟨0x5058, 8, 1, .LLC_CMD_CTRL⟩,
  ⟨0x5060, 8, 1, .LLC_CMD_STATUS⟩]

/-- The function page from 0x0_6000 (Table 18-6), without the arrays of R649. -/
def pageHigh : List Slots := [
  ⟨0x6000, 8, 1, .SO_RANGE⟩, ⟨0x6008, 8, 1, .SO_DB_STATUS⟩, ⟨0x6010, 8, 1, .SO_SCHED_CFG⟩, ⟨0x6018, 8, 1, .SO_U0_DEMOTED⟩,
  ⟨0x6020, 8, 1, .SO_RETURN_NS⟩, ⟨0x6028, 8, 1, .SO_PEER_RD_NS⟩, ⟨0x6040, 8, 4, .SO_LATE⟩,
  ⟨0x6100, 0x10, 16, .SO_WATCH_CFG⟩, ⟨0x6108, 0x10, 16, .SO_WATCH_VAL⟩,
  ⟨0x6200, 0x40, 4, .SO_PROG_CFG⟩, ⟨0x6208, 0x40, 4, .SO_PROG_INIT⟩, ⟨0x6210, 0x40, 4, .SO_PROG_RATE⟩,
  ⟨0x6218, 0x40, 4, .SO_PROG_LAST_V⟩, ⟨0x6220, 0x40, 4, .SO_PROG_LAST_T⟩,
  ⟨0x6300, 0x40, 2, .SO_WALK_CFG⟩, ⟨0x6308, 0x40, 2, .SO_WALK_BLOCK⟩, ⟨0x6310, 0x40, 2, .SO_WALK_STATUS⟩,
  ⟨0x6318, 0x40, 2, .SO_WALK_COUNT⟩, ⟨0x6320, 0x40, 2, .SO_WALK_POS⟩, ⟨0x6328, 0x40, 2, .SO_WALK_LOST⟩,
  ⟨0x7000, 8, 1, .HOST_FN_STATUS⟩, ⟨0x7008, 8, 1, .HOST_CPL_TMO⟩, ⟨0x7010, 8, 1, .HOST_BAR4_WIN⟩,
  ⟨0x7040, 8, 8, .HOST_IRQ_MAP⟩, ⟨0x8000, 8, 1, .CRR_CONN_RANGE⟩, ⟨0x8040, 8, 1, .CRR_CMD0⟩, ⟨0x8048, 8, 1, .CRR_CMD1⟩,
  ⟨0x8050, 8, 1, .CRR_CMD2⟩, ⟨0x8058, 8, 1, .CRR_CMD3⟩, ⟨0x8060, 8, 1, .CRR_CMD4⟩, ⟨0x8068, 8, 1, .CRR_CMD5⟩,
  ⟨0x8070, 8, 1, .CRR_CMD6⟩, ⟨0x8078, 8, 1, .CRR_CMD7⟩, ⟨0x8080, 8, 1, .CRR_CMD_CTRL⟩, ⟨0x8088, 8, 1, .CRR_CMD_STATUS⟩,
  ⟨0x9000, 8, 1, .PART_CTRL⟩, ⟨0x9008, 8, 1, .PART_CORE_MASK⟩,
  ⟨0x40000, 8, 2048, .DLS_ENTRY⟩, ⟨0x44000, 8, 1, .DLS_PROD⟩, ⟨0x44008, 8, 1, .DLS_CONS⟩, ⟨0x44010, 8, 1, .DLS_STATUS⟩,
  ⟨0x44018, 8, 1, .DLS_DROPPED⟩, ⟨0x44020, 8, 1, .DLS_LOST⟩]

/-- Offsets within an instance (Table 18-7). -/
def coreSlots : List Slots := [
  ⟨0x00, 8, 1, .SRT_CTRL⟩, ⟨0x08, 8, 1, .SRT_STATUS⟩, ⟨0x10, 8, 1, .SRT_IDENT⟩, ⟨0x18, 8, 1, .SRT_PC⟩, ⟨0x20, 8, 1, .SRT_EXIT⟩,
  ⟨0x28, 8, 1, .SRT_TRAP_VEC⟩, ⟨0x30, 8, 1, .SRT_TRAP_CAUSE⟩, ⟨0x38, 8, 1, .SRT_TRAP_PC⟩, ⟨0x40, 8, 1, .SRT_TRAP_VALUE⟩,
  ⟨0x48, 8, 1, .SRT_CYCLE⟩, ⟨0x50, 8, 1, .SRT_INSTRET⟩, ⟨0x58, 8, 1, .SRT_TIME⟩, ⟨0x60, 8, 1, .SRT_ISSUE_STATUS⟩,
  ⟨0x68, 8, 1, .SRT_ISSUE_TIMEOUT⟩, ⟨0x70, 8, 4, .SRT_FEAT⟩, ⟨0x90, 8, 1, .SRT_DBG_ADDR⟩, ⟨0x98, 8, 1, .SRT_DBG_DATA⟩]

def channelSlots : List Slots := [
  ⟨0x00, 8, 1, .CAR_CH_CFG⟩, ⟨0x08, 8, 1, .CAR_CH_CTRL⟩, ⟨0x10, 8, 1, .CAR_CH_STATUS⟩, ⟨0x18, 8, 1, .CAR_CH_HEAD⟩,
  ⟨0x20, 8, 1, .CAR_CH_CUR⟩, ⟨0x28, 8, 1, .CAR_CH_RESIDUE⟩, ⟨0x30, 8, 1, .CAR_CH_ERR_ADDR⟩, ⟨0x38, 8, 1, .CAR_CH_ERR_INFO⟩,
  ⟨0x40, 8, 1, .CAR_CH_STALL_TMO⟩, ⟨0x48, 8, 1, .CAR_CH_BYTES⟩]

def ringSlots : List Slots := [
  ⟨0x00, 8, 1, .CAR_RING_BASE⟩, ⟨0x08, 8, 1, .CAR_RING_CFG⟩, ⟨0x10, 8, 1, .CAR_RING_PROD⟩, ⟨0x18, 8, 1, .CAR_RING_CONS⟩,
  ⟨0x20, 8, 1, .CAR_RING_STATUS⟩]

/-- Device-wide registers below 0x0010_9000, offsets from 0x0010_0000 (Table 18-8). -/
def deviceLow : List Slots := [
  ⟨0x0000, 8, 1, .SYS_STRAPS⟩, ⟨0x0008, 8, 1, .SYS_ZERO_PENDING⟩, ⟨0x0010, 8, 1, .SYS_RESET_CTRL⟩,
  ⟨0x0018, 8, 1, .SYS_RESET_CAUSE⟩, ⟨0x1000, 8, 1, .PWR_PIN_FILTER⟩, ⟨0x1008, 8, 1, .PWR_PWRFAIL_STATUS⟩,
  ⟨0x1100, 8, 8, .PWR_TEMP_DIE⟩, ⟨0x1140, 8, 8, .PWR_TEMP_HBM⟩, ⟨0x1180, 8, 1, .PWR_TEMP_MAX⟩, ⟨0x1188, 8, 1, .PWR_POWER⟩,
  ⟨0x1190, 8, 1, .PWR_LIMIT⟩, ⟨0x1198, 8, 1, .PWR_THERM_CFG⟩, ⟨0x11A0, 8, 1, .PWR_THROTTLE_STATUS⟩,
  ⟨0x1200, 8, 10, .PWR_RAIL_MV⟩, ⟨0x2000, 8, 1, .CLK_TIME_NS⟩, ⟨0x2100, 8, 1, .CLK_PLL_STATUS⟩,
  ⟨0x2108, 8, 1, .CLK_TIME_RATE⟩, ⟨0x2110, 8, 1, .CLK_REFCLK_STATUS⟩,
  ⟨0x3000, 8, 1, .MGT_SEC_STATUS⟩, ⟨0x3040, 8, 1, .MGT_CFGS_CMD0⟩, ⟨0x3048, 8, 1, .MGT_CFGS_CMD1⟩,
  ⟨0x3050, 8, 1, .MGT_CFGS_CMD2⟩, ⟨0x3058, 8, 1, .MGT_CFGS_CTRL⟩, ⟨0x3060, 8, 1, .MGT_CFGS_STATUS⟩,
  ⟨0x3080, 8, 1, .MGT_RSV_ADDR⟩, ⟨0x3088, 8, 1, .MGT_RSV_DATA⟩,
  ⟨0x4000, 8, 1, .ERR_STATUS⟩, ⟨0x4008, 8, 1, .ERR_DEVICE_CAUSE⟩, ⟨0x4010, 8, 1, .ERR_FIRST_INFO⟩,
  ⟨0x4018, 8, 1, .ERR_FIRST_ADDR⟩, ⟨0x4040, 8, 8, .ERR_CE_HBM⟩, ⟨0x4080, 8, 8, .ERR_UE_HBM⟩, ⟨0x40C0, 8, 1, .ERR_CE_OTHER⟩,
  ⟨0x4100, 8, 8, .ERR_CXL⟩, ⟨0x4140, 8, 1, .ERR_SCRUB_CFG⟩, ⟨0x4148, 8, 1, .ERR_SCRUB_STATUS⟩, ⟨0x4180, 8, 8, .ERR_RETIRE⟩,
  ⟨0x41C0, 8, 1, .ERR_RETIRE_IDX⟩, ⟨0x41C8, 8, 1, .ERR_RETIRE_DPA⟩, ⟨0x41D0, 8, 1, .ERR_DIE_STATUS⟩,
  ⟨0x41D8, 8, 1, .ERR_ESCALATE_MS⟩, ⟨0x41E0, 8, 1, .ERR_LOCK⟩,
  ⟨0x5000, 8, 1, .TIER_RESERVE_MEADOW⟩, ⟨0x5008, 8, 1, .TIER_CAP_MOOR⟩, ⟨0x5010, 8, 1, .TIER_QUOTA_ERR⟩,
  ⟨0x5018, 8, 1, .TIER_HEATH_MAPPED⟩, ⟨0x5020, 8, 1, .TIER_HEATH_UNMAPPED⟩, ⟨0x5028, 8, 1, .TIER_LAT_HEATH⟩,
  ⟨0x5030, 8, 1, .TIER_LAT_MOOR⟩, ⟨0x5038, 8, 1, .TIER_TMO_HEATH⟩, ⟨0x5040, 8, 1, .TIER_TMO_MOOR⟩,
  ⟨0x5048, 8, 1, .TIER_LOSS_TIME⟩, ⟨0x5050, 8, 1, .TIER_HEATH_STATE⟩, ⟨0x5058, 8, 1, .TIER_MOOR_STATE⟩,
  ⟨0x5060, 8, 1, .TIER_LOSS_CTRL⟩, ⟨0x5100, 8, 16, .TIER_HEATH_RGN⟩, ⟨0x5180, 8, 16, .TIER_MOOR_TGT⟩,
  ⟨0x6000, 8, 4, .LLC_SLICE_STATUS⟩, ⟨0x7000, 8, 1, .SO_RANGE_ERR⟩,
  ⟨0x8000, 8, 1, .PART_LEASE_CMD0⟩, ⟨0x8008, 8, 1, .PART_LEASE_CMD1⟩, ⟨0x8010, 8, 1, .PART_LEASE_CTRL⟩,
  ⟨0x8018, 8, 1, .PART_LEASE_STATUS⟩, ⟨0x8020, 8, 1, .PART_LEASE_RESULT⟩, ⟨0x8028, 8, 1, .PART_RECLAIM_TMO⟩]

/-- Device-wide registers from 0x0010_9000, offsets from 0x0010_0000 (Table 18-8), without the arrays of two indices. -/
def deviceHigh : List Slots := [
  ⟨0x9000, 8, 8, .HOST_PORT_STATUS⟩, ⟨0x9040, 8, 8, .HOST_IDE_CFG⟩, ⟨0x9080, 8, 8, .HOST_IDE_STATUS⟩,
  ⟨0x9100, 8, 1, .HOST_PEER_CMD0⟩, ⟨0x9108, 8, 1, .HOST_PEER_CMD1⟩, ⟨0x9110, 8, 1, .HOST_PEER_CMD2⟩,
  ⟨0x9118, 8, 1, .HOST_PEER_CMD3⟩, ⟨0x9120, 8, 1, .HOST_PEER_CMD4⟩, ⟨0x9128, 8, 1, .HOST_PEER_CMD5⟩,
  ⟨0x9130, 8, 1, .HOST_PEER_CTRL⟩, ⟨0x9138, 8, 1, .HOST_PEER_STATUS⟩,
  ⟨0xB000, 0x80, 8, .CRR_PORT_CFG⟩, ⟨0xB008, 0x80, 8, .CRR_PORT_STATUS⟩, ⟨0xB010, 0x80, 8, .CRR_PORT_MAC⟩,
  ⟨0xB028, 0x80, 8, .CRR_PRIO_MAP⟩, ⟨0xB030, 0x80, 8, .CRR_PFC_CFG⟩, ⟨0xB038, 0x80, 8, .CRR_PORT_DROP⟩,
  ⟨0xB400, 0x40, 16, .CRR_NVME_CFG⟩, ⟨0xB420, 0x40, 16, .CRR_NVME_NQN⟩, ⟨0xB428, 0x40, 16, .CRR_NVME_STATUS⟩,
  ⟨0xB800, 8, 1, .CRR_PTP_CFG⟩, ⟨0xB808, 8, 1, .CRR_PTP_STATUS⟩,
  ⟨0xC000, 8, 1, .FRK_CMD0⟩, ⟨0xC008, 8, 1, .FRK_CMD1⟩, ⟨0xC010, 8, 1, .FRK_CMD_CTRL⟩, ⟨0xC018, 8, 1, .FRK_CMD_STATUS⟩,
  ⟨0xC020, 8, 1, .FRK_TALLY_STATUS⟩, ⟨0xC028, 8, 1, .FRK_SHARE_K⟩, ⟨0xC030, 8, 1, .FRK_SHARE_UNASSIGNED⟩,
  ⟨0xC100, 8, 32, .FRK_SHARE_MJ⟩, ⟨0xD000, 8, 512, .FRK_BUF⟩,
  ⟨0x10000, 0x40, 32, .BAL_UNIT_STATUS⟩, ⟨0x11000, 0x40, 16, .TED_UNIT_STATUS⟩, ⟨0x20000, 8, 4, .CAR_PACE_STATUS⟩]

/-- Device-wide arrays whose instance number has two parts: the entry, `step` apart, and the word within it. -/
def devicePair (o : Nat) : Option (Reg × Nat) :=
  let f (base step n off words : Nat) (r : Reg) : Option (Reg × Nat) :=
    if base ≤ o ∧ (o - base) / step < n ∧ off ≤ (o - base) % step ∧ (o - base) % step < off + 8 * words then
      some (r, (o - base) / step * words + ((o - base) % step - off) / 8) else none
  (f 0xA000 0x40 64 0 6 .HOST_PEER_TABLE).orElse fun _ => (f 0xB000 0x80 8 0x18 2 .CRR_PORT_IP).orElse fun _ =>
  (f 0xB400 0x40 16 0x08 3 .CRR_NVME_ADDR).orElse fun _ => (f 0x10000 0x40 32 0x08 4 .BAL_CTX).orElse fun _ =>
  f 0x11000 0x40 16 0x08 4 .TED_CTX

/-- What an offset of a function's BAR0 names. -/
inductive Place where
  | reg (r : Reg) (i : Nat)
  /-- word `w` (0 address, 1 data and vector control) of MSI-X table entry `v` -/
  | msixEntry (v w : Nat)
  | msixPba (w : Nat)
  | writeBack
  | reserved
  | unimplemented
  deriving DecidableEq, Repr

/-- The registers of which each function page and each window holds a set of its own (R296, R342). -/
def Reg.twoSets (r : Reg) : Bool :=
  (decide (Reg.DTU_CMD0.idx ≤ r.idx) && decide (r.idx ≤ Reg.DTU_CMD_STATUS.idx)) ||
  (decide (Reg.LLC_CMD0.idx ≤ r.idx) && decide (r.idx ≤ Reg.LLC_CMD_STATUS.idx))

/-- The instance number of instance `j` of a register in a page of partition `p`. -/
def Reg.pageKey (r : Reg) (p j : Nat) (window : Bool) : Nat :=
  if r.twoSets then 2 * p + b2n (window && p != 0)
  else match (regSpec r).scope with
    | .part k => k * p + j
    | _ => j

/-- The core of a rank (R121, R649). -/
def State.coreAt (s : State) (p rank : Nat) : Option Nat :=
  ((List.range 64).filter (fun c => s.corePart? c == some p))[rank]?

/-- The channel or ring at a position: those held, a REVOKING one among them (R649). -/
def State.leaseAt (s : State) (kind n p j : Nat) : Option Nat :=
  ((List.range n).filter (fun i => (s.lease kind i).state != 0 && (s.lease kind i).holder == p))[j]?

/-- The register of an array instance. -/
def slotOf (l : List Slots) (i : Option Nat) (o : Nat) (mul : Reg → Nat) : Place :=
  match i, findSlot l o with
  | some i, some (r, j) => .reg r (i * mul r + j)
  | _, _ => .reserved

/-- SRT_FEAT0-3 are four words of a core; every other register of an array instance is one. -/
def wordsPer (r : Reg) : Nat := if r = Reg.SRT_FEAT then 4 else 1

/-- What an 8-byte slot of a function page names (Table 18-2, Table 18-6, R639, R640): of partition `p`, in a window, through
the PF. -/
def State.pagePlace (s : State) (p : Nat) (window pf : Bool) (o : Nat) : Place :=
  if 0xB0000 ≤ o then .unimplemented
  else if window ∧ (o < 0x1000 ∨ (0x7000 ≤ o ∧ o < 0x8000) ∨ 0xA0000 ≤ o) then .reserved
  else if !pf ∧ 0x9000 ≤ o ∧ o < 0xA000 then .reserved
  else if !pf ∧ 0x7070 ≤ o ∧ o < 0x7080 then .reserved
  else if 0x10000 ≤ o ∧ o < 0x14000 then slotOf coreSlots (s.coreAt p ((o - 0x10000) / 0x100)) (o % 0x100) wordsPer
  else if 0x20000 ≤ o ∧ o < 0x28000 then
    slotOf channelSlots (s.leaseAt leaseChannel 256 p ((o - 0x20000) / 0x80)) (o % 0x80) wordsPer
  else if 0x28000 ≤ o ∧ o < 0x30000 then
    slotOf ringSlots (s.leaseAt leaseRing 512 p ((o - 0x28000) / 0x40)) (o % 0x40) wordsPer
  else if 0x30000 ≤ o ∧ o < 0x38000 then
    if (o - 0x30000) / 8 < s.rd F.CRR_CONN_RANGE_COUNT p then
      .reg .CRR_CONN_STATE (s.rd F.CRR_CONN_RANGE_BASE p + (o - 0x30000) / 8)
    else .reserved
  else if (0x60000 ≤ o ∧ o < 0x60040) ∨ (0x80000 ≤ o ∧ o < 0xA0000) then .writeBack
  else if 0xA0000 ≤ o then
    if o < 0xA0000 + 16 * vectorCount p then .msixEntry ((o - 0xA0000) / 16) (o / 8 % 2)
    else if 0xA8000 ≤ o ∧ o < 0xA8000 + vectorCount p / 8 then .msixPba ((o - 0xA8000) / 8)
    else .reserved
  else match findSlot (if o < 0x3000 then pageLow else if o < 0x6000 then pageMid else pageHigh) o with
    | some (r, j) => .reg r (r.pageKey p j window)
    | none => .reserved

/-- What an 8-byte slot of a function's BAR0 names (Table 18-1, R638). -/
def State.place (s : State) (fn off : Nat) : Place :=
  let o := off / 8 * 8
  if fn ≠ 0 then (if o < 0x100000 then s.pagePlace fn false false o else .unimplemented)
  else if o < 0x100000 then s.pagePlace 0 false true o
  else if o < 0x130000 then
    match (findSlot (if o < 0x109000 then deviceLow else deviceHigh) (o - 0x100000)).orElse fun _ => devicePair (o - 0x100000) with
    | some (r, i) => .reg r i
    | none => .reserved
  else if 0x200000 ≤ o ∧ o < 0x204000 then slotOf coreSlots (some ((o - 0x200000) / 0x100)) (o % 0x100) wordsPer
  else if 0x300000 ≤ o ∧ o < 0x308000 then slotOf channelSlots (some ((o - 0x300000) / 0x80)) (o % 0x80) wordsPer
  else if 0x308000 ≤ o ∧ o < 0x310000 then slotOf ringSlots (some ((o - 0x308000) / 0x40)) (o % 0x40) wordsPer
  else if 0x310000 ≤ o ∧ o < 0x318000 then .reg .CRR_CONN_STATE ((o - 0x310000) / 8)
  else if 0x2000000 ≤ o ∧ o < 0x4000000 then
    s.pagePlace ((o - 0x2000000) / 0x100000) true true ((o - 0x2000000) % 0x100000)
  else .unimplemented

/-- A list of fields of one word: value, place. -/
def packed (l : List (Nat × Nat)) : Word := BitVec.ofNat 64 (l.foldl (fun a x => a + x.1 * 2 ^ x.2) 0)

/-- The locks CLK_PLL_STATUS reports once the PLLs have locked in the ROM phase: of the Meadow dies, the present Post dies,
and P0's own (R593, Table 19-7). -/
def State.pllWord (s : State) : Word :=
  if s.pins.held || s.phase < phRecovery || s.rd F.SYS_START_STATUS_FAIL_CAUSE 0 == 1 then 0
  else packed (([(0xFFFF, 0), (7, 32)] : List (Nat × Nat)) ++
    ((List.range 4).filter (fun n => s.variant.posts.testBit n)).map (fun n => (7, 16 + 4 * n)))

/-- The page at ERR_RETIRE_IDX (Table 17-9): 0 beyond the site's count. -/
def State.retireWord (s : State) : Word :=
  let i := s.rd F.ERR_RETIRE_IDX_INDEX 0
  match (Tab.get [] s.err.retireList (i / 1024))[i % 1024]? with
  | some page => BitVec.ofNat 64 (page * 4096)
  | none => 0

/-- What a read of a register gives (Tables of the chapters' Registers sections): most registers hold it; the others report
what the machine holds elsewhere. -/
def State.view (s : State) (r : Reg) (i : Nat) : Word :=
  let w := s.reg r i
  if r = .SYS_TOPOLOGY then
    w ||| packed [(0xF, 0), (s.variant.posts, 4), (1, 8), (s.variant.sites, 16), (s.variant.code, 24)]
  else if r = .SYS_IDENT then
    packed [(0x1F3D, 0), (if i = 0 then 0x480 else 0x481, 16), (0xB0, 32), (s.variant.code, 40), (i, 48), (b2n (i != 0), 53)]
  else if r = .SYS_VERSION then packed [(1, 0), (2, 16), (2, 20), (2, 24)]
  else if r = .SYS_SERIAL then Config.serial
  else if r = .SYS_FEAT_OFFER then BitVec.ofNat 64 (s.offer i)
  else if r = .PART_DISP_COUNT then BitVec.ofNat 64 (s.dispCount (i / 8) (i % 8))
  else if r = .TIER_OCC_MEADOW then BitVec.ofNat 64 (s.occUnits i 0)
  else if r = .TIER_OCC_HEATH then BitVec.ofNat 64 (s.occUnits i 1)
  else if r = .TIER_OCC_MOOR then BitVec.ofNat 64 (s.occUnits i 2)
  else if r = .SRT_IDENT then w ||| BitVec.ofNat 64 i
  else if r = .SRT_TIME ∨ r = .CLK_TIME_NS then BitVec.ofNat 64 s.time
  else if r = .CAR_CH_CFG then
    w ||| packed [((s.lease leaseChannel i).holder, 16), (b2n ((s.lease leaseChannel i).state != 0), 21)]
  else if r = .CAR_RING_CFG then w ||| packed [((s.lease leaseRing i).holder, 48)]
  else if r = .PART_ZERO_PENDING then BitVec.ofNat 64 (s.partZeroPending i)
  else if r = .SYS_ZERO_PENDING then BitVec.ofNat 64 s.sysZeroPending
  else if r = .PWR_LIMIT then BitVec.ofNat 64 s.powerLimit
  else if r = .ERR_RETIRE_DPA then s.retireWord
  else if r = .CLK_PLL_STATUS then s.pllWord
  else if r = .CLK_REFCLK_STATUS then (Config.refclk).setWidth 64
  else w

/-- A memory access reaches a register region in a size and alignment it takes (R641). -/
def goodAccess (off size : Nat) : Bool := (size == 4 || size == 8) && off % size == 0

/-- Count an access of another size or alignment (R643, Table 18-5). -/
def State.badAccess (s : State) (fn off : Nat) : State :=
  let s := s.sat F.SYS_BAD_ACCESS_COUNT fn 1
  if s.rdb F.SYS_BAD_ACCESS_VALID fn then s
  else (s.flag F.SYS_BAD_ACCESS_VALID fn).wr F.SYS_BAD_ACCESS_OFFSET fn (off % 0x100000)

/-- A request to an unimplemented region (R643, Table 17-8). A read is answered Unsupported Request. -/
def State.unsupportedAccess (s : State) (fn : Nat) (read : Bool) : State :=
  let s := s.emit (.aer fn aerUnsupported)
  if read then s.emit (.unsupported fn) else s

end Sys2Proof.Machine
end

