-- ==== Sys2Proof/Machine/SpdmCmd.lean ====
section
/-! DEFINITION. Requests at the PF's DOE mailbox: DOE Discovery, the SPDM responder, IDE_KM, and the debug unlock (R464, R466,
sections 14.7 and 14.8). The encodings of these messages are the PCIe and SPDM specifications'; a response is its content. -/

namespace Sys2Proof.Machine

/-- The responder answers: the firmware runs. -/
def State.spdmUp (s : State) : Bool := !s.pins.held && s.boot.running.isSome

/-- Send a response. -/
def State.answer (s : State) (r : DoeRsp) : State := s.emit (.doe r)

/-- The 48 bytes of a digest. -/
def digestBytes (d : BitVec 384) : List Byte := beBytes 48 d.toNat

/-- The content of a measurement block; none: the index is not reported (Table 14-10). Raw values are little-endian words
(DESIGN CHOICE, log entry 37). -/
def State.measure (s : State) (i : Nat) : Option (List Byte) :=
  match i with
  | 1 => some (digestBytes Config.romDigest)
  | 2 => some (digestBytes (match s.boot.running with
      | some x => x.digest
      | none => 0))
  | 3 => some (leBytes 2 (s.rd F.MGT_SEC_STATUS_SVN 0) ++ leBytes 1 (s.rd F.MGT_SEC_STATUS_IMAGE 0) ++
      leBytes 1 (s.rd F.MGT_SEC_STATUS_KEY_SLOT 0))
  | 4 => some (digestBytes (Config.sha384 s.boot.inUse))
  | 5 => some (leBytes 4 (s.reg Reg.SYS_STRAPS 0).toNat ++
      leBytes 4 ((s.reg Reg.SYS_TOPOLOGY 0).toNat + s.variant.posts * 2 ^ 4 + 0xF + s.variant.sites * 2 ^ 16 +
        s.variant.code * 2 ^ 24) ++ leBytes 4 (s.reg Reg.SYS_PORT_MAP 0).toNat)
  | 6 => some (leBytes 1 (s.rd F.MGT_SEC_STATUS_DEBUG_UNLOCKED 0 * 3))
  | 7 => some (digestBytes (Config.sha384 (beBytes 97 Config.frankKey.toNat)))
  | 8 => some ((List.range 4).flatMap (fun k => leBytes 4 (s.rd F.SYS_FEAT_ACCEPT_BITS k)) ++
      leBytes 1 (s.rd F.SYS_OPEN_OPENED 0))
  | _ =>
    if 0x10 ≤ i ∧ i < 0x30 then
      let p := i - 0x10
      some (digestBytes (match (s.plan p).plan with
        | some pl => pl.digest
        | none => 0) ++ leBytes 8 (Tab.get 0 s.admits p))
    else none

/-- The indices reported. -/
def measureIndices : List Nat := [1, 2, 3, 4, 5, 6, 7, 8] ++ (List.range 32).map (0x10 + ·)

/-- GET_VERSION (R533): negotiation starts anew; sessions stay (PRESUMED, log entry 38). -/
def execGetVersion (s : State) : Res :=
  .next (if s.spdmUp then ({ s with spdm := { s.spdm with phase := 1 } }).answer .version else s)

/-- GET_CAPABILITIES (R533). -/
def execGetCapabilities (s : State) : Res :=
  .next (if !s.spdmUp then s
    else if s.spdm.phase ≠ 1 then s.answer .errorProtocol
    else ({ s with spdm := { s.spdm with phase := 2 } }).answer .capabilities)

/-- NEGOTIATE_ALGORITHMS (R533); `common`: the requester offers the algorithms of R533. -/
def execNegotiateAlgorithms (common : Bool) (s : State) : Res :=
  .next (if !s.spdmUp then s
    else if s.spdm.phase ≠ 2 ∨ !common then s.answer .errorProtocol
    else ({ s with spdm := { s.spdm with phase := 3 } }).answer .algorithms)

/-- A request that needs the negotiation done, and slot 0, the one slot that holds a chain. -/
def State.spdmSlot (s : State) (slot : BitVec 3) (needsKey : Bool) (f : State → State) : Res :=
  .next (if !s.spdmUp then s
    else if s.spdm.phase ≠ 3 ∨ slot ≠ 0 then s.answer .errorProtocol
    else if needsKey && !s.spdm.aliasKey then s.answer .errorUnspecified
    else f s)

/-- GET_DIGESTS (R533). -/
def execGetDigests (s : State) : Res := s.spdmSlot 0 false fun s => s.answer .digests

/-- GET_CERTIFICATE (R533, R536). -/
def execGetCertificate (slot : BitVec 3) (s : State) : Res := s.spdmSlot slot true fun s => s.answer .certificate

/-- CHALLENGE (R533, R536). -/
def execChallenge (slot : BitVec 3) (s : State) : Res := s.spdmSlot slot true fun s => s.answer .challengeAuth

/-- GET_MEASUREMENTS (R534, R536): index 0 asks for the number of blocks, 0xFF for all of them. -/
def execGetMeasurements (index : BitVec 8) (signed : Bool) (s : State) : Res :=
  s.spdmSlot 0 signed fun s =>
    let i := index.toNat
    let l : List (Nat × List Byte) :=
      if i = 0 then [(0, leBytes 1 measureIndices.length)]
      else ((if i = 0xFF then measureIndices else [i]).filterMap (fun k => (s.measure k).map (fun b => (k, b))))
    if l.isEmpty then s.answer .errorProtocol else s.answer (.measurements signed l)

/-- KEY_EXCHANGE (R533, R536). -/
def execKeyExchange (slot : BitVec 3) (s : State) : Res :=
  s.spdmSlot slot true fun s => ({ s with spdm := { s.spdm with handshake := true } }).answer .keyExchange

/-- FINISH (R533): it ends the handshake; `verified`: its MAC holds. -/
def execFinish (verified : Bool) (s : State) : Res :=
  s.spdmSlot 0 false fun s =>
    if !s.spdm.handshake then s.answer .errorProtocol
    else if !verified then ({ s with spdm := { s.spdm with handshake := false } }).answer .errorProtocol
    else ({ s with spdm := { s.spdm with handshake := false, session := true } }).answer .finish

/-- A request that travels in a session. -/
def State.spdmSession (s : State) (f : State → State) : Res :=
  .next (if !s.spdmUp then s else if !s.spdm.session then s.answer .errorProtocol else f s)

/-- HEARTBEAT (R533). -/
def execHeartbeat (s : State) : Res := s.spdmSession fun s => s.answer .heartbeatAck

/-- KEY_UPDATE (R533). -/
def execKeyUpdate (s : State) : Res := s.spdmSession fun s => s.answer .keyUpdateAck

/-- END_SESSION (R533). -/
def execEndSession (s : State) : Res :=
  s.spdmSession fun s => ({ s with spdm := { s.spdm with session := false } }).answer .endSessionAck

/-- DEBUG_UNLOCK (R536); `genuine`: the device nonce is signed by a Salbister debug key. -/
def execDebugUnlock (genuine : Bool) (s : State) : Res :=
  .next (if s.spdmUp ∧ genuine then
      ({ s with boot := { s.boot with secret := false } }).wr F.MGT_SEC_STATUS_DEBUG_UNLOCKED 0 1
    else s)

/-- DOE_DISCOVERY (R464): the protocols in turn, 0 DOE Discovery, 1 CMA/SPDM, 2 Secured CMA/SPDM. A data object of more than
64 KiB sets the mailbox's Error bit. -/
def execDoeDiscovery (length : Nat) (index : BitVec 8) (s : State) : Res :=
  .next (if !s.spdmUp then s
    else if 65536 < length then { s with spdm := { s.spdm with doeError := true } }
    else if 3 ≤ index.toNat then s.answer .errorProtocol
    else s.answer (.discovery index.toNat index.toNat (if index = 2 then 0 else index.toNat + 1)))

/-- A port and a stream that carry IDE (R465): the link stream is 0, the selective streams 1 to 8. -/
def State.idePort (s : State) (port stream : Nat) : Bool :=
  (s.role port == 1 || s.role port == 2) && decide (stream ≤ 8)

/-- IDE_KM_KEY_PROG (R464, R466): fresh keys for a stream of the port PortIndex names. -/
def execIdeKmKeyProg (port : BitVec 3) (stream : BitVec 8) (s : State) : Res :=
  s.spdmSession fun s =>
    let n := port.toNat
    let i := stream.toNat
    if !s.idePort n i then s.answer (.keyProgAck n i false)
    else
      let st := Tab.get 0 s.host.ide (n * 16 + i)
      let st := if st = 0 then 1 else if st = 3 then 4 else st
      ({ s with host := { s.host with ide := Tab.set 0 s.host.ide (n * 16 + i) st } }).answer (.keyProgAck n i true)

/-- K_SET_GO (R466): a stream with fresh keys is Secure. -/
def execKSetGo (port : BitVec 3) (stream : BitVec 8) (s : State) : Res :=
  s.spdmSession fun s =>
    let n := port.toNat
    let i := stream.toNat
    let st := Tab.get 0 s.host.ide (n * 16 + i)
    if !s.idePort n i ∨ st = 0 ∨ st = 3 then s.answer .errorProtocol
    else (({ s with host := { s.host with ide := Tab.set 0 s.host.ide (n * 16 + i) 2 } }).answer (.setGoAck n i)).flow

end Sys2Proof.Machine
end

