-- ==== Sys2Proof/Machine/RegCmd.lean ====
section
/-! DEFINITION. Register writes (section 0.5, section 18.2): the access codes, and what a write of a register with an effect of its own
does. A write that a row of the table makes ends in the same operation as that row. -/

namespace Sys2Proof.Machine

/-- The bits of the fields whose access through the PF, or a VF, meets `f`. -/
def accMask (f : Acc → Bool) (pf : Bool) (fs : List FldSpec) : Word :=
  fs.foldl (fun m x => if f (if pf then x.pf else x.vf) then m ||| (BitVec.ofNat 64 (2 ^ x.fld.width - 1) <<< x.fld.lo) else m) 0

def Acc.writable (a : Acc) : Bool := a != .ro
def Acc.stores (a : Acc) : Bool := a == .rw || a == .rwl
def Acc.clears (a : Acc) : Bool := a == .w1c || a == .rstk
def Acc.sets (a : Acc) : Bool := a == .w1s

/-- The word a register holds after software writes `v` to the bits of `m` (Table 0-3, R642). -/
def accWrite (pf : Bool) (fs : List FldSpec) (old m v : Word) : Word :=
  let rw := accMask Acc.stores pf fs &&& m
  let c := accMask Acc.clears pf fs &&& m &&& v
  let t := accMask Acc.sets pf fs &&& m &&& v
  (((old &&& ~~~rw) ||| (v &&& rw)) &&& ~~~c) ||| t

/-- What a write asks of a register with an effect of its own: its RW fields as they will be, and a 1 in every W1C, RSTK or
W1S bit written 1. -/
def accArg (pf : Bool) (fs : List FldSpec) (old m v : Word) : Word :=
  let rw := accMask Acc.stores pf fs
  ((old &&& rw &&& ~~~m) ||| (v &&& rw &&& m)) ||| (v &&& m &&& accMask (fun a => a.clears || a.sets) pf fs)

/-- Fields in which a value out of range reads back another: the field, its least and greatest value, the other. -/
def clamps : List (Fld × Nat × Nat × Nat) := [
  (F.PART_INTAKE_WINDOW_TILES, 1, 64, 8), (F.PART_WAIT_TMO_MS, 1, 10000, 100), (F.SRT_ISSUE_TIMEOUT_US, 1, 1000000, 100000),
  (F.CAR_CH_CFG_BURST, 1, 5, 5), (F.CAR_CH_CFG_MAX_LINES, 1, 64, 16), (F.CAR_CH_STALL_TMO_MS, 1, 10000, 100),
  (F.HOST_CPL_TMO_US, 50, 64000, 0), (F.CRR_PORT_CFG_MAX_FRAME, 1518, 9216, 9216), (F.PART_RECLAIM_TMO_MS, 1, 10000, 200),
  (F.ERR_SCRUB_CFG_HOURS, 1, 168, 24), (F.PWR_THERM_CFG_THROTTLE_C, 80, 95, 95)]

/-- Put the clamped fields of a register's word in range. -/
def clampWord (r : Reg) (w : Word) : Word :=
  clamps.foldl (fun w c => if c.1.reg = r ∧ (c.1.get w < c.2.1 ∨ c.2.2.1 < c.1.get w) then c.1.put w c.2.2.2 else w) w

/-- The writes of a register that are ignored for what is in progress: command words while their command runs, the
configuration of a stream or tracker that is enabled, of a walk that runs (R296, R309, R396; Table 11-9). -/
def State.regKept (s : State) (r : Reg) (i : Nat) : Bool :=
  let among (a b : Reg) : Bool := decide (a.idx ≤ r.idx) && decide (r.idx ≤ b.idx)
  (among .DTU_CMD0 .DTU_CMD2 && s.rdb F.DTU_CMD_CTRL_GO i) || (among .LLC_CMD0 .LLC_CMD2 && s.rdb F.LLC_CMD_CTRL_GO i) ||
  (among .HOST_PEER_CMD0 .HOST_PEER_CMD5 && s.rdb F.HOST_PEER_CTRL_GO 0) ||
  (among .CRR_CMD0 .CRR_CMD7 && s.rdb F.CRR_CMD_CTRL_GO i) ||
  (among .PART_LEASE_CMD0 .PART_LEASE_CMD1 && s.rdb F.PART_LEASE_CTRL_GO 0) ||
  (among .FRK_CMD0 .FRK_CMD1 && s.rdb F.FRK_CMD_CTRL_GO 0) ||
  (among .MGT_CFGS_CMD0 .MGT_CFGS_CMD2 && s.rdb F.MGT_CFGS_CTRL_GO 0) ||
  (among .TIER_STRM_BASE .TIER_STRM_TIME && s.rdb F.TIER_STRM_CFG_EN i) ||
  (r == .SO_PROG_INIT && s.rdb F.SO_PROG_CFG_EN i) || (r == .SO_WALK_BLOCK && s.rd F.SO_WALK_STATUS_STATE i == 1)

/-- The state a meaning goes on to. -/
def State.after (s : State) (f : State → Res) : State :=
  match f s with
  | .next t => t
  | .fault _ => s
  | .refused _ => s

/-- A write of CAR_CH_CTRL: its bits in order, on a channel that is held and served. -/
def State.chCtrl (s : State) (c : Nat) (w : Word) : State :=
  let on (f : Fld) (s : State) (g : State → State) : State := if f.get w = 1 ∧ s.fnChannel 0 c then g s else s
  let s := on F.CAR_CH_CTRL_START s (·.chStart c)
  let s := on F.CAR_CH_CTRL_KICK s (·.chKick c)
  let s := on F.CAR_CH_CTRL_ABORT s (·.chAbort c)
  let s := on F.CAR_CH_CTRL_RESUME s (·.chHaltBit c F.CAR_CH_CTRL_RESUME)
  let s := on F.CAR_CH_CTRL_SKIP s (·.chHaltBit c F.CAR_CH_CTRL_SKIP)
  on F.CAR_CH_CTRL_CLEAR s (·.chHaltBit c F.CAR_CH_CTRL_CLEAR)

/-- A write of FRK_CMD_CTRL.GO: the stored words' command (R569). -/
def State.frkGo (s : State) : State :=
  let a := s.rd F.FRK_CMD0_ARG8 0
  let w := s.reg Reg.FRK_CMD1 0
  match s.rd F.FRK_CMD0_OP 0 with
  | 2 => s.after (execBind a w)
  | 3 => s.after (execTimeref w)
  | 4 => s.after (execReadRecord (w.setWidth 32))
  | 5 => s.after (execReadInfo (BitVec.ofNat 8 a))
  | 6 => s.after (execReadLog (BitVec.ofNat 8 a))
  | op => s.frkCommand op a w (fun f => (f.ignore, none))

/-- A write of CRR_NVME_CFG: EN 0 stores the fields of a set that is OFF and disconnects another. The write that sets EN is
NVME_SET_ENABLE's, which also says what the MC meets (log entry 40). -/
def State.nvmeCfg (s : State) (n : Nat) (w : Word) : State :=
  if F.CRR_NVME_CFG_EN.get w = 1 then s
  else if s.rd F.CRR_NVME_STATUS_STATE n = 0 then s.setReg Reg.CRR_NVME_CFG n w
  else s.nvmeDisable n

/-- A write of DLS_CONS: a value that would make PROD - CONS exceed 256, or negative, is ignored (Table 17-5). -/
def State.dlsCons (s : State) (p n : Nat) : State :=
  if (s.rd F.DLS_PROD_COUNT p + 2 ^ 32 - n) % 2 ^ 32 ≤ 256 then s.wr F.DLS_CONS_COUNT p n else s

/-- A write of HOST_IRQ_MAP: a VECTOR not below the function's vector count leaves it unchanged (R429). -/
def State.irqMap (s : State) (i : Nat) (w : Word) : State :=
  if F.HOST_IRQ_MAP_VECTOR.get w < vectorCount (i / 8) then s.setReg Reg.HOST_IRQ_MAP i w else s

/-- A write of CAR_CH_CFG: POOL takes a write only while the channel is IDLE, and takes CHAIN only where that feature is
accepted (Tables 10-10 and 12-4). -/
def State.chCfg (s : State) (c : Nat) (w : Word) : State :=
  let was := s.rd F.CAR_CH_CFG_POOL c
  let ok := s.chState c = chIdle ∧ (F.CAR_CH_CFG_POOL.get w = 0 ∨ s.feature 19)
  s.setReg Reg.CAR_CH_CFG c (clampWord .CAR_CH_CFG (if ok then w else F.CAR_CH_CFG_POOL.put w was))

/-- A write of a register by its access codes alone. -/
def State.plainWrite (s : State) (r : Reg) (i : Nat) (pf : Bool) (m v : Word) : State :=
  s.setReg r i (clampWord r (accWrite pf (regSpec r).fields (s.reg r i) m v))

/-- The registers whose write is an operation of the machine, by their chapters; `w` is what the write asks (`accArg`). -/
def State.opWritePart (s : State) (r : Reg) (i : Nat) (w : Word) : Option State :=
  if r = .PART_PLAN_CTRL then
    let s := if F.PART_PLAN_CTRL_LOAD.get w = 1 then s.after (execPlanLoad (BitVec.ofNat 5 i)) else s
    some (if F.PART_PLAN_CTRL_UNLOAD.get w = 1 then s.after (execUnload (BitVec.ofNat 5 i)) else s)
  else if r = .PART_QUOTA_SO then some (s.quotaSoWrite i w)
  else if r = .TIER_QUOTA_MEADOW then some (s.quotaWrite i 0 w.toNat)
  else if r = .TIER_QUOTA_HEATH then some (s.quotaWrite i 1 w.toNat)
  else if r = .TIER_QUOTA_MOOR then some (s.quotaWrite i 2 w.toNat)
  else if r = .SRT_CTRL then
    let c := BitVec.ofNat 6 i
    let s := if F.SRT_CTRL_START.get w = 1 then s.after (execSrtStart c) else s
    let s := if F.SRT_CTRL_HALT_REQ.get w = 1 then s.after (execHaltReq c) else s
    some (if F.SRT_CTRL_RESUME.get w = 1 then s.after (execSrtResume c) else s)
  else if r = .DTU_PIN_QUOTA then some (s.pinQuotaWrite i w.toNat)
  else if r = .DTU_FAULT_INFO then
    some (if F.DTU_FAULT_INFO_VALID.get w = 1 then (s.wr F.DTU_FAULT_INFO_VALID i 0).wr F.DTU_FAULT_INFO_COUNT i 0 else s)
  else if r = .DTU_CMD_CTRL then some (if F.DTU_CMD_CTRL_GO.get w = 1 then s.dtuGo i else s)
  else if r = .LLC_CMD_CTRL then some (if F.LLC_CMD_CTRL_GO.get w = 1 then s.llcExec i else s)
  else if r = .TIER_STRM_CFG then some (s.strmCfg i w)
  else if r = .SO_RANGE then some (s.rangeWrite leaseSync i w.toNat)
  else if r = .SO_WATCH_CFG then some (s.watchCfg i w)
  else if r = .SO_PROG_CFG then some (s.progCfg i w)
  else if r = .SO_WALK_CFG then some (s.walkCfg i w)
  else if r = .HOST_IRQ_MAP then some (s.irqMap i w)
  else if r = .CRR_CONN_RANGE then some (s.rangeWrite leaseConn i w.toNat)
  else if r = .CRR_CMD_CTRL then some (if F.CRR_CMD_CTRL_GO.get w = 1 then s.crrGo i else s)
  else if r = .PART_CTRL then some (if F.PART_CTRL_RESET.get w = 1 then s.partReset i else s)
  else if r = .DLS_CONS then some (s.dlsCons i w.toNat)
  else none

/-- The same for registers of channels, rings and the device. -/
def State.opWriteDevice (s : State) (r : Reg) (i : Nat) (w : Word) : Option State :=
  if r = .CAR_CH_CTRL then some (s.chCtrl i w)
  else if r = .CAR_CH_CFG then some (s.chCfg i w)
  else if r = .CAR_CH_HEAD then some ((s.setReg r i w).setChan i { s.chan i with headNew := true })
  else if r = .CAR_RING_CFG then some (s.ringCfg i w)
  else if r = .CAR_RING_CONS then some (s.ringCons i w.toNat)
  else if r = .TIER_MOOR_TGT then some (s.moorTgtWrite i w)
  else if r = .TIER_LOSS_CTRL then
    some ((s.after (execDeclareHeath (BitVec.ofNat 8 (F.TIER_LOSS_CTRL_DECLARE_HEATH.get w)))).after
      (execDeclareMoor (BitVec.ofNat 16 (F.TIER_LOSS_CTRL_DECLARE_MOOR.get w))))
  else if r = .SYS_OPEN then some (if F.SYS_OPEN_OPEN.get w = 1 then s.after execSysOpen else s)
  else if r = .HOST_PEER_CTRL then some (if F.HOST_PEER_CTRL_GO.get w = 1 then s.peerGo else s)
  else if r = .CRR_PRIO_MAP then some (s.prioMapWrite i w)
  else if r = .CRR_NVME_CFG then some (s.nvmeCfg i w)
  else if r = .PART_LEASE_CTRL then some (if F.PART_LEASE_CTRL_GO.get w = 1 then s.leaseGo else s)
  else if r = .FRK_CMD_CTRL then some (if F.FRK_CMD_CTRL_GO.get w = 1 then s.frkGo else s)
  else if r = .MGT_CFGS_CTRL then some (if F.MGT_CFGS_CTRL_GO.get w = 1 ∧ s.cfgsOpen then s.cfgsGo else s)
  else none

/-- A write of software to an instance of a register, through the PF or a VF: `v` in the bits of `m` (R9, R11, R642). A half
that holds no writable field takes none. LLC_PIN_MASK and SYS_RESET_CTRL look at bits of the write beyond their fields. -/
def State.regWrite (s : State) (r : Reg) (i : Nat) (pf : Bool) (m v : Word) : State :=
  let fs := (regSpec r).fields
  let old := s.reg r i
  if accMask Acc.writable pf fs &&& m = 0 ∨ s.regKept r i then s
  else if r = .LLC_PIN_MASK then s.pinMaskWrite i ((old &&& ~~~m) ||| (v &&& m)).toNat
  else if r = .SYS_RESET_CTRL then (s.wr F.SYS_RESET_CTRL_KEY 0 (F.SYS_RESET_CTRL_KEY.get (v &&& m))).resetCtrl (v &&& m)
  else
    let w := accArg pf fs old m v
    match (s.opWritePart r i w).orElse (fun _ => s.opWriteDevice r i w) with
    | some t => t
    | none => s.plainWrite r i pf m v

/-- The partition an instance belongs to, if any (Table 18-3: a write to one that is RESETTING is dropped). -/
def State.instancePart (s : State) (r : Reg) (i : Nat) : Option Nat :=
  match (regSpec r).scope with
  | .part k => some (i / k)
  | .core k => s.corePart? (i / k)
  | .channel => let l := s.lease leaseChannel i; if l.state = 0 then none else some l.holder
  | .ring => let l := s.lease leaseRing i; if l.state = 0 then none else some l.holder
  | _ => none

/-- A write that reaches a register: an RWL field after the lock is counted in ERR_LOCK (R13, R645), a partition in reset
takes none (Table 18-3). -/
def State.slotWrite (s : State) (r : Reg) (i : Nat) (pf : Bool) (off : Nat) (m v : Word) : State :=
  let resetting := match s.instancePart r i with
    | some p => s.partState p == partResetting
    | none => false
  if resetting then s
  else if accMask (· == .rwl) pf (regSpec r).fields &&& m ≠ 0 ∧ s.rdb F.SYS_OPEN_OPENED 0 then
    let s := s.sat F.ERR_LOCK_COUNT 0 1
    if s.rdb F.ERR_LOCK_VALID 0 then s else (s.flag F.ERR_LOCK_VALID 0).wr F.ERR_LOCK_OFFSET 0 off
  else s.regWrite r i pf m v

/-- A write of an MSI-X table entry: word 0 the address, word 1 the data and the vector control. A vector that is unmasked
with its PBA bit set sends its message. -/
def State.msixWrite (s : State) (fn v w : Nat) (m x : Word) : State :=
  let k := fn * 2048 + v
  let merge (old : Word) : Word := (old &&& ~~~m) ||| (x &&& m)
  if w = 0 then { s with host := { s.host with msixAddr := Tab.set 0 s.host.msixAddr k (merge (Tab.get 0 s.host.msixAddr k)) } }
  else
    let unmasked := Tab.get false s.host.unmasked k
    let old := BitVec.ofNat 64 (Tab.get 0 s.host.msixData k + 2 ^ 32 * b2n (!unmasked))
    let now := (merge old).toNat
    let s := { s with
      host := { s.host with
        msixData := Tab.set 0 s.host.msixData k (now % 2 ^ 32)
        unmasked := Tab.set false s.host.unmasked k (!now.testBit 32) } }
    if !now.testBit 32 && Tab.get false s.host.pba k then (s.setPba fn v false).msix fn v else s

/-- A memory write to BAR0 of a function (R641 to R643, R459): of 4 or 8 bytes, aligned, or dropped and counted. -/
def State.barWrite (s : State) (fn off size : Nat) (v : Word) : State :=
  if s.pins.held || !s.fnExists fn || s.rdb F.HOST_FN_STATUS_FLR_ACTIVE fn then s
  else
    let m : Word := if size = 8 then ~~~0 else if off % 8 = 0 then 0xFFFFFFFF else 0xFFFFFFFF00000000
    let x : Word := if size = 4 ∧ off % 8 = 4 then v <<< 32 else v
    match s.place fn off with
    | .unimplemented => s.unsupportedAccess fn false
    | .writeBack => s
    | .reserved => if goodAccess off size then s else s.badAccess fn off
    | .msixPba _ => if goodAccess off size then s else s.badAccess fn off
    | .msixEntry e w => if goodAccess off size then s.msixWrite fn e w m x else s.badAccess fn off
    | .reg r i => if goodAccess off size then s.slotWrite r i (fn == 0) off m x else s.badAccess fn off

/-- HOST_PORTFN_ID, the one register of a port function's BAR0 (R469). -/
def portFnId (port : Nat) : Nat := port % 8 + 8

/-- The identification in configuration space (Table 0-1, R425): Vendor ID, Device ID, Class code, Revision ID, Subsystem
Vendor ID, Subsystem ID. A port function has the PF's values. -/
def State.cfgIdent (s : State) (fn : Nat) : List Nat :=
  [0x1F3D, if fn = 0 ∨ 64 ≤ fn then 0x480 else 0x481, 0x120000, 0xB0, 0x1F3D, 0xA00 + s.variant.code]

/-- What an 8-byte read of a slot of BAR0 gives. MGT_RSV_DATA and SRT_DBG_DATA, whose reads act, have rows of their own. -/
def State.barWord (s : State) (fn off : Nat) : Word :=
  if 64 ≤ fn then (if off < 8 then BitVec.ofNat 64 (portFnId (fn - 64)) else 0) else
  match s.place fn off with
  | .reg r i => s.view r i
  | .msixEntry v w =>
    let k := fn * 2048 + v
    if w = 0 then Tab.get 0 s.host.msixAddr k
    else BitVec.ofNat 64 (Tab.get 0 s.host.msixData k + 2 ^ 32 * b2n (!Tab.get false s.host.unmasked k))
  | .msixPba w => BitVec.ofNat 64 ((List.range 64).foldl (fun a i =>
      a + b2n (Tab.get false s.host.pba (fn * 2048 + 64 * w + i)) * 2 ^ i) 0)
  | _ => 0

/-- A write of a function's configuration space. -/
def State.cfgWrite (s : State) (fn : Nat) (w : CfgWrite) : State :=
  let bit (n : Nat) (on : Bool) : Nat := if on then n ||| 2 ^ fn else n &&& (2 ^ 128 - 1 - 2 ^ fn)
  match w with
  | .maxReadRequest b => { s with host := { s.host with mrrs := Tab.set 512 s.host.mrrs fn b } }
  | .completionTimeout us => { s with host := { s.host with devTmo := Tab.set 0 s.host.devTmo fn us } }
  | .ats on => { s with host := { s.host with atsOn := bit s.host.atsOn on } }
  | .pri on => { s with host := { s.host with priOn := bit s.host.priOn on } }
  | .relaxed on => { s with host := { s.host with roOn := bit s.host.roOn on } }
  | .pageAllocation n => { s with host := { s.host with pageAlloc := Tab.set 0 s.host.pageAlloc fn n } }
  | .ideAssociation port stream rs =>
    { s with host := { s.host with ideRange := Tab.set [] s.host.ideRange (port * 16 + stream) rs } }
  | .doeAbort => { s with spdm := { s.spdm with doeError := false } }

/-- REGISTER_WRITE (R11, R642): a write through a function's BAR0, or of its configuration space, which an FLR does not stop
(R459). -/
def execRegisterWrite (fn : Nat) (write : RegWrite) (s : State) : Res :=
  .next (match write with
    | .bar0 off size v => s.barWrite fn off size v
    | .config w => if s.pins.held || (fn < 64 && !s.fnExists fn) then s else s.cfgWrite fn w)

/-- BAD_ACCESS (R643): an access of a size or alignment no register takes, or to an unimplemented region. An access that
fits its place does nothing here. -/
def execBadAccess (fn off size : Nat) (read : Bool) (s : State) : Res :=
  .next (if s.pins.held || !s.fnExists fn then s
    else if s.rdb F.HOST_FN_STATUS_FLR_ACTIVE fn then (if read then s.emit (.unsupported fn) else s)
    else match s.place fn off with
      | .unimplemented => s.unsupportedAccess fn read
      | .writeBack => s
      | _ =>
        if goodAccess off size then s
        else
          let s := s.badAccess fn off
          if read then s.emit (.readData fn (List.replicate size 0)) else s)

/-- MGT_RSV_READ (R653): a PF read of MGT_RSV_DATA. What the device keeps in its reserve has no stated layout: a free
value. -/
def execMgtRsvRead (s : State) : Res :=
  .next (if s.pins.held || s.rdb F.HOST_FN_STATUS_FLR_ACTIVE 0 then s else
    let k := s.rd F.MGT_RSV_ADDR_DPA 0 * 8
    let t := s.wr F.MGT_RSV_ADDR_DPA 0 (s.rd F.MGT_RSV_ADDR_DPA 0 + 1)
    if s.inReserve k && !Tab.get false s.poison (k / 32) then
      ({ t with free := t.free + 1 }).emit (.readData 0 (leBytes 8 (Config.reserveWord s.free k).toNat))
    else (t.badAccess 0 0x103088).emit (.readData 0 (List.replicate 8 0)))

/-- The default roles of the x16 ports (R34): HOST where the strap says. -/
def State.defaultX16 (s : State) (n : Nat) : Nat :=
  if s.variant.ports ≤ n then 0 else if n = s.rd F.SYS_STRAPS_HOSTPORT 0 then 1 else if n < 4 then 2 else 3

/-- The default roles of the Ethernet ports under the ETH_PROFILE strap (R34, R577). -/
def State.defaultEth (s : State) (n : Nat) : Nat :=
  if s.variant.ports ≤ n then 0
  else match s.rd F.SYS_STRAPS_ETH_PROFILE_APPLIED 0 with
    | 0 => if n < 2 then 1 else 2
    | 1 => 3
    | 2 => 2
    | _ => 0

/-- The roles a role table gives (R33): the word of SYS_PORT_MAP, and whether an entry was ignored or replaced. -/
def State.rolesOf (s : State) (b : List Byte) : Nat × Bool :=
  let x := fieldAt b 0 2
  let e := fieldAt b 2 2
  let gx := fieldAt b 4 1
  let ge := fieldAt b 5 1
  let host := s.rd F.SYS_STRAPS_HOSTPORT 0
  (List.range 8).foldl (fun (a : Nat × Bool) n =>
    let want := bitsOf x (2 * n) 2
    let given := gx.testBit n && decide (n < s.variant.ports)
    let role := if n = host ∨ !given ∨ want = 1 then s.defaultX16 n else want
    let eth := if ge.testBit n && decide (n < s.variant.ports) then bitsOf e (2 * n) 2 else s.defaultEth n
    let odd := (gx.testBit n || ge.testBit n) && decide (s.variant.ports ≤ n) || (given && decide (role ≠ want))
    (a.1 + role * 2 ^ (2 * n) + eth * 2 ^ (16 + 2 * n), a.2 || odd)) (0, false)

/-- Apply one item (Table 16-3), as a PF write would. -/
def State.applyItem (s : State) (it : CfgItem) : State :=
  let b := it.value
  let wr (s : State) (r : Reg) (i : Nat) (v : Nat) : State := s.regWrite r i true (~~~0) (BitVec.ofNat 64 v)
  if it.check s.variant ≠ 0 then s.wr F.SYS_START_STATUS_CFG_ITEM_ERR 0 1
  else match it.tag with
    | 1 =>
      let r := s.rolesOf b
      (s.setReg Reg.SYS_PORT_MAP 0 (BitVec.ofNat 64 r.1)).wrb F.SYS_TOPOLOGY_ROLE_FALLBACK 0 r.2
    | 2 =>
      let n := fieldAt b 0 1
      let s := wr (wr s .CRR_PORT_CFG n (fieldAt b 4 8)) .CRR_PORT_MAC n (fieldAt b 12 6)
      wr (wr (wr s .CRR_PORT_IP (2 * n) (fieldAt b 20 8)) .CRR_PORT_IP (2 * n + 1) (fieldAt b 28 8)) .CRR_PFC_CFG n
        (fieldAt b 36 4)
    | 3 => wr s .CRR_PTP_CFG 0 (fieldAt b 0 4)
    | 4 => wr s .PWR_PIN_FILTER 0 (fieldAt b 0 4)
    | _ => (List.range (b.length / 12)).foldl (fun s i => match s.place 0 (fieldAt b (12 * i) 4) with
        | .reg r k => wr s r k (fieldAt b (12 * i + 4) 8)
        | _ => s) s

/-- CONFIG_APPLY (R33, R37, R586, R589, R591): the bank in use, its items in order over the default roles, then the phase
ends. -/
def execConfigApply (s : State) : Res :=
  .next (if s.pins.held || s.phase != phConfig then s else
    let safe := !s.pins.straps.testBit 11
    let bank := if safe then none else s.boot.newest
    let both := s.boot.bank0.isSome && s.boot.bank1.isSome
    let roles := (List.range 8).foldl (fun a n => a + s.defaultX16 n * 2 ^ (2 * n) + s.defaultEth n * 2 ^ (16 + 2 * n)) 0
    let s := (s.setReg Reg.SYS_PORT_MAP 0 (BitVec.ofNat 64 roles)).wrb F.SYS_START_STATUS_SAFE_BOOT 0 safe
    let s := s.wr F.SYS_TOPOLOGY_ROLE_FALLBACK 0 1
    let s := match bank with
      | none => s.wr F.SYS_START_STATUS_CFG_DEFAULTS 0 1
      | some (one, b) =>
        let s := (s.wrb F.SYS_START_STATUS_CFG_BANK 0 one).wrb F.SYS_START_STATUS_CFG_BANK_INVALID 0 (!both)
        let s := { s with boot := { s.boot with inUse := b.payload } }
        (cfgItems (b.payload.length / 4 + 1) b.payload).1.foldl (fun s it => s.applyItem it) s
    s.setPhase phDies)

end Sys2Proof.Machine
end

