-- ==== Sys2Proof/Machine/Dispatch.lean ====
section
/-! DEFINITION. The dispatcher: one arm per command, each one call of its meaning. -/

namespace Sys2Proof.Machine

/-- The effect of a command on everything but the queue. -/
def exec (i : Instr) (s : State) : Host.Outcome State Fault Refusal :=
  match i with
  | .alu core word err => Sys2Proof.Machine.execAlu core word err s
  | .alui core word err => Sys2Proof.Machine.execAlui core word err s
  | .movi core word err => Sys2Proof.Machine.execMovi core word err s
  | .movhi core word err => Sys2Proof.Machine.execMovhi core word err s
  | .mul core word err => Sys2Proof.Machine.execMul core word err s
  | .div core word err => Sys2Proof.Machine.execDiv core word err s
  | .cmp core word err => Sys2Proof.Machine.execCmp core word err s
  | .cmpi core word err => Sys2Proof.Machine.execCmpi core word err s
  | .pred core word err => Sys2Proof.Machine.execPred core word err s
  | .bra core word err => Sys2Proof.Machine.execBra core word err s
  | .call core word err => Sys2Proof.Machine.execCall core word err s
  | .jr core word err => Sys2Proof.Machine.execJr core word err s
  | .callr core word err => Sys2Proof.Machine.execCallr core word err s
  | .sload core word err => Sys2Proof.Machine.execSload core word err s
  | .sstore core word err => Sys2Proof.Machine.execSstore core word err s
  | .load core word err => Sys2Proof.Machine.execLoad core word err s
  | .store core word err => Sys2Proof.Machine.execStore core word err s
  | .amo core word err => Sys2Proof.Machine.execAmo core word err s
  | .csrr core word err => Sys2Proof.Machine.execCsrr core word err s
  | .csrw core word err => Sys2Proof.Machine.execCsrw core word err s
  | .tld core word err => Sys2Proof.Machine.execTld core word err s
  | .tst core word err => Sys2Proof.Machine.execTst core word err s
  | .tmov core word err => Sys2Proof.Machine.execTmov core word err s
  | .tzero core word err => Sys2Proof.Machine.execTzero core word err s
  | .tset core word err => Sys2Proof.Machine.execTset core word err s
  | .tget core word err => Sys2Proof.Machine.execTget core word err s
  | .tldd core word err => Sys2Proof.Machine.execTldd core word err s
  | .tstd core word err => Sys2Proof.Machine.execTstd core word err s
  | .moveIntake core word err => Sys2Proof.Machine.execMoveIntake core word err s
  | .moveCopy core word err => Sys2Proof.Machine.execMoveCopy core word err s
  | .moveSend core word err => Sys2Proof.Machine.execMoveSend core word err s
  | .press core word err => Sys2Proof.Machine.execPress core word err s
  | .unpress core word err => Sys2Proof.Machine.execUnpress core word err s
  | .spill core word err => Sys2Proof.Machine.execSpill core word err s
  | .fetch core word err => Sys2Proof.Machine.execFetch core word err s
  | .fetchRecall core word err => Sys2Proof.Machine.execFetchRecall core word err s
  | .teddOp core word err => Sys2Proof.Machine.execTeddOp core word err s
  | .teddRegrow core word err => Sys2Proof.Machine.execTeddRegrow core word err s
  | .layout core word err => Sys2Proof.Machine.execLayout core word err s
  | .deliver core word err => Sys2Proof.Machine.execDeliver core word err s
  | .deliverLattice core word err => Sys2Proof.Machine.execDeliverLattice core word err s
  | .notify core word err => Sys2Proof.Machine.execNotify core word err s
  | .tileDrop core word err => Sys2Proof.Machine.execTileDrop core word err s
  | .tileRelabel core word err => Sys2Proof.Machine.execTileRelabel core word err s
  | .rstage core word err => Sys2Proof.Machine.execRstage core word err s
  | .eadv core word err => Sys2Proof.Machine.execEadv core word err s
  | .wait core word err => Sys2Proof.Machine.execWait core word err s
  | .signal core word err => Sys2Proof.Machine.execSignal core word err s
  | .sread core word err => Sys2Proof.Machine.execSread core word err s
  | .fence core word err => Sys2Proof.Machine.execFence core word err s
  | .halt core word err => Sys2Proof.Machine.execHalt core word err s
  | .brk core word err => Sys2Proof.Machine.execBrk core word err s
  | .tret core word err => Sys2Proof.Machine.execTret core word err s
  | .stalledIssueProceeds core => Sys2Proof.Machine.execStalledIssueProceeds core s
  | .issueTimeout core => Sys2Proof.Machine.execIssueTimeout core s
  | .deferredDispCheck item => Sys2Proof.Machine.execDeferredDispCheck item s
  | .asyncStoreFail core => Sys2Proof.Machine.execAsyncStoreFail core s
  | .gateTimeout item => Sys2Proof.Machine.execGateTimeout item s
  | .waitTimeout core => Sys2Proof.Machine.execWaitTimeout core s
  | .syncObjectUpdate object op value => Sys2Proof.Machine.execSyncObjectUpdate object op value s
  | .doorbellSet fn object value short => Sys2Proof.Machine.execDoorbellSet fn object value short s
  | .doorbellAdd fn object value short => Sys2Proof.Machine.execDoorbellAdd fn object value short s
  | .doorbellMax fn object value short => Sys2Proof.Machine.execDoorbellMax fn object value short s
  | .doorbellOr fn object value short => Sys2Proof.Machine.execDoorbellOr fn object value short s
  | .badWrite fn read bytes => Sys2Proof.Machine.execBadWrite fn read bytes s
  | .srtStart core => Sys2Proof.Machine.execSrtStart core s
  | .haltReq core => Sys2Proof.Machine.execHaltReq core s
  | .srtResume core => Sys2Proof.Machine.execSrtResume core s
  | .srtDbgRead fn core => Sys2Proof.Machine.execSrtDbgRead fn core s
  | .stallRetry partition tier => Sys2Proof.Machine.execStallRetry partition tier s
  | .intakeCommit item => Sys2Proof.Machine.execIntakeCommit item s
  | .intakeWriteFault item => Sys2Proof.Machine.execIntakeWriteFault item s
  | .migrationReserve item => Sys2Proof.Machine.execMigrationReserve item s
  | .migrationCommit item => Sys2Proof.Machine.execMigrationCommit item s
  | .reservationWaitTimeout item => Sys2Proof.Machine.execReservationWaitTimeout item s
  | .watermarkDemotion partition heath => Sys2Proof.Machine.execWatermarkDemotion partition heath s
  | .regrowStart item => Sys2Proof.Machine.execRegrowStart item s
  | .regrowCommit item => Sys2Proof.Machine.execRegrowCommit item s
  | .engineUnitFault tedder unit => Sys2Proof.Machine.execEngineUnitFault tedder unit s
  | .workItemEnd item => Sys2Proof.Machine.execWorkItemEnd item s
  | .carrierItemEnd item => Sys2Proof.Machine.execCarrierItemEnd item s
  | .itemArrival item => Sys2Proof.Machine.execItemArrival item s
  | .descriptorRead channel => Sys2Proof.Machine.execDescriptorRead channel s
  | .channelStallTimeout channel item => Sys2Proof.Machine.execChannelStallTimeout channel item s
  | .channelStart fn channel => Sys2Proof.Machine.execChannelStart fn channel s
  | .kick fn channel => Sys2Proof.Machine.execKick fn channel s
  | .abort fn channel => Sys2Proof.Machine.execAbort fn channel s
  | .channelResume fn channel => Sys2Proof.Machine.execChannelResume fn channel s
  | .skip fn channel => Sys2Proof.Machine.execSkip fn channel s
  | .clear fn channel => Sys2Proof.Machine.execClear fn channel s
  | .ringEnable fn ring value => Sys2Proof.Machine.execRingEnable fn ring value s
  | .ringConsWrite fn ring count => Sys2Proof.Machine.execRingConsWrite fn ring count s
  | .ringCoalesceTimeout ring => Sys2Proof.Machine.execRingCoalesceTimeout ring s
  | .cplReceived port tag status data => Sys2Proof.Machine.execCplReceived port tag status data s
  | .completionTimeout port tag => Sys2Proof.Machine.execCompletionTimeout port tag s
  | .tagQuarantineEnd port tag => Sys2Proof.Machine.execTagQuarantineEnd port tag s
  | .noticeRingRetry item => Sys2Proof.Machine.execNoticeRingRetry item s
  | .noticeReservation item => Sys2Proof.Machine.execNoticeReservation item s
  | .writeBackHeader fn rid bytes => Sys2Proof.Machine.execWriteBackHeader fn rid bytes s
  | .writeBackData fn rid offset bytes => Sys2Proof.Machine.execWriteBackData fn rid offset bytes s
  | .planLoad partition => Sys2Proof.Machine.execPlanLoad partition s
  | .planLoadEnd partition => Sys2Proof.Machine.execPlanLoadEnd partition s
  | .planLoadTimeout partition => Sys2Proof.Machine.execPlanLoadTimeout partition s
  | .unload partition => Sys2Proof.Machine.execUnload partition s
  | .unloadComplete partition => Sys2Proof.Machine.execUnloadComplete partition s
  | .quotaWrite partition tier units => Sys2Proof.Machine.execQuotaWrite partition tier units s
  | .partQuotaSoWrite partition value => Sys2Proof.Machine.execPartQuotaSoWrite partition value s
  | .dtuPinQuotaWrite partition pages => Sys2Proof.Machine.execDtuPinQuotaWrite partition pages s
  | .map set cmd0 cmd1 cmd2 => Sys2Proof.Machine.execMap set cmd0 cmd1 cmd2 s
  | .unmap set cmd0 cmd1 cmd2 => Sys2Proof.Machine.execUnmap set cmd0 cmd1 cmd2 s
  | .protect set cmd0 cmd1 cmd2 => Sys2Proof.Machine.execProtect set cmd0 cmd1 cmd2 s
  | .hint set cmd0 cmd1 cmd2 => Sys2Proof.Machine.execHint set cmd0 cmd1 cmd2 s
  | .migrate set cmd0 cmd1 cmd2 => Sys2Proof.Machine.execMigrate set cmd0 cmd1 cmd2 s
  | .migrateComplete set => Sys2Proof.Machine.execMigrateComplete set s
  | .pinXlate set cmd0 cmd1 cmd2 => Sys2Proof.Machine.execPinXlate set cmd0 cmd1 cmd2 s
  | .unpinXlate set cmd0 cmd1 cmd2 => Sys2Proof.Machine.execUnpinXlate set cmd0 cmd1 cmd2 s
  | .tierMoorTgtWrite target value => Sys2Proof.Machine.execTierMoorTgtWrite target value s
  | .streamEnableWindow stream cfg => Sys2Proof.Machine.execStreamEnableWindow stream cfg s
  | .streamEnablePrefetch stream cfg => Sys2Proof.Machine.execStreamEnablePrefetch stream cfg s
  | .streamDisable stream cfg => Sys2Proof.Machine.execStreamDisable stream cfg s
  | .windowReconcile stream => Sys2Proof.Machine.execWindowReconcile stream s
  | .prefetchFire stream => Sys2Proof.Machine.execPrefetchFire stream s
  | .heathResponse core late => Sys2Proof.Machine.execHeathResponse core late s
  | .heathTimeout item core => Sys2Proof.Machine.execHeathTimeout item core s
  | .moorCompletion command status late => Sys2Proof.Machine.execMoorCompletion command status late s
  | .moorTimeout conn request => Sys2Proof.Machine.execMoorTimeout conn request s
  | .tierPortDown moor index => Sys2Proof.Machine.execTierPortDown moor index s
  | .tierPortUp moor index => Sys2Proof.Machine.execTierPortUp moor index s
  | .tierLossTimeout moor index => Sys2Proof.Machine.execTierLossTimeout moor index s
  | .declareHeath ports => Sys2Proof.Machine.execDeclareHeath ports s
  | .declareMoor targets => Sys2Proof.Machine.execDeclareMoor targets s
  | .heathMediaEvent offset => Sys2Proof.Machine.execHeathMediaEvent offset s
  | .llcFlush set cmd0 cmd1 cmd2 => Sys2Proof.Machine.execLlcFlush set cmd0 cmd1 cmd2 s
  | .llcEvict set cmd0 cmd1 cmd2 => Sys2Proof.Machine.execLlcEvict set cmd0 cmd1 cmd2 s
  | .llcPin set cmd0 cmd1 cmd2 => Sys2Proof.Machine.execLlcPin set cmd0 cmd1 cmd2 s
  | .llcUnpin set cmd0 cmd1 cmd2 => Sys2Proof.Machine.execLlcUnpin set cmd0 cmd1 cmd2 s
  | .llcPinMaskWrite partition ways => Sys2Proof.Machine.execLlcPinMaskWrite partition ways s
  | .scrubRead dpa find last behind => Sys2Proof.Machine.execScrubRead dpa find last behind s
  | .llcScrub die set way find => Sys2Proof.Machine.execLlcScrub die set way find s
  | .zeroRange unit => Sys2Proof.Machine.execZeroRange unit s
  | .hbmStackFailure stack => Sys2Proof.Machine.execHbmStackFailure stack s
  | .fenceTimeout die => Sys2Proof.Machine.execFenceTimeout die s
  | .escalationTimeout => Sys2Proof.Machine.execEscalationTimeout s
  | .partReset partition => Sys2Proof.Machine.execPartReset partition s
  | .partResetComplete partition => Sys2Proof.Machine.execPartResetComplete partition s
  | .quiescenceTimeout die revocation partition => Sys2Proof.Machine.execQuiescenceTimeout die revocation partition s
  | .grant cmd0 => Sys2Proof.Machine.execGrant cmd0 s
  | .revoke cmd0 => Sys2Proof.Machine.execRevoke cmd0 s
  | .query cmd0 => Sys2Proof.Machine.execQuery cmd0 s
  | .assignCores cmd0 cores => Sys2Proof.Machine.execAssignCores cmd0 cores s
  | .unassignCores cmd0 cores => Sys2Proof.Machine.execUnassignCores cmd0 cores s
  | .revocationComplete kind index => Sys2Proof.Machine.execRevocationComplete kind index s
  | .contextReclaim tedder ctx => Sys2Proof.Machine.execContextReclaim tedder ctx s
  | .soRangeWrite partition base count => Sys2Proof.Machine.execSoRangeWrite partition base count s
  | .crrConnRangeWrite partition base count => Sys2Proof.Machine.execCrrConnRangeWrite partition base count s
  | .watchArm watch cfg => Sys2Proof.Machine.execWatchArm watch cfg s
  | .trackerEnable tracker cfg => Sys2Proof.Machine.execTrackerEnable tracker cfg s
  | .walkerEnable walker cfg block => Sys2Proof.Machine.execWalkerEnable walker cfg block s
  | .walkStart walker => Sys2Proof.Machine.execWalkStart walker s
  | .walkerGroupIssue walker => Sys2Proof.Machine.execWalkerGroupIssue walker s
  | .aging item => Sys2Proof.Machine.execAging item s
  | .sysOpen => Sys2Proof.Machine.execSysOpen s
  | .register words => Sys2Proof.Machine.execRegister words s
  | .probeResult result => Sys2Proof.Machine.execProbeResult result s
  | .unregister peer => Sys2Proof.Machine.execUnregister peer s
  | .bar4Read fn offset bytes => Sys2Proof.Machine.execBar4Read fn offset bytes s
  | .bar4Write fn offset bytes => Sys2Proof.Machine.execBar4Write fn offset bytes s
  | .busMasterClear fn => Sys2Proof.Machine.execBusMasterClear fn s
  | .busMasterSet fn => Sys2Proof.Machine.execBusMasterSet fn s
  | .vfFlr vf => Sys2Proof.Machine.execVfFlr vf s
  | .pfFlr => Sys2Proof.Machine.execPfFlr s
  | .portFunctionFlr port => Sys2Proof.Machine.execPortFunctionFlr port s
  | .d3hotToD0 fn => Sys2Proof.Machine.execD3hotToD0 fn s
  | .hostLinkDown port => Sys2Proof.Machine.execHostLinkDown port s
  | .linkUp port gen width flit cxl => Sys2Proof.Machine.execLinkUp port gen width flit cxl s
  | .translationCompletion fn page target size read write => Sys2Proof.Machine.execTranslationCompletion fn page target size read write s
  | .invalidationRequest fn page size => Sys2Proof.Machine.execInvalidationRequest fn page size s
  | .pageRequestResponse fn page code => Sys2Proof.Machine.execPageRequestResponse fn page code s
  | .priTimeout fn page => Sys2Proof.Machine.execPriTimeout fn page s
  | .ideCheckFail port stream => Sys2Proof.Machine.execIdeCheckFail port stream s
  | .kSetGo port stream => Sys2Proof.Machine.execKSetGo port stream s
  | .connOpenListen partition words => Sys2Proof.Machine.execConnOpenListen partition words s
  | .connOpen partition words => Sys2Proof.Machine.execConnOpen partition words s
  | .connClose partition conn => Sys2Proof.Machine.execConnClose partition conn s
  | .openRepeat conn => Sys2Proof.Machine.execOpenRepeat conn s
  | .openTimeout conn => Sys2Proof.Machine.execOpenTimeout conn s
  | .openReceived port frame => Sys2Proof.Machine.execOpenReceived port frame s
  | .openAckReceived port frame => Sys2Proof.Machine.execOpenAckReceived port frame s
  | .closeReceived port frame => Sys2Proof.Machine.execCloseReceived port frame s
  | .closeAckReceived port frame => Sys2Proof.Machine.execCloseAckReceived port frame s
  | .closeRepeat conn => Sys2Proof.Machine.execCloseRepeat conn s
  | .dataReceived port frame => Sys2Proof.Machine.execDataReceived port frame s
  | .ackReceived port frame => Sys2Proof.Machine.execAckReceived port frame s
  | .sackReceived port frame => Sys2Proof.Machine.execSackReceived port frame s
  | .ackTimer conn => Sys2Proof.Machine.execAckTimer conn s
  | .retransmitTimeout conn => Sys2Proof.Machine.execRetransmitTimeout conn s
  | .nopKeepalive conn => Sys2Proof.Machine.execNopKeepalive conn s
  | .responseTimeout conn tid => Sys2Proof.Machine.execResponseTimeout conn tid s
  | .put conn tid => Sys2Proof.Machine.execPut conn tid s
  | .held conn tid => Sys2Proof.Machine.execHeld conn tid s
  | .confirm conn tid => Sys2Proof.Machine.execConfirm conn tid s
  | .recallTile conn tid => Sys2Proof.Machine.execRecall conn tid s
  | .resp conn tid => Sys2Proof.Machine.execResp conn tid s
  | .ownerRead conn tid => Sys2Proof.Machine.execOwnerRead conn tid s
  | .ownerWrite conn tid => Sys2Proof.Machine.execOwnerWrite conn tid s
  | .blockRead conn tid => Sys2Proof.Machine.execBlockRead conn tid s
  | .blockWrite conn tid => Sys2Proof.Machine.execBlockWrite conn tid s
  | .blockZero conn tid => Sys2Proof.Machine.execBlockZero conn tid s
  | .nop conn tid => Sys2Proof.Machine.execNop conn tid s
  | .retrain port mode => Sys2Proof.Machine.execRetrain port mode s
  | .ethLinkDown port => Sys2Proof.Machine.execEthLinkDown port s
  | .prioMapWrite port value => Sys2Proof.Machine.execPrioMapWrite port value s
  | .pfcFrame port enable pause => Sys2Proof.Machine.execPfcFrame port enable pause s
  | .pfcWatchdog port prio => Sys2Proof.Machine.execPfcWatchdog port prio s
  | .pfcStormRecovery port prio => Sys2Proof.Machine.execPfcStormRecovery port prio s
  | .cnp set => Sys2Proof.Machine.execCnp set s
  | .rateRecovery flow => Sys2Proof.Machine.execRateRecovery flow s
  | .nvmeSetEnable set cfg meets => Sys2Proof.Machine.execNvmeSetEnable set cfg meets s
  | .nvmeSetDisable set => Sys2Proof.Machine.execNvmeSetDisable set s
  | .qpError set => Sys2Proof.Machine.execQpError set s
  | .nvmeReconnect set connected => Sys2Proof.Machine.execNvmeReconnect set connected s
  | .keepAlive set answered => Sys2Proof.Machine.execKeepAlive set answered s
  | .ptpEventMessage port message => Sys2Proof.Machine.execPtpEventMessage port message s
  | .holdover => Sys2Proof.Machine.execHoldover s
  | .tallyTick => Sys2Proof.Machine.execTallyTick s
  | .tallyAckTimeout => Sys2Proof.Machine.execTallyAckTimeout s
  | .tally frame => Sys2Proof.Machine.execTally frame s
  | .tallyGap => Sys2Proof.Machine.execTallyGap s
  | .bind partition tenant => Sys2Proof.Machine.execBind partition tenant s
  | .timeref utc => Sys2Proof.Machine.execTimeref utc s
  | .readRecord seq => Sys2Proof.Machine.execReadRecord seq s
  | .readInfo select => Sys2Proof.Machine.execReadInfo select s
  | .readLog index => Sys2Proof.Machine.execReadLog index s
  | .sampleInterval rails refOk selfOk => Sys2Proof.Machine.execSampleInterval rails refOk selfOk s
  | .impulse => Sys2Proof.Machine.execImpulse s
  | .snapshot clockFault => Sys2Proof.Machine.execSnapshot clockFault s
  | .periodicBankWrite => Sys2Proof.Machine.execPeriodicBankWrite s
  | .frankPowerUp calOk => Sys2Proof.Machine.execFrankPowerUp calOk s
  | .frankPwrfailFall => Sys2Proof.Machine.execFrankPwrfailFall s
  | .pwrfailBankRepeat => Sys2Proof.Machine.execPwrfailBankRepeat s
  | .frankRecordsResume => Sys2Proof.Machine.execFrankRecordsResume s
  | .i3cPrivateWrite bytes => Sys2Proof.Machine.execI3cPrivateWrite bytes s
  | .i3cPrivateRead count => Sys2Proof.Machine.execI3cPrivateRead count s
  | .i3cCcc ccc => Sys2Proof.Machine.execI3cCcc ccc s
  | .i3cTimeout => Sys2Proof.Machine.execI3cTimeout s
  | .pwrokRise => Sys2Proof.Machine.execPwrokRise s
  | .pwrokFall => Sys2Proof.Machine.execPwrokFall s
  | .strapSample straps testmode => Sys2Proof.Machine.execStrapSample straps testmode s
  | .pllLockTimeout => Sys2Proof.Machine.execPllLockTimeout s
  | .firmwareStart otpOk errA errB => Sys2Proof.Machine.execFirmwareStart otpOk errA errB s
  | .recoveryImage host image => Sys2Proof.Machine.execRecoveryImage host image s
  | .configApply => Sys2Proof.Machine.execConfigApply s
  | .diesDone sites meshLost postLost => Sys2Proof.Machine.execDiesDone sites meshLost postLost s
  | .zeroPassDone failed => Sys2Proof.Machine.execZeroPassDone failed s
  | .linksDone heath => Sys2Proof.Machine.execLinksDone heath s
  | .hostPerstDeassert => Sys2Proof.Machine.execHostPerstDeassert s
  | .perstAssert => Sys2Proof.Machine.execPerstAssert s
  | .hotReset => Sys2Proof.Machine.execHotReset s
  | .cold key => Sys2Proof.Machine.execCold key s
  | .warm key => Sys2Proof.Machine.execWarm key s
  | .mcWatchdog => Sys2Proof.Machine.execMcWatchdog s
  | .pldmResetRequest => Sys2Proof.Machine.execPldmResetRequest s
  | .firmwareUpdate image complete => Sys2Proof.Machine.execFirmwareUpdate image complete s
  | .cfgsRead addr length => Sys2Proof.Machine.execCfgsRead addr length s
  | .cfgsWrite start ends => Sys2Proof.Machine.execCfgsWrite start ends s
  | .cfgsClear start ends => Sys2Proof.Machine.execCfgsClear start ends s
  | .pwrfailFall => Sys2Proof.Machine.execPwrfailFall s
  | .pwrfailRise => Sys2Proof.Machine.execPwrfailRise s
  | .pwrbrkFall => Sys2Proof.Machine.execPwrbrkFall s
  | .pwrbrkRise => Sys2Proof.Machine.execPwrbrkRise s
  | .throttleTick => Sys2Proof.Machine.execThrottleTick s
  | .sensorSample dies hbm power rails => Sys2Proof.Machine.execSensorSample dies hbm power rails s
  | .clockLoss pll => Sys2Proof.Machine.execClockLoss pll s
  | .getVersion => Sys2Proof.Machine.execGetVersion s
  | .getCapabilities => Sys2Proof.Machine.execGetCapabilities s
  | .negotiateAlgorithms common => Sys2Proof.Machine.execNegotiateAlgorithms common s
  | .getCertificate slot => Sys2Proof.Machine.execGetCertificate slot s
  | .challenge slot => Sys2Proof.Machine.execChallenge slot s
  | .getMeasurements index signed => Sys2Proof.Machine.execGetMeasurements index signed s
  | .keyExchange slot => Sys2Proof.Machine.execKeyExchange slot s
  | .debugUnlock genuine => Sys2Proof.Machine.execDebugUnlock genuine s
  | .mgtRsvRead => Sys2Proof.Machine.execMgtRsvRead s
  | .registerWrite fn write => Sys2Proof.Machine.execRegisterWrite fn write s
  | .badAccess fn off size read => Sys2Proof.Machine.execBadAccess fn off size read s
  | .meshLinkFailure a b => Sys2Proof.Machine.execMeshLinkFailure a b s
  | .postLinkFailure post => Sys2Proof.Machine.execPostLinkFailure post s
  | .dieParityError die => Sys2Proof.Machine.execDieParityError die s
  | .flrTimeout fn => Sys2Proof.Machine.execFlrTimeout fn s
  | .walkerDisable walker cfg => Sys2Proof.Machine.execWalkerDisable walker cfg s
  | .trackerDisable tracker cfg => Sys2Proof.Machine.execTrackerDisable tracker cfg s
  | .frankLinkDown => Sys2Proof.Machine.execFrankLinkDown s
  | .frankLinkUp => Sys2Proof.Machine.execFrankLinkUp s
  | .frkCmdTimeout => Sys2Proof.Machine.execFrkCmdTimeout s
  | .ethLinkUp port mode => Sys2Proof.Machine.execEthLinkUp port mode s
  | .localAckTimeout command => Sys2Proof.Machine.execLocalAckTimeout command s
  | .rdmaRead command offset length ce => Sys2Proof.Machine.execRdmaRead command offset length ce s
  | .rdmaWrite command offset data ce => Sys2Proof.Machine.execRdmaWrite command offset data ce s
  | .vfEnable enable count => Sys2Proof.Machine.execVfEnable enable count s
  | .vddFrkLoss midWrite => Sys2Proof.Machine.execVddFrkLoss midWrite s
  | .p0PowerLoss => Sys2Proof.Machine.execP0PowerLoss s
  | .finish verified => Sys2Proof.Machine.execFinish verified s
  | .getDigests => Sys2Proof.Machine.execGetDigests s
  | .heartbeat => Sys2Proof.Machine.execHeartbeat s
  | .keyUpdate => Sys2Proof.Machine.execKeyUpdate s
  | .endSession => Sys2Proof.Machine.execEndSession s
  | .doeDiscovery length index => Sys2Proof.Machine.execDoeDiscovery length index s
  | .ideKmKeyProg port stream => Sys2Proof.Machine.execIdeKmKeyProg port stream s

end Sys2Proof.Machine
end

