-- ==== Sys2Proof/Machine/Tick.lean ====
section
/-! DEFINITION. What passes with time: one ns of TIME at a step that finds no command (log entry 1). -/

namespace Sys2Proof.Machine

/-- Cores whose cycle counter runs: it starts as the core leaves IDLE and stops in HALTED (Table 4-12). -/
def State.counting (s : State) (c : Nat) : Bool :=
  s.coreState c == coreRunning || s.coreState c == coreWaiting || s.coreState c == coreStalled

/-- First addresses of partition `p`'s granules that a PREFER_MEADOW hint covers and no migration has in hand (R301). -/
def State.preferred (s : State) (p : Nat) : List Nat :=
  (s.granules.filter (fun (e : Nat × Granule) => e.1 / 2 ^ 41 == p && e.2.home != .meadow)).filterMap (fun e =>
    let va := e.1 % 2 ^ 41 * 65536
    match s.page? p va with
    | some (g : PageEnt) => if g.hint = 1 ∧ !s.granMoving p va then some va else none
    | none => none)

/-- One ns: TIME, two CORE cycles of every core that counts, and promotions that PREFER_MEADOW allows now. -/
def State.tick (s : State) : State :=
  if s.pins.held then s
  else
    let s := { s with time := s.time + 1 }
    let s := (List.range 64).foldl (fun s c => if s.counting c then s.bump F.SRT_CYCLE_COUNT c 2 else s) s
    (List.range 32).foldl (fun s p => if s.served p then s.hintGranules p 1 (s.preferred p) else s) s

end Sys2Proof.Machine
end

