-- ==== Sys2Proof/Machine/Step.lean ====
section
/-! DEFINITION. One step of the block: the command at the front of the queue, or one ns where none waits. -/

namespace Sys2Proof.Machine

/-- The state with a command's effect pending: the queue without its front. -/
def State.rest (s : State) (cs : List Instr) : State := { s with pending := cs }

/-- One step. -/
def step (s : State) : Host.Outcome State Fault Refusal :=
  match s.pending with
  | [] => .next s.tick
  | c :: cs => exec c (s.rest cs)

/-- A command put at the front of the queue. -/
def State.ask (s : State) (c : Instr) : State := { s with pending := c :: s.pending }

/-- The state with the command a table word spells in front of its queue; the table gives no row any bits. -/
def State.withFetchWord (s : State) (nbits w : Nat) : State :=
  match decodeTableWord nbits w with
  | some c => s.ask c
  | none => s

end Sys2Proof.Machine
end

