-- ==== Sys2Proof/Safety.lean ====
section
/-! DEFINITION. The terms the statements use: the canonical form of memory, when a Sorter core is at a word it runs, and
what a statement says stays the same. -/

namespace Sys2Proof

open Sys2Proof.Machine

/-- Memory in its one canonical form: addresses rise strictly, and no listed byte is the 0 that an unlisted address reads
as (log entry 9). -/
abbrev Memory.wf (m : List Host.Cell) : Prop := Tab.wf (fun _ => (0 : Byte)) m = true

/-- Frank's form (R559, R561): at most 16 records and 64 log entries; counters within 32 bits; the energy and its remainder
within their widths; the running millisecond and LOG_SEL in range; and the same of the records and of what a bank holds. -/
structure Machine.Frank.Sound (f : Frank) : Prop where
  ring : f.ring.length ≤ 16
  log : f.log.length ≤ 64
  audit : f.audit < 2 ^ 32
  ignored : f.ignored < 2 ^ 32
  remainder : f.remainder < 2 ^ 32
  energy : f.energy < 2 ^ 64
  nextSeq : f.nextSeq < 2 ^ 32
  logSel : f.logSel ≤ 63
  msCount : f.msCount < 16
  records : ∀ r ∈ f.ring, r.energy < 2 ^ 64 ∧ r.seq < 2 ^ 32
  banks : ∀ b, (f.bankA = some b ∨ f.bankB = some b) → b.log.length ≤ 64 ∧ b.audit < 2 ^ 32 ∧ b.ignored < 2 ^ 32 ∧
    b.remainder < 2 ^ 32 ∧ b.energy < 2 ^ 64 ∧ b.nextSeq < 2 ^ 32

/-- The form every step keeps: memory in its one canonical form, and Frank's. -/
structure Machine.State.Sound (s : Machine.State) : Prop where
  mem : Memory.wf s.mem
  frank : s.frank.Sound

/-- The command of a core instruction's row. -/
def Ulital.Kind.instr (k : Ulital.Kind) (core : BitVec 6) (w : Word) (e : CoreErr) : Instr :=
  match k with
  | .alu => .alu core w e | .alui => .alui core w e | .movi => .movi core w e | .movhi => .movhi core w e
  | .mul => .mul core w e | .div => .div core w e | .cmp => .cmp core w e | .cmpi => .cmpi core w e
  | .pred => .pred core w e | .bra => .bra core w e | .call => .call core w e | .jr => .jr core w e
  | .callr => .callr core w e | .sload => .sload core w e | .sstore => .sstore core w e | .load => .load core w e
  | .store => .store core w e | .amo => .amo core w e | .csrr => .csrr core w e | .csrw => .csrw core w e
  | .tld => .tld core w e | .tst => .tst core w e | .tmov => .tmov core w e | .tzero => .tzero core w e
  | .tset => .tset core w e | .tget => .tget core w e | .tldd => .tldd core w e | .tstd => .tstd core w e
  | .moveIntake => .moveIntake core w e | .moveCopy => .moveCopy core w e | .moveSend => .moveSend core w e
  | .press => .press core w e | .unpress => .unpress core w e | .spill => .spill core w e | .fetch => .fetch core w e
  | .fetchRecall => .fetchRecall core w e | .teddOp => .teddOp core w e | .teddRegrow => .teddRegrow core w e
  | .layout => .layout core w e | .deliver => .deliver core w e | .deliverLattice => .deliverLattice core w e
  | .notify => .notify core w e | .tileDrop => .tileDrop core w e | .tileRelabel => .tileRelabel core w e
  | .rstage => .rstage core w e | .eadv => .eadv core w e | .wait => .wait core w e | .signal => .signal core w e
  | .sread => .sread core w e | .fence => .fence core w e | .halt => .halt core w e | .brk => .brk core w e
  | .tret => .tret core w e

/-- The row is an engine instruction, after which engine work that can proceed does. -/
def Ulital.Kind.isEngine (k : Ulital.Kind) : Bool := Ulital.isC k

namespace Machine

/-- The fetch and the register files are sound: no class F error stands before the instruction's body. -/
def CoreErr.fetchOk : CoreErr → Bool
  | .code => false
  | .regfile _ => false
  | _ => true

/-- Core `c` is RUNNING and the word at its PC, `w`, is an instruction of row `k` of its image's version. -/
def State.fetches (s : State) (c : Nat) (w : Word) (k : Ulital.Kind) : Bool :=
  !s.stopped && s.coreState c == coreRunning && Ulital.kind? w == some k && Ulital.reservedZero w k &&
    (if s.isV1 c then Ulital.v1Ok w k else Ulital.urgOk w k)

/-- The guard of the word holds (R168). -/
def State.guarded (s : State) (c : Nat) (w : Word) : Bool := s.p c (Ulital.gpred w) == (Ulital.gsense w == 0)

/-- Core `c` runs the word `w` of row `k` now: PC valid, the guard true, no imprecise trap waiting. -/
def State.runs (s : State) (c : Nat) (w : Word) (k : Ulital.Kind) (e : CoreErr) : Bool :=
  s.fetches c w k && e.fetchOk && s.pcValid c && s.guarded c w && (s.imprecise? c).isNone

/-- The state with PC moved past the instruction. -/
def State.past (s : State) (c : Nat) : State := s.setPc c (s.pc c + 8)

/-- Register instances outside the list read as before. -/
def regsBut (s t : State) (l : List (Reg × Nat)) : Prop :=
  ∀ r i, i < 131072 → (r, i) ∉ l → t.reg r i = s.reg r i

/-- Only registers of core `c` differ in the register file: PC, SRT_INSTRET and those listed. -/
def coreRegs (s t : State) (c : Nat) (l : List Reg) : Prop :=
  regsBut s t ((Reg.SRT_PC :: Reg.SRT_INSTRET :: l).map (fun r => (r, c)))

/-- The instruction of core `c` retired: SRT_INSTRET counts it. -/
def retired (s t : State) (c : Nat) : Prop :=
  t.rd F.SRT_INSTRET_COUNT c = (s.rd F.SRT_INSTRET_COUNT c + 1) % 2 ^ 64

/-- PC is at the next word. -/
def nextPc (s t : State) (c : Nat) : Prop := t.pc c = (s.pc c + 8) % 2 ^ 32

/-- Nothing but the register file and the g registers differs; g register `r` of core `c` holds `v` and every other as
before. A write of g0 is discarded (R127). -/
def onlyG (s t : State) (c r : Nat) (v : Word) : Prop :=
  t = { s with regs := t.regs, gregs := t.gregs } ∧
    ∀ d q, q < 32 → t.g d q = if d = c ∧ q = r ∧ r ≠ 0 then v else s.g d q

/-- Nothing but the register file and the p registers differs; p register `r` of core `c` holds `v`. A write of p0 is
discarded (R127). -/
def onlyP (s t : State) (c r : Nat) (v : Bool) : Prop :=
  t = { s with regs := t.regs, pregs := t.pregs } ∧
    ∀ d q, q < 8 → t.p d q = if d = c ∧ q = r ∧ r ≠ 0 then v else s.p d q

/-- Nothing but the register file and the t registers differs; t register `r` of core `c` holds `v`. -/
def onlyT (s t : State) (c r : Nat) (v : Beat) : Prop :=
  t = { s with regs := t.regs, tregs := t.tregs } ∧
    ∀ d q, q < 16 → t.t d q = if d = c ∧ q = r then v else s.t d q

/-- Nothing but the register file and scratch differs; the bytes of core `c` from local address `a` on are `bs`. -/
def onlyScratch (s t : State) (c a : Nat) (bs : List Byte) : Prop :=
  t = { s with regs := t.regs, scratch := t.scratch } ∧
    ∀ d x, x < 262144 → t.scratchByte d x =
      if d = c ∧ a ≤ x ∧ x < a + bs.length then bs.getD (x - a) 0 else s.scratchByte d x

/-- Nothing but the register file differs. -/
def onlyRegs (s t : State) : Prop := t = { s with regs := t.regs }

/-- A class H trap of core `c` has entered its handler (R151): cause, detail, value, the saved PC; the handler's address;
IN_TRAP. -/
def trapped (s t : State) (c : Nat) (x : Trap) (imprecise : Bool) (pc : Nat) : Prop :=
  onlyRegs s t ∧ t.rd F.SRT_TRAP_CAUSE_CAUSE c = x.code % 2 ^ 8 ∧ t.rdb F.SRT_TRAP_CAUSE_IMPRECISE c = imprecise ∧
    t.rd F.SRT_TRAP_CAUSE_DETAIL c = x.detail % 2 ^ 4 ∧ t.rd F.SRT_TRAP_PC_PC c = pc % 2 ^ 32 ∧
    t.rd F.SRT_TRAP_VALUE_VALUE c = x.value % 2 ^ 64 ∧ t.rdb F.SRT_STATUS_IN_TRAP c = true ∧
    t.pc c = s.rd F.SRT_TRAP_VEC_ADDR c * 8 ∧ t.coreState c = coreRunning ∧
    coreRegs s t c [Reg.SRT_TRAP_CAUSE, Reg.SRT_TRAP_PC, Reg.SRT_TRAP_VALUE, Reg.SRT_STATUS] ∧
    t.reg Reg.SRT_INSTRET c = s.reg Reg.SRT_INSTRET c

/-- A trap of core `c` would enter a handler: one is enabled and none runs (R151, R153). -/
def State.handles (s : State) (c : Nat) : Bool := !s.rdb F.SRT_STATUS_IN_TRAP c && s.rdb F.SRT_TRAP_VEC_EN c

/-- Outside the `n` locations from `k` every byte of memory reads as before. -/
def memBut (s t : State) (k n : Nat) : Prop := ∀ j, (j < k ∨ k + n ≤ j) → t.byte j = s.byte j

end Machine
end Sys2Proof
end

