-- ==== Sys2Proof/Certificates/Slice0/Obligations.lean ====
section
/-! DEFINITION. The statements for the provers: what the commands and the machine do, by the spec's numbered rules. Commands of
Sorter cores come first, then work items, channels and links, the units, errors and start-up, registers, Courier and
Ethernet, Frank, and the whole machine. -/

open Sys2Proof Sys2Proof.Machine Sys2Proof.Ulital

/-- One step of the block: the command at the front of the queue has its effect on the rest of the state, and the
queue keeps what stood behind it; and no command stops the block: whatever the state and the operands, a command
answers a next state. -/
def Obligations.StepRunsTheFrontCommand : Prop :=
  ((∀ (c : Instr) (s : State), step (s.ask c) = exec c s) ∧
   (∀ (s : State) (c : Instr) (cs : List Instr), s.pending = c :: cs → step s = exec c { s with pending := cs })) ∧
  (∀ (c : Instr) (s : State), ∃ t, exec c s = .next t)

/-- An idle block passes one ns (the model's choice, log entry 1): a held device stands still; otherwise, where no
promotion of a PREFER_MEADOW page is due (R301), TIME counts one, each core that runs, waits or stalls counts two
cycles, and nothing else changes. -/
def Obligations.IdleStepPassesOneNanosecond : Prop :=
  ∀ s : State, s.pending = [] → (∀ p, p < 32 → s.preferred p = []) → ∃ t, step s = .next t ∧
    (s.pins.held = true → t = s) ∧
    (s.pins.held = false → t = { s with time := s.time + 1, regs := t.regs } ∧
      (∀ c, c < 64 → t.rd F.SRT_CYCLE_COUNT c =
        if s.coreState c = coreRunning ∨ s.coreState c = coreWaiting ∨ s.coreState c = coreStalled then
          (s.rd F.SRT_CYCLE_COUNT c + 2) % 2 ^ 64 else s.rd F.SRT_CYCLE_COUNT c) ∧
      ∀ r i, i < 131072 → (r ≠ .SRT_CYCLE ∨ 64 ≤ i) → t.reg r i = s.reg r i)

/-- The results of the ALU, multiply and divide groups as numbers (Table 5-4, R172, R174). -/
def Obligations.ArithmeticResults : Prop :=
  ∀ (a b : Word) (p : Bool),
    (aluOp 0 a b p).toNat = (a.toNat + b.toNat) % 2 ^ 64 ∧
    (aluOp 1 a b p).toNat = (a.toNat + 2 ^ 64 - b.toNat) % 2 ^ 64 ∧
    (∀ i, i < 64 → (aluOp 2 a b p).getLsbD i = (a.getLsbD i && b.getLsbD i)) ∧
    (∀ i, i < 64 → (aluOp 3 a b p).getLsbD i = (a.getLsbD i || b.getLsbD i)) ∧
    (∀ i, i < 64 → (aluOp 4 a b p).getLsbD i = (a.getLsbD i != b.getLsbD i)) ∧
    (aluOp 5 a b p).toNat = a.toNat * 2 ^ (b.toNat % 64) % 2 ^ 64 ∧
    (aluOp 6 a b p).toNat = a.toNat / 2 ^ (b.toNat % 64) ∧
    (aluOp 7 a b p).toInt = a.toInt / 2 ^ (b.toNat % 64) ∧
    (aluOp 8 a b p).toInt = min a.toInt b.toInt ∧ (aluOp 9 a b p).toInt = max a.toInt b.toInt ∧
    (aluOp 10 a b p).toNat = min a.toNat b.toNat ∧ (aluOp 11 a b p).toNat = max a.toNat b.toNat ∧
    aluOp 12 a b p = (if p then a else b) ∧
    (∀ n, n ≤ 64 → ((aluOp 13 a b p).toNat = n ↔ (a.toNat < 2 ^ (64 - n) ∧ (n < 64 → 2 ^ (63 - n) ≤ a.toNat)))) ∧
    (aluOp 14 a b p).toNat = ((List.range 64).filter (fun i => a.getLsbD i)).length ∧
    (mulOp 0 a b).toNat = a.toNat * b.toNat % 2 ^ 64 ∧
    (mulOp 1 a b).toNat = a.toNat * b.toNat / 2 ^ 64 ∧
    (mulOp 2 a b).toInt = a.toInt * b.toInt / 2 ^ 64 ∧
    (b ≠ 0 → (divOp 3 a b).toNat = a.toNat / b.toNat ∧ (divOp 5 a b).toNat = a.toNat % b.toNat ∧
      (¬ (a.toInt = -2 ^ 63 ∧ b.toInt = -1) → (divOp 4 a b).toInt = Int.tdiv a.toInt b.toInt) ∧
      (a.toInt = -2 ^ 63 ∧ b.toInt = -1 → (divOp 4 a b).toInt = -2 ^ 63) ∧
      (divOp 6 a b).toInt = Int.tmod a.toInt b.toInt)

/-- The scalar instructions that write a g register complete with the result in RD, PC at the next word, and nothing
else of the machine changed but SRT_INSTRET. Branches and calls complete at their target, the sum of a 64-bit base and
the sign-extended offset kept in the 32-bit PC; a call leaves the address of the next word in RD. -/
def Obligations.ScalarResultsAndBranches : Prop :=
  (∀ (core : BitVec 6) (w : Word) (e : CoreErr) (s : State),
     (s.runs core.toNat w .alu e → ∃ t, exec (.alu core w e) s = .next t ∧
       onlyG s t core.toNat (rd w) (aluOp (func w) (s.g core.toNat (rs1 w)) (s.g core.toNat (rs2 w)) (s.p core.toNat (ps1 w))) ∧
       nextPc s t core.toNat ∧ retired s t core.toNat ∧ coreRegs s t core.toNat []) ∧
     (s.runs core.toNat w .alui e → ∃ t, exec (.alui core w e) s = .next t ∧
       onlyG s t core.toNat (rd w) (aluOp (func w) (s.g core.toNat (rs1 w)) ((w.setWidth 32).signExtend 64) false) ∧
       nextPc s t core.toNat ∧ retired s t core.toNat ∧ coreRegs s t core.toNat []) ∧
     (s.runs core.toNat w .movi e → ∃ t, exec (.movi core w e) s = .next t ∧
       onlyG s t core.toNat (rd w) ((w.setWidth 32).signExtend 64) ∧
       nextPc s t core.toNat ∧ retired s t core.toNat ∧ coreRegs s t core.toNat []) ∧
     (s.runs core.toNat w .movhi e → ∃ t, exec (.movhi core w e) s = .next t ∧
       onlyG s t core.toNat (rd w) ((w.setWidth 32) ++ (s.g core.toNat (rd w)).setWidth 32 : BitVec 64) ∧
       nextPc s t core.toNat ∧ retired s t core.toNat ∧ coreRegs s t core.toNat []) ∧
     (s.runs core.toNat w .mul e → ∃ t, exec (.mul core w e) s = .next t ∧
       onlyG s t core.toNat (rd w) (mulOp (func w) (s.g core.toNat (rs1 w)) (s.g core.toNat (rs2 w))) ∧
       nextPc s t core.toNat ∧ retired s t core.toNat ∧ coreRegs s t core.toNat []) ∧
     (s.runs core.toNat w .div e → s.g core.toNat (rs2 w) ≠ 0 → ∃ t, exec (.div core w e) s = .next t ∧
       onlyG s t core.toNat (rd w) (divOp (func w) (s.g core.toNat (rs1 w)) (s.g core.toNat (rs2 w))) ∧
       nextPc s t core.toNat ∧ retired s t core.toNat ∧ coreRegs s t core.toNat [])) ∧
  (∀ (core : BitVec 6) (w : Word) (e : CoreErr) (s : State),
     let c := core.toNat
     let off := (w.setWidth 32).toInt
     (s.runs c w .bra e → ∃ t, exec (.bra core w e) s = .next t ∧ onlyRegs s t ∧
       (t.pc c : Int) = ((s.pc c : Int) + off) % 2 ^ 32 ∧ retired s t c ∧ coreRegs s t c []) ∧
     (s.runs c w .call e → ∃ t, exec (.call core w e) s = .next t ∧
       onlyG s t c (rd w) (BitVec.ofNat 64 ((s.pc c + 8) % 2 ^ 32)) ∧
       (t.pc c : Int) = ((s.pc c : Int) + off) % 2 ^ 32 ∧ retired s t c ∧ coreRegs s t c []) ∧
     (s.runs c w .jr e → ∃ t, exec (.jr core w e) s = .next t ∧ onlyRegs s t ∧
       (t.pc c : Int) = (((s.g c (rs1 w)).toNat : Int) + off) % 2 ^ 32 ∧ retired s t c ∧ coreRegs s t c []) ∧
     (s.runs c w .callr e → ∃ t, exec (.callr core w e) s = .next t ∧
       onlyG s t c (rd w) (BitVec.ofNat 64 ((s.pc c + 8) % 2 ^ 32)) ∧
       (t.pc c : Int) = (((s.g c (rs1 w)).toNat : Int) + off) % 2 ^ 32 ∧ retired s t c ∧ coreRegs s t c []))

/-- The compares and the predicate operations complete: their result is in PD (or, for GETP, in RD), PC at the next
word, and nothing else changed. -/
def Obligations.PredicateInstructionsWritePd : Prop :=
  ∀ (core : BitVec 6) (w : Word) (e : CoreErr) (s : State),
    let c := core.toNat
    (s.runs c w .cmp e → ∃ t, exec (.cmp core w e) s = .next t ∧
      onlyP s t c (pdA w) (match func w with
        | 0 => s.g c (rs1 w) == s.g c (rs2 w)
        | 1 => s.g c (rs1 w) != s.g c (rs2 w)
        | 2 => decide ((s.g c (rs1 w)).toInt < (s.g c (rs2 w)).toInt)
        | 3 => decide ((s.g c (rs2 w)).toInt ≤ (s.g c (rs1 w)).toInt)
        | 4 => decide ((s.g c (rs1 w)).toNat < (s.g c (rs2 w)).toNat)
        | _ => decide ((s.g c (rs2 w)).toNat ≤ (s.g c (rs1 w)).toNat)) ∧
      nextPc s t c ∧ retired s t c ∧ coreRegs s t c []) ∧
    (s.runs c w .cmpi e → ∃ t, exec (.cmpi core w e) s = .next t ∧
      onlyP s t c (pdI w) (match func w with
        | 0 => s.g c (rs1 w) == (w.setWidth 32).signExtend 64
        | 1 => s.g c (rs1 w) != (w.setWidth 32).signExtend 64
        | 2 => decide ((s.g c (rs1 w)).toInt < (w.setWidth 32).toInt)
        | 3 => decide ((w.setWidth 32).toInt ≤ (s.g c (rs1 w)).toInt)
        | 4 => decide ((s.g c (rs1 w)).toNat < ((w.setWidth 32).signExtend 64 : Word).toNat)
        | _ => decide (((w.setWidth 32).signExtend 64 : Word).toNat ≤ (s.g c (rs1 w)).toNat)) ∧
      nextPc s t c ∧ retired s t c ∧ coreRegs s t c []) ∧
    (s.runs c w .pred e → func w ≤ 5 → ∃ t, exec (.pred core w e) s = .next t ∧
      onlyP s t c (pdA w) (match func w with
        | 0 => s.p c (ps1 w) && s.p c (ps2 w)
        | 1 => s.p c (ps1 w) || s.p c (ps2 w)
        | 2 => s.p c (ps1 w) != s.p c (ps2 w)
        | 3 => s.p c (ps1 w) && !s.p c (ps2 w)
        | 4 => !s.p c (ps1 w)
        | _ => s.g c (rs1 w) != 0) ∧
      nextPc s t c ∧ retired s t c ∧ coreRegs s t c []) ∧
    (s.runs c w .pred e → func w = 6 → ∃ t, exec (.pred core w e) s = .next t ∧
      (∃ v : Word, onlyG s t c (rd w) v ∧
        ∀ i, v.getLsbD i = (decide (i < if s.isV1 c then 4 else 8) && s.p c i)) ∧
      nextPc s t c ∧ retired s t c ∧ coreRegs s t c []) ∧
    (s.runs c w .pred e → func w = 7 → ∃ t, exec (.pred core w e) s = .next t ∧
      t = { s with regs := t.regs, pregs := t.pregs } ∧
      (∀ d q, q < 8 → t.p d q =
        if d = c ∧ q ≠ 0 ∧ q < (if s.isV1 c then 4 else 8) then (s.g c (rs1 w)).getLsbD q else s.p d q) ∧
      nextPc s t c ∧ retired s t c ∧ coreRegs s t c [])

/-- Scratch loads and stores complete on an aligned address inside the local map: a load gives the little-endian
bytes, zero- or sign-extended; a store writes the low bytes of its register and no other byte. The tensor-register
moves and field accesses complete: TSET writes the field and keeps every other bit, TGET reads it. -/
def Obligations.ScratchAndTensorRegisters : Prop :=
  (∀ (core : BitVec 6) (w : Word) (e : CoreErr) (s : State),
     let c := core.toNat
     let a := (s.g c (rs1 w) + (w.setWidth 32).signExtend 64).toNat
     let b := (s.g c (rg w) + (w.setWidth 20).signExtend 64).toNat
     let top := if s.isV1 c then 0x20000 else 0x40000
     let tickets := if s.isV1 c then 0x1C000 else 0x3C000
     (∀ n, n ≤ 3 → func w = n → s.runs c w .sload e → e ≠ .scratch → a % 2 ^ n = 0 → a + 2 ^ n ≤ top →
       ∃ t, exec (.sload core w e) s = .next t ∧
         onlyG s t c (rd w) (BitVec.ofNat 64 (ofLe (s.scratchRead c a (2 ^ n)))) ∧
         nextPc s t c ∧ retired s t c ∧ coreRegs s t c []) ∧
     (∀ n, n ≤ 2 → func w = 4 + n → s.runs c w .sload e → e ≠ .scratch → a % 2 ^ n = 0 → a + 2 ^ n ≤ top →
       ∃ t v, exec (.sload core w e) s = .next t ∧ onlyG s t c (rd w) v ∧
         v.toInt = (BitVec.ofNat (8 * 2 ^ n) (ofLe (s.scratchRead c a (2 ^ n)))).toInt ∧
         nextPc s t c ∧ retired s t c ∧ coreRegs s t c []) ∧
     (∀ n, n ≤ 3 → func w = n → s.runs c w .sstore e → a % 2 ^ n = 0 → a + 2 ^ n ≤ tickets →
       ∃ t, exec (.sstore core w e) s = .next t ∧ onlyScratch s t c a (leBytes (2 ^ n) (s.g c (rd w)).toNat) ∧
         nextPc s t c ∧ retired s t c ∧ coreRegs s t c []) ∧
     (s.runs c w .tld e → e ≠ .scratch → b % 64 = 0 → b + 64 ≤ top →
       ∃ t, exec (.tld core w e) s = .next t ∧ onlyT s t c (td w) (BitVec.ofNat 512 (ofLe (s.scratchRead c b 64))) ∧
         nextPc s t c ∧ retired s t c ∧ coreRegs s t c []) ∧
     (s.runs c w .tst e → b % 64 = 0 → b + 64 ≤ tickets →
       ∃ t, exec (.tst core w e) s = .next t ∧ onlyScratch s t c b (leBytes 64 (s.t c (ts w)).toNat) ∧
         nextPc s t c ∧ retired s t c ∧ coreRegs s t c [])) ∧
  (∀ (core : BitVec 6) (w : Word) (e : CoreErr) (s : State),
     let c := core.toNat
     (s.runs c w .tmov e → ∃ t, exec (.tmov core w e) s = .next t ∧ onlyT s t c (td w) (s.t c (ts w)) ∧
       nextPc s t c ∧ retired s t c ∧ coreRegs s t c []) ∧
     (s.runs c w .tzero e → ∃ t, exec (.tzero core w e) s = .next t ∧ onlyT s t c (td w) 0 ∧
       nextPc s t c ∧ retired s t c ∧ coreRegs s t c []) ∧
     (s.runs c w .tset e → ∃ t v, exec (.tset core w e) s = .next t ∧ onlyT s t c (td w) v ∧
       (∀ i, i < 512 → v.getLsbD i = if pos w ≤ i ∧ i < pos w + wm1 w + 1 then (s.g c (rg w)).getLsbD (i - pos w)
         else (s.t c (td w)).getLsbD i) ∧
       nextPc s t c ∧ retired s t c ∧ coreRegs s t c []) ∧
     (s.runs c w .tget e → ∃ t v, exec (.tget core w e) s = .next t ∧ onlyG s t c (rg w) v ∧
       (∀ i, i < 64 → v.getLsbD i = (decide (i ≤ wm1 w) && (s.t c (ts w)).getLsbD (pos w + i))) ∧
       nextPc s t c ∧ retired s t c ∧ coreRegs s t c []))

/-- CSR access: CSRR puts the CSR's value in RD; CSRW writes SRT_TRAP_VEC and SRT_TRAP_PC. HALT halts the core with
cause 1 and its immediate in SRT_EXIT; BRK enters the handler with cause 0x0F and its immediate; TRET in a handler
clears IN_TRAP and continues at SRT_TRAP_PC. -/
def Obligations.SystemInstructions : Prop :=
  (∀ (core : BitVec 6) (w : Word) (e : CoreErr) (s : State),
     let c := core.toNat
     let v := (s.g c (rs1 w)).toNat
     (s.runs c w .csrr e → ∃ t, exec (.csrr core w e) s = .next t ∧ onlyG s t c (rd w) (s.csr c (field w 0 12)) ∧
       nextPc s t c ∧ retired s t c ∧ coreRegs s t c []) ∧
     (s.runs c w .csrw e → field w 0 12 = 4 → ∃ t, exec (.csrw core w e) s = .next t ∧ onlyRegs s t ∧
       t.rd F.SRT_TRAP_VEC_EN c = v % 2 ∧ t.rd F.SRT_TRAP_VEC_ADDR c = v / 8 % 2 ^ 29 ∧
       nextPc s t c ∧ retired s t c ∧ coreRegs s t c [Reg.SRT_TRAP_VEC]) ∧
     (s.runs c w .csrw e → field w 0 12 = 6 → ∃ t, exec (.csrw core w e) s = .next t ∧ onlyRegs s t ∧
       t.rd F.SRT_TRAP_PC_PC c = v % 2 ^ 32 ∧
       nextPc s t c ∧ retired s t c ∧ coreRegs s t c [Reg.SRT_TRAP_PC])) ∧
  (∀ (core : BitVec 6) (w : Word) (e : CoreErr) (s : State),
     let c := core.toNat
     (s.runs c w .halt e → ∃ t, exec (.halt core w e) s = .next t ∧
       t = { s with regs := t.regs, cores := t.cores } ∧ t.rd F.SRT_EXIT_CODE c = w.toNat % 2 ^ 32 ∧
       t.coreState c = coreHalted ∧ t.rd F.SRT_STATUS_HALT_CAUSE c = 1 ∧ t.rd F.SRT_CTRL_HALT_REQ c = 0 ∧
       nextPc s t c ∧ retired s t c ∧ coreRegs s t c [Reg.SRT_EXIT, Reg.SRT_STATUS, Reg.SRT_CTRL]) ∧
     (s.runs c w .brk e → s.handles c → ∃ t, exec (.brk core w e) s = .next t ∧
       trapped s t c ⟨0x0F, w.toNat % 2 ^ 32, 0⟩ false (s.pc c)) ∧
     (s.runs c w .tret e → s.rdb F.SRT_STATUS_IN_TRAP c → ∃ t, exec (.tret core w e) s = .next t ∧ onlyRegs s t ∧
       t.rdb F.SRT_STATUS_IN_TRAP c = false ∧ t.pc c = s.rd F.SRT_TRAP_PC_PC c ∧
       retired s t c ∧ coreRegs s t c [Reg.SRT_STATUS]))

/-- The traps an instruction's own operands raise: division by zero, an unaligned or out-of-range scratch access, a
CSR that takes no write, TRET outside a handler. The handler is entered with PC at the instruction, and nothing but
the trap registers changes. A load that fails a check of translation, protection or tier enters the handler with that
check's trap; an address of 2^57 or more, or one that is unaligned, is the trap's value. -/
def Obligations.PreciseTraps : Prop :=
  (∀ (core : BitVec 6) (w : Word) (e : CoreErr) (s : State), s.handles core.toNat →
     let c := core.toNat
     let a := (s.g c (rs1 w) + (w.setWidth 32).signExtend 64).toNat
     (s.runs c w .div e → s.g c (rs2 w) = 0 →
       ∃ t, exec (.div core w e) s = .next t ∧ trapped s t c ⟨0x0E, 0, 0⟩ false (s.pc c)) ∧
     (∀ n, n ≤ 3 → func w = n → s.runs c w .sstore e → a < 2 ^ 32 → a % 2 ^ n ≠ 0 →
       ∃ t, exec (.sstore core w e) s = .next t ∧ trapped s t c ⟨0x06, a, 0⟩ false (s.pc c)) ∧
     (∀ n, n ≤ 3 → func w = n → s.runs c w .sstore e → a % 2 ^ n = 0 →
         (if s.isV1 c then 0x1C000 else 0x3C000) < a + 2 ^ n →
       ∃ t, exec (.sstore core w e) s = .next t ∧ trapped s t c ⟨0x05, a, 0⟩ false (s.pc c)) ∧
     (s.runs c w .csrw e → field w 0 12 ≠ 4 → field w 0 12 ≠ 6 →
       ∃ t, exec (.csrw core w e) s = .next t ∧ trapped s t c ⟨0x03, 9 + 256 * field w 0 12, 0⟩ false (s.pc c)) ∧
     (s.runs c w .tret e →
       ∃ t, exec (.tret core w e) s = .next t ∧ trapped s t c ⟨0x01, w.toNat, 0⟩ false (s.pc c))) ∧
  (∀ (core : BitVec 6) (w : Word) (e : CoreErr) (s : State) (x : Trap),
     let c := core.toNat
     let a := (s.g c (rs1 w) + (w.setWidth 32).signExtend 64).toNat
     s.runs c w .load e → s.handles c → (s.past c).memTrap? (s.corePart c) a (loadForm (func w)).1 false = some x →
       ∃ t, exec (.load core w e) s = .next t ∧ trapped (s.past c) t c x false (s.pc c) ∧
         (2 ^ 57 ≤ a → x = ⟨0x07, a, 0⟩) ∧ (a < 2 ^ 57 → a % (loadForm (func w)).1 ≠ 0 → x = ⟨0x06, a, 0⟩))

/-- Fetch outside the CODE section: every row but the engine instructions takes FETCH_RANGE (0x04) with PC as its
value. An instruction whose guard is false does nothing but advance PC and retire (R129); after an engine
instruction's row, engine work that can proceed does. -/
def Obligations.FetchAndGuard : Prop :=
  (∀ (k : Ulital.Kind) (core : BitVec 6) (w : Word) (e : CoreErr) (s : State), k.isEngine = false →
     s.fetches core.toNat w k → e.fetchOk → s.pcValid core.toNat = false → s.handles core.toNat →
     ∃ t, exec (k.instr core w e) s = .next t ∧
       trapped s t core.toNat ⟨0x04, s.pc core.toNat, 0⟩ false (s.pc core.toNat)) ∧
  (∀ (k : Ulital.Kind) (core : BitVec 6) (w : Word) (e : CoreErr) (s : State),
     s.fetches core.toNat w k → e.fetchOk → s.pcValid core.toNat → s.guarded core.toNat w = false →
     (s.imprecise? core.toNat).isNone →
     ∃ t, exec (k.instr core w e) s = .next (if k.isEngine then t.pumpAll else t) ∧ onlyRegs s t ∧
       nextPc s t core.toNat ∧ retired s t core.toNat ∧ coreRegs s t core.toNat [])

/-- A trap inside a handler halts the core with cause 4 and the first trap's registers stand (R153). With no handler
enabled the core halts with cause 3 and the trap registers take the trap. The imprecise trap of a failed store is
taken at the next instruction boundary outside a handler (R141), shown for MOVI: the handler is entered with IMPRECISE
set and PC at the instruction to run next. -/
def Obligations.TrapsWithoutAHandlerAndImprecise : Prop :=
  (∀ (s : State) (c : Nat) (x : Trap) (imprecise : Bool) (pc : Nat), c < 64 →
     (s.rdb F.SRT_STATUS_IN_TRAP c = true → ∃ u : State, s.takeTrap c x imprecise pc = u.irq (s.corePart c) 2 ∧
       u.coreState c = coreHalted ∧ u.rd F.SRT_STATUS_HALT_CAUSE c = 4 ∧
       regsBut s u [(Reg.SRT_STATUS, c), (Reg.SRT_CTRL, c)] ∧ u = { s with regs := u.regs, cores := u.cores }) ∧
     (s.rdb F.SRT_STATUS_IN_TRAP c = false → s.rdb F.SRT_TRAP_VEC_EN c = false →
       ∃ u : State, s.takeTrap c x imprecise pc = u.irq (s.corePart c) 2 ∧
         u.coreState c = coreHalted ∧ u.rd F.SRT_STATUS_HALT_CAUSE c = 3 ∧
         u.rd F.SRT_TRAP_CAUSE_CAUSE c = x.code % 2 ^ 8 ∧ u.rd F.SRT_TRAP_PC_PC c = pc % 2 ^ 32 ∧
         u.rd F.SRT_TRAP_VALUE_VALUE c = x.value % 2 ^ 64 ∧ u.rdb F.SRT_TRAP_CAUSE_IMPRECISE c = imprecise ∧
         u.pc c = s.pc c ∧ u = { s with regs := u.regs, cores := u.cores })) ∧
  (∀ (core : BitVec 6) (w : Word) (e : CoreErr) (s : State) (va : Nat),
     let c := core.toNat
     s.fetches c w .movi → e.fetchOk → s.pcValid c → s.handles c → (s.core c).async = some va →
     ∃ t, exec (.movi core w e) s = .next t ∧ t.gregs = s.gregs ∧ (t.core c).async = none ∧
       t.rd F.SRT_TRAP_CAUSE_CAUSE c = 0x10 ∧ t.rdb F.SRT_TRAP_CAUSE_IMPRECISE c = true ∧
       t.rd F.SRT_TRAP_PC_PC c = s.pc c ∧ t.rd F.SRT_TRAP_VALUE_VALUE c = va % 2 ^ 64 ∧
       t.pc c = s.rd F.SRT_TRAP_VEC_ADDR c * 8 ∧ t.rdb F.SRT_STATUS_IN_TRAP c = true ∧
       t.rdb F.SRT_STATUS_ASYNC_PENDING c = false)

/-- Device-memory instructions complete where translation and the tier allow: the load's bytes are extended into RD,
the atomic returns the old bytes and stores the new, the descriptor forms move 64 bytes. `s.past c` is the state with
PC at the next word. -/
def Obligations.DeviceMemoryInstructions : Prop :=
  ∀ (core : BitVec 6) (w : Word) (e : CoreErr) (s : State),
    let c := core.toNat
    let a := (s.g c (rs1 w) + (w.setWidth 32).signExtend 64).toNat
    let b := (s.g c (rg w) + (w.setWidth 20).signExtend 64).toNat
    let x := (s.g c (rs1 w)).toNat
    let n := if func w % 2 = 0 then 4 else 8
    (∀ bs u, s.runs c w .load e → (s.past c).coreRead c a (loadForm (func w)).1 e = .ok (bs, u) →
      exec (.load core w e) s = .next ((u.setG c (rd w) (extendLoad bs (loadForm (func w)).2)).retire c)) ∧
    (∀ u, s.runs c w .store e → (s.past c).memTrap? (s.corePart c) a (2 ^ func w) true = none →
      (s.past c).coreStore c a (leBytes (2 ^ func w) (s.g c (rd w)).toNat) = some u →
      exec (.store core w e) s = .next (u.retire c)) ∧
    (∀ bs u, s.runs c w .amo e → (s.isV1 c || s.feature 10) →
      (s.past c).memTrap? (s.corePart c) x n true = none → (s.core c).stores = [] →
      (s.past c).coreRead c x n e = .ok (bs, u) →
      exec (.amo core w e) s = .next
        (((u.vwrite .cached (s.corePart c) x (leBytes n
          (amoNew (func w) n (ofLe bs) (u.g c (rs2 w)).toNat (u.g c (rs3 w)).toNat))).setG c (rd w)
            (extendLoad bs false)).retire c)) ∧
    (∀ bs u, s.runs c w .tldd e → (s.past c).coreRead c b 64 e = .ok (bs, u) →
      exec (.tldd core w e) s = .next ((u.setT c (td w) (BitVec.ofNat 512 (ofLe bs))).retire c)) ∧
    (∀ u, s.runs c w .tstd e → (s.past c).memTrap? (s.corePart c) b 64 true = none →
      (s.past c).coreStore c b (leBytes 64 (s.t c (ts w)).toNat) = some u →
      exec (.tstd core w e) s = .next (u.retire c))

/-- Epochs and rule tables: EADV that names the present epoch advances it by one and gives the new value, else it
gives the present one and advances nothing; RSTAGE stages a set that passes its checks and writes its result code in
RD. -/
def Obligations.EpochAdvanceAndStaging : Prop :=
  ∀ (core : BitVec 6) (w : Word) (e : CoreErr) (s : State),
    let c := core.toNat
    let p := s.corePart c
    let want := (s.g c (rs1 w)).toNat
    (s.runs c w .eadv e → (s.plan p).epoch ≠ want → ∃ t, exec (.eadv core w e) s = .next t ∧
      onlyG s t c (rd w) (BitVec.ofNat 64 (s.plan p).epoch) ∧ nextPc s t c ∧ retired s t c ∧ coreRegs s t c []) ∧
    (∀ pl, s.runs c w .eadv e → (s.plan p).epoch = want → (s.plan p).plan = some pl → want + 2 ≤ pl.epochs →
      exec (.eadv core w e) s = .next
        (((((s.past c).setPlan p { s.plan p with epoch := want + 1 }).activateRules p).setG c (rd w)
          (BitVec.ofNat 64 (want + 1))).retire c)) ∧
    (∀ bs u, s.runs c w .rstage e → want % 64 = 0 → want + (s.g c (rs2 w)).toNat ≤ 2 ^ 57 →
      (s.past c).xcheckRun p want (s.g c (rs2 w)).toNat false false = none →
      (∀ x ∈ granulesOf want (s.g c (rs2 w)).toNat, (s.past c).xcheck p x.1 false false ≠ some .xlate ∧
        (s.past c).heathReadFails p x.1 e = false) →
      (s.past c).vread .cached p want (s.g c (rs2 w)).toNat = (false, bs, u) →
      exec (.rstage core w e) s = .next ((match (s.past c).stageSet p (s.isV1 c) bs with
        | (v, some rs) => (u.setPlan p { s.plan p with staged := some rs }).setG c (rd w) (BitVec.ofNat 64 v)
        | (v, none) => u.setG c (rd w) (BitVec.ofNat 64 v)).retire c))

/-- Sync-object instructions and FENCE: SREAD reads; SIGNAL performs its operation; a satisfied WAIT gives 0, a WAIT
on an object of a fenced die 2, any other WAIT blocks the core at its own PC; FENCE retires once what its mask names
is done. -/
def Obligations.SyncInstructions : Prop :=
  ∀ (core : BitVec 6) (w : Word) (e : CoreErr) (s : State) (n : Nat),
    let c := core.toNat
    let time := (s.g c (rs2 w)).toNat
    (s.runs c w .sread e → s.soOperand c w = .ok n → ∃ t, exec (.sread core w e) s = .next t ∧
      onlyG s t c (rd w) (s.soVal n) ∧ nextPc s t c ∧ retired s t c ∧ coreRegs s t c []) ∧
    (s.runs c w .signal e → s.soOperand c w = .ok n → (s.core c).stores = [] →
      exec (.signal core w e) s = .next
        (((s.past c).soOp (s.corePart c) n (soOpOf (cmp w)) (s.g c (rs1 w))).retire c)) ∧
    (s.runs c w .wait e → s.soOperand c w = .ok n → 0 < time → time < (if s.isV1 c then 2 ^ 32 else 2 ^ 40) →
      s.soUsable n = false → ∃ t, exec (.wait core w e) s = .next t ∧ onlyG s t c (rd w) 2 ∧
        nextPc s t c ∧ retired s t c ∧ coreRegs s t c []) ∧
    (s.runs c w .wait e → s.soOperand c w = .ok n → 0 < time → time < (if s.isV1 c then 2 ^ 32 else 2 ^ 40) →
      s.soUsable n → soCmp (cmp w) (s.soVal n) (s.g c (rs1 w)) → ∃ t, exec (.wait core w e) s = .next t ∧
        onlyG s t c (rd w) 0 ∧ nextPc s t c ∧ retired s t c ∧ coreRegs s t c []) ∧
    (s.runs c w .wait e → s.soOperand c w = .ok n → 0 < time → time < (if s.isV1 c then 2 ^ 32 else 2 ^ 40) →
      s.soUsable n → soCmp (cmp w) (s.soVal n) (s.g c (rs1 w)) = false → ∃ t, exec (.wait core w e) s = .next t ∧
        t = { s with regs := t.regs, cores := t.cores } ∧ t.coreState c = coreWaiting ∧ t.pc c = s.pc c ∧
        (t.core c).wait = some ⟨n, cmp w, s.g c (rs1 w), if s.isV1 c then time * 1000 else time, rd w⟩ ∧
        coreRegs s t c [Reg.SRT_STATUS]) ∧
    (s.runs c w .fence e → ((mask w).testBit 0 → (s.core c).stores = []) →
      ((mask w).testBit 1 → s.rd F.SRT_ISSUE_STATUS_OUTSTANDING c = 0) → ∃ t, exec (.fence core w e) s = .next t ∧
        onlyRegs s t ∧ nextPc s t c ∧ retired s t c ∧ coreRegs s t c [])

/-- Engine instructions with a tile word issue when their checks pass and the queue has room: the item has the tile
and peer its operands name, and the instruction retires. `issueNow` gives the state with the ticket taken. -/
def Obligations.TileInstructionsIssue : Prop :=
  ∀ (core : BitVec 6) (w : Word) (e : CoreErr) (s u : State),
    let c := core.toNat
    let x := s.past c
    let p := s.corePart c
    let a := (s.g c (ra w)).toNat
    let b := (s.g c (rb w)).toNat
    let tile (work : Work) : Item := { x.itemOf c work with obj := a % 2 ^ 27, tile := a / 2 ^ 32 % 2 ^ 24 }
    let issues (bits : List Nat) (bad : Option Trap) (it : Item) : Prop :=
      x.issueTrap? c w bits [] bad = none ∧ (s.core c).stores = [] ∧ x.issueRoom c (gate w) = true ∧
        x.issueNow c (x.issueItem c w it) = .ok u
    (s.runs c w .unpress e → issues [] (x.tileWord p a false) (tile .unpress) →
      exec (.unpress core w e) s = .next (u.retire c).pumpAll) ∧
    (s.runs c w .spill e → issues [] (x.tileWord p a false) (tile (.spill ((mode w).testBit 0))) →
      exec (.spill core w e) s = .next (u.retire c).pumpAll) ∧
    (s.runs c w .teddRegrow e → issues [] (x.tileWord p a false) (tile .regrow) →
      exec (.teddRegrow core w e) s = .next (u.retire c).pumpAll) ∧
    (s.runs c w .tileDrop e → issues [] (x.tileWord p a false) (tile .drop) →
      exec (.tileDrop core w e) s = .next (u.retire c).pumpAll) ∧
    (s.runs c w .tileRelabel e →
      issues [] (x.tileWord p a false) (tile (.relabel (if mode w = 5 then .regrow else .ret))) →
      exec (.tileRelabel core w e) s = .next (u.retire c).pumpAll) ∧
    (s.runs c w .fetch e → issues [] (x.tileWord p a false)
        { tile (.fetch (mode w)) with deadline := if s.isV1 c then s.time else b } →
      exec (.fetch core w e) s = .next (u.retire c).pumpAll) ∧
    (s.runs c w .moveSend e → issues [9] (firstTrap [x.tileWord p a false, x.connTrap p b false])
        (tile (.send (b % 2 ^ 16) (b / 2 ^ 32 % 2 ^ 32))) →
      exec (.moveSend core w e) s = .next (u.retire c).pumpAll) ∧
    (s.runs c w .fetchRecall e → issues [9] (firstTrap [x.tileWord p a false, x.connTrap p b true])
        (tile (.recallWork (b % 2 ^ 16) (b / 2 ^ 32 % 2 ^ 32))) →
      exec (.fetchRecall core w e) s = .next (u.retire c).pumpAll) ∧
    (s.runs c w .press e → (mode w = 0 ∨ (b / 2 ^ 48 = 0 ∧ 0x100 ≤ b / 2 ^ 32 % 2 ^ 16 ∧ epsOk (mode w) (b % 2 ^ 32))) →
      issues (if mode w = 3 then [1] else if mode w = 2 then [2] else []) (x.tileWord p a false)
        (tile (.press (mode w) (b % 2 ^ 32) (b / 2 ^ 32 % 2 ^ 16))) →
      exec (.press core w e) s = .next (u.retire c).pumpAll)

/-- Engine instructions with descriptors issue when their checks pass and the queue has room. -/
def Obligations.DescriptorInstructionsIssue : Prop :=
  ∀ (core : BitVec 6) (w : Word) (e : CoreErr) (s u : State),
    let c := core.toNat
    let x := s.past c
    let p := s.corePart c
    let a := (s.g c (ra w)).toNat
    let b := (s.g c (rb w)).toNat
    let d := s.t c (ta w)
    let d2 := s.t c (tb w)
    let peer := a / 2 ^ 56 % 2 ^ 6
    let atPeer (dest : Bool) : Desc.Use := { spaces := [1], peer := some peer, identity := false, dest }
    let inMap (dest : Bool) : Desc.Use := { spaces := [0], peer := none, identity := true, dest }
    let tile (work : Work) : Item := { x.itemOf c work with obj := a % 2 ^ 27, tile := a / 2 ^ 32 % 2 ^ 24, peer, ta := d }
    let issues (bits : List Nat) (ds : List (Nat × Beat)) (bad : Option Trap) (it : Item) : Prop :=
      x.issueTrap? c w bits ds bad = none ∧ (s.core c).stores = [] ∧ x.issueRoom c (gate w) = true ∧
        x.issueNow c (x.issueItem c w it) = .ok u
    (s.runs c w .moveIntake e → (mode w).testBit 3 = false →
      issues [] [(5, d)] (firstTrap [x.tileWord p a true, x.descTrap p 5 d (atPeer false)])
        (tile (.intake (b % 2 ^ 32) (b / 2 ^ 32 % 2 ^ 32) ((mode w).testBit 2) false)) →
      exec (.moveIntake core w e) s = .next (u.retire c).pumpAll) ∧
    (s.runs c w .moveIntake e → (mode w).testBit 3 →
      issues [] [] (x.tileWord p a true)
        (tile (.intake (b % 2 ^ 32) (b / 2 ^ 32 % 2 ^ 32) ((mode w).testBit 2) true)) →
      exec (.moveIntake core w e) s = .next (u.retire c).pumpAll) ∧
    (s.runs c w .moveCopy e →
      issues [] [(5, d), (6, d2)] (firstTrap [
          x.descTrap p 5 d { spaces := [0, 1, 2], peer := none, identity := false, dest := false },
          x.descTrap p 6 d2 { spaces := [0, 1, 2].filter (fun y => y == 0 || y != Desc.space d), peer := none
                              identity := false, dest := true },
          copyShape d d2])
        { x.itemOf c .copy with peer := if Desc.space d = 1 then Desc.peer d else Desc.peer d2, ta := d, tb := d2 } →
      exec (.moveCopy core w e) s = .next (u.retire c).pumpAll) ∧
    (s.runs c w .deliver e →
      issues (if (mode w).testBit 0 then [4] else []) [(5, d)]
        (firstTrap [x.tileWord p a true, x.descTrap p 5 d (atPeer true)])
        { tile (.deliver ((mode w).testBit 0)) with deadline := x.deadlineOf c w } →
      exec (.deliver core w e) s = .next (u.retire c).pumpAll) ∧
    (s.runs c w .deliverLattice e →
      issues (3 :: (if (mode w).testBit 0 then [4] else [])) [(5, d)]
        (firstTrap [x.latticeWord p a, x.descTrap p 5 d (atPeer true), (latticeDest d).map (trapOperand 5)])
        { x.itemOf c (.lattice (a / 2 ^ 32 % 2 ^ 16) ((mode w).testBit 0)) with
          obj := a % 2 ^ 27, peer, deadline := x.deadlineOf c w, ta := d } →
      exec (.deliverLattice core w e) s = .next (u.retire c).pumpAll) ∧
    (s.runs c w .notify e → a < 64 → x.peerOf p a →
      issues (if (Notice.ofImage d).kind = 2 then [3] else []) []
        ((x.noticeBad p (s.isV1 c) d).map (trapOperand 5)) { x.itemOf c .notify with peer := a, ta := d } →
      exec (.notify core w e) s = .next (u.retire c).pumpAll) ∧
    (s.runs c w .layout e → a < 2 ^ 15 →
      issues (if Desc.moves4 a then [7] else []) [(5, d), (6, d2)]
        (firstTrap [
          if !Desc.permOk a (Desc.rank d) ∨ (Desc.mx d ∧ Desc.mx d2 ∧ Desc.permAt a 0 ≠ 0) ∨ (s.isV1 c ∧ Desc.moves4 a)
            then some (trapOperand 2 a) else none,
          x.descTrap p 5 d (inMap false), x.descTrap p 6 d2 (inMap true),
          match extDiffers d2 (fun k => Desc.ext d (Desc.permAt a k)) with
          | some k => some (trapOperand 6 k)
          | none => if pairOk (Desc.format d) (Desc.format d2) then none else some (trapOperand 6 64)])
        { x.itemOf c (.layout a) with ta := d, tb := d2 } →
      exec (.layout core w e) s = .next (u.retire c).pumpAll) ∧
    (s.runs c w .teddOp e → Ted.known (a % 2 ^ 16) → a / 2 ^ 16 % 2 ^ 16 = 0 →
      (Ted.twoInputs (a % 2 ^ 16) → ta w ≠ if s.isV1 c then 7 else 15) →
      issues (if Ted.reduces (a % 2 ^ 16) then [8] else [])
        ((5, d) :: (if Ted.twoInputs (a % 2 ^ 16) then [(5, s.t c (ta w + 1))] else []) ++ [(6, d2)])
        (firstTrap [x.descTrap p 5 d (inMap false), teddDesc (a % 2 ^ 16) 5 d (Desc.ext d),
          if Ted.twoInputs (a % 2 ^ 16) then x.descTrap p 5 (s.t c (ta w + 1)) (inMap false) else none,
          if Ted.twoInputs (a % 2 ^ 16) then teddDesc (a % 2 ^ 16) 5 (s.t c (ta w + 1)) (Desc.ext d) else none,
          x.descTrap p 6 d2 (inMap true),
          teddDesc (a % 2 ^ 16) 6 d2 (fun k => if Ted.rowOut (a % 2 ^ 16) ∧ k = 0 then 1 else Desc.ext d k),
          if a % 2 ^ 16 = 1 ∧ !pairOk (Desc.format d) (Desc.format d2) then some (trapOperand 6 64) else none])
        { x.itemOf c (.teddOp (a % 2 ^ 16) (a / 2 ^ 32 % 2 ^ 32)) with ta := d, ta2 := s.t c (ta w + 1), tb := d2 } →
      exec (.teddOp core w e) s = .next (u.retire c).pumpAll)

/-- A tile instruction that finds no room stalls the core at its own PC; it takes no ticket (R144). A ticket taken at
issue (R142, Table 4-6): RD holds it, its slot is PENDING with the engine's code, the next ticket follows modulo 2^16,
and the item stands under the next item number, in the gate list where its gate object is below its threshold. -/
def Obligations.IssueStallsOrTakesATicket : Prop :=
  (∀ (core : BitVec 6) (w : Word) (e : CoreErr) (s : State),
     let c := core.toNat
     let x := s.past c
     let a := (s.g c (ra w)).toNat
     s.runs c w .spill e → x.issueTrap? c w [] [] (x.tileWord (s.corePart c) a false) = none → (s.core c).stores = [] →
     x.issueRoom c (gate w) = false → ∃ u : State, exec (.spill core w e) s = .next u.pumpAll ∧
       u = { s with regs := u.regs, cores := u.cores } ∧ u.coreState c = coreStalled ∧ u.pc c = s.pc c ∧
       u.nextTicket c = s.nextTicket c ∧ ((u.core c).stalled.map (·.tile)) = some (a / 2 ^ 32 % 2 ^ 24)) ∧
  (∀ (s u : State) (c : Nat) (it : Item), c < 64 → it.rd < 32 → it.part < 32 → s.issueNow c it = .ok u →
     ∃ v : State, u = (if (it.gate.any (fun x => decide ((s.soVal x.1).toNat < x.2))) then v else v.front s.nextItem) ∧
       (∀ q, q < 32 → v.g c q = if q = it.rd ∧ q ≠ 0 then BitVec.ofNat 64 (s.nextTicket c) else s.g c q) ∧
       v.nextTicket c = (s.nextTicket c + 1) % 2 ^ 16 ∧ v.slotState c (s.nextTicket c) = slotPending ∧
       v.nextItem = s.nextItem + 1 ∧ (v.item? s.nextItem).map (·.work) = some it.work ∧
       (v.item? s.nextItem).map (·.ticket) = some (s.nextTicket c) ∧
       (v.item? s.nextItem).map (·.tile) = some it.tile)

/-- The host's commands to a core: START puts the start values in its registers and runs it at ENTRY_PC; HALT_REQ
halts it with cause 2; RESUME runs it on; what Table 4-1 does not allow sets REFUSED and nothing else. The debug
window: a read of SRT_DBG_DATA of an IDLE or HALTED core returns 8 bytes of scratch or of a g register at
SRT_DBG_ADDR, which moves on by 8; a read of a core that runs returns 0 and sets REFUSED. A blocked WAIT whose timeout
expires gives outcome 1 (0 where its comparison holds by then), and the core runs on past it. A buffered Heath store
that fails leaves its address pending for an imprecise trap. -/
def Obligations.HostCommandsAndDebugWindow : Prop :=
  (∀ (core : BitVec 6) (s : State), s.pins.held = false →
     let c := core.toNat
     let p := s.corePart c
     (∀ pl, (s.plan p).plan = some pl → s.coreState c = coreIdle → s.rd F.PART_PLAN_STATUS_STATE p = 2 →
       s.rd F.SRT_IDENT_RANK c < pl.cores → s.served p → ∃ t, exec (.srtStart core) s = .next t ∧
         t.coreState c = coreRunning ∧ t.pc c = pl.entryPc % 2 ^ 32 ∧ t.isV1 c = (pl.ulital == 1) ∧
         t.rdb F.SRT_STATUS_IN_TRAP c = false ∧ t.rdb F.SRT_TRAP_VEC_EN c = false ∧
         (∀ q, q < 32 → t.g c q = match q with
           | 1 => BitVec.ofNat 64 (s.rd F.SRT_IDENT_RANK c)
           | 2 => BitVec.ofNat 64 pl.cores
           | 3 => BitVec.ofNat 64 p
           | 4 => BitVec.ofNat 64 pl.areaBase
           | 5 => BitVec.ofNat 64 pl.epochs
           | _ => 0) ∧
         (∀ q, q < 16 → t.t c q = 0) ∧ (∀ q, q < 8 → t.p c q = decide (q = 0)) ∧
         (∀ d q, d ≠ c → q < 32 → t.g d q = s.g d q) ∧ t.scratch = s.scratch ∧ t.mem = s.mem) ∧
     (s.coreState c ≠ coreIdle → ∃ t, exec (.srtStart core) s = .next t ∧ onlyRegs s t ∧
       t.rdb F.SRT_STATUS_REFUSED c = true ∧ t.coreState c = s.coreState c ∧ regsBut s t [(Reg.SRT_STATUS, c)]) ∧
     (coreRunning ≤ s.coreState c → s.coreState c ≤ coreStalled → ∃ t, exec (.haltReq core) s = .next t ∧
       t = { s with regs := t.regs, cores := t.cores } ∧ t.coreState c = coreHalted ∧
       t.rd F.SRT_STATUS_HALT_CAUSE c = 2 ∧ t.rd F.SRT_CTRL_HALT_REQ c = 0 ∧ (t.core c).wait = none ∧
       (t.core c).stalled = none ∧ t.pc c = s.pc c ∧ regsBut s t [(Reg.SRT_STATUS, c), (Reg.SRT_CTRL, c)]) ∧
     (s.coreState c = coreHalted → s.rd F.SRT_STATUS_HALT_CAUSE c = 2 → s.served p →
       ∃ t, exec (.srtResume core) s = .next t ∧ onlyRegs s t ∧ t.coreState c = coreRunning ∧ t.pc c = s.pc c ∧
         regsBut s t [(Reg.SRT_STATUS, c)]) ∧
     (s.coreState c = coreHalted → s.rd F.SRT_STATUS_HALT_CAUSE c ≠ 2 → ∃ t, exec (.srtResume core) s = .next t ∧
       onlyRegs s t ∧ t.coreState c = coreHalted ∧ t.rdb F.SRT_STATUS_REFUSED c = true)) ∧
  (∀ (fn : Nat) (core : BitVec 6) (s : State), s.pins.held = false → s.fnExists fn →
     let c := core.toNat
     let a := s.rd F.SRT_DBG_ADDR_ADDR c
     ((s.coreState c = coreIdle ∨ s.coreState c = coreHalted) → a + 8 ≤ 0x40000 →
       ∃ t, exec (.srtDbgRead fn core) s = .next t ∧ t = { s with regs := t.regs, out := t.out } ∧
         t.out = s.out ++ [.readData fn (s.scratchRead c a 8)] ∧ t.rd F.SRT_DBG_ADDR_ADDR c = a + 8 ∧
         regsBut s t [(Reg.SRT_DBG_ADDR, c)]) ∧
     (∀ q, q < 32 → (s.coreState c = coreIdle ∨ s.coreState c = coreHalted) → a = 0x100000 + 8 * q →
       ∃ t, exec (.srtDbgRead fn core) s = .next t ∧
         t.out = s.out ++ [.readData fn (leBytes 8 (s.g c q).toNat)] ∧ regsBut s t [(Reg.SRT_DBG_ADDR, c)]) ∧
     (s.coreState c = coreRunning → ∃ t, exec (.srtDbgRead fn core) s = .next t ∧
       t.out = s.out ++ [.readData fn (List.replicate 8 0)] ∧ t.rdb F.SRT_STATUS_REFUSED c = true ∧
       regsBut s t [(Reg.SRT_DBG_ADDR, c), (Reg.SRT_STATUS, c)])) ∧
  (∀ (core : BitVec 6) (s : State),
     let c := core.toNat
     (∀ w, (s.core c).wait = some w → w.rd < 32 → ∃ t, exec (.waitTimeout core) s = .next t ∧
       t = { s with regs := t.regs, gregs := t.gregs, cores := t.cores } ∧
       (∀ q, q < 32 → t.g c q = if q = w.rd ∧ q ≠ 0 then (if soCmp w.cmp (s.soVal w.so) w.x then 0 else 1) else s.g c q) ∧
       (t.core c).wait = none ∧ t.coreState c = coreRunning ∧ nextPc s t c ∧ retired s t c ∧
       coreRegs s t c [Reg.SRT_STATUS]) ∧
     (∀ x, (s.core c).stores = [x] → (s.core c).async = none → ∃ t, exec (.asyncStoreFail core) s = .next t ∧
       t = { s with regs := t.regs, cores := t.cores } ∧ (t.core c).async = some x.va ∧ (t.core c).stores = [] ∧
       t.rdb F.SRT_STATUS_ASYNC_PENDING c = true ∧ regsBut s t [(Reg.SRT_STATUS, c)]))

/-- A doorbell that reaches its object performs its operation: SET, ADD, MAX or OR, 64-bit and wrapping; every other
object keeps its value. A VF's write outside its range changes no object and is counted. A device mechanism's update
performs its operation. -/
def Obligations.DoorbellsPerformTheirOperation : Prop :=
  ∀ (fn : Nat) (object : BitVec 12) (value : Word) (short : Bool) (s : State),
    let n := object.toNat
    let x : Word := if short then BitVec.ofNat 64 (value.toNat % 2 ^ 32) else value
    let p := (s.soOwner n).getD 0
    let reaches := s.pins.held = false ∧ s.fnExists fn ∧ (fn = 0 ∨ s.soOwner n = some fn) ∧
      s.partState p ≠ partResetting ∧ (fn ≠ 0 → s.partState fn ≠ partResetting) ∧
      (s.lease leaseSync n).state ≠ 2 ∧ s.soUsable n
    let becomes (t : State) (v : Word) : Prop := (∀ m, t.soVal m = if m = n then v else s.soVal m) ∧ t.mem = s.mem
    (reaches → ∃ t, exec (.doorbellSet fn object value short) s = .next t ∧ becomes t x) ∧
    (reaches → ∃ t, exec (.doorbellAdd fn object value short) s = .next t ∧
      becomes t (BitVec.ofNat 64 ((s.soVal n).toNat + x.toNat))) ∧
    (reaches → ∃ t, exec (.doorbellMax fn object value short) s = .next t ∧
      becomes t (BitVec.ofNat 64 (max (s.soVal n).toNat x.toNat))) ∧
    (reaches → ∃ t, exec (.doorbellOr fn object value short) s = .next t ∧ becomes t (s.soVal n ||| x)) ∧
    (s.pins.held = false → s.fnExists fn → fn ≠ 0 → s.soOwner n ≠ some fn → s.partState fn ≠ partResetting → fn < 32 →
      ∃ t, exec (.doorbellAdd fn object value short) s = .next t ∧ onlyRegs s t ∧
        t.rdb F.SO_DB_STATUS_OUT_OF_RANGE fn = true ∧
        t.rd F.SO_DB_STATUS_COUNT fn = min (s.rd F.SO_DB_STATUS_COUNT fn + 1) (2 ^ F.SO_DB_STATUS_COUNT.width - 1)) ∧
    (∀ op, s.stopped = false → (s.lease leaseSync n).state ≠ 2 → s.soUsable n →
      ∃ t, exec (.syncObjectUpdate object op value) s = .next t ∧ becomes t (soApply op (s.soVal n) value)) ∧
    (∀ bytes, s.pins.held = false → s.fnExists fn → fn < 32 → ∃ t, exec (.badWrite fn true bytes) s = .next t ∧
      t.out = s.out ++ [.readData fn (List.replicate bytes 0)] ∧ t.rdb F.SO_DB_STATUS_BAD_WRITE fn = true ∧
      t.sos = s.sos) ∧
    (∀ bytes, s.pins.held = false → s.fnExists fn → fn < 32 → ∃ t, exec (.badWrite fn false bytes) s = .next t ∧
      onlyRegs s t ∧ t.rdb F.SO_DB_STATUS_BAD_WRITE fn = true ∧
      t.rd F.SO_DB_STATUS_COUNT fn = min (s.rd F.SO_DB_STATUS_COUNT fn + 1) (2 ^ F.SO_DB_STATUS_COUNT.width - 1))

/-- Stalled and gated work: a stalled issue proceeds once there is room, or traps ISSUE_TIMEOUT; a deferred request
reaches its home slice again; a gate that is not released ends GATE_TIMEOUT. An item that ends writes its slot whole:
DONE, the engine's code, the status and the residue; its completion object counts one (R143). Shown for an item that
holds no channel and no context. -/
def Obligations.GatedAndEndedWork : Prop :=
  ((∀ (core : BitVec 6) (s : State) (it : Item),
     let c := core.toNat
     let x := (s.setCore c { s.core c with stalled := none }).setCoreState c coreRunning
     (∀ u, (s.core c).stalled = some it → s.coreState c = coreStalled → s.issueRoom c it.gate.isSome →
       x.issueNow c it = .ok u →
       exec (.stalledIssueProceeds core) s = .next (((u.setPc c (s.pc c + 8)).retire c).pumpAll)) ∧
     ((s.core c).stalled = some it → s.coreState c = coreStalled → s.issueRoom c it.gate.isSome = false → s.handles c →
       ∃ t, exec (.issueTimeout core) s = .next t ∧ trapped x t c ⟨0x0D, s.nextTicket c, 0⟩ false (s.pc c))) ∧
   (∀ (item : Nat) (s : State) (it : Item),
     (s.item? item = some it → it.stage = .deferred → (s.tile it.part it.obj it.tile).state ≠ .inFlight →
       s.served it.part → it.work = .drop →
       exec (.deferredDispCheck item) s = .next ((s.putItem { it with stage := .queued }).arrive item).flow) ∧
     (s.item? item = some it → it.stage = .gated →
       exec (.gateTimeout item) s = .next (s.finish item 0x0005 (s.itemBytes it) ErrAt.none).pumpAll))) ∧
  (∀ (s : State) (id status residue : Nat) (it : Item), s.item? id = some it → it.origin = .plan → it.core < 64 →
     it.channel = none → it.cso = none → s.epochsHold it → status < 2 ^ 16 →
     ∃ u : State, s.finish id status residue ErrAt.none = (u.originEnd it status).serveCtxs ∧
       u.slotState it.core it.ticket = slotDone ∧
       bitsOf (ofLe (u.scratchRead it.core (u.slotAddr it.core it.ticket) 8)) 24 8 = it.work.engine % 256 ∧
       bitsOf (ofLe (u.scratchRead it.core (u.slotAddr it.core it.ticket) 8)) 32 16 = status ∧
       ofLe (u.scratchRead it.core (u.slotAddr it.core it.ticket + 8) 8) = residue % 2 ^ 64 ∧ u.item? id = none)

/-- The items' own events, where the item is at the stage each needs: a commit, a fault or a reservation of the item,
then whatever work can proceed. Events of a partition's work: stalled tiles retry, a watermark run starts; a unit that
meets a parity error while none of its contexts is held goes offline with FAULT set. -/
def Obligations.ItemAndPartitionEvents : Prop :=
  (∀ (item : Nat) (s : State) (it : Item), s.item? item = some it → s.served it.part →
     (it.before.isSome → it.isPut = false → exec (.intakeCommit item) s = .next (s.intakeCommit item).flow) ∧
     (it.before.isSome → it.isPut → exec (.intakeCommit item) s = .next ((s.intakeCommit item).endPut item).flow) ∧
     (∀ h k n, it.resv = some (h, k, n) → it.before.isSome → it.ended = none →
       (∀ a b x y z, it.work ≠ .put a b x y z) →
       exec (.intakeWriteFault item) s =
         .next ((s.tierFail it.part (homeFault h)).intakeFault item (homeFault h) (some k)).flow) ∧
     (∀ va h, it.stage = .reserving → it.work = .granule va h →
       exec (.migrationReserve item) s = .next (s.granReserve item).flow) ∧
     (it.stage = .reserving → it.work = .regrow → exec (.migrationReserve item) s = .next (s.regrowStart item).flow) ∧
     (∀ m eps r, it.work = .press m eps r →
       exec (.migrationCommit item) s = .next (s.commitPress item m eps r).flow) ∧
     (it.work = .unpress → exec (.migrationCommit item) s = .next (s.commitUnpress item).flow) ∧
     (∀ b, it.work = .spill b → it.begun → exec (.migrationCommit item) s = .next (s.commitStored item).flow) ∧
     (it.waitsFree → exec (.reservationWaitTimeout item) s = .next (s.stallOut item).flow) ∧
     (it.work = .regrow → it.resv = none → it.ended = none → it.stage ≠ .gated →
       exec (.regrowStart item) s = .next (s.regrowStart item).flow) ∧
     (it.work = .regrow → exec (.regrowCommit item) s = .next (s.regrowCommit item).flow)) ∧
  ((∀ (p : BitVec 5) (tier : BitVec 2) (s : State), s.served p.toNat →
     exec (.stallRetry p tier) s = .next (s.retryStalled p.toNat tier.toNat).flow) ∧
   (∀ (p : BitVec 5) (heath : Bool) (s : State), s.served p.toNat →
     exec (.watermarkDemotion p heath) s = .next (s.watermark p.toNat (b2n heath)).flow) ∧
   (∀ (unit : BitVec 5) (s : State), s.pins.held = false →
     (∀ e ∈ s.items, ∀ x ∈ e.2.ctxs, x.1 < 4 * unit.toNat ∨ 4 * unit.toNat + 4 ≤ x.1) →
     ∃ u : State, exec (.engineUnitFault false unit) s = .next u.flow ∧ onlyRegs s u ∧
       u.rd F.BAL_UNIT_STATUS_ONLINE unit.toNat = 0 ∧ u.rd F.BAL_UNIT_STATUS_FAULT unit.toNat = 1 ∧
       regsBut s u [(Reg.BAL_UNIT_STATUS, unit.toNat)]) ∧
   (∀ (unit : BitVec 5) (s : State), s.pins.held = false → unit.toNat < 16 →
     (∀ e ∈ s.items, ∀ x ∈ e.2.ctxs, x.1 < 128 + 4 * unit.toNat ∨ 128 + 4 * unit.toNat + 4 ≤ x.1) →
     ∃ u : State, exec (.engineUnitFault true unit) s = .next u.flow ∧ onlyRegs s u ∧
       u.rd F.TED_UNIT_STATUS_ONLINE unit.toNat = 0 ∧ u.rd F.TED_UNIT_STATUS_FAULT unit.toNat = 1 ∧
       regsBut s u [(Reg.TED_UNIT_STATUS, unit.toNat)]))

/-- The ends of items and their arrival: engine work, Carrier work on its channel, a plan item placed on a channel. -/
def Obligations.ItemEndsAct : Prop :=
  ∀ (item : Nat) (s : State) (it : Item), s.item? item = some it → s.served it.part →
    (∀ op prm, it.stage = .running → it.work = .teddOp op prm →
      exec (.workItemEnd item) s = .next (s.endTedd item op prm).flow) ∧
    (∀ perm, it.stage = .running → it.work = .layout perm →
      exec (.workItemEnd item) s = .next (s.endCopy item perm).flow) ∧
    (∀ m eps r, it.stage = .running → it.work = .press m eps r →
      exec (.workItemEnd item) s = .next (s.endEnded item).flow) ∧
    (it.stage = .running → it.work = .notify → exec (.workItemEnd item) s = .next (s.endNotify item).flow) ∧
    (it.stage = .running → it.work = .regrow → exec (.workItemEnd item) s = .next (s.endRegrowItem item).flow) ∧
    (∀ st ly r nd, it.stage = .running → it.channel.isSome → it.work = .intake st ly r nd →
      exec (.carrierItemEnd item) s = .next (s.endIntake item).flow) ∧
    (it.stage = .running → it.channel.isSome → it.work = .copy →
      exec (.carrierItemEnd item) s = .next (s.endCopy item 0x4688).flow) ∧
    (∀ rb, it.stage = .running → it.channel.isSome → it.work = .deliver rb →
      exec (.carrierItemEnd item) s = .next (s.endDeliver item rb).flow) ∧
    (∀ ws, it.stage = .running → it.channel.isSome → it.work = .chain ws →
      exec (.carrierItemEnd item) s = .next (s.endChainItem item).flow) ∧
    (it.stage = .queued → it.channel = none → it.started = false → it.work = .copy →
      exec (.itemArrival item) s = .next (s.arrive item).flow)

/-- Channel commands of a function that holds the channel: START takes CAR_CH_HEAD as the next descriptor's address
and runs; KICK of an IDLE channel re-reads word 4, of another it waits; RESUME, SKIP and CLEAR wait in CAR_CH_CTRL
while reads of the halted channel are out; ABORT of an IDLE channel does nothing, and waits while a record waits for a
ring that the channel's halt names. -/
def Obligations.ChannelCommands : Prop :=
  ∀ (fn : Nat) (channel : BitVec 8) (s : State), s.fnChannel fn channel.toNat →
    s.isChain channel.toNat →
    let c := channel.toNat
    (s.chState c = chIdle → ∃ t, exec (.channelStart fn channel) s = .next t ∧
      t = { s with regs := t.regs, chans := t.chans } ∧ t.chState c = chRunning ∧
      t.rd F.CAR_CH_CUR_ADDR c = s.rd F.CAR_CH_HEAD_ADDR c ∧ (t.chan c).next = s.rd F.CAR_CH_HEAD_ADDR c ∧
      (t.chan c).reading = true ∧ regsBut s t [(Reg.CAR_CH_STATUS, c), (Reg.CAR_CH_CUR, c)]) ∧
    (s.chState c = chRunning → exec (.channelStart fn channel) s = .next s) ∧
    (s.chState c ≠ chIdle → ∃ t, exec (.kick fn channel) s = .next t ∧ onlyRegs s t ∧
      t.rdb F.CAR_CH_STATUS_KICK_PENDING c = true ∧ t.chState c = s.chState c ∧ regsBut s t [(Reg.CAR_CH_STATUS, c)]) ∧
    (s.chState c = chIdle → exec (.kick fn channel) s =
      .next (((s.setChan c { s.chan c with reading := true, kickRead := true }).setChState c chRunning).readNext c)) ∧
    (s.chState c = chIdle → exec (.abort fn channel) s = .next s) ∧
    (s.chState c = chWaitRing → s.rd F.CAR_CH_STATUS_CAUSE c ≠ 0 → ∃ t, exec (.abort fn channel) s = .next t ∧
      onlyRegs s t ∧ t.rd F.CAR_CH_CTRL_ABORT c = 1) ∧
    (s.chState c = chHalted → s.chanReads c ≠ 0 → ∃ t, exec (.channelResume fn channel) s = .next t ∧ onlyRegs s t ∧
      t.rd F.CAR_CH_CTRL_RESUME c = 1 ∧ t.chState c = chHalted ∧ regsBut s t [(Reg.CAR_CH_CTRL, c)]) ∧
    (s.chState c = chHalted → s.chanReads c ≠ 0 → ∃ t, exec (.skip fn channel) s = .next t ∧ onlyRegs s t ∧
      t.rd F.CAR_CH_CTRL_SKIP c = 1 ∧ t.chState c = chHalted ∧ regsBut s t [(Reg.CAR_CH_CTRL, c)]) ∧
    (s.chState c = chHalted → s.chanReads c ≠ 0 → ∃ t, exec (.clear fn channel) s = .next t ∧ onlyRegs s t ∧
      t.rd F.CAR_CH_CTRL_CLEAR c = 1 ∧ t.chState c = chHalted ∧ regsBut s t [(Reg.CAR_CH_CTRL, c)])

/-- Chain reads, rings and notices: a channel whose chain is live reads its next descriptor; a ring is enabled with a
size of 2^6 to 2^16 entries and an aligned base, and refused with another size; a consumer index behind the producer
by the ring or less is taken; a notice waiting for ring space asks the peer for its consumer index; a coalesced
message goes out at its time. -/
def Obligations.RingsAndDescriptorReads : Prop :=
  (∀ (channel : BitVec 8) (s : State), s.chainLive channel.toNat →
    exec (.descriptorRead channel) s = .next (s.readNext channel.toNat)) ∧
  (∀ (channel : BitVec 8) (s : State) (r : CplRec) (l : List CplRec), s.pins.held = false →
    s.chState channel.toNat = chWaitRing → s.isChain channel.toNat → (s.chan channel.toNat).recs = r :: l →
    s.rdb F.CAR_RING_CFG_EN r.ring → s.ringFull r.ring →
    exec (.channelStallTimeout channel none) s =
      .next (s.haltChain channel.toNat 4 (s.chan channel.toNat).halted)) ∧
  (∀ (fn : Nat) (ring : BitVec 9) (v : Word) (s : State), s.fnSees fn leaseRing ring.toNat →
    let r := ring.toNat
    let lg := F.CAR_RING_CFG_LOG2.get v
    s.rdb F.CAR_RING_CFG_EN r = false → F.CAR_RING_CFG_EN.get v = 1 → F.CAR_RING_CFG_CFG_ERR.get v = 0 →
    ((6 ≤ lg → lg ≤ 16 → s.rd F.CAR_RING_BASE_ADDR r * 32 % max (32 * 2 ^ lg) 4096 = 0 →
      (s.rdb F.CAR_RING_BASE_HOST r → s.feature 20) → (∀ e ∈ s.chans, e.2.recs = []) →
      ∃ t, exec (.ringEnable fn ring v) s = .next t ∧ t.rdb F.CAR_RING_CFG_EN r = true ∧
        t.rd F.CAR_RING_PROD_COUNT r = 0 ∧ t.rd F.CAR_RING_CONS_COUNT r = 0 ∧ t.rd F.CAR_RING_CFG_LOG2 r = lg ∧
        t = { s with regs := t.regs, rings := t.rings }) ∧
    ((lg < 6 ∨ 16 < lg) → ∃ t, exec (.ringEnable fn ring v) s = .next t ∧ onlyRegs s t ∧
        t.rdb F.CAR_RING_CFG_EN r = false ∧ t.rdb F.CAR_RING_CFG_CFG_ERR r = true))) ∧
  (∀ (fn : Nat) (ring : BitVec 9) (count : BitVec 32) (s : State), s.fnSees fn leaseRing ring.toNat →
    let r := ring.toNat
    let ahead := (s.rd F.CAR_RING_PROD_COUNT r + 2 ^ 32 - count.toNat) % 2 ^ 32
    (ahead ≤ 2 ^ s.rd F.CAR_RING_CFG_LOG2 r → ∃ u : State, exec (.ringConsWrite fn ring count) s =
        .next ((u.drainHeld (s.fnOf (s.lease leaseRing r).holder)).ringRoom r) ∧ onlyRegs s u ∧
        u.rd F.CAR_RING_CONS_COUNT r = count.toNat ∧ regsBut s u [(Reg.CAR_RING_CONS, r)]) ∧
    (2 ^ s.rd F.CAR_RING_CFG_LOG2 r < ahead → exec (.ringConsWrite fn ring count) s = .next s)) ∧
  (∀ (ring : BitVec 9) (s : State), s.pins.held = false → 0 < (s.ringRec ring.toNat).since →
    s.rd F.CAR_RING_CFG_COAL_US ring.toNat ≠ 0 →
    exec (.ringCoalesceTimeout ring) s = .next ((s.setRingRec ring.toNat { since := 0 }).msix
      (s.fnOf (s.lease leaseRing ring.toNat).holder) (s.rd F.CAR_RING_CFG_VECTOR ring.toNat))) ∧
  (∀ (item : Nat) (s : State) (it : Item), s.item? item = some it → s.served it.part →
    (it.stage = .notice → (∀ e ∈ s.host.reads, e.2.absorbed = true ∨ e.2.use ≠ .consumer item) →
      s.portErr it.part (s.peerPort it.peer) (s.peerWord it.peer 4) = none →
      exec (.noticeRingRetry item) s = .next ((s.sendRead it.part (s.peerPort it.peer) (s.peerWord it.peer 4) 4
        (it.urg == 0) (.consumer item) none).getD s)) ∧
    (it.stage = .noticeReserve → it.work = .notify → exec (.noticeReservation item) s = .next (s.endNotify item).flow) ∧
    (it.stage = .noticeReserve → it.work ≠ .notify →
      exec (.noticeReservation item) s = .next (s.startReturn item (s.noticeTile it)).flow))

/-- Reads on a link retire once: a completion gives the read its data; a timeout quarantines its tag; the quarantine's
end returns the tag; a completion nothing asked for is reported. -/
def Obligations.ReadCompletions : Prop :=
  ∀ (port : BitVec 3) (tag : BitVec 14) (s : State), s.pins.held = false →
    let key := readKey port.toNat tag.toNat
    (∀ r data, Tab.find? s.host.reads key = some r → r.absorbed = false →
      exec (.cplReceived port tag 0 data) s = .next (((s.endRead key r).readGot r data).flow)) ∧
    (∀ r data, Tab.find? s.host.reads key = some r → r.absorbed = false →
      exec (.cplReceived port tag 1 data) s = .next (((s.endRead key r).readFailed r 0x0031).flow)) ∧
    (∀ st data, Tab.find? s.host.reads key = none → Tab.find? s.host.quar key = none →
      ∃ t, exec (.cplReceived port tag st data) s = .next t ∧ t = { s with out := t.out } ∧
        t.out = s.out ++ [.aer (s.portFn port.toNat) aerUnexpected]) ∧
    (∀ r, Tab.find? s.host.reads key = some r → r.absorbed = false →
      exec (.completionTimeout port tag) s = .next
        (((((s.endRead key r).quarantine key r.fn false).emit (.aer r.fn aerTimeout)).readFailed r 0x0030).flow)) ∧
    (∀ q, Tab.find? s.host.quar key = some q → ∃ u : State, exec (.tagQuarantineEnd port tag) s = .next u.flow ∧
      Tab.find? u.host.quar key = none ∧
      u.rd F.HOST_PORT_STATUS_TAGS_QUAR port.toNat = s.rd F.HOST_PORT_STATUS_TAGS_QUAR port.toNat - 1 ∧
      (q.fn < 64 → u.rd F.HOST_FN_STATUS_QUAR_TAGS q.fn = s.rd F.HOST_FN_STATUS_QUAR_TAGS q.fn - 1) ∧ u.mem = s.mem)

/-- Write-back streams: a header with every reserved field 0 and the right CRC, for a tile a notice awaits, opens a
stream; data in order goes to the tile's place; a header that no notice awaits, and data without a stream, are dropped
and flagged. BAR4: an access that passes Table 8-5 reads or writes the partition's memory at the function's window; a
write that does not is logged and reported; a read that meets poison is reported and answered Completer Abort. -/
def Obligations.WriteBackAndWindowAccess : Prop :=
  (∀ (fn : BitVec 5) (rid : BitVec 16) (s : State), s.fnOpen fn.toNat →
     let p := fn.toNat
     let r := rid.toNat
     (∀ (b : List Byte) a, b.length = 64 → Tab.find? s.host.streams r = none → s.awaitedOf p r b = some a →
       fieldAt b 7 1 = 0 → fieldAt b 14 2 = 0 → allZero (bytesAt b 16 40) → fieldAt b 60 4 = 0 →
       fieldAt b 56 4 = (crc32c (b.take 56)).toNat → (s.tile p a.obj a.tile).disp = .ret →
       (s.tile p a.obj a.tile).state = .resident → fieldAt b 8 4 = s.tileSize p a.obj →
       ∃ t, exec (.writeBackHeader fn rid b) s = .next t ∧ t = { s with host := t.host } ∧
         Tab.find? t.host.streams r =
           some { fn := p, peer := a.peer, obj := a.obj, tile := a.tile, len := fieldAt b 8 4, next := 0 }) ∧
     (∀ (b : List Byte), b.length = 64 → Tab.find? s.host.streams r = none → s.awaitedOf p r b = none →
       ∃ t, exec (.writeBackHeader fn rid b) s = .next t ∧ t.rdb F.PART_LIFE_STATUS_WB_STRAY p = true ∧
         t.mem = s.mem ∧ Tab.find? t.host.streams r = none) ∧
     (∀ offset bs, Tab.find? s.host.streams r = none → ∃ t, exec (.writeBackData fn rid offset bs) s = .next t ∧
       t.rdb F.PART_LIFE_STATUS_WB_STRAY p = true ∧ t.mem = s.mem) ∧
     (∀ w a offset (bs : List Byte), Tab.find? s.host.streams r = some w → w.fn = p → w.next % 131072 = offset.toNat →
       w.next + bs.length < w.len →
       s.host.awaited.find? (fun a => a.part == p && a.peer == w.peer && a.obj == w.obj && a.tile == w.tile) = some a →
       let u := s.physWrite .bulk p (a.place + w.next) bs
       exec (.writeBackData fn rid offset bs) s = .next { u with
         host := { u.host with streams := Tab.put u.host.streams r { w with next := w.next + bs.length } } }) ∧
     (∀ w a offset (bs : List Byte), Tab.find? s.host.streams r = some w → w.fn = p → w.next % 131072 = offset.toNat →
       w.next + bs.length = w.len →
       s.host.awaited.find? (fun a => a.part == p && a.peer == w.peer && a.obj == w.obj && a.tile == w.tile) = some a →
       let u := s.physWrite .bulk p (a.place + w.next) bs
       exec (.writeBackData fn rid offset bs) s =
         .next (({ u with host := { u.host with streams := Tab.erase u.host.streams r } }).wbCommit p a).flow)) ∧
  (∀ (fn : BitVec 5) (offset : BitVec 36) (s : State), s.fnOpen fn.toNat →
     let p := fn.toNat
     let va := s.rd F.HOST_BAR4_WIN_BASE p * 2 ^ 36 + offset.toNat
     (∀ n bs u, s.feature 23 → s.xcheckRun p va n false false = none → s.vheathFail p va n = none →
       s.vread .cached p va n = (false, bs, u) →
       exec (.bar4Read fn offset n) s = .next { u with out := u.out ++ [.readData p bs] }) ∧
     (∀ n u bs, s.feature 23 → s.xcheckRun p va n false false = none → s.vheathFail p va n = none →
       s.vread .cached p va n = (true, bs, u) → exec (.bar4Read fn offset n) s =
         .next { u with out := u.out ++ [.aer p aerAbort] ++ [.completerAbort p] }) ∧
     (∀ bs : List Byte, s.feature 23 → s.xcheckRun p va bs.length true false = none → s.vheathFail p va bs.length = none →
       exec (.bar4Write fn offset bs) s = .next (s.vwrite .cached p va bs)) ∧
     (∀ (bs : List Byte) x o, s.feature 23 → s.xcheckRun p va bs.length true false = some (x, o) →
       exec (.bar4Write fn offset bs) s = .next ((s.dtuFault p x.kind 2 (va + o) true).emit (.aer p aerAbort))))

/-- The open handshake (Table 12-1): with no error OPENED sets, ERR is 0, and each core's SRT_FEAT takes the accepted
features; an open of an opened device, or of one that is not ready, sets its ERR and changes nothing else. Peer
commands: REGISTER and UNREGISTER take their words and run while no command is; REGISTER while one runs sets
BUSY_REFUSED and changes no word; the probe's result ends the registration. -/
def Obligations.OpenAndPeerCommands : Prop :=
  (∀ s : State, s.pins.held = false →
     (s.rdb F.SYS_OPEN_OPENED 0 = false → s.rdb F.SYS_START_STATUS_READY 0 →
       (∀ k, k < 4 → s.rd F.SYS_FEAT_ACCEPT_BITS k &&& s.offer k = s.rd F.SYS_FEAT_ACCEPT_BITS k) →
       (∀ d ∈ [(3, 0), (11, 0), (0, 16), (17, 3), (20, 19)], (s.rd F.SYS_FEAT_ACCEPT_BITS 0).testBit d.1 →
         (s.rd F.SYS_FEAT_ACCEPT_BITS 0).testBit d.2) →
       ∃ t, exec .sysOpen s = .next t ∧ onlyRegs s t ∧ t.rdb F.SYS_OPEN_OPENED 0 = true ∧ t.rd F.SYS_OPEN_ERR 0 = 0 ∧
         ∀ c k, c < 64 → k < 4 → t.rd F.SRT_FEAT_BITS (4 * c + k) = s.rd F.SYS_FEAT_ACCEPT_BITS k) ∧
     (s.rdb F.SYS_OPEN_OPENED 0 → ∃ t, exec .sysOpen s = .next t ∧ t.rd F.SYS_OPEN_ERR 0 = 3 ∧
       regsBut s t [(Reg.SYS_OPEN, 0)] ∧ onlyRegs s t) ∧
     (s.rdb F.SYS_OPEN_OPENED 0 = false → s.rdb F.SYS_START_STATUS_READY 0 = false → ∃ t, exec .sysOpen s = .next t ∧
       t.rd F.SYS_OPEN_ERR 0 = 4 ∧ regsBut s t [(Reg.SYS_OPEN, 0)] ∧ onlyRegs s t)) ∧
  ((∀ (words : List Word) (s : State), s.pins.held = false → s.rdb F.HOST_PEER_CTRL_GO 0 = false →
     exec (.register words) s = .next ((((s.peerWords words 1).wr F.HOST_PEER_CTRL_GO 0 1).peerRegister).flow)) ∧
   (∀ (peer : BitVec 6) (s : State), s.pins.held = false → s.rdb F.HOST_PEER_CTRL_GO 0 = false →
     exec (.unregister peer) s = .next
       ((((s.peerWords [BitVec.ofNat 64 peer.toNat] 2).wr F.HOST_PEER_CTRL_GO 0 1).peerUnregister).flow)) ∧
   (∀ (words : List Word) (s : State), s.pins.held = false → s.rdb F.HOST_PEER_CTRL_GO 0 →
     ∃ u : State, exec (.register words) s = .next u.flow ∧ onlyRegs s u ∧ u.rdb F.HOST_PEER_STATUS_BUSY_REFUSED 0 = true ∧
       regsBut s u [(Reg.HOST_PEER_STATUS, 0)]) ∧
   (∀ (s : State) key d r, s.pins.held = false → s.host.probe = some (key, d) → Tab.find? s.host.reads key = some r →
     exec (.probeResult 0) s = .next ((s.endRead key r).probeEnd 0).flow ∧
     exec (.probeResult 1) s = .next ((s.endRead key r).probeEnd 0x0031).flow))

/-- Bus mastering, function-level resets, links and VF Enable: each acts on the function it names. -/
def Obligations.FunctionAndLinkEvents : Prop :=
  ∀ s : State, s.pins.held = false →
    (∀ fn : BitVec 7, s.anyFn fn.toNat → s.busMaster fn.toNat →
      exec (.busMasterClear fn) s = .next (((s.setBme fn.toNat false).stopRiders fn.toNat).flow)) ∧
    (∀ fn : BitVec 7, s.busMaster fn.toNat = false → exec (.busMasterClear fn) s = .next s) ∧
    (∀ fn : BitVec 7, s.anyFn fn.toNat → s.busMaster fn.toNat = false → fn.toNat < 64 →
      s.rdb F.HOST_FN_STATUS_FLR_ACTIVE fn.toNat = false → (∀ e ∈ s.chans, e.2.recs = []) →
      (s.heldOf fn.toNat) = [] → exec (.busMasterSet fn) s = .next (((s.setBme fn.toNat true).drainHeld fn.toNat).flow)) ∧
    (∀ vf : BitVec 5, exec (.vfFlr vf) s = .next (s.vfFlr vf.toNat)) ∧
    exec .pfFlr s = .next s.pfFlr ∧
    (∀ port : BitVec 3, exec (.portFunctionFlr port) s = .next (s.portFlr port.toNat)) ∧
    (exec (.d3hotToD0 0) s = .next s.pfFlr) ∧
    (∀ fn : BitVec 7, 0 < fn.toNat → fn.toNat < 64 → exec (.d3hotToD0 fn) s = .next (s.vfFlr fn.toNat)) ∧
    (∀ fn : BitVec 7, 64 ≤ fn.toNat → exec (.d3hotToD0 fn) s = .next (s.portFlr (fn.toNat - 64))) ∧
    (∀ port : BitVec 3, exec (.hostLinkDown port) s = .next (s.hostLinkDown port.toNat).flow) ∧
    (∀ (port gen : BitVec 3) (width : BitVec 5) (flit cxl : Bool), s.role port.toNat ≠ 0 →
      port.toNat < s.variant.ports → s.err.postDown.testBit (port.toNat / 2) = false →
      s.rdb F.HOST_PORT_STATUS_UP port.toNat → ∃ u : State, exec (.linkUp port gen width flit cxl) s = .next u.flow ∧
        onlyRegs s u ∧ u.rdb F.HOST_PORT_STATUS_UP port.toNat = true ∧
        u.rd F.HOST_PORT_STATUS_GEN port.toNat = gen.toNat ∧ u.rd F.HOST_PORT_STATUS_WIDTH port.toNat = width.toNat ∧
        u.rdb F.HOST_PORT_STATUS_FLIT port.toNat = flit ∧ u.rdb F.HOST_PORT_STATUS_CXL port.toNat = cxl ∧
        regsBut s u [(Reg.HOST_PORT_STATUS, port.toNat)]) ∧
    (∀ count : BitVec 5, s.rd F.SYS_STRAPS_VFCOUNT 0 = 3 → s.rdb F.SYS_START_STATUS_SAFE_BOOT 0 = false →
      s.host.numVfs = 0 → ∃ t, exec (.vfEnable true count) s = .next t ∧ t = { s with host := t.host } ∧
        t.host = { s.host with numVfs := count.toNat }) ∧
    (∀ count : BitVec 5, s.host.numVfs ≠ 0 → exec (.vfEnable true count) s = .next s)

/-- Address translation services and IDE: a completion that grants what was asked is cached and its users retry; an
invalidation drops what it covers; a page response translates again or ends the users' items; an IDE failure makes the
stream Insecure. -/
def Obligations.TranslationServicesAndIde : Prop :=
  ∀ s : State, s.pins.held = false →
    (∀ (fn : BitVec 5) (page target : Word) (size : Nat), s.fnExists fn.toNat → s.host.atsOn.testBit fn.toNat →
      s.host.ats = [] → ∃ u : State, exec (.translationCompletion fn page target size true true) s = .next (u.atsRetry fn.toNat) ∧
        u = { s with host := u.host } ∧
        u.host.ats = [{ fn := fn.toNat, page := page.toNat / 4096 * 4096 / min (max size 4096) (2 ^ 30) * min (max size 4096) (2 ^ 30)
                        size := min (max size 4096) (2 ^ 30)
                        target := target.toNat / min (max size 4096) (2 ^ 30) * min (max size 4096) (2 ^ 30)
                        write := true }]) ∧
    (∀ (fn : BitVec 5) (page : Word) (size : Nat), s.fnExists fn.toNat → s.host.reads = [] → s.host.invals = [] →
      ∃ t, exec (.invalidationRequest fn page size) s = .next t ∧
        t.host.ats = s.host.ats.filter (fun x =>
          !(x.fn == fn.toNat && overlaps x.page x.size (page.toNat / 4096 * 4096) (max size 4096))) ∧
        t.out = s.out ++ [.invalDone fn.toNat (page.toNat / 4096 * 4096)] ∧ t = { s with host := t.host, out := t.out }) ∧
    (∀ (fn : BitVec 5) (page : Word), s.host.pageReqs.contains (fn.toNat, page.toNat / 4096 * 4096) →
      exec (.pageRequestResponse fn page 0) s =
        .next ((s.donePage fn.toNat (page.toNat / 4096 * 4096)).emit (.atsRequest fn.toNat (page.toNat / 4096 * 4096))) ∧
      exec (.pageRequestResponse fn page 1) s = .next ((s.donePage fn.toNat (page.toNat / 4096 * 4096)).atsFault fn.toNat
        (page.toNat / 4096 * 4096)).flow ∧
      exec (.priTimeout fn page) s = .next ((s.donePage fn.toNat (page.toNat / 4096 * 4096)).atsFault fn.toNat
        (page.toNat / 4096 * 4096)).flow) ∧
    (∀ (port : BitVec 3) (stream : BitVec 4), stream.toNat ≤ 8 → (s.role port.toNat = 1 ∨ s.role port.toNat = 2) →
      Tab.get 0 s.host.ide (port.toNat * 16 + stream.toNat) = 2 → s.host.reads = [] →
      ∃ u : State, exec (.ideCheckFail port stream) s = .next u.flow ∧
        Tab.get 0 u.host.ide (port.toNat * 16 + stream.toNat) = 3 ∧
        (u.rd F.HOST_IDE_STATUS_INSECURE port.toNat).testBit stream.toNat ∧
        u.out = s.out ++ [.aer (s.portFn port.toNat) aerIde])

/-- The responder's answers in the order SPDM asks for: version, capabilities, algorithms, then what needs the
negotiation; algorithms out of order get a protocol error. Debug unlock destroys the unique secret copy; sessions open
and end; keys of an IDE stream are programmed in a session and taken into use. -/
def Obligations.SpdmResponder : Prop :=
  ∀ s : State, s.pins.held = false → s.boot.running.isSome →
    let answers (t : State) (r : DoeRsp) : Prop := t.out = s.out ++ [.doe r]
    (∃ t, exec .getVersion s = .next t ∧ t.spdm.phase = 1 ∧ answers t .version) ∧
    (s.spdm.phase = 1 → ∃ t, exec .getCapabilities s = .next t ∧ t.spdm.phase = 2 ∧ answers t .capabilities) ∧
    (s.spdm.phase = 2 → ∃ t, exec (.negotiateAlgorithms true) s = .next t ∧ t.spdm.phase = 3 ∧ answers t .algorithms) ∧
    (s.spdm.phase ≠ 2 → ∃ t, exec (.negotiateAlgorithms true) s = .next t ∧ t.spdm = s.spdm ∧ answers t .errorProtocol) ∧
    (s.spdm.phase = 3 →
      (∃ t, exec .getDigests s = .next t ∧ t = { s with out := t.out } ∧ answers t .digests) ∧
      (s.spdm.aliasKey → (∃ t, exec (.getCertificate 0) s = .next t ∧ t = { s with out := t.out } ∧ answers t .certificate) ∧
        (∃ t, exec (.challenge 0) s = .next t ∧ t = { s with out := t.out } ∧ answers t .challengeAuth) ∧
        (∃ t, exec (.keyExchange 0) s = .next t ∧ t.spdm.handshake = true ∧ answers t .keyExchange)) ∧
      (∃ t, exec (.getMeasurements 0 false) s = .next t ∧ t = { s with out := t.out } ∧
        answers t (.measurements false [(0, [40])])) ∧
      (s.spdm.handshake → ∃ t, exec (.finish true) s = .next t ∧ t.spdm.handshake = false ∧ t.spdm.session = true ∧
        answers t .finish) ∧
      (s.spdm.handshake → ∃ t, exec (.finish false) s = .next t ∧ t.spdm.handshake = false ∧
        t.spdm.session = s.spdm.session ∧ answers t .errorProtocol)) ∧
    (s.spdm.session → (∃ t, exec .heartbeat s = .next t ∧ t.spdm = s.spdm ∧ answers t .heartbeatAck) ∧
      (∃ t, exec .keyUpdate s = .next t ∧ t.spdm = s.spdm ∧ answers t .keyUpdateAck) ∧
      (∃ t, exec .endSession s = .next t ∧ t.spdm.session = false ∧ answers t .endSessionAck)) ∧
    (∃ t, exec (.debugUnlock true) s = .next t ∧ t.boot = { s.boot with secret := false } ∧
      t.rdb F.MGT_SEC_STATUS_DEBUG_UNLOCKED 0 = true ∧ t.out = s.out) ∧
    exec (.debugUnlock false) s = .next s ∧
    (∀ n, n ≤ 65536 → (∃ t, exec (.doeDiscovery n 0) s = .next t ∧ answers t (.discovery 0 0 1)) ∧
      (∃ t, exec (.doeDiscovery n 2) s = .next t ∧ answers t (.discovery 2 2 0))) ∧
    (∀ (port : BitVec 3) (stream : BitVec 8), s.spdm.session → s.idePort port.toNat stream.toNat →
      let old := Tab.get 0 s.host.ide (port.toNat * 16 + stream.toNat)
      (∃ t, exec (.ideKmKeyProg port stream) s = .next t ∧ answers t (.keyProgAck port.toNat stream.toNat true) ∧
        Tab.get 0 t.host.ide (port.toNat * 16 + stream.toNat) = if old = 0 then 1 else if old = 3 then 4 else old) ∧
      (old ≠ 0 → old ≠ 3 → ∃ u : State, exec (.kSetGo port stream) s = .next u.flow ∧
        answers u (.setGoAck port.toNat stream.toNat) ∧ Tab.get 0 u.host.ide (port.toNat * 16 + stream.toNat) = 2))

/-- Quota writes (R111, R120): one that raises the sum of the quotas over the assignable capacity is refused with
OVERCOMMIT; a lower or equal one is always taken; a PART_QUOTA_SO outside the partition's range is refused; a pin
quota that is no higher is taken; the register of a Moor target that holds data keeps its value. A MIGRATE ends once
nothing of it is left: result 4 where a quota refused a granule, 10 where something else did, and 0 otherwise; MAP
while a command of its set runs is refused. -/
def Obligations.QuotasAndMigrationEnds : Prop :=
  (∀ s : State, s.pins.held = false →
     (∀ (p : BitVec 5) (tier : BitVec 2) (v : BitVec 32), tier.toNat < 3 →
       s.quotaUnits p.toNat tier.toNat < v.toNat →
       s.assignable tier.toNat < s.quotaSum tier.toNat p.toNat v.toNat * 65536 →
       ∃ t, exec (.quotaWrite p tier v) s = .next t ∧ onlyRegs s t ∧ t.rdb F.TIER_QUOTA_ERR_OVERCOMMIT 0 = true ∧
         regsBut s t [(Reg.TIER_QUOTA_ERR, 0)]) ∧
     (∀ (p : BitVec 5) (tier : BitVec 2) (v : BitVec 32), tier.toNat < 3 →
       v.toNat ≤ s.quotaUnits p.toNat tier.toNat →
       ∃ t, exec (.quotaWrite p tier v) s = .next t ∧ t.quotaUnits p.toNat tier.toNat = v.toNat ∧
         t = { s with regs := t.regs, plans := t.plans }) ∧
     (∀ (p : BitVec 5) (v : Word), s.soInRange p.toNat (F.PART_QUOTA_SO_SO.get v) →
       ∃ t, exec (.partQuotaSoWrite p v) s = .next t ∧ onlyRegs s t ∧
         t.rd F.PART_QUOTA_SO_SO p.toNat = F.PART_QUOTA_SO_SO.get v ∧
         t.rd F.PART_QUOTA_SO_EN p.toNat = F.PART_QUOTA_SO_EN.get v ∧ regsBut s t [(Reg.PART_QUOTA_SO, p.toNat)]) ∧
     (∀ (p : BitVec 5) (v : Word), F.PART_QUOTA_SO_EN.get v = 1 → s.soInRange p.toNat (F.PART_QUOTA_SO_SO.get v) = false →
       ∃ t, exec (.partQuotaSoWrite p v) s = .next t ∧ onlyRegs s t ∧ t.rdb F.PART_QUOTA_STATUS_SO_ERR p.toNat = true ∧
         regsBut s t [(Reg.PART_QUOTA_STATUS, p.toNat)]) ∧
     (∀ (p : BitVec 5) (v : BitVec 10), v.toNat ≤ s.rd F.DTU_PIN_QUOTA_PAGES p.toNat →
       ∃ t, exec (.dtuPinQuotaWrite p v) s = .next t ∧ onlyRegs s t ∧ t.rd F.DTU_PIN_QUOTA_PAGES p.toNat = v.toNat ∧
         regsBut s t [(Reg.DTU_PIN_QUOTA, p.toNat)]) ∧
     (∀ (t : BitVec 4) (v : Word), (∃ e ∈ s.space, homeOf e.1 = .moor ∧ moorTarget e.1 = t.toNat) →
       exec (.tierMoorTgtWrite t v) s = .next s) ∧
     (∀ (t : BitVec 4) (v : Word), s.space = [] → ∃ u, exec (.tierMoorTgtWrite t v) s = .next u ∧ onlyRegs s u ∧
       u.rd F.TIER_MOOR_TGT_KIND t.toNat = F.TIER_MOOR_TGT_KIND.get v ∧ regsBut s u [(Reg.TIER_MOOR_TGT, t.toNat)])) ∧
  (∀ (set : BitVec 6) (s : State),
     let k := set.toNat
     (∀ m, Tab.find? s.migs k = some m → s.served (k / 2) → (∀ e ∈ s.items, e.2.part ≠ k / 2 ∨ e.2.origin ≠ .migrate k) →
       exec (.migrateComplete set) s = .next (((({ s with migs := Tab.erase s.migs k }).dtuDone k (k / 2)
         (if 0 < m.quota then 4 else if 0 < m.other then 10 else 0) (m.quota + m.other)).dtuNext k).flow)) ∧
     (∀ c0 c1 c2, s.setOpen k → s.rdb F.DTU_CMD_CTRL_GO k → ∃ t, exec (.map set c0 c1 c2) s = .next t ∧ onlyRegs s t ∧
       t.rdb F.DTU_CMD_STATUS_BUSY_REFUSED k = true ∧ regsBut s t [(Reg.DTU_CMD_STATUS, k)]))

/-- Translation commands (R296 to R301): the words are written and GO sets; a command whose checks pass acts on its
range and ends with result 0 (MIGRATE runs on); one whose checks fail, shown for UNMAP, ends with its result code. -/
def Obligations.TranslationCommands : Prop :=
  ∀ (set : BitVec 6) (c0 c1 c2 : Word) (s : State), s.setOpen set.toNat → s.rdb F.DTU_CMD_CTRL_GO set.toNat = false →
    s.dtuRunning (otherSet set.toNat) = false →
    let k := set.toNat
    let p := k / 2
    let w (op : Nat) : Nat := c0.toNat / 256 * 256 + op
    let x (op : Nat) : State :=
      (((s.wr F.DTU_CMD0_WORD k (w op)).setReg Reg.DTU_CMD1 k c1).setReg Reg.DTU_CMD2 k c2).wr F.DTU_CMD_CTRL_GO k 1
    let ok (op : Nat) : Prop := (x op).dtuCheck p (w op) c1.toNat c2.toNat = 0
    (∀ u, ok 1 → (x 1).mapRange p (w 1) c1.toNat c2.toNat = some u →
      exec (.map set c0 c1 c2) s = .next (u.dtuDone k p 0 0).flow) ∧
    (ok 2 → exec (.unmap set c0 c1 c2) s = .next (((x 2).unmapRange p c1.toNat c2.toNat).dtuDone k p 0 0).flow) ∧
    (ok 3 → exec (.protect set c0 c1 c2) s = .next (((x 3).eachPage p (pagesOf c1.toNat c2.toNat)
      (fun e => { e with write := (w 3).testBit 8 })).dtuDone k p 0 0).flow) ∧
    (ok 4 → exec (.hint set c0 c1 c2) s = .next
      (((x 4).applyHint p c1.toNat c2.toNat (w 4 / 2 ^ 15 % 8)).dtuDone k p 0 0).flow) ∧
    (ok 5 → exec (.migrate set c0 c1 c2) s = .next
      ((x 5).migrateRange k p c1.toNat c2.toNat (Home.ofCode (w 5 / 2 ^ 9 % 4))).flow) ∧
    (ok 6 → exec (.pinXlate set c0 c1 c2) s = .next
      ((((x 6).eachPage p (pagesOf c1.toNat c2.toNat) (fun e => { e with pinned := true })).wr F.DTU_PIN_USED_PAGES p
        ((x 6).rd F.DTU_PIN_USED_PAGES p + (x 6).pinCount p (pagesOf c1.toNat c2.toNat) false)).dtuDone k p 0 0).flow) ∧
    (ok 7 → exec (.unpinXlate set c0 c1 c2) s = .next
      ((((x 7).eachPage p (pagesOf c1.toNat c2.toNat) (fun e => { e with pinned := false })).wr F.DTU_PIN_USED_PAGES p
        ((x 7).rd F.DTU_PIN_USED_PAGES p - (x 7).pinCount p (pagesOf c1.toNat c2.toNat) true)).dtuDone k p 0 0).flow) ∧
    (∀ r, 0 < r → (x 2).dtuCheck p (w 2) c1.toNat c2.toNat = r →
      exec (.unmap set c0 c1 c2) s = .next ((x 2).dtuDone k p r 0).flow)

/-- Cache commands (R339 to R343): FLUSH and EVICT act on the Meadow granules of the range, PIN and UNPIN on its pins;
each posts its result with DONE and raises the partition's command interrupt; an unaligned range is refused with
result 1, shown for FLUSH. A PF write of LLC_PIN_MASK (R337): free ways from 4 to 15 are taken, and the partition
holds its pin lease; ways 0 to 3 are refused, and a range that is pinned keeps the mask. -/
def Obligations.CacheCommandsAndPins : Prop :=
  (∀ (set : BitVec 6) (c1 c2 : Word) (s : State), s.setOpen set.toNat →
     let k := set.toNat
     let p := k / 2
     let x (op : Nat) : State :=
       ((s.wr F.LLC_CMD0_WORD k op).setReg Reg.LLC_CMD1 k c1).setReg Reg.LLC_CMD2 k c2
     let done (u : State) (r : Nat) : State :=
       (((u.wr F.LLC_CMD_STATUS_RESULT k r).flag F.LLC_CMD_STATUS_DONE k).wr F.LLC_CMD_CTRL_GO k 0).irq p 4
     let ok (op : Nat) : Prop := c1.toNat % 65536 = 0 ∧ c2.toNat % 65536 = 0 ∧ 0 < c2.toNat ∧ c2.toNat ≤ 2 ^ 40 ∧
       c1.toNat + c2.toNat ≤ 2 ^ 57 ∧ ∀ a ∈ pagesOf c1.toNat c2.toNat, ((x op).page? p a).isSome
     (ok 1 → exec (.llcFlush set 0 c1 c2) s = .next (done ((x 1).llcFlush p c1.toNat c2.toNat) 0)) ∧
     (ok 2 → exec (.llcEvict set 0 c1 c2) s = .next (done ((x 2).llcEvict p c1.toNat c2.toNat) 0)) ∧
     (ok 3 → exec (.llcPin set 0 c1 c2) s =
       .next (done ((x 3).llcPin p c1.toNat c2.toNat).2 ((x 3).llcPin p c1.toNat c2.toNat).1)) ∧
     (ok 4 → exec (.llcUnpin set 0 c1 c2) s =
       .next (done ((x 4).llcUnpin p c1.toNat c2.toNat).2 ((x 4).llcUnpin p c1.toNat c2.toNat).1)) ∧
     (c1.toNat % 65536 ≠ 0 → exec (.llcFlush set 0 c1 c2) s = .next (done (x 1) 1))) ∧
  (∀ (p : BitVec 5) (ways : BitVec 16) (s : State), s.pins.held = false →
     let q := p.toNat
     let free := ∀ r, r < 32 → r ≠ q → s.rd F.LLC_PIN_MASK_WAYS r &&& (ways.toNat / 16) = 0
     (ways.toNat % 16 = 0 → 0 < ways.toNat → free → Tab.get [] s.pinRanges q = [] →
       ∃ t, exec (.llcPinMaskWrite p ways) s = .next t ∧ t.rd F.LLC_PIN_MASK_WAYS q = ways.toNat / 16 ∧
         t.holds leasePin q q = true ∧ t = { s with regs := t.regs, leases := t.leases } ∧
         regsBut s t [(Reg.LLC_PIN_MASK, q)]) ∧
     (ways.toNat % 16 ≠ 0 → ∃ t, exec (.llcPinMaskWrite p ways) s = .next t ∧ onlyRegs s t ∧
       t.rdb F.LLC_PIN_ERR_BAD_WAYS q = true ∧ t.rd F.LLC_PIN_MASK_WAYS q = s.rd F.LLC_PIN_MASK_WAYS q) ∧
     (Tab.get [] s.pinRanges q ≠ [] → ∃ t, exec (.llcPinMaskWrite p ways) s = .next t ∧ onlyRegs s t ∧
       t.rdb F.LLC_PIN_ERR_IN_USE q = true ∧ t.rd F.LLC_PIN_MASK_WAYS q = s.rd F.LLC_PIN_MASK_WAYS q))

/-- Streams: a window or prefetch stream starts where its checks pass, sets CFG_ERR where the feature is not accepted,
and a write of EN = 0 stops it; a window is reconciled and a prefetch fires only while enabled as such. -/
def Obligations.StreamCommands : Prop :=
  ∀ (stream : BitVec 8) (cfg : Word) (s : State), s.served (stream.toNat / 8) →
    let i := stream.toNat
    (s.rdb F.TIER_STRM_CFG_EN i = false → s.feature 18 = false →
      (∃ t, exec (.streamEnableWindow stream cfg) s = .next t ∧ onlyRegs s t ∧
        t.rdb F.TIER_STRM_STATUS_CFG_ERR i = true ∧ t.rdb F.TIER_STRM_CFG_EN i = false ∧
        t.rd F.TIER_STRM_CFG_KIND i = 0) ∧
      (∃ t, exec (.streamEnablePrefetch stream cfg) s = .next t ∧ onlyRegs s t ∧
        t.rdb F.TIER_STRM_STATUS_CFG_ERR i = true ∧ t.rd F.TIER_STRM_CFG_KIND i = 1)) ∧
    (∀ u, s.rdb F.TIER_STRM_CFG_EN i = false → s.feature 18 → u = s.strmFields i ((cfg ||| 1) &&& ~~~ 2) → u.winOk i →
      exec (.streamEnableWindow stream cfg) s = .next
        ((((u.eachPage (i / 8) (pagesOf (u.rd F.TIER_STRM_BASE_ADDR i)
          (u.rd F.TIER_STRM_CFG_LAYERS i * u.rd F.TIER_STRM_SIZE_VALUE i))
            (fun e => { e with stream := i % 8 + 1 })).wr F.TIER_STRM_CFG_EN i 1).reconcile i).flow)) ∧
    (∀ u, s.rdb F.TIER_STRM_CFG_EN i = false → s.feature 18 → u = s.strmFields i (cfg ||| 3) → u.preOk i →
      ∃ t, exec (.streamEnablePrefetch stream cfg) s = .next t ∧ t.rdb F.TIER_STRM_CFG_EN i = true ∧
        t.rd F.TIER_STRM_POS_VALUE i = 0 ∧ onlyRegs s t) ∧
    (s.rdb F.TIER_STRM_CFG_EN i → exec (.streamEnableWindow stream cfg) s = .next s) ∧
    (s.rdb F.TIER_STRM_CFG_EN i → ∃ t, exec (.streamDisable stream cfg) s = .next t ∧
      t.rdb F.TIER_STRM_CFG_EN i = false ∧ Tab.find? t.streams i = none ∧
      t = { s with regs := t.regs, pages := t.pages, streams := t.streams }) ∧
    (s.rdb F.TIER_STRM_CFG_EN i → s.rd F.TIER_STRM_CFG_KIND i = 0 →
      exec (.windowReconcile stream) s = .next (s.reconcile i).flow) ∧
    (s.rdb F.TIER_STRM_CFG_EN i → s.rd F.TIER_STRM_CFG_KIND i = 1 →
      exec (.prefetchFire stream) s = .next (s.prefetchFire i).flow)

/-- The lower tiers: an answered Heath store leaves the core's buffer; a request or a store that times out fails; a
port or target that goes down, returns, is lost after its time or is declared lost changes the tier. -/
def Obligations.TierEvents : Prop :=
  ∀ s : State, s.pins.held = false →
    (∀ (core : BitVec 6) x, (s.core core.toNat).stores = [x] → exec (.heathResponse core false) s =
      .next ((s.landStore core.toNat x).setCore core.toNat { s.core core.toNat with stores := [] })) ∧
    (∀ (core : BitVec 6), (s.core core.toNat).stores = [] → exec (.heathResponse core true) s = .next s) ∧
    (∀ (item : Nat) (core : BitVec 6) it, s.item? item = some it → s.served it.part → it.ended = none →
      it.stage = .running → it.started → s.usesTier it .heath →
      exec (.heathTimeout (some item) core) s = .next (s.tierReqFail item 0x0041).flow) ∧
    (∀ (core : BitVec 6) x, (s.core core.toNat).stores = [x] → (s.core core.toNat).async = none →
      ∃ t, exec (.heathTimeout none core) s = .next t ∧ (t.core core.toNat).async = some x.va ∧
        (t.core core.toNat).stores = [] ∧ t.mem = s.mem) ∧
    (∀ (moor : Bool) (n : BitVec 4), exec (.tierPortDown moor n) s = .next (s.tierPortDown moor n.toNat).flow) ∧
    (∀ (moor : Bool) (n : BitVec 4), exec (.tierPortUp moor n) s = .next (s.tierPortUp moor n.toNat).flow) ∧
    (∀ n : BitVec 4, s.moorState n.toNat = 1 → exec (.tierLossTimeout true n) s = .next (s.loseMoor n.toNat).flow) ∧
    (∀ n : BitVec 4, n.toNat < 8 → s.heathState n.toNat = 1 →
      exec (.tierLossTimeout false n) s = .next (s.loseHeath n.toNat).flow) ∧
    (∀ n, n < 8 → s.role n = 3 → s.heathState n ≠ 2 →
      exec (.declareHeath (BitVec.ofNat 8 (2 ^ n))) s = .next (s.loseHeath n).flow) ∧
    (∀ n, n < 16 → s.rd F.TIER_MOOR_TGT_KIND n ≠ 0 → s.moorState n ≠ 2 →
      exec (.declareMoor (BitVec.ofNat 16 (2 ^ n))) s = .next (s.loseMoor n).flow)

/-- Watches and trackers (R394, R396): an armed watch whose object is below its threshold stays armed; one whose
condition holds fires at once; one outside the range is not armed; a tracker starts from its object's value, TIME and
its initial rate; one outside the range is refused. -/
def Obligations.WatchesAndTrackers : Prop :=
  (∀ (watch : BitVec 9) (cfg : Word) (s : State), s.partOpen (watch.toNat / 16) →
    let i := watch.toNat
    let n := F.SO_WATCH_CFG_SO.get cfg
    (s.soInRange (i / 16) n → (s.soVal n).toNat < s.rd F.SO_WATCH_VAL_THRESHOLD i →
      ∃ t, exec (.watchArm watch cfg) s = .next t ∧ onlyRegs s t ∧ t.rdb F.SO_WATCH_CFG_ARM i = true ∧
        t.rd F.SO_WATCH_CFG_SO i = n ∧ regsBut s t [(Reg.SO_WATCH_CFG, i)]) ∧
    (s.soInRange (i / 16) n → s.rd F.SO_WATCH_VAL_THRESHOLD i ≤ (s.soVal n).toNat →
      ∃ u : State, exec (.watchArm watch cfg) s =
          .next (u.msix (s.fnOf (i / 16)) (F.SO_WATCH_CFG_VECTOR.get cfg)) ∧ onlyRegs s u ∧
        u.rdb F.SO_WATCH_CFG_ARM i = false ∧ u.rdb F.SO_WATCH_CFG_FIRED i = true ∧ regsBut s u [(Reg.SO_WATCH_CFG, i)]) ∧
    (s.soInRange (i / 16) n = false → ∃ t, exec (.watchArm watch cfg) s = .next t ∧ onlyRegs s t ∧
      t.rdb F.SO_WATCH_CFG_ARM i = false ∧ t.rdb F.SO_DB_STATUS_OUT_OF_RANGE (i / 16) = true)) ∧
  (∀ (tracker : BitVec 7) (cfg : Word) (s : State), s.partOpen (tracker.toNat / 4) →
    let k := tracker.toNat
    let n := F.SO_PROG_CFG_SO.get cfg
    (s.rdb F.SO_PROG_CFG_EN k = false → s.soInRange (k / 4) n → ∃ t, exec (.trackerEnable tracker cfg) s = .next t ∧
      onlyRegs s t ∧ t.rdb F.SO_PROG_CFG_EN k = true ∧ t.rd F.SO_PROG_LAST_V_VALUE k = (s.soVal n).toNat ∧
      t.rd F.SO_PROG_LAST_T_NS k = s.time % 2 ^ 64 ∧ t.rd F.SO_PROG_RATE_NS k = s.rd F.SO_PROG_INIT_NS k % 2 ^ 32) ∧
    (s.rdb F.SO_PROG_CFG_EN k = false → s.soInRange (k / 4) n = false → ∃ t, exec (.trackerEnable tracker cfg) s = .next t ∧
      onlyRegs s t ∧ t.rdb F.SO_PROG_CFG_EN k = false ∧ t.rdb F.SO_PROG_CFG_CFG_ERR k = true) ∧
    (s.rdb F.SO_PROG_CFG_EN k → s.walks = [] → ∃ t, exec (.trackerDisable tracker cfg) s = .next t ∧ onlyRegs s t ∧
      t.rdb F.SO_PROG_CFG_EN k = false ∧ regsBut s t [(Reg.SO_PROG_CFG, k)]))

/-- A tracker's rate (R397): the sample is the time per count since the last one, at most 2^32 - 1; the new rate moves
from the old one toward the sample by the shifted difference, rounded down. -/
def Obligations.TrackerRateFollowsTheSample : Prop :=
  ∀ (rate lastV lastT shift v t : Nat), lastV < v → rate < 2 ^ 32 →
    let sample := min ((t - lastT) / (v - lastV)) (2 ^ 32 - 1)
    (trackerRate rate lastV lastT shift v t : Int) = rate + ((sample : Int) - rate) / 2 ^ shift ∧
    trackerRate rate lastV lastT shift v t < 2 ^ 32 ∧
    min rate sample ≤ trackerRate rate lastV lastT shift v t ∧ trackerRate rate lastV lastT shift v t ≤ max rate sample

/-- Walkers (R407, R410): enabling with an aligned block and a start object in range starts COUNT at 0; without the
feature it is refused; disabling stops the walk; a walk starts only while START_SO exceeds the count, and a block that
does not read sets BAD_BLOCK and still counts; a group of one entry issues its item; an aged request is marked. -/
def Obligations.WalkersAndAging : Prop :=
  (∀ (walker : BitVec 6) (cfg block : Word) (s : State), s.partOpen (walker.toNat / 2) →
    let k := walker.toNat
    (s.rd F.SO_WALK_STATUS_STATE k = 0 → s.feature 17 → s.soInRange (k / 2) (F.SO_WALK_CFG_START_SO.get cfg) →
      block.toNat % 64 = 0 → s.rdb F.SO_WALK_CFG_EN k = false → ∃ t, exec (.walkerEnable walker cfg block) s = .next t ∧
        onlyRegs s t ∧ t.rdb F.SO_WALK_CFG_EN k = true ∧ t.rd F.SO_WALK_COUNT_WALKS k = 0 ∧
        t.rd F.SO_WALK_CFG_START_SO k = F.SO_WALK_CFG_START_SO.get cfg ∧ t.reg Reg.SO_WALK_BLOCK k = block) ∧
    (s.rd F.SO_WALK_STATUS_STATE k = 0 → s.feature 17 = false → ∃ t, exec (.walkerEnable walker cfg block) s = .next t ∧
        onlyRegs s t ∧ t.rdb F.SO_WALK_CFG_EN k = false ∧ t.rdb F.SO_WALK_STATUS_BAD_BLOCK k = true) ∧
    (∃ t, exec (.walkerDisable walker cfg) s = .next t ∧ t.rdb F.SO_WALK_CFG_EN k = false ∧
        t.rd F.SO_WALK_STATUS_STATE k = 0 ∧ Tab.find? t.walks k = none ∧ t.items = s.items ∧ t.mem = s.mem)) ∧
  (∀ (walker : BitVec 6) (s : State),
    let k := walker.toNat
    ((s.soVal (s.rd F.SO_WALK_CFG_START_SO k)).toNat ≤ s.rd F.SO_WALK_COUNT_WALKS k →
      exec (.walkStart walker) s = .next s) ∧
    (s.served (k / 2) → s.rdb F.SO_WALK_CFG_EN k → s.rd F.SO_WALK_STATUS_STATE k = 0 →
      s.rd F.SO_WALK_COUNT_WALKS k < (s.soVal (s.rd F.SO_WALK_CFG_START_SO k)).toNat →
      (s.bump F.SO_WALK_COUNT_WALKS k 1).descWords (k / 2) (s.rd F.SO_WALK_BLOCK_ADDR k) 8 = none →
      ∃ t, exec (.walkStart walker) s = .next t ∧ onlyRegs s t ∧
        t.rd F.SO_WALK_COUNT_WALKS k = (s.rd F.SO_WALK_COUNT_WALKS k + 1) % 2 ^ F.SO_WALK_COUNT_WALKS.width ∧
        t.rdb F.SO_WALK_STATUS_BAD_BLOCK k = true) ∧
    (∀ r, Tab.find? s.walks k = some r → r.group = none → exec (.walkerGroupIssue walker) s = .next s) ∧
    (∀ r g e, Tab.find? s.walks k = some r → r.group = some g → s.served (k / 2) → r.issued = false → r.entries = [e] →
      (s.walkTimes (k / 2) r g).2 ≤ s.time + WB.lead r → s.time ≤ (s.walkTimes (k / 2) r g).2 →
      let x := (s.classOf (k / 2) (WB.urg r)).2
      let y := x.addItem { Item.blank (k / 2) (.lattice g.lo (WB.readback r)) with
        origin := .walker (k % 2), obj := e.1, peer := e.2, urg := (s.classOf (k / 2) (WB.urg r)).1
        deadline := (s.walkTimes (k / 2) r g).1, ta := r.descs.getD 0 0 }
      exec (.walkerGroupIssue walker) s =
        .next ((({ y with walks := Tab.put y.walks k { r with issued := true, items := [x.nextItem] } }).front
          x.nextItem).flow))) ∧
  (∀ (item : Nat) (s : State) (it : Item), s.pins.held = false → s.item? item = some it → it.id = item → 2 ≤ it.urg →
    s.waits it → ∃ t, exec (.aging item) s = .next t ∧ t = { s with items := t.items } ∧
      t.item? item = some { it with aged := true } ∧ ∀ j, j ≠ item → t.item? j = s.item? j)

/-- Plan loading (R93 to R96): a LOAD in EMPTY or REJECTED starts verification, in any other state it is refused as
busy; its end is ADMITTED or REJECTED; a load that takes too long ends with TIMEOUT; UNLOAD releases what the plan
holds, unless the partition is busy, and its completion leaves the partition EMPTY. -/
def Obligations.PlanLoadAndUnload : Prop :=
  ∀ (p : BitVec 5) (s : State), s.served p.toNat →
    let n := p.toNat
    (s.rd F.PART_PLAN_STATUS_STATE n ≠ 0 → s.rd F.PART_PLAN_STATUS_STATE n ≠ 4 → ∃ t, exec (.planLoad p) s = .next t ∧
      onlyRegs s t ∧ t.rdb F.PART_PLAN_STATUS_BUSY_REFUSED n = true ∧ regsBut s t [(Reg.PART_PLAN_STATUS, n)]) ∧
    ((s.rd F.PART_PLAN_STATUS_STATE n = 0 ∨ s.rd F.PART_PLAN_STATUS_STATE n = 4) → (Admit.run s n).2 = none →
      (Admit.run s n).1.plan = none → (Admit.run s n).1.reason = Admit.rFeature →
      ∃ t, exec (.planLoad p) s = .next t ∧ t.rd F.PART_PLAN_STATUS_STATE n = 1 ∧ t.rd F.PART_PLAN_CTRL_LOAD n = 1 ∧
        (t.plan n).load = some (Admit.run s n).1 ∧ t.mem = s.mem ∧ t.tiles = s.tiles) ∧
    (∀ l, (s.plan n).load = some l → l.plan = none → exec (.planLoadEnd p) s = .next (s.rejectLoad n l.reason l.report)) ∧
    (∀ l pl, (s.plan n).load = some l → l.plan = some pl → l.changed = false → l.reason = 0 →
      exec (.planLoadEnd p) s = .next ((s.admitPlan n pl).report n l.report 0 2)) ∧
    (∀ l, (s.plan n).load = some l → l.plan = none → exec (.planLoadTimeout p) s = .next (s.rejectLoad n Admit.rTimeout
      (Admit.words 0 (fun _ => 0) (Admit.Bad.plain Admit.rTimeout) false))) ∧
    (s.rd F.PART_PLAN_STATUS_STATE n = 2 → s.partBusy n = false →
      exec (.unload p) s =
        .next (((s.releaseAll n).wr F.PART_PLAN_CTRL_UNLOAD n 1).wr F.PART_PLAN_STATUS_STATE n 3)) ∧
    (s.rd F.PART_PLAN_STATUS_STATE n = 2 → s.partBusy n → ∃ t, exec (.unload p) s = .next t ∧ onlyRegs s t ∧
      t.rdb F.PART_PLAN_STATUS_BUSY_REFUSED n = true ∧ regsBut s t [(Reg.PART_PLAN_STATUS, n)]) ∧
    (s.rd F.PART_PLAN_STATUS_STATE n = 3 → (∀ c, c < 64 → s.corePart? c ≠ some n) →
      ∃ u : State, exec (.unloadComplete p) s = .next u.flow ∧ u.rd F.PART_PLAN_STATUS_STATE n = 0 ∧
        u.rd F.PART_PLAN_CTRL_UNLOAD n = 0 ∧ u.plan n = PlanState.empty ∧ u.rd F.PART_META_BASE_ADDR n = 0 ∧
        u.mem = s.mem ∧ u.scratch = s.scratch)

/-- Media errors (R608, R611 to R619): a corrected sector is counted; a known poisoned one changes nothing; an
uncorrectable sector costs its owner what Table 17-1 says; corrected errors of a slice, of scratch and of a sync
object are counted, and an uncorrectable one of a sync object ends its partition in FATAL; zeroing takes a freed range
of Meadow off the queue. -/
def Obligations.MediaErrorsAndZeroing : Prop :=
  ∀ s : State, s.pins.held = false →
    (∀ (dpa : BitVec 41), let k := dpa.toNat / 32 * 32
      s.rdb F.ERR_SCRUB_CFG_EN 0 → s.meadowOn (dieOf k) → k % 2 ^ 39 < s.dieCap (dieOf k) →
      exec (.scrubRead dpa .clean false false) s = .next s.flow ∧
      exec (.scrubRead dpa .correctable false false) s = .next ((s.countCe (s.siteOf k)).noteFixed k).flow ∧
      (∀ use, s.poisonAt k → exec (.scrubRead dpa (.uncorrectable use) false false) s = .next s.flow) ∧
      (∀ use, exec (.scrubRead dpa (.uncorrectable use) false false) s = .next (s.scrubUe k use).flow) ∧
      (∃ u : State, exec (.scrubRead dpa .clean true true) s = .next u.flow ∧
        u.rd F.ERR_SCRUB_STATUS_PASSES 0 =
          (s.rd F.ERR_SCRUB_STATUS_PASSES 0 + 1) % 2 ^ F.ERR_SCRUB_STATUS_PASSES.width ∧
        u.rdb F.ERR_SCRUB_STATUS_BEHIND 0 = true ∧ regsBut s u [(Reg.ERR_SCRUB_STATUS, 0)])) ∧
    (∀ (offset : BitVec 48), let k := heathKey (offset.toNat / 32 * 32)
      (∃ r ∈ s.regions, heathKey r.2.1 ≤ k ∧ k < heathKey (r.2.1 + r.2.2)) → s.poisonAt k = false →
        exec (.heathMediaEvent offset) s = .next ((s.setPoison k true).poisonFound k 3).flow) ∧
    (∀ (die : BitVec 2) (set : BitVec 15) (way : BitVec 4), s.rdb F.ERR_SCRUB_CFG_EN 0 → s.meadowOn die.toNat →
      exec (.llcScrub die set way .dataCorrected) s = .next (s.sat F.ERR_CE_OTHER_LLC 0 1).flow ∧
      exec (.llcScrub die set way .scratchCorrected) s = .next (s.sat F.ERR_CE_OTHER_SCRATCH 0 1).flow ∧
      exec (.llcScrub die set way .syncCorrected) s = .next (s.sat F.ERR_CE_OTHER_SYNC 0 1).flow ∧
      (∀ o p, s.soOwner o.toNat = some p → exec (.llcScrub die set way (.sync o)) s =
        .next ((s.flag F.ERR_STATUS_SO_UE 0).fatal p 5 1 (o.toNat * 2 ^ 18)).flow)) ∧
    (∀ (unit : BitVec 6) z, s.zeroQ.find? (fun z => s.unitOf z.key == unit.toNat) = some z → homeOf z.key = .meadow →
      exec (.zeroRange unit) s =
        .next ((({ s with zeroQ := unqueue s.zeroQ z.key z.len }).retireIn z.key z.len).zeroRun z.key z.len).flow) ∧
    (∀ (unit : BitVec 6), (∀ z ∈ s.zeroQ, s.unitOf z.key ≠ unit.toNat) → exec (.zeroRange unit) s = .next s)

/-- Zeroing (R284, R619): afterwards every byte of the range reads 0, but those of a retired page; every other byte
reads as before; memory keeps its canonical form. Memory: what is stored at locations is read back byte for byte,
every other byte reads as before, and memory keeps its canonical form. -/
def Obligations.MemoryCells : Prop :=
  (∀ (s : State) (k n j : Nat), Memory.wf s.mem →
     Memory.wf (s.zeroRun k n).mem ∧
     (s.zeroRun k n).byte j =
       if k ≤ j ∧ j < k + n ∧ ¬ (isMeadow k ∧ (Tab.find? s.err.retired (j / 4096)).isSome) then 0 else s.byte j) ∧
  (∀ (s : State) (k : Nat) (bs : List Byte), Memory.wf s.mem →
     let t : State := { s with mem := memStore s.mem k bs }
     t.bytes k bs.length = bs ∧ memBut s t k bs.length ∧ Memory.wf t.mem)

/-- What fences a die or ends the device (R629 to R631): a failed stack, a failed mesh link of two online dies, a
parity error, a lost link to a Post die; a fence or an FLR that does not complete, and the escalation after a device
cause. A fence of M0 is device cause 1; a die that is offline is not fenced again. -/
def Obligations.DieAndDeviceFailures : Prop :=
  (∀ s : State, s.pins.held = false →
    (∀ (stack : BitVec 3), s.stackOnline stack.toNat →
      exec (.hbmStackFailure stack) s = .next (s.fence (stack.toNat / 2) 5)) ∧
    (∀ (a b : BitVec 2), a ≠ b → s.meadowOn a.toNat → s.meadowOn b.toNat →
      exec (.meshLinkFailure a b) s = .next (s.fence (max a.toNat b.toNat) 4)) ∧
    (∀ (die : BitVec 2), exec (.dieParityError die) s = .next (s.fence die.toNat 6)) ∧
    (∀ (post : BitVec 2), s.variant.posts.testBit post.toNat → s.err.postDown.testBit post.toNat = false →
      exec (.postLinkFailure post) s =
        .next (if post = 0 then s.deviceCause 1 else (s.postLost post.toNat).flow)) ∧
    (∀ (die : BitVec 2), (s.rd F.ERR_DIE_STATUS_FENCED 0).testBit die.toNat →
      exec (.fenceTimeout die) s = .next (s.deviceCause 5)) ∧
    (∀ (fn : BitVec 7), fn.toNat < 64 → s.rdb F.HOST_FN_STATUS_FLR_ACTIVE fn.toNat →
      exec (.flrTimeout fn) s = .next (s.deviceCause 3))) ∧
  (∀ s : State, s.err.deviceStop → s.rd F.ERR_ESCALATE_MS_MS 0 ≠ 0 →
    exec .escalationTimeout s = .next (s.warmReset 7)) ∧
  (∀ (s : State) (n cause : Nat), s.meadowOn n = false → s.fence n cause = s) ∧
  (∀ (s : State) (c : Nat), s.err.deviceStop → onlyRegs s (s.deviceCause c) ∧
    regsBut s (s.deviceCause c) [(Reg.ERR_STATUS, 0)]) ∧
  (∀ (s : State) (c : Nat), s.err.deviceStop = false → c ≠ 1 → s.rd F.ERR_DEVICE_CAUSE_CAUSE 0 = 0 → c < 16 →
    (s.deviceCause c).err.deviceStop = true ∧ (s.deviceCause c).rd F.ERR_DEVICE_CAUSE_CAUSE 0 = c ∧
    (s.deviceCause c).rdb F.ERR_STATUS_DEVICE_FATAL 0 = true ∧ (s.deviceCause c).mem = s.mem)

/-- Lease commands (R516, R517, R688): GRANT is refused while a command runs; GRANT of a FREE channel or ring gives it
to the partition with its epoch advanced by one; QUERY reads an instance; REVOKE starts the revocation; ASSIGN_CORES
and UNASSIGN_CORES move cores; a command that fails its checks, shown for QUERY, ends with its result. -/
def Obligations.LeaseCommands : Prop :=
  ∀ (cmd0 cmd1 : Word) (s : State), s.pins.held = false →
    let put (op : Nat) : State :=
      (s.setReg Reg.PART_LEASE_CMD0 0 (F.PART_LEASE_CMD0_OP.put cmd0 op)).setReg Reg.PART_LEASE_CMD1 0
        (if op < 4 then s.reg Reg.PART_LEASE_CMD1 0 else cmd1)
    let go (op : Nat) : State := (put op).wr F.PART_LEASE_CTRL_GO 0 1
    let kind := F.PART_LEASE_CMD0_KIND.get cmd0
    let i := F.PART_LEASE_CMD0_INDEX.get cmd0
    let p := F.PART_LEASE_CMD0_PARTITION.get cmd0
    let check (op : Nat) : Nat := (go op).leaseCheck op kind i p (cmd0.toNat / 2 ^ 29) cmd1.toNat
    (s.rdb F.PART_LEASE_CTRL_GO 0 → ∃ t, exec (.grant cmd0) s = .next t ∧ onlyRegs s t ∧
      t.rdb F.PART_LEASE_STATUS_BUSY_REFUSED 0 = true ∧ regsBut s t [(Reg.PART_LEASE_STATUS, 0)]) ∧
    (s.rdb F.PART_LEASE_CTRL_GO 0 = false → check 1 = 0 → ∃ t, exec (.grant cmd0) s = .next t ∧
      t.lease kind i = { state := 1, holder := p, epoch := ((s.lease kind i).epoch + 1) % 2 ^ 32 } ∧
      (∀ j, j < 32768 → j ≠ kind * 4096 + i → Tab.get Lease.free t.leases j = Tab.get Lease.free s.leases j) ∧
      t.rd F.PART_LEASE_STATUS_RESULT 0 = 0 ∧ t.rdb F.PART_LEASE_STATUS_DONE 0 = true ∧
      t.rdb F.PART_LEASE_CTRL_GO 0 = false ∧ t = { s with regs := t.regs, leases := t.leases }) ∧
    (s.rdb F.PART_LEASE_CTRL_GO 0 = false → check 2 = 0 →
      exec (.revoke cmd0) s = .next ((go 2).revoke kind i).flow) ∧
    (s.rdb F.PART_LEASE_CTRL_GO 0 = false → check 3 = 0 → ∃ t, exec (.query cmd0) s = .next t ∧ onlyRegs s t ∧
      t.rd F.PART_LEASE_RESULT_STATE 0 = (s.lease kind i).state % 2 ^ F.PART_LEASE_RESULT_STATE.width ∧
      t.rd F.PART_LEASE_RESULT_EPOCH 0 = (s.lease kind i).epoch % 2 ^ F.PART_LEASE_RESULT_EPOCH.width ∧
      t.rd F.PART_LEASE_STATUS_RESULT 0 = 0 ∧ t.rdb F.PART_LEASE_STATUS_DONE 0 = true) ∧
    (s.rdb F.PART_LEASE_CTRL_GO 0 = false → check 4 = 0 →
      exec (.assignCores cmd0 cmd1) s = .next (((go 4).moveCores cmd1.toNat (some p)).leaseEnd 0)) ∧
    (s.rdb F.PART_LEASE_CTRL_GO 0 = false → check 5 = 0 →
      exec (.unassignCores cmd0 cmd1) s = .next (((go 5).moveCores cmd1.toNat none).leaseEnd 0)) ∧
    (s.rdb F.PART_LEASE_CTRL_GO 0 = false → check 3 ≠ 0 → check 3 < 8 → ∃ t, exec (.query cmd0) s = .next t ∧
      onlyRegs s t ∧ t.rd F.PART_LEASE_STATUS_RESULT 0 = check 3 ∧ t.rdb F.PART_LEASE_STATUS_DONE 0 = true)

/-- Partition resets, revocations, range writes (R120, R387, R520 to R525): a reset starts the quench of its
partition, and its completion makes the partition ACTIVE; a revocation's completion frees a channel's lease; a stalled
context is reclaimed; a range beyond the last number is refused, and one that meets no other is leased to the
partition. -/
def Obligations.ResetsAndRevocations : Prop :=
  ∀ s : State, s.pins.held = false →
    (∀ (p : BitVec 5), s.partState p.toNat ≠ partResetting →
      exec (.partReset p) s = .next (s.startReset p.toNat).flow) ∧
    (∀ (p : BitVec 5), s.partState p.toNat = partResetting → exec (.partReset p) s = .next s ∧
      ∃ u : State, exec (.partResetComplete p) s = .next u.flow ∧ onlyRegs s u ∧ u.partState p.toNat = partActive ∧
        u.rdb F.PART_CTRL_RESET p.toNat = false ∧ u.rdb F.PART_RECOVERY_STATUS_RESET_DONE p.toNat = true ∧
        u.rdb F.HOST_FN_STATUS_FLR_ACTIVE p.toNat = false) ∧
    (∀ (i : BitVec 12), (s.lease 1 i.toNat).state = 2 → s.revoking 1 i.toNat = false → s.rangeWr = [] →
      ∃ u : State, exec (.revocationComplete 1 i) s = .next u.flow ∧
        u.lease 1 i.toNat = { state := 0, holder := 0, epoch := (s.lease 1 i.toNat).epoch } ∧
        u = { s with regs := u.regs, leases := u.leases }) ∧
    (∀ (k : BitVec 4) (i : BitVec 12), (s.lease k.toNat i.toNat).state ≠ 2 →
      exec (.revocationComplete k i) s = .next s) ∧
    (∀ (ctx : BitVec 7), (s.lease 6 ctx.toNat).state = 1 →
      exec (.contextReclaim false ctx) s =
        .next ((s.revokeCtx ctx.toNat).flag F.PART_RECOVERY_STATUS_CTX_RECLAIMED (s.lease 6 ctx.toNat).holder).flow) ∧
    (∀ (p : BitVec 5) (base : BitVec 12) (count : BitVec 13), s.partState p.toNat ≠ partResetting →
      4096 < base.toNat + count.toNat → s.rangeWr = [] →
      (∃ t, exec (.soRangeWrite p base count) s = .next t ∧ onlyRegs s t ∧ t.rdb F.SO_RANGE_ERR_OVERLAP 0 = true ∧
        regsBut s t [(Reg.SO_RANGE_ERR, 0)]) ∧
      (∃ t, exec (.crrConnRangeWrite p base count) s = .next t ∧ onlyRegs s t ∧
        t.rdb F.SO_RANGE_ERR_OVERLAP 0 = true ∧ regsBut s t [(Reg.SO_RANGE_ERR, 0)])) ∧
    (∀ (p : BitVec 5) (base : BitVec 12) (count : BitVec 13), s.partState p.toNat ≠ partResetting → s.rangeWr = [] →
      (s.rangeVal leaseConn p.toNat) = 0 → 0 < count.toNat → base.toNat + count.toNat ≤ 4096 →
      (∀ q, q < 32 → q ≠ p.toNat → s.rangeVal leaseConn q = 0) →
      ∃ u : State, exec (.crrConnRangeWrite p base count) s = .next u.flow ∧
        u.rangeVal leaseConn p.toNat = base.toNat + count.toNat * 2 ^ 12 ∧ u.rangeWr = [] ∧
        ∀ c, c < 4096 → (base.toNat ≤ c ∧ c < base.toNat + count.toNat ↔
          u.lease leaseConn c = { state := 1, holder := p.toNat, epoch := ((s.lease leaseConn c).epoch + 1) % 2 ^ 32 } ∧
          u.connState c = connClosed ∧ u.lease leaseConn c ≠ s.lease leaseConn c)) ∧
    (∀ (p : BitVec 5) (base : BitVec 12) (count : BitVec 13), s.partState p.toNat ≠ partResetting → s.rangeWr = [] →
      (s.rangeVal leaseSync p.toNat) = 0 → 0 < count.toNat → base.toNat + count.toNat ≤ 4096 →
      (∀ q, q < 32 → q ≠ p.toNat → s.rangeVal leaseSync q = 0) → s.rdb F.PART_QUOTA_SO_EN p.toNat = false →
      ∃ u : State, exec (.soRangeWrite p base count) s = .next u.flow ∧
        u.rangeVal leaseSync p.toNat = base.toNat + count.toNat * 2 ^ 12 ∧ u.rangeWr = [] ∧
        ∀ n, n < 4096 → base.toNat ≤ n → n < base.toNat + count.toNat → u.soVal n = 0 ∧
          u.lease leaseSync n = { state := 1, holder := p.toNat, epoch := ((s.lease leaseSync n).epoch + 1) % 2 ^ 32 }) ∧
    (∀ (die : BitVec 2) (k : BitVec 4) (i : BitVec 12) (p : BitVec 5), (s.lease k.toNat i.toNat).state = 2 →
      (s.fence die.toNat 3).meadowOn die.toNat = false →
      exec (.quiescenceTimeout die (some (k, i)) p) s =
        .next ((s.fence die.toNat 3).revocationDone k.toNat i.toNat 7))

/-- Device resets (R573, R574, R599, R600): a warm reset of a running device begins at ROM; it records its cause,
empties Meadow and every work list, keeps the bytes of Heath and Moor, and Frank and the tally engine go on. A reset
register takes its command with the right key only. A held device takes no reset; HOST PERST_L starts a device that
waits for it. PWROK low or a lost clock holds it. -/
def Obligations.DeviceResets : Prop :=
  (∀ (s t : State) (bit : Nat), s.pins.held = false → s.pins.hostPerstLow = false → s.boot.escalate = false →
    (t = s.warmReset bit →
      t.phase = phRom ∧ t.rd F.SYS_RESET_CAUSE_LAST 0 = bit % 2 ^ F.SYS_RESET_CAUSE_LAST.width ∧
      t.items = [] ∧ t.tiles = [] ∧ t.leases = [] ∧ t.sos = [] ∧ t.time = 0 ∧ t.frank = s.frank ∧ t.tally = s.tally ∧
      t.pins.devReady = false ∧ t.pins.held = false ∧
      (∀ k, t.byte k = if isMeadow k then 0 else s.byte k) ∧
      t.rd F.SYS_RESET_CAUSE_WARM_COUNT 0 = min (s.rd F.SYS_RESET_CAUSE_WARM_COUNT 0 + 1) 4095)) ∧
  (∀ s : State, s.pins.held = false →
    exec .hotReset s = .next (s.warmReset 3) ∧
    exec .perstAssert s = .next (({ s with pins := { s.pins with hostPerstLow := true } }).warmReset 2) ∧
    exec .pldmResetRequest s = .next (s.warmReset 5) ∧
    exec (.warm 0xA5) s = .next (s.warmReset 4) ∧ exec (.cold 0xA5) s = .next (s.coldReset 1) ∧
    (∀ key : BitVec 8, key ≠ 0xA5 → exec (.cold key) s = .next s ∧ exec (.warm key) s = .next s) ∧
    (∀ t, exec .mcWatchdog s = .next t → s.pins.hostPerstLow = false → t.phase = phRom ∧
      t.rd F.SYS_RESET_CAUSE_LAST 0 = 6 ∧ t.rd F.SYS_RESET_CAUSE_ESCALATION 0 = 1) ∧
    (∃ t, exec .mcWatchdog s = .next t) ∧
    (∃ t, exec (.clockLoss false) s = .next t ∧ t = { s with pins := t.pins } ∧ t.pins.held = true ∧
      t.pins.devFaultLow = true ∧ t.pins.devReady = false)) ∧
  (∀ s : State, s.pins.held → exec .hotReset s = .next s ∧ exec (.cold 0xA5) s = .next s) ∧
  (∀ s : State, s.pins.held = false → s.phase = 0 → ∃ t, exec .hostPerstDeassert s = .next t ∧ t.phase = phRom ∧
    t.pins.hostPerstLow = false ∧ t = { s with regs := t.regs, pins := t.pins }) ∧
  (∀ s : State, ∃ t, exec .pwrokFall s = .next t ∧ t = { s with pins := t.pins } ∧ t.pins.pwrok = false ∧
    t.pins.held = true) ∧
  (∀ s : State, s.pins.pwrok = false → ∃ t, exec .pwrokRise s = .next t ∧ t.phase = phStraps ∧ t.pins.pwrok = true ∧
    t.pins.held = true ∧ t.rd F.SYS_RESET_CAUSE_LAST 0 = 0 ∧ t.frank = s.frank ∧ t.err.retired = [])

/-- Start-up phases (Table 16-5, R577, R583, R584, R595 to R598): each phase's event ends it or fails it with its
cause. -/
def Obligations.StartUpPhases : Prop :=
  (∀ (straps : BitVec 12) (s : State), s.pins.pwrok → s.phase = phStraps → s.pins.held →
    ∃ t, exec (.strapSample straps false) s = .next t ∧ t.phase = phRom ∧ t.pins.held = false ∧
      t.rd F.SYS_STRAPS_HOSTPORT 0 = straps.toNat / 4 % 4 ∧
      t.rd F.SYS_STRAPS_BOOT_SRC_APPLIED 0 = (if straps.toNat % 4 = 3 then 0 else straps.toNat % 4)) ∧
  (∀ s : State, s.pins.held = false → s.phase = phRom →
    (∃ t, exec .pllLockTimeout s = .next t ∧ onlyRegs s t ∧ t.phase = phFailed ∧ t.rd F.SYS_START_STATUS_FAIL_CAUSE 0 = 1) ∧
    (∃ t, exec (.firmwareStart false false false) s = .next t ∧ onlyRegs s t ∧ t.phase = phFailed ∧
      t.rd F.SYS_START_STATUS_FAIL_CAUSE 0 = 2) ∧
    (s.rd F.SYS_STRAPS_BOOT_SRC_APPLIED 0 ≠ 0 → exec (.firmwareStart true false false) s = .next (s.setPhase phRecovery)) ∧
    (∀ x, s.rd F.SYS_STRAPS_BOOT_SRC_APPLIED 0 = 0 → s.boot.slotA = some x → s.boot.slotB = none → s.accepts x.image →
      exec (.firmwareStart true false false) s = .next (s.runImage x.image (some false)))) ∧
  (∀ (image : FwImage) (s : State), s.pins.held = false → s.phase = phRecovery → s.accepts image →
    exec (.recoveryImage false image) s = .next (s.runImage image none)) ∧
  (∀ s : State, s.pins.held = false → s.phase = phDies →
    (∃ t, exec (.diesDone 0 0 0) s = .next t ∧ t.phase = phFailed ∧ t.rd F.SYS_START_STATUS_FAIL_CAUSE 0 = 4) ∧
    (∀ sites : BitVec 8, sites.toNat % 4 = 3 → s.variant.sites.testBit 0 → s.rdb F.ERR_RETIRE_FULL 0 = false →
      ∃ t, exec (.diesDone sites 0 0) s = .next t ∧ t.phase = phZero ∧ t.mem = s.mem)) ∧
  (∀ s : State, s.pins.held = false → s.phase = phZero →
    (∀ failed : BitVec 8, s.boot.sites.testBit 0 → failed.toNat.testBit 0 = false → ∃ t,
      exec (.zeroPassDone failed) s = .next t ∧ t.phase = phLinks ∧ t.pins.perstLow = 0) ∧
    (∃ t, exec (.zeroPassDone 0xFF) s = .next t ∧ t.phase = phFailed ∧ t.rd F.SYS_START_STATUS_FAIL_CAUSE 0 = 4)) ∧
  (∀ (heath : List HeathPortUp) (s : State), s.pins.held = false → s.phase = phLinks → ∃ t,
    exec (.linksDone heath) s = .next t ∧ t.phase = phReady ∧ t.pins.devReady = true ∧
      t.rdb F.SYS_START_STATUS_READY 0 = true ∧ t.mem = s.mem) ∧
  (∀ (image : FwImage) (s : State), s.pins.held = false → s.boot.running.isSome → s.boot.fromSlot = some true →
    s.accepts image → s.pins.pwrfailLow = false → ∃ t x, exec (.firmwareUpdate image true) s = .next t ∧
      t.boot.slotA = some x ∧ x.image = image ∧ t.boot.slotB = s.boot.slotB ∧ t = { s with boot := t.boot })

/-- Power and temperature (R663 to R667): PWRBRK_L sets level 7 at once; a tick sets the level R663 names, from which
a step is at most one level unless PWRBRK_L is low; three samples over a trip limit hold the device; a fall of
PWRFAIL_L is shown and ends a configuration command POWER_FAIL. -/
def Obligations.PowerAndThrottling : Prop :=
  (∀ (level : Nat) (brk hot cool : Bool), level ≤ 7 →
    throttleLevel level brk hot cool ≤ 7 ∧ (throttleLevel level brk hot cool ≤ level + 1 ∨ brk = true) ∧
    level - 1 ≤ throttleLevel level brk hot cool ∧ throttleLevel level true hot cool = 7 ∧
    throttleLevel level false true cool = min (level + 1) 7 ∧
    throttleLevel level false false true = level - 1 ∧ throttleLevel level false false false = level) ∧
  (∀ s : State, s.pins.held = false →
    (∃ t, exec .throttleTick s = .next t ∧ t = { s with regs := t.regs, pins := t.pins, overTj := decide (100 * 16 ≤ s.tDie) } ∧
      t.rd F.PWR_THROTTLE_STATUS_LEVEL 0 =
        throttleLevel (s.rd F.PWR_THROTTLE_STATUS_LEVEL 0) s.pins.pwrbrkLow
          (decide (s.throttleC * 16 ≤ s.tDie ∨ 85 * 16 ≤ s.tHbm ∨ s.powerLimit * 1000 < s.rd F.PWR_POWER_MW 0))
          (decide (s.tDie < (s.throttleC - 3) * 16 ∧ s.tHbm < 82 * 16 ∧
            s.rd F.PWR_POWER_MW 0 * 100 < s.powerLimit * 95000)) ∧
      t.pins.thermAlertLow = (decide (0 < t.rd F.PWR_THROTTLE_STATUS_LEVEL 0) || decide (100 * 16 ≤ s.tDie)) ∧
      regsBut s t [(Reg.PWR_THROTTLE_STATUS, 0)]) ∧
    (∃ t, exec .pwrbrkFall s = .next t ∧ t.rd F.PWR_THROTTLE_STATUS_LEVEL 0 = 7 ∧
      t.rdb F.PWR_THROTTLE_STATUS_PWRBRK 0 = true ∧ t.pins.pwrbrkLow = true ∧ t.pins.thermAlertLow = true ∧
      t = { s with regs := t.regs, pins := t.pins }) ∧
    (∀ dies hbm power rails, s.overRun = 2 → 110 * 16 ≤ maxReading s.dieOnline dies 8 →
      ∃ t, exec (.sensorSample dies hbm power rails) s = .next t ∧ t.pins.thermTripLow = true ∧ t.pins.held = true ∧
        t.mem = s.mem) ∧
    (∀ dies hbm power rails, maxReading s.dieOnline dies 8 < 110 * 16 → maxReading s.stackOnline hbm 8 < 100 * 16 →
      power < 2 ^ 32 → ∃ t, exec (.sensorSample dies hbm power rails) s = .next t ∧ t.overRun = 0 ∧
        t.pins = s.pins ∧ t.rd F.PWR_POWER_MW 0 = power % 2 ^ F.PWR_POWER_MW.width ∧
        t = { s with regs := t.regs, overRun := 0 })) ∧
  (∀ s : State, ∃ t, exec .pwrbrkRise s = .next t ∧ t = { s with pins := t.pins } ∧ t.pins.pwrbrkLow = false) ∧
  (∀ s : State, s.pins.held = false → s.rdb F.PWR_PWRFAIL_STATUS_LEVEL 0 = false → ∃ t, exec .pwrfailFall s = .next t ∧
    t.rdb F.PWR_PWRFAIL_STATUS_LEVEL 0 = true ∧ t.rdb F.PWR_PWRFAIL_STATUS_SEEN 0 = true ∧ t.pins.pwrfailLow = true ∧
    t.rdb F.MGT_CFGS_CTRL_GO 0 = false ∧ (s.rdb F.MGT_CFGS_CTRL_GO 0 → t.rd F.MGT_CFGS_STATUS_RESULT 0 = 5) ∧
    t.mem = s.mem ∧ t.frank = s.frank) ∧
  (∀ s : State, s.pins.held = false → ∃ t, exec .pwrfailRise s = .next t ∧ t.pins.pwrfailLow = false ∧
    t.rdb F.PWR_PWRFAIL_STATUS_LEVEL 0 = false ∧ t.mem = s.mem ∧ regsBut s t [(Reg.PWR_PWRFAIL_STATUS, 0)])

/-- Register accesses (R11, R459, R642, R643, R653): a write of a size or alignment that no register takes is dropped
and counted; a partition in reset takes none; an 8-byte write of a register without an effect of its own gives each
field what its access code says, and changes nothing else. A read of the wrong form gives zeros. A read of
MGT_RSV_DATA advances its address; outside the reserve it gives zeros and is counted. The configuration store (R586 to
R592): a command is refused while one runs; READ without a valid bank ends with 3; a WRITE of a bad length with 1;
nothing is written while PWRFAIL_L is low. A verified WRITE stores the payload with the next SEQUENCE in the bank that
did not hold the newest record; CLEAR erases both. Start-up without a bank, or in safe boot, takes the defaults. -/
def Obligations.RegistersAndConfiguration : Prop :=
  ((∀ (fn off size : Nat) (v : Word) (s : State) (r : Reg) (i : Nat), s.pins.held = false → s.fnExists fn →
     s.rdb F.HOST_FN_STATUS_FLR_ACTIVE fn = false → s.place fn off = .reg r i →
     (goodAccess off size = false →
       exec (.registerWrite fn (.bar0 off size v)) s = .next (s.badAccess fn off) ∧
       exec (.badAccess fn off size true) s =
         .next ((s.badAccess fn off).emit (.readData fn (List.replicate size 0)))) ∧
     (goodAccess off size → (∃ p, s.instancePart r i = some p ∧ s.partState p = partResetting) →
       exec (.registerWrite fn (.bar0 off size v)) s = .next s) ∧
     (goodAccess off 8 → size = 8 → (∀ p, s.instancePart r i = some p → s.partState p ≠ partResetting) →
       s.rdb F.SYS_OPEN_OPENED 0 = false → s.regKept r i = false → r ≠ .LLC_PIN_MASK → r ≠ .SYS_RESET_CTRL →
       (∀ w, s.opWritePart r i w = none ∧ s.opWriteDevice r i w = none) →
       accMask Acc.writable (fn == 0) (regSpec r).fields ≠ 0 → i < 131072 →
       ∃ t, exec (.registerWrite fn (.bar0 off size v)) s = .next t ∧ onlyRegs s t ∧ regsBut s t [(r, i)] ∧
         t.reg r i = clampWord r (accWrite (fn == 0) (regSpec r).fields (s.reg r i) (~~~ 0) v))) ∧
   (∀ (fs : List FldSpec) (old v : Word) (pf : Bool) (j : Nat), j < 64 →
     (accWrite pf fs old (~~~ 0) v).getLsbD j =
       ((((old.getLsbD j && !(accMask Acc.stores pf fs).getLsbD j) || ((accMask Acc.stores pf fs).getLsbD j && v.getLsbD j)) &&
         !((accMask Acc.clears pf fs).getLsbD j && v.getLsbD j)) || ((accMask Acc.sets pf fs).getLsbD j && v.getLsbD j))) ∧
   (∀ (fn b : Nat) (s : State), s.pins.held = false → s.fnExists fn → fn < 64 → ∃ t,
     exec (.registerWrite fn (.config (.maxReadRequest b))) s = .next t ∧ t.mrrsOf fn = b ∧ t.regs = s.regs ∧ t.mem = s.mem) ∧
   (∀ s : State, s.pins.held = false → s.rdb F.HOST_FN_STATUS_FLR_ACTIVE 0 = false → ∃ t d, exec .mgtRsvRead s = .next t ∧
     t.out = s.out ++ [.readData 0 d] ∧ d.length = 8 ∧
     t.rd F.MGT_RSV_ADDR_DPA 0 = (s.rd F.MGT_RSV_ADDR_DPA 0 + 1) % 2 ^ F.MGT_RSV_ADDR_DPA.width ∧ t.mem = s.mem ∧
     (s.inReserve (s.rd F.MGT_RSV_ADDR_DPA 0 * 8) = false → d = List.replicate 8 0 ∧
       t.rdb F.SYS_BAD_ACCESS_VALID 0 = true))) ∧
  (∀ (a : Word) (n : BitVec 32) (s : State),
     (s.cfgsOpen → s.rdb F.MGT_CFGS_CTRL_GO 0 →
       exec (.cfgsRead a n) s = .next (s.flag F.MGT_CFGS_STATUS_BUSY_REFUSED 0) ∧
       exec (.cfgsWrite (some (a, n)) none) s = .next (s.flag F.MGT_CFGS_STATUS_BUSY_REFUSED 0) ∧
       exec (.cfgsClear true none) s = .next (s.flag F.MGT_CFGS_STATUS_BUSY_REFUSED 0)) ∧
     (s.cfgsOpen → s.rdb F.MGT_CFGS_CTRL_GO 0 = false → s.boot.newest = none → ∃ t, exec (.cfgsRead a n) s = .next t ∧
       onlyRegs s t ∧ t.rd F.MGT_CFGS_STATUS_RESULT 0 = 3 ∧ t.rdb F.MGT_CFGS_STATUS_DONE 0 = true ∧
       t.rdb F.MGT_CFGS_CTRL_GO 0 = false) ∧
     (∀ one b, s.cfgsOpen → s.rdb F.MGT_CFGS_CTRL_GO 0 = false → s.boot.newest = some (one, b) → b.payload.length < 2 ^ 20 →
       b.payload.take n.toNat = [] → ∃ t, exec (.cfgsRead a n) s = .next t ∧ onlyRegs s t ∧
         t.rd F.MGT_CFGS_STATUS_RESULT 0 = 0 ∧ t.rd F.MGT_CFGS_STATUS_LENGTH 0 = 0) ∧
     (s.cfgsOpen → s.rdb F.MGT_CFGS_CTRL_GO 0 = false → n.toNat % 4 ≠ 0 → s.pins.pwrfailLow = false →
       ∃ t, exec (.cfgsWrite (some (a, n)) none) s = .next t ∧ onlyRegs s t ∧ t.rd F.MGT_CFGS_STATUS_RESULT 0 = 1 ∧
         t.rdb F.MGT_CFGS_STATUS_DONE 0 = true) ∧
     (s.cfgsOpen → s.rdb F.MGT_CFGS_CTRL_GO 0 = false → s.pins.pwrfailLow → ∃ t,
       exec (.cfgsClear true none) s = .next t ∧ onlyRegs s t ∧ t.rd F.MGT_CFGS_STATUS_RESULT 0 = 5) ∧
     (∀ x, s.cfgsOpen → s.rdb F.MGT_CFGS_CTRL_GO 0 → s.rd F.MGT_CFGS_CMD0_OP 0 = 2 → s.boot.newest = some (false, x) →
       ∃ t y, exec (.cfgsWrite none (some .verified)) s = .next t ∧ t.boot.bank1 = some y ∧
         y.sequence = (x.sequence + 1) % 2 ^ 32 ∧
         y.payload = s.vbytes 0 (s.rd F.MGT_CFGS_CMD1_ADDR 0) (s.rd F.MGT_CFGS_CMD2_LENGTH 0) ∧ t.boot.bank0 = s.boot.bank0 ∧
         t.rd F.MGT_CFGS_STATUS_RESULT 0 = 0 ∧ t.rdb F.MGT_CFGS_CTRL_GO 0 = false) ∧
     (s.cfgsOpen → s.rdb F.MGT_CFGS_CTRL_GO 0 = false → s.pins.pwrfailLow = false → ∃ t,
       exec (.cfgsClear true none) s = .next t ∧ t.boot.bank0 = none ∧ t.boot.bank1 = none ∧
         t.rdb F.MGT_CFGS_CTRL_GO 0 = true ∧ t = { s with regs := t.regs, boot := t.boot }) ∧
     (s.pins.held = false → s.phase = phConfig → (s.pins.straps.testBit 11 = false ∨ s.boot.newest = none) →
       ∃ t, exec .configApply s = .next t ∧ onlyRegs s t ∧ t.phase = phDies ∧
         t.rdb F.SYS_START_STATUS_CFG_DEFAULTS 0 = true ∧
         t.rdb F.SYS_START_STATUS_SAFE_BOOT 0 = !s.pins.straps.testBit 11 ∧
         (s.rd F.SYS_STRAPS_HOSTPORT 0 < s.variant.ports → t.role (s.rd F.SYS_STRAPS_HOSTPORT 0) = 1)))

/-- Connection commands (R486, R487, R490): refused while one runs; a command that fails its checks ends with its
result; OPEN with LISTEN makes a CLOSED connection LISTEN with the configuration of the command words; OPEN makes it
OPENING, with a new generation, and sends OPEN; CLOSE makes an OPEN connection CLOSING and closes one that is neither.
The timers of a connection (R487, R490, R494 to R496): OPEN is repeated while OPENING; CLOSE up to three times; an
acknowledgement goes out; the eighth retransmission timeout, and a response that does not come, fail the path; a
keep-alive takes the next transaction. A CLOSED connection after OPEN_TIMEOUT is the model's reading (log entry 33).
-/
def Obligations.ConnectionCommandsAndTimers : Prop :=
  (∀ (p : BitVec 5) (words : List Word) (s : State), s.served p.toNat →
     let q := p.toNat
     let w (i : Nat) : Word := words.getD i 0
     let c := F.CRR_CMD0_CONN.get (w 0)
     let x (listen : Bool) : State := s.crrWords q words 1 listen
     (s.rdb F.CRR_CMD_CTRL_GO q →
       exec (.connOpenListen p words) s = .next (s.flag F.CRR_CMD_STATUS_BUSY_REFUSED q) ∧
       exec (.connOpen p words) s = .next (s.flag F.CRR_CMD_STATUS_BUSY_REFUSED q) ∧
       ∀ conn : BitVec 12, exec (.connClose p conn) s = .next (s.flag F.CRR_CMD_STATUS_BUSY_REFUSED q).flow) ∧
     (s.rdb F.CRR_CMD_CTRL_GO q = false →
       ((x true).crrCheck q ≠ 0 → exec (.connOpenListen p words) s = .next ((x true).crrDone q ((x true).crrCheck q))) ∧
       ((x false).crrCheck q ≠ 0 → exec (.connOpen p words) s = .next ((x false).crrDone q ((x false).crrCheck q)))) ∧
     (s.rdb F.CRR_CMD_CTRL_GO q = false → (x true).crrCheck q = 0 → ∃ t, exec (.connOpenListen p words) s = .next t ∧
       t.connState c = connListen ∧ (t.conn c).remote = F.CRR_CMD0_REMOTE_CONN.get (w 0) ∧
       (t.conn c).cookie = F.CRR_CMD2_COOKIE.get (w 2) ∧ t.rd F.CRR_CMD_STATUS_RESULT q = 0 ∧
       t.rdb F.CRR_CMD_STATUS_DONE q = true ∧ t.rdb F.CRR_CMD_CTRL_GO q = false ∧
       t = { s with regs := t.regs, eth := t.eth }) ∧
     (s.rdb F.CRR_CMD_CTRL_GO q = false → (x false).crrCheck q = 0 → ∃ u : State,
       exec (.connOpen p words) s = .next (u.sendRaw c (u.openPacket c 4)) ∧ u.connState c = connOpening ∧
       u.rd F.CRR_CONN_STATE_GEN c = (s.rd F.CRR_CONN_STATE_GEN c + 1) % 2 ^ F.CRR_CONN_STATE_GEN.width ∧
       (u.conn c).cmd = some (q, s.time) ∧ u.rdb F.CRR_CMD_CTRL_GO q = true ∧ u.mem = s.mem ∧ u.items = s.items) ∧
     (∀ conn : BitVec 12, let y : State := (s.wr F.CRR_CMD0_OP q 2).wr F.CRR_CMD0_CONN q conn.toNat
       s.rdb F.CRR_CMD_CTRL_GO q = false → y.crrCheck q = 0 →
       (s.connState conn.toNat = connClosing → exec (.connClose p conn) s = .next (y.crrDone q 0).flow) ∧
       (s.connState conn.toNat = connOpen → exec (.connClose p conn) s =
         .next (((y.wr F.CRR_CONN_STATE_STATE conn.toNat connClosing).tryClose conn.toNat).crrDone q 0).flow) ∧
       (s.connState conn.toNat ≠ connOpen → s.connState conn.toNat ≠ connClosing →
         exec (.connClose p conn) s = .next ((y.teardown conn.toNat connClosed).crrDone q 0).flow))) ∧
  (∀ (conn : BitVec 12) (s : State), s.pins.held = false →
     let c := conn.toNat
     (s.connState c = connOpening → exec (.openRepeat conn) s = .next (s.sendRaw c (s.openPacket c 4))) ∧
     (s.connState c ≠ connOpening → exec (.openRepeat conn) s = .next s ∧ exec (.openTimeout conn) s = .next s) ∧
     (∀ q b, s.connState c = connOpening → (s.conn c).cmd = some (q, b) → exec (.openTimeout conn) s =
       .next (((s.setConn c { s.conn c with cmd := none }).teardown c connClosed).crrDone q 6)) ∧
     (s.connState c = connClosing → (s.conn c).closes = 1 → exec (.closeRepeat conn) s = .next (s.sendClose c) ∧
       ((s.sendClose c).conn c).closes = 2) ∧
     (s.connState c = connClosing → (s.conn c).closes = 3 →
       exec (.closeRepeat conn) s = .next ((s.teardown c connClosed).connLost c).flow) ∧
     (s.connLive c → (s.conn c).unacked ≠ 0 → ∃ t, exec (.ackTimer conn) s = .next t ∧ (t.conn c).unacked = 0 ∧
       (t.conn c).ceSeen = false ∧ t.regs = s.regs ∧ t.items = s.items ∧ t.mem = s.mem) ∧
     (s.connLive c → (s.conn c).replay ≠ [] → s.rd F.CRR_CONN_STATE_RETRIES c = 7 →
       exec (.retransmitTimeout conn) s = .next (s.pathFail c)) ∧
     (∀ pk, s.connLive c → (s.conn c).replay = [pk] → s.connVer c = 1 → s.rd F.CRR_CONN_STATE_RETRIES c < 7 →
       exec (.retransmitTimeout conn) s =
         .next ((s.wr F.CRR_CONN_STATE_RETRIES c (s.rd F.CRR_CONN_STATE_RETRIES c + 1)).sendPacket c pk)) ∧
     (s.connLive c → (s.conn c).reqs ≠ [] → exec (.nopKeepalive conn) s =
       .next ((s.setConn c { s.conn c with nextTrans := ((s.conn c).nextTrans + 1) % 2 ^ 32 }).sendMessage
         c 0 (s.conn c).nextTrans 3 0 0 [] [])) ∧
     (∀ trans : BitVec 32, (∃ r ∈ (s.conn c).reqs, r.trans = trans.toNat) →
       exec (.responseTimeout conn trans) s = .next (s.pathFail c)))

/-- Frames for Courier (R483, R485): a frame with a bad FCS, or one that does not parse or whose checks fail, is
counted and changes nothing else; one that passes acts as its TYPE says. What an accepted packet does to a connection
(R490, R493, R494): an in-order DATA packet advances E by one, modulo 2^24; one already received is acknowledged again
and changes no postmark; one outside the window is counted as a stray; an acknowledgement that covers nothing, or more
than is outstanding, changes nothing. -/
def Obligations.CourierFramesAndPostmarks : Prop :=
  (∀ (port : BitVec 3) (f : RxFrame) (s : State), s.pins.held = false → s.rdb F.CRR_PORT_STATUS_UP port.toNat →
     let n := port.toNat
     let arrives (c : Instr) : Prop :=
       (f.typ = 1 ∧ c = .dataReceived port f) ∨ (f.typ = 2 ∧ c = .ackReceived port f) ∨ (f.typ = 3 ∧ c = .sackReceived port f) ∨
       (f.typ = 4 ∧ c = .openReceived port f) ∨ (f.typ = 5 ∧ c = .openAckReceived port f) ∨
       (f.typ = 6 ∧ c = .closeReceived port f) ∨ (f.typ = 7 ∧ c = .closeAckReceived port f)
     let framed : Prop := f.fcs ∧ f.size.toNat ≤ s.maxFrame n ∧ f.full = false
     let ours : Prop := f.udp.toNat = s.rd F.CRR_PORT_CFG_UDP n ∧ 2 ≤ s.ethRole n
     (∀ c, arrives c → f.fcs = false → exec c s = .next (s.sat F.CRR_PORT_DROP_FCS n 1)) ∧
     (∀ c, arrives c → framed → ¬ ours → exec c s = .next (s.sat F.CRR_PORT_DROP_CHECK n 1)) ∧
     (∀ c, arrives c → framed → ours → Packet.parse f.bytes = none →
       exec c s = .next (s.sat F.CRR_PORT_DROP_CHECK n 1)) ∧
     (∀ c pk, arrives c → framed → ours → Packet.parse f.bytes = some pk →
       (s.verOk pk.dstConn pk && s.fromPeer pk.dstConn pk f.src.toNat && s.lengthOk pk.dstConn pk f.bytes &&
         typeAccepted pk.typ (s.connState pk.dstConn) && decide (pk.dstConn < 4096) && s.connPort pk.dstConn == n &&
         (s.lease leaseConn pk.dstConn).state == 1) = true →
       exec c s = .next (s.gotPacket pk.dstConn pk f.ce).flow) ∧
     (∀ c pk, arrives c → framed → ours → Packet.parse f.bytes = some pk →
       (s.verOk pk.dstConn pk && s.fromPeer pk.dstConn pk f.src.toNat && s.lengthOk pk.dstConn pk f.bytes &&
         typeAccepted pk.typ (s.connState pk.dstConn) && decide (pk.dstConn < 4096) && s.connPort pk.dstConn == n &&
         (s.lease leaseConn pk.dstConn).state == 1) = false →
       exec c s = .next (s.sat F.CRR_PORT_DROP_CHECK n 1))) ∧
  (∀ (s : State) (c : Nat) (pk : Packet),
     (((s.takeData c pk).conn c).e = ((s.conn c).e + 1) % 2 ^ 24) ∧
     (pk.psn < 2 ^ 24 → (s.conn c).w ≤ 2 ^ 23 → (s.conn c).e < 2 ^ 24 → (s.conn c).w ≤ (pk.psn + 2 ^ 24 - (s.conn c).e) % 2 ^ 24 →
       ((s.conn c).e + 2 ^ 24 - 1 - pk.psn) % 2 ^ 24 < (s.conn c).w → s.gotData c pk = s.sendAck c ∧
       ((s.gotData c pk).conn c).e = (s.conn c).e) ∧
     ((s.conn c).w ≤ (pk.psn + 2 ^ 24 - (s.conn c).e) % 2 ^ 24 →
       (s.conn c).w ≤ ((s.conn c).e + 2 ^ 24 - 1 - pk.psn) % 2 ^ 24 →
       s.gotData c pk = s.sat F.CRR_PORT_DROP_STRAY (s.connPort c) 1) ∧
     (∀ a, (a + 1 + 2 ^ 24 - (s.conn c).u) % 2 ^ 24 = 0 → s.gotAck c a = s) ∧
     (∀ a, (s.conn c).replay.length < (a + 1 + 2 ^ 24 - (s.conn c).u) % 2 ^ 24 → s.gotAck c a = s))

/-- Messages of Table 13-6, once complete (R193, R497 to R500): a PUT for another partition's handle is answered HELD
0x51; a HELD of status 0 releases the tile that was sent, ends its work and confirms; CONFIRM makes a held tile
RESIDENT; RECALL of a stored tile sends it back, of a LOST one is answered 0x40; a response ends its request; owner
and block requests read and write what the partition's translation lets them; a NOP asks for nothing. `u` is the state
with the message taken. -/
def Obligations.CourierMessages : Prop :=
  ∀ (conn : BitVec 12) (trans : BitVec 32) (s u : State) (r : Rx),
    let c := conn.toNat
    let p := u.connPart c
    let b := r.bytes
    let obj := msgField b 0 4 % 2 ^ 27
    let tile := msgField b 4 3
    let taken (op : Nat) : Prop := s.takeRx c trans.toNat op = some (r, u) ∧ u.connState c ≠ connClosing
    let ends (v : State) : Host.Outcome State Fault Refusal := .next (v.tryClose c).flow
    (taken 1 → msgField b 0 4 / 2 ^ 27 ≠ p →
      exec (.put conn trans) s = ends (u.sendMessage c 2 r.trans r.cls 0x0051 0 [] [])) ∧
    (∀ x y : State, taken 1 → msgField b 0 4 / 2 ^ 27 = p → x = (u.classOf p r.cls).2 →
      y = (x.addItem { Item.blank p (.put c r.trans (msgField b 8 2) (msgField b 10 2) (msgField b 12 1 != 0)) with
          origin := .courier r.trans, obj, tile, urg := (u.classOf p r.cls).1, deadline := msgDeadline b
          src := (List.range (b.length - 32)).foldl (fun t i => Tab.put t i (b.getD (32 + i) 0)) [] }).intake
        x.nextItem (msgField b 13 4) 0 →
      exec (.put conn trans) s = ends (match y.item? x.nextItem with
        | some it => if it.ended.isSome then y.endPut x.nextItem else y
        | none => y)) ∧
    (∀ q it, taken 2 → msgStatus b = 0 → (u.conn c).reqs.find? (fun q => q.trans == r.trans && q.opcode == 1) = some q →
      (u.dropReq c r.trans 1).item? q.item = some it → ((u.dropReq c r.trans 1).tile p it.obj it.tile).state ≠ TState.released →
      ∃ v : State, exec (.held conn trans) s = ends (v.sendMessage c 3 r.trans it.urg 0 0 [] []) ∧
        v.tiles = (((u.dropReq c r.trans 1).tileSent p it.obj it.tile).endItem it.id 0 0 ErrAt.none).tiles) ∧
    (∀ h, taken 3 → (u.conn c).held.find? (fun h => h.trans == r.trans) = some h →
      (u.tile p h.obj h.tile).state = .inFlight →
      exec (.confirm conn trans) s = ends (((u.setConn c { u.conn c with
        held := (u.conn c).held.filter (fun k => k.trans != r.trans) }).setTile p h.obj h.tile
          { u.tile p h.obj h.tile with state := .resident }).requeueWaiters p h.obj h.tile)) ∧
    (taken 4 → msgField b 0 4 / 2 ^ 27 = p → u.tileExists p obj tile → (u.tile p obj tile).state = .lost →
      exec (.recallTile conn trans) s = ends (u.sendResp c r.trans r.cls 0x0040 [])) ∧
    (taken 4 → msgField b 0 4 / 2 ^ 27 = p → u.tileExists p obj tile → (u.tile p obj tile).state = .resident →
      (u.tile p obj tile).disp.stored → exec (.recallTile conn trans) s =
        ends (((u.classOf p r.cls).2.addItem { Item.blank p (.send c (msgField b 7 4)) with
          origin := .courier r.trans, obj, tile, urg := (u.classOf p r.cls).1, deadline := msgDeadline b }).front
            (u.classOf p r.cls).2.nextItem)) ∧
    (∀ q, taken 5 → (u.conn c).reqs.find? (fun q => q.trans == r.trans) = some q → q.opcode = 8 → msgStatus b = 0 →
      exec (.resp conn trans) s = ends ((u.dropReq c r.trans 8).gotRead q.item q.k (b.drop 32))) ∧
    (∀ q, taken 5 → (u.conn c).reqs.find? (fun q => q.trans == r.trans) = some q → q.opcode = 9 → msgStatus b ≠ 0 →
      exec (.resp conn trans) s = ends ((u.dropReq c r.trans 9).failReq q (msgStatus b ||| 0x8000))) ∧
    (∀ d v, taken 8 → u.xcheckRun p (msgField b 0 8) (msgField b 8 4) false false = none →
      u.vheathFail p (msgField b 0 8) (msgField b 8 4) = none → u.vread .bulk p (msgField b 0 8) (msgField b 8 4) = (false, d, v) →
      exec (.ownerRead conn trans) s = ends (v.sendResp c r.trans r.cls 0 d)) ∧
    (∀ d, taken 9 → msgField b 8 4 = 1 → u.xcheckRun p (msgField b 0 8) 1 true false = none →
      u.vheathFail p (msgField b 0 8) 1 = none →
      d = (b.getD 32 0 &&& (BitVec.ofNat 8 (msgField b 12 1) &&& BitVec.ofNat 8 (msgField b 13 1))) |||
        ((u.vbytes p (msgField b 0 8) 1).getD 0 0 &&& ~~~ (BitVec.ofNat 8 (msgField b 12 1) &&& BitVec.ofNat 8 (msgField b 13 1))) →
      exec (.ownerWrite conn trans) s = ends ((u.vwrite .bulk p (msgField b 0 8) [d]).sendResp c r.trans r.cls 0 [])) ∧
    (∀ op, (op = 0x0C ∨ op = 0x0D ∨ op = 0x0E) → taken op → (u.conn c).exportBlocks < msgField b 0 8 + msgField b 8 1 →
      exec (if op = 0x0C then .blockRead conn trans else if op = 0x0D then .blockWrite conn trans else .blockZero conn trans) s =
        ends (u.sendResp c r.trans r.cls 0x0020 [])) ∧
    (∀ op, (op = 0x0C ∨ op = 0x0D ∨ op = 0x0E) → taken op → msgField b 0 8 + msgField b 8 1 ≤ (u.conn c).exportBlocks →
      let a := (u.conn c).exportBase + 4096 * msgField b 0 8
      let n := 4096 * msgField b 8 1
      exec (if op = 0x0C then .blockRead conn trans else if op = 0x0D then .blockWrite conn trans else .blockZero conn trans) s =
        ends (if op = 0x0C then u.serveRead c p r a n
          else u.serveWrite c p r a (if op = 0x0D then bytesAt b 32 n else List.replicate n 0))) ∧
    (taken 0 → exec (.nop conn trans) s = ends u)

/-- Ethernet ports (R470, R473 to R477): a port trains in its configured mode or goes down; a link that goes down
loses what is queued; a priority map that gives a Courier kind Moor's priority on a MIXED port is refused; a pause
frame pauses the enabled priorities it names; a storm stops the honouring of pauses until it is over; a congestion
mark halves a rate, which then rises. TIME against a master (R503 to R505): before the open a clock that is behind is
stepped once; otherwise TIME keeps running, and an offset beyond one second after the open sets FAR and takes the
limit of the rate; holdover keeps the rate. A message of another port or domain, or any other event message, changes
nothing. -/
def Obligations.EthernetPortsAndTime : Prop :=
  (∀ (port : BitVec 3) (s : State), s.pins.held = false →
     let n := port.toNat
     (∀ mode : BitVec 3, 1 ≤ mode.toNat → mode.toNat ≤ 5 → s.ethRole n ≠ 0 → s.err.postDown.testBit (n / 2) = false →
       (s.rd F.CRR_PORT_CFG_MODE n = 0 ∨ s.rd F.CRR_PORT_CFG_MODE n = mode.toNat) →
       (∃ t, exec (.retrain port mode) s = .next t ∧ t.rdb F.CRR_PORT_STATUS_UP n = true ∧
         t.rd F.CRR_PORT_STATUS_MODE n = mode.toNat ∧ t.rd F.CRR_PORT_CFG_RETRAIN n = 0 ∧
         regsBut s t [(Reg.CRR_PORT_CFG, n), (Reg.CRR_PORT_STATUS, n)] ∧ t = { s with regs := t.regs, txq := t.txq }) ∧
       (s.rdb F.CRR_PORT_STATUS_UP n = false → ∃ t, exec (.ethLinkUp port mode) s = .next t ∧ onlyRegs s t ∧
         t.rdb F.CRR_PORT_STATUS_UP n = true ∧ t.rd F.CRR_PORT_STATUS_MODE n = mode.toNat)) ∧
     (∃ t, exec (.ethLinkDown port) s = .next t ∧ t.rdb F.CRR_PORT_STATUS_UP n = false ∧ t.eth = s.eth ∧
       (∀ q, q < 8 → Tab.get [] t.txq (8 * n + q) = []) ∧ t = { s with regs := t.regs, txq := t.txq }) ∧
     (∀ v : Word, s.ethRole n = 3 → v.toNat % 8 = v.toNat / 16 % 8 → ∃ t, exec (.prioMapWrite port v) s = .next t ∧
       onlyRegs s t ∧ t.rdb F.CRR_PORT_STATUS_CFG_ERR n = true ∧ t.reg Reg.CRR_PRIO_MAP n = s.reg Reg.CRR_PRIO_MAP n) ∧
     (∀ v : Word, s.ethRole n ≠ 3 → ∃ t, exec (.prioMapWrite port v) s = .next t ∧ onlyRegs s t ∧
       (∀ k, k < 5 → t.prio n k = v.toNat / 2 ^ (4 * k) % 8 ∧ t.dscp n k = v.toNat / 2 ^ (32 + 6 * k) % 64) ∧
       regsBut s t [(Reg.CRR_PRIO_MAP, n)]) ∧
     (∀ enable pause : BitVec 8, s.rdb F.CRR_PORT_STATUS_UP n → (∀ q, q < 8 → Tab.get [] s.txq (8 * n + q) = []) →
       ∃ t, exec (.pfcFrame port enable pause) s = .next t ∧
         (∀ q, q < 8 → (Tab.get 0 t.eth.paused n).testBit q =
           if enable.toNat.testBit q ∧ (s.rd F.CRR_PFC_CFG_PFC_EN n).testBit q then pause.toNat.testBit q
           else (Tab.get 0 s.eth.paused n).testBit q) ∧ t.regs = s.regs ∧ t.out = s.out) ∧
     (∀ prio : BitVec 3, s.pausedPrio n prio.toNat → ∃ t, exec (.pfcWatchdog port prio) s = .next t ∧
       (t.rd F.CRR_PORT_STATUS_STORM n).testBit prio.toNat = true ∧ t.pausedPrio n prio.toNat = false ∧
       Tab.get [] t.txq (8 * n + prio.toNat) = [] ∧ t.mem = s.mem) ∧
     (∀ prio : BitVec 3, (Tab.get 0 s.eth.storm n).testBit prio.toNat → ∃ t,
       exec (.pfcStormRecovery port prio) s = .next t ∧ (Tab.get 0 t.eth.storm n).testBit prio.toNat = false ∧
         (Tab.get 0 t.eth.paused n).testBit prio.toNat = false ∧ t = { s with eth := t.eth }) ∧
     (∀ set : BitVec 4, s.rd F.CRR_NVME_STATUS_STATE set.toNat = 2 → ∃ t, exec (.cnp set) s = .next t ∧
       Tab.find? t.eth.flows (4096 + set.toNat) = some (max ((match Tab.find? s.eth.flows (4096 + set.toNat) with
         | some r => r
         | none => s.lineRate (s.rd F.CRR_NVME_CFG_PORT set.toNat)) / 2) 1000) ∧ t = { s with eth := t.eth }) ∧
     (∀ (flow : BitVec 13) (r : Nat), flow.toNat < 4096 → Tab.find? s.eth.flows flow.toNat = some r →
       let line := s.lineRate (s.connPort flow.toNat)
       r + line / 20 < line → ∃ t, exec (.rateRecovery flow) s = .next t ∧
         Tab.find? t.eth.flows flow.toNat = some (r + line / 20) ∧ t = { s with eth := t.eth })) ∧
  (∀ (port : BitVec 3) (s : State), s.pins.held = false → s.rdb F.CRR_PTP_CFG_EN 0 →
     (s.rd F.CRR_PTP_CFG_PORT 0 ≠ port.toNat → ∀ m, exec (.ptpEventMessage port m) s = .next s) ∧
     exec (.ptpEventMessage port .other) s = .next s ∧
     (∀ d dep del, d.toNat ≠ s.rd F.CRR_PTP_CFG_DOMAIN 0 → exec (.ptpEventMessage port (.sync d dep del)) s = .next s) ∧
     (∀ d dep del, s.rd F.CRR_PTP_CFG_PORT 0 = port.toNat → s.rdb F.CRR_PORT_STATUS_UP port.toNat →
       d.toNat = s.rd F.CRR_PTP_CFG_DOMAIN 0 → s.rdb F.CRR_PTP_CFG_P2P 0 →
       exec (.ptpEventMessage port (.sync d dep del)) s = .next (s.ptpSync ((s.time : Int) - (dep.toNat + del.toNat : Nat)))) ∧
     (∀ o : Int, s.rdb F.SYS_OPEN_OPENED 0 = false → s.eth.stepped = false → o < 0 →
       ((s.ptpSync o).time : Int) = s.time - o ∧ (s.ptpSync o).eth.stepped = true) ∧
     (∀ o : Int, (s.rdb F.SYS_OPEN_OPENED 0 = true ∨ s.eth.stepped = true ∨ 0 ≤ o) →
       (s.ptpSync o).time = s.time ∧
       ((s.rdb F.SYS_OPEN_OPENED 0 = true ∧ (1000000000 < o ∨ o < -1000000000)) →
         (s.ptpSync o).rdb F.CRR_PTP_STATUS_FAR 0 = true ∧
         (s.ptpSync o).rd F.CLK_TIME_RATE_RATE 0 = (if 0 < o then 2 ^ F.CLK_TIME_RATE_RATE.width - 2147483 else 2147483)) ∧
       (s.ptpSync o).rd F.CRR_PTP_STATUS_OFFSET 0 = signedSat 32 o % 2 ^ F.CRR_PTP_STATUS_OFFSET.width) ∧
     (∃ t, exec .holdover s = .next t ∧ t.rd F.CRR_PTP_STATUS_STATE 0 = 2 ∧ t.time = s.time ∧
       t.rd F.CLK_TIME_RATE_RATE 0 = s.rd F.CLK_TIME_RATE_RATE 0))

/-- NVMe sets and their commands (R320, R478 to R481): an enable of an OFF set that fails its checks says why, one
that passes goes on with what it meets; a disable of an OFF set leaves it OFF without a namespace; a queue-pair error
makes an UP set DOWN, and a reconnection UP again; the commands of the transport and the completions of commands act
once, and what comes for a command that has ended does nothing. -/
def Obligations.NvmeSets : Prop :=
  ∀ s : State, s.pins.held = false →
    (∀ (set : BitVec 4) (cfg : Word) (meets : NvmeMeet), let n := set.toNat
      let put (s : State) (f : Fld) : State := s.wr f n (f.get cfg)
      let x := (put (put (put (put (put s F.CRR_NVME_CFG_PORT) F.CRR_NVME_CFG_QPS) F.CRR_NVME_CFG_DEPTH)
        F.CRR_NVME_CFG_TMO_EXP) F.CRR_NVME_CFG_NSID).wr F.CRR_NVME_CFG_EN n 1
      (s.rd F.CRR_NVME_STATUS_STATE n ≠ 0 → exec (.nvmeSetEnable set cfg meets) s = .next s) ∧
      (s.rd F.CRR_NVME_STATUS_STATE n = 0 → x.nvmeCheck n ≠ 0 →
        exec (.nvmeSetEnable set cfg meets) s = .next (x.wr F.CRR_NVME_STATUS_RESULT n (x.nvmeCheck n))) ∧
      (s.rd F.CRR_NVME_STATUS_STATE n = 0 → x.nvmeCheck n = 0 →
        exec (.nvmeSetEnable set cfg meets) s = .next (x.nvmeMeets n meets)) ∧
      (s.space = [] → s.eth.nvme = [] → s.rd F.CRR_NVME_STATUS_STATE n = 0 → ∃ t,
        exec (.nvmeSetDisable set) s = .next t ∧ t.rdb F.CRR_NVME_CFG_EN n = false ∧ t.rd F.CRR_NVME_STATUS_STATE n = 0 ∧
          t.rd F.CRR_NVME_STATUS_RESULT n = 0 ∧ Tab.find? t.eth.ns n = none ∧ t.mem = s.mem) ∧
      (s.rd F.CRR_NVME_STATUS_STATE n = 2 → exec (.qpError set) s = .next (s.setDown n)) ∧
      (s.rd F.CRR_NVME_STATUS_STATE n = 3 → s.rdb F.CRR_PORT_STATUS_UP (s.rd F.CRR_NVME_CFG_PORT n) → ∃ u : State,
        exec (.nvmeReconnect set true) s = .next ((u.wr F.CRR_NVME_STATUS_STATE n 2).targetsUp 1 n).flow ∧
          u = s.sendEth (s.rd F.CRR_NVME_CFG_PORT n) 0 (.nvmeFabric (s.rd F.CRR_NVME_CFG_PORT n) n 1)) ∧
      (s.rd F.CRR_NVME_STATUS_STATE n = 2 → exec (.keepAlive set true) s =
        .next (s.sendEth (s.rd F.CRR_NVME_CFG_PORT n) 0 (.nvmeFabric (s.rd F.CRR_NVME_CFG_PORT n) n 3)))) ∧
    (∀ (k : BitVec 32), Tab.find? s.eth.nvme k.toNat = none →
      exec (.moorCompletion k 0 false) s = .next s ∧ exec (.moorTimeout none k) s = .next s ∧
      exec (.localAckTimeout k) s = .next s ∧ exec (.rdmaRead k 0 1 false) s = .next s ∧
      exec (.rdmaWrite k 0 [0] false) s = .next s) ∧
    (∀ (k : BitVec 32) (x : NvmeCmd) (i : Nat), Tab.find? s.eth.nvme k.toNat = some x → x.item = some i →
      let y : State := { s with eth := { s.eth with nvme := Tab.erase s.eth.nvme k.toNat } }
      exec (.moorCompletion k 0 false) s = .next (y.moorDone i none).flow ∧
      (∀ st : BitVec 16, st ≠ 0 → exec (.moorCompletion k st false) s = .next (y.moorDone i (some 0x0042)).flow) ∧
      exec (.moorTimeout none k) s = .next ((y.sendEth (s.rd F.CRR_NVME_CFG_PORT x.set) 0
        (.nvmeFabric (s.rd F.CRR_NVME_CFG_PORT x.set) x.set 4)).moorDone i (some 0x0042)).flow ∧
      (7 ≤ x.retries → exec (.localAckTimeout k) s = .next (s.setDown x.set)) ∧
      (x.retries < 7 → ∃ t y, exec (.localAckTimeout k) s = .next t ∧ Tab.find? t.eth.nvme k.toNat = some y ∧
        y = { x with retries := x.retries + 1 } ∧ t.regs = s.regs ∧ t.mem = s.mem)) ∧
    (∀ (k : BitVec 32) (x : NvmeCmd) (o : BitVec 17), Tab.find? s.eth.nvme k.toNat = some x →
      let a := moorKey x.target (x.lba * 4096) + o.toNat
      (∀ n : BitVec 18, x.write → o.toNat + n.toNat ≤ x.count * 4096 →
        s.rdb F.CRR_PORT_STATUS_UP (s.rd F.CRR_NVME_CFG_PORT x.set) →
        s.pausedPrio (s.rd F.CRR_NVME_CFG_PORT x.set) (s.prio (s.rd F.CRR_NVME_CFG_PORT x.set) 0) = false →
        ∃ t, exec (.rdmaRead k o n false) s = .next t ∧ t.mem = s.mem ∧
          t.out = s.out ++ [.rdmaData (s.rd F.CRR_NVME_CFG_PORT x.set) k.toNat (s.bytes a n.toNat)]) ∧
      (∀ data : List Byte, x.write = false → o.toNat + data.length ≤ x.count * 4096 →
        ∃ t, exec (.rdmaWrite k o data false) s = .next t ∧ t.bytes a data.length = data ∧ memBut s t a data.length ∧
          t.regs = s.regs)) ∧
    (∀ (c : BitVec 12) (k : BitVec 32) r, (s.conn c.toNat).reqs.find? (fun r => r.trans == k.toNat && decide (0x0C ≤ r.opcode)) =
      some r → exec (.moorTimeout (some c) k) s =
        .next ((s.dropReq c.toNat k.toNat r.opcode).moorDone r.item (some 0x0042)).flow)

/-- The tally engine and its link (R23, R547 to R550, R553): a tick counts itself and sends a frame where none waits;
a frame without an acknowledgement is sent again, the same; a frame that does not parse is counted and answered with
nothing; an applied frame is answered OK, which frees the engine's own; a gap is logged once; a link or power that
goes ends what runs. -/
def Obligations.TallyLink : Prop :=
  ∀ s : State,
    (s.tally.powered → s.rdb F.PWR_PWRFAIL_STATUS_LEVEL 0 = false → s.tally.unacked = none → ∃ t f,
      exec .tallyTick s = .next t ∧ t.tally.unacked = some f ∧ f.seq = s.tally.nextSeq ∧ f.sync = s.tally.syncNext ∧
        f.ticks = min (s.tally.ticks + 1) 65535 ∧ t.tally.deltas = [] ∧ t.tally.ticks = 0 ∧
        t.tally.nextSeq = (s.tally.nextSeq + 1) % 2 ^ 32 ∧ t.tally.syncNext = false ∧
        (s.rdb F.FRK_TALLY_STATUS_LINK_UP 0 → t.out = s.out ++ [.tallyFrame f.bytes]) ∧ t.frank = s.frank ∧ t.mem = s.mem) ∧
    (∀ g, s.tally.powered → s.rdb F.PWR_PWRFAIL_STATUS_LEVEL 0 = false → s.tally.unacked = some g → ∃ t,
      exec .tallyTick s = .next t ∧ t.tally.unacked = some g ∧ t.tally.ticks = s.tally.ticks + 1 ∧ t.out = s.out ∧
        t.regs = s.regs) ∧
    (∀ g, s.tally.unacked = some g → s.rdb F.FRK_TALLY_STATUS_LINK_UP 0 → ∃ t, exec .tallyAckTimeout s = .next t ∧
      t.out = s.out ++ [.tallyFrame g.bytes] ∧ t.tally = s.tally ∧ regsBut s t [(Reg.FRK_TALLY_STATUS, 0)] ∧
      t.rd F.FRK_TALLY_STATUS_RETRIES 0 =
        min (s.rd F.FRK_TALLY_STATUS_RETRIES 0 + 1) (2 ^ F.FRK_TALLY_STATUS_RETRIES.width - 1)) ∧
    (∀ frame, s.frank.powered → s.rdb F.FRK_TALLY_STATUS_LINK_UP 0 → frameParts frame = none → ∃ t,
      exec (.tally frame) s = .next t ∧ t.frank = s.frank.ignore ∧ t = { s with frank := t.frank }) ∧
    (∀ frame f, s.frank.powered → s.rdb F.FRK_TALLY_STATUS_LINK_UP 0 → s.rdb F.PWR_PWRFAIL_STATUS_LEVEL 0 = false →
      s.frank.tally frame = (f, some 0) → ∃ t, exec (.tally frame) s = .next t ∧ t.frank = f ∧
        t.out = s.out ++ [.frankResp 0x81 0 (fieldAt frame 4 4) []] ∧
        (∀ g, s.tally.unacked = some g → g.seq = fieldAt frame 4 4 → t.tally.unacked = none) ∧ t.mem = s.mem) ∧
    (s.frank.powered → s.frank.gap = false → ∃ t, exec .tallyGap s = .next t ∧ t = { s with frank := t.frank } ∧
      t.frank.gap = true ∧ t.frank.audit = min (s.frank.audit + 1) (2 ^ 32 - 1) ∧
      t.frank.flags = s.frank.flags ||| flagTallyDown ∧ t.frank.totals = s.frank.totals) ∧
    (s.frank.gap = true → exec .tallyGap s = .next s) ∧
    (s.frank.powered → ∃ t, exec (.vddFrkLoss false) s = .next t ∧ t.frank = { s.frank with powered := false } ∧
      t.rdb F.FRK_TALLY_STATUS_LINK_UP 0 = false ∧ t.tally = s.tally ∧ t.mem = s.mem) ∧
    (s.pins.pwrok = false → ∃ t, exec .p0PowerLoss s = .next t ∧ t.tally = { Tally.initial with powered := false } ∧
      t.frank = s.frank ∧ t.reg Reg.FRK_TALLY_STATUS 0 = 0 ∧ t.mem = s.mem) ∧
    (∃ t, exec .frankLinkDown s = .next t ∧ t.rdb F.FRK_TALLY_STATUS_LINK_UP 0 = false ∧
      t.rdb F.FRK_CMD_CTRL_GO 0 = false ∧ (s.rdb F.FRK_CMD_CTRL_GO 0 → t.rd F.FRK_CMD_STATUS_RESULT 0 = 2) ∧
      t.frank = s.frank) ∧
    (s.tally.powered → s.frank.powered → ∃ t, exec .frankLinkUp s = .next t ∧ onlyRegs s t ∧
      t.rdb F.FRK_TALLY_STATUS_LINK_UP 0 = true) ∧
    (s.rdb F.FRK_CMD_CTRL_GO 0 → ∃ t, exec .frkCmdTimeout s = .next t ∧ onlyRegs s t ∧
      t.rdb F.FRK_CMD_CTRL_GO 0 = false ∧ t.rd F.FRK_CMD_STATUS_RESULT 0 = 3 ∧ t.rdb F.FRK_CMD_STATUS_DONE 0 = true)

/-- A TALLY frame adds its deltas (R549, R551, Table 15-6): the frame's own bytes, taken by Frank in sequence, raise
every quantity of every partition by exactly the frame's delta for it, modulo 2^64, and no other total changes. -/
def Obligations.TallyFrameAddsItsDeltas : Prop :=
  ∀ (f : Frank) (t : TallyFrame), t.seq = f.tallyE → t.seq < 2 ^ 32 → 1 ≤ t.ticks → t.ticks ≤ 65535 →
    (∀ e ∈ t.deltas, e.1 < 352 ∧ e.2 < 2 ^ 64) → (∀ k, Tab.get 0 f.totals k < 2 ^ 64) →
    ∃ g, f.tally t.bytes = (g, some 0) ∧ g.tallyE = (f.tallyE + 1) % 2 ^ 32 ∧ g.energy = f.energy ∧ g.ring = f.ring ∧
      ∀ k, Tab.get 0 g.totals k = (Tab.get 0 f.totals k + (if k < 352 then Tab.get 0 t.deltas k else 0)) % 2 ^ 64

/-- The MC mailbox (R552, R553, R569): each command is served where the link is up, with its result and payload; BIND
of a partition above 31 is counted and not answered; a command while one runs, shown for TIMEREF, is refused; one over
a link that is down ends LINK_DOWN. -/
def Obligations.FrankMailbox : Prop :=
  ∀ s : State, s.pins.held = false →
    let free : Prop := s.rdb F.FRK_CMD_CTRL_GO 0 = false ∧ s.rdb F.FRK_TALLY_STATUS_LINK_UP 0 = true
    let served (c : Instr) (t : State) (op : Nat) (result : Nat) (payload : List Byte) : Prop :=
      exec c s = .next t ∧ t.out = s.out ++ [.frankResp (op + 0x80) result 0 payload] ∧
        t.rd F.FRK_CMD_STATUS_RESULT 0 = result ∧ t.rdb F.FRK_CMD_STATUS_DONE 0 = true ∧
        t.rdb F.FRK_CMD_CTRL_GO 0 = false ∧ t.mem = s.mem
    (∀ (p : Nat) (tenant : Word), p < 32 → free → ∃ t, served (.bind p tenant) t 2 0 [] ∧
      t.frank = { s.frank with tenants := Tab.set 0 s.frank.tenants p tenant.toNat }) ∧
    (∀ (p : Nat) (tenant : Word), 31 < p → p < 256 → free → ∃ t, exec (.bind p tenant) s = .next t ∧
      t.frank = s.frank.ignore ∧ t.rdb F.FRK_CMD_CTRL_GO 0 = true ∧ t.out = s.out) ∧
    (∀ utc : Word, free → ∃ t, served (.timeref utc) t 3 0 [] ∧
      t.frank = { s.frank with utc := utc.toNat, utcAge := 0 }) ∧
    (∀ (q : BitVec 32), free → s.frank.record? q.toNat = none → ∃ t, served (.readRecord q) t 4 1 [] ∧ t.frank = s.frank) ∧
    (∀ (q : BitVec 32) r, free → s.mcRecord = none → s.frank.record? q.toNat = some r → ∃ t, served (.readRecord q) t 4 0 r.bytes ∧
      t.frank = s.frank.markRead q.toNat ∧ t.mcRecord = some r) ∧
    (free → (∃ t, served (.readInfo 0) t 5 0 s.frank.statusBytes ∧ t.frank = s.frank) ∧
      (∃ t, served (.readInfo 1) t 5 0 frankKeyBytes ∧ t.frank = s.frank) ∧
      (∃ t, served (.readInfo 2) t 5 0 frankCertBytes ∧ t.frank = s.frank) ∧
      (∃ t, served (.readInfo 3) t 5 0 frankIdentity ∧ t.frank = s.frank)) ∧
    (∀ i : BitVec 8, i.toNat ≤ 48 → free → ∃ t, served (.readLog i) t 6 0
      ((List.range 16).flatMap (fun k => s.frank.logBytes (i.toNat + k))) ∧ t.frank = s.frank) ∧
    (s.rdb F.FRK_CMD_CTRL_GO 0 = true → ∀ utc : Word,
      exec (.timeref utc) s = .next (s.flag F.FRK_CMD_STATUS_BUSY_REFUSED 0)) ∧
    (s.rdb F.FRK_CMD_CTRL_GO 0 = false → s.rdb F.FRK_TALLY_STATUS_LINK_UP 0 = false → ∀ utc : Word, ∃ t,
      exec (.timeref utc) s = .next t ∧ onlyRegs s t ∧ t.rd F.FRK_CMD_STATUS_RESULT 0 = 2 ∧
        t.rdb F.FRK_CMD_STATUS_DONE 0 = true)

/-- Metering (R543, R545, R557, R559): an interval's energy is added exactly, in units of 2^-32 mJ, and an impulse is
due for each multiple of 36,000 mJ that is crossed; METER_FAIL stops both. A second boundary issues a record under the
next SEQ into a ring of at most 16. Frank's banks, power and I3C port (R541, R562 to R567): a bank write goes to the
bank that does not hold the newest record and leaves the other alone; power-up takes back the newest valid bank's
totals; a fall of PWRFAIL_L writes a bank with cause 2 and stops records until they resume; I3C writes reach
RECORD_SEL and LOG_SEL only, reads return the register space, common commands set the address and the interrupt
enable. -/
def Obligations.MeteringAndBanks : Prop :=
  (∀ s : State, s.frank.powered →
     (∀ rails, s.frank.meterFail = false → s.frank.remainder < 2 ^ 32 → s.frank.energy < 2 ^ 64 →
       ∃ t, exec (.sampleInterval rails true true) s = .next t ∧ t = { s with frank := t.frank } ∧
         t.frank.remainder < 2 ^ 32 ∧ t.frank.totals = s.frank.totals ∧
         (s.frank.energy + (s.frank.remainder + rails.foldl (· + ·) 0) / 2 ^ 32 < 2 ^ 64 →
           t.frank.energy * 2 ^ 32 + t.frank.remainder =
             s.frank.energy * 2 ^ 32 + s.frank.remainder + rails.foldl (· + ·) 0 ∧
           t.frank.pulses = s.frank.pulses + (t.frank.energy / 36000 - s.frank.energy / 36000))) ∧
     (∀ rails, s.frank.meterFail = true → ∃ t, exec (.sampleInterval rails true true) s = .next t ∧
       t.frank.energy = s.frank.energy ∧ t.frank.remainder = s.frank.remainder ∧ t.frank.pulses = s.frank.pulses) ∧
     (s.frank.meterFail = false → 0 < s.frank.pulses → ∃ t, exec .impulse s = .next t ∧
       t.frank.pulses = s.frank.pulses - 1 ∧ t.frank.pulsed = s.frank.pulsed + 1 ∧ t.out = s.out ++ [.pulse] ∧
       t.regs = s.regs) ∧
     (s.frank.pulses = 0 → exec .impulse s = .next s) ∧
     (s.frank.powerFail = false → s.frank.ring.length ≤ 16 → ∃ t r, exec (.snapshot false) s = .next t ∧
       t.frank.ring.getLast? = some r ∧ r.seq = s.frank.nextSeq ∧ r.energy = s.frank.energy ∧ r.totals = s.frank.totals ∧
       r.uptime = (s.frank.uptime + 1) % 2 ^ 32 ∧ t.frank.ring.length ≤ 16 ∧
       t.frank.nextSeq = (s.frank.nextSeq + 1) % 2 ^ 32 ∧ t.frank.energy = s.frank.energy ∧ t.mem = s.mem) ∧
     (s.frank.powerFail = true → ∃ t, exec (.snapshot false) s = .next t ∧ t.frank.ring = s.frank.ring ∧ t.out = s.out)) ∧
  (∀ s : State,
     (∀ b, s.frank.powered → s.frank.powerFail = false → s.frank.newest = some (false, b) → ∃ t x,
       exec .periodicBankWrite s = .next t ∧ t = { s with frank := t.frank } ∧ t.frank.bankA = s.frank.bankA ∧
         t.frank.bankB = some x ∧ x.valid = true ∧ x.cause = 1 ∧ x.sequence = (b.sequence + 1) % 2 ^ 32 ∧
         x.energy = s.frank.energy ∧ x.totals = s.frank.totals ∧ x.remainder = s.frank.remainder) ∧
     (∀ b one, s.frank.powered = false → s.frank.newest = some (one, b) → ∃ t, exec (.frankPowerUp true) s = .next t ∧
       t.frank.powered = true ∧ t.frank.energy = b.energy ∧ t.frank.remainder = b.remainder ∧ t.frank.totals = b.totals ∧
       t.frank.tenants = b.tenants ∧ t.frank.uptime = 0 ∧ t.frank.ring = [] ∧ t.frank.meterFail = false ∧
       (b.cause = 2 → t.frank.nextSeq = b.nextSeq) ∧ (b.cause ≠ 2 → t.frank.nextSeq = (b.nextSeq + 64) % 2 ^ 32) ∧
       t.regs = s.regs ∧ t.mem = s.mem) ∧
     (s.frank.powered = true → exec (.frankPowerUp true) s = .next s) ∧
     (s.frank.powered → s.frank.powerFail = false → ∃ t, exec .frankPwrfailFall s = .next t ∧ t.frank.powerFail = true ∧
       t.pins.pwrfailLow = true ∧ t.frank = { s.frank.writeBank 2 with powerFail := true }) ∧
     (s.frank.powered → s.frank.powerFail → s.pins.pwrfailLow → ∃ t, exec .pwrfailBankRepeat s = .next t ∧
       t.frank = s.frank.writeBank 2 ∧ t = { s with frank := t.frank }) ∧
     (s.frank.powered → s.frank.powerFail → s.pins.pwrfailLow = false → ∃ t, exec .frankRecordsResume s = .next t ∧
       t.frank = { s.frank with powerFail := false } ∧ t = { s with frank := t.frank }) ∧
     (∀ (bytes : List Byte), s.frank.powered → 2 ≤ bytes.length → ∃ t, exec (.i3cPrivateWrite bytes) s = .next t ∧
       t.frank.pointer = fieldAt bytes 0 2 ∧
       t.frank = { s.frank with pointer := t.frank.pointer, recordSel := t.frank.recordSel, logSel := t.frank.logSel } ∧
       (s.frank.logSel ≤ 63 → t.frank.logSel ≤ 63) ∧ t = { s with frank := t.frank }) ∧
     (∀ n, s.frank.powered → ∃ t d, exec (.i3cPrivateRead n) s = .next t ∧ t.out = s.out ++ [.i3cData d] ∧ d.length = n ∧
       t.frank.pointer = (s.frank.pointer + n) % 2 ^ 16 ∧ t.frank.energy = s.frank.energy ∧
       t.frank.totals = s.frank.totals ∧
       (∀ i, i < n → d[i]? = some (s.frank.i3cByte ((s.frank.pointer + i) % 2 ^ 16)))) ∧
     (∀ a, s.frank.powered → (∃ t, exec (.i3cCcc (.setdasa a)) s = .next t ∧ t.frank.dynAddr = some a.toNat ∧
         t.frank.audit = min (s.frank.audit + 1) (2 ^ 32 - 1)) ∧
       (∃ t, exec (.i3cCcc .enec) s = .next t ∧ t.frank = { s.frank with ibi := true } ∧ t = { s with frank := t.frank })) ∧
     exec .i3cTimeout s = .next s)

/-- Reset (R14, R573, R597; values without a rule of the spec are the model's, log entries 4 and 9): the device is
held and not ready, nothing is in memory, every sync object is 0, every lease is FREE, Frank has no power, every
register holds the sum of its fields' cold reset values, and the form that every step keeps holds. -/
def Obligations.ResetState : Prop :=
  State.reset.pins.held = true ∧ State.reset.pins.devReady = false ∧ State.reset.pending = [] ∧ State.reset.items = [] ∧
  (∀ k, State.reset.byte k = 0) ∧ (∀ n, State.reset.soVal n = 0) ∧
  (∀ kind i, (State.reset.lease kind i).state = 0) ∧ State.reset.frank.powered = false ∧
  (∀ r i, State.reset.reg r i = Reg.cold r) ∧ State.reset.Sound

/-- Courier packets (R483, Table 13-5): reading the bytes of a packet gives the packet back, every field at every
value its width admits, and the header's reserved fields and length hold. -/
def Obligations.PacketsReadBack : Prop :=
  ∀ p : Packet, p.ver < 16 → p.typ < 16 → p.cls < 4 → p.dstConn < 2 ^ 16 → p.srcConn < 2 ^ 16 → p.dstGen < 2 ^ 8 →
    p.srcGen < 2 ^ 8 → p.psn < 2 ^ 24 → p.ack < 2 ^ 24 → p.opcode < 2 ^ 8 → p.trans < 2 ^ 32 → p.offset < 2 ^ 64 →
    p.payload.length < 2 ^ 16 → Packet.parse p.bytes = some p ∧ headerSound p.bytes = true

/-- An invariant that every step keeps, whatever the command and its operands, and the idle step too: memory stays in
its canonical form; Frank (chapter 15) stays sound: at most 16 records (R559), 64 log entries of 32-bit counters
(R561), the energy and its remainder within their widths, the selected log entry in range, and the same of what its
two banks hold. No command changes which variant the device is, nor what waits behind it in the queue (log 9). -/
def Obligations.EveryStepKeepsTheForm : Prop :=
  ∀ s t : State, s.Sound → step s = .next t → t.Sound ∧ t.variant = s.variant ∧ t.pending = s.pending.tail
end

