-- ==== Sys2Proof/Laws/Tab.lean ====
section
/-! SUPPORT. Laws of the sparse tables: what a read gives after each operation, and that every operation keeps the
canonical form. -/

namespace Sys2Proof.Machine
namespace Tab

variable {α : Type}

@[simp] theorem get_nil (d : α) (k : Nat) : get d [] k = d := rfl

@[simp] theorem find?_nil (k : Nat) : find? ([] : Tab α) k = none := rfl

theorem get_eq_find? (d : α) (t : Tab α) (k : Nat) : get d t k = (find? t k).getD d := by
  induction t with
  | nil => rfl
  | cons e t ih =>
    simp only [get, find?]
    split <;> simp_all

@[simp] theorem find?_erase_self (t : Tab α) (k : Nat) : find? (erase t k) k = none := by
  induction t with
  | nil => rfl
  | cons e t ih =>
    simp only [erase]
    split
    · exact ih
    · simp_all [find?]

theorem find?_erase_ne (t : Tab α) {k j : Nat} (h : j ≠ k) : find? (erase t k) j = find? t j := by
  induction t with
  | nil => rfl
  | cons e t ih =>
    simp only [erase, find?]
    split
    · rename_i he
      rw [if_neg (by omega)]
      exact ih
    · simp only [find?, ih]

theorem find?_insert (t : Tab α) (k j : Nat) (x : α) (h : find? t k = none) :
    find? (insert t k x) j = if k = j then some x else find? t j := by
  induction t with
  | nil => rfl
  | cons e t ih =>
    simp only [find?] at h
    split at h
    · cases h
    · rename_i hne
      simp only [insert]
      split
      · rfl
      · simp only [find?, ih h]
        by_cases h1 : e.1 = j
        · simp only [h1, if_true]
          rw [if_neg (by omega)]
        · simp only [h1, if_false]

@[simp] theorem find?_put_self (t : Tab α) (k : Nat) (x : α) : find? (put t k x) k = some x := by
  simp [put, find?_insert _ _ _ _ (find?_erase_self t k)]

theorem find?_put_ne (t : Tab α) {k j : Nat} (x : α) (h : j ≠ k) : find? (put t k x) j = find? t j := by
  rw [put, find?_insert _ _ _ _ (find?_erase_self t k), if_neg (Ne.symm h), find?_erase_ne t h]

/-- A read after a write of the same key gives the value written. -/
@[simp] theorem get_set_self [DecidableEq α] (d : α) (t : Tab α) (k : Nat) (x : α) : get d (set d t k x) k = x := by
  simp only [set, get_eq_find?]
  split
  · simp_all
  · simp [find?_insert _ _ _ _ (find?_erase_self t k)]

/-- A write leaves every other key as it was, whatever default it is read with. -/
theorem get_set_ne' [DecidableEq α] (d e : α) (t : Tab α) {k j : Nat} (x : α) (h : j ≠ k) :
    get e (set d t k x) j = get e t j := by
  simp only [set, get_eq_find?]
  split
  · rw [find?_erase_ne t h]
  · rw [find?_insert _ _ _ _ (find?_erase_self t k), if_neg (Ne.symm h), find?_erase_ne t h]

theorem get_set_ne [DecidableEq α] (d : α) (t : Tab α) {k j : Nat} (x : α) (h : j ≠ k) :
    get d (set d t k x) j = get d t j := get_set_ne' d d t x h

theorem get_set [DecidableEq α] (d : α) (t : Tab α) (k j : Nat) (x : α) :
    get d (set d t k x) j = if j = k then x else get d t j := by
  split
  · simp_all
  · exact get_set_ne d t x ‹_›

@[simp] theorem get_erase_self (d : α) (t : Tab α) (k : Nat) : get d (erase t k) k = d := by
  simp [get_eq_find?]

theorem get_erase_ne (d : α) (t : Tab α) {k j : Nat} (h : j ≠ k) : get d (erase t k) j = get d t j := by
  simp [get_eq_find?, find?_erase_ne t h]

theorem find?_keep (p : Nat → Bool) (t : Tab α) (k : Nat) :
    find? (keep p t) k = if p k then find? t k else none := by
  induction t with
  | nil => simp [keep]
  | cons e t ih =>
    simp only [keep, find?]
    split
    · simp only [find?, ih]
      by_cases h1 : e.1 = k
      · subst h1; simp_all
      · simp [h1]
    · rw [ih]
      by_cases h1 : e.1 = k
      · subst h1; simp_all
      · simp [h1]

/-- A table kept to the keys of `p` reads as before on those keys, and as the default elsewhere. -/
theorem get_keep (d : α) (p : Nat → Bool) (t : Tab α) (k : Nat) :
    get d (keep p t) k = if p k then get d t k else d := by
  simp only [get_eq_find?, find?_keep]
  split <;> rfl

theorem above_mono {t : Tab α} {a b : Nat} (h : a ≤ b) (hb : above b t = true) : above a t = true := by
  induction t with
  | nil => rfl
  | cons e t ih =>
    simp only [above, Bool.and_eq_true, decide_eq_true_eq] at hb ⊢
    exact ⟨by omega, ih hb.2⟩

theorem above_erase {t : Tab α} {b k : Nat} (h : above b t = true) : above b (erase t k) = true := by
  induction t with
  | nil => rfl
  | cons e t ih =>
    simp only [above, Bool.and_eq_true, decide_eq_true_eq] at h
    simp only [erase]
    split
    · exact ih h.2
    · simp [above, h.1, ih h.2]

theorem above_keep {t : Tab α} {b : Nat} (p : Nat → Bool) (h : above b t = true) : above b (keep p t) = true := by
  induction t with
  | nil => rfl
  | cons e t ih =>
    simp only [above, Bool.and_eq_true, decide_eq_true_eq] at h
    simp only [keep]
    split
    · simp [above, h.1, ih h.2]
    · exact ih h.2

theorem above_insert {t : Tab α} {b k : Nat} (x : α) (h : above b t = true) (hk : b < k) :
    above b (insert t k x) = true := by
  induction t with
  | nil => simp [insert, above, hk]
  | cons e t ih =>
    simp only [above, Bool.and_eq_true, decide_eq_true_eq] at h
    simp only [insert]
    split
    · simp [above, h.1, h.2, hk]
    · simp [above, h.1, ih h.2]

theorem sorted_erase {t : Tab α} (k : Nat) (h : sorted t = true) : sorted (erase t k) = true := by
  induction t with
  | nil => rfl
  | cons e t ih =>
    simp only [sorted, Bool.and_eq_true] at h
    simp only [erase]
    split
    · exact ih h.2
    · simp [sorted, above_erase h.1, ih h.2]

theorem sorted_keep {t : Tab α} (p : Nat → Bool) (h : sorted t = true) : sorted (keep p t) = true := by
  induction t with
  | nil => rfl
  | cons e t ih =>
    simp only [sorted, Bool.and_eq_true] at h
    simp only [keep]
    split
    · simp [sorted, above_keep p h.1, ih h.2]
    · exact ih h.2

theorem sorted_insert {t : Tab α} {k : Nat} (x : α) (h : sorted t = true) (hk : find? t k = none) :
    sorted (insert t k x) = true := by
  induction t with
  | nil => rfl
  | cons e t ih =>
    simp only [sorted, Bool.and_eq_true] at h
    simp only [find?] at hk
    split at hk
    · cases hk
    · rename_i hne
      simp only [insert]
      split
      · rename_i hlt
        simp [sorted, above, hlt, above_mono (Nat.le_of_lt hlt) h.1, h.1, h.2]
      · have hlt : e.1 < k := by omega
        simp [sorted, above_insert x h.1 hlt, ih h.2 hk]

theorem keep_eq_filter (p : Nat → Bool) (t : Tab α) : keep p t = t.filter (fun e => p e.1) := by
  induction t with
  | nil => rfl
  | cons e t ih => simp only [keep, List.filter_cons, ih]

theorem above_get {d : α} {t : Tab α} {b k : Nat} (h : above b t = true) (hk : k ≤ b) : get d t k = d := by
  induction t with
  | nil => rfl
  | cons e t ih =>
    simp only [above, Bool.and_eq_true, decide_eq_true_eq] at h
    simp only [get]
    rw [if_neg (by omega)]
    exact ih h.2

variable [DecidableEq α]

theorem noDefault_erase {d : Nat → α} {t : Tab α} (k : Nat) (h : noDefault d t = true) :
    noDefault d (erase t k) = true := by
  induction t with
  | nil => rfl
  | cons e t ih =>
    simp only [noDefault, Bool.and_eq_true] at h
    simp only [erase]
    split
    · exact ih h.2
    · simp only [noDefault, Bool.and_eq_true]; exact ⟨h.1, ih h.2⟩

theorem noDefault_keep {d : Nat → α} {t : Tab α} (p : Nat → Bool) (h : noDefault d t = true) :
    noDefault d (keep p t) = true := by
  induction t with
  | nil => rfl
  | cons e t ih =>
    simp only [noDefault, Bool.and_eq_true] at h
    simp only [keep]
    split
    · simp only [noDefault, Bool.and_eq_true]; exact ⟨h.1, ih h.2⟩
    · exact ih h.2

theorem noDefault_insert {d : Nat → α} {t : Tab α} {k : Nat} {x : α} (h : noDefault d t = true) (hx : x ≠ d k) :
    noDefault d (insert t k x) = true := by
  induction t with
  | nil => simp [insert, noDefault, hx]
  | cons e t ih =>
    simp only [noDefault, Bool.and_eq_true] at h
    simp only [insert]
    split
    · simp only [noDefault, Bool.and_eq_true]; exact ⟨by simp [hx], h.1, h.2⟩
    · simp only [noDefault, Bool.and_eq_true]; exact ⟨h.1, ih h.2⟩

/-- A write keeps the canonical form. -/
theorem wf_set {d : Nat → α} {t : Tab α} (k : Nat) (x : α) (h : wf d t = true) : wf d (set (d k) t k x) = true := by
  simp only [wf, Bool.and_eq_true] at h ⊢
  simp only [set]
  split
  · exact ⟨sorted_erase k h.1, noDefault_erase k h.2⟩
  · exact ⟨sorted_insert x (sorted_erase k h.1) (find?_erase_self t k), noDefault_insert (noDefault_erase k h.2) ‹_›⟩

/-- Keeping some keys keeps the canonical form. -/
theorem wf_keep {d : Nat → α} {t : Tab α} (p : Nat → Bool) (h : wf d t = true) : wf d (keep p t) = true := by
  simp only [wf, Bool.and_eq_true] at h ⊢
  exact ⟨sorted_keep p h.1, noDefault_keep p h.2⟩

end Tab
end Sys2Proof.Machine
end

