-- ==== Sys2Proof/Laws/Regs.lean ====
section
/-! SUPPORT. Laws of register operands: what a field reads after a write of it, of another field of its register, and of
another register. -/

namespace Sys2Proof.Machine

theorem testBit_mask (n i : Nat) : (2 ^ n - 1).testBit i = decide (i < n) := Nat.testBit_two_pow_sub_one n i

theorem Fld.testBit_get (f : Fld) (w : Word) (i : Nat) :
    (f.get w).testBit i = (decide (i < f.width) && w.getLsbD (f.lo + i)) := by
  simp [Fld.get, Nat.testBit_mod_two_pow, Nat.testBit_div_two_pow, BitVec.getLsbD, Nat.add_comm]

theorem Fld.getLsbD_put (f : Fld) (w : Word) (v i : Nat) (hi : i < 64) :
    (f.put w v).getLsbD i =
      if f.lo ≤ i ∧ i < f.lo + f.width then v.testBit (i - f.lo) else w.getLsbD i := by
  simp only [Fld.put, BitVec.getLsbD_or, BitVec.getLsbD_and, BitVec.getLsbD_not, BitVec.getLsbD_shiftLeft,
    BitVec.getLsbD_ofNat, testBit_mask, Nat.testBit_mod_two_pow]
  by_cases h1 : f.lo ≤ i
  · by_cases h2 : i < f.lo + f.width
    · have h3 : i - f.lo < f.width := by omega
      have h4 : i - f.lo < 64 := by omega
      have h5 : ¬ i < f.lo := by omega
      simp [h1, h2, h3, h4, h5, hi]
    · have h3 : ¬ i - f.lo < f.width := by omega
      simp [h1, h2, h3, hi]
  · have h5 : i < f.lo := by omega
    simp [h1, h5, hi]

/-- A field that fits its register reads back the low bits of what was written to it. -/
theorem Fld.get_put (f : Fld) (w : Word) (v : Nat) (h : f.lo + f.width ≤ 64) :
    f.get (f.put w v) = v % 2 ^ f.width := by
  apply Nat.eq_of_testBit_eq
  intro i
  rw [Fld.testBit_get, Nat.testBit_mod_two_pow]
  by_cases hi : i < f.width
  · rw [Fld.getLsbD_put _ _ _ _ (by omega), if_pos (by omega)]
    simp [hi]
  · simp [hi]

/-- A write of one field leaves a field that shares no bit with it as it was. -/
theorem Fld.get_put_disjoint (f g : Fld) (w : Word) (v : Nat) (h : g.lo + g.width ≤ 64)
    (hd : f.lo + f.width ≤ g.lo ∨ g.lo + g.width ≤ f.lo) : g.get (f.put w v) = g.get w := by
  apply Nat.eq_of_testBit_eq
  intro i
  rw [Fld.testBit_get, Fld.testBit_get]
  by_cases hi : i < g.width
  · rw [Fld.getLsbD_put _ _ _ _ (by omega), if_neg (by omega)]
  · simp [hi]

theorem Fld.get_lt (f : Fld) (w : Word) : f.get w < 2 ^ f.width := Nat.mod_lt _ (Nat.two_pow_pos _)

/-- Two register instances have one place exactly when they are one. -/
theorem Reg.key_inj {r q : Reg} {i j : Nat} (hi : i < 131072) (hj : j < 131072) :
    r.key i = q.key j ↔ r = q ∧ i = j := by
  constructor
  · intro h
    simp only [Reg.key] at h
    have h1 : r.idx = q.idx := by omega
    exact ⟨by cases r; cases q; simp_all, by omega⟩
  · rintro ⟨rfl, rfl⟩; rfl

@[simp] theorem State.reg_setReg_self (s : State) (r : Reg) (i : Nat) (w : Word) : (s.setReg r i w).reg r i = w := by
  simp [State.reg, State.setReg]

theorem State.reg_setReg_of_key_ne (s : State) {r q : Reg} {i j : Nat} (w : Word) (h : q.key j ≠ r.key i) :
    (s.setReg r i w).reg q j = s.reg q j := by
  simp only [State.reg, State.setReg]
  exact Tab.get_set_ne' _ _ _ _ h

/-- The key of a register's instance is not the key of another register's. -/
theorem Reg.key_ne_of_reg {r q : Reg} {i j : Nat} (h : q ≠ r) (hi : i < 131072) (hj : j < 131072) :
    q.key j ≠ r.key i := fun e => h ((Reg.key_inj hj hi).1 e).1

/-- The keys of two instances of one register differ. -/
theorem Reg.key_ne_of_inst {r : Reg} {i j : Nat} (h : j ≠ i) : r.key j ≠ r.key i := by
  simp only [Reg.key]; omega

theorem State.rd_wr_self (s : State) (f : Fld) (i v : Nat) (h : f.lo + f.width ≤ 64) :
    (s.wr f i v).rd f i = v % 2 ^ f.width := by
  simp [State.rd, State.wr, Fld.get_put f _ v h]

theorem State.rd_wr_disjoint (s : State) (f g : Fld) (i v : Nat) (hr : f.reg = g.reg) (h : g.lo + g.width ≤ 64)
    (hd : f.lo + f.width ≤ g.lo ∨ g.lo + g.width ≤ f.lo) : (s.wr f i v).rd g i = s.rd g i := by
  simp [State.rd, State.wr, hr, Fld.get_put_disjoint f g _ v h hd]

theorem State.rd_wr_inst (s : State) (f g : Fld) {i j : Nat} (v : Nat) (hr : f.reg = g.reg) (h : j ≠ i) :
    (s.wr f i v).rd g j = s.rd g j := by
  simp only [State.rd, State.wr]
  rw [State.reg_setReg_of_key_ne]
  rw [hr]; exact Reg.key_ne_of_inst h

theorem State.rd_wr_reg (s : State) (f g : Fld) {i j : Nat} (v : Nat) (hr : g.reg ≠ f.reg) (hi : i < 131072)
    (hj : j < 131072) : (s.wr f i v).rd g j = s.rd g j := by
  simp only [State.rd, State.wr]
  rw [State.reg_setReg_of_key_ne]
  exact Reg.key_ne_of_reg hr hi hj

/-- A write of a whole register is read back field by field. -/
@[simp] theorem State.rd_setReg_self (s : State) (f : Fld) (i : Nat) (w : Word) :
    (s.setReg f.reg i w).rd f i = f.get w := by simp [State.rd]

end Sys2Proof.Machine
end

