-- ==== Sys2Proof/Laws/State.lean ====
section
/-! SUPPORT. What each update of State leaves as it was: one lemma for each field, true by its definition. -/

namespace Sys2Proof.Machine.State

@[simp] theorem setReg_pending (s : State) (r : Reg) (i : Nat) (w : Word) : (s.setReg r i w).pending = s.pending := rfl
@[simp] theorem setReg_time (s : State) (r : Reg) (i : Nat) (w : Word) : (s.setReg r i w).time = s.time := rfl
@[simp] theorem setReg_free (s : State) (r : Reg) (i : Nat) (w : Word) : (s.setReg r i w).free = s.free := rfl
@[simp] theorem setReg_out (s : State) (r : Reg) (i : Nat) (w : Word) : (s.setReg r i w).out = s.out := rfl
@[simp] theorem setReg_variant (s : State) (r : Reg) (i : Nat) (w : Word) : (s.setReg r i w).variant = s.variant := rfl
@[simp] theorem setReg_occ (s : State) (r : Reg) (i : Nat) (w : Word) : (s.setReg r i w).occ = s.occ := rfl
@[simp] theorem setReg_frank (s : State) (r : Reg) (i : Nat) (w : Word) : (s.setReg r i w).frank = s.frank := rfl
@[simp] theorem setReg_tally (s : State) (r : Reg) (i : Nat) (w : Word) : (s.setReg r i w).tally = s.tally := rfl
@[simp] theorem setReg_boot (s : State) (r : Reg) (i : Nat) (w : Word) : (s.setReg r i w).boot = s.boot := rfl
@[simp] theorem setReg_pins (s : State) (r : Reg) (i : Nat) (w : Word) : (s.setReg r i w).pins = s.pins := rfl
@[simp] theorem setReg_mcRecord (s : State) (r : Reg) (i : Nat) (w : Word) : (s.setReg r i w).mcRecord = s.mcRecord := rfl
@[simp] theorem setReg_overRun (s : State) (r : Reg) (i : Nat) (w : Word) : (s.setReg r i w).overRun = s.overRun := rfl
@[simp] theorem setReg_overTj (s : State) (r : Reg) (i : Nat) (w : Word) : (s.setReg r i w).overTj = s.overTj := rfl
@[simp] theorem setReg_gregs (s : State) (r : Reg) (i : Nat) (w : Word) : (s.setReg r i w).gregs = s.gregs := rfl
@[simp] theorem setReg_tregs (s : State) (r : Reg) (i : Nat) (w : Word) : (s.setReg r i w).tregs = s.tregs := rfl
@[simp] theorem setReg_pregs (s : State) (r : Reg) (i : Nat) (w : Word) : (s.setReg r i w).pregs = s.pregs := rfl
@[simp] theorem setReg_scratch (s : State) (r : Reg) (i : Nat) (w : Word) : (s.setReg r i w).scratch = s.scratch := rfl
@[simp] theorem setReg_cores (s : State) (r : Reg) (i : Nat) (w : Word) : (s.setReg r i w).cores = s.cores := rfl
@[simp] theorem setReg_items (s : State) (r : Reg) (i : Nat) (w : Word) : (s.setReg r i w).items = s.items := rfl
@[simp] theorem setReg_nextItem (s : State) (r : Reg) (i : Nat) (w : Word) : (s.setReg r i w).nextItem = s.nextItem := rfl
@[simp] theorem setReg_plans (s : State) (r : Reg) (i : Nat) (w : Word) : (s.setReg r i w).plans = s.plans := rfl
@[simp] theorem setReg_tiles (s : State) (r : Reg) (i : Nat) (w : Word) : (s.setReg r i w).tiles = s.tiles := rfl
@[simp] theorem setReg_mem (s : State) (r : Reg) (i : Nat) (w : Word) : (s.setReg r i w).mem = s.mem := rfl
@[simp] theorem setReg_poison (s : State) (r : Reg) (i : Nat) (w : Word) : (s.setReg r i w).poison = s.poison := rfl
@[simp] theorem setReg_llc (s : State) (r : Reg) (i : Nat) (w : Word) : (s.setReg r i w).llc = s.llc := rfl
@[simp] theorem setReg_plru (s : State) (r : Reg) (i : Nat) (w : Word) : (s.setReg r i w).plru = s.plru := rfl
@[simp] theorem setReg_pinUnits (s : State) (r : Reg) (i : Nat) (w : Word) : (s.setReg r i w).pinUnits = s.pinUnits := rfl
@[simp] theorem setReg_pinRanges (s : State) (r : Reg) (i : Nat) (w : Word) : (s.setReg r i w).pinRanges = s.pinRanges := rfl
@[simp] theorem setReg_pages (s : State) (r : Reg) (i : Nat) (w : Word) : (s.setReg r i w).pages = s.pages := rfl
@[simp] theorem setReg_granules (s : State) (r : Reg) (i : Nat) (w : Word) : (s.setReg r i w).granules = s.granules := rfl
@[simp] theorem setReg_space (s : State) (r : Reg) (i : Nat) (w : Word) : (s.setReg r i w).space = s.space := rfl
@[simp] theorem setReg_zeroQ (s : State) (r : Reg) (i : Nat) (w : Word) : (s.setReg r i w).zeroQ = s.zeroQ := rfl
@[simp] theorem setReg_sos (s : State) (r : Reg) (i : Nat) (w : Word) : (s.setReg r i w).sos = s.sos := rfl
@[simp] theorem setReg_leases (s : State) (r : Reg) (i : Nat) (w : Word) : (s.setReg r i w).leases = s.leases := rfl
@[simp] theorem setReg_err (s : State) (r : Reg) (i : Nat) (w : Word) : (s.setReg r i w).err = s.err := rfl
@[simp] theorem setReg_host (s : State) (r : Reg) (i : Nat) (w : Word) : (s.setReg r i w).host = s.host := rfl
@[simp] theorem setReg_chans (s : State) (r : Reg) (i : Nat) (w : Word) : (s.setReg r i w).chans = s.chans := rfl
@[simp] theorem setReg_rings (s : State) (r : Reg) (i : Nat) (w : Word) : (s.setReg r i w).rings = s.rings := rfl
@[simp] theorem setReg_notices (s : State) (r : Reg) (i : Nat) (w : Word) : (s.setReg r i w).notices = s.notices := rfl
@[simp] theorem setReg_walks (s : State) (r : Reg) (i : Nat) (w : Word) : (s.setReg r i w).walks = s.walks := rfl
@[simp] theorem setReg_streams (s : State) (r : Reg) (i : Nat) (w : Word) : (s.setReg r i w).streams = s.streams := rfl
@[simp] theorem setReg_migs (s : State) (r : Reg) (i : Nat) (w : Word) : (s.setReg r i w).migs = s.migs := rfl
@[simp] theorem setReg_eth (s : State) (r : Reg) (i : Nat) (w : Word) : (s.setReg r i w).eth = s.eth := rfl
@[simp] theorem setReg_txq (s : State) (r : Reg) (i : Nat) (w : Word) : (s.setReg r i w).txq = s.txq := rfl
@[simp] theorem setReg_rangeWr (s : State) (r : Reg) (i : Nat) (w : Word) : (s.setReg r i w).rangeWr = s.rangeWr := rfl
@[simp] theorem setReg_demoting (s : State) (r : Reg) (i : Nat) (w : Word) : (s.setReg r i w).demoting = s.demoting := rfl
@[simp] theorem setReg_admits (s : State) (r : Reg) (i : Nat) (w : Word) : (s.setReg r i w).admits = s.admits := rfl
@[simp] theorem setReg_slots (s : State) (r : Reg) (i : Nat) (w : Word) : (s.setReg r i w).slots = s.slots := rfl
@[simp] theorem setReg_spdm (s : State) (r : Reg) (i : Nat) (w : Word) : (s.setReg r i w).spdm = s.spdm := rfl

@[simp] theorem wr_pending (s : State) (f : Fld) (i v : Nat) : (s.wr f i v).pending = s.pending := rfl
@[simp] theorem wr_time (s : State) (f : Fld) (i v : Nat) : (s.wr f i v).time = s.time := rfl
@[simp] theorem wr_free (s : State) (f : Fld) (i v : Nat) : (s.wr f i v).free = s.free := rfl
@[simp] theorem wr_out (s : State) (f : Fld) (i v : Nat) : (s.wr f i v).out = s.out := rfl
@[simp] theorem wr_variant (s : State) (f : Fld) (i v : Nat) : (s.wr f i v).variant = s.variant := rfl
@[simp] theorem wr_occ (s : State) (f : Fld) (i v : Nat) : (s.wr f i v).occ = s.occ := rfl
@[simp] theorem wr_frank (s : State) (f : Fld) (i v : Nat) : (s.wr f i v).frank = s.frank := rfl
@[simp] theorem wr_tally (s : State) (f : Fld) (i v : Nat) : (s.wr f i v).tally = s.tally := rfl
@[simp] theorem wr_boot (s : State) (f : Fld) (i v : Nat) : (s.wr f i v).boot = s.boot := rfl
@[simp] theorem wr_pins (s : State) (f : Fld) (i v : Nat) : (s.wr f i v).pins = s.pins := rfl
@[simp] theorem wr_mcRecord (s : State) (f : Fld) (i v : Nat) : (s.wr f i v).mcRecord = s.mcRecord := rfl
@[simp] theorem wr_overRun (s : State) (f : Fld) (i v : Nat) : (s.wr f i v).overRun = s.overRun := rfl
@[simp] theorem wr_overTj (s : State) (f : Fld) (i v : Nat) : (s.wr f i v).overTj = s.overTj := rfl
@[simp] theorem wr_gregs (s : State) (f : Fld) (i v : Nat) : (s.wr f i v).gregs = s.gregs := rfl
@[simp] theorem wr_tregs (s : State) (f : Fld) (i v : Nat) : (s.wr f i v).tregs = s.tregs := rfl
@[simp] theorem wr_pregs (s : State) (f : Fld) (i v : Nat) : (s.wr f i v).pregs = s.pregs := rfl
@[simp] theorem wr_scratch (s : State) (f : Fld) (i v : Nat) : (s.wr f i v).scratch = s.scratch := rfl
@[simp] theorem wr_cores (s : State) (f : Fld) (i v : Nat) : (s.wr f i v).cores = s.cores := rfl
@[simp] theorem wr_items (s : State) (f : Fld) (i v : Nat) : (s.wr f i v).items = s.items := rfl
@[simp] theorem wr_nextItem (s : State) (f : Fld) (i v : Nat) : (s.wr f i v).nextItem = s.nextItem := rfl
@[simp] theorem wr_plans (s : State) (f : Fld) (i v : Nat) : (s.wr f i v).plans = s.plans := rfl
@[simp] theorem wr_tiles (s : State) (f : Fld) (i v : Nat) : (s.wr f i v).tiles = s.tiles := rfl
@[simp] theorem wr_mem (s : State) (f : Fld) (i v : Nat) : (s.wr f i v).mem = s.mem := rfl
@[simp] theorem wr_poison (s : State) (f : Fld) (i v : Nat) : (s.wr f i v).poison = s.poison := rfl
@[simp] theorem wr_llc (s : State) (f : Fld) (i v : Nat) : (s.wr f i v).llc = s.llc := rfl
@[simp] theorem wr_plru (s : State) (f : Fld) (i v : Nat) : (s.wr f i v).plru = s.plru := rfl
@[simp] theorem wr_pinUnits (s : State) (f : Fld) (i v : Nat) : (s.wr f i v).pinUnits = s.pinUnits := rfl
@[simp] theorem wr_pinRanges (s : State) (f : Fld) (i v : Nat) : (s.wr f i v).pinRanges = s.pinRanges := rfl
@[simp] theorem wr_pages (s : State) (f : Fld) (i v : Nat) : (s.wr f i v).pages = s.pages := rfl
@[simp] theorem wr_granules (s : State) (f : Fld) (i v : Nat) : (s.wr f i v).granules = s.granules := rfl
@[simp] theorem wr_space (s : State) (f : Fld) (i v : Nat) : (s.wr f i v).space = s.space := rfl
@[simp] theorem wr_zeroQ (s : State) (f : Fld) (i v : Nat) : (s.wr f i v).zeroQ = s.zeroQ := rfl
@[simp] theorem wr_sos (s : State) (f : Fld) (i v : Nat) : (s.wr f i v).sos = s.sos := rfl
@[simp] theorem wr_leases (s : State) (f : Fld) (i v : Nat) : (s.wr f i v).leases = s.leases := rfl
@[simp] theorem wr_err (s : State) (f : Fld) (i v : Nat) : (s.wr f i v).err = s.err := rfl
@[simp] theorem wr_host (s : State) (f : Fld) (i v : Nat) : (s.wr f i v).host = s.host := rfl
@[simp] theorem wr_chans (s : State) (f : Fld) (i v : Nat) : (s.wr f i v).chans = s.chans := rfl
@[simp] theorem wr_rings (s : State) (f : Fld) (i v : Nat) : (s.wr f i v).rings = s.rings := rfl
@[simp] theorem wr_notices (s : State) (f : Fld) (i v : Nat) : (s.wr f i v).notices = s.notices := rfl
@[simp] theorem wr_walks (s : State) (f : Fld) (i v : Nat) : (s.wr f i v).walks = s.walks := rfl
@[simp] theorem wr_streams (s : State) (f : Fld) (i v : Nat) : (s.wr f i v).streams = s.streams := rfl
@[simp] theorem wr_migs (s : State) (f : Fld) (i v : Nat) : (s.wr f i v).migs = s.migs := rfl
@[simp] theorem wr_eth (s : State) (f : Fld) (i v : Nat) : (s.wr f i v).eth = s.eth := rfl
@[simp] theorem wr_txq (s : State) (f : Fld) (i v : Nat) : (s.wr f i v).txq = s.txq := rfl
@[simp] theorem wr_rangeWr (s : State) (f : Fld) (i v : Nat) : (s.wr f i v).rangeWr = s.rangeWr := rfl
@[simp] theorem wr_demoting (s : State) (f : Fld) (i v : Nat) : (s.wr f i v).demoting = s.demoting := rfl
@[simp] theorem wr_admits (s : State) (f : Fld) (i v : Nat) : (s.wr f i v).admits = s.admits := rfl
@[simp] theorem wr_slots (s : State) (f : Fld) (i v : Nat) : (s.wr f i v).slots = s.slots := rfl
@[simp] theorem wr_spdm (s : State) (f : Fld) (i v : Nat) : (s.wr f i v).spdm = s.spdm := rfl

@[simp] theorem wrb_pending (s : State) (f : Fld) (i : Nat) (v : Bool) : (s.wrb f i v).pending = s.pending := rfl
@[simp] theorem wrb_time (s : State) (f : Fld) (i : Nat) (v : Bool) : (s.wrb f i v).time = s.time := rfl
@[simp] theorem wrb_free (s : State) (f : Fld) (i : Nat) (v : Bool) : (s.wrb f i v).free = s.free := rfl
@[simp] theorem wrb_out (s : State) (f : Fld) (i : Nat) (v : Bool) : (s.wrb f i v).out = s.out := rfl
@[simp] theorem wrb_variant (s : State) (f : Fld) (i : Nat) (v : Bool) : (s.wrb f i v).variant = s.variant := rfl
@[simp] theorem wrb_occ (s : State) (f : Fld) (i : Nat) (v : Bool) : (s.wrb f i v).occ = s.occ := rfl
@[simp] theorem wrb_frank (s : State) (f : Fld) (i : Nat) (v : Bool) : (s.wrb f i v).frank = s.frank := rfl
@[simp] theorem wrb_tally (s : State) (f : Fld) (i : Nat) (v : Bool) : (s.wrb f i v).tally = s.tally := rfl
@[simp] theorem wrb_boot (s : State) (f : Fld) (i : Nat) (v : Bool) : (s.wrb f i v).boot = s.boot := rfl
@[simp] theorem wrb_pins (s : State) (f : Fld) (i : Nat) (v : Bool) : (s.wrb f i v).pins = s.pins := rfl
@[simp] theorem wrb_mcRecord (s : State) (f : Fld) (i : Nat) (v : Bool) : (s.wrb f i v).mcRecord = s.mcRecord := rfl
@[simp] theorem wrb_overRun (s : State) (f : Fld) (i : Nat) (v : Bool) : (s.wrb f i v).overRun = s.overRun := rfl
@[simp] theorem wrb_overTj (s : State) (f : Fld) (i : Nat) (v : Bool) : (s.wrb f i v).overTj = s.overTj := rfl
@[simp] theorem wrb_gregs (s : State) (f : Fld) (i : Nat) (v : Bool) : (s.wrb f i v).gregs = s.gregs := rfl
@[simp] theorem wrb_tregs (s : State) (f : Fld) (i : Nat) (v : Bool) : (s.wrb f i v).tregs = s.tregs := rfl
@[simp] theorem wrb_pregs (s : State) (f : Fld) (i : Nat) (v : Bool) : (s.wrb f i v).pregs = s.pregs := rfl
@[simp] theorem wrb_scratch (s : State) (f : Fld) (i : Nat) (v : Bool) : (s.wrb f i v).scratch = s.scratch := rfl
@[simp] theorem wrb_cores (s : State) (f : Fld) (i : Nat) (v : Bool) : (s.wrb f i v).cores = s.cores := rfl
@[simp] theorem wrb_items (s : State) (f : Fld) (i : Nat) (v : Bool) : (s.wrb f i v).items = s.items := rfl
@[simp] theorem wrb_nextItem (s : State) (f : Fld) (i : Nat) (v : Bool) : (s.wrb f i v).nextItem = s.nextItem := rfl
@[simp] theorem wrb_plans (s : State) (f : Fld) (i : Nat) (v : Bool) : (s.wrb f i v).plans = s.plans := rfl
@[simp] theorem wrb_tiles (s : State) (f : Fld) (i : Nat) (v : Bool) : (s.wrb f i v).tiles = s.tiles := rfl
@[simp] theorem wrb_mem (s : State) (f : Fld) (i : Nat) (v : Bool) : (s.wrb f i v).mem = s.mem := rfl
@[simp] theorem wrb_poison (s : State) (f : Fld) (i : Nat) (v : Bool) : (s.wrb f i v).poison = s.poison := rfl
@[simp] theorem wrb_llc (s : State) (f : Fld) (i : Nat) (v : Bool) : (s.wrb f i v).llc = s.llc := rfl
@[simp] theorem wrb_plru (s : State) (f : Fld) (i : Nat) (v : Bool) : (s.wrb f i v).plru = s.plru := rfl
@[simp] theorem wrb_pinUnits (s : State) (f : Fld) (i : Nat) (v : Bool) : (s.wrb f i v).pinUnits = s.pinUnits := rfl
@[simp] theorem wrb_pinRanges (s : State) (f : Fld) (i : Nat) (v : Bool) : (s.wrb f i v).pinRanges = s.pinRanges := rfl
@[simp] theorem wrb_pages (s : State) (f : Fld) (i : Nat) (v : Bool) : (s.wrb f i v).pages = s.pages := rfl
@[simp] theorem wrb_granules (s : State) (f : Fld) (i : Nat) (v : Bool) : (s.wrb f i v).granules = s.granules := rfl
@[simp] theorem wrb_space (s : State) (f : Fld) (i : Nat) (v : Bool) : (s.wrb f i v).space = s.space := rfl
@[simp] theorem wrb_zeroQ (s : State) (f : Fld) (i : Nat) (v : Bool) : (s.wrb f i v).zeroQ = s.zeroQ := rfl
@[simp] theorem wrb_sos (s : State) (f : Fld) (i : Nat) (v : Bool) : (s.wrb f i v).sos = s.sos := rfl
@[simp] theorem wrb_leases (s : State) (f : Fld) (i : Nat) (v : Bool) : (s.wrb f i v).leases = s.leases := rfl
@[simp] theorem wrb_err (s : State) (f : Fld) (i : Nat) (v : Bool) : (s.wrb f i v).err = s.err := rfl
@[simp] theorem wrb_host (s : State) (f : Fld) (i : Nat) (v : Bool) : (s.wrb f i v).host = s.host := rfl
@[simp] theorem wrb_chans (s : State) (f : Fld) (i : Nat) (v : Bool) : (s.wrb f i v).chans = s.chans := rfl
@[simp] theorem wrb_rings (s : State) (f : Fld) (i : Nat) (v : Bool) : (s.wrb f i v).rings = s.rings := rfl
@[simp] theorem wrb_notices (s : State) (f : Fld) (i : Nat) (v : Bool) : (s.wrb f i v).notices = s.notices := rfl
@[simp] theorem wrb_walks (s : State) (f : Fld) (i : Nat) (v : Bool) : (s.wrb f i v).walks = s.walks := rfl
@[simp] theorem wrb_streams (s : State) (f : Fld) (i : Nat) (v : Bool) : (s.wrb f i v).streams = s.streams := rfl
@[simp] theorem wrb_migs (s : State) (f : Fld) (i : Nat) (v : Bool) : (s.wrb f i v).migs = s.migs := rfl
@[simp] theorem wrb_eth (s : State) (f : Fld) (i : Nat) (v : Bool) : (s.wrb f i v).eth = s.eth := rfl
@[simp] theorem wrb_txq (s : State) (f : Fld) (i : Nat) (v : Bool) : (s.wrb f i v).txq = s.txq := rfl
@[simp] theorem wrb_rangeWr (s : State) (f : Fld) (i : Nat) (v : Bool) : (s.wrb f i v).rangeWr = s.rangeWr := rfl
@[simp] theorem wrb_demoting (s : State) (f : Fld) (i : Nat) (v : Bool) : (s.wrb f i v).demoting = s.demoting := rfl
@[simp] theorem wrb_admits (s : State) (f : Fld) (i : Nat) (v : Bool) : (s.wrb f i v).admits = s.admits := rfl
@[simp] theorem wrb_slots (s : State) (f : Fld) (i : Nat) (v : Bool) : (s.wrb f i v).slots = s.slots := rfl
@[simp] theorem wrb_spdm (s : State) (f : Fld) (i : Nat) (v : Bool) : (s.wrb f i v).spdm = s.spdm := rfl

@[simp] theorem flag_pending (s : State) (f : Fld) (i : Nat) : (s.flag f i).pending = s.pending := rfl
@[simp] theorem flag_time (s : State) (f : Fld) (i : Nat) : (s.flag f i).time = s.time := rfl
@[simp] theorem flag_free (s : State) (f : Fld) (i : Nat) : (s.flag f i).free = s.free := rfl
@[simp] theorem flag_out (s : State) (f : Fld) (i : Nat) : (s.flag f i).out = s.out := rfl
@[simp] theorem flag_variant (s : State) (f : Fld) (i : Nat) : (s.flag f i).variant = s.variant := rfl
@[simp] theorem flag_occ (s : State) (f : Fld) (i : Nat) : (s.flag f i).occ = s.occ := rfl
@[simp] theorem flag_frank (s : State) (f : Fld) (i : Nat) : (s.flag f i).frank = s.frank := rfl
@[simp] theorem flag_tally (s : State) (f : Fld) (i : Nat) : (s.flag f i).tally = s.tally := rfl
@[simp] theorem flag_boot (s : State) (f : Fld) (i : Nat) : (s.flag f i).boot = s.boot := rfl
@[simp] theorem flag_pins (s : State) (f : Fld) (i : Nat) : (s.flag f i).pins = s.pins := rfl
@[simp] theorem flag_mcRecord (s : State) (f : Fld) (i : Nat) : (s.flag f i).mcRecord = s.mcRecord := rfl
@[simp] theorem flag_overRun (s : State) (f : Fld) (i : Nat) : (s.flag f i).overRun = s.overRun := rfl
@[simp] theorem flag_overTj (s : State) (f : Fld) (i : Nat) : (s.flag f i).overTj = s.overTj := rfl
@[simp] theorem flag_gregs (s : State) (f : Fld) (i : Nat) : (s.flag f i).gregs = s.gregs := rfl
@[simp] theorem flag_tregs (s : State) (f : Fld) (i : Nat) : (s.flag f i).tregs = s.tregs := rfl
@[simp] theorem flag_pregs (s : State) (f : Fld) (i : Nat) : (s.flag f i).pregs = s.pregs := rfl
@[simp] theorem flag_scratch (s : State) (f : Fld) (i : Nat) : (s.flag f i).scratch = s.scratch := rfl
@[simp] theorem flag_cores (s : State) (f : Fld) (i : Nat) : (s.flag f i).cores = s.cores := rfl
@[simp] theorem flag_items (s : State) (f : Fld) (i : Nat) : (s.flag f i).items = s.items := rfl
@[simp] theorem flag_nextItem (s : State) (f : Fld) (i : Nat) : (s.flag f i).nextItem = s.nextItem := rfl
@[simp] theorem flag_plans (s : State) (f : Fld) (i : Nat) : (s.flag f i).plans = s.plans := rfl
@[simp] theorem flag_tiles (s : State) (f : Fld) (i : Nat) : (s.flag f i).tiles = s.tiles := rfl
@[simp] theorem flag_mem (s : State) (f : Fld) (i : Nat) : (s.flag f i).mem = s.mem := rfl
@[simp] theorem flag_poison (s : State) (f : Fld) (i : Nat) : (s.flag f i).poison = s.poison := rfl
@[simp] theorem flag_llc (s : State) (f : Fld) (i : Nat) : (s.flag f i).llc = s.llc := rfl
@[simp] theorem flag_plru (s : State) (f : Fld) (i : Nat) : (s.flag f i).plru = s.plru := rfl
@[simp] theorem flag_pinUnits (s : State) (f : Fld) (i : Nat) : (s.flag f i).pinUnits = s.pinUnits := rfl
@[simp] theorem flag_pinRanges (s : State) (f : Fld) (i : Nat) : (s.flag f i).pinRanges = s.pinRanges := rfl
@[simp] theorem flag_pages (s : State) (f : Fld) (i : Nat) : (s.flag f i).pages = s.pages := rfl
@[simp] theorem flag_granules (s : State) (f : Fld) (i : Nat) : (s.flag f i).granules = s.granules := rfl
@[simp] theorem flag_space (s : State) (f : Fld) (i : Nat) : (s.flag f i).space = s.space := rfl
@[simp] theorem flag_zeroQ (s : State) (f : Fld) (i : Nat) : (s.flag f i).zeroQ = s.zeroQ := rfl
@[simp] theorem flag_sos (s : State) (f : Fld) (i : Nat) : (s.flag f i).sos = s.sos := rfl
@[simp] theorem flag_leases (s : State) (f : Fld) (i : Nat) : (s.flag f i).leases = s.leases := rfl
@[simp] theorem flag_err (s : State) (f : Fld) (i : Nat) : (s.flag f i).err = s.err := rfl
@[simp] theorem flag_host (s : State) (f : Fld) (i : Nat) : (s.flag f i).host = s.host := rfl
@[simp] theorem flag_chans (s : State) (f : Fld) (i : Nat) : (s.flag f i).chans = s.chans := rfl
@[simp] theorem flag_rings (s : State) (f : Fld) (i : Nat) : (s.flag f i).rings = s.rings := rfl
@[simp] theorem flag_notices (s : State) (f : Fld) (i : Nat) : (s.flag f i).notices = s.notices := rfl
@[simp] theorem flag_walks (s : State) (f : Fld) (i : Nat) : (s.flag f i).walks = s.walks := rfl
@[simp] theorem flag_streams (s : State) (f : Fld) (i : Nat) : (s.flag f i).streams = s.streams := rfl
@[simp] theorem flag_migs (s : State) (f : Fld) (i : Nat) : (s.flag f i).migs = s.migs := rfl
@[simp] theorem flag_eth (s : State) (f : Fld) (i : Nat) : (s.flag f i).eth = s.eth := rfl
@[simp] theorem flag_txq (s : State) (f : Fld) (i : Nat) : (s.flag f i).txq = s.txq := rfl
@[simp] theorem flag_rangeWr (s : State) (f : Fld) (i : Nat) : (s.flag f i).rangeWr = s.rangeWr := rfl
@[simp] theorem flag_demoting (s : State) (f : Fld) (i : Nat) : (s.flag f i).demoting = s.demoting := rfl
@[simp] theorem flag_admits (s : State) (f : Fld) (i : Nat) : (s.flag f i).admits = s.admits := rfl
@[simp] theorem flag_slots (s : State) (f : Fld) (i : Nat) : (s.flag f i).slots = s.slots := rfl
@[simp] theorem flag_spdm (s : State) (f : Fld) (i : Nat) : (s.flag f i).spdm = s.spdm := rfl

@[simp] theorem sat_pending (s : State) (f : Fld) (i n : Nat) : (s.sat f i n).pending = s.pending := rfl
@[simp] theorem sat_time (s : State) (f : Fld) (i n : Nat) : (s.sat f i n).time = s.time := rfl
@[simp] theorem sat_free (s : State) (f : Fld) (i n : Nat) : (s.sat f i n).free = s.free := rfl
@[simp] theorem sat_out (s : State) (f : Fld) (i n : Nat) : (s.sat f i n).out = s.out := rfl
@[simp] theorem sat_variant (s : State) (f : Fld) (i n : Nat) : (s.sat f i n).variant = s.variant := rfl
@[simp] theorem sat_occ (s : State) (f : Fld) (i n : Nat) : (s.sat f i n).occ = s.occ := rfl
@[simp] theorem sat_frank (s : State) (f : Fld) (i n : Nat) : (s.sat f i n).frank = s.frank := rfl
@[simp] theorem sat_tally (s : State) (f : Fld) (i n : Nat) : (s.sat f i n).tally = s.tally := rfl
@[simp] theorem sat_boot (s : State) (f : Fld) (i n : Nat) : (s.sat f i n).boot = s.boot := rfl
@[simp] theorem sat_pins (s : State) (f : Fld) (i n : Nat) : (s.sat f i n).pins = s.pins := rfl
@[simp] theorem sat_mcRecord (s : State) (f : Fld) (i n : Nat) : (s.sat f i n).mcRecord = s.mcRecord := rfl
@[simp] theorem sat_overRun (s : State) (f : Fld) (i n : Nat) : (s.sat f i n).overRun = s.overRun := rfl
@[simp] theorem sat_overTj (s : State) (f : Fld) (i n : Nat) : (s.sat f i n).overTj = s.overTj := rfl
@[simp] theorem sat_gregs (s : State) (f : Fld) (i n : Nat) : (s.sat f i n).gregs = s.gregs := rfl
@[simp] theorem sat_tregs (s : State) (f : Fld) (i n : Nat) : (s.sat f i n).tregs = s.tregs := rfl
@[simp] theorem sat_pregs (s : State) (f : Fld) (i n : Nat) : (s.sat f i n).pregs = s.pregs := rfl
@[simp] theorem sat_scratch (s : State) (f : Fld) (i n : Nat) : (s.sat f i n).scratch = s.scratch := rfl
@[simp] theorem sat_cores (s : State) (f : Fld) (i n : Nat) : (s.sat f i n).cores = s.cores := rfl
@[simp] theorem sat_items (s : State) (f : Fld) (i n : Nat) : (s.sat f i n).items = s.items := rfl
@[simp] theorem sat_nextItem (s : State) (f : Fld) (i n : Nat) : (s.sat f i n).nextItem = s.nextItem := rfl
@[simp] theorem sat_plans (s : State) (f : Fld) (i n : Nat) : (s.sat f i n).plans = s.plans := rfl
@[simp] theorem sat_tiles (s : State) (f : Fld) (i n : Nat) : (s.sat f i n).tiles = s.tiles := rfl
@[simp] theorem sat_mem (s : State) (f : Fld) (i n : Nat) : (s.sat f i n).mem = s.mem := rfl
@[simp] theorem sat_poison (s : State) (f : Fld) (i n : Nat) : (s.sat f i n).poison = s.poison := rfl
@[simp] theorem sat_llc (s : State) (f : Fld) (i n : Nat) : (s.sat f i n).llc = s.llc := rfl
@[simp] theorem sat_plru (s : State) (f : Fld) (i n : Nat) : (s.sat f i n).plru = s.plru := rfl
@[simp] theorem sat_pinUnits (s : State) (f : Fld) (i n : Nat) : (s.sat f i n).pinUnits = s.pinUnits := rfl
@[simp] theorem sat_pinRanges (s : State) (f : Fld) (i n : Nat) : (s.sat f i n).pinRanges = s.pinRanges := rfl
@[simp] theorem sat_pages (s : State) (f : Fld) (i n : Nat) : (s.sat f i n).pages = s.pages := rfl
@[simp] theorem sat_granules (s : State) (f : Fld) (i n : Nat) : (s.sat f i n).granules = s.granules := rfl
@[simp] theorem sat_space (s : State) (f : Fld) (i n : Nat) : (s.sat f i n).space = s.space := rfl
@[simp] theorem sat_zeroQ (s : State) (f : Fld) (i n : Nat) : (s.sat f i n).zeroQ = s.zeroQ := rfl
@[simp] theorem sat_sos (s : State) (f : Fld) (i n : Nat) : (s.sat f i n).sos = s.sos := rfl
@[simp] theorem sat_leases (s : State) (f : Fld) (i n : Nat) : (s.sat f i n).leases = s.leases := rfl
@[simp] theorem sat_err (s : State) (f : Fld) (i n : Nat) : (s.sat f i n).err = s.err := rfl
@[simp] theorem sat_host (s : State) (f : Fld) (i n : Nat) : (s.sat f i n).host = s.host := rfl
@[simp] theorem sat_chans (s : State) (f : Fld) (i n : Nat) : (s.sat f i n).chans = s.chans := rfl
@[simp] theorem sat_rings (s : State) (f : Fld) (i n : Nat) : (s.sat f i n).rings = s.rings := rfl
@[simp] theorem sat_notices (s : State) (f : Fld) (i n : Nat) : (s.sat f i n).notices = s.notices := rfl
@[simp] theorem sat_walks (s : State) (f : Fld) (i n : Nat) : (s.sat f i n).walks = s.walks := rfl
@[simp] theorem sat_streams (s : State) (f : Fld) (i n : Nat) : (s.sat f i n).streams = s.streams := rfl
@[simp] theorem sat_migs (s : State) (f : Fld) (i n : Nat) : (s.sat f i n).migs = s.migs := rfl
@[simp] theorem sat_eth (s : State) (f : Fld) (i n : Nat) : (s.sat f i n).eth = s.eth := rfl
@[simp] theorem sat_txq (s : State) (f : Fld) (i n : Nat) : (s.sat f i n).txq = s.txq := rfl
@[simp] theorem sat_rangeWr (s : State) (f : Fld) (i n : Nat) : (s.sat f i n).rangeWr = s.rangeWr := rfl
@[simp] theorem sat_demoting (s : State) (f : Fld) (i n : Nat) : (s.sat f i n).demoting = s.demoting := rfl
@[simp] theorem sat_admits (s : State) (f : Fld) (i n : Nat) : (s.sat f i n).admits = s.admits := rfl
@[simp] theorem sat_slots (s : State) (f : Fld) (i n : Nat) : (s.sat f i n).slots = s.slots := rfl
@[simp] theorem sat_spdm (s : State) (f : Fld) (i n : Nat) : (s.sat f i n).spdm = s.spdm := rfl

@[simp] theorem bump_pending (s : State) (f : Fld) (i n : Nat) : (s.bump f i n).pending = s.pending := rfl
@[simp] theorem bump_time (s : State) (f : Fld) (i n : Nat) : (s.bump f i n).time = s.time := rfl
@[simp] theorem bump_free (s : State) (f : Fld) (i n : Nat) : (s.bump f i n).free = s.free := rfl
@[simp] theorem bump_out (s : State) (f : Fld) (i n : Nat) : (s.bump f i n).out = s.out := rfl
@[simp] theorem bump_variant (s : State) (f : Fld) (i n : Nat) : (s.bump f i n).variant = s.variant := rfl
@[simp] theorem bump_occ (s : State) (f : Fld) (i n : Nat) : (s.bump f i n).occ = s.occ := rfl
@[simp] theorem bump_frank (s : State) (f : Fld) (i n : Nat) : (s.bump f i n).frank = s.frank := rfl
@[simp] theorem bump_tally (s : State) (f : Fld) (i n : Nat) : (s.bump f i n).tally = s.tally := rfl
@[simp] theorem bump_boot (s : State) (f : Fld) (i n : Nat) : (s.bump f i n).boot = s.boot := rfl
@[simp] theorem bump_pins (s : State) (f : Fld) (i n : Nat) : (s.bump f i n).pins = s.pins := rfl
@[simp] theorem bump_mcRecord (s : State) (f : Fld) (i n : Nat) : (s.bump f i n).mcRecord = s.mcRecord := rfl
@[simp] theorem bump_overRun (s : State) (f : Fld) (i n : Nat) : (s.bump f i n).overRun = s.overRun := rfl
@[simp] theorem bump_overTj (s : State) (f : Fld) (i n : Nat) : (s.bump f i n).overTj = s.overTj := rfl
@[simp] theorem bump_gregs (s : State) (f : Fld) (i n : Nat) : (s.bump f i n).gregs = s.gregs := rfl
@[simp] theorem bump_tregs (s : State) (f : Fld) (i n : Nat) : (s.bump f i n).tregs = s.tregs := rfl
@[simp] theorem bump_pregs (s : State) (f : Fld) (i n : Nat) : (s.bump f i n).pregs = s.pregs := rfl
@[simp] theorem bump_scratch (s : State) (f : Fld) (i n : Nat) : (s.bump f i n).scratch = s.scratch := rfl
@[simp] theorem bump_cores (s : State) (f : Fld) (i n : Nat) : (s.bump f i n).cores = s.cores := rfl
@[simp] theorem bump_items (s : State) (f : Fld) (i n : Nat) : (s.bump f i n).items = s.items := rfl
@[simp] theorem bump_nextItem (s : State) (f : Fld) (i n : Nat) : (s.bump f i n).nextItem = s.nextItem := rfl
@[simp] theorem bump_plans (s : State) (f : Fld) (i n : Nat) : (s.bump f i n).plans = s.plans := rfl
@[simp] theorem bump_tiles (s : State) (f : Fld) (i n : Nat) : (s.bump f i n).tiles = s.tiles := rfl
@[simp] theorem bump_mem (s : State) (f : Fld) (i n : Nat) : (s.bump f i n).mem = s.mem := rfl
@[simp] theorem bump_poison (s : State) (f : Fld) (i n : Nat) : (s.bump f i n).poison = s.poison := rfl
@[simp] theorem bump_llc (s : State) (f : Fld) (i n : Nat) : (s.bump f i n).llc = s.llc := rfl
@[simp] theorem bump_plru (s : State) (f : Fld) (i n : Nat) : (s.bump f i n).plru = s.plru := rfl
@[simp] theorem bump_pinUnits (s : State) (f : Fld) (i n : Nat) : (s.bump f i n).pinUnits = s.pinUnits := rfl
@[simp] theorem bump_pinRanges (s : State) (f : Fld) (i n : Nat) : (s.bump f i n).pinRanges = s.pinRanges := rfl
@[simp] theorem bump_pages (s : State) (f : Fld) (i n : Nat) : (s.bump f i n).pages = s.pages := rfl
@[simp] theorem bump_granules (s : State) (f : Fld) (i n : Nat) : (s.bump f i n).granules = s.granules := rfl
@[simp] theorem bump_space (s : State) (f : Fld) (i n : Nat) : (s.bump f i n).space = s.space := rfl
@[simp] theorem bump_zeroQ (s : State) (f : Fld) (i n : Nat) : (s.bump f i n).zeroQ = s.zeroQ := rfl
@[simp] theorem bump_sos (s : State) (f : Fld) (i n : Nat) : (s.bump f i n).sos = s.sos := rfl
@[simp] theorem bump_leases (s : State) (f : Fld) (i n : Nat) : (s.bump f i n).leases = s.leases := rfl
@[simp] theorem bump_err (s : State) (f : Fld) (i n : Nat) : (s.bump f i n).err = s.err := rfl
@[simp] theorem bump_host (s : State) (f : Fld) (i n : Nat) : (s.bump f i n).host = s.host := rfl
@[simp] theorem bump_chans (s : State) (f : Fld) (i n : Nat) : (s.bump f i n).chans = s.chans := rfl
@[simp] theorem bump_rings (s : State) (f : Fld) (i n : Nat) : (s.bump f i n).rings = s.rings := rfl
@[simp] theorem bump_notices (s : State) (f : Fld) (i n : Nat) : (s.bump f i n).notices = s.notices := rfl
@[simp] theorem bump_walks (s : State) (f : Fld) (i n : Nat) : (s.bump f i n).walks = s.walks := rfl
@[simp] theorem bump_streams (s : State) (f : Fld) (i n : Nat) : (s.bump f i n).streams = s.streams := rfl
@[simp] theorem bump_migs (s : State) (f : Fld) (i n : Nat) : (s.bump f i n).migs = s.migs := rfl
@[simp] theorem bump_eth (s : State) (f : Fld) (i n : Nat) : (s.bump f i n).eth = s.eth := rfl
@[simp] theorem bump_txq (s : State) (f : Fld) (i n : Nat) : (s.bump f i n).txq = s.txq := rfl
@[simp] theorem bump_rangeWr (s : State) (f : Fld) (i n : Nat) : (s.bump f i n).rangeWr = s.rangeWr := rfl
@[simp] theorem bump_demoting (s : State) (f : Fld) (i n : Nat) : (s.bump f i n).demoting = s.demoting := rfl
@[simp] theorem bump_admits (s : State) (f : Fld) (i n : Nat) : (s.bump f i n).admits = s.admits := rfl
@[simp] theorem bump_slots (s : State) (f : Fld) (i n : Nat) : (s.bump f i n).slots = s.slots := rfl
@[simp] theorem bump_spdm (s : State) (f : Fld) (i n : Nat) : (s.bump f i n).spdm = s.spdm := rfl

@[simp] theorem emit_pending (s : State) (m : Msg) : (s.emit m).pending = s.pending := rfl
@[simp] theorem emit_time (s : State) (m : Msg) : (s.emit m).time = s.time := rfl
@[simp] theorem emit_free (s : State) (m : Msg) : (s.emit m).free = s.free := rfl
@[simp] theorem emit_variant (s : State) (m : Msg) : (s.emit m).variant = s.variant := rfl
@[simp] theorem emit_regs (s : State) (m : Msg) : (s.emit m).regs = s.regs := rfl
@[simp] theorem emit_occ (s : State) (m : Msg) : (s.emit m).occ = s.occ := rfl
@[simp] theorem emit_frank (s : State) (m : Msg) : (s.emit m).frank = s.frank := rfl
@[simp] theorem emit_tally (s : State) (m : Msg) : (s.emit m).tally = s.tally := rfl
@[simp] theorem emit_boot (s : State) (m : Msg) : (s.emit m).boot = s.boot := rfl
@[simp] theorem emit_pins (s : State) (m : Msg) : (s.emit m).pins = s.pins := rfl
@[simp] theorem emit_mcRecord (s : State) (m : Msg) : (s.emit m).mcRecord = s.mcRecord := rfl
@[simp] theorem emit_overRun (s : State) (m : Msg) : (s.emit m).overRun = s.overRun := rfl
@[simp] theorem emit_overTj (s : State) (m : Msg) : (s.emit m).overTj = s.overTj := rfl
@[simp] theorem emit_gregs (s : State) (m : Msg) : (s.emit m).gregs = s.gregs := rfl
@[simp] theorem emit_tregs (s : State) (m : Msg) : (s.emit m).tregs = s.tregs := rfl
@[simp] theorem emit_pregs (s : State) (m : Msg) : (s.emit m).pregs = s.pregs := rfl
@[simp] theorem emit_scratch (s : State) (m : Msg) : (s.emit m).scratch = s.scratch := rfl
@[simp] theorem emit_cores (s : State) (m : Msg) : (s.emit m).cores = s.cores := rfl
@[simp] theorem emit_items (s : State) (m : Msg) : (s.emit m).items = s.items := rfl
@[simp] theorem emit_nextItem (s : State) (m : Msg) : (s.emit m).nextItem = s.nextItem := rfl
@[simp] theorem emit_plans (s : State) (m : Msg) : (s.emit m).plans = s.plans := rfl
@[simp] theorem emit_tiles (s : State) (m : Msg) : (s.emit m).tiles = s.tiles := rfl
@[simp] theorem emit_mem (s : State) (m : Msg) : (s.emit m).mem = s.mem := rfl
@[simp] theorem emit_poison (s : State) (m : Msg) : (s.emit m).poison = s.poison := rfl
@[simp] theorem emit_llc (s : State) (m : Msg) : (s.emit m).llc = s.llc := rfl
@[simp] theorem emit_plru (s : State) (m : Msg) : (s.emit m).plru = s.plru := rfl
@[simp] theorem emit_pinUnits (s : State) (m : Msg) : (s.emit m).pinUnits = s.pinUnits := rfl
@[simp] theorem emit_pinRanges (s : State) (m : Msg) : (s.emit m).pinRanges = s.pinRanges := rfl
@[simp] theorem emit_pages (s : State) (m : Msg) : (s.emit m).pages = s.pages := rfl
@[simp] theorem emit_granules (s : State) (m : Msg) : (s.emit m).granules = s.granules := rfl
@[simp] theorem emit_space (s : State) (m : Msg) : (s.emit m).space = s.space := rfl
@[simp] theorem emit_zeroQ (s : State) (m : Msg) : (s.emit m).zeroQ = s.zeroQ := rfl
@[simp] theorem emit_sos (s : State) (m : Msg) : (s.emit m).sos = s.sos := rfl
@[simp] theorem emit_leases (s : State) (m : Msg) : (s.emit m).leases = s.leases := rfl
@[simp] theorem emit_err (s : State) (m : Msg) : (s.emit m).err = s.err := rfl
@[simp] theorem emit_host (s : State) (m : Msg) : (s.emit m).host = s.host := rfl
@[simp] theorem emit_chans (s : State) (m : Msg) : (s.emit m).chans = s.chans := rfl
@[simp] theorem emit_rings (s : State) (m : Msg) : (s.emit m).rings = s.rings := rfl
@[simp] theorem emit_notices (s : State) (m : Msg) : (s.emit m).notices = s.notices := rfl
@[simp] theorem emit_walks (s : State) (m : Msg) : (s.emit m).walks = s.walks := rfl
@[simp] theorem emit_streams (s : State) (m : Msg) : (s.emit m).streams = s.streams := rfl
@[simp] theorem emit_migs (s : State) (m : Msg) : (s.emit m).migs = s.migs := rfl
@[simp] theorem emit_eth (s : State) (m : Msg) : (s.emit m).eth = s.eth := rfl
@[simp] theorem emit_txq (s : State) (m : Msg) : (s.emit m).txq = s.txq := rfl
@[simp] theorem emit_rangeWr (s : State) (m : Msg) : (s.emit m).rangeWr = s.rangeWr := rfl
@[simp] theorem emit_demoting (s : State) (m : Msg) : (s.emit m).demoting = s.demoting := rfl
@[simp] theorem emit_admits (s : State) (m : Msg) : (s.emit m).admits = s.admits := rfl
@[simp] theorem emit_slots (s : State) (m : Msg) : (s.emit m).slots = s.slots := rfl
@[simp] theorem emit_spdm (s : State) (m : Msg) : (s.emit m).spdm = s.spdm := rfl

@[simp] theorem setPc_pending (s : State) (c v : Nat) : (s.setPc c v).pending = s.pending := rfl
@[simp] theorem setPc_time (s : State) (c v : Nat) : (s.setPc c v).time = s.time := rfl
@[simp] theorem setPc_free (s : State) (c v : Nat) : (s.setPc c v).free = s.free := rfl
@[simp] theorem setPc_out (s : State) (c v : Nat) : (s.setPc c v).out = s.out := rfl
@[simp] theorem setPc_variant (s : State) (c v : Nat) : (s.setPc c v).variant = s.variant := rfl
@[simp] theorem setPc_occ (s : State) (c v : Nat) : (s.setPc c v).occ = s.occ := rfl
@[simp] theorem setPc_frank (s : State) (c v : Nat) : (s.setPc c v).frank = s.frank := rfl
@[simp] theorem setPc_tally (s : State) (c v : Nat) : (s.setPc c v).tally = s.tally := rfl
@[simp] theorem setPc_boot (s : State) (c v : Nat) : (s.setPc c v).boot = s.boot := rfl
@[simp] theorem setPc_pins (s : State) (c v : Nat) : (s.setPc c v).pins = s.pins := rfl
@[simp] theorem setPc_mcRecord (s : State) (c v : Nat) : (s.setPc c v).mcRecord = s.mcRecord := rfl
@[simp] theorem setPc_overRun (s : State) (c v : Nat) : (s.setPc c v).overRun = s.overRun := rfl
@[simp] theorem setPc_overTj (s : State) (c v : Nat) : (s.setPc c v).overTj = s.overTj := rfl
@[simp] theorem setPc_gregs (s : State) (c v : Nat) : (s.setPc c v).gregs = s.gregs := rfl
@[simp] theorem setPc_tregs (s : State) (c v : Nat) : (s.setPc c v).tregs = s.tregs := rfl
@[simp] theorem setPc_pregs (s : State) (c v : Nat) : (s.setPc c v).pregs = s.pregs := rfl
@[simp] theorem setPc_scratch (s : State) (c v : Nat) : (s.setPc c v).scratch = s.scratch := rfl
@[simp] theorem setPc_cores (s : State) (c v : Nat) : (s.setPc c v).cores = s.cores := rfl
@[simp] theorem setPc_items (s : State) (c v : Nat) : (s.setPc c v).items = s.items := rfl
@[simp] theorem setPc_nextItem (s : State) (c v : Nat) : (s.setPc c v).nextItem = s.nextItem := rfl
@[simp] theorem setPc_plans (s : State) (c v : Nat) : (s.setPc c v).plans = s.plans := rfl
@[simp] theorem setPc_tiles (s : State) (c v : Nat) : (s.setPc c v).tiles = s.tiles := rfl
@[simp] theorem setPc_mem (s : State) (c v : Nat) : (s.setPc c v).mem = s.mem := rfl
@[simp] theorem setPc_poison (s : State) (c v : Nat) : (s.setPc c v).poison = s.poison := rfl
@[simp] theorem setPc_llc (s : State) (c v : Nat) : (s.setPc c v).llc = s.llc := rfl
@[simp] theorem setPc_plru (s : State) (c v : Nat) : (s.setPc c v).plru = s.plru := rfl
@[simp] theorem setPc_pinUnits (s : State) (c v : Nat) : (s.setPc c v).pinUnits = s.pinUnits := rfl
@[simp] theorem setPc_pinRanges (s : State) (c v : Nat) : (s.setPc c v).pinRanges = s.pinRanges := rfl
@[simp] theorem setPc_pages (s : State) (c v : Nat) : (s.setPc c v).pages = s.pages := rfl
@[simp] theorem setPc_granules (s : State) (c v : Nat) : (s.setPc c v).granules = s.granules := rfl
@[simp] theorem setPc_space (s : State) (c v : Nat) : (s.setPc c v).space = s.space := rfl
@[simp] theorem setPc_zeroQ (s : State) (c v : Nat) : (s.setPc c v).zeroQ = s.zeroQ := rfl
@[simp] theorem setPc_sos (s : State) (c v : Nat) : (s.setPc c v).sos = s.sos := rfl
@[simp] theorem setPc_leases (s : State) (c v : Nat) : (s.setPc c v).leases = s.leases := rfl
@[simp] theorem setPc_err (s : State) (c v : Nat) : (s.setPc c v).err = s.err := rfl
@[simp] theorem setPc_host (s : State) (c v : Nat) : (s.setPc c v).host = s.host := rfl
@[simp] theorem setPc_chans (s : State) (c v : Nat) : (s.setPc c v).chans = s.chans := rfl
@[simp] theorem setPc_rings (s : State) (c v : Nat) : (s.setPc c v).rings = s.rings := rfl
@[simp] theorem setPc_notices (s : State) (c v : Nat) : (s.setPc c v).notices = s.notices := rfl
@[simp] theorem setPc_walks (s : State) (c v : Nat) : (s.setPc c v).walks = s.walks := rfl
@[simp] theorem setPc_streams (s : State) (c v : Nat) : (s.setPc c v).streams = s.streams := rfl
@[simp] theorem setPc_migs (s : State) (c v : Nat) : (s.setPc c v).migs = s.migs := rfl
@[simp] theorem setPc_eth (s : State) (c v : Nat) : (s.setPc c v).eth = s.eth := rfl
@[simp] theorem setPc_txq (s : State) (c v : Nat) : (s.setPc c v).txq = s.txq := rfl
@[simp] theorem setPc_rangeWr (s : State) (c v : Nat) : (s.setPc c v).rangeWr = s.rangeWr := rfl
@[simp] theorem setPc_demoting (s : State) (c v : Nat) : (s.setPc c v).demoting = s.demoting := rfl
@[simp] theorem setPc_admits (s : State) (c v : Nat) : (s.setPc c v).admits = s.admits := rfl
@[simp] theorem setPc_slots (s : State) (c v : Nat) : (s.setPc c v).slots = s.slots := rfl
@[simp] theorem setPc_spdm (s : State) (c v : Nat) : (s.setPc c v).spdm = s.spdm := rfl

@[simp] theorem setCoreState_pending (s : State) (c v : Nat) : (s.setCoreState c v).pending = s.pending := rfl
@[simp] theorem setCoreState_time (s : State) (c v : Nat) : (s.setCoreState c v).time = s.time := rfl
@[simp] theorem setCoreState_free (s : State) (c v : Nat) : (s.setCoreState c v).free = s.free := rfl
@[simp] theorem setCoreState_out (s : State) (c v : Nat) : (s.setCoreState c v).out = s.out := rfl
@[simp] theorem setCoreState_variant (s : State) (c v : Nat) : (s.setCoreState c v).variant = s.variant := rfl
@[simp] theorem setCoreState_occ (s : State) (c v : Nat) : (s.setCoreState c v).occ = s.occ := rfl
@[simp] theorem setCoreState_frank (s : State) (c v : Nat) : (s.setCoreState c v).frank = s.frank := rfl
@[simp] theorem setCoreState_tally (s : State) (c v : Nat) : (s.setCoreState c v).tally = s.tally := rfl
@[simp] theorem setCoreState_boot (s : State) (c v : Nat) : (s.setCoreState c v).boot = s.boot := rfl
@[simp] theorem setCoreState_pins (s : State) (c v : Nat) : (s.setCoreState c v).pins = s.pins := rfl
@[simp] theorem setCoreState_mcRecord (s : State) (c v : Nat) : (s.setCoreState c v).mcRecord = s.mcRecord := rfl
@[simp] theorem setCoreState_overRun (s : State) (c v : Nat) : (s.setCoreState c v).overRun = s.overRun := rfl
@[simp] theorem setCoreState_overTj (s : State) (c v : Nat) : (s.setCoreState c v).overTj = s.overTj := rfl
@[simp] theorem setCoreState_gregs (s : State) (c v : Nat) : (s.setCoreState c v).gregs = s.gregs := rfl
@[simp] theorem setCoreState_tregs (s : State) (c v : Nat) : (s.setCoreState c v).tregs = s.tregs := rfl
@[simp] theorem setCoreState_pregs (s : State) (c v : Nat) : (s.setCoreState c v).pregs = s.pregs := rfl
@[simp] theorem setCoreState_scratch (s : State) (c v : Nat) : (s.setCoreState c v).scratch = s.scratch := rfl
@[simp] theorem setCoreState_cores (s : State) (c v : Nat) : (s.setCoreState c v).cores = s.cores := rfl
@[simp] theorem setCoreState_items (s : State) (c v : Nat) : (s.setCoreState c v).items = s.items := rfl
@[simp] theorem setCoreState_nextItem (s : State) (c v : Nat) : (s.setCoreState c v).nextItem = s.nextItem := rfl
@[simp] theorem setCoreState_plans (s : State) (c v : Nat) : (s.setCoreState c v).plans = s.plans := rfl
@[simp] theorem setCoreState_tiles (s : State) (c v : Nat) : (s.setCoreState c v).tiles = s.tiles := rfl
@[simp] theorem setCoreState_mem (s : State) (c v : Nat) : (s.setCoreState c v).mem = s.mem := rfl
@[simp] theorem setCoreState_poison (s : State) (c v : Nat) : (s.setCoreState c v).poison = s.poison := rfl
@[simp] theorem setCoreState_llc (s : State) (c v : Nat) : (s.setCoreState c v).llc = s.llc := rfl
@[simp] theorem setCoreState_plru (s : State) (c v : Nat) : (s.setCoreState c v).plru = s.plru := rfl
@[simp] theorem setCoreState_pinUnits (s : State) (c v : Nat) : (s.setCoreState c v).pinUnits = s.pinUnits := rfl
@[simp] theorem setCoreState_pinRanges (s : State) (c v : Nat) : (s.setCoreState c v).pinRanges = s.pinRanges := rfl
@[simp] theorem setCoreState_pages (s : State) (c v : Nat) : (s.setCoreState c v).pages = s.pages := rfl
@[simp] theorem setCoreState_granules (s : State) (c v : Nat) : (s.setCoreState c v).granules = s.granules := rfl
@[simp] theorem setCoreState_space (s : State) (c v : Nat) : (s.setCoreState c v).space = s.space := rfl
@[simp] theorem setCoreState_zeroQ (s : State) (c v : Nat) : (s.setCoreState c v).zeroQ = s.zeroQ := rfl
@[simp] theorem setCoreState_sos (s : State) (c v : Nat) : (s.setCoreState c v).sos = s.sos := rfl
@[simp] theorem setCoreState_leases (s : State) (c v : Nat) : (s.setCoreState c v).leases = s.leases := rfl
@[simp] theorem setCoreState_err (s : State) (c v : Nat) : (s.setCoreState c v).err = s.err := rfl
@[simp] theorem setCoreState_host (s : State) (c v : Nat) : (s.setCoreState c v).host = s.host := rfl
@[simp] theorem setCoreState_chans (s : State) (c v : Nat) : (s.setCoreState c v).chans = s.chans := rfl
@[simp] theorem setCoreState_rings (s : State) (c v : Nat) : (s.setCoreState c v).rings = s.rings := rfl
@[simp] theorem setCoreState_notices (s : State) (c v : Nat) : (s.setCoreState c v).notices = s.notices := rfl
@[simp] theorem setCoreState_walks (s : State) (c v : Nat) : (s.setCoreState c v).walks = s.walks := rfl
@[simp] theorem setCoreState_streams (s : State) (c v : Nat) : (s.setCoreState c v).streams = s.streams := rfl
@[simp] theorem setCoreState_migs (s : State) (c v : Nat) : (s.setCoreState c v).migs = s.migs := rfl
@[simp] theorem setCoreState_eth (s : State) (c v : Nat) : (s.setCoreState c v).eth = s.eth := rfl
@[simp] theorem setCoreState_txq (s : State) (c v : Nat) : (s.setCoreState c v).txq = s.txq := rfl
@[simp] theorem setCoreState_rangeWr (s : State) (c v : Nat) : (s.setCoreState c v).rangeWr = s.rangeWr := rfl
@[simp] theorem setCoreState_demoting (s : State) (c v : Nat) : (s.setCoreState c v).demoting = s.demoting := rfl
@[simp] theorem setCoreState_admits (s : State) (c v : Nat) : (s.setCoreState c v).admits = s.admits := rfl
@[simp] theorem setCoreState_slots (s : State) (c v : Nat) : (s.setCoreState c v).slots = s.slots := rfl
@[simp] theorem setCoreState_spdm (s : State) (c v : Nat) : (s.setCoreState c v).spdm = s.spdm := rfl

@[simp] theorem retire_pending (s : State) (c : Nat) : (s.retire c).pending = s.pending := rfl
@[simp] theorem retire_time (s : State) (c : Nat) : (s.retire c).time = s.time := rfl
@[simp] theorem retire_free (s : State) (c : Nat) : (s.retire c).free = s.free := rfl
@[simp] theorem retire_out (s : State) (c : Nat) : (s.retire c).out = s.out := rfl
@[simp] theorem retire_variant (s : State) (c : Nat) : (s.retire c).variant = s.variant := rfl
@[simp] theorem retire_occ (s : State) (c : Nat) : (s.retire c).occ = s.occ := rfl
@[simp] theorem retire_frank (s : State) (c : Nat) : (s.retire c).frank = s.frank := rfl
@[simp] theorem retire_tally (s : State) (c : Nat) : (s.retire c).tally = s.tally := rfl
@[simp] theorem retire_boot (s : State) (c : Nat) : (s.retire c).boot = s.boot := rfl
@[simp] theorem retire_pins (s : State) (c : Nat) : (s.retire c).pins = s.pins := rfl
@[simp] theorem retire_mcRecord (s : State) (c : Nat) : (s.retire c).mcRecord = s.mcRecord := rfl
@[simp] theorem retire_overRun (s : State) (c : Nat) : (s.retire c).overRun = s.overRun := rfl
@[simp] theorem retire_overTj (s : State) (c : Nat) : (s.retire c).overTj = s.overTj := rfl
@[simp] theorem retire_gregs (s : State) (c : Nat) : (s.retire c).gregs = s.gregs := rfl
@[simp] theorem retire_tregs (s : State) (c : Nat) : (s.retire c).tregs = s.tregs := rfl
@[simp] theorem retire_pregs (s : State) (c : Nat) : (s.retire c).pregs = s.pregs := rfl
@[simp] theorem retire_scratch (s : State) (c : Nat) : (s.retire c).scratch = s.scratch := rfl
@[simp] theorem retire_cores (s : State) (c : Nat) : (s.retire c).cores = s.cores := rfl
@[simp] theorem retire_items (s : State) (c : Nat) : (s.retire c).items = s.items := rfl
@[simp] theorem retire_nextItem (s : State) (c : Nat) : (s.retire c).nextItem = s.nextItem := rfl
@[simp] theorem retire_plans (s : State) (c : Nat) : (s.retire c).plans = s.plans := rfl
@[simp] theorem retire_tiles (s : State) (c : Nat) : (s.retire c).tiles = s.tiles := rfl
@[simp] theorem retire_mem (s : State) (c : Nat) : (s.retire c).mem = s.mem := rfl
@[simp] theorem retire_poison (s : State) (c : Nat) : (s.retire c).poison = s.poison := rfl
@[simp] theorem retire_llc (s : State) (c : Nat) : (s.retire c).llc = s.llc := rfl
@[simp] theorem retire_plru (s : State) (c : Nat) : (s.retire c).plru = s.plru := rfl
@[simp] theorem retire_pinUnits (s : State) (c : Nat) : (s.retire c).pinUnits = s.pinUnits := rfl
@[simp] theorem retire_pinRanges (s : State) (c : Nat) : (s.retire c).pinRanges = s.pinRanges := rfl
@[simp] theorem retire_pages (s : State) (c : Nat) : (s.retire c).pages = s.pages := rfl
@[simp] theorem retire_granules (s : State) (c : Nat) : (s.retire c).granules = s.granules := rfl
@[simp] theorem retire_space (s : State) (c : Nat) : (s.retire c).space = s.space := rfl
@[simp] theorem retire_zeroQ (s : State) (c : Nat) : (s.retire c).zeroQ = s.zeroQ := rfl
@[simp] theorem retire_sos (s : State) (c : Nat) : (s.retire c).sos = s.sos := rfl
@[simp] theorem retire_leases (s : State) (c : Nat) : (s.retire c).leases = s.leases := rfl
@[simp] theorem retire_err (s : State) (c : Nat) : (s.retire c).err = s.err := rfl
@[simp] theorem retire_host (s : State) (c : Nat) : (s.retire c).host = s.host := rfl
@[simp] theorem retire_chans (s : State) (c : Nat) : (s.retire c).chans = s.chans := rfl
@[simp] theorem retire_rings (s : State) (c : Nat) : (s.retire c).rings = s.rings := rfl
@[simp] theorem retire_notices (s : State) (c : Nat) : (s.retire c).notices = s.notices := rfl
@[simp] theorem retire_walks (s : State) (c : Nat) : (s.retire c).walks = s.walks := rfl
@[simp] theorem retire_streams (s : State) (c : Nat) : (s.retire c).streams = s.streams := rfl
@[simp] theorem retire_migs (s : State) (c : Nat) : (s.retire c).migs = s.migs := rfl
@[simp] theorem retire_eth (s : State) (c : Nat) : (s.retire c).eth = s.eth := rfl
@[simp] theorem retire_txq (s : State) (c : Nat) : (s.retire c).txq = s.txq := rfl
@[simp] theorem retire_rangeWr (s : State) (c : Nat) : (s.retire c).rangeWr = s.rangeWr := rfl
@[simp] theorem retire_demoting (s : State) (c : Nat) : (s.retire c).demoting = s.demoting := rfl
@[simp] theorem retire_admits (s : State) (c : Nat) : (s.retire c).admits = s.admits := rfl
@[simp] theorem retire_slots (s : State) (c : Nat) : (s.retire c).slots = s.slots := rfl
@[simp] theorem retire_spdm (s : State) (c : Nat) : (s.retire c).spdm = s.spdm := rfl

@[simp] theorem setG_pending (s : State) (c r : Nat) (v : Word) : (s.setG c r v).pending = s.pending := by unfold State.setG; split <;> rfl
@[simp] theorem setG_time (s : State) (c r : Nat) (v : Word) : (s.setG c r v).time = s.time := by unfold State.setG; split <;> rfl
@[simp] theorem setG_free (s : State) (c r : Nat) (v : Word) : (s.setG c r v).free = s.free := by unfold State.setG; split <;> rfl
@[simp] theorem setG_out (s : State) (c r : Nat) (v : Word) : (s.setG c r v).out = s.out := by unfold State.setG; split <;> rfl
@[simp] theorem setG_variant (s : State) (c r : Nat) (v : Word) : (s.setG c r v).variant = s.variant := by unfold State.setG; split <;> rfl
@[simp] theorem setG_regs (s : State) (c r : Nat) (v : Word) : (s.setG c r v).regs = s.regs := by unfold State.setG; split <;> rfl
@[simp] theorem setG_occ (s : State) (c r : Nat) (v : Word) : (s.setG c r v).occ = s.occ := by unfold State.setG; split <;> rfl
@[simp] theorem setG_frank (s : State) (c r : Nat) (v : Word) : (s.setG c r v).frank = s.frank := by unfold State.setG; split <;> rfl
@[simp] theorem setG_tally (s : State) (c r : Nat) (v : Word) : (s.setG c r v).tally = s.tally := by unfold State.setG; split <;> rfl
@[simp] theorem setG_boot (s : State) (c r : Nat) (v : Word) : (s.setG c r v).boot = s.boot := by unfold State.setG; split <;> rfl
@[simp] theorem setG_pins (s : State) (c r : Nat) (v : Word) : (s.setG c r v).pins = s.pins := by unfold State.setG; split <;> rfl
@[simp] theorem setG_mcRecord (s : State) (c r : Nat) (v : Word) : (s.setG c r v).mcRecord = s.mcRecord := by unfold State.setG; split <;> rfl
@[simp] theorem setG_overRun (s : State) (c r : Nat) (v : Word) : (s.setG c r v).overRun = s.overRun := by unfold State.setG; split <;> rfl
@[simp] theorem setG_overTj (s : State) (c r : Nat) (v : Word) : (s.setG c r v).overTj = s.overTj := by unfold State.setG; split <;> rfl
@[simp] theorem setG_tregs (s : State) (c r : Nat) (v : Word) : (s.setG c r v).tregs = s.tregs := by unfold State.setG; split <;> rfl
@[simp] theorem setG_pregs (s : State) (c r : Nat) (v : Word) : (s.setG c r v).pregs = s.pregs := by unfold State.setG; split <;> rfl
@[simp] theorem setG_scratch (s : State) (c r : Nat) (v : Word) : (s.setG c r v).scratch = s.scratch := by unfold State.setG; split <;> rfl
@[simp] theorem setG_cores (s : State) (c r : Nat) (v : Word) : (s.setG c r v).cores = s.cores := by unfold State.setG; split <;> rfl
@[simp] theorem setG_items (s : State) (c r : Nat) (v : Word) : (s.setG c r v).items = s.items := by unfold State.setG; split <;> rfl
@[simp] theorem setG_nextItem (s : State) (c r : Nat) (v : Word) : (s.setG c r v).nextItem = s.nextItem := by unfold State.setG; split <;> rfl
@[simp] theorem setG_plans (s : State) (c r : Nat) (v : Word) : (s.setG c r v).plans = s.plans := by unfold State.setG; split <;> rfl
@[simp] theorem setG_tiles (s : State) (c r : Nat) (v : Word) : (s.setG c r v).tiles = s.tiles := by unfold State.setG; split <;> rfl
@[simp] theorem setG_mem (s : State) (c r : Nat) (v : Word) : (s.setG c r v).mem = s.mem := by unfold State.setG; split <;> rfl
@[simp] theorem setG_poison (s : State) (c r : Nat) (v : Word) : (s.setG c r v).poison = s.poison := by unfold State.setG; split <;> rfl
@[simp] theorem setG_llc (s : State) (c r : Nat) (v : Word) : (s.setG c r v).llc = s.llc := by unfold State.setG; split <;> rfl
@[simp] theorem setG_plru (s : State) (c r : Nat) (v : Word) : (s.setG c r v).plru = s.plru := by unfold State.setG; split <;> rfl
@[simp] theorem setG_pinUnits (s : State) (c r : Nat) (v : Word) : (s.setG c r v).pinUnits = s.pinUnits := by unfold State.setG; split <;> rfl
@[simp] theorem setG_pinRanges (s : State) (c r : Nat) (v : Word) : (s.setG c r v).pinRanges = s.pinRanges := by unfold State.setG; split <;> rfl
@[simp] theorem setG_pages (s : State) (c r : Nat) (v : Word) : (s.setG c r v).pages = s.pages := by unfold State.setG; split <;> rfl
@[simp] theorem setG_granules (s : State) (c r : Nat) (v : Word) : (s.setG c r v).granules = s.granules := by unfold State.setG; split <;> rfl
@[simp] theorem setG_space (s : State) (c r : Nat) (v : Word) : (s.setG c r v).space = s.space := by unfold State.setG; split <;> rfl
@[simp] theorem setG_zeroQ (s : State) (c r : Nat) (v : Word) : (s.setG c r v).zeroQ = s.zeroQ := by unfold State.setG; split <;> rfl
@[simp] theorem setG_sos (s : State) (c r : Nat) (v : Word) : (s.setG c r v).sos = s.sos := by unfold State.setG; split <;> rfl
@[simp] theorem setG_leases (s : State) (c r : Nat) (v : Word) : (s.setG c r v).leases = s.leases := by unfold State.setG; split <;> rfl
@[simp] theorem setG_err (s : State) (c r : Nat) (v : Word) : (s.setG c r v).err = s.err := by unfold State.setG; split <;> rfl
@[simp] theorem setG_host (s : State) (c r : Nat) (v : Word) : (s.setG c r v).host = s.host := by unfold State.setG; split <;> rfl
@[simp] theorem setG_chans (s : State) (c r : Nat) (v : Word) : (s.setG c r v).chans = s.chans := by unfold State.setG; split <;> rfl
@[simp] theorem setG_rings (s : State) (c r : Nat) (v : Word) : (s.setG c r v).rings = s.rings := by unfold State.setG; split <;> rfl
@[simp] theorem setG_notices (s : State) (c r : Nat) (v : Word) : (s.setG c r v).notices = s.notices := by unfold State.setG; split <;> rfl
@[simp] theorem setG_walks (s : State) (c r : Nat) (v : Word) : (s.setG c r v).walks = s.walks := by unfold State.setG; split <;> rfl
@[simp] theorem setG_streams (s : State) (c r : Nat) (v : Word) : (s.setG c r v).streams = s.streams := by unfold State.setG; split <;> rfl
@[simp] theorem setG_migs (s : State) (c r : Nat) (v : Word) : (s.setG c r v).migs = s.migs := by unfold State.setG; split <;> rfl
@[simp] theorem setG_eth (s : State) (c r : Nat) (v : Word) : (s.setG c r v).eth = s.eth := by unfold State.setG; split <;> rfl
@[simp] theorem setG_txq (s : State) (c r : Nat) (v : Word) : (s.setG c r v).txq = s.txq := by unfold State.setG; split <;> rfl
@[simp] theorem setG_rangeWr (s : State) (c r : Nat) (v : Word) : (s.setG c r v).rangeWr = s.rangeWr := by unfold State.setG; split <;> rfl
@[simp] theorem setG_demoting (s : State) (c r : Nat) (v : Word) : (s.setG c r v).demoting = s.demoting := by unfold State.setG; split <;> rfl
@[simp] theorem setG_admits (s : State) (c r : Nat) (v : Word) : (s.setG c r v).admits = s.admits := by unfold State.setG; split <;> rfl
@[simp] theorem setG_slots (s : State) (c r : Nat) (v : Word) : (s.setG c r v).slots = s.slots := by unfold State.setG; split <;> rfl
@[simp] theorem setG_spdm (s : State) (c r : Nat) (v : Word) : (s.setG c r v).spdm = s.spdm := by unfold State.setG; split <;> rfl

@[simp] theorem setT_pending (s : State) (c r : Nat) (v : Beat) : (s.setT c r v).pending = s.pending := rfl
@[simp] theorem setT_time (s : State) (c r : Nat) (v : Beat) : (s.setT c r v).time = s.time := rfl
@[simp] theorem setT_free (s : State) (c r : Nat) (v : Beat) : (s.setT c r v).free = s.free := rfl
@[simp] theorem setT_out (s : State) (c r : Nat) (v : Beat) : (s.setT c r v).out = s.out := rfl
@[simp] theorem setT_variant (s : State) (c r : Nat) (v : Beat) : (s.setT c r v).variant = s.variant := rfl
@[simp] theorem setT_regs (s : State) (c r : Nat) (v : Beat) : (s.setT c r v).regs = s.regs := rfl
@[simp] theorem setT_occ (s : State) (c r : Nat) (v : Beat) : (s.setT c r v).occ = s.occ := rfl
@[simp] theorem setT_frank (s : State) (c r : Nat) (v : Beat) : (s.setT c r v).frank = s.frank := rfl
@[simp] theorem setT_tally (s : State) (c r : Nat) (v : Beat) : (s.setT c r v).tally = s.tally := rfl
@[simp] theorem setT_boot (s : State) (c r : Nat) (v : Beat) : (s.setT c r v).boot = s.boot := rfl
@[simp] theorem setT_pins (s : State) (c r : Nat) (v : Beat) : (s.setT c r v).pins = s.pins := rfl
@[simp] theorem setT_mcRecord (s : State) (c r : Nat) (v : Beat) : (s.setT c r v).mcRecord = s.mcRecord := rfl
@[simp] theorem setT_overRun (s : State) (c r : Nat) (v : Beat) : (s.setT c r v).overRun = s.overRun := rfl
@[simp] theorem setT_overTj (s : State) (c r : Nat) (v : Beat) : (s.setT c r v).overTj = s.overTj := rfl
@[simp] theorem setT_gregs (s : State) (c r : Nat) (v : Beat) : (s.setT c r v).gregs = s.gregs := rfl
@[simp] theorem setT_pregs (s : State) (c r : Nat) (v : Beat) : (s.setT c r v).pregs = s.pregs := rfl
@[simp] theorem setT_scratch (s : State) (c r : Nat) (v : Beat) : (s.setT c r v).scratch = s.scratch := rfl
@[simp] theorem setT_cores (s : State) (c r : Nat) (v : Beat) : (s.setT c r v).cores = s.cores := rfl
@[simp] theorem setT_items (s : State) (c r : Nat) (v : Beat) : (s.setT c r v).items = s.items := rfl
@[simp] theorem setT_nextItem (s : State) (c r : Nat) (v : Beat) : (s.setT c r v).nextItem = s.nextItem := rfl
@[simp] theorem setT_plans (s : State) (c r : Nat) (v : Beat) : (s.setT c r v).plans = s.plans := rfl
@[simp] theorem setT_tiles (s : State) (c r : Nat) (v : Beat) : (s.setT c r v).tiles = s.tiles := rfl
@[simp] theorem setT_mem (s : State) (c r : Nat) (v : Beat) : (s.setT c r v).mem = s.mem := rfl
@[simp] theorem setT_poison (s : State) (c r : Nat) (v : Beat) : (s.setT c r v).poison = s.poison := rfl
@[simp] theorem setT_llc (s : State) (c r : Nat) (v : Beat) : (s.setT c r v).llc = s.llc := rfl
@[simp] theorem setT_plru (s : State) (c r : Nat) (v : Beat) : (s.setT c r v).plru = s.plru := rfl
@[simp] theorem setT_pinUnits (s : State) (c r : Nat) (v : Beat) : (s.setT c r v).pinUnits = s.pinUnits := rfl
@[simp] theorem setT_pinRanges (s : State) (c r : Nat) (v : Beat) : (s.setT c r v).pinRanges = s.pinRanges := rfl
@[simp] theorem setT_pages (s : State) (c r : Nat) (v : Beat) : (s.setT c r v).pages = s.pages := rfl
@[simp] theorem setT_granules (s : State) (c r : Nat) (v : Beat) : (s.setT c r v).granules = s.granules := rfl
@[simp] theorem setT_space (s : State) (c r : Nat) (v : Beat) : (s.setT c r v).space = s.space := rfl
@[simp] theorem setT_zeroQ (s : State) (c r : Nat) (v : Beat) : (s.setT c r v).zeroQ = s.zeroQ := rfl
@[simp] theorem setT_sos (s : State) (c r : Nat) (v : Beat) : (s.setT c r v).sos = s.sos := rfl
@[simp] theorem setT_leases (s : State) (c r : Nat) (v : Beat) : (s.setT c r v).leases = s.leases := rfl
@[simp] theorem setT_err (s : State) (c r : Nat) (v : Beat) : (s.setT c r v).err = s.err := rfl
@[simp] theorem setT_host (s : State) (c r : Nat) (v : Beat) : (s.setT c r v).host = s.host := rfl
@[simp] theorem setT_chans (s : State) (c r : Nat) (v : Beat) : (s.setT c r v).chans = s.chans := rfl
@[simp] theorem setT_rings (s : State) (c r : Nat) (v : Beat) : (s.setT c r v).rings = s.rings := rfl
@[simp] theorem setT_notices (s : State) (c r : Nat) (v : Beat) : (s.setT c r v).notices = s.notices := rfl
@[simp] theorem setT_walks (s : State) (c r : Nat) (v : Beat) : (s.setT c r v).walks = s.walks := rfl
@[simp] theorem setT_streams (s : State) (c r : Nat) (v : Beat) : (s.setT c r v).streams = s.streams := rfl
@[simp] theorem setT_migs (s : State) (c r : Nat) (v : Beat) : (s.setT c r v).migs = s.migs := rfl
@[simp] theorem setT_eth (s : State) (c r : Nat) (v : Beat) : (s.setT c r v).eth = s.eth := rfl
@[simp] theorem setT_txq (s : State) (c r : Nat) (v : Beat) : (s.setT c r v).txq = s.txq := rfl
@[simp] theorem setT_rangeWr (s : State) (c r : Nat) (v : Beat) : (s.setT c r v).rangeWr = s.rangeWr := rfl
@[simp] theorem setT_demoting (s : State) (c r : Nat) (v : Beat) : (s.setT c r v).demoting = s.demoting := rfl
@[simp] theorem setT_admits (s : State) (c r : Nat) (v : Beat) : (s.setT c r v).admits = s.admits := rfl
@[simp] theorem setT_slots (s : State) (c r : Nat) (v : Beat) : (s.setT c r v).slots = s.slots := rfl
@[simp] theorem setT_spdm (s : State) (c r : Nat) (v : Beat) : (s.setT c r v).spdm = s.spdm := rfl

@[simp] theorem setP_pending (s : State) (c r : Nat) (v : Bool) : (s.setP c r v).pending = s.pending := by unfold State.setP; split <;> rfl
@[simp] theorem setP_time (s : State) (c r : Nat) (v : Bool) : (s.setP c r v).time = s.time := by unfold State.setP; split <;> rfl
@[simp] theorem setP_free (s : State) (c r : Nat) (v : Bool) : (s.setP c r v).free = s.free := by unfold State.setP; split <;> rfl
@[simp] theorem setP_out (s : State) (c r : Nat) (v : Bool) : (s.setP c r v).out = s.out := by unfold State.setP; split <;> rfl
@[simp] theorem setP_variant (s : State) (c r : Nat) (v : Bool) : (s.setP c r v).variant = s.variant := by unfold State.setP; split <;> rfl
@[simp] theorem setP_regs (s : State) (c r : Nat) (v : Bool) : (s.setP c r v).regs = s.regs := by unfold State.setP; split <;> rfl
@[simp] theorem setP_occ (s : State) (c r : Nat) (v : Bool) : (s.setP c r v).occ = s.occ := by unfold State.setP; split <;> rfl
@[simp] theorem setP_frank (s : State) (c r : Nat) (v : Bool) : (s.setP c r v).frank = s.frank := by unfold State.setP; split <;> rfl
@[simp] theorem setP_tally (s : State) (c r : Nat) (v : Bool) : (s.setP c r v).tally = s.tally := by unfold State.setP; split <;> rfl
@[simp] theorem setP_boot (s : State) (c r : Nat) (v : Bool) : (s.setP c r v).boot = s.boot := by unfold State.setP; split <;> rfl
@[simp] theorem setP_pins (s : State) (c r : Nat) (v : Bool) : (s.setP c r v).pins = s.pins := by unfold State.setP; split <;> rfl
@[simp] theorem setP_mcRecord (s : State) (c r : Nat) (v : Bool) : (s.setP c r v).mcRecord = s.mcRecord := by unfold State.setP; split <;> rfl
@[simp] theorem setP_overRun (s : State) (c r : Nat) (v : Bool) : (s.setP c r v).overRun = s.overRun := by unfold State.setP; split <;> rfl
@[simp] theorem setP_overTj (s : State) (c r : Nat) (v : Bool) : (s.setP c r v).overTj = s.overTj := by unfold State.setP; split <;> rfl
@[simp] theorem setP_gregs (s : State) (c r : Nat) (v : Bool) : (s.setP c r v).gregs = s.gregs := by unfold State.setP; split <;> rfl
@[simp] theorem setP_tregs (s : State) (c r : Nat) (v : Bool) : (s.setP c r v).tregs = s.tregs := by unfold State.setP; split <;> rfl
@[simp] theorem setP_scratch (s : State) (c r : Nat) (v : Bool) : (s.setP c r v).scratch = s.scratch := by unfold State.setP; split <;> rfl
@[simp] theorem setP_cores (s : State) (c r : Nat) (v : Bool) : (s.setP c r v).cores = s.cores := by unfold State.setP; split <;> rfl
@[simp] theorem setP_items (s : State) (c r : Nat) (v : Bool) : (s.setP c r v).items = s.items := by unfold State.setP; split <;> rfl
@[simp] theorem setP_nextItem (s : State) (c r : Nat) (v : Bool) : (s.setP c r v).nextItem = s.nextItem := by unfold State.setP; split <;> rfl
@[simp] theorem setP_plans (s : State) (c r : Nat) (v : Bool) : (s.setP c r v).plans = s.plans := by unfold State.setP; split <;> rfl
@[simp] theorem setP_tiles (s : State) (c r : Nat) (v : Bool) : (s.setP c r v).tiles = s.tiles := by unfold State.setP; split <;> rfl
@[simp] theorem setP_mem (s : State) (c r : Nat) (v : Bool) : (s.setP c r v).mem = s.mem := by unfold State.setP; split <;> rfl
@[simp] theorem setP_poison (s : State) (c r : Nat) (v : Bool) : (s.setP c r v).poison = s.poison := by unfold State.setP; split <;> rfl
@[simp] theorem setP_llc (s : State) (c r : Nat) (v : Bool) : (s.setP c r v).llc = s.llc := by unfold State.setP; split <;> rfl
@[simp] theorem setP_plru (s : State) (c r : Nat) (v : Bool) : (s.setP c r v).plru = s.plru := by unfold State.setP; split <;> rfl
@[simp] theorem setP_pinUnits (s : State) (c r : Nat) (v : Bool) : (s.setP c r v).pinUnits = s.pinUnits := by unfold State.setP; split <;> rfl
@[simp] theorem setP_pinRanges (s : State) (c r : Nat) (v : Bool) : (s.setP c r v).pinRanges = s.pinRanges := by unfold State.setP; split <;> rfl
@[simp] theorem setP_pages (s : State) (c r : Nat) (v : Bool) : (s.setP c r v).pages = s.pages := by unfold State.setP; split <;> rfl
@[simp] theorem setP_granules (s : State) (c r : Nat) (v : Bool) : (s.setP c r v).granules = s.granules := by unfold State.setP; split <;> rfl
@[simp] theorem setP_space (s : State) (c r : Nat) (v : Bool) : (s.setP c r v).space = s.space := by unfold State.setP; split <;> rfl
@[simp] theorem setP_zeroQ (s : State) (c r : Nat) (v : Bool) : (s.setP c r v).zeroQ = s.zeroQ := by unfold State.setP; split <;> rfl
@[simp] theorem setP_sos (s : State) (c r : Nat) (v : Bool) : (s.setP c r v).sos = s.sos := by unfold State.setP; split <;> rfl
@[simp] theorem setP_leases (s : State) (c r : Nat) (v : Bool) : (s.setP c r v).leases = s.leases := by unfold State.setP; split <;> rfl
@[simp] theorem setP_err (s : State) (c r : Nat) (v : Bool) : (s.setP c r v).err = s.err := by unfold State.setP; split <;> rfl
@[simp] theorem setP_host (s : State) (c r : Nat) (v : Bool) : (s.setP c r v).host = s.host := by unfold State.setP; split <;> rfl
@[simp] theorem setP_chans (s : State) (c r : Nat) (v : Bool) : (s.setP c r v).chans = s.chans := by unfold State.setP; split <;> rfl
@[simp] theorem setP_rings (s : State) (c r : Nat) (v : Bool) : (s.setP c r v).rings = s.rings := by unfold State.setP; split <;> rfl
@[simp] theorem setP_notices (s : State) (c r : Nat) (v : Bool) : (s.setP c r v).notices = s.notices := by unfold State.setP; split <;> rfl
@[simp] theorem setP_walks (s : State) (c r : Nat) (v : Bool) : (s.setP c r v).walks = s.walks := by unfold State.setP; split <;> rfl
@[simp] theorem setP_streams (s : State) (c r : Nat) (v : Bool) : (s.setP c r v).streams = s.streams := by unfold State.setP; split <;> rfl
@[simp] theorem setP_migs (s : State) (c r : Nat) (v : Bool) : (s.setP c r v).migs = s.migs := by unfold State.setP; split <;> rfl
@[simp] theorem setP_eth (s : State) (c r : Nat) (v : Bool) : (s.setP c r v).eth = s.eth := by unfold State.setP; split <;> rfl
@[simp] theorem setP_txq (s : State) (c r : Nat) (v : Bool) : (s.setP c r v).txq = s.txq := by unfold State.setP; split <;> rfl
@[simp] theorem setP_rangeWr (s : State) (c r : Nat) (v : Bool) : (s.setP c r v).rangeWr = s.rangeWr := by unfold State.setP; split <;> rfl
@[simp] theorem setP_demoting (s : State) (c r : Nat) (v : Bool) : (s.setP c r v).demoting = s.demoting := by unfold State.setP; split <;> rfl
@[simp] theorem setP_admits (s : State) (c r : Nat) (v : Bool) : (s.setP c r v).admits = s.admits := by unfold State.setP; split <;> rfl
@[simp] theorem setP_slots (s : State) (c r : Nat) (v : Bool) : (s.setP c r v).slots = s.slots := by unfold State.setP; split <;> rfl
@[simp] theorem setP_spdm (s : State) (c r : Nat) (v : Bool) : (s.setP c r v).spdm = s.spdm := by unfold State.setP; split <;> rfl

@[simp] theorem setCore_pending (s : State) (c : Nat) (x : CoreRec) : (s.setCore c x).pending = s.pending := rfl
@[simp] theorem setCore_time (s : State) (c : Nat) (x : CoreRec) : (s.setCore c x).time = s.time := rfl
@[simp] theorem setCore_free (s : State) (c : Nat) (x : CoreRec) : (s.setCore c x).free = s.free := rfl
@[simp] theorem setCore_out (s : State) (c : Nat) (x : CoreRec) : (s.setCore c x).out = s.out := rfl
@[simp] theorem setCore_variant (s : State) (c : Nat) (x : CoreRec) : (s.setCore c x).variant = s.variant := rfl
@[simp] theorem setCore_regs (s : State) (c : Nat) (x : CoreRec) : (s.setCore c x).regs = s.regs := rfl
@[simp] theorem setCore_occ (s : State) (c : Nat) (x : CoreRec) : (s.setCore c x).occ = s.occ := rfl
@[simp] theorem setCore_frank (s : State) (c : Nat) (x : CoreRec) : (s.setCore c x).frank = s.frank := rfl
@[simp] theorem setCore_tally (s : State) (c : Nat) (x : CoreRec) : (s.setCore c x).tally = s.tally := rfl
@[simp] theorem setCore_boot (s : State) (c : Nat) (x : CoreRec) : (s.setCore c x).boot = s.boot := rfl
@[simp] theorem setCore_pins (s : State) (c : Nat) (x : CoreRec) : (s.setCore c x).pins = s.pins := rfl
@[simp] theorem setCore_mcRecord (s : State) (c : Nat) (x : CoreRec) : (s.setCore c x).mcRecord = s.mcRecord := rfl
@[simp] theorem setCore_overRun (s : State) (c : Nat) (x : CoreRec) : (s.setCore c x).overRun = s.overRun := rfl
@[simp] theorem setCore_overTj (s : State) (c : Nat) (x : CoreRec) : (s.setCore c x).overTj = s.overTj := rfl
@[simp] theorem setCore_gregs (s : State) (c : Nat) (x : CoreRec) : (s.setCore c x).gregs = s.gregs := rfl
@[simp] theorem setCore_tregs (s : State) (c : Nat) (x : CoreRec) : (s.setCore c x).tregs = s.tregs := rfl
@[simp] theorem setCore_pregs (s : State) (c : Nat) (x : CoreRec) : (s.setCore c x).pregs = s.pregs := rfl
@[simp] theorem setCore_scratch (s : State) (c : Nat) (x : CoreRec) : (s.setCore c x).scratch = s.scratch := rfl
@[simp] theorem setCore_items (s : State) (c : Nat) (x : CoreRec) : (s.setCore c x).items = s.items := rfl
@[simp] theorem setCore_nextItem (s : State) (c : Nat) (x : CoreRec) : (s.setCore c x).nextItem = s.nextItem := rfl
@[simp] theorem setCore_plans (s : State) (c : Nat) (x : CoreRec) : (s.setCore c x).plans = s.plans := rfl
@[simp] theorem setCore_tiles (s : State) (c : Nat) (x : CoreRec) : (s.setCore c x).tiles = s.tiles := rfl
@[simp] theorem setCore_mem (s : State) (c : Nat) (x : CoreRec) : (s.setCore c x).mem = s.mem := rfl
@[simp] theorem setCore_poison (s : State) (c : Nat) (x : CoreRec) : (s.setCore c x).poison = s.poison := rfl
@[simp] theorem setCore_llc (s : State) (c : Nat) (x : CoreRec) : (s.setCore c x).llc = s.llc := rfl
@[simp] theorem setCore_plru (s : State) (c : Nat) (x : CoreRec) : (s.setCore c x).plru = s.plru := rfl
@[simp] theorem setCore_pinUnits (s : State) (c : Nat) (x : CoreRec) : (s.setCore c x).pinUnits = s.pinUnits := rfl
@[simp] theorem setCore_pinRanges (s : State) (c : Nat) (x : CoreRec) : (s.setCore c x).pinRanges = s.pinRanges := rfl
@[simp] theorem setCore_pages (s : State) (c : Nat) (x : CoreRec) : (s.setCore c x).pages = s.pages := rfl
@[simp] theorem setCore_granules (s : State) (c : Nat) (x : CoreRec) : (s.setCore c x).granules = s.granules := rfl
@[simp] theorem setCore_space (s : State) (c : Nat) (x : CoreRec) : (s.setCore c x).space = s.space := rfl
@[simp] theorem setCore_zeroQ (s : State) (c : Nat) (x : CoreRec) : (s.setCore c x).zeroQ = s.zeroQ := rfl
@[simp] theorem setCore_sos (s : State) (c : Nat) (x : CoreRec) : (s.setCore c x).sos = s.sos := rfl
@[simp] theorem setCore_leases (s : State) (c : Nat) (x : CoreRec) : (s.setCore c x).leases = s.leases := rfl
@[simp] theorem setCore_err (s : State) (c : Nat) (x : CoreRec) : (s.setCore c x).err = s.err := rfl
@[simp] theorem setCore_host (s : State) (c : Nat) (x : CoreRec) : (s.setCore c x).host = s.host := rfl
@[simp] theorem setCore_chans (s : State) (c : Nat) (x : CoreRec) : (s.setCore c x).chans = s.chans := rfl
@[simp] theorem setCore_rings (s : State) (c : Nat) (x : CoreRec) : (s.setCore c x).rings = s.rings := rfl
@[simp] theorem setCore_notices (s : State) (c : Nat) (x : CoreRec) : (s.setCore c x).notices = s.notices := rfl
@[simp] theorem setCore_walks (s : State) (c : Nat) (x : CoreRec) : (s.setCore c x).walks = s.walks := rfl
@[simp] theorem setCore_streams (s : State) (c : Nat) (x : CoreRec) : (s.setCore c x).streams = s.streams := rfl
@[simp] theorem setCore_migs (s : State) (c : Nat) (x : CoreRec) : (s.setCore c x).migs = s.migs := rfl
@[simp] theorem setCore_eth (s : State) (c : Nat) (x : CoreRec) : (s.setCore c x).eth = s.eth := rfl
@[simp] theorem setCore_txq (s : State) (c : Nat) (x : CoreRec) : (s.setCore c x).txq = s.txq := rfl
@[simp] theorem setCore_rangeWr (s : State) (c : Nat) (x : CoreRec) : (s.setCore c x).rangeWr = s.rangeWr := rfl
@[simp] theorem setCore_demoting (s : State) (c : Nat) (x : CoreRec) : (s.setCore c x).demoting = s.demoting := rfl
@[simp] theorem setCore_admits (s : State) (c : Nat) (x : CoreRec) : (s.setCore c x).admits = s.admits := rfl
@[simp] theorem setCore_slots (s : State) (c : Nat) (x : CoreRec) : (s.setCore c x).slots = s.slots := rfl
@[simp] theorem setCore_spdm (s : State) (c : Nat) (x : CoreRec) : (s.setCore c x).spdm = s.spdm := rfl

@[simp] theorem setLease_pending (s : State) (k i : Nat) (l : Lease) : (s.setLease k i l).pending = s.pending := rfl
@[simp] theorem setLease_time (s : State) (k i : Nat) (l : Lease) : (s.setLease k i l).time = s.time := rfl
@[simp] theorem setLease_free (s : State) (k i : Nat) (l : Lease) : (s.setLease k i l).free = s.free := rfl
@[simp] theorem setLease_out (s : State) (k i : Nat) (l : Lease) : (s.setLease k i l).out = s.out := rfl
@[simp] theorem setLease_variant (s : State) (k i : Nat) (l : Lease) : (s.setLease k i l).variant = s.variant := rfl
@[simp] theorem setLease_regs (s : State) (k i : Nat) (l : Lease) : (s.setLease k i l).regs = s.regs := rfl
@[simp] theorem setLease_occ (s : State) (k i : Nat) (l : Lease) : (s.setLease k i l).occ = s.occ := rfl
@[simp] theorem setLease_frank (s : State) (k i : Nat) (l : Lease) : (s.setLease k i l).frank = s.frank := rfl
@[simp] theorem setLease_tally (s : State) (k i : Nat) (l : Lease) : (s.setLease k i l).tally = s.tally := rfl
@[simp] theorem setLease_boot (s : State) (k i : Nat) (l : Lease) : (s.setLease k i l).boot = s.boot := rfl
@[simp] theorem setLease_pins (s : State) (k i : Nat) (l : Lease) : (s.setLease k i l).pins = s.pins := rfl
@[simp] theorem setLease_mcRecord (s : State) (k i : Nat) (l : Lease) : (s.setLease k i l).mcRecord = s.mcRecord := rfl
@[simp] theorem setLease_overRun (s : State) (k i : Nat) (l : Lease) : (s.setLease k i l).overRun = s.overRun := rfl
@[simp] theorem setLease_overTj (s : State) (k i : Nat) (l : Lease) : (s.setLease k i l).overTj = s.overTj := rfl
@[simp] theorem setLease_gregs (s : State) (k i : Nat) (l : Lease) : (s.setLease k i l).gregs = s.gregs := rfl
@[simp] theorem setLease_tregs (s : State) (k i : Nat) (l : Lease) : (s.setLease k i l).tregs = s.tregs := rfl
@[simp] theorem setLease_pregs (s : State) (k i : Nat) (l : Lease) : (s.setLease k i l).pregs = s.pregs := rfl
@[simp] theorem setLease_scratch (s : State) (k i : Nat) (l : Lease) : (s.setLease k i l).scratch = s.scratch := rfl
@[simp] theorem setLease_cores (s : State) (k i : Nat) (l : Lease) : (s.setLease k i l).cores = s.cores := rfl
@[simp] theorem setLease_items (s : State) (k i : Nat) (l : Lease) : (s.setLease k i l).items = s.items := rfl
@[simp] theorem setLease_nextItem (s : State) (k i : Nat) (l : Lease) : (s.setLease k i l).nextItem = s.nextItem := rfl
@[simp] theorem setLease_plans (s : State) (k i : Nat) (l : Lease) : (s.setLease k i l).plans = s.plans := rfl
@[simp] theorem setLease_tiles (s : State) (k i : Nat) (l : Lease) : (s.setLease k i l).tiles = s.tiles := rfl
@[simp] theorem setLease_mem (s : State) (k i : Nat) (l : Lease) : (s.setLease k i l).mem = s.mem := rfl
@[simp] theorem setLease_poison (s : State) (k i : Nat) (l : Lease) : (s.setLease k i l).poison = s.poison := rfl
@[simp] theorem setLease_llc (s : State) (k i : Nat) (l : Lease) : (s.setLease k i l).llc = s.llc := rfl
@[simp] theorem setLease_plru (s : State) (k i : Nat) (l : Lease) : (s.setLease k i l).plru = s.plru := rfl
@[simp] theorem setLease_pinUnits (s : State) (k i : Nat) (l : Lease) : (s.setLease k i l).pinUnits = s.pinUnits := rfl
@[simp] theorem setLease_pinRanges (s : State) (k i : Nat) (l : Lease) : (s.setLease k i l).pinRanges = s.pinRanges := rfl
@[simp] theorem setLease_pages (s : State) (k i : Nat) (l : Lease) : (s.setLease k i l).pages = s.pages := rfl
@[simp] theorem setLease_granules (s : State) (k i : Nat) (l : Lease) : (s.setLease k i l).granules = s.granules := rfl
@[simp] theorem setLease_space (s : State) (k i : Nat) (l : Lease) : (s.setLease k i l).space = s.space := rfl
@[simp] theorem setLease_zeroQ (s : State) (k i : Nat) (l : Lease) : (s.setLease k i l).zeroQ = s.zeroQ := rfl
@[simp] theorem setLease_sos (s : State) (k i : Nat) (l : Lease) : (s.setLease k i l).sos = s.sos := rfl
@[simp] theorem setLease_err (s : State) (k i : Nat) (l : Lease) : (s.setLease k i l).err = s.err := rfl
@[simp] theorem setLease_host (s : State) (k i : Nat) (l : Lease) : (s.setLease k i l).host = s.host := rfl
@[simp] theorem setLease_chans (s : State) (k i : Nat) (l : Lease) : (s.setLease k i l).chans = s.chans := rfl
@[simp] theorem setLease_rings (s : State) (k i : Nat) (l : Lease) : (s.setLease k i l).rings = s.rings := rfl
@[simp] theorem setLease_notices (s : State) (k i : Nat) (l : Lease) : (s.setLease k i l).notices = s.notices := rfl
@[simp] theorem setLease_walks (s : State) (k i : Nat) (l : Lease) : (s.setLease k i l).walks = s.walks := rfl
@[simp] theorem setLease_streams (s : State) (k i : Nat) (l : Lease) : (s.setLease k i l).streams = s.streams := rfl
@[simp] theorem setLease_migs (s : State) (k i : Nat) (l : Lease) : (s.setLease k i l).migs = s.migs := rfl
@[simp] theorem setLease_eth (s : State) (k i : Nat) (l : Lease) : (s.setLease k i l).eth = s.eth := rfl
@[simp] theorem setLease_txq (s : State) (k i : Nat) (l : Lease) : (s.setLease k i l).txq = s.txq := rfl
@[simp] theorem setLease_rangeWr (s : State) (k i : Nat) (l : Lease) : (s.setLease k i l).rangeWr = s.rangeWr := rfl
@[simp] theorem setLease_demoting (s : State) (k i : Nat) (l : Lease) : (s.setLease k i l).demoting = s.demoting := rfl
@[simp] theorem setLease_admits (s : State) (k i : Nat) (l : Lease) : (s.setLease k i l).admits = s.admits := rfl
@[simp] theorem setLease_slots (s : State) (k i : Nat) (l : Lease) : (s.setLease k i l).slots = s.slots := rfl
@[simp] theorem setLease_spdm (s : State) (k i : Nat) (l : Lease) : (s.setLease k i l).spdm = s.spdm := rfl

@[simp] theorem setPlan_pending (s : State) (p : Nat) (x : PlanState) : (s.setPlan p x).pending = s.pending := rfl
@[simp] theorem setPlan_time (s : State) (p : Nat) (x : PlanState) : (s.setPlan p x).time = s.time := rfl
@[simp] theorem setPlan_free (s : State) (p : Nat) (x : PlanState) : (s.setPlan p x).free = s.free := rfl
@[simp] theorem setPlan_out (s : State) (p : Nat) (x : PlanState) : (s.setPlan p x).out = s.out := rfl
@[simp] theorem setPlan_variant (s : State) (p : Nat) (x : PlanState) : (s.setPlan p x).variant = s.variant := rfl
@[simp] theorem setPlan_regs (s : State) (p : Nat) (x : PlanState) : (s.setPlan p x).regs = s.regs := rfl
@[simp] theorem setPlan_occ (s : State) (p : Nat) (x : PlanState) : (s.setPlan p x).occ = s.occ := rfl
@[simp] theorem setPlan_frank (s : State) (p : Nat) (x : PlanState) : (s.setPlan p x).frank = s.frank := rfl
@[simp] theorem setPlan_tally (s : State) (p : Nat) (x : PlanState) : (s.setPlan p x).tally = s.tally := rfl
@[simp] theorem setPlan_boot (s : State) (p : Nat) (x : PlanState) : (s.setPlan p x).boot = s.boot := rfl
@[simp] theorem setPlan_pins (s : State) (p : Nat) (x : PlanState) : (s.setPlan p x).pins = s.pins := rfl
@[simp] theorem setPlan_mcRecord (s : State) (p : Nat) (x : PlanState) : (s.setPlan p x).mcRecord = s.mcRecord := rfl
@[simp] theorem setPlan_overRun (s : State) (p : Nat) (x : PlanState) : (s.setPlan p x).overRun = s.overRun := rfl
@[simp] theorem setPlan_overTj (s : State) (p : Nat) (x : PlanState) : (s.setPlan p x).overTj = s.overTj := rfl
@[simp] theorem setPlan_gregs (s : State) (p : Nat) (x : PlanState) : (s.setPlan p x).gregs = s.gregs := rfl
@[simp] theorem setPlan_tregs (s : State) (p : Nat) (x : PlanState) : (s.setPlan p x).tregs = s.tregs := rfl
@[simp] theorem setPlan_pregs (s : State) (p : Nat) (x : PlanState) : (s.setPlan p x).pregs = s.pregs := rfl
@[simp] theorem setPlan_scratch (s : State) (p : Nat) (x : PlanState) : (s.setPlan p x).scratch = s.scratch := rfl
@[simp] theorem setPlan_cores (s : State) (p : Nat) (x : PlanState) : (s.setPlan p x).cores = s.cores := rfl
@[simp] theorem setPlan_items (s : State) (p : Nat) (x : PlanState) : (s.setPlan p x).items = s.items := rfl
@[simp] theorem setPlan_nextItem (s : State) (p : Nat) (x : PlanState) : (s.setPlan p x).nextItem = s.nextItem := rfl
@[simp] theorem setPlan_tiles (s : State) (p : Nat) (x : PlanState) : (s.setPlan p x).tiles = s.tiles := rfl
@[simp] theorem setPlan_mem (s : State) (p : Nat) (x : PlanState) : (s.setPlan p x).mem = s.mem := rfl
@[simp] theorem setPlan_poison (s : State) (p : Nat) (x : PlanState) : (s.setPlan p x).poison = s.poison := rfl
@[simp] theorem setPlan_llc (s : State) (p : Nat) (x : PlanState) : (s.setPlan p x).llc = s.llc := rfl
@[simp] theorem setPlan_plru (s : State) (p : Nat) (x : PlanState) : (s.setPlan p x).plru = s.plru := rfl
@[simp] theorem setPlan_pinUnits (s : State) (p : Nat) (x : PlanState) : (s.setPlan p x).pinUnits = s.pinUnits := rfl
@[simp] theorem setPlan_pinRanges (s : State) (p : Nat) (x : PlanState) : (s.setPlan p x).pinRanges = s.pinRanges := rfl
@[simp] theorem setPlan_pages (s : State) (p : Nat) (x : PlanState) : (s.setPlan p x).pages = s.pages := rfl
@[simp] theorem setPlan_granules (s : State) (p : Nat) (x : PlanState) : (s.setPlan p x).granules = s.granules := rfl
@[simp] theorem setPlan_space (s : State) (p : Nat) (x : PlanState) : (s.setPlan p x).space = s.space := rfl
@[simp] theorem setPlan_zeroQ (s : State) (p : Nat) (x : PlanState) : (s.setPlan p x).zeroQ = s.zeroQ := rfl
@[simp] theorem setPlan_sos (s : State) (p : Nat) (x : PlanState) : (s.setPlan p x).sos = s.sos := rfl
@[simp] theorem setPlan_leases (s : State) (p : Nat) (x : PlanState) : (s.setPlan p x).leases = s.leases := rfl
@[simp] theorem setPlan_err (s : State) (p : Nat) (x : PlanState) : (s.setPlan p x).err = s.err := rfl
@[simp] theorem setPlan_host (s : State) (p : Nat) (x : PlanState) : (s.setPlan p x).host = s.host := rfl
@[simp] theorem setPlan_chans (s : State) (p : Nat) (x : PlanState) : (s.setPlan p x).chans = s.chans := rfl
@[simp] theorem setPlan_rings (s : State) (p : Nat) (x : PlanState) : (s.setPlan p x).rings = s.rings := rfl
@[simp] theorem setPlan_notices (s : State) (p : Nat) (x : PlanState) : (s.setPlan p x).notices = s.notices := rfl
@[simp] theorem setPlan_walks (s : State) (p : Nat) (x : PlanState) : (s.setPlan p x).walks = s.walks := rfl
@[simp] theorem setPlan_streams (s : State) (p : Nat) (x : PlanState) : (s.setPlan p x).streams = s.streams := rfl
@[simp] theorem setPlan_migs (s : State) (p : Nat) (x : PlanState) : (s.setPlan p x).migs = s.migs := rfl
@[simp] theorem setPlan_eth (s : State) (p : Nat) (x : PlanState) : (s.setPlan p x).eth = s.eth := rfl
@[simp] theorem setPlan_txq (s : State) (p : Nat) (x : PlanState) : (s.setPlan p x).txq = s.txq := rfl
@[simp] theorem setPlan_rangeWr (s : State) (p : Nat) (x : PlanState) : (s.setPlan p x).rangeWr = s.rangeWr := rfl
@[simp] theorem setPlan_demoting (s : State) (p : Nat) (x : PlanState) : (s.setPlan p x).demoting = s.demoting := rfl
@[simp] theorem setPlan_admits (s : State) (p : Nat) (x : PlanState) : (s.setPlan p x).admits = s.admits := rfl
@[simp] theorem setPlan_slots (s : State) (p : Nat) (x : PlanState) : (s.setPlan p x).slots = s.slots := rfl
@[simp] theorem setPlan_spdm (s : State) (p : Nat) (x : PlanState) : (s.setPlan p x).spdm = s.spdm := rfl

@[simp] theorem putItem_pending (s : State) (it : Item) : (s.putItem it).pending = s.pending := rfl
@[simp] theorem putItem_time (s : State) (it : Item) : (s.putItem it).time = s.time := rfl
@[simp] theorem putItem_free (s : State) (it : Item) : (s.putItem it).free = s.free := rfl
@[simp] theorem putItem_out (s : State) (it : Item) : (s.putItem it).out = s.out := rfl
@[simp] theorem putItem_variant (s : State) (it : Item) : (s.putItem it).variant = s.variant := rfl
@[simp] theorem putItem_regs (s : State) (it : Item) : (s.putItem it).regs = s.regs := rfl
@[simp] theorem putItem_occ (s : State) (it : Item) : (s.putItem it).occ = s.occ := rfl
@[simp] theorem putItem_frank (s : State) (it : Item) : (s.putItem it).frank = s.frank := rfl
@[simp] theorem putItem_tally (s : State) (it : Item) : (s.putItem it).tally = s.tally := rfl
@[simp] theorem putItem_boot (s : State) (it : Item) : (s.putItem it).boot = s.boot := rfl
@[simp] theorem putItem_pins (s : State) (it : Item) : (s.putItem it).pins = s.pins := rfl
@[simp] theorem putItem_mcRecord (s : State) (it : Item) : (s.putItem it).mcRecord = s.mcRecord := rfl
@[simp] theorem putItem_overRun (s : State) (it : Item) : (s.putItem it).overRun = s.overRun := rfl
@[simp] theorem putItem_overTj (s : State) (it : Item) : (s.putItem it).overTj = s.overTj := rfl
@[simp] theorem putItem_gregs (s : State) (it : Item) : (s.putItem it).gregs = s.gregs := rfl
@[simp] theorem putItem_tregs (s : State) (it : Item) : (s.putItem it).tregs = s.tregs := rfl
@[simp] theorem putItem_pregs (s : State) (it : Item) : (s.putItem it).pregs = s.pregs := rfl
@[simp] theorem putItem_scratch (s : State) (it : Item) : (s.putItem it).scratch = s.scratch := rfl
@[simp] theorem putItem_cores (s : State) (it : Item) : (s.putItem it).cores = s.cores := rfl
@[simp] theorem putItem_nextItem (s : State) (it : Item) : (s.putItem it).nextItem = s.nextItem := rfl
@[simp] theorem putItem_plans (s : State) (it : Item) : (s.putItem it).plans = s.plans := rfl
@[simp] theorem putItem_tiles (s : State) (it : Item) : (s.putItem it).tiles = s.tiles := rfl
@[simp] theorem putItem_mem (s : State) (it : Item) : (s.putItem it).mem = s.mem := rfl
@[simp] theorem putItem_poison (s : State) (it : Item) : (s.putItem it).poison = s.poison := rfl
@[simp] theorem putItem_llc (s : State) (it : Item) : (s.putItem it).llc = s.llc := rfl
@[simp] theorem putItem_plru (s : State) (it : Item) : (s.putItem it).plru = s.plru := rfl
@[simp] theorem putItem_pinUnits (s : State) (it : Item) : (s.putItem it).pinUnits = s.pinUnits := rfl
@[simp] theorem putItem_pinRanges (s : State) (it : Item) : (s.putItem it).pinRanges = s.pinRanges := rfl
@[simp] theorem putItem_pages (s : State) (it : Item) : (s.putItem it).pages = s.pages := rfl
@[simp] theorem putItem_granules (s : State) (it : Item) : (s.putItem it).granules = s.granules := rfl
@[simp] theorem putItem_space (s : State) (it : Item) : (s.putItem it).space = s.space := rfl
@[simp] theorem putItem_zeroQ (s : State) (it : Item) : (s.putItem it).zeroQ = s.zeroQ := rfl
@[simp] theorem putItem_sos (s : State) (it : Item) : (s.putItem it).sos = s.sos := rfl
@[simp] theorem putItem_leases (s : State) (it : Item) : (s.putItem it).leases = s.leases := rfl
@[simp] theorem putItem_err (s : State) (it : Item) : (s.putItem it).err = s.err := rfl
@[simp] theorem putItem_host (s : State) (it : Item) : (s.putItem it).host = s.host := rfl
@[simp] theorem putItem_chans (s : State) (it : Item) : (s.putItem it).chans = s.chans := rfl
@[simp] theorem putItem_rings (s : State) (it : Item) : (s.putItem it).rings = s.rings := rfl
@[simp] theorem putItem_notices (s : State) (it : Item) : (s.putItem it).notices = s.notices := rfl
@[simp] theorem putItem_walks (s : State) (it : Item) : (s.putItem it).walks = s.walks := rfl
@[simp] theorem putItem_streams (s : State) (it : Item) : (s.putItem it).streams = s.streams := rfl
@[simp] theorem putItem_migs (s : State) (it : Item) : (s.putItem it).migs = s.migs := rfl
@[simp] theorem putItem_eth (s : State) (it : Item) : (s.putItem it).eth = s.eth := rfl
@[simp] theorem putItem_txq (s : State) (it : Item) : (s.putItem it).txq = s.txq := rfl
@[simp] theorem putItem_rangeWr (s : State) (it : Item) : (s.putItem it).rangeWr = s.rangeWr := rfl
@[simp] theorem putItem_demoting (s : State) (it : Item) : (s.putItem it).demoting = s.demoting := rfl
@[simp] theorem putItem_admits (s : State) (it : Item) : (s.putItem it).admits = s.admits := rfl
@[simp] theorem putItem_slots (s : State) (it : Item) : (s.putItem it).slots = s.slots := rfl
@[simp] theorem putItem_spdm (s : State) (it : Item) : (s.putItem it).spdm = s.spdm := rfl

@[simp] theorem dropItem_pending (s : State) (id : Nat) : (s.dropItem id).pending = s.pending := rfl
@[simp] theorem dropItem_time (s : State) (id : Nat) : (s.dropItem id).time = s.time := rfl
@[simp] theorem dropItem_free (s : State) (id : Nat) : (s.dropItem id).free = s.free := rfl
@[simp] theorem dropItem_out (s : State) (id : Nat) : (s.dropItem id).out = s.out := rfl
@[simp] theorem dropItem_variant (s : State) (id : Nat) : (s.dropItem id).variant = s.variant := rfl
@[simp] theorem dropItem_regs (s : State) (id : Nat) : (s.dropItem id).regs = s.regs := rfl
@[simp] theorem dropItem_occ (s : State) (id : Nat) : (s.dropItem id).occ = s.occ := rfl
@[simp] theorem dropItem_frank (s : State) (id : Nat) : (s.dropItem id).frank = s.frank := rfl
@[simp] theorem dropItem_tally (s : State) (id : Nat) : (s.dropItem id).tally = s.tally := rfl
@[simp] theorem dropItem_boot (s : State) (id : Nat) : (s.dropItem id).boot = s.boot := rfl
@[simp] theorem dropItem_pins (s : State) (id : Nat) : (s.dropItem id).pins = s.pins := rfl
@[simp] theorem dropItem_mcRecord (s : State) (id : Nat) : (s.dropItem id).mcRecord = s.mcRecord := rfl
@[simp] theorem dropItem_overRun (s : State) (id : Nat) : (s.dropItem id).overRun = s.overRun := rfl
@[simp] theorem dropItem_overTj (s : State) (id : Nat) : (s.dropItem id).overTj = s.overTj := rfl
@[simp] theorem dropItem_gregs (s : State) (id : Nat) : (s.dropItem id).gregs = s.gregs := rfl
@[simp] theorem dropItem_tregs (s : State) (id : Nat) : (s.dropItem id).tregs = s.tregs := rfl
@[simp] theorem dropItem_pregs (s : State) (id : Nat) : (s.dropItem id).pregs = s.pregs := rfl
@[simp] theorem dropItem_scratch (s : State) (id : Nat) : (s.dropItem id).scratch = s.scratch := rfl
@[simp] theorem dropItem_cores (s : State) (id : Nat) : (s.dropItem id).cores = s.cores := rfl
@[simp] theorem dropItem_nextItem (s : State) (id : Nat) : (s.dropItem id).nextItem = s.nextItem := rfl
@[simp] theorem dropItem_plans (s : State) (id : Nat) : (s.dropItem id).plans = s.plans := rfl
@[simp] theorem dropItem_tiles (s : State) (id : Nat) : (s.dropItem id).tiles = s.tiles := rfl
@[simp] theorem dropItem_mem (s : State) (id : Nat) : (s.dropItem id).mem = s.mem := rfl
@[simp] theorem dropItem_poison (s : State) (id : Nat) : (s.dropItem id).poison = s.poison := rfl
@[simp] theorem dropItem_llc (s : State) (id : Nat) : (s.dropItem id).llc = s.llc := rfl
@[simp] theorem dropItem_plru (s : State) (id : Nat) : (s.dropItem id).plru = s.plru := rfl
@[simp] theorem dropItem_pinUnits (s : State) (id : Nat) : (s.dropItem id).pinUnits = s.pinUnits := rfl
@[simp] theorem dropItem_pinRanges (s : State) (id : Nat) : (s.dropItem id).pinRanges = s.pinRanges := rfl
@[simp] theorem dropItem_pages (s : State) (id : Nat) : (s.dropItem id).pages = s.pages := rfl
@[simp] theorem dropItem_granules (s : State) (id : Nat) : (s.dropItem id).granules = s.granules := rfl
@[simp] theorem dropItem_space (s : State) (id : Nat) : (s.dropItem id).space = s.space := rfl
@[simp] theorem dropItem_zeroQ (s : State) (id : Nat) : (s.dropItem id).zeroQ = s.zeroQ := rfl
@[simp] theorem dropItem_sos (s : State) (id : Nat) : (s.dropItem id).sos = s.sos := rfl
@[simp] theorem dropItem_leases (s : State) (id : Nat) : (s.dropItem id).leases = s.leases := rfl
@[simp] theorem dropItem_err (s : State) (id : Nat) : (s.dropItem id).err = s.err := rfl
@[simp] theorem dropItem_host (s : State) (id : Nat) : (s.dropItem id).host = s.host := rfl
@[simp] theorem dropItem_chans (s : State) (id : Nat) : (s.dropItem id).chans = s.chans := rfl
@[simp] theorem dropItem_rings (s : State) (id : Nat) : (s.dropItem id).rings = s.rings := rfl
@[simp] theorem dropItem_notices (s : State) (id : Nat) : (s.dropItem id).notices = s.notices := rfl
@[simp] theorem dropItem_walks (s : State) (id : Nat) : (s.dropItem id).walks = s.walks := rfl
@[simp] theorem dropItem_streams (s : State) (id : Nat) : (s.dropItem id).streams = s.streams := rfl
@[simp] theorem dropItem_migs (s : State) (id : Nat) : (s.dropItem id).migs = s.migs := rfl
@[simp] theorem dropItem_eth (s : State) (id : Nat) : (s.dropItem id).eth = s.eth := rfl
@[simp] theorem dropItem_txq (s : State) (id : Nat) : (s.dropItem id).txq = s.txq := rfl
@[simp] theorem dropItem_rangeWr (s : State) (id : Nat) : (s.dropItem id).rangeWr = s.rangeWr := rfl
@[simp] theorem dropItem_demoting (s : State) (id : Nat) : (s.dropItem id).demoting = s.demoting := rfl
@[simp] theorem dropItem_admits (s : State) (id : Nat) : (s.dropItem id).admits = s.admits := rfl
@[simp] theorem dropItem_slots (s : State) (id : Nat) : (s.dropItem id).slots = s.slots := rfl
@[simp] theorem dropItem_spdm (s : State) (id : Nat) : (s.dropItem id).spdm = s.spdm := rfl

@[simp] theorem setChan_pending (s : State) (c : Nat) (x : ChanRec) : (s.setChan c x).pending = s.pending := rfl
@[simp] theorem setChan_time (s : State) (c : Nat) (x : ChanRec) : (s.setChan c x).time = s.time := rfl
@[simp] theorem setChan_free (s : State) (c : Nat) (x : ChanRec) : (s.setChan c x).free = s.free := rfl
@[simp] theorem setChan_out (s : State) (c : Nat) (x : ChanRec) : (s.setChan c x).out = s.out := rfl
@[simp] theorem setChan_variant (s : State) (c : Nat) (x : ChanRec) : (s.setChan c x).variant = s.variant := rfl
@[simp] theorem setChan_regs (s : State) (c : Nat) (x : ChanRec) : (s.setChan c x).regs = s.regs := rfl
@[simp] theorem setChan_occ (s : State) (c : Nat) (x : ChanRec) : (s.setChan c x).occ = s.occ := rfl
@[simp] theorem setChan_frank (s : State) (c : Nat) (x : ChanRec) : (s.setChan c x).frank = s.frank := rfl
@[simp] theorem setChan_tally (s : State) (c : Nat) (x : ChanRec) : (s.setChan c x).tally = s.tally := rfl
@[simp] theorem setChan_boot (s : State) (c : Nat) (x : ChanRec) : (s.setChan c x).boot = s.boot := rfl
@[simp] theorem setChan_pins (s : State) (c : Nat) (x : ChanRec) : (s.setChan c x).pins = s.pins := rfl
@[simp] theorem setChan_mcRecord (s : State) (c : Nat) (x : ChanRec) : (s.setChan c x).mcRecord = s.mcRecord := rfl
@[simp] theorem setChan_overRun (s : State) (c : Nat) (x : ChanRec) : (s.setChan c x).overRun = s.overRun := rfl
@[simp] theorem setChan_overTj (s : State) (c : Nat) (x : ChanRec) : (s.setChan c x).overTj = s.overTj := rfl
@[simp] theorem setChan_gregs (s : State) (c : Nat) (x : ChanRec) : (s.setChan c x).gregs = s.gregs := rfl
@[simp] theorem setChan_tregs (s : State) (c : Nat) (x : ChanRec) : (s.setChan c x).tregs = s.tregs := rfl
@[simp] theorem setChan_pregs (s : State) (c : Nat) (x : ChanRec) : (s.setChan c x).pregs = s.pregs := rfl
@[simp] theorem setChan_scratch (s : State) (c : Nat) (x : ChanRec) : (s.setChan c x).scratch = s.scratch := rfl
@[simp] theorem setChan_cores (s : State) (c : Nat) (x : ChanRec) : (s.setChan c x).cores = s.cores := rfl
@[simp] theorem setChan_items (s : State) (c : Nat) (x : ChanRec) : (s.setChan c x).items = s.items := rfl
@[simp] theorem setChan_nextItem (s : State) (c : Nat) (x : ChanRec) : (s.setChan c x).nextItem = s.nextItem := rfl
@[simp] theorem setChan_plans (s : State) (c : Nat) (x : ChanRec) : (s.setChan c x).plans = s.plans := rfl
@[simp] theorem setChan_tiles (s : State) (c : Nat) (x : ChanRec) : (s.setChan c x).tiles = s.tiles := rfl
@[simp] theorem setChan_mem (s : State) (c : Nat) (x : ChanRec) : (s.setChan c x).mem = s.mem := rfl
@[simp] theorem setChan_poison (s : State) (c : Nat) (x : ChanRec) : (s.setChan c x).poison = s.poison := rfl
@[simp] theorem setChan_llc (s : State) (c : Nat) (x : ChanRec) : (s.setChan c x).llc = s.llc := rfl
@[simp] theorem setChan_plru (s : State) (c : Nat) (x : ChanRec) : (s.setChan c x).plru = s.plru := rfl
@[simp] theorem setChan_pinUnits (s : State) (c : Nat) (x : ChanRec) : (s.setChan c x).pinUnits = s.pinUnits := rfl
@[simp] theorem setChan_pinRanges (s : State) (c : Nat) (x : ChanRec) : (s.setChan c x).pinRanges = s.pinRanges := rfl
@[simp] theorem setChan_pages (s : State) (c : Nat) (x : ChanRec) : (s.setChan c x).pages = s.pages := rfl
@[simp] theorem setChan_granules (s : State) (c : Nat) (x : ChanRec) : (s.setChan c x).granules = s.granules := rfl
@[simp] theorem setChan_space (s : State) (c : Nat) (x : ChanRec) : (s.setChan c x).space = s.space := rfl
@[simp] theorem setChan_zeroQ (s : State) (c : Nat) (x : ChanRec) : (s.setChan c x).zeroQ = s.zeroQ := rfl
@[simp] theorem setChan_sos (s : State) (c : Nat) (x : ChanRec) : (s.setChan c x).sos = s.sos := rfl
@[simp] theorem setChan_leases (s : State) (c : Nat) (x : ChanRec) : (s.setChan c x).leases = s.leases := rfl
@[simp] theorem setChan_err (s : State) (c : Nat) (x : ChanRec) : (s.setChan c x).err = s.err := rfl
@[simp] theorem setChan_host (s : State) (c : Nat) (x : ChanRec) : (s.setChan c x).host = s.host := rfl
@[simp] theorem setChan_rings (s : State) (c : Nat) (x : ChanRec) : (s.setChan c x).rings = s.rings := rfl
@[simp] theorem setChan_notices (s : State) (c : Nat) (x : ChanRec) : (s.setChan c x).notices = s.notices := rfl
@[simp] theorem setChan_walks (s : State) (c : Nat) (x : ChanRec) : (s.setChan c x).walks = s.walks := rfl
@[simp] theorem setChan_streams (s : State) (c : Nat) (x : ChanRec) : (s.setChan c x).streams = s.streams := rfl
@[simp] theorem setChan_migs (s : State) (c : Nat) (x : ChanRec) : (s.setChan c x).migs = s.migs := rfl
@[simp] theorem setChan_eth (s : State) (c : Nat) (x : ChanRec) : (s.setChan c x).eth = s.eth := rfl
@[simp] theorem setChan_txq (s : State) (c : Nat) (x : ChanRec) : (s.setChan c x).txq = s.txq := rfl
@[simp] theorem setChan_rangeWr (s : State) (c : Nat) (x : ChanRec) : (s.setChan c x).rangeWr = s.rangeWr := rfl
@[simp] theorem setChan_demoting (s : State) (c : Nat) (x : ChanRec) : (s.setChan c x).demoting = s.demoting := rfl
@[simp] theorem setChan_admits (s : State) (c : Nat) (x : ChanRec) : (s.setChan c x).admits = s.admits := rfl
@[simp] theorem setChan_slots (s : State) (c : Nat) (x : ChanRec) : (s.setChan c x).slots = s.slots := rfl
@[simp] theorem setChan_spdm (s : State) (c : Nat) (x : ChanRec) : (s.setChan c x).spdm = s.spdm := rfl

@[simp] theorem setRingRec_pending (s : State) (r : Nat) (x : RingRec) : (s.setRingRec r x).pending = s.pending := rfl
@[simp] theorem setRingRec_time (s : State) (r : Nat) (x : RingRec) : (s.setRingRec r x).time = s.time := rfl
@[simp] theorem setRingRec_free (s : State) (r : Nat) (x : RingRec) : (s.setRingRec r x).free = s.free := rfl
@[simp] theorem setRingRec_out (s : State) (r : Nat) (x : RingRec) : (s.setRingRec r x).out = s.out := rfl
@[simp] theorem setRingRec_variant (s : State) (r : Nat) (x : RingRec) : (s.setRingRec r x).variant = s.variant := rfl
@[simp] theorem setRingRec_regs (s : State) (r : Nat) (x : RingRec) : (s.setRingRec r x).regs = s.regs := rfl
@[simp] theorem setRingRec_occ (s : State) (r : Nat) (x : RingRec) : (s.setRingRec r x).occ = s.occ := rfl
@[simp] theorem setRingRec_frank (s : State) (r : Nat) (x : RingRec) : (s.setRingRec r x).frank = s.frank := rfl
@[simp] theorem setRingRec_tally (s : State) (r : Nat) (x : RingRec) : (s.setRingRec r x).tally = s.tally := rfl
@[simp] theorem setRingRec_boot (s : State) (r : Nat) (x : RingRec) : (s.setRingRec r x).boot = s.boot := rfl
@[simp] theorem setRingRec_pins (s : State) (r : Nat) (x : RingRec) : (s.setRingRec r x).pins = s.pins := rfl
@[simp] theorem setRingRec_mcRecord (s : State) (r : Nat) (x : RingRec) : (s.setRingRec r x).mcRecord = s.mcRecord := rfl
@[simp] theorem setRingRec_overRun (s : State) (r : Nat) (x : RingRec) : (s.setRingRec r x).overRun = s.overRun := rfl
@[simp] theorem setRingRec_overTj (s : State) (r : Nat) (x : RingRec) : (s.setRingRec r x).overTj = s.overTj := rfl
@[simp] theorem setRingRec_gregs (s : State) (r : Nat) (x : RingRec) : (s.setRingRec r x).gregs = s.gregs := rfl
@[simp] theorem setRingRec_tregs (s : State) (r : Nat) (x : RingRec) : (s.setRingRec r x).tregs = s.tregs := rfl
@[simp] theorem setRingRec_pregs (s : State) (r : Nat) (x : RingRec) : (s.setRingRec r x).pregs = s.pregs := rfl
@[simp] theorem setRingRec_scratch (s : State) (r : Nat) (x : RingRec) : (s.setRingRec r x).scratch = s.scratch := rfl
@[simp] theorem setRingRec_cores (s : State) (r : Nat) (x : RingRec) : (s.setRingRec r x).cores = s.cores := rfl
@[simp] theorem setRingRec_items (s : State) (r : Nat) (x : RingRec) : (s.setRingRec r x).items = s.items := rfl
@[simp] theorem setRingRec_nextItem (s : State) (r : Nat) (x : RingRec) : (s.setRingRec r x).nextItem = s.nextItem := rfl
@[simp] theorem setRingRec_plans (s : State) (r : Nat) (x : RingRec) : (s.setRingRec r x).plans = s.plans := rfl
@[simp] theorem setRingRec_tiles (s : State) (r : Nat) (x : RingRec) : (s.setRingRec r x).tiles = s.tiles := rfl
@[simp] theorem setRingRec_mem (s : State) (r : Nat) (x : RingRec) : (s.setRingRec r x).mem = s.mem := rfl
@[simp] theorem setRingRec_poison (s : State) (r : Nat) (x : RingRec) : (s.setRingRec r x).poison = s.poison := rfl
@[simp] theorem setRingRec_llc (s : State) (r : Nat) (x : RingRec) : (s.setRingRec r x).llc = s.llc := rfl
@[simp] theorem setRingRec_plru (s : State) (r : Nat) (x : RingRec) : (s.setRingRec r x).plru = s.plru := rfl
@[simp] theorem setRingRec_pinUnits (s : State) (r : Nat) (x : RingRec) : (s.setRingRec r x).pinUnits = s.pinUnits := rfl
@[simp] theorem setRingRec_pinRanges (s : State) (r : Nat) (x : RingRec) : (s.setRingRec r x).pinRanges = s.pinRanges := rfl
@[simp] theorem setRingRec_pages (s : State) (r : Nat) (x : RingRec) : (s.setRingRec r x).pages = s.pages := rfl
@[simp] theorem setRingRec_granules (s : State) (r : Nat) (x : RingRec) : (s.setRingRec r x).granules = s.granules := rfl
@[simp] theorem setRingRec_space (s : State) (r : Nat) (x : RingRec) : (s.setRingRec r x).space = s.space := rfl
@[simp] theorem setRingRec_zeroQ (s : State) (r : Nat) (x : RingRec) : (s.setRingRec r x).zeroQ = s.zeroQ := rfl
@[simp] theorem setRingRec_sos (s : State) (r : Nat) (x : RingRec) : (s.setRingRec r x).sos = s.sos := rfl
@[simp] theorem setRingRec_leases (s : State) (r : Nat) (x : RingRec) : (s.setRingRec r x).leases = s.leases := rfl
@[simp] theorem setRingRec_err (s : State) (r : Nat) (x : RingRec) : (s.setRingRec r x).err = s.err := rfl
@[simp] theorem setRingRec_host (s : State) (r : Nat) (x : RingRec) : (s.setRingRec r x).host = s.host := rfl
@[simp] theorem setRingRec_chans (s : State) (r : Nat) (x : RingRec) : (s.setRingRec r x).chans = s.chans := rfl
@[simp] theorem setRingRec_notices (s : State) (r : Nat) (x : RingRec) : (s.setRingRec r x).notices = s.notices := rfl
@[simp] theorem setRingRec_walks (s : State) (r : Nat) (x : RingRec) : (s.setRingRec r x).walks = s.walks := rfl
@[simp] theorem setRingRec_streams (s : State) (r : Nat) (x : RingRec) : (s.setRingRec r x).streams = s.streams := rfl
@[simp] theorem setRingRec_migs (s : State) (r : Nat) (x : RingRec) : (s.setRingRec r x).migs = s.migs := rfl
@[simp] theorem setRingRec_eth (s : State) (r : Nat) (x : RingRec) : (s.setRingRec r x).eth = s.eth := rfl
@[simp] theorem setRingRec_txq (s : State) (r : Nat) (x : RingRec) : (s.setRingRec r x).txq = s.txq := rfl
@[simp] theorem setRingRec_rangeWr (s : State) (r : Nat) (x : RingRec) : (s.setRingRec r x).rangeWr = s.rangeWr := rfl
@[simp] theorem setRingRec_demoting (s : State) (r : Nat) (x : RingRec) : (s.setRingRec r x).demoting = s.demoting := rfl
@[simp] theorem setRingRec_admits (s : State) (r : Nat) (x : RingRec) : (s.setRingRec r x).admits = s.admits := rfl
@[simp] theorem setRingRec_slots (s : State) (r : Nat) (x : RingRec) : (s.setRingRec r x).slots = s.slots := rfl
@[simp] theorem setRingRec_spdm (s : State) (r : Nat) (x : RingRec) : (s.setRingRec r x).spdm = s.spdm := rfl

@[simp] theorem setTile_pending (s : State) (p o t : Nat) (r : TileRec) : (s.setTile p o t r).pending = s.pending := rfl
@[simp] theorem setTile_time (s : State) (p o t : Nat) (r : TileRec) : (s.setTile p o t r).time = s.time := rfl
@[simp] theorem setTile_free (s : State) (p o t : Nat) (r : TileRec) : (s.setTile p o t r).free = s.free := rfl
@[simp] theorem setTile_out (s : State) (p o t : Nat) (r : TileRec) : (s.setTile p o t r).out = s.out := rfl
@[simp] theorem setTile_variant (s : State) (p o t : Nat) (r : TileRec) : (s.setTile p o t r).variant = s.variant := rfl
@[simp] theorem setTile_regs (s : State) (p o t : Nat) (r : TileRec) : (s.setTile p o t r).regs = s.regs := rfl
@[simp] theorem setTile_occ (s : State) (p o t : Nat) (r : TileRec) : (s.setTile p o t r).occ = s.occ := rfl
@[simp] theorem setTile_frank (s : State) (p o t : Nat) (r : TileRec) : (s.setTile p o t r).frank = s.frank := rfl
@[simp] theorem setTile_tally (s : State) (p o t : Nat) (r : TileRec) : (s.setTile p o t r).tally = s.tally := rfl
@[simp] theorem setTile_boot (s : State) (p o t : Nat) (r : TileRec) : (s.setTile p o t r).boot = s.boot := rfl
@[simp] theorem setTile_pins (s : State) (p o t : Nat) (r : TileRec) : (s.setTile p o t r).pins = s.pins := rfl
@[simp] theorem setTile_mcRecord (s : State) (p o t : Nat) (r : TileRec) : (s.setTile p o t r).mcRecord = s.mcRecord := rfl
@[simp] theorem setTile_overRun (s : State) (p o t : Nat) (r : TileRec) : (s.setTile p o t r).overRun = s.overRun := rfl
@[simp] theorem setTile_overTj (s : State) (p o t : Nat) (r : TileRec) : (s.setTile p o t r).overTj = s.overTj := rfl
@[simp] theorem setTile_gregs (s : State) (p o t : Nat) (r : TileRec) : (s.setTile p o t r).gregs = s.gregs := rfl
@[simp] theorem setTile_tregs (s : State) (p o t : Nat) (r : TileRec) : (s.setTile p o t r).tregs = s.tregs := rfl
@[simp] theorem setTile_pregs (s : State) (p o t : Nat) (r : TileRec) : (s.setTile p o t r).pregs = s.pregs := rfl
@[simp] theorem setTile_scratch (s : State) (p o t : Nat) (r : TileRec) : (s.setTile p o t r).scratch = s.scratch := rfl
@[simp] theorem setTile_cores (s : State) (p o t : Nat) (r : TileRec) : (s.setTile p o t r).cores = s.cores := rfl
@[simp] theorem setTile_items (s : State) (p o t : Nat) (r : TileRec) : (s.setTile p o t r).items = s.items := rfl
@[simp] theorem setTile_nextItem (s : State) (p o t : Nat) (r : TileRec) : (s.setTile p o t r).nextItem = s.nextItem := rfl
@[simp] theorem setTile_plans (s : State) (p o t : Nat) (r : TileRec) : (s.setTile p o t r).plans = s.plans := rfl
@[simp] theorem setTile_mem (s : State) (p o t : Nat) (r : TileRec) : (s.setTile p o t r).mem = s.mem := rfl
@[simp] theorem setTile_poison (s : State) (p o t : Nat) (r : TileRec) : (s.setTile p o t r).poison = s.poison := rfl
@[simp] theorem setTile_llc (s : State) (p o t : Nat) (r : TileRec) : (s.setTile p o t r).llc = s.llc := rfl
@[simp] theorem setTile_plru (s : State) (p o t : Nat) (r : TileRec) : (s.setTile p o t r).plru = s.plru := rfl
@[simp] theorem setTile_pinUnits (s : State) (p o t : Nat) (r : TileRec) : (s.setTile p o t r).pinUnits = s.pinUnits := rfl
@[simp] theorem setTile_pinRanges (s : State) (p o t : Nat) (r : TileRec) : (s.setTile p o t r).pinRanges = s.pinRanges := rfl
@[simp] theorem setTile_pages (s : State) (p o t : Nat) (r : TileRec) : (s.setTile p o t r).pages = s.pages := rfl
@[simp] theorem setTile_granules (s : State) (p o t : Nat) (r : TileRec) : (s.setTile p o t r).granules = s.granules := rfl
@[simp] theorem setTile_space (s : State) (p o t : Nat) (r : TileRec) : (s.setTile p o t r).space = s.space := rfl
@[simp] theorem setTile_zeroQ (s : State) (p o t : Nat) (r : TileRec) : (s.setTile p o t r).zeroQ = s.zeroQ := rfl
@[simp] theorem setTile_sos (s : State) (p o t : Nat) (r : TileRec) : (s.setTile p o t r).sos = s.sos := rfl
@[simp] theorem setTile_leases (s : State) (p o t : Nat) (r : TileRec) : (s.setTile p o t r).leases = s.leases := rfl
@[simp] theorem setTile_err (s : State) (p o t : Nat) (r : TileRec) : (s.setTile p o t r).err = s.err := rfl
@[simp] theorem setTile_host (s : State) (p o t : Nat) (r : TileRec) : (s.setTile p o t r).host = s.host := rfl
@[simp] theorem setTile_chans (s : State) (p o t : Nat) (r : TileRec) : (s.setTile p o t r).chans = s.chans := rfl
@[simp] theorem setTile_rings (s : State) (p o t : Nat) (r : TileRec) : (s.setTile p o t r).rings = s.rings := rfl
@[simp] theorem setTile_notices (s : State) (p o t : Nat) (r : TileRec) : (s.setTile p o t r).notices = s.notices := rfl
@[simp] theorem setTile_walks (s : State) (p o t : Nat) (r : TileRec) : (s.setTile p o t r).walks = s.walks := rfl
@[simp] theorem setTile_streams (s : State) (p o t : Nat) (r : TileRec) : (s.setTile p o t r).streams = s.streams := rfl
@[simp] theorem setTile_migs (s : State) (p o t : Nat) (r : TileRec) : (s.setTile p o t r).migs = s.migs := rfl
@[simp] theorem setTile_eth (s : State) (p o t : Nat) (r : TileRec) : (s.setTile p o t r).eth = s.eth := rfl
@[simp] theorem setTile_txq (s : State) (p o t : Nat) (r : TileRec) : (s.setTile p o t r).txq = s.txq := rfl
@[simp] theorem setTile_rangeWr (s : State) (p o t : Nat) (r : TileRec) : (s.setTile p o t r).rangeWr = s.rangeWr := rfl
@[simp] theorem setTile_demoting (s : State) (p o t : Nat) (r : TileRec) : (s.setTile p o t r).demoting = s.demoting := rfl
@[simp] theorem setTile_admits (s : State) (p o t : Nat) (r : TileRec) : (s.setTile p o t r).admits = s.admits := rfl
@[simp] theorem setTile_slots (s : State) (p o t : Nat) (r : TileRec) : (s.setTile p o t r).slots = s.slots := rfl
@[simp] theorem setTile_spdm (s : State) (p o t : Nat) (r : TileRec) : (s.setTile p o t r).spdm = s.spdm := rfl

@[simp] theorem setPoison_pending (s : State) (k : Nat) (b : Bool) : (s.setPoison k b).pending = s.pending := rfl
@[simp] theorem setPoison_time (s : State) (k : Nat) (b : Bool) : (s.setPoison k b).time = s.time := rfl
@[simp] theorem setPoison_free (s : State) (k : Nat) (b : Bool) : (s.setPoison k b).free = s.free := rfl
@[simp] theorem setPoison_out (s : State) (k : Nat) (b : Bool) : (s.setPoison k b).out = s.out := rfl
@[simp] theorem setPoison_variant (s : State) (k : Nat) (b : Bool) : (s.setPoison k b).variant = s.variant := rfl
@[simp] theorem setPoison_regs (s : State) (k : Nat) (b : Bool) : (s.setPoison k b).regs = s.regs := rfl
@[simp] theorem setPoison_occ (s : State) (k : Nat) (b : Bool) : (s.setPoison k b).occ = s.occ := rfl
@[simp] theorem setPoison_frank (s : State) (k : Nat) (b : Bool) : (s.setPoison k b).frank = s.frank := rfl
@[simp] theorem setPoison_tally (s : State) (k : Nat) (b : Bool) : (s.setPoison k b).tally = s.tally := rfl
@[simp] theorem setPoison_boot (s : State) (k : Nat) (b : Bool) : (s.setPoison k b).boot = s.boot := rfl
@[simp] theorem setPoison_pins (s : State) (k : Nat) (b : Bool) : (s.setPoison k b).pins = s.pins := rfl
@[simp] theorem setPoison_mcRecord (s : State) (k : Nat) (b : Bool) : (s.setPoison k b).mcRecord = s.mcRecord := rfl
@[simp] theorem setPoison_overRun (s : State) (k : Nat) (b : Bool) : (s.setPoison k b).overRun = s.overRun := rfl
@[simp] theorem setPoison_overTj (s : State) (k : Nat) (b : Bool) : (s.setPoison k b).overTj = s.overTj := rfl
@[simp] theorem setPoison_gregs (s : State) (k : Nat) (b : Bool) : (s.setPoison k b).gregs = s.gregs := rfl
@[simp] theorem setPoison_tregs (s : State) (k : Nat) (b : Bool) : (s.setPoison k b).tregs = s.tregs := rfl
@[simp] theorem setPoison_pregs (s : State) (k : Nat) (b : Bool) : (s.setPoison k b).pregs = s.pregs := rfl
@[simp] theorem setPoison_scratch (s : State) (k : Nat) (b : Bool) : (s.setPoison k b).scratch = s.scratch := rfl
@[simp] theorem setPoison_cores (s : State) (k : Nat) (b : Bool) : (s.setPoison k b).cores = s.cores := rfl
@[simp] theorem setPoison_items (s : State) (k : Nat) (b : Bool) : (s.setPoison k b).items = s.items := rfl
@[simp] theorem setPoison_nextItem (s : State) (k : Nat) (b : Bool) : (s.setPoison k b).nextItem = s.nextItem := rfl
@[simp] theorem setPoison_plans (s : State) (k : Nat) (b : Bool) : (s.setPoison k b).plans = s.plans := rfl
@[simp] theorem setPoison_tiles (s : State) (k : Nat) (b : Bool) : (s.setPoison k b).tiles = s.tiles := rfl
@[simp] theorem setPoison_mem (s : State) (k : Nat) (b : Bool) : (s.setPoison k b).mem = s.mem := rfl
@[simp] theorem setPoison_llc (s : State) (k : Nat) (b : Bool) : (s.setPoison k b).llc = s.llc := rfl
@[simp] theorem setPoison_plru (s : State) (k : Nat) (b : Bool) : (s.setPoison k b).plru = s.plru := rfl
@[simp] theorem setPoison_pinUnits (s : State) (k : Nat) (b : Bool) : (s.setPoison k b).pinUnits = s.pinUnits := rfl
@[simp] theorem setPoison_pinRanges (s : State) (k : Nat) (b : Bool) : (s.setPoison k b).pinRanges = s.pinRanges := rfl
@[simp] theorem setPoison_pages (s : State) (k : Nat) (b : Bool) : (s.setPoison k b).pages = s.pages := rfl
@[simp] theorem setPoison_granules (s : State) (k : Nat) (b : Bool) : (s.setPoison k b).granules = s.granules := rfl
@[simp] theorem setPoison_space (s : State) (k : Nat) (b : Bool) : (s.setPoison k b).space = s.space := rfl
@[simp] theorem setPoison_zeroQ (s : State) (k : Nat) (b : Bool) : (s.setPoison k b).zeroQ = s.zeroQ := rfl
@[simp] theorem setPoison_sos (s : State) (k : Nat) (b : Bool) : (s.setPoison k b).sos = s.sos := rfl
@[simp] theorem setPoison_leases (s : State) (k : Nat) (b : Bool) : (s.setPoison k b).leases = s.leases := rfl
@[simp] theorem setPoison_err (s : State) (k : Nat) (b : Bool) : (s.setPoison k b).err = s.err := rfl
@[simp] theorem setPoison_host (s : State) (k : Nat) (b : Bool) : (s.setPoison k b).host = s.host := rfl
@[simp] theorem setPoison_chans (s : State) (k : Nat) (b : Bool) : (s.setPoison k b).chans = s.chans := rfl
@[simp] theorem setPoison_rings (s : State) (k : Nat) (b : Bool) : (s.setPoison k b).rings = s.rings := rfl
@[simp] theorem setPoison_notices (s : State) (k : Nat) (b : Bool) : (s.setPoison k b).notices = s.notices := rfl
@[simp] theorem setPoison_walks (s : State) (k : Nat) (b : Bool) : (s.setPoison k b).walks = s.walks := rfl
@[simp] theorem setPoison_streams (s : State) (k : Nat) (b : Bool) : (s.setPoison k b).streams = s.streams := rfl
@[simp] theorem setPoison_migs (s : State) (k : Nat) (b : Bool) : (s.setPoison k b).migs = s.migs := rfl
@[simp] theorem setPoison_eth (s : State) (k : Nat) (b : Bool) : (s.setPoison k b).eth = s.eth := rfl
@[simp] theorem setPoison_txq (s : State) (k : Nat) (b : Bool) : (s.setPoison k b).txq = s.txq := rfl
@[simp] theorem setPoison_rangeWr (s : State) (k : Nat) (b : Bool) : (s.setPoison k b).rangeWr = s.rangeWr := rfl
@[simp] theorem setPoison_demoting (s : State) (k : Nat) (b : Bool) : (s.setPoison k b).demoting = s.demoting := rfl
@[simp] theorem setPoison_admits (s : State) (k : Nat) (b : Bool) : (s.setPoison k b).admits = s.admits := rfl
@[simp] theorem setPoison_slots (s : State) (k : Nat) (b : Bool) : (s.setPoison k b).slots = s.slots := rfl
@[simp] theorem setPoison_spdm (s : State) (k : Nat) (b : Bool) : (s.setPoison k b).spdm = s.spdm := rfl

@[simp] theorem setConn_pending (s : State) (c : Nat) (x : Conn) : (s.setConn c x).pending = s.pending := rfl
@[simp] theorem setConn_time (s : State) (c : Nat) (x : Conn) : (s.setConn c x).time = s.time := rfl
@[simp] theorem setConn_free (s : State) (c : Nat) (x : Conn) : (s.setConn c x).free = s.free := rfl
@[simp] theorem setConn_out (s : State) (c : Nat) (x : Conn) : (s.setConn c x).out = s.out := rfl
@[simp] theorem setConn_variant (s : State) (c : Nat) (x : Conn) : (s.setConn c x).variant = s.variant := rfl
@[simp] theorem setConn_regs (s : State) (c : Nat) (x : Conn) : (s.setConn c x).regs = s.regs := rfl
@[simp] theorem setConn_occ (s : State) (c : Nat) (x : Conn) : (s.setConn c x).occ = s.occ := rfl
@[simp] theorem setConn_frank (s : State) (c : Nat) (x : Conn) : (s.setConn c x).frank = s.frank := rfl
@[simp] theorem setConn_tally (s : State) (c : Nat) (x : Conn) : (s.setConn c x).tally = s.tally := rfl
@[simp] theorem setConn_boot (s : State) (c : Nat) (x : Conn) : (s.setConn c x).boot = s.boot := rfl
@[simp] theorem setConn_pins (s : State) (c : Nat) (x : Conn) : (s.setConn c x).pins = s.pins := rfl
@[simp] theorem setConn_mcRecord (s : State) (c : Nat) (x : Conn) : (s.setConn c x).mcRecord = s.mcRecord := rfl
@[simp] theorem setConn_overRun (s : State) (c : Nat) (x : Conn) : (s.setConn c x).overRun = s.overRun := rfl
@[simp] theorem setConn_overTj (s : State) (c : Nat) (x : Conn) : (s.setConn c x).overTj = s.overTj := rfl
@[simp] theorem setConn_gregs (s : State) (c : Nat) (x : Conn) : (s.setConn c x).gregs = s.gregs := rfl
@[simp] theorem setConn_tregs (s : State) (c : Nat) (x : Conn) : (s.setConn c x).tregs = s.tregs := rfl
@[simp] theorem setConn_pregs (s : State) (c : Nat) (x : Conn) : (s.setConn c x).pregs = s.pregs := rfl
@[simp] theorem setConn_scratch (s : State) (c : Nat) (x : Conn) : (s.setConn c x).scratch = s.scratch := rfl
@[simp] theorem setConn_cores (s : State) (c : Nat) (x : Conn) : (s.setConn c x).cores = s.cores := rfl
@[simp] theorem setConn_items (s : State) (c : Nat) (x : Conn) : (s.setConn c x).items = s.items := rfl
@[simp] theorem setConn_nextItem (s : State) (c : Nat) (x : Conn) : (s.setConn c x).nextItem = s.nextItem := rfl
@[simp] theorem setConn_plans (s : State) (c : Nat) (x : Conn) : (s.setConn c x).plans = s.plans := rfl
@[simp] theorem setConn_tiles (s : State) (c : Nat) (x : Conn) : (s.setConn c x).tiles = s.tiles := rfl
@[simp] theorem setConn_mem (s : State) (c : Nat) (x : Conn) : (s.setConn c x).mem = s.mem := rfl
@[simp] theorem setConn_poison (s : State) (c : Nat) (x : Conn) : (s.setConn c x).poison = s.poison := rfl
@[simp] theorem setConn_llc (s : State) (c : Nat) (x : Conn) : (s.setConn c x).llc = s.llc := rfl
@[simp] theorem setConn_plru (s : State) (c : Nat) (x : Conn) : (s.setConn c x).plru = s.plru := rfl
@[simp] theorem setConn_pinUnits (s : State) (c : Nat) (x : Conn) : (s.setConn c x).pinUnits = s.pinUnits := rfl
@[simp] theorem setConn_pinRanges (s : State) (c : Nat) (x : Conn) : (s.setConn c x).pinRanges = s.pinRanges := rfl
@[simp] theorem setConn_pages (s : State) (c : Nat) (x : Conn) : (s.setConn c x).pages = s.pages := rfl
@[simp] theorem setConn_granules (s : State) (c : Nat) (x : Conn) : (s.setConn c x).granules = s.granules := rfl
@[simp] theorem setConn_space (s : State) (c : Nat) (x : Conn) : (s.setConn c x).space = s.space := rfl
@[simp] theorem setConn_zeroQ (s : State) (c : Nat) (x : Conn) : (s.setConn c x).zeroQ = s.zeroQ := rfl
@[simp] theorem setConn_sos (s : State) (c : Nat) (x : Conn) : (s.setConn c x).sos = s.sos := rfl
@[simp] theorem setConn_leases (s : State) (c : Nat) (x : Conn) : (s.setConn c x).leases = s.leases := rfl
@[simp] theorem setConn_err (s : State) (c : Nat) (x : Conn) : (s.setConn c x).err = s.err := rfl
@[simp] theorem setConn_host (s : State) (c : Nat) (x : Conn) : (s.setConn c x).host = s.host := rfl
@[simp] theorem setConn_chans (s : State) (c : Nat) (x : Conn) : (s.setConn c x).chans = s.chans := rfl
@[simp] theorem setConn_rings (s : State) (c : Nat) (x : Conn) : (s.setConn c x).rings = s.rings := rfl
@[simp] theorem setConn_notices (s : State) (c : Nat) (x : Conn) : (s.setConn c x).notices = s.notices := rfl
@[simp] theorem setConn_walks (s : State) (c : Nat) (x : Conn) : (s.setConn c x).walks = s.walks := rfl
@[simp] theorem setConn_streams (s : State) (c : Nat) (x : Conn) : (s.setConn c x).streams = s.streams := rfl
@[simp] theorem setConn_migs (s : State) (c : Nat) (x : Conn) : (s.setConn c x).migs = s.migs := rfl
@[simp] theorem setConn_txq (s : State) (c : Nat) (x : Conn) : (s.setConn c x).txq = s.txq := rfl
@[simp] theorem setConn_rangeWr (s : State) (c : Nat) (x : Conn) : (s.setConn c x).rangeWr = s.rangeWr := rfl
@[simp] theorem setConn_demoting (s : State) (c : Nat) (x : Conn) : (s.setConn c x).demoting = s.demoting := rfl
@[simp] theorem setConn_admits (s : State) (c : Nat) (x : Conn) : (s.setConn c x).admits = s.admits := rfl
@[simp] theorem setConn_slots (s : State) (c : Nat) (x : Conn) : (s.setConn c x).slots = s.slots := rfl
@[simp] theorem setConn_spdm (s : State) (c : Nat) (x : Conn) : (s.setConn c x).spdm = s.spdm := rfl

@[simp] theorem setOcc_pending (s : State) (p t n : Nat) : (s.setOcc p t n).pending = s.pending := rfl
@[simp] theorem setOcc_time (s : State) (p t n : Nat) : (s.setOcc p t n).time = s.time := rfl
@[simp] theorem setOcc_free (s : State) (p t n : Nat) : (s.setOcc p t n).free = s.free := rfl
@[simp] theorem setOcc_out (s : State) (p t n : Nat) : (s.setOcc p t n).out = s.out := rfl
@[simp] theorem setOcc_variant (s : State) (p t n : Nat) : (s.setOcc p t n).variant = s.variant := rfl
@[simp] theorem setOcc_regs (s : State) (p t n : Nat) : (s.setOcc p t n).regs = s.regs := rfl
@[simp] theorem setOcc_frank (s : State) (p t n : Nat) : (s.setOcc p t n).frank = s.frank := rfl
@[simp] theorem setOcc_tally (s : State) (p t n : Nat) : (s.setOcc p t n).tally = s.tally := rfl
@[simp] theorem setOcc_boot (s : State) (p t n : Nat) : (s.setOcc p t n).boot = s.boot := rfl
@[simp] theorem setOcc_pins (s : State) (p t n : Nat) : (s.setOcc p t n).pins = s.pins := rfl
@[simp] theorem setOcc_mcRecord (s : State) (p t n : Nat) : (s.setOcc p t n).mcRecord = s.mcRecord := rfl
@[simp] theorem setOcc_overRun (s : State) (p t n : Nat) : (s.setOcc p t n).overRun = s.overRun := rfl
@[simp] theorem setOcc_overTj (s : State) (p t n : Nat) : (s.setOcc p t n).overTj = s.overTj := rfl
@[simp] theorem setOcc_gregs (s : State) (p t n : Nat) : (s.setOcc p t n).gregs = s.gregs := rfl
@[simp] theorem setOcc_tregs (s : State) (p t n : Nat) : (s.setOcc p t n).tregs = s.tregs := rfl
@[simp] theorem setOcc_pregs (s : State) (p t n : Nat) : (s.setOcc p t n).pregs = s.pregs := rfl
@[simp] theorem setOcc_scratch (s : State) (p t n : Nat) : (s.setOcc p t n).scratch = s.scratch := rfl
@[simp] theorem setOcc_cores (s : State) (p t n : Nat) : (s.setOcc p t n).cores = s.cores := rfl
@[simp] theorem setOcc_items (s : State) (p t n : Nat) : (s.setOcc p t n).items = s.items := rfl
@[simp] theorem setOcc_nextItem (s : State) (p t n : Nat) : (s.setOcc p t n).nextItem = s.nextItem := rfl
@[simp] theorem setOcc_plans (s : State) (p t n : Nat) : (s.setOcc p t n).plans = s.plans := rfl
@[simp] theorem setOcc_tiles (s : State) (p t n : Nat) : (s.setOcc p t n).tiles = s.tiles := rfl
@[simp] theorem setOcc_mem (s : State) (p t n : Nat) : (s.setOcc p t n).mem = s.mem := rfl
@[simp] theorem setOcc_poison (s : State) (p t n : Nat) : (s.setOcc p t n).poison = s.poison := rfl
@[simp] theorem setOcc_llc (s : State) (p t n : Nat) : (s.setOcc p t n).llc = s.llc := rfl
@[simp] theorem setOcc_plru (s : State) (p t n : Nat) : (s.setOcc p t n).plru = s.plru := rfl
@[simp] theorem setOcc_pinUnits (s : State) (p t n : Nat) : (s.setOcc p t n).pinUnits = s.pinUnits := rfl
@[simp] theorem setOcc_pinRanges (s : State) (p t n : Nat) : (s.setOcc p t n).pinRanges = s.pinRanges := rfl
@[simp] theorem setOcc_pages (s : State) (p t n : Nat) : (s.setOcc p t n).pages = s.pages := rfl
@[simp] theorem setOcc_granules (s : State) (p t n : Nat) : (s.setOcc p t n).granules = s.granules := rfl
@[simp] theorem setOcc_space (s : State) (p t n : Nat) : (s.setOcc p t n).space = s.space := rfl
@[simp] theorem setOcc_zeroQ (s : State) (p t n : Nat) : (s.setOcc p t n).zeroQ = s.zeroQ := rfl
@[simp] theorem setOcc_sos (s : State) (p t n : Nat) : (s.setOcc p t n).sos = s.sos := rfl
@[simp] theorem setOcc_leases (s : State) (p t n : Nat) : (s.setOcc p t n).leases = s.leases := rfl
@[simp] theorem setOcc_err (s : State) (p t n : Nat) : (s.setOcc p t n).err = s.err := rfl
@[simp] theorem setOcc_host (s : State) (p t n : Nat) : (s.setOcc p t n).host = s.host := rfl
@[simp] theorem setOcc_chans (s : State) (p t n : Nat) : (s.setOcc p t n).chans = s.chans := rfl
@[simp] theorem setOcc_rings (s : State) (p t n : Nat) : (s.setOcc p t n).rings = s.rings := rfl
@[simp] theorem setOcc_notices (s : State) (p t n : Nat) : (s.setOcc p t n).notices = s.notices := rfl
@[simp] theorem setOcc_walks (s : State) (p t n : Nat) : (s.setOcc p t n).walks = s.walks := rfl
@[simp] theorem setOcc_streams (s : State) (p t n : Nat) : (s.setOcc p t n).streams = s.streams := rfl
@[simp] theorem setOcc_migs (s : State) (p t n : Nat) : (s.setOcc p t n).migs = s.migs := rfl
@[simp] theorem setOcc_eth (s : State) (p t n : Nat) : (s.setOcc p t n).eth = s.eth := rfl
@[simp] theorem setOcc_txq (s : State) (p t n : Nat) : (s.setOcc p t n).txq = s.txq := rfl
@[simp] theorem setOcc_rangeWr (s : State) (p t n : Nat) : (s.setOcc p t n).rangeWr = s.rangeWr := rfl
@[simp] theorem setOcc_demoting (s : State) (p t n : Nat) : (s.setOcc p t n).demoting = s.demoting := rfl
@[simp] theorem setOcc_admits (s : State) (p t n : Nat) : (s.setOcc p t n).admits = s.admits := rfl
@[simp] theorem setOcc_slots (s : State) (p t n : Nat) : (s.setOcc p t n).slots = s.slots := rfl
@[simp] theorem setOcc_spdm (s : State) (p t n : Nat) : (s.setOcc p t n).spdm = s.spdm := rfl

end Sys2Proof.Machine.State
end

