-- ==== Sys2Proof/Laws/Core.lean ====
section
/-! SUPPORT. A Sorter core's registers after each update, what an instruction does once its fetch and guard let it run, and
what taking a trap does. -/

namespace Sys2Proof.Machine

@[simp] theorem State.g_setReg (s : State) (r : Reg) (i : Nat) (w : Word) (c0 r0 : Nat) : (s.setReg r i w).g c0 r0 = s.g c0 r0 := by simp [State.g]
@[simp] theorem State.t_setReg (s : State) (r : Reg) (i : Nat) (w : Word) (c0 r0 : Nat) : (s.setReg r i w).t c0 r0 = s.t c0 r0 := by simp [State.t]
@[simp] theorem State.p_setReg (s : State) (r : Reg) (i : Nat) (w : Word) (c0 r0 : Nat) : (s.setReg r i w).p c0 r0 = s.p c0 r0 := by simp [State.p]
@[simp] theorem State.core_setReg (s : State) (r : Reg) (i : Nat) (w : Word) (c0 : Nat) : (s.setReg r i w).core c0 = s.core c0 := by simp [State.core]
@[simp] theorem State.scratchByte_setReg (s : State) (r : Reg) (i : Nat) (w : Word) (c0 a0 : Nat) : (s.setReg r i w).scratchByte c0 a0 = s.scratchByte c0 a0 := by simp [State.scratchByte]
@[simp] theorem State.plan_setReg (s : State) (r : Reg) (i : Nat) (w : Word) (p0 : Nat) : (s.setReg r i w).plan p0 = s.plan p0 := by simp [State.plan]
@[simp] theorem State.byte_setReg (s : State) (r : Reg) (i : Nat) (w : Word) (k0 : Nat) : (s.setReg r i w).byte k0 = s.byte k0 := by simp [State.byte]
@[simp] theorem State.lease_setReg (s : State) (r : Reg) (i : Nat) (w : Word) (k0 i0 : Nat) : (s.setReg r i w).lease k0 i0 = s.lease k0 i0 := by simp [State.lease]
@[simp] theorem State.soVal_setReg (s : State) (r : Reg) (i : Nat) (w : Word) (n0 : Nat) : (s.setReg r i w).soVal n0 = s.soVal n0 := by simp [State.soVal]

@[simp] theorem State.g_wr (s : State) (f : Fld) (i v : Nat) (c0 r0 : Nat) : (s.wr f i v).g c0 r0 = s.g c0 r0 := by simp [State.g]
@[simp] theorem State.t_wr (s : State) (f : Fld) (i v : Nat) (c0 r0 : Nat) : (s.wr f i v).t c0 r0 = s.t c0 r0 := by simp [State.t]
@[simp] theorem State.p_wr (s : State) (f : Fld) (i v : Nat) (c0 r0 : Nat) : (s.wr f i v).p c0 r0 = s.p c0 r0 := by simp [State.p]
@[simp] theorem State.core_wr (s : State) (f : Fld) (i v : Nat) (c0 : Nat) : (s.wr f i v).core c0 = s.core c0 := by simp [State.core]
@[simp] theorem State.scratchByte_wr (s : State) (f : Fld) (i v : Nat) (c0 a0 : Nat) : (s.wr f i v).scratchByte c0 a0 = s.scratchByte c0 a0 := by simp [State.scratchByte]
@[simp] theorem State.plan_wr (s : State) (f : Fld) (i v : Nat) (p0 : Nat) : (s.wr f i v).plan p0 = s.plan p0 := by simp [State.plan]
@[simp] theorem State.byte_wr (s : State) (f : Fld) (i v : Nat) (k0 : Nat) : (s.wr f i v).byte k0 = s.byte k0 := by simp [State.byte]
@[simp] theorem State.lease_wr (s : State) (f : Fld) (i v : Nat) (k0 i0 : Nat) : (s.wr f i v).lease k0 i0 = s.lease k0 i0 := by simp [State.lease]
@[simp] theorem State.soVal_wr (s : State) (f : Fld) (i v : Nat) (n0 : Nat) : (s.wr f i v).soVal n0 = s.soVal n0 := by simp [State.soVal]

@[simp] theorem State.g_wrb (s : State) (f : Fld) (i : Nat) (v : Bool) (c0 r0 : Nat) : (s.wrb f i v).g c0 r0 = s.g c0 r0 := by simp [State.g]
@[simp] theorem State.t_wrb (s : State) (f : Fld) (i : Nat) (v : Bool) (c0 r0 : Nat) : (s.wrb f i v).t c0 r0 = s.t c0 r0 := by simp [State.t]
@[simp] theorem State.p_wrb (s : State) (f : Fld) (i : Nat) (v : Bool) (c0 r0 : Nat) : (s.wrb f i v).p c0 r0 = s.p c0 r0 := by simp [State.p]
@[simp] theorem State.core_wrb (s : State) (f : Fld) (i : Nat) (v : Bool) (c0 : Nat) : (s.wrb f i v).core c0 = s.core c0 := by simp [State.core]
@[simp] theorem State.scratchByte_wrb (s : State) (f : Fld) (i : Nat) (v : Bool) (c0 a0 : Nat) : (s.wrb f i v).scratchByte c0 a0 = s.scratchByte c0 a0 := by simp [State.scratchByte]
@[simp] theorem State.plan_wrb (s : State) (f : Fld) (i : Nat) (v : Bool) (p0 : Nat) : (s.wrb f i v).plan p0 = s.plan p0 := by simp [State.plan]
@[simp] theorem State.byte_wrb (s : State) (f : Fld) (i : Nat) (v : Bool) (k0 : Nat) : (s.wrb f i v).byte k0 = s.byte k0 := by simp [State.byte]
@[simp] theorem State.lease_wrb (s : State) (f : Fld) (i : Nat) (v : Bool) (k0 i0 : Nat) : (s.wrb f i v).lease k0 i0 = s.lease k0 i0 := by simp [State.lease]
@[simp] theorem State.soVal_wrb (s : State) (f : Fld) (i : Nat) (v : Bool) (n0 : Nat) : (s.wrb f i v).soVal n0 = s.soVal n0 := by simp [State.soVal]

@[simp] theorem State.g_flag (s : State) (f : Fld) (i : Nat) (c0 r0 : Nat) : (s.flag f i).g c0 r0 = s.g c0 r0 := by simp [State.g]
@[simp] theorem State.t_flag (s : State) (f : Fld) (i : Nat) (c0 r0 : Nat) : (s.flag f i).t c0 r0 = s.t c0 r0 := by simp [State.t]
@[simp] theorem State.p_flag (s : State) (f : Fld) (i : Nat) (c0 r0 : Nat) : (s.flag f i).p c0 r0 = s.p c0 r0 := by simp [State.p]
@[simp] theorem State.core_flag (s : State) (f : Fld) (i : Nat) (c0 : Nat) : (s.flag f i).core c0 = s.core c0 := by simp [State.core]
@[simp] theorem State.scratchByte_flag (s : State) (f : Fld) (i : Nat) (c0 a0 : Nat) : (s.flag f i).scratchByte c0 a0 = s.scratchByte c0 a0 := by simp [State.scratchByte]
@[simp] theorem State.plan_flag (s : State) (f : Fld) (i : Nat) (p0 : Nat) : (s.flag f i).plan p0 = s.plan p0 := by simp [State.plan]
@[simp] theorem State.byte_flag (s : State) (f : Fld) (i : Nat) (k0 : Nat) : (s.flag f i).byte k0 = s.byte k0 := by simp [State.byte]
@[simp] theorem State.lease_flag (s : State) (f : Fld) (i : Nat) (k0 i0 : Nat) : (s.flag f i).lease k0 i0 = s.lease k0 i0 := by simp [State.lease]
@[simp] theorem State.soVal_flag (s : State) (f : Fld) (i : Nat) (n0 : Nat) : (s.flag f i).soVal n0 = s.soVal n0 := by simp [State.soVal]

@[simp] theorem State.g_sat (s : State) (f : Fld) (i n : Nat) (c0 r0 : Nat) : (s.sat f i n).g c0 r0 = s.g c0 r0 := by simp [State.g]
@[simp] theorem State.t_sat (s : State) (f : Fld) (i n : Nat) (c0 r0 : Nat) : (s.sat f i n).t c0 r0 = s.t c0 r0 := by simp [State.t]
@[simp] theorem State.p_sat (s : State) (f : Fld) (i n : Nat) (c0 r0 : Nat) : (s.sat f i n).p c0 r0 = s.p c0 r0 := by simp [State.p]
@[simp] theorem State.core_sat (s : State) (f : Fld) (i n : Nat) (c0 : Nat) : (s.sat f i n).core c0 = s.core c0 := by simp [State.core]
@[simp] theorem State.scratchByte_sat (s : State) (f : Fld) (i n : Nat) (c0 a0 : Nat) : (s.sat f i n).scratchByte c0 a0 = s.scratchByte c0 a0 := by simp [State.scratchByte]
@[simp] theorem State.plan_sat (s : State) (f : Fld) (i n : Nat) (p0 : Nat) : (s.sat f i n).plan p0 = s.plan p0 := by simp [State.plan]
@[simp] theorem State.byte_sat (s : State) (f : Fld) (i n : Nat) (k0 : Nat) : (s.sat f i n).byte k0 = s.byte k0 := by simp [State.byte]
@[simp] theorem State.lease_sat (s : State) (f : Fld) (i n : Nat) (k0 i0 : Nat) : (s.sat f i n).lease k0 i0 = s.lease k0 i0 := by simp [State.lease]
@[simp] theorem State.soVal_sat (s : State) (f : Fld) (i n : Nat) (n0 : Nat) : (s.sat f i n).soVal n0 = s.soVal n0 := by simp [State.soVal]

@[simp] theorem State.g_bump (s : State) (f : Fld) (i n : Nat) (c0 r0 : Nat) : (s.bump f i n).g c0 r0 = s.g c0 r0 := by simp [State.g]
@[simp] theorem State.t_bump (s : State) (f : Fld) (i n : Nat) (c0 r0 : Nat) : (s.bump f i n).t c0 r0 = s.t c0 r0 := by simp [State.t]
@[simp] theorem State.p_bump (s : State) (f : Fld) (i n : Nat) (c0 r0 : Nat) : (s.bump f i n).p c0 r0 = s.p c0 r0 := by simp [State.p]
@[simp] theorem State.core_bump (s : State) (f : Fld) (i n : Nat) (c0 : Nat) : (s.bump f i n).core c0 = s.core c0 := by simp [State.core]
@[simp] theorem State.scratchByte_bump (s : State) (f : Fld) (i n : Nat) (c0 a0 : Nat) : (s.bump f i n).scratchByte c0 a0 = s.scratchByte c0 a0 := by simp [State.scratchByte]
@[simp] theorem State.plan_bump (s : State) (f : Fld) (i n : Nat) (p0 : Nat) : (s.bump f i n).plan p0 = s.plan p0 := by simp [State.plan]
@[simp] theorem State.byte_bump (s : State) (f : Fld) (i n : Nat) (k0 : Nat) : (s.bump f i n).byte k0 = s.byte k0 := by simp [State.byte]
@[simp] theorem State.lease_bump (s : State) (f : Fld) (i n : Nat) (k0 i0 : Nat) : (s.bump f i n).lease k0 i0 = s.lease k0 i0 := by simp [State.lease]
@[simp] theorem State.soVal_bump (s : State) (f : Fld) (i n : Nat) (n0 : Nat) : (s.bump f i n).soVal n0 = s.soVal n0 := by simp [State.soVal]

@[simp] theorem State.g_setPc (s : State) (d v : Nat) (c0 r0 : Nat) : (s.setPc d v).g c0 r0 = s.g c0 r0 := by simp [State.g]
@[simp] theorem State.t_setPc (s : State) (d v : Nat) (c0 r0 : Nat) : (s.setPc d v).t c0 r0 = s.t c0 r0 := by simp [State.t]
@[simp] theorem State.p_setPc (s : State) (d v : Nat) (c0 r0 : Nat) : (s.setPc d v).p c0 r0 = s.p c0 r0 := by simp [State.p]
@[simp] theorem State.core_setPc (s : State) (d v : Nat) (c0 : Nat) : (s.setPc d v).core c0 = s.core c0 := by simp [State.core]
@[simp] theorem State.scratchByte_setPc (s : State) (d v : Nat) (c0 a0 : Nat) : (s.setPc d v).scratchByte c0 a0 = s.scratchByte c0 a0 := by simp [State.scratchByte]
@[simp] theorem State.plan_setPc (s : State) (d v : Nat) (p0 : Nat) : (s.setPc d v).plan p0 = s.plan p0 := by simp [State.plan]
@[simp] theorem State.byte_setPc (s : State) (d v : Nat) (k0 : Nat) : (s.setPc d v).byte k0 = s.byte k0 := by simp [State.byte]
@[simp] theorem State.lease_setPc (s : State) (d v : Nat) (k0 i0 : Nat) : (s.setPc d v).lease k0 i0 = s.lease k0 i0 := by simp [State.lease]
@[simp] theorem State.soVal_setPc (s : State) (d v : Nat) (n0 : Nat) : (s.setPc d v).soVal n0 = s.soVal n0 := by simp [State.soVal]

@[simp] theorem State.g_setCoreState (s : State) (d v : Nat) (c0 r0 : Nat) : (s.setCoreState d v).g c0 r0 = s.g c0 r0 := by simp [State.g]
@[simp] theorem State.t_setCoreState (s : State) (d v : Nat) (c0 r0 : Nat) : (s.setCoreState d v).t c0 r0 = s.t c0 r0 := by simp [State.t]
@[simp] theorem State.p_setCoreState (s : State) (d v : Nat) (c0 r0 : Nat) : (s.setCoreState d v).p c0 r0 = s.p c0 r0 := by simp [State.p]
@[simp] theorem State.core_setCoreState (s : State) (d v : Nat) (c0 : Nat) : (s.setCoreState d v).core c0 = s.core c0 := by simp [State.core]
@[simp] theorem State.scratchByte_setCoreState (s : State) (d v : Nat) (c0 a0 : Nat) : (s.setCoreState d v).scratchByte c0 a0 = s.scratchByte c0 a0 := by simp [State.scratchByte]
@[simp] theorem State.plan_setCoreState (s : State) (d v : Nat) (p0 : Nat) : (s.setCoreState d v).plan p0 = s.plan p0 := by simp [State.plan]
@[simp] theorem State.byte_setCoreState (s : State) (d v : Nat) (k0 : Nat) : (s.setCoreState d v).byte k0 = s.byte k0 := by simp [State.byte]
@[simp] theorem State.lease_setCoreState (s : State) (d v : Nat) (k0 i0 : Nat) : (s.setCoreState d v).lease k0 i0 = s.lease k0 i0 := by simp [State.lease]
@[simp] theorem State.soVal_setCoreState (s : State) (d v : Nat) (n0 : Nat) : (s.setCoreState d v).soVal n0 = s.soVal n0 := by simp [State.soVal]

@[simp] theorem State.g_retire (s : State) (d : Nat) (c0 r0 : Nat) : (s.retire d).g c0 r0 = s.g c0 r0 := by simp [State.g]
@[simp] theorem State.t_retire (s : State) (d : Nat) (c0 r0 : Nat) : (s.retire d).t c0 r0 = s.t c0 r0 := by simp [State.t]
@[simp] theorem State.p_retire (s : State) (d : Nat) (c0 r0 : Nat) : (s.retire d).p c0 r0 = s.p c0 r0 := by simp [State.p]
@[simp] theorem State.core_retire (s : State) (d : Nat) (c0 : Nat) : (s.retire d).core c0 = s.core c0 := by simp [State.core]
@[simp] theorem State.scratchByte_retire (s : State) (d : Nat) (c0 a0 : Nat) : (s.retire d).scratchByte c0 a0 = s.scratchByte c0 a0 := by simp [State.scratchByte]
@[simp] theorem State.plan_retire (s : State) (d : Nat) (p0 : Nat) : (s.retire d).plan p0 = s.plan p0 := by simp [State.plan]
@[simp] theorem State.byte_retire (s : State) (d : Nat) (k0 : Nat) : (s.retire d).byte k0 = s.byte k0 := by simp [State.byte]
@[simp] theorem State.lease_retire (s : State) (d : Nat) (k0 i0 : Nat) : (s.retire d).lease k0 i0 = s.lease k0 i0 := by simp [State.lease]
@[simp] theorem State.soVal_retire (s : State) (d : Nat) (n0 : Nat) : (s.retire d).soVal n0 = s.soVal n0 := by simp [State.soVal]

@[simp] theorem State.g_emit (s : State) (m : Msg) (c0 r0 : Nat) : (s.emit m).g c0 r0 = s.g c0 r0 := by simp [State.g]
@[simp] theorem State.t_emit (s : State) (m : Msg) (c0 r0 : Nat) : (s.emit m).t c0 r0 = s.t c0 r0 := by simp [State.t]
@[simp] theorem State.p_emit (s : State) (m : Msg) (c0 r0 : Nat) : (s.emit m).p c0 r0 = s.p c0 r0 := by simp [State.p]
@[simp] theorem State.core_emit (s : State) (m : Msg) (c0 : Nat) : (s.emit m).core c0 = s.core c0 := by simp [State.core]
@[simp] theorem State.scratchByte_emit (s : State) (m : Msg) (c0 a0 : Nat) : (s.emit m).scratchByte c0 a0 = s.scratchByte c0 a0 := by simp [State.scratchByte]
@[simp] theorem State.plan_emit (s : State) (m : Msg) (p0 : Nat) : (s.emit m).plan p0 = s.plan p0 := by simp [State.plan]
@[simp] theorem State.byte_emit (s : State) (m : Msg) (k0 : Nat) : (s.emit m).byte k0 = s.byte k0 := by simp [State.byte]
@[simp] theorem State.lease_emit (s : State) (m : Msg) (k0 i0 : Nat) : (s.emit m).lease k0 i0 = s.lease k0 i0 := by simp [State.lease]
@[simp] theorem State.soVal_emit (s : State) (m : Msg) (n0 : Nat) : (s.emit m).soVal n0 = s.soVal n0 := by simp [State.soVal]

@[simp] theorem State.t_setG (s : State) (d q : Nat) (v : Word) (c0 r0 : Nat) : (s.setG d q v).t c0 r0 = s.t c0 r0 := by simp [State.t]
@[simp] theorem State.p_setG (s : State) (d q : Nat) (v : Word) (c0 r0 : Nat) : (s.setG d q v).p c0 r0 = s.p c0 r0 := by simp [State.p]
@[simp] theorem State.core_setG (s : State) (d q : Nat) (v : Word) (c0 : Nat) : (s.setG d q v).core c0 = s.core c0 := by simp [State.core]
@[simp] theorem State.scratchByte_setG (s : State) (d q : Nat) (v : Word) (c0 a0 : Nat) : (s.setG d q v).scratchByte c0 a0 = s.scratchByte c0 a0 := by simp [State.scratchByte]
@[simp] theorem State.plan_setG (s : State) (d q : Nat) (v : Word) (p0 : Nat) : (s.setG d q v).plan p0 = s.plan p0 := by simp [State.plan]
@[simp] theorem State.byte_setG (s : State) (d q : Nat) (v : Word) (k0 : Nat) : (s.setG d q v).byte k0 = s.byte k0 := by simp [State.byte]
@[simp] theorem State.lease_setG (s : State) (d q : Nat) (v : Word) (k0 i0 : Nat) : (s.setG d q v).lease k0 i0 = s.lease k0 i0 := by simp [State.lease]
@[simp] theorem State.soVal_setG (s : State) (d q : Nat) (v : Word) (n0 : Nat) : (s.setG d q v).soVal n0 = s.soVal n0 := by simp [State.soVal]

@[simp] theorem State.g_setT (s : State) (d q : Nat) (v : Beat) (c0 r0 : Nat) : (s.setT d q v).g c0 r0 = s.g c0 r0 := by simp [State.g]
@[simp] theorem State.p_setT (s : State) (d q : Nat) (v : Beat) (c0 r0 : Nat) : (s.setT d q v).p c0 r0 = s.p c0 r0 := by simp [State.p]
@[simp] theorem State.core_setT (s : State) (d q : Nat) (v : Beat) (c0 : Nat) : (s.setT d q v).core c0 = s.core c0 := by simp [State.core]
@[simp] theorem State.scratchByte_setT (s : State) (d q : Nat) (v : Beat) (c0 a0 : Nat) : (s.setT d q v).scratchByte c0 a0 = s.scratchByte c0 a0 := by simp [State.scratchByte]
@[simp] theorem State.plan_setT (s : State) (d q : Nat) (v : Beat) (p0 : Nat) : (s.setT d q v).plan p0 = s.plan p0 := by simp [State.plan]
@[simp] theorem State.byte_setT (s : State) (d q : Nat) (v : Beat) (k0 : Nat) : (s.setT d q v).byte k0 = s.byte k0 := by simp [State.byte]
@[simp] theorem State.lease_setT (s : State) (d q : Nat) (v : Beat) (k0 i0 : Nat) : (s.setT d q v).lease k0 i0 = s.lease k0 i0 := by simp [State.lease]
@[simp] theorem State.soVal_setT (s : State) (d q : Nat) (v : Beat) (n0 : Nat) : (s.setT d q v).soVal n0 = s.soVal n0 := by simp [State.soVal]

@[simp] theorem State.g_setP (s : State) (d q : Nat) (v : Bool) (c0 r0 : Nat) : (s.setP d q v).g c0 r0 = s.g c0 r0 := by simp [State.g]
@[simp] theorem State.t_setP (s : State) (d q : Nat) (v : Bool) (c0 r0 : Nat) : (s.setP d q v).t c0 r0 = s.t c0 r0 := by simp [State.t]
@[simp] theorem State.core_setP (s : State) (d q : Nat) (v : Bool) (c0 : Nat) : (s.setP d q v).core c0 = s.core c0 := by simp [State.core]
@[simp] theorem State.scratchByte_setP (s : State) (d q : Nat) (v : Bool) (c0 a0 : Nat) : (s.setP d q v).scratchByte c0 a0 = s.scratchByte c0 a0 := by simp [State.scratchByte]
@[simp] theorem State.plan_setP (s : State) (d q : Nat) (v : Bool) (p0 : Nat) : (s.setP d q v).plan p0 = s.plan p0 := by simp [State.plan]
@[simp] theorem State.byte_setP (s : State) (d q : Nat) (v : Bool) (k0 : Nat) : (s.setP d q v).byte k0 = s.byte k0 := by simp [State.byte]
@[simp] theorem State.lease_setP (s : State) (d q : Nat) (v : Bool) (k0 i0 : Nat) : (s.setP d q v).lease k0 i0 = s.lease k0 i0 := by simp [State.lease]
@[simp] theorem State.soVal_setP (s : State) (d q : Nat) (v : Bool) (n0 : Nat) : (s.setP d q v).soVal n0 = s.soVal n0 := by simp [State.soVal]

@[simp] theorem State.g_setCore (s : State) (d : Nat) (x : CoreRec) (c0 r0 : Nat) : (s.setCore d x).g c0 r0 = s.g c0 r0 := by simp [State.g]
@[simp] theorem State.t_setCore (s : State) (d : Nat) (x : CoreRec) (c0 r0 : Nat) : (s.setCore d x).t c0 r0 = s.t c0 r0 := by simp [State.t]
@[simp] theorem State.p_setCore (s : State) (d : Nat) (x : CoreRec) (c0 r0 : Nat) : (s.setCore d x).p c0 r0 = s.p c0 r0 := by simp [State.p]
@[simp] theorem State.scratchByte_setCore (s : State) (d : Nat) (x : CoreRec) (c0 a0 : Nat) : (s.setCore d x).scratchByte c0 a0 = s.scratchByte c0 a0 := by simp [State.scratchByte]
@[simp] theorem State.plan_setCore (s : State) (d : Nat) (x : CoreRec) (p0 : Nat) : (s.setCore d x).plan p0 = s.plan p0 := by simp [State.plan]
@[simp] theorem State.byte_setCore (s : State) (d : Nat) (x : CoreRec) (k0 : Nat) : (s.setCore d x).byte k0 = s.byte k0 := by simp [State.byte]
@[simp] theorem State.lease_setCore (s : State) (d : Nat) (x : CoreRec) (k0 i0 : Nat) : (s.setCore d x).lease k0 i0 = s.lease k0 i0 := by simp [State.lease]
@[simp] theorem State.soVal_setCore (s : State) (d : Nat) (x : CoreRec) (n0 : Nat) : (s.setCore d x).soVal n0 = s.soVal n0 := by simp [State.soVal]

@[simp] theorem State.g_setLease (s : State) (k i : Nat) (l : Lease) (c0 r0 : Nat) : (s.setLease k i l).g c0 r0 = s.g c0 r0 := by simp [State.g]
@[simp] theorem State.t_setLease (s : State) (k i : Nat) (l : Lease) (c0 r0 : Nat) : (s.setLease k i l).t c0 r0 = s.t c0 r0 := by simp [State.t]
@[simp] theorem State.p_setLease (s : State) (k i : Nat) (l : Lease) (c0 r0 : Nat) : (s.setLease k i l).p c0 r0 = s.p c0 r0 := by simp [State.p]
@[simp] theorem State.core_setLease (s : State) (k i : Nat) (l : Lease) (c0 : Nat) : (s.setLease k i l).core c0 = s.core c0 := by simp [State.core]
@[simp] theorem State.scratchByte_setLease (s : State) (k i : Nat) (l : Lease) (c0 a0 : Nat) : (s.setLease k i l).scratchByte c0 a0 = s.scratchByte c0 a0 := by simp [State.scratchByte]
@[simp] theorem State.plan_setLease (s : State) (k i : Nat) (l : Lease) (p0 : Nat) : (s.setLease k i l).plan p0 = s.plan p0 := by simp [State.plan]
@[simp] theorem State.byte_setLease (s : State) (k i : Nat) (l : Lease) (k0 : Nat) : (s.setLease k i l).byte k0 = s.byte k0 := by simp [State.byte]
@[simp] theorem State.soVal_setLease (s : State) (k i : Nat) (l : Lease) (n0 : Nat) : (s.setLease k i l).soVal n0 = s.soVal n0 := by simp [State.soVal]

@[simp] theorem State.g_setPlan (s : State) (p : Nat) (x : PlanState) (c0 r0 : Nat) : (s.setPlan p x).g c0 r0 = s.g c0 r0 := by simp [State.g]
@[simp] theorem State.t_setPlan (s : State) (p : Nat) (x : PlanState) (c0 r0 : Nat) : (s.setPlan p x).t c0 r0 = s.t c0 r0 := by simp [State.t]
@[simp] theorem State.p_setPlan (s : State) (p : Nat) (x : PlanState) (c0 r0 : Nat) : (s.setPlan p x).p c0 r0 = s.p c0 r0 := by simp [State.p]
@[simp] theorem State.core_setPlan (s : State) (p : Nat) (x : PlanState) (c0 : Nat) : (s.setPlan p x).core c0 = s.core c0 := by simp [State.core]
@[simp] theorem State.scratchByte_setPlan (s : State) (p : Nat) (x : PlanState) (c0 a0 : Nat) : (s.setPlan p x).scratchByte c0 a0 = s.scratchByte c0 a0 := by simp [State.scratchByte]
@[simp] theorem State.byte_setPlan (s : State) (p : Nat) (x : PlanState) (k0 : Nat) : (s.setPlan p x).byte k0 = s.byte k0 := by simp [State.byte]
@[simp] theorem State.lease_setPlan (s : State) (p : Nat) (x : PlanState) (k0 i0 : Nat) : (s.setPlan p x).lease k0 i0 = s.lease k0 i0 := by simp [State.lease]
@[simp] theorem State.soVal_setPlan (s : State) (p : Nat) (x : PlanState) (n0 : Nat) : (s.setPlan p x).soVal n0 = s.soVal n0 := by simp [State.soVal]

@[simp] theorem State.g_putItem (s : State) (it : Item) (c0 r0 : Nat) : (s.putItem it).g c0 r0 = s.g c0 r0 := by simp [State.g]
@[simp] theorem State.t_putItem (s : State) (it : Item) (c0 r0 : Nat) : (s.putItem it).t c0 r0 = s.t c0 r0 := by simp [State.t]
@[simp] theorem State.p_putItem (s : State) (it : Item) (c0 r0 : Nat) : (s.putItem it).p c0 r0 = s.p c0 r0 := by simp [State.p]
@[simp] theorem State.core_putItem (s : State) (it : Item) (c0 : Nat) : (s.putItem it).core c0 = s.core c0 := by simp [State.core]
@[simp] theorem State.scratchByte_putItem (s : State) (it : Item) (c0 a0 : Nat) : (s.putItem it).scratchByte c0 a0 = s.scratchByte c0 a0 := by simp [State.scratchByte]
@[simp] theorem State.plan_putItem (s : State) (it : Item) (p0 : Nat) : (s.putItem it).plan p0 = s.plan p0 := by simp [State.plan]
@[simp] theorem State.byte_putItem (s : State) (it : Item) (k0 : Nat) : (s.putItem it).byte k0 = s.byte k0 := by simp [State.byte]
@[simp] theorem State.lease_putItem (s : State) (it : Item) (k0 i0 : Nat) : (s.putItem it).lease k0 i0 = s.lease k0 i0 := by simp [State.lease]
@[simp] theorem State.soVal_putItem (s : State) (it : Item) (n0 : Nat) : (s.putItem it).soVal n0 = s.soVal n0 := by simp [State.soVal]

@[simp] theorem State.reg_emit (s : State) (m : Msg) (r0 : Reg) (i0 : Nat) : (s.emit m).reg r0 i0 = s.reg r0 i0 := by simp [State.reg]
@[simp] theorem State.rd_emit (s : State) (m : Msg) (f0 : Fld) (i0 : Nat) : (s.emit m).rd f0 i0 = s.rd f0 i0 := by simp [State.rd]
@[simp] theorem State.reg_setG (s : State) (d q : Nat) (v : Word) (r0 : Reg) (i0 : Nat) : (s.setG d q v).reg r0 i0 = s.reg r0 i0 := by simp [State.reg]
@[simp] theorem State.rd_setG (s : State) (d q : Nat) (v : Word) (f0 : Fld) (i0 : Nat) : (s.setG d q v).rd f0 i0 = s.rd f0 i0 := by simp [State.rd]
@[simp] theorem State.reg_setT (s : State) (d q : Nat) (v : Beat) (r0 : Reg) (i0 : Nat) : (s.setT d q v).reg r0 i0 = s.reg r0 i0 := by simp [State.reg]
@[simp] theorem State.rd_setT (s : State) (d q : Nat) (v : Beat) (f0 : Fld) (i0 : Nat) : (s.setT d q v).rd f0 i0 = s.rd f0 i0 := by simp [State.rd]
@[simp] theorem State.reg_setP (s : State) (d q : Nat) (v : Bool) (r0 : Reg) (i0 : Nat) : (s.setP d q v).reg r0 i0 = s.reg r0 i0 := by simp [State.reg]
@[simp] theorem State.rd_setP (s : State) (d q : Nat) (v : Bool) (f0 : Fld) (i0 : Nat) : (s.setP d q v).rd f0 i0 = s.rd f0 i0 := by simp [State.rd]
@[simp] theorem State.reg_setCore (s : State) (d : Nat) (x : CoreRec) (r0 : Reg) (i0 : Nat) : (s.setCore d x).reg r0 i0 = s.reg r0 i0 := by simp [State.reg]
@[simp] theorem State.rd_setCore (s : State) (d : Nat) (x : CoreRec) (f0 : Fld) (i0 : Nat) : (s.setCore d x).rd f0 i0 = s.rd f0 i0 := by simp [State.rd]
@[simp] theorem State.reg_setLease (s : State) (k i : Nat) (l : Lease) (r0 : Reg) (i0 : Nat) : (s.setLease k i l).reg r0 i0 = s.reg r0 i0 := by simp [State.reg]
@[simp] theorem State.rd_setLease (s : State) (k i : Nat) (l : Lease) (f0 : Fld) (i0 : Nat) : (s.setLease k i l).rd f0 i0 = s.rd f0 i0 := by simp [State.rd]
@[simp] theorem State.reg_setPlan (s : State) (p : Nat) (x : PlanState) (r0 : Reg) (i0 : Nat) : (s.setPlan p x).reg r0 i0 = s.reg r0 i0 := by simp [State.reg]
@[simp] theorem State.rd_setPlan (s : State) (p : Nat) (x : PlanState) (f0 : Fld) (i0 : Nat) : (s.setPlan p x).rd f0 i0 = s.rd f0 i0 := by simp [State.rd]
@[simp] theorem State.reg_putItem (s : State) (it : Item) (r0 : Reg) (i0 : Nat) : (s.putItem it).reg r0 i0 = s.reg r0 i0 := by simp [State.reg]
@[simp] theorem State.rd_putItem (s : State) (it : Item) (f0 : Fld) (i0 : Nat) : (s.putItem it).rd f0 i0 = s.rd f0 i0 := by simp [State.rd]

@[simp] theorem State.core_setCore_self (s : State) (c : Nat) (x : CoreRec) : (s.setCore c x).core c = x := by
  simp [State.core, State.setCore]

/-- A g register after a write: g0 keeps reading 0 (R127). -/
theorem State.g_setG (s : State) (c r : Nat) (v : Word) {d q : Nat} (hq : q < 32) (hr : r < 32) :
    (s.setG c r v).g d q = if d = c ∧ q = r ∧ r ≠ 0 then v else s.g d q := by
  unfold State.setG State.g
  by_cases h0 : r = 0
  · simp [h0]
  · simp only [h0, if_false, Tab.get_set]
    by_cases hq0 : q = 0
    · simp [hq0]; omega
    · simp only [hq0, if_false]
      by_cases h : d = c ∧ q = r
      · simp [h, h0]
      · rw [if_neg (by omega), if_neg (fun x => h ⟨x.1, x.2.1⟩)]

/-- A t register after a write. -/
theorem State.t_setT (s : State) (c r : Nat) (v : Beat) {d q : Nat} (hq : q < 16) (hr : r < 16) :
    (s.setT c r v).t d q = if d = c ∧ q = r then v else s.t d q := by
  simp only [State.setT, State.t, Tab.get_set]
  by_cases h : d = c ∧ q = r
  · simp [h]
  · rw [if_neg (by omega), if_neg h]

/-- A p register after a write: p0 keeps reading 1 (R127). -/
theorem State.p_setP (s : State) (c r : Nat) (v : Bool) {d q : Nat} (hq : q < 8) (hr : r < 8) :
    (s.setP c r v).p d q = if d = c ∧ q = r ∧ r ≠ 0 then v else s.p d q := by
  unfold State.setP State.p
  by_cases h0 : r = 0
  · simp [h0]
  · simp only [h0, if_false, Tab.get_set]
    by_cases hq0 : q = 0
    · simp [hq0]; omega
    · simp only [hq0, if_false]
      by_cases h : d = c ∧ q = r
      · simp [h, h0]
      · rw [if_neg (by omega), if_neg (fun x => h ⟨x.1, x.2.1⟩)]

/-- An instruction whose fetch and guard let it run does what its body does on the state past the word. -/
theorem State.instr_of_runs {s : State} {c : Nat} {w : Word} {k : Ulital.Kind} {e : CoreErr} (body : State → CRes)
    (h : s.runs c w k e = true) :
    s.instr c w k e body = match body (s.past c) with
      | .trap t => s.takeTrap c t false (s.pc c)
      | .trapIn s2 t => s2.takeTrap c t false (s.pc c)
      | .fatal code v => s.takeFatal c code v
      | .ok s2 => s2.retire c
      | .block s2 => s2 := by
  simp only [State.runs, State.fetches, State.guarded, Bool.and_eq_true, Bool.not_eq_true', beq_iff_eq,
    Option.isNone_iff_eq_none] at h
  obtain ⟨⟨⟨⟨⟨⟨⟨⟨h1, h2⟩, h3⟩, h4⟩, h5⟩, h6⟩, h7⟩, h8⟩, h9⟩ := h
  unfold State.instr
  rw [if_neg (by simp [h1, h2, h3, h4, h5])]
  cases e <;> simp_all [CoreErr.fetchOk, State.past] <;> split <;> simp_all

/-- An instruction whose guard is false only moves past its word and retires (R168). -/
theorem State.instr_of_skip {s : State} {c : Nat} {w : Word} {k : Ulital.Kind} {e : CoreErr} (body : State → CRes)
    (h : s.fetches c w k = true) (he : e.fetchOk = true) (hp : s.pcValid c = true) (hg : s.guarded c w = false)
    (hi : s.imprecise? c = none) : s.instr c w k e body = (s.past c).retire c := by
  simp only [State.fetches, State.guarded, Bool.and_eq_true, Bool.not_eq_true', beq_iff_eq] at h hg
  obtain ⟨⟨⟨⟨h1, h2⟩, h3⟩, h4⟩, h5⟩ := h
  unfold State.instr
  rw [if_neg (by simp [h1, h2, h3, h4, h5])]
  cases e <;> simp_all [CoreErr.fetchOk, State.past]

/-- A PC outside the CODE section traps before anything of the word is looked at (R131). -/
theorem State.instr_of_badPc {s : State} {c : Nat} {w : Word} {k : Ulital.Kind} {e : CoreErr} (body : State → CRes)
    (h : s.fetches c w k = true) (he : e.fetchOk = true) (hp : s.pcValid c = false) :
    s.instr c w k e body = s.takeTrap c (trapFetchRange (s.pc c)) false (s.pc c) := by
  simp only [State.fetches, Bool.and_eq_true, Bool.not_eq_true', beq_iff_eq] at h
  obtain ⟨⟨⟨⟨h1, h2⟩, h3⟩, h4⟩, h5⟩ := h
  unfold State.instr
  rw [if_neg (by simp [h1, h2, h3, h4, h5])]
  cases e <;> simp_all [CoreErr.fetchOk]

/-- A write of one field touches one register instance. -/
theorem regsBut_wr (s : State) (f : Fld) (i v : Nat) (hi : i < 131072) : regsBut s (s.wr f i v) [(f.reg, i)] := by
  intro r j hj hn
  simp only [State.wr]
  exact State.reg_setReg_of_key_ne _ _ (fun e => hn (by simp [(Reg.key_inj hj hi).1 e]))

theorem regsBut_refl (s : State) (l : List (Reg × Nat)) : regsBut s s l := fun _ _ _ _ => rfl

theorem regsBut_trans {s t u : State} {l : List (Reg × Nat)} (h : regsBut s t l) (g : regsBut t u l) : regsBut s u l :=
  fun r i hi hn => (g r i hi hn).trans (h r i hi hn)

theorem regsBut_mono {s t : State} {l m : List (Reg × Nat)} (h : regsBut s t l) (hs : ∀ x ∈ l, x ∈ m) : regsBut s t m :=
  fun r i hi hn => h r i hi (fun hm => hn (hs _ hm))

/-- One more field written inside the listed instances. -/
theorem regsBut_wr_of {s t : State} {l : List (Reg × Nat)} (f : Fld) (i v : Nat) (h : regsBut s t l) (hi : i < 131072)
    (hm : (f.reg, i) ∈ l) : regsBut s (t.wr f i v) l :=
  regsBut_trans h (regsBut_mono (regsBut_wr t f i v hi) (by simpa using hm))

/-- An update that keeps the register file keeps every register. -/
theorem regsBut_of_regs {s t : State} {l : List (Reg × Nat)} (h : t.regs = s.regs) : regsBut s t l := by
  intro r i _ _; simp [State.reg, h]

theorem onlyRegs_refl (s : State) : onlyRegs s s := rfl

theorem onlyRegs_trans {s t u : State} (h : onlyRegs s t) (g : onlyRegs t u) : onlyRegs s u := by
  rw [onlyRegs] at h g ⊢; rw [g, h]

/-- One more field written. -/
theorem onlyRegs_wr_of {s t : State} (f : Fld) (i v : Nat) (h : onlyRegs s t) : onlyRegs s (t.wr f i v) :=
  onlyRegs_trans h rfl

/-- PC and SRT_INSTRET after an instruction that only retires. -/
theorem past_retire (s : State) (c : Nat) (hc : c < 64) :
    onlyRegs s ((s.past c).retire c) ∧ nextPc s ((s.past c).retire c) c ∧ retired s ((s.past c).retire c) c ∧
      coreRegs s ((s.past c).retire c) c [] := by
  refine ⟨rfl, ?_, ?_, ?_⟩
  · simp (disch := first | decide | omega) [nextPc, State.past, State.retire, State.bump, State.setPc, State.pc,
      State.rd_wr_self, State.rd_wr_reg]; rfl
  · simp (disch := first | decide | omega) [retired, State.past, State.retire, State.bump, State.setPc, State.pc,
      State.rd_wr_self, State.rd_wr_reg]; rfl
  · exact regsBut_wr_of _ _ _ (regsBut_wr_of _ _ _ (regsBut_refl _ _) (by omega) (by simp [F.SRT_PC_PC]))
      (by omega) (by simp [F.SRT_INSTRET_COUNT])

theorem nextPc_congr {s t u : State} {c : Nat} (h : nextPc s t c) (e : u.regs = t.regs) : nextPc s u c := by
  simp only [nextPc, State.pc, State.rd, State.reg, e] at h ⊢; exact h

theorem retired_congr {s t u : State} {c : Nat} (h : retired s t c) (e : u.regs = t.regs) : retired s u c := by
  simp only [retired, State.rd, State.reg, e] at h ⊢; exact h

theorem coreRegs_congr {s t u : State} {c : Nat} {l : List Reg} (h : coreRegs s t c l) (e : u.regs = t.regs) :
    coreRegs s u c l := fun r i hi hn => by
  have := h r i hi hn
  simp only [State.reg, e] at this ⊢; exact this

/-- What an instruction that writes one g register and retires leaves. -/
theorem done_setG (s : State) (c r : Nat) (v : Word) (hc : c < 64) (hr : r < 32) :
    onlyG s (((s.past c).setG c r v).retire c) c r v ∧ nextPc s (((s.past c).setG c r v).retire c) c ∧
      retired s (((s.past c).setG c r v).retire c) c ∧ coreRegs s (((s.past c).setG c r v).retire c) c [] := by
  have e : (((s.past c).setG c r v).retire c).regs = ((s.past c).retire c).regs := by
    unfold State.setG; split <;> rfl
  obtain ⟨_, h2, h3, h4⟩ := past_retire s c hc
  refine ⟨⟨?_, ?_⟩, nextPc_congr h2 e, retired_congr h3 e, coreRegs_congr h4 e⟩
  · unfold State.setG; split <;> rfl
  · intro d q hq
    rw [State.g_retire, State.g_setG _ _ _ _ hq hr]
    simp [State.past]

/-- The same for one t register. -/
theorem done_setT (s : State) (c r : Nat) (v : Beat) (hc : c < 64) (hr : r < 16) :
    onlyT s (((s.past c).setT c r v).retire c) c r v ∧ nextPc s (((s.past c).setT c r v).retire c) c ∧
      retired s (((s.past c).setT c r v).retire c) c ∧ coreRegs s (((s.past c).setT c r v).retire c) c [] := by
  have e : (((s.past c).setT c r v).retire c).regs = ((s.past c).retire c).regs := rfl
  obtain ⟨_, h2, h3, h4⟩ := past_retire s c hc
  refine ⟨⟨rfl, ?_⟩, nextPc_congr h2 e, retired_congr h3 e, coreRegs_congr h4 e⟩
  intro d q hq
  rw [State.t_retire, State.t_setT _ _ _ _ hq hr]
  simp [State.past]

/-- The same for one p register. -/
theorem done_setP (s : State) (c r : Nat) (v : Bool) (hc : c < 64) (hr : r < 8) :
    onlyP s (((s.past c).setP c r v).retire c) c r v ∧ nextPc s (((s.past c).setP c r v).retire c) c ∧
      retired s (((s.past c).setP c r v).retire c) c ∧ coreRegs s (((s.past c).setP c r v).retire c) c [] := by
  have e : (((s.past c).setP c r v).retire c).regs = ((s.past c).retire c).regs := by
    unfold State.setP; split <;> rfl
  obtain ⟨_, h2, h3, h4⟩ := past_retire s c hc
  refine ⟨⟨?_, ?_⟩, nextPc_congr h2 e, retired_congr h3 e, coreRegs_congr h4 e⟩
  · unfold State.setP; split <;> rfl
  · intro d q hq
    rw [State.p_retire, State.p_setP _ _ _ _ hq hr]
    simp [State.past]

/-- Taking a trap while a handler is enabled and none runs enters it (R151, R153). -/
theorem takeTrap_handled (s : State) (c : Nat) (x : Trap) (imprecise : Bool) (pc : Nat) (hc : c < 64)
    (h : s.handles c = true) : trapped s (s.takeTrap c x imprecise pc) c x imprecise pc := by
  simp only [State.handles, Bool.and_eq_true, Bool.not_eq_true'] at h
  obtain ⟨h1, h2⟩ := h
  have e : s.takeTrap c x imprecise pc =
      ((((((((s.wr F.SRT_TRAP_CAUSE_CAUSE c x.code).wr F.SRT_TRAP_CAUSE_IMPRECISE c (b2n imprecise)).wr
        F.SRT_TRAP_CAUSE_DETAIL c x.detail).wr F.SRT_TRAP_PC_PC c pc).wr F.SRT_TRAP_VALUE_VALUE c x.value).wr
        F.SRT_STATUS_IN_TRAP c 1).wr F.SRT_PC_PC c (s.rd F.SRT_TRAP_VEC_ADDR c * 8)).wr F.SRT_STATUS_STATE c coreRunning) := by
    unfold State.takeTrap
    rw [if_neg (by simp [h1])]
    simp only [State.rdb, State.wrb, State.setPc, State.setCoreState] at h2 ⊢
    simp (disch := first | decide | omega) only [State.rd_wr_reg]
    rw [if_pos h2]
  rw [e]
  have hv : s.rd F.SRT_TRAP_VEC_ADDR c < 2 ^ 29 := Fld.get_lt _ _
  refine ⟨?_, ?_, ?_, ?_, ?_, ?_, ?_, ?_, ?_, ?_, ?_⟩
  · iterate 8 refine onlyRegs_wr_of _ _ _ ?_
    exact onlyRegs_refl _
  · simp (disch := first | decide | omega) only [State.rd_wr_reg, State.rd_wr_disjoint, State.rd_wr_self]; rfl
  · simp only [State.rdb]
    simp (disch := first | decide | omega) only [State.rd_wr_reg, State.rd_wr_disjoint, State.rd_wr_self]
    cases imprecise <;> rfl
  · simp (disch := first | decide | omega) only [State.rd_wr_reg, State.rd_wr_self]; rfl
  · simp (disch := first | decide | omega) only [State.rd_wr_reg, State.rd_wr_self]; rfl
  · simp (disch := first | decide | omega) only [State.rd_wr_reg, State.rd_wr_self]; rfl
  · simp only [State.rdb]
    simp (disch := first | decide | omega) only [State.rd_wr_reg, State.rd_wr_disjoint, State.rd_wr_self]; rfl
  · simp only [State.pc]
    simp (disch := first | decide | omega) only [State.rd_wr_reg, State.rd_wr_self]
    exact Nat.mod_eq_of_lt (by simp only [F.SRT_PC_PC]; omega)
  · simp only [State.coreState]
    simp (disch := first | decide | omega) only [State.rd_wr_self]; rfl
  · iterate 8 refine regsBut_wr_of _ _ _ ?_ (by omega) (by simp [F.SRT_TRAP_CAUSE_CAUSE, F.SRT_TRAP_CAUSE_IMPRECISE,
        F.SRT_TRAP_CAUSE_DETAIL, F.SRT_TRAP_PC_PC, F.SRT_TRAP_VALUE_VALUE, F.SRT_STATUS_IN_TRAP, F.SRT_PC_PC,
        F.SRT_STATUS_STATE])
    exact regsBut_refl _ _
  · simp only [State.wr]
    repeat rw [State.reg_setReg_of_key_ne _ _ (Reg.key_ne_of_reg (by decide) (by omega) (by omega))]

end Sys2Proof.Machine
end

