-- ==== Sys2Proof/Laws/Frank.lean ====
section
/-! SUPPORT. Every operation of Frank keeps its form (`Frank.Sound`), one lemma per operation. -/

namespace Sys2Proof.Machine

theorem satAdd_lt (a b : Nat) : satAdd 32 a b < 2 ^ 32 := by
  simp only [satAdd]; omega

theorem low_lt (w n : Nat) : low w n < 2 ^ w := Nat.mod_lt _ (Nat.two_pow_pos w)

theorem length_drop_le {α : Type} (l : List α) (n : Nat) : (l.drop (l.length - n)).length ≤ n := by
  simp only [List.length_drop]; omega

theorem Frank.Sound.event {f : Frank} (h : f.Sound) (c : Nat) : (f.event c).Sound :=
  { h with audit := satAdd_lt _ _, log := length_drop_le _ _ }

theorem Frank.Sound.setFlag {f : Frank} (h : f.Sound) (b : Nat) : (f.setFlag b).Sound := ⟨h.ring, h.log, h.audit, h.ignored, h.remainder, h.energy, h.nextSeq, h.logSel, h.msCount,
      h.records, h.banks⟩

theorem Frank.Sound.runFlag {f : Frank} (h : f.Sound) (b c : Nat) : (f.runFlag b c).Sound := by
  unfold Frank.runFlag
  split
  · exact h.setFlag b
  · exact (h.setFlag b).event c

theorem Frank.Sound.ignore {f : Frank} (h : f.Sound) : f.ignore.Sound := { h with ignored := satAdd_lt _ _ }

theorem Frank.Sound.addEnergy {f : Frank} (h : f.Sound) (e : Nat) : (f.addEnergy e).Sound := by
  unfold Frank.addEnergy
  split
  · exact h
  · exact { h with energy := low_lt _ _, remainder := Nat.mod_lt _ (by decide) }

theorem Frank.Sound.addMs {f : Frank} (h : f.Sound) (e : Nat) : (f.addMs e).Sound := by
  unfold Frank.addMs
  have h0 : ({ f with msEnergy := 0, msCount := 0 } : Frank).Sound := { h with msCount := Nat.succ_pos 15 }
  split
  · exact { h with msCount := by assumption }
  · dsimp only
    split <;> split
    · exact (h0.setFlag _).runFlag _ _
    · exact h0.runFlag _ _
    · exact h0.setFlag _
    · exact h0

theorem Frank.Sound.markRead {f : Frank} (h : f.Sound) (n : Nat) : (f.markRead n).Sound :=
  { h with
    ring := by simp only [Frank.markRead, List.length_map]; exact h.ring
    records := by
      intro r hr
      simp only [Frank.markRead, List.mem_map] at hr
      obtain ⟨q, hq, rfl⟩ := hr
      split <;> exact h.records q hq }

theorem Frank.Sound.issue {f : Frank} (h : f.Sound) : f.issue.Sound :=
  { h with
    ring := length_drop_le _ _
    nextSeq := low_lt _ _
    records := by
      intro r hr
      have h1 := List.mem_of_mem_drop hr
      rcases List.mem_append.1 h1 with h2 | h2
      · exact h.records r h2
      · rw [List.mem_singleton.1 h2]
        exact ⟨h.energy, h.nextSeq⟩ }

theorem Frank.Sound.bankRecord {f : Frank} (h : f.Sound) (c n : Nat) :
    (f.bankRecord c n).log.length ≤ 64 ∧ (f.bankRecord c n).audit < 2 ^ 32 ∧ (f.bankRecord c n).ignored < 2 ^ 32 ∧
      (f.bankRecord c n).remainder < 2 ^ 32 ∧ (f.bankRecord c n).energy < 2 ^ 64 ∧ (f.bankRecord c n).nextSeq < 2 ^ 32 :=
  ⟨h.log, h.audit, h.ignored, h.remainder, h.energy, h.nextSeq⟩

theorem Frank.Sound.writeBank {f : Frank} (h : f.Sound) (c : Nat) : (f.writeBank c).Sound := by
  unfold Frank.writeBank
  split
  · exact { h with banks := fun b hb => hb.elim (fun e => by cases e; exact h.bankRecord _ _) (fun e => h.banks b (.inr e)) }
  · exact { h with banks := fun b hb => hb.elim (fun e => h.banks b (.inl e)) (fun e => by cases e; exact h.bankRecord _ _) }
  · exact { h with banks := fun b hb => hb.elim (fun e => by cases e; exact h.bankRecord _ _) (fun e => h.banks b (.inr e)) }

theorem Frank.newest_mem {f : Frank} {one : Bool} {b : FrankBank} (e : f.newest = some (one, b)) :
    f.bankA = some b ∨ f.bankB = some b := by
  have hv : ∀ o x, validBank o = some x → o = some x := by
    intro o x hx
    cases o with
    | none => cases hx
    | some y =>
      simp only [validBank] at hx
      split at hx
      · exact hx
      · cases hx
  unfold Frank.newest at e
  split at e
  · split at e <;> cases e
    · exact .inr (hv _ _ ‹_›)
    · exact .inl (hv _ _ ‹_›)
  · cases e; exact .inl (hv _ _ ‹_›)
  · cases e; exact .inr (hv _ _ ‹_›)
  · cases e

theorem Frank.initial_sound : Frank.initial.Sound :=
  { ring := by decide, log := by decide, audit := by decide, ignored := by decide, remainder := by decide
    energy := by decide, nextSeq := by decide, logSel := by decide, msCount := by decide
    records := by intro r hr; cases hr
    banks := by rintro b (e | e) <;> cases e }

theorem Frank.Sound.powerUp {f : Frank} (h : f.Sound) (n : Nat) (c : Bool) : (f.powerUp n c).Sound := by
  unfold Frank.powerUp
  extract_lets init base oneBad g1 g2
  have hb : base.Sound := { Frank.initial_sound with banks := h.banks }
  have hg : ∀ g : Frank, g.Sound → (if oneBad then g.event 0x03 else g).Sound := by
    intro g k
    split
    · exact k.event _
    · exact k
  have hl : ∀ g : Frank, g.Sound →
      (if c then g else ({ g with sessionFlags := g.sessionFlags ||| flagMeterFail } : Frank).event 0x0B).Sound := by
    intro g k
    split
    · exact k
    · refine Frank.Sound.event ?_ _
      exact ⟨k.ring, k.log, k.audit, k.ignored, k.remainder, k.energy, k.nextSeq, k.logSel, k.msCount,
      k.records, k.banks⟩
  refine hl _ (hg _ ?_)
  clear hl hg
  unfold g1
  split
  · rename_i one b e
    have hm := h.banks b (Frank.newest_mem e)
    dsimp only
    split
    · refine Frank.Sound.event ?_ _
      exact { hb with
        log := hm.1, audit := hm.2.1, ignored := hm.2.2.1, remainder := hm.2.2.2.1, energy := hm.2.2.2.2.1
        nextSeq := hm.2.2.2.2.2 }
    · refine Frank.Sound.event (Frank.Sound.event ?_ _) _
      exact { hb with
        log := hm.1, audit := hm.2.1, ignored := hm.2.2.1, remainder := hm.2.2.2.1, energy := hm.2.2.2.2.1
        nextSeq := low_lt _ _ }
  · refine Frank.Sound.event (Frank.Sound.event ?_ _) _
    exact ⟨hb.ring, hb.log, hb.audit, hb.ignored, hb.remainder, hb.energy, hb.nextSeq, hb.logSel, hb.msCount,
      hb.records, hb.banks⟩

theorem Frank.Sound.tally {f : Frank} (h : f.Sound) (b : List Byte) : (f.tally b).1.Sound := by
  unfold Frank.tally
  split
  · exact h.ignore
  · dsimp only
    split
    · exact h.ignore
    · split
      · refine Frank.Sound.event ?_ _
        exact ⟨h.ring, h.log, h.audit, h.ignored, h.remainder, h.energy, h.nextSeq, h.logSel, h.msCount,
      h.records, h.banks⟩
      · split
        · exact ⟨h.ring, h.log, h.audit, h.ignored, h.remainder, h.energy, h.nextSeq, h.logSel, h.msCount,
      h.records, h.banks⟩
        · split
          · exact h
          · exact h.ignore

theorem Frank.Sound.i3cStore {f : Frank} (h : f.Sound) (a : Nat) (b : Byte) : (f.i3cStore a b).Sound := by
  unfold Frank.i3cStore
  split
  · exact ⟨h.ring, h.log, h.audit, h.ignored, h.remainder, h.energy, h.nextSeq, h.logSel, h.msCount,
      h.records, h.banks⟩
  · split
    · rename_i hb
      exact { h with logSel := hb.2 }
    · exact h

theorem Frank.Sound.i3cStores {f : Frank} (h : f.Sound) (a : Nat) (bs : List Byte) : (f.i3cStores a bs).Sound := by
  induction bs generalizing f a with
  | nil => exact h
  | cons b t ih => exact ih (h.i3cStore a b) (a + 1)

/-- A bank marked as cut short is no worse. -/
theorem Frank.Sound.cutBank {f : Frank} (h : f.Sound) (one : Bool) :
    (if one then { f with bankB := f.bankB.map (fun b => { b with valid := false }) }
      else { f with bankA := f.bankA.map (fun b => { b with valid := false }) } : Frank).Sound := by
  have hm : ∀ (o : Option FrankBank) x, o.map (fun b => { b with valid := false }) = some x →
      ∃ y, o = some y ∧ x = { y with valid := false } := by
    intro o x e
    cases o with
    | none => cases e
    | some y => cases e; exact ⟨y, rfl, rfl⟩
  split
  · refine { h with banks := fun b hb => hb.elim (fun e => h.banks b (.inl e)) (fun e => ?_) }
    obtain ⟨y, hy, rfl⟩ := hm _ _ e
    exact h.banks y (.inr hy)
  · refine { h with banks := fun b hb => hb.elim (fun e => ?_) (fun e => h.banks b (.inr e)) }
    obtain ⟨y, hy, rfl⟩ := hm _ _ e
    exact h.banks y (.inl hy)

theorem Frank.Sound.interval {f : Frank} (h : f.Sound) (rails : List Nat) (a b : Bool) : (f.interval rails a b).Sound := by
  unfold Frank.interval
  have g := (h.addEnergy (rails.foldl (· + ·) 0)).addMs (rails.foldl (· + ·) 0)
  cases a <;> cases b
  · exact (g.setFlag _).runFlag _ _
  · exact g.setFlag _
  · exact g.runFlag _ _
  · exact g

theorem Frank.Sound.second {f : Frank} (h : f.Sound) (b : Bool) : (f.second b).Sound := by
  unfold Frank.second
  have g : ({ f with uptime := low 32 (f.uptime + 1), utcAge := if f.utc = 0 then 0 else low 32 (f.utcAge + 1) } : Frank).Sound :=
    ⟨h.ring, h.log, h.audit, h.ignored, h.remainder, h.energy, h.nextSeq, h.logSel, h.msCount,
    h.records, h.banks⟩
  cases b
  · exact g
  · exact g.runFlag _ _

theorem Frank.Sound.lose {f : Frank} (h : f.Sound) (b : Bool) : (f.lose b).Sound := by
  unfold Frank.lose
  have g : ({ f with powered := false } : Frank).Sound :=
    ⟨h.ring, h.log, h.audit, h.ignored, h.remainder, h.energy, h.nextSeq, h.logSel, h.msCount,
    h.records, h.banks⟩
  dsimp only
  split
  · exact g.cutBank true
  · exact g.cutBank false
  · exact g

theorem State.reset_sound : State.reset.Sound := ⟨rfl, Frank.initial_sound⟩

end Sys2Proof.Machine
end

