-- ==== Sys2Proof/Laws/Mem.lean ====
section
/-! SUPPORT. Laws of the tiers' memory: what a byte reads after a store or a zeroing, and that both keep the one canonical
form. -/

namespace Sys2Proof.Machine

/-- A byte store keeps memory in its canonical form. -/
theorem memSet_wf {m : Tab Byte} (k : Nat) (b : Byte) (h : Memory.wf m) : Memory.wf (Tab.set 0 m k b) :=
  Tab.wf_set (d := fun _ => (0 : Byte)) k b h

/-- A store of bytes keeps memory in its canonical form. -/
theorem memStore_wf {m : Tab Byte} (k : Nat) (bs : List Byte) (h : Memory.wf m) : Memory.wf (memStore m k bs) := by
  induction bs generalizing m k with
  | nil => exact h
  | cons b t ih => exact ih (k + 1) (memSet_wf k b h)

theorem memKeep_wf {m : Tab Byte} (p : Nat → Bool) (h : Memory.wf m) : Memory.wf (Tab.keep p m) := Tab.wf_keep p h

/-- Zeroing a run keeps memory in its canonical form. -/
theorem memZero_wf {m : Tab Byte} (lo hi : Nat) (h : Memory.wf m) : Memory.wf (memZero m lo hi) := memKeep_wf _ h

/-- Dropping the bytes of some addresses keeps memory in its canonical form. -/
theorem memFilter_wf {m : Tab Byte} (p : Nat → Bool) (h : Memory.wf m) : Memory.wf (m.filter (fun e => p e.1)) := by
  rw [← Tab.keep_eq_filter]; exact memKeep_wf p h

/-- A run of stores that each keep the canonical form keeps it. -/
theorem memFold_wf {α : Type} {f : Tab Byte → α → Tab Byte} {m : Tab Byte} (l : List α)
    (hf : ∀ n x, Memory.wf n → Memory.wf (f n x)) (h : Memory.wf m) : Memory.wf (l.foldl f m) := by
  induction l generalizing m with
  | nil => exact h
  | cons x t ih => exact ih (hf m x h)

theorem reset_mem_wf : Memory.wf State.reset.mem := rfl

/-- What a byte reads after a store of bytes. -/
theorem get_memStore (m : Tab Byte) (k : Nat) (bs : List Byte) (j : Nat) :
    Tab.get 0 (memStore m k bs) j = if k ≤ j ∧ j < k + bs.length then bs.getD (j - k) 0 else Tab.get 0 m j := by
  induction bs generalizing m k with
  | nil => simp [memStore]
  | cons b t ih =>
    simp only [memStore, ih, Tab.get_set, List.length_cons]
    by_cases h1 : k + 1 ≤ j ∧ j < k + 1 + t.length
    · rw [if_pos h1, if_pos (by omega)]
      have : j - k = (j - (k + 1)) + 1 := by omega
      rw [this, List.getD_cons_succ]
    · rw [if_neg h1]
      by_cases h2 : j = k
      · subst h2; simp
      · rw [if_neg h2, if_neg (by omega)]

/-- What a byte reads after a run is zeroed. -/
theorem get_memZero (m : Tab Byte) (lo hi j : Nat) :
    Tab.get 0 (memZero m lo hi) j = if lo ≤ j ∧ j < hi then 0 else Tab.get 0 m j := by
  simp only [memZero, Tab.get_keep]
  by_cases h : lo ≤ j ∧ j < hi
  · simp [h]
  · rw [if_neg h, if_pos]
    simp only [Bool.not_eq_true', Bool.and_eq_false_iff, decide_eq_false_iff_not]
    omega

theorem State.length_bytes (s : State) (k n : Nat) : (s.bytes k n).length = n := by
  induction n generalizing k with
  | zero => rfl
  | succ n ih => simp [State.bytes, ih]

theorem State.getD_bytes (s : State) (k n i : Nat) (h : i < n) : (s.bytes k n).getD i 0 = s.byte (k + i) := by
  induction n generalizing k i with
  | zero => omega
  | succ n ih =>
    cases i with
    | zero => simp [State.bytes]
    | succ i =>
      simp only [State.bytes, List.getD_cons_succ]
      rw [ih (k + 1) i (by omega)]
      congr 1; omega

end Sys2Proof.Machine
end

