-- ==== Sys2Proof/Laws/Keeps.lean ====
section
/-! SUPPORT. What every operation keeps: the queue, the variant, the canonical form of memory, and Frank's form. The lemmas
of the operations themselves are in the files after this one, one lemma per operation. -/

namespace Sys2Proof.Machine

/-- From `s` to `t`: memory and Frank keep their form; the variant and the queue are as before. -/
structure Keeps (s t : State) : Prop where
  mem : Memory.wf s.mem → Memory.wf t.mem
  frank : s.frank.Sound → t.frank.Sound
  variant : t.variant = s.variant
  pending : t.pending = s.pending

/-- The next state of an outcome, if it has one, keeps what `Keeps` says. -/
def nextKeeps (s : State) (r : Host.Outcome State Fault Refusal) : Prop := ∀ t, r = .next t → Keeps s t

def optKeeps (s : State) (o : Option State) : Prop := ∀ t, o = some t → Keeps s t

def optpKeeps {α : Type} (s : State) (o : Option (α × State)) : Prop := ∀ a t, o = some (a, t) → Keeps s t

/-- The state an instruction's body leaves keeps what `Keeps` says. -/
def cresKeeps (s : State) (r : CRes) : Prop :=
  ∀ t, (r = .ok t ∨ r = .block t ∨ ∃ x, r = .trapIn t x) → Keeps s t

/-- The state a destination's write leaves keeps what `Keeps` says. -/
def wroteKeeps (s : State) (w : Wrote) : Prop := ∀ t, (w = .ok t ∨ ∃ a b, w = .fault t a b) → Keeps s t

theorem Keeps.refl (s : State) : Keeps s s := ⟨id, id, rfl, rfl⟩

theorem Keeps.trans {s t u : State} (h : Keeps s t) (k : Keeps t u) : Keeps s u :=
  ⟨k.mem ∘ h.mem, k.frank ∘ h.frank, k.variant.trans h.variant, k.pending.trans h.pending⟩

/-- `Keeps s t`, by the four fields of `t` it speaks of. -/
structure KeepsFields (s : State) (m : Tab Byte) (f : Frank) (v : Variant) (q : List Instr) : Prop where
  mem : Memory.wf s.mem → Memory.wf m
  frank : s.frank.Sound → f.Sound
  variant : v = s.variant
  pending : q = s.pending

theorem Keeps.unfold {s t : State} (h : KeepsFields s t.mem t.frank t.variant t.pending) : Keeps s t :=
  ⟨h.mem, h.frank, h.variant, h.pending⟩

/-- After an update of other fields. -/
theorem Keeps.fold {s t : State} (h : Keeps s t) : KeepsFields s t.mem t.frank t.variant t.pending :=
  ⟨h.mem, h.frank, h.variant, h.pending⟩

/-- After an update of memory that keeps its form. -/
theorem Keeps.foldMem {s t : State} {m : Tab Byte} (h : Keeps s t) (k : Memory.wf t.mem → Memory.wf m) :
    KeepsFields s m t.frank t.variant t.pending :=
  ⟨k ∘ h.mem, h.frank, h.variant, h.pending⟩

/-- After an update of Frank that keeps its form. -/
theorem Keeps.foldFrank {s t : State} {f : Frank} (h : Keeps s t) (k : t.frank.Sound → f.Sound) :
    KeepsFields s t.mem f t.variant t.pending :=
  ⟨h.mem, k ∘ h.frank, h.variant, h.pending⟩

theorem Keeps.frankSet {s t : State} {f : Frank} (h : Keeps s t) (k : t.frank.Sound → f.Sound) :
    Keeps s { t with frank := f } := Keeps.unfold (Keeps.foldFrank (t := t) h k)

theorem nextKeeps.next {s t : State} (h : Keeps s t) : nextKeeps s (.next t) := by
  intro u e; cases e; exact h

theorem optKeeps.some {s t : State} (h : Keeps s t) : optKeeps s (some t) := by
  intro u e; cases e; exact h

theorem optKeeps.none {s : State} : optKeeps s none := by intro u e; cases e

theorem optpKeeps.some {α : Type} {s t : State} {a : α} (h : Keeps s t) : optpKeeps s (some (a, t)) := by
  intro b u e; cases e; exact h

theorem optpKeeps.none {α : Type} {s : State} : optpKeeps (α := α) s none := by intro b u e; cases e

theorem optKeeps.orElse {s : State} {o : Option State} {f : Unit → Option State} (h : optKeeps s o) (k : optKeeps s (f ())) :
    optKeeps s (o.orElse f) := by
  cases o with
  | none => exact k
  | some u => exact h

theorem optKeeps.getD {s t : State} {o : Option State} (h : optKeeps s o) (k : Keeps s t) : Keeps s (o.getD t) := by
  cases o with
  | none => exact k
  | some u => exact h u rfl

theorem Keeps.ite {s : State} {c : Prop} [Decidable c] {a b : State} (h : Keeps s a) (k : Keeps s b) :
    Keeps s (if c then a else b) := by
  split
  · exact h
  · exact k

theorem nextKeeps.ite {s : State} {c : Prop} [Decidable c] {a b : Host.Outcome State Fault Refusal} (h : nextKeeps s a) (k : nextKeeps s b) :
    nextKeeps s (if c then a else b) := by
  split
  · exact h
  · exact k

theorem optKeeps.ite {s : State} {c : Prop} [Decidable c] {a b : Option State} (h : optKeeps s a) (k : optKeeps s b) :
    optKeeps s (if c then a else b) := by
  split
  · exact h
  · exact k

theorem cresKeeps.ite {s : State} {c : Prop} [Decidable c] {a b : CRes} (h : cresKeeps s a) (k : cresKeeps s b) :
    cresKeeps s (if c then a else b) := by
  split
  · exact h
  · exact k

theorem wroteKeeps.ite {s : State} {c : Prop} [Decidable c] {a b : Wrote} (h : wroteKeeps s a) (k : wroteKeeps s b) :
    wroteKeeps s (if c then a else b) := by
  split
  · exact h
  · exact k

theorem optpKeeps.ite {α : Type} {s : State} {c : Prop} [Decidable c] {a b : Option (α × State)} (h : optpKeeps s a)
    (k : optpKeeps s b) : optpKeeps s (if c then a else b) := by
  split
  · exact h
  · exact k

theorem Keeps.ite_snd {α : Type} {s : State} {c : Prop} [Decidable c] {a b : α × State} (h : Keeps s a.2)
    (k : Keeps s b.2) : Keeps s (if c then a else b).2 := by
  split
  · exact h
  · exact k

theorem Keeps.ite_snd2 {α β : Type} {s : State} {c : Prop} [Decidable c] {a b : α × β × State} (h : Keeps s a.2.2)
    (k : Keeps s b.2.2) : Keeps s (if c then a else b).2.2 := by
  split
  · exact h
  · exact k

theorem findSome_keeps {α : Type} {s : State} {f : α → Option State} {l : List α} (h : ∀ x, optKeeps s (f x)) :
    optKeeps s (l.findSome? f) := by
  intro t e
  obtain ⟨x, -, hx⟩ := List.exists_of_findSome?_eq_some e
  exact h x t hx

theorem foldl_keeps {α : Type} {s t : State} {g : State → α → State} {l : List α} (h : Keeps s t)
    (hg : ∀ u x, Keeps s u → Keeps s (g u x)) : Keeps s (l.foldl g t) := by
  induction l generalizing t with
  | nil => exact h
  | cons x l ih => exact ih (hg t x h)

theorem foldl_keeps_fst {α β : Type} {s : State} {a : State × β} {g : State × β → α → State × β} {l : List α}
    (h : Keeps s a.1) (hg : ∀ r x, Keeps s r.1 → Keeps s (g r x).1) : Keeps s (l.foldl g a).1 := by
  induction l generalizing a with
  | nil => exact h
  | cons x l ih => exact ih (hg a x h)

theorem foldl_keeps_snd {α β : Type} {s : State} {a : β × State} {g : β × State → α → β × State} {l : List α}
    (h : Keeps s a.2) (hg : ∀ r x, Keeps s r.2 → Keeps s (g r x).2) : Keeps s (l.foldl g a).2 := by
  induction l generalizing a with
  | nil => exact h
  | cons x l ih => exact ih (hg a x h)

theorem foldl_keeps_snd2 {α β γ : Type} {s : State} {a : β × γ × State} {g : β × γ × State → α → β × γ × State} {l : List α}
    (h : Keeps s a.2.2) (hg : ∀ r x, Keeps s r.2.2 → Keeps s (g r x).2.2) : Keeps s (l.foldl g a).2.2 := by
  induction l generalizing a with
  | nil => exact h
  | cons x l ih => exact ih (hg a x h)

/-- The state of a pair that an equation names. -/
theorem Keeps.of_snd {β : Type} {s t : State} {b : β} {x : β × State} (e : x = (b, t)) (h : Keeps s x.2) : Keeps s t := by
  rw [e] at h; exact h

theorem Keeps.of_fst {β : Type} {s t : State} {b : β} {x : State × β} (e : x = (t, b)) (h : Keeps s x.1) : Keeps s t := by
  rw [e] at h; exact h

theorem Keeps.of_snd2 {β γ : Type} {s t : State} {b : β} {c : γ} {x : β × γ × State} (e : x = (b, c, t)) (h : Keeps s x.2.2) :
    Keeps s t := by
  rw [e] at h; exact h

theorem Keeps.of_snd3 {β γ δ : Type} {s t : State} {b : β} {c : γ} {d : δ} {x : β × γ × δ × State} (e : x = (b, c, d, t))
    (h : Keeps s x.2.2.2) : Keeps s t := by
  rw [e] at h; exact h

theorem Keeps.of_opt {s t : State} {x : Option State} (e : x = some t) (h : optKeeps s x) : Keeps s t := h t e

theorem Keeps.of_optp {α : Type} {s t : State} {a : α} {x : Option (α × State)} (e : x = some (a, t)) (h : optpKeeps s x) :
    Keeps s t := h a t e

theorem Keeps.of_wrote {s t : State} {x : Wrote} (e : x = .ok t) (h : wroteKeeps s x) : Keeps s t := h t (.inl e)

theorem Keeps.of_fault {s t : State} {a b : Nat} {x : Wrote} (e : x = .fault t a b) (h : wroteKeeps s x) : Keeps s t :=
  h t (.inr ⟨a, b, e⟩)

theorem wroteKeeps.ok {s t : State} (h : Keeps s t) : wroteKeeps s (.ok t) := by
  rintro u (e | ⟨a, b, e⟩) <;> cases e; exact h

theorem wroteKeeps.fault {s t : State} {a b : Nat} (h : Keeps s t) : wroteKeeps s (.fault t a b) := by
  rintro u (e | ⟨c, d, e⟩) <;> cases e; exact h

theorem Keeps.of_ok {s t : State} {x : CRes} (e : x = .ok t) (h : cresKeeps s x) : Keeps s t := h t (.inl e)

theorem Keeps.of_block {s t : State} {x : CRes} (e : x = .block t) (h : cresKeeps s x) : Keeps s t := h t (.inr (.inl e))

theorem Keeps.of_trapIn {s t : State} {a : Trap} {x : CRes} (e : x = .trapIn t a) (h : cresKeeps s x) : Keeps s t :=
  h t (.inr (.inr ⟨a, e⟩))

theorem cresKeeps.ok {s t : State} (h : Keeps s t) : cresKeeps s (.ok t) := by
  rintro u (e | e | ⟨a, e⟩) <;> cases e; exact h

theorem cresKeeps.block {s t : State} (h : Keeps s t) : cresKeeps s (.block t) := by
  rintro u (e | e | ⟨a, e⟩) <;> cases e; exact h

theorem cresKeeps.trapIn {s t : State} {x : Trap} (h : Keeps s t) : cresKeeps s (.trapIn t x) := by
  rintro u (e | e | ⟨a, e⟩) <;> cases e; exact h

theorem cresKeeps.trap {s : State} {x : Trap} : cresKeeps s (.trap x) := by
  rintro u (e | e | ⟨a, e⟩) <;> cases e

theorem cresKeeps.fatal {s : State} {a b : Nat} : cresKeeps s (.fatal a b) := by
  rintro u (e | e | ⟨c, e⟩) <;> cases e

theorem Keeps.of_next {s t : State} {x : Host.Outcome State Fault Refusal} (e : x = .next t) (h : nextKeeps s x) : Keeps s t :=
  h t e

end Sys2Proof.Machine
end

