-- ==== Sys2Proof/Laws/KeepsOps.lean ====
section
/-! SUPPORT. What the operand, memory, power, TALLY and tile operations keep: memory in its
canonical form, the TALLY unit sound, the variant and the queue of commands (`Keeps`).
One lemma an operation, cited by its callers, so no proof unfolds an operation twice. -/

namespace Sys2Proof.Machine

open Ulital

/-! ### Operands -/

theorem State.setReg_keeps {s0 s : State} {a1 : Reg} {a2 : ℕ} {a3 : Word} (k : Keeps s0 s) :
    Keeps s0 (State.setReg s a1 a2 a3) := by
  unfold State.setReg
  with_reducible repeat' first
    | assumption | fail_if_no_progress (refine Keeps.unfold ?_; dsimp only; refine Keeps.fold ?_)

theorem State.wr_keeps {s0 s : State} {a1 : Fld} {a2 : ℕ} {a3 : ℕ} (k : Keeps s0 s) :
    Keeps s0 (State.wr s a1 a2 a3) := by
  unfold State.wr
  with_reducible repeat' first
    | assumption | refine State.setReg_keeps ?_

theorem State.wrb_keeps {s0 s : State} {a1 : Fld} {a2 : ℕ} {a3 : Bool} (k : Keeps s0 s) :
    Keeps s0 (State.wrb s a1 a2 a3) := by
  unfold State.wrb
  with_reducible repeat' first
    | assumption | refine State.wr_keeps ?_

/-! ### Flags -/

theorem State.bump_keeps {s0 s : State} {a1 : Fld} {a2 : ℕ} {a3 : ℕ} (k : Keeps s0 s) :
    Keeps s0 (State.bump s a1 a2 a3) := by
  unfold State.bump
  with_reducible repeat' first
    | assumption | refine State.wr_keeps ?_

theorem State.flag_keeps {s0 s : State} {a1 : Fld} {a2 : ℕ} (k : Keeps s0 s) :
    Keeps s0 (State.flag s a1 a2) := by
  unfold State.flag
  with_reducible repeat' first
    | assumption | refine State.wr_keeps ?_

theorem State.sat_keeps {s0 s : State} {a1 : Fld} {a2 : ℕ} {a3 : ℕ} (k : Keeps s0 s) :
    Keeps s0 (State.sat s a1 a2 a3) := by
  unfold State.sat
  with_reducible repeat' first
    | assumption | refine State.wr_keeps ?_

/-! ### Ops -/

theorem State.emit_keeps {s0 s : State} {a1 : Msg} (k : Keeps s0 s) :
    Keeps s0 (State.emit s a1) := by
  unfold State.emit
  with_reducible repeat' first
    | assumption | fail_if_no_progress (refine Keeps.unfold ?_; dsimp only; refine Keeps.fold ?_)

theorem State.partReg_keeps {s0 s : State} {a1 : Reg} {a2 : ℕ} (k : Keeps s0 s) :
    Keeps s0 (State.partReg s a1 a2) := by
  unfold State.partReg
  with_reducible repeat' first
    | assumption | refine State.setReg_keeps ?_

theorem State.live_keeps {s0 s : State} {a1 : State → State} (k : Keeps s0 s) (h1 : ∀ x0, Keeps s0 x0 → Keeps s0 (a1 x0)) :
    Keeps s0 (State.live s a1) := by
  unfold State.live
  with_reducible repeat' first
    | assumption | refine h1 _ ?_ | refine Keeps.ite ?_ ?_

theorem State.freeWord_keeps {s0 s : State}  (k : Keeps s0 s) :
    Keeps s0 (State.freeWord s).2 := by
  unfold State.freeWord
  with_reducible repeat' first
    | assumption | dsimp only | fail_if_no_progress (refine Keeps.unfold ?_; dsimp only; refine Keeps.fold ?_)

/-! ### Mem -/

theorem State.evictLines_keeps {s0 s : State} {a1 : ℕ} {a2 : ℕ} (k : Keeps s0 s) :
    Keeps s0 (State.evictLines s a1 a2) := by
  unfold State.evictLines
  with_reducible repeat' first
    | assumption | refine foldl_keeps ?_ (fun _ _ _ => ?_)
    | fail_if_no_progress (refine Keeps.unfold ?_; dsimp only; refine Keeps.fold ?_)

theorem State.dropSectors_keeps {s0 s : State} {a1 : ℕ} {a2 : ℕ} (k : Keeps s0 s) :
    Keeps s0 (State.dropSectors s a1 a2) := by
  unfold State.dropSectors
  with_reducible repeat' first
    | assumption | refine foldl_keeps ?_ (fun _ _ _ => ?_) | dsimp only | refine Keeps.ite ?_ ?_
    | (refine Keeps.unfold ?_; dsimp only; refine Keeps.foldMem ?_ (fun h => ?_)) | refine memStore_wf _ _ ?_
    | refine memFold_wf _ (fun _ _ _ => ?_) ?_ | split

theorem State.touch_keeps {s0 s : State} {a1 : ℕ} {a2 : ℕ} (k : Keeps s0 s) :
    Keeps s0 (State.touch s a1 a2) := by
  unfold State.touch
  with_reducible repeat' first
    | assumption | fail_if_no_progress (refine Keeps.unfold ?_; dsimp only; refine Keeps.fold ?_)

theorem State.dropLine_keeps {s0 s : State} {a1 : ℕ} (k : Keeps s0 s) :
    Keeps s0 (State.dropLine s a1) := by
  unfold State.dropLine
  with_reducible repeat' first
    | assumption | dsimp only | (refine Keeps.unfold ?_; dsimp only; refine Keeps.foldMem ?_ (fun h => ?_))
    | refine memStore_wf _ _ ?_ | refine memFold_wf _ (fun _ _ _ => ?_) ?_ | split

theorem State.zeroHome_keeps {s0 s : State} {a1 : ℕ} {a2 : ℕ} (k : Keeps s0 s) :
    Keeps s0 (State.zeroHome s a1 a2) := by
  unfold State.zeroHome
  with_reducible repeat' first
    | assumption | (refine Keeps.unfold ?_; dsimp only; refine Keeps.foldMem ?_ (fun h => ?_))
    | refine memZero_wf _ _ ?_

theorem State.setPoison_keeps {s0 s : State} {a1 : ℕ} {a2 : Bool} (k : Keeps s0 s) :
    Keeps s0 (State.setPoison s a1 a2) := by
  unfold State.setPoison
  with_reducible repeat' first
    | assumption | fail_if_no_progress (refine Keeps.unfold ?_; dsimp only; refine Keeps.fold ?_)

theorem State.putSector_keeps {s0 s : State} {a1 : ℕ} {a2 : ℕ} {a3 : ℕ} {a4 : Sector} (k : Keeps s0 s) :
    Keeps s0 (State.putSector s a1 a2 a3 a4) := by
  unfold State.putSector
  with_reducible repeat' first
    | assumption | refine State.touch_keeps ?_
    | fail_if_no_progress (refine Keeps.unfold ?_; dsimp only; refine Keeps.fold ?_)

theorem State.writeBack_keeps {s0 s : State} {a1 : ℕ} {a2 : ℕ} {a3 : Sector} (k : Keeps s0 s) :
    Keeps s0 (State.writeBack s a1 a2 a3) := by
  unfold State.writeBack
  with_reducible repeat' first
    | assumption | refine State.bump_keeps ?_ | refine State.setPoison_keeps ?_ | refine Keeps.ite ?_ ?_
    | (refine Keeps.unfold ?_; dsimp only; refine Keeps.foldMem ?_ (fun h => ?_)) | refine memStore_wf _ _ ?_

theorem State.writeBackLine_keeps {s0 s : State} {a1 : ℕ} {a2 : Line} (k : Keeps s0 s) :
    Keeps s0 (State.writeBackLine s a1 a2) := by
  unfold State.writeBackLine
  with_reducible repeat' first
    | assumption | refine State.writeBack_keeps ?_ | refine foldl_keeps ?_ (fun _ _ _ => ?_)

theorem State.dropPartLines_keeps {s0 s : State} {a1 : ℕ} (k : Keeps s0 s) :
    Keeps s0 (State.dropPartLines s a1) := by
  unfold State.dropPartLines
  with_reducible repeat' first
    | assumption | refine State.dropLine_keeps ?_ | refine foldl_keeps ?_ (fun _ _ _ => ?_)

theorem State.flushLines_keeps {s0 s : State} {a1 : ℕ} {a2 : ℕ} (k : Keeps s0 s) :
    Keeps s0 (State.flushLines s a1 a2) := by
  unfold State.flushLines
  with_reducible repeat' first
    | assumption | refine State.writeBackLine_keeps ?_ | refine foldl_keeps ?_ (fun _ _ _ => ?_) | dsimp only
    | refine Keeps.ite ?_ ?_ | fail_if_no_progress (refine Keeps.unfold ?_; dsimp only; refine Keeps.fold ?_) | split

theorem State.llcVictim_keeps {s0 s : State} {a1 : ℕ} (k : Keeps s0 s) :
    optpKeeps s0 (State.llcVictim s a1) := by
  unfold State.llcVictim
  with_reducible repeat' first
    | assumption | refine State.writeBackLine_keeps ?_ | refine optpKeeps.some ?_ | exact optpKeeps.none | dsimp only
    | refine optpKeeps.ite ?_ ?_ | fail_if_no_progress (refine Keeps.unfold ?_; dsimp only; refine Keeps.fold ?_)
    | split

theorem State.readSector_keeps {s0 s : State} {a1 : Alloc} {a2 : ℕ} {a3 : ℕ} {a4 : ℕ} (k : Keeps s0 s) :
    Keeps s0 (State.readSector s a1 a2 a3 a4).2 := by
  unfold State.readSector
  with_reducible repeat' first
    | assumption | refine State.bump_keeps ?_ | refine State.touch_keeps ?_ | refine State.putSector_keeps ?_
    | refine Keeps.of_optp (by assumption) (State.llcVictim_keeps ?_) | dsimp only | refine Keeps.ite_snd ?_ ?_
    | split

theorem State.writeSector_keeps {s0 s : State} {a1 : Alloc} {a2 : ℕ} {a3 : ℕ} {a4 : List Byte} (k : Keeps s0 s) :
    Keeps s0 (State.writeSector s a1 a2 a3 a4) := by
  unfold State.writeSector
  with_reducible repeat' first
    | assumption | refine State.setPoison_keeps ?_ | refine State.putSector_keeps ?_
    | refine Keeps.of_optp (by assumption) (State.llcVictim_keeps ?_) | dsimp only | refine Keeps.ite ?_ ?_
    | (refine Keeps.unfold ?_; dsimp only; refine Keeps.foldMem ?_ (fun h => ?_)) | refine memStore_wf _ _ ?_ | split

theorem State.physRead_keeps {s0 s : State} {a1 : Alloc} {a2 : ℕ} {a3 : ℕ} {a4 : ℕ} (k : Keeps s0 s) :
    Keeps s0 (State.physRead s a1 a2 a3 a4).2.2 := by
  unfold State.physRead
  with_reducible repeat' first
    | assumption | refine State.readSector_keeps ?_ | refine foldl_keeps_snd ?_ (fun _ _ _ => ?_) | dsimp only
    | split

theorem State.physWrite_keeps {s0 s : State} {a1 : Alloc} {a2 : ℕ} {a3 : ℕ} {a4 : List Byte} (k : Keeps s0 s) :
    Keeps s0 (State.physWrite s a1 a2 a3 a4) := by
  unfold State.physWrite
  with_reducible repeat' first
    | assumption | refine State.writeSector_keeps ?_ | refine State.setPoison_keeps ?_
    | refine foldl_keeps ?_ (fun _ _ _ => ?_) | dsimp only | refine Keeps.ite ?_ ?_
    | (refine Keeps.unfold ?_; dsimp only; refine Keeps.foldMem ?_ (fun h => ?_)) | refine memStore_wf _ _ ?_

/-! ### Space -/

theorem State.setOcc_keeps {s0 s : State} {a1 : ℕ} {a2 : ℕ} {a3 : ℕ} (k : Keeps s0 s) :
    Keeps s0 (State.setOcc s a1 a2 a3) := by
  unfold State.setOcc
  with_reducible repeat' first
    | assumption | fail_if_no_progress (refine Keeps.unfold ?_; dsimp only; refine Keeps.fold ?_)

theorem State.reserve_keeps {s0 s : State} {a1 : ℕ} {a2 : Home} {a3 : ℕ} {a4 : ℕ} {a5 : ℕ} {a6 : OwnKind} (k : Keeps s0 s) :
    optpKeeps s0 (State.reserve s a1 a2 a3 a4 a5 a6) := by
  unfold State.reserve
  with_reducible repeat' first
    | assumption | refine State.setOcc_keeps ?_ | refine optpKeeps.some ?_ | exact optpKeeps.none | dsimp only
    | refine optpKeeps.ite ?_ ?_ | fail_if_no_progress (refine Keeps.unfold ?_; dsimp only; refine Keeps.fold ?_)
    | split

theorem State.uncharge_keeps {s0 s : State} {a1 : ℕ} {a2 : ℕ} {a3 : ℕ} (k : Keeps s0 s) :
    Keeps s0 (State.uncharge s a1 a2 a3) := by
  unfold State.uncharge
  with_reducible repeat' first
    | assumption | refine State.setOcc_keeps ?_

theorem State.setMoorState_keeps {s0 s : State} {a1 : ℕ} {a2 : ℕ} (k : Keeps s0 s) :
    Keeps s0 (State.setMoorState s a1 a2) := by
  unfold State.setMoorState
  with_reducible repeat' first
    | assumption | refine State.wr_keeps ?_

theorem State.freeRun_keeps {s0 s : State} {a1 : ℕ} {a2 : ZeroWhy} (k : Keeps s0 s) :
    Keeps s0 (State.freeRun s a1 a2) := by
  unfold State.freeRun
  with_reducible repeat' first
    | assumption | refine State.dropSectors_keeps ?_ | dsimp only | refine Keeps.ite ?_ ?_
    | fail_if_no_progress (refine Keeps.unfold ?_; dsimp only; refine Keeps.fold ?_) | split

theorem State.trimRun_keeps {s0 s : State} {a1 : ℕ} {a2 : ℕ} (k : Keeps s0 s) :
    Keeps s0 (State.trimRun s a1 a2) := by
  unfold State.trimRun
  with_reducible repeat' first
    | assumption | refine State.dropSectors_keeps ?_ | dsimp only | refine Keeps.ite ?_ ?_
    | fail_if_no_progress (refine Keeps.unfold ?_; dsimp only; refine Keeps.fold ?_) | split

theorem State.setHeathState_keeps {s0 s : State} {a1 : ℕ} {a2 : ℕ} (k : Keeps s0 s) :
    Keeps s0 (State.setHeathState s a1 a2) := by
  unfold State.setHeathState
  with_reducible repeat' first
    | assumption | refine State.wr_keeps ?_

/-! ### CoreBase -/

theorem State.setP_keeps {s0 s : State} {a1 : ℕ} {a2 : ℕ} {a3 : Bool} (k : Keeps s0 s) :
    Keeps s0 (State.setP s a1 a2 a3) := by
  unfold State.setP
  with_reducible repeat' first
    | assumption | refine Keeps.ite ?_ ?_
    | fail_if_no_progress (refine Keeps.unfold ?_; dsimp only; refine Keeps.fold ?_)

theorem State.setCore_keeps {s0 s : State} {a1 : ℕ} {a2 : CoreRec} (k : Keeps s0 s) :
    Keeps s0 (State.setCore s a1 a2) := by
  unfold State.setCore
  with_reducible repeat' first
    | assumption | fail_if_no_progress (refine Keeps.unfold ?_; dsimp only; refine Keeps.fold ?_)

theorem State.zeroScratch_keeps {s0 s : State} {a1 : ℕ} (k : Keeps s0 s) :
    Keeps s0 (State.zeroScratch s a1) := by
  unfold State.zeroScratch
  with_reducible repeat' first
    | assumption | fail_if_no_progress (refine Keeps.unfold ?_; dsimp only; refine Keeps.fold ?_)

theorem State.clearCore_keeps {s0 s : State} {a1 : ℕ} (k : Keeps s0 s) :
    Keeps s0 (State.clearCore s a1) := by
  unfold State.clearCore
  with_reducible repeat' first
    | assumption | refine State.setReg_keeps ?_ | refine foldl_keeps ?_ (fun _ _ _ => ?_) | dsimp only
    | fail_if_no_progress (refine Keeps.unfold ?_; dsimp only; refine Keeps.fold ?_)

theorem State.setT_keeps {s0 s : State} {a1 : ℕ} {a2 : ℕ} {a3 : Beat} (k : Keeps s0 s) :
    Keeps s0 (State.setT s a1 a2 a3) := by
  unfold State.setT
  with_reducible repeat' first
    | assumption | fail_if_no_progress (refine Keeps.unfold ?_; dsimp only; refine Keeps.fold ?_)

theorem State.setG_keeps {s0 s : State} {a1 : ℕ} {a2 : ℕ} {a3 : Word} (k : Keeps s0 s) :
    Keeps s0 (State.setG s a1 a2 a3) := by
  unfold State.setG
  with_reducible repeat' first
    | assumption | refine Keeps.ite ?_ ?_
    | fail_if_no_progress (refine Keeps.unfold ?_; dsimp only; refine Keeps.fold ?_)

theorem State.scratchWrite_keeps {s0 s : State} {a1 : ℕ} {a2 : ℕ} {a3 : List Byte} (k : Keeps s0 s) :
    Keeps s0 (State.scratchWrite s a1 a2 a3) := by
  induction a3 generalizing s a1 a2 with
  | nil =>
    unfold State.scratchWrite
    with_reducible repeat' first
      | assumption
  | cons x l ih =>
    unfold State.scratchWrite
    with_reducible repeat' first
      | refine ih ?_
      | assumption | fail_if_no_progress (refine Keeps.unfold ?_; dsimp only; refine Keeps.fold ?_)

theorem State.writeSlot_keeps {s0 s : State} {a1 : ℕ} {a2 : ℕ} {a3 : ℕ} {a4 : ℕ} {a5 : ℕ} {a6 : ℕ} {a7 : ℕ} (k : Keeps s0 s) :
    Keeps s0 (State.writeSlot s a1 a2 a3 a4 a5 a6 a7) := by
  unfold State.writeSlot
  with_reducible repeat' first
    | assumption | refine State.scratchWrite_keeps ?_ | refine State.wr_keeps ?_ | dsimp only
    | refine Keeps.ite ?_ ?_

theorem State.setPc_keeps {s0 s : State} {a1 : ℕ} {a2 : ℕ} (k : Keeps s0 s) :
    Keeps s0 (State.setPc s a1 a2) := by
  unfold State.setPc
  with_reducible repeat' first
    | assumption | refine State.wr_keeps ?_

theorem State.setCoreState_keeps {s0 s : State} {a1 : ℕ} {a2 : ℕ} (k : Keeps s0 s) :
    Keeps s0 (State.setCoreState s a1 a2) := by
  unfold State.setCoreState
  with_reducible repeat' first
    | assumption | refine State.wr_keeps ?_

theorem State.haltCore_keeps {s0 s : State} {a1 : ℕ} {a2 : ℕ} (k : Keeps s0 s) :
    Keeps s0 (State.haltCore s a1 a2) := by
  unfold State.haltCore
  with_reducible repeat' first
    | assumption | refine State.wr_keeps ?_ | refine State.setCoreState_keeps ?_ | refine State.setCore_keeps ?_

/-! ### Base -/

theorem State.advanceEpochs_keeps {s0 s : State} {a1 : ℕ} (k : Keeps s0 s) :
    Keeps s0 (State.advanceEpochs s a1) := by
  unfold State.advanceEpochs
  with_reducible repeat' first
    | assumption | fail_if_no_progress (refine Keeps.unfold ?_; dsimp only; refine Keeps.fold ?_)

theorem State.setPlan_keeps {s0 s : State} {a1 : ℕ} {a2 : PlanState} (k : Keeps s0 s) :
    Keeps s0 (State.setPlan s a1 a2) := by
  unfold State.setPlan
  with_reducible repeat' first
    | assumption | fail_if_no_progress (refine Keeps.unfold ?_; dsimp only; refine Keeps.fold ?_)

theorem State.setPba_keeps {s0 s : State} {a1 : ℕ} {a2 : ℕ} {a3 : Bool} (k : Keeps s0 s) :
    Keeps s0 (State.setPba s a1 a2 a3) := by
  unfold State.setPba
  with_reducible repeat' first
    | assumption | dsimp only | fail_if_no_progress (refine Keeps.unfold ?_; dsimp only; refine Keeps.fold ?_)

theorem State.setLease_keeps {s0 s : State} {a1 : ℕ} {a2 : ℕ} {a3 : Lease} (k : Keeps s0 s) :
    Keeps s0 (State.setLease s a1 a2 a3) := by
  unfold State.setLease
  with_reducible repeat' first
    | assumption | fail_if_no_progress (refine Keeps.unfold ?_; dsimp only; refine Keeps.fold ?_)

theorem State.putDls_keeps {s0 s : State} {a1 : ℕ} {a2 : ℕ} {a3 : List Byte} (k : Keeps s0 s) :
    Keeps s0 (State.putDls s a1 a2 a3) := by
  unfold State.putDls
  with_reducible repeat' first
    | assumption | refine State.setReg_keeps ?_ | refine foldl_keeps ?_ (fun _ _ _ => ?_)

theorem State.setHeld_keeps {s0 s : State} {a1 : ℕ} {a2 : List Held} (k : Keeps s0 s) :
    Keeps s0 (State.setHeld s a1 a2) := by
  unfold State.setHeld
  with_reducible repeat' first
    | assumption | refine State.wr_keeps ?_ | dsimp only
    | fail_if_no_progress (refine Keeps.unfold ?_; dsimp only; refine Keeps.fold ?_)

theorem State.grantLease_keeps {s0 s : State} {a1 : ℕ} {a2 : ℕ} {a3 : ℕ} (k : Keeps s0 s) :
    Keeps s0 (State.grantLease s a1 a2 a3) := by
  unfold State.grantLease
  with_reducible repeat' first
    | assumption | refine State.setLease_keeps ?_

theorem State.countUe_keeps {s0 s : State} {a1 : ℕ} {a2 : ℕ} (k : Keeps s0 s) :
    Keeps s0 (State.countUe s a1 a2) := by
  unfold State.countUe
  with_reducible repeat' first
    | assumption | refine State.flag_keeps ?_ | refine State.sat_keeps ?_ | refine State.wr_keeps ?_ | dsimp only
    | refine Keeps.ite ?_ ?_

theorem State.msix_keeps {s0 s : State} {a1 : ℕ} {a2 : ℕ} (k : Keeps s0 s) :
    Keeps s0 (State.msix s a1 a2) := by
  unfold State.msix
  with_reducible repeat' first
    | assumption | refine State.setPba_keeps ?_ | refine State.emit_keeps ?_ | refine State.setHeld_keeps ?_
    | refine State.flag_keeps ?_ | dsimp only | refine Keeps.ite ?_ ?_

theorem State.epochDrop_keeps {s0 s : State} {a1 : ℕ} (k : Keeps s0 s) :
    Keeps s0 (State.epochDrop s a1) := by
  unfold State.epochDrop
  with_reducible repeat' first
    | assumption | refine State.sat_keeps ?_

theorem State.irq_keeps {s0 s : State} {a1 : ℕ} {a2 : ℕ} (k : Keeps s0 s) :
    Keeps s0 (State.irq s a1 a2) := by
  unfold State.irq
  with_reducible repeat' first
    | assumption | refine State.msix_keeps ?_ | refine Keeps.ite ?_ ?_

theorem State.deadLetter_keeps {s0 s : State} {a1 : ℕ} {a2 : Dead} (k : Keeps s0 s) :
    Keeps s0 (State.deadLetter s a1 a2) := by
  unfold State.deadLetter
  with_reducible repeat' first
    | assumption | refine State.flag_keeps ?_ | refine State.sat_keeps ?_ | refine State.putDls_keeps ?_
    | refine State.irq_keeps ?_ | refine State.wr_keeps ?_ | dsimp only | refine Keeps.ite ?_ ?_

theorem State.dtuFault_keeps {s0 s : State} {a1 : ℕ} {a2 : ℕ} {a3 : ℕ} {a4 : ℕ} {a5 : Bool} (k : Keeps s0 s) :
    Keeps s0 (State.dtuFault s a1 a2 a3 a4 a5) := by
  unfold State.dtuFault
  with_reducible repeat' first
    | assumption | refine State.sat_keeps ?_ | refine State.wr_keeps ?_ | refine State.wrb_keeps ?_
    | refine State.irq_keeps ?_ | dsimp only | refine Keeps.ite ?_ ?_

/-! ### Power -/

theorem execPwrbrkRise_keeps {s0 s : State}  (k : Keeps s0 s) :
    nextKeeps s0 (execPwrbrkRise s) := by
  unfold execPwrbrkRise
  with_reducible repeat' first
    | assumption | refine nextKeeps.next ?_ | dsimp only
    | fail_if_no_progress (refine Keeps.unfold ?_; dsimp only; refine Keeps.fold ?_)

theorem State.hold_keeps {s0 s : State}  (k : Keeps s0 s) :
    Keeps s0 (State.hold s) := by
  unfold State.hold
  with_reducible repeat' first
    | assumption | dsimp only | fail_if_no_progress (refine Keeps.unfold ?_; dsimp only; refine Keeps.fold ?_)

theorem State.thermAlert_keeps {s0 s : State}  (k : Keeps s0 s) :
    Keeps s0 (State.thermAlert s) := by
  unfold State.thermAlert
  with_reducible repeat' first
    | assumption | dsimp only | fail_if_no_progress (refine Keeps.unfold ?_; dsimp only; refine Keeps.fold ?_)

theorem State.tripCheck_keeps {s0 s : State} {a1 : List (Option ℕ)} {a2 : List (Option ℕ)} (k : Keeps s0 s) :
    Keeps s0 (State.tripCheck s a1 a2) := by
  unfold State.tripCheck
  with_reducible repeat' first
    | assumption | refine State.hold_keeps ?_ | dsimp only | refine Keeps.ite ?_ ?_
    | fail_if_no_progress (refine Keeps.unfold ?_; dsimp only; refine Keeps.fold ?_)

theorem State.sampleRails_keeps {s0 s : State} {a1 : ℕ} {a2 : List ℕ} (k : Keeps s0 s) :
    Keeps s0 (State.sampleRails s a1 a2) := by
  induction a2 generalizing s a1 with
  | nil =>
    unfold State.sampleRails
    with_reducible repeat' first
      | assumption
  | cons x l ih =>
    unfold State.sampleRails
    with_reducible repeat' first
      | refine ih ?_
      | assumption | refine State.wr_keeps ?_ | refine Keeps.ite ?_ ?_

theorem execClockLoss_keeps {s0 s : State} {a0 : Bool} (k : Keeps s0 s) :
    nextKeeps s0 (execClockLoss a0 s) := by
  unfold execClockLoss
  with_reducible repeat' first
    | assumption | refine State.live_keeps ?_ (fun _ _ => ?_) | refine State.hold_keeps ?_ | refine nextKeeps.next ?_
    | dsimp only | refine Keeps.ite ?_ ?_
    | fail_if_no_progress (refine Keeps.unfold ?_; dsimp only; refine Keeps.fold ?_)

theorem State.sampleTemps_keeps {s0 s : State} {a1 : Fld} {a2 : Fld} {a3 : ℕ → Bool} {a4 : List (Option ℕ)} {a5 : ℕ} (k : Keeps s0 s) :
    Keeps s0 (State.sampleTemps s a1 a2 a3 a4 a5) := by
  induction a5 generalizing s a1 a2 a3 a4 with
  | zero =>
    unfold State.sampleTemps
    with_reducible repeat' first
      | assumption
  | succ n ih =>
    unfold State.sampleTemps
    with_reducible repeat' first
      | refine ih ?_
      | assumption | refine State.wr_keeps ?_ | dsimp only | refine Keeps.ite ?_ ?_

theorem execPwrbrkFall_keeps {s0 s : State}  (k : Keeps s0 s) :
    nextKeeps s0 (execPwrbrkFall s) := by
  unfold execPwrbrkFall
  with_reducible repeat' first
    | assumption | refine State.live_keeps ?_ (fun _ _ => ?_) | refine State.thermAlert_keeps ?_
    | refine State.flag_keeps ?_ | refine State.wr_keeps ?_ | refine nextKeeps.next ?_ | dsimp only
    | fail_if_no_progress (refine Keeps.unfold ?_; dsimp only; refine Keeps.fold ?_)

theorem execThrottleTick_keeps {s0 s : State}  (k : Keeps s0 s) :
    nextKeeps s0 (execThrottleTick s) := by
  unfold execThrottleTick
  with_reducible repeat' first
    | assumption | refine State.live_keeps ?_ (fun _ _ => ?_) | refine State.wr_keeps ?_ | refine State.flag_keeps ?_
    | refine State.sat_keeps ?_ | refine State.thermAlert_keeps ?_ | refine nextKeeps.next ?_
    | refine Keeps.ite ?_ ?_ | fail_if_no_progress (refine Keeps.unfold ?_; dsimp only; refine Keeps.fold ?_)

theorem execSensorSample_keeps {s0 s : State} {a0 : List (Option ℕ)} {a1 : List (Option ℕ)} {a2 : ℕ} {a3 : List ℕ} (k : Keeps s0 s) :
    nextKeeps s0 (execSensorSample a0 a1 a2 a3 s) := by
  unfold execSensorSample
  with_reducible repeat' first
    | assumption | refine State.live_keeps ?_ (fun _ _ => ?_) | refine State.sampleTemps_keeps ?_
    | refine State.wr_keeps ?_ | refine State.sampleRails_keeps ?_ | refine State.tripCheck_keeps ?_
    | refine nextKeeps.next ?_

/-! ### FrankOps -/

theorem State.tallyTms_keeps {s0 s : State}  (k : Keeps s0 s) :
    Keeps s0 (State.tallyTms s) := by
  unfold State.tallyTms
  with_reducible repeat' first
    | assumption | dsimp only | fail_if_no_progress (refine Keeps.unfold ?_; dsimp only; refine Keeps.fold ?_)

theorem State.count_keeps {s0 s : State} {a1 : ℕ} {a2 : ℕ} {a3 : ℕ} (k : Keeps s0 s) :
    Keeps s0 (State.count s a1 a2 a3) := by
  unfold State.count
  with_reducible repeat' first
    | assumption | refine Keeps.ite ?_ ?_
    | fail_if_no_progress (refine Keeps.unfold ?_; dsimp only; refine Keeps.fold ?_)

theorem State.frkBuf_keeps {s0 s : State} {a1 : ℕ} {a2 : ℕ} {a3 : List Byte} (k : Keeps s0 s) :
    Keeps s0 (State.frkBuf s a1 a2 a3) := by
  induction a1 generalizing s a2 a3 with
  | zero =>
    unfold State.frkBuf
    with_reducible repeat' first
      | assumption
  | succ n ih =>
    unfold State.frkBuf
    with_reducible repeat' first
      | refine ih ?_
      | assumption | refine State.setReg_keeps ?_

theorem State.tallyAck_keeps {s0 s : State} {a1 : ℕ} (k : Keeps s0 s) :
    Keeps s0 (State.tallyAck s a1) := by
  unfold State.tallyAck
  with_reducible repeat' first
    | assumption | refine State.wr_keeps ?_ | dsimp only | refine Keeps.ite ?_ ?_
    | fail_if_no_progress (refine Keeps.unfold ?_; dsimp only; refine Keeps.fold ?_) | split

theorem State.shares_keeps {s0 s : State} {a1 : FrankRecord} {a2 : FrankRecord} (k : Keeps s0 s) :
    Keeps s0 (State.shares s a1 a2) := by
  unfold State.shares
  with_reducible repeat' first
    | assumption | refine State.bump_keeps ?_ | refine foldl_keeps_fst ?_ (fun _ _ _ => ?_) | dsimp only
    | refine Keeps.ite ?_ ?_

theorem State.tallySend_keeps {s0 s : State}  (k : Keeps s0 s) :
    Keeps s0 (State.tallySend s) := by
  unfold State.tallySend
  with_reducible repeat' first
    | assumption | refine State.wr_keeps ?_ | refine State.emit_keeps ?_ | dsimp only | refine Keeps.ite ?_ ?_
    | fail_if_no_progress (refine Keeps.unfold ?_; dsimp only; refine Keeps.fold ?_) | split

theorem State.noteRecord_keeps {s0 s : State} {a1 : FrankRecord} (k : Keeps s0 s) :
    Keeps s0 (State.noteRecord s a1) := by
  unfold State.noteRecord
  with_reducible repeat' first
    | assumption | refine State.shares_keeps ?_ | dsimp only | refine Keeps.ite ?_ ?_
    | fail_if_no_progress (refine Keeps.unfold ?_; dsimp only; refine Keeps.fold ?_) | split

theorem State.finalFrame_keeps {s0 s : State}  (k : Keeps s0 s) :
    Keeps s0 (State.finalFrame s) := by
  unfold State.finalFrame
  with_reducible repeat' first
    | assumption | refine State.tallySend_keeps ?_ | refine State.tallyTms_keeps ?_ | refine Keeps.ite ?_ ?_

theorem State.frkEnd_keeps {s0 s : State} {a1 : ℕ} {a2 : List Byte} (k : Keeps s0 s) :
    Keeps s0 (State.frkEnd s a1 a2) := by
  unfold State.frkEnd
  with_reducible repeat' first
    | assumption | refine State.frkBuf_keeps ?_ | refine State.wr_keeps ?_ | refine State.flag_keeps ?_

theorem State.frkCommand_keeps {s0 s : State} {op arg8 : Nat} {arg64 : Word}
    {serve : Frank → Frank × Option (Nat × List Byte)} (k : Keeps s0 s) (hs : ∀ f : Frank, f.Sound → (serve f).1.Sound) :
    Keeps s0 (s.frkCommand op arg8 arg64 serve) := by
  unfold State.frkCommand
  split
  · exact k
  · split
    · exact State.flag_keeps k
    · extract_lets s1 s2
      have h2 : Keeps s0 s2 := State.flag_keeps (State.setReg_keeps (State.wr_keeps (State.wr_keeps k)))
      split
      · exact State.frkEnd_keeps h2
      · have h3 : Keeps s0 { s2 with frank := (serve s2.frank).1 } :=
          Keeps.frankSet h2 (fun h => hs _ h)
        dsimp only
        split
        · exact State.frkEnd_keeps (State.emit_keeps h3)
        · exact h3


/-! ### FrankCmd -/

theorem execTallyGap_keeps {s0 s : State} (k : Keeps s0 s) : nextKeeps s0 (execTallyGap s) := by
  unfold execTallyGap
  refine nextKeeps.next ?_
  split
  · refine Keeps.frankSet k (fun h => ?_)
    have g := (h.event 0x06).setFlag flagTallyDown
    exact ⟨g.ring, g.log, g.audit, g.ignored, g.remainder, g.energy, g.nextSeq, g.logSel,
      g.msCount, g.records, g.banks⟩
  · exact k


theorem execPeriodicBankWrite_keeps {s0 s : State} (k : Keeps s0 s) : nextKeeps s0 (execPeriodicBankWrite s) := by
  unfold execPeriodicBankWrite
  refine nextKeeps.next ?_
  split
  · exact Keeps.frankSet k (fun h => h.writeBank 1)
  · exact k


theorem execFrankPwrfailFall_keeps {s0 s : State} (k : Keeps s0 s) : nextKeeps s0 (execFrankPwrfailFall s) := by
  unfold execFrankPwrfailFall
  refine nextKeeps.next ?_
  split
  · refine Keeps.unfold (Keeps.foldFrank (t := s) k (fun h => ?_))
    have g := h.writeBank 2
    exact ⟨g.ring, g.log, g.audit, g.ignored, g.remainder, g.energy, g.nextSeq, g.logSel,
      g.msCount, g.records, g.banks⟩
  · exact Keeps.unfold (Keeps.fold (t := s) k)


theorem execP0PowerLoss_keeps {s0 s : State}  (k : Keeps s0 s) :
    nextKeeps s0 (execP0PowerLoss s) := by
  unfold execP0PowerLoss
  with_reducible repeat' first
    | assumption | refine State.setReg_keeps ?_ | refine nextKeeps.next ?_ | dsimp only | refine Keeps.ite ?_ ?_
    | fail_if_no_progress (refine Keeps.unfold ?_; dsimp only; refine Keeps.fold ?_)

theorem execI3cPrivateWrite_keeps {s0 s : State} {bytes : List Byte} (k : Keeps s0 s) : nextKeeps s0 (execI3cPrivateWrite bytes s) := by
  unfold execI3cPrivateWrite
  refine nextKeeps.next ?_
  split
  · refine Keeps.frankSet k (fun h => ?_)
    have g := h.i3cStores (fieldAt bytes 0 2) (bytes.drop 2)
    exact ⟨g.ring, g.log, g.audit, g.ignored, g.remainder, g.energy, g.nextSeq, g.logSel,
      g.msCount, g.records, g.banks⟩
  · exact k


theorem execI3cTimeout_keeps {s0 s : State}  (k : Keeps s0 s) :
    nextKeeps s0 (execI3cTimeout s) := by
  unfold execI3cTimeout
  with_reducible repeat' first
    | assumption | refine nextKeeps.next ?_

theorem execImpulse_keeps {s0 s : State} (k : Keeps s0 s) : nextKeeps s0 (execImpulse s) := by
  unfold execImpulse
  refine nextKeeps.next ?_
  split
  · refine State.emit_keeps (Keeps.frankSet k (fun h => ?_))
    exact ⟨h.ring, h.log, h.audit, h.ignored, h.remainder, h.energy, h.nextSeq, h.logSel,
      h.msCount, h.records, h.banks⟩
  · exact k


theorem execFrankPowerUp_keeps {s0 s : State} {calOk : Bool} (k : Keeps s0 s) :
    nextKeeps s0 (execFrankPowerUp calOk s) := by
  unfold execFrankPowerUp
  refine nextKeeps.next ?_
  split
  · exact k
  · exact Keeps.unfold (Keeps.foldFrank (t := s) k (fun h => h.powerUp _ _))


theorem execSampleInterval_keeps {s0 s : State} {rails : List Nat} {refOk selfOk : Bool} (k : Keeps s0 s) : nextKeeps s0 (execSampleInterval rails refOk selfOk s) := by
  unfold execSampleInterval
  refine nextKeeps.next ?_
  split
  · exact Keeps.frankSet k (fun h => h.interval _ _ _)
  · exact k


theorem execSnapshot_keeps {s0 s : State} {clockFault : Bool} (k : Keeps s0 s) :
    nextKeeps s0 (execSnapshot clockFault s) := by
  unfold execSnapshot
  refine nextKeeps.next ?_
  split
  · dsimp only
    split
    · exact Keeps.frankSet k (fun h => h.second _)
    · split
      · exact State.emit_keeps (Keeps.frankSet k (fun h => (h.second _).issue))
      · exact Keeps.frankSet k (fun h => (h.second _).issue)
  · exact k


theorem execFrankRecordsResume_keeps {s0 s : State} (k : Keeps s0 s) : nextKeeps s0 (execFrankRecordsResume s) := by
  unfold execFrankRecordsResume
  refine nextKeeps.next ?_
  split
  · refine Keeps.frankSet k (fun h => ?_)
    have g := h
    exact ⟨g.ring, g.log, g.audit, g.ignored, g.remainder, g.energy, g.nextSeq, g.logSel,
      g.msCount, g.records, g.banks⟩
  · exact k


theorem execPwrfailBankRepeat_keeps {s0 s : State} (k : Keeps s0 s) : nextKeeps s0 (execPwrfailBankRepeat s) := by
  unfold execPwrfailBankRepeat
  refine nextKeeps.next ?_
  split
  · exact Keeps.frankSet k (fun h => h.writeBank 2)
  · exact k


theorem execI3cPrivateRead_keeps {s0 s : State} {count : Nat} (k : Keeps s0 s) :
    nextKeeps s0 (execI3cPrivateRead count s) := by
  unfold execI3cPrivateRead
  refine nextKeeps.next ?_
  split
  · extract_lets p bs last f
    have g1 : s.frank.Sound → f.Sound := by
      intro h
      unfold f
      split
      · exact h.markRead _
      · exact h
    refine State.emit_keeps (Keeps.frankSet k (fun h => ?_))
    have g := g1 h
    exact ⟨g.ring, g.log, g.audit, g.ignored, g.remainder, g.energy, g.nextSeq, g.logSel,
      g.msCount, g.records, g.banks⟩
  · exact k


theorem execI3cCcc_keeps {s0 s : State} {ccc : I3cCcc} (k : Keeps s0 s) : nextKeeps s0 (execI3cCcc ccc s) := by
  have hd : ∀ a, s.frank.Sound → (({ s.frank with dynAddr := a } : Frank).event 0x0A).Sound := by
    intro a h
    refine Frank.Sound.event ?_ _
    exact ⟨h.ring, h.log, h.audit, h.ignored, h.remainder, h.energy, h.nextSeq, h.logSel,
      h.msCount, h.records, h.banks⟩
  have hi : ∀ b, s.frank.Sound → ({ s.frank with ibi := b } : Frank).Sound := by
    intro b h
    exact ⟨h.ring, h.log, h.audit, h.ignored, h.remainder, h.energy, h.nextSeq, h.logSel,
      h.msCount, h.records, h.banks⟩
  unfold execI3cCcc
  refine nextKeeps.next ?_
  split
  · split
    · exact Keeps.frankSet k (hd _)
    · exact Keeps.frankSet k (hd _)
    · split
      · exact Keeps.frankSet k (hd _)
      · exact k
    · exact Keeps.frankSet k (hi _)
    · exact Keeps.frankSet k (hi _)
    · exact State.emit_keeps (State.freeWord_keeps k)
  · exact k


theorem execFrankLinkUp_keeps {s0 s : State}  (k : Keeps s0 s) :
    nextKeeps s0 (execFrankLinkUp s) := by
  unfold execFrankLinkUp
  with_reducible repeat' first
    | assumption | refine State.wr_keeps ?_ | refine nextKeeps.next ?_ | refine Keeps.ite ?_ ?_

theorem execVddFrkLoss_keeps {s0 s : State} {midWrite : Bool} (k : Keeps s0 s) :
    nextKeeps s0 (execVddFrkLoss midWrite s) := by
  unfold execVddFrkLoss
  refine nextKeeps.next ?_
  split
  · exact State.wr_keeps (Keeps.frankSet k (fun h => h.lose _))
  · exact k


theorem execTally_keeps {s0 s : State} {frame : List Byte} (k : Keeps s0 s) : nextKeeps s0 (execTally frame s) := by
  have h : s.frank.Sound → (s.frank.tally frame).1.Sound := fun h => h.tally frame
  unfold execTally
  refine nextKeeps.next ?_
  split
  · split
    · rename_i f e
      rw [e] at h
      exact Keeps.frankSet k h
    · rename_i f r e
      rw [e] at h
      extract_lets seq t
      have h3 : Keeps s0 t := State.tallyAck_keeps (State.emit_keeps (Keeps.frankSet k h))
      split
      · exact State.tallySend_keeps h3
      · exact h3
  · exact k


theorem execTallyTick_keeps {s0 s : State}  (k : Keeps s0 s) :
    nextKeeps s0 (execTallyTick s) := by
  unfold execTallyTick
  with_reducible repeat' first
    | assumption | refine State.tallySend_keeps ?_ | refine State.tallyTms_keeps ?_ | refine nextKeeps.next ?_
    | refine Keeps.ite ?_ ?_

theorem execTallyAckTimeout_keeps {s0 s : State}  (k : Keeps s0 s) :
    nextKeeps s0 (execTallyAckTimeout s) := by
  unfold execTallyAckTimeout
  with_reducible repeat' first
    | assumption | refine State.sat_keeps ?_ | refine State.emit_keeps ?_ | refine nextKeeps.next ?_ | dsimp only
    | refine Keeps.ite ?_ ?_ | split

theorem execFrkCmdTimeout_keeps {s0 s : State}  (k : Keeps s0 s) :
    nextKeeps s0 (execFrkCmdTimeout s) := by
  unfold execFrkCmdTimeout
  with_reducible repeat' first
    | assumption | refine State.frkEnd_keeps ?_ | refine nextKeeps.next ?_ | refine Keeps.ite ?_ ?_

theorem execFrankLinkDown_keeps {s0 s : State}  (k : Keeps s0 s) :
    nextKeeps s0 (execFrankLinkDown s) := by
  unfold execFrankLinkDown
  with_reducible repeat' first
    | assumption | refine State.wr_keeps ?_ | refine State.frkEnd_keeps ?_ | refine nextKeeps.next ?_
    | refine Keeps.ite ?_ ?_

theorem execReadInfo_keeps {s0 s : State} {select : BitVec 8} (k : Keeps s0 s) :
    nextKeeps s0 (execReadInfo select s) := by
  refine nextKeeps.next (State.frkCommand_keeps k (fun f h => ?_))
  split
  · exact h
  · exact h
  · exact h
  · exact h
  · exact h.ignore


theorem execReadRecord_keeps {s0 s : State} {seq : BitVec 32} (k : Keeps s0 s) :
    nextKeeps s0 (execReadRecord seq s) := by
  unfold execReadRecord
  extract_lets t served
  have h : Keeps s0 t := State.frkCommand_keeps k (fun f h => by
    split
    · exact h.markRead _
    · exact h)
  clear_value t
  refine nextKeeps.next ?_
  split
  · split
    · exact State.noteRecord_keeps h
    · exact h
  · exact h


theorem execBind_keeps {s0 s : State} {partition : Nat} {tenant : Word} (k : Keeps s0 s) :
    nextKeeps s0 (execBind partition tenant s) := by
  refine nextKeeps.next (State.frkCommand_keeps k (fun f h => ?_))
  split
  · exact ⟨h.ring, h.log, h.audit, h.ignored, h.remainder, h.energy, h.nextSeq, h.logSel, h.msCount, h.records, h.banks⟩
  · exact h.ignore


theorem execReadLog_keeps {s0 s : State} {index : BitVec 8} (k : Keeps s0 s) :
    nextKeeps s0 (execReadLog index s) := by
  refine nextKeeps.next (State.frkCommand_keeps k (fun f h => ?_))
  split
  · exact h
  · exact h.ignore


theorem execTimeref_keeps {s0 s : State} {utc : Word} (k : Keeps s0 s) : nextKeeps s0 (execTimeref utc s) :=
  nextKeeps.next (State.frkCommand_keeps k (fun _ h =>
    ⟨h.ring, h.log, h.audit, h.ignored, h.remainder, h.energy, h.nextSeq, h.logSel, h.msCount, h.records, h.banks⟩))


/-! ### Tiles -/

theorem State.setTile_keeps {s0 s : State} {a1 : ℕ} {a2 : ℕ} {a3 : ℕ} {a4 : TileRec} (k : Keeps s0 s) :
    Keeps s0 (State.setTile s a1 a2 a3 a4) := by
  unfold State.setTile
  with_reducible repeat' first
    | assumption | fail_if_no_progress (refine Keeps.unfold ?_; dsimp only; refine Keeps.fold ?_)

theorem State.freeTile_keeps {s0 s : State} {a1 : ℕ} {a2 : TileRec} {a3 : ZeroWhy} (k : Keeps s0 s) :
    Keeps s0 (State.freeTile s a1 a2 a3) := by
  unfold State.freeTile
  with_reducible repeat' first
    | assumption | refine State.freeRun_keeps ?_ | refine State.uncharge_keeps ?_ | refine Keeps.ite ?_ ?_

/-! ### Vm -/

theorem State.putGranule_keeps {s0 s : State} {a1 : ℕ} {a2 : ℕ} {a3 : Granule} (k : Keeps s0 s) :
    Keeps s0 (State.putGranule s a1 a2 a3) := by
  unfold State.putGranule
  with_reducible repeat' first
    | assumption | fail_if_no_progress (refine Keeps.unfold ?_; dsimp only; refine Keeps.fold ?_)

theorem State.putPage_keeps {s0 s : State} {a1 : ℕ} {a2 : ℕ} {a3 : PageEnt} (k : Keeps s0 s) :
    Keeps s0 (State.putPage s a1 a2 a3) := by
  unfold State.putPage
  with_reducible repeat' first
    | assumption | fail_if_no_progress (refine Keeps.unfold ?_; dsimp only; refine Keeps.fold ?_)

theorem State.unzero_keeps {s0 s : State} {a1 : ℕ} {a2 : ℕ} (k : Keeps s0 s) :
    Keeps s0 (State.unzero s a1 a2) := by
  unfold State.unzero
  with_reducible repeat' first
    | assumption | refine State.putGranule_keeps ?_ | refine State.zeroHome_keeps ?_ | refine Keeps.ite ?_ ?_ | split

theorem State.granRead_keeps {s0 s : State} {a1 : Alloc} {a2 : ℕ} {a3 : ℕ} {a4 : ℕ} (k : Keeps s0 s) :
    Keeps s0 (State.granRead s a1 a2 a3 a4).2.2 := by
  unfold State.granRead
  with_reducible repeat' first
    | assumption | refine State.physRead_keeps ?_ | dsimp only | refine Keeps.ite_snd2 ?_ ?_ | split

theorem State.vwrite_keeps {s0 s : State} {a1 : Alloc} {a2 : ℕ} {a3 : ℕ} {a4 : List Byte} (k : Keeps s0 s) :
    Keeps s0 (State.vwrite s a1 a2 a3 a4) := by
  unfold State.vwrite
  with_reducible repeat' first
    | assumption | refine State.unzero_keeps ?_ | refine State.physWrite_keeps ?_
    | refine foldl_keeps ?_ (fun _ _ _ => ?_)

theorem State.vread_keeps {s0 s : State} {a1 : Alloc} {a2 : ℕ} {a3 : ℕ} {a4 : ℕ} (k : Keeps s0 s) :
    Keeps s0 (State.vread s a1 a2 a3 a4).2.2 := by
  unfold State.vread
  with_reducible repeat' first
    | assumption | refine State.granRead_keeps ?_ | refine foldl_keeps_snd2 ?_ (fun _ _ _ => ?_)

/-! ### Sync -/

theorem State.releaseGates_keeps {s0 s : State} {a1 : ℕ} {a2 : Word} (k : Keeps s0 s) :
    Keeps s0 (State.releaseGates s a1 a2) := by
  unfold State.releaseGates
  with_reducible repeat' first
    | assumption | dsimp only | fail_if_no_progress (refine Keeps.unfold ?_; dsimp only; refine Keeps.fold ?_)

theorem State.track_keeps {s0 s : State} {a1 : ℕ} {a2 : ℕ} {a3 : Word} (k : Keeps s0 s) :
    Keeps s0 (State.track s a1 a2 a3) := by
  unfold State.track
  with_reducible repeat' first
    | assumption | refine State.wr_keeps ?_ | dsimp only | refine Keeps.ite ?_ ?_

theorem State.wake_keeps {s0 s : State} {a1 : ℕ} {a2 : WaitRec} {a3 : ℕ} (k : Keeps s0 s) :
    Keeps s0 (State.wake s a1 a2 a3) := by
  unfold State.wake
  with_reducible repeat' first
    | assumption | refine State.setCore_keeps ?_ | refine State.setCoreState_keeps ?_ | refine State.setG_keeps ?_
    | refine State.bump_keeps ?_ | refine State.setPc_keeps ?_

theorem State.wakeCores_keeps {s0 s : State} {a1 : ℕ} {a2 : Word} (k : Keeps s0 s) :
    Keeps s0 (State.wakeCores s a1 a2) := by
  unfold State.wakeCores
  with_reducible repeat' first
    | assumption | refine State.wake_keeps ?_ | refine foldl_keeps ?_ (fun _ _ _ => ?_) | refine Keeps.ite ?_ ?_
    | split

theorem State.fireWatch_keeps {s0 s : State} {a1 : ℕ} {a2 : ℕ} {a3 : Word} (k : Keeps s0 s) :
    Keeps s0 (State.fireWatch s a1 a2 a3) := by
  unfold State.fireWatch
  with_reducible repeat' first
    | assumption | refine State.msix_keeps ?_ | refine State.flag_keeps ?_ | refine State.wr_keeps ?_
    | refine Keeps.ite ?_ ?_

theorem State.soEvaluate_keeps {s0 s : State} {a1 : ℕ} {a2 : Word} (k : Keeps s0 s) :
    Keeps s0 (State.soEvaluate s a1 a2) := by
  unfold State.soEvaluate
  with_reducible repeat' first
    | assumption | refine State.releaseGates_keeps ?_ | refine State.wakeCores_keeps ?_
    | refine State.fireWatch_keeps ?_ | refine State.track_keeps ?_ | refine foldl_keeps ?_ (fun _ _ _ => ?_)
    | dsimp only | split

theorem State.soOp_keeps {s0 s : State} {a1 : ℕ} {a2 : ℕ} {a3 : SoOp} {a4 : Word} (k : Keeps s0 s) :
    Keeps s0 (State.soOp s a1 a2 a3 a4) := by
  unfold State.soOp
  with_reducible repeat' first
    | assumption | refine State.sat_keeps ?_ | refine State.soEvaluate_keeps ?_ | dsimp only | refine Keeps.ite ?_ ?_
    | fail_if_no_progress (refine Keeps.unfold ?_; dsimp only; refine Keeps.fold ?_)

theorem State.soSignal_keeps {s0 s : State} {a1 : ℕ} {a2 : ℕ} {a3 : SoOp} {a4 : Word} (k : Keeps s0 s) :
    Keeps s0 (State.soSignal s a1 a2 a3 a4) := by
  unfold State.soSignal
  with_reducible repeat' first
    | assumption | refine State.soOp_keeps ?_ | refine Keeps.ite ?_ ?_

end Sys2Proof.Machine
end

