-- ==== Sys2Proof/Laws/KeepsFlow.lean ====
section
/-! SUPPORT. What the links, packets, work items, data path and MOOR operations keep: memory in its
canonical form, the TALLY unit sound, the variant and the queue of commands (`Keeps`).
One lemma an operation, cited by its callers, so no proof unfolds an operation twice. -/

namespace Sys2Proof.Machine

open Ulital

/-! ### Links -/

theorem State.setRingRec_keeps {s0 s : State} {a1 : ℕ} {a2 : RingRec} (k : Keeps s0 s) :
    Keeps s0 (State.setRingRec s a1 a2) := by
  unfold State.setRingRec
  with_reducible repeat' first
    | assumption | fail_if_no_progress (refine Keeps.unfold ?_; dsimp only; refine Keeps.fold ?_)

theorem State.freeLines_keeps {s0 s : State} {a1 : ReadRec → Bool} (k : Keeps s0 s) :
    Keeps s0 (State.freeLines s a1) := by
  unfold State.freeLines
  with_reducible repeat' first
    | assumption | dsimp only | fail_if_no_progress (refine Keeps.unfold ?_; dsimp only; refine Keeps.fold ?_)

theorem State.askAts_keeps {s0 s : State} {a1 : ℕ} {a2 : ℕ} (k : Keeps s0 s) :
    Keeps s0 (State.askAts s a1 a2) := by
  unfold State.askAts
  with_reducible repeat' first
    | assumption | refine State.emit_keeps ?_

theorem State.absorb_keeps {s0 s : State} {a1 : ReadRec → Bool} (k : Keeps s0 s) :
    Keeps s0 (State.absorb s a1) := by
  unfold State.absorb
  with_reducible repeat' first
    | assumption | dsimp only | fail_if_no_progress (refine Keeps.unfold ?_; dsimp only; refine Keeps.fold ?_)

theorem State.setRing_keeps {s0 s : State} {a1 : ℕ} {a2 : NoticeRing} (k : Keeps s0 s) :
    Keeps s0 (State.setRing s a1 a2) := by
  unfold State.setRing
  with_reducible repeat' first
    | assumption | fail_if_no_progress (refine Keeps.unfold ?_; dsimp only; refine Keeps.fold ?_)

theorem State.sendWrite_keeps {s0 s : State} {a1 : ℕ} {a2 : ℕ} {a3 : ℕ} {a4 : List Byte} {a5 : Bool} (k : Keeps s0 s) :
    Keeps s0 (State.sendWrite s a1 a2 a3 a4 a5) := by
  unfold State.sendWrite
  with_reducible repeat' first
    | assumption | refine State.emit_keeps ?_

theorem State.unquarantine_keeps {s0 s : State} {a1 : ℕ} (k : Keeps s0 s) :
    Keeps s0 (State.unquarantine s a1) := by
  unfold State.unquarantine
  with_reducible repeat' first
    | assumption | refine State.wr_keeps ?_ | dsimp only | refine Keeps.ite ?_ ?_
    | fail_if_no_progress (refine Keeps.unfold ?_; dsimp only; refine Keeps.fold ?_) | split

theorem State.retireRead_keeps {s0 s : State} {a1 : ℕ} (k : Keeps s0 s) :
    Keeps s0 (State.retireRead s a1) := by
  unfold State.retireRead
  with_reducible repeat' first
    | assumption | refine State.wr_keeps ?_ | dsimp only
    | fail_if_no_progress (refine Keeps.unfold ?_; dsimp only; refine Keeps.fold ?_) | split

theorem State.quarantine_keeps {s0 s : State} {a1 : ℕ} {a2 : ℕ} {a3 : Bool} (k : Keeps s0 s) :
    Keeps s0 (State.quarantine s a1 a2 a3) := by
  unfold State.quarantine
  with_reducible repeat' first
    | assumption | refine State.bump_keeps ?_ | dsimp only | refine Keeps.ite ?_ ?_
    | fail_if_no_progress (refine Keeps.unfold ?_; dsimp only; refine Keeps.fold ?_)

theorem State.sendRead_keeps {s0 s : State} {a1 : ℕ} {a2 : ℕ} {a3 : ℕ} {a4 : ℕ} {a5 : Bool} {a6 : ReadFor} {a7 : Option (ℕ × ℕ)} (k : Keeps s0 s) :
    optKeeps s0 (State.sendRead s a1 a2 a3 a4 a5 a6 a7) := by
  unfold State.sendRead
  with_reducible repeat' first
    | assumption | refine State.emit_keeps ?_ | refine State.bump_keeps ?_ | refine optKeeps.some ?_
    | exact optKeeps.none | dsimp only
    | fail_if_no_progress (refine Keeps.unfold ?_; dsimp only; refine Keeps.fold ?_) | split

theorem State.writeNotice_keeps {s0 s : State} {a1 : ℕ} {a2 : ℕ} {a3 : Notice} (k : Keeps s0 s) :
    Keeps s0 (State.writeNotice s a1 a2 a3) := by
  unfold State.writeNotice
  with_reducible repeat' first
    | assumption | refine State.sendWrite_keeps ?_ | refine State.setRing_keeps ?_ | refine State.flag_keeps ?_
    | dsimp only | refine Keeps.ite ?_ ?_

theorem State.ringIrq_keeps {s0 s : State} {a1 : ℕ} (k : Keeps s0 s) :
    Keeps s0 (State.ringIrq s a1) := by
  unfold State.ringIrq
  with_reducible repeat' first
    | assumption | refine State.msix_keeps ?_ | refine State.setRingRec_keeps ?_

theorem State.cancelNotice_keeps {s0 s : State} {a1 : ℕ} {a2 : ℕ} {a3 : ℕ} (k : Keeps s0 s) :
    Keeps s0 (State.cancelNotice s a1 a2 a3) := by
  unfold State.cancelNotice
  with_reducible repeat' first
    | assumption | refine State.writeNotice_keeps ?_ | dsimp only | refine Keeps.ite ?_ ?_

theorem State.ringWritten_keeps {s0 s : State} {a1 : CplRec} (k : Keeps s0 s) :
    Keeps s0 (State.ringWritten s a1) := by
  unfold State.ringWritten
  with_reducible repeat' first
    | assumption | refine State.bump_keeps ?_ | refine State.ringIrq_keeps ?_ | refine State.setRingRec_keeps ?_
    | dsimp only | refine Keeps.ite ?_ ?_

theorem State.putRecord_keeps {s0 s : State} {a1 : CplRec} (k : Keeps s0 s) :
    Keeps s0 (State.putRecord s a1).2 := by
  unfold State.putRecord
  with_reducible repeat' first
    | assumption | refine State.epochDrop_keeps ?_ | refine State.wr_keeps ?_ | refine State.setHeld_keeps ?_
    | refine State.flag_keeps ?_ | refine State.askAts_keeps ?_ | refine State.ringWritten_keeps ?_
    | refine State.sendWrite_keeps ?_ | refine State.dtuFault_keeps ?_ | refine State.vwrite_keeps ?_ | dsimp only
    | refine Keeps.ite_snd ?_ ?_ | split

/-! ### Crr -/

theorem State.sendEth_keeps {s0 s : State} {a1 : ℕ} {a2 : ℕ} {a3 : Msg} (k : Keeps s0 s) :
    Keeps s0 (State.sendEth s a1 a2 a3) := by
  unfold State.sendEth
  with_reducible repeat' first
    | assumption | refine State.emit_keeps ?_ | dsimp only | refine Keeps.ite ?_ ?_
    | fail_if_no_progress (refine Keeps.unfold ?_; dsimp only; refine Keeps.fold ?_)

theorem State.setConn_keeps {s0 s : State} {a1 : ℕ} {a2 : Conn} (k : Keeps s0 s) :
    Keeps s0 (State.setConn s a1 a2) := by
  unfold State.setConn
  with_reducible repeat' first
    | assumption | dsimp only | fail_if_no_progress (refine Keeps.unfold ?_; dsimp only; refine Keeps.fold ?_)

theorem State.dropReq_keeps {s0 s : State} {a1 : ℕ} {a2 : ℕ} {a3 : ℕ} (k : Keeps s0 s) :
    Keeps s0 (State.dropReq s a1 a2 a3) := by
  unfold State.dropReq
  with_reducible repeat' first
    | assumption | refine State.setConn_keeps ?_

theorem State.sendRaw_keeps {s0 s : State} {a1 : ℕ} {a2 : Packet} (k : Keeps s0 s) :
    Keeps s0 (State.sendRaw s a1 a2) := by
  unfold State.sendRaw
  with_reducible repeat' first
    | assumption | refine State.sendEth_keeps ?_

theorem State.sendPacket_keeps {s0 s : State} {a1 : ℕ} {a2 : Packet} (k : Keeps s0 s) :
    Keeps s0 (State.sendPacket s a1 a2) := by
  unfold State.sendPacket
  with_reducible repeat' first
    | assumption | refine State.sendRaw_keeps ?_ | refine State.setConn_keeps ?_

theorem State.transmit_keeps {s0 s : State} {a0 : ℕ} {a2 : ℕ} (k : Keeps s0 s) :
    Keeps s0 (State.transmit a0 s a2) := by
  induction a0 generalizing s a2 with
  | zero =>
    unfold State.transmit
    with_reducible repeat' first
      | assumption

  | succ n ih =>
    unfold State.transmit
    with_reducible repeat' first
      | refine ih ?_
      | assumption | refine State.setConn_keeps ?_ | refine State.sendPacket_keeps ?_ | dsimp only
      | refine Keeps.ite ?_ ?_ | split

theorem State.sendAck_keeps {s0 s : State} {a1 : ℕ} (k : Keeps s0 s) :
    Keeps s0 (State.sendAck s a1) := by
  unfold State.sendAck
  with_reducible repeat' first
    | assumption | refine State.sendPacket_keeps ?_ | refine State.setConn_keeps ?_

theorem State.sendData_keeps {s0 s : State} {a1 : ℕ} {a2 : List Packet} (k : Keeps s0 s) :
    Keeps s0 (State.sendData s a1 a2) := by
  unfold State.sendData
  with_reducible repeat' first
    | assumption | refine State.transmit_keeps ?_ | refine State.setConn_keeps ?_

theorem State.sendMessage_keeps {s0 s : State} {a1 : ℕ} {a2 : ℕ} {a3 : ℕ} {a4 : ℕ} {a5 : ℕ} {a6 : ℕ} {a7 : List Byte} {a8 : List Byte} (k : Keeps s0 s) :
    Keeps s0 (State.sendMessage s a1 a2 a3 a4 a5 a6 a7 a8) := by
  unfold State.sendMessage
  with_reducible repeat' first
    | assumption | refine State.sendData_keeps ?_ | dsimp only | refine Keeps.ite ?_ ?_

theorem State.requestAs_keeps {s0 s : State} {a1 : ℕ} {a2 : ℕ} {a3 : ℕ} {a4 : ℕ} {a5 : ℕ} {a6 : List Byte} {a7 : List Byte} {a8 : ℕ} {a9 : ℕ} (k : Keeps s0 s) :
    Keeps s0 (State.requestAs s a1 a2 a3 a4 a5 a6 a7 a8 a9) := by
  unfold State.requestAs
  with_reducible repeat' first
    | assumption | refine State.sendMessage_keeps ?_ | refine State.setConn_keeps ?_

theorem State.sendResp_keeps {s0 s : State} {a1 : ℕ} {a2 : ℕ} {a3 : ℕ} {a4 : ℕ} {a5 : List Byte} (k : Keeps s0 s) :
    Keeps s0 (State.sendResp s a1 a2 a3 a4 a5) := by
  unfold State.sendResp
  with_reducible repeat' first
    | assumption | refine State.sendMessage_keeps ?_

theorem State.sendRequest_keeps {s0 s : State} {a1 : ℕ} {a2 : ℕ} {a3 : ℕ} {a4 : ℕ} {a5 : List Byte} {a6 : List Byte} {a7 : ℕ} {a8 : ℕ} (k : Keeps s0 s) :
    Keeps s0 (State.sendRequest s a1 a2 a3 a4 a5 a6 a7 a8) := by
  unfold State.sendRequest
  with_reducible repeat' first
    | assumption | refine State.requestAs_keeps ?_ | refine State.setConn_keeps ?_

/-! ### Items -/

theorem State.setChan_keeps {s0 s : State} {a1 : ℕ} {a2 : ChanRec} (k : Keeps s0 s) :
    Keeps s0 (State.setChan s a1 a2) := by
  unfold State.setChan
  with_reducible repeat' first
    | assumption | fail_if_no_progress (refine Keeps.unfold ?_; dsimp only; refine Keeps.fold ?_)

theorem State.dropItem_keeps {s0 s : State} {a1 : ℕ} (k : Keeps s0 s) :
    Keeps s0 (State.dropItem s a1) := by
  unfold State.dropItem
  with_reducible repeat' first
    | assumption | fail_if_no_progress (refine Keeps.unfold ?_; dsimp only; refine Keeps.fold ?_)

theorem State.slot_keeps {s0 s : State} {a1 : ℕ} (k : Keeps s0 s) :
    Keeps s0 (State.slot s a1) := by
  unfold State.slot
  with_reducible repeat' first
    | assumption | fail_if_no_progress (refine Keeps.unfold ?_; dsimp only; refine Keeps.fold ?_)

theorem State.putItem_keeps {s0 s : State} {a1 : Item} (k : Keeps s0 s) :
    Keeps s0 (State.putItem s a1) := by
  unfold State.putItem
  with_reducible repeat' first
    | assumption | fail_if_no_progress (refine Keeps.unfold ?_; dsimp only; refine Keeps.fold ?_)

theorem State.latchErr_keeps {s0 s : State} {a1 : ℕ} {a2 : ℕ} {a3 : ErrAt} (k : Keeps s0 s) :
    Keeps s0 (State.latchErr s a1 a2 a3) := by
  unfold State.latchErr
  with_reducible repeat' first
    | assumption | refine State.wr_keeps ?_ | refine State.wrb_keeps ?_ | dsimp only | refine Keeps.ite ?_ ?_

theorem State.walkAdvance_keeps {s0 s : State} {a1 : ℕ} {a2 : WalkRec} (k : Keeps s0 s) :
    Keeps s0 (State.walkAdvance s a1 a2) := by
  unfold State.walkAdvance
  with_reducible repeat' first
    | assumption | refine State.setReg_keeps ?_ | refine State.wr_keeps ?_ | dsimp only
    | fail_if_no_progress (refine Keeps.unfold ?_; dsimp only; refine Keeps.fold ?_) | split

theorem State.offChannel_keeps {s0 s : State} {a1 : ℕ} {a2 : ℕ} (k : Keeps s0 s) :
    Keeps s0 (State.offChannel s a1 a2) := by
  unfold State.offChannel
  with_reducible repeat' first
    | assumption | refine State.setChan_keeps ?_ | refine State.wr_keeps ?_

theorem State.addItem_keeps {s0 s : State} {a1 : Item} (k : Keeps s0 s) :
    Keeps s0 (State.addItem s a1) := by
  unfold State.addItem
  with_reducible repeat' first
    | assumption | refine State.putItem_keeps ?_
    | fail_if_no_progress (refine Keeps.unfold ?_; dsimp only; refine Keeps.fold ?_)

theorem State.settle_keeps {s0 s : State} {a1 : ℕ} {a2 : ℕ} {a3 : ℕ} (k : Keeps s0 s) :
    Keeps s0 (State.settle s a1 a2 a3) := by
  unfold State.settle
  with_reducible repeat' first
    | assumption | refine State.setTile_keeps ?_ | dsimp only | refine Keeps.ite ?_ ?_

theorem State.fly_keeps {s0 s : State} {a1 : ℕ} {a2 : ℕ} {a3 : ℕ} (k : Keeps s0 s) :
    Keeps s0 (State.fly s a1 a2 a3) := by
  unfold State.fly
  with_reducible repeat' first
    | assumption | refine State.setTile_keeps ?_ | dsimp only | refine Keeps.ite ?_ ?_

theorem State.lines_keeps {s0 s : State} {a1 : ℕ} {a2 : ℕ} (k : Keeps s0 s) :
    Keeps s0 (State.lines s a1 a2) := by
  unfold State.lines
  with_reducible repeat' first
    | assumption | refine State.wr_keeps ?_ | dsimp only | refine Keeps.ite ?_ ?_

theorem State.freeCtx_keeps {s0 s : State} {a1 : ℕ} {a2 : ℕ} (k : Keeps s0 s) :
    Keeps s0 (State.freeCtx s a1 a2) := by
  unfold State.freeCtx
  with_reducible repeat' first
    | assumption | refine State.setLease_keeps ?_ | refine State.wr_keeps ?_ | dsimp only | refine Keeps.ite ?_ ?_

theorem State.refreshLines_keeps {s0 s : State} {a1 : ℕ} (k : Keeps s0 s) :
    Keeps s0 (State.refreshLines s a1) := by
  unfold State.refreshLines
  with_reducible repeat' first
    | assumption | refine State.lines_keeps ?_

theorem State.addItems_keeps {s0 s : State} {a1 : List Item} (k : Keeps s0 s) :
    Keeps s0 (State.addItems s a1).2 := by
  unfold State.addItems
  with_reducible repeat' first
    | assumption | refine State.addItem_keeps ?_ | refine foldl_keeps_snd ?_ (fun _ _ _ => ?_)

theorem State.classOf_keeps {s0 s : State} {a1 : ℕ} {a2 : ℕ} (k : Keeps s0 s) :
    Keeps s0 (State.classOf s a1 a2).2 := by
  unfold State.classOf
  with_reducible repeat' first
    | assumption | refine State.sat_keeps ?_ | refine Keeps.ite_snd ?_ ?_

theorem State.noteStart_keeps {s0 s : State} {a1 : Item} (k : Keeps s0 s) :
    Keeps s0 (State.noteStart s a1) := by
  unfold State.noteStart
  with_reducible repeat' first
    | assumption | refine State.sat_keeps ?_ | refine Keeps.ite ?_ ?_

theorem State.withdraw_keeps {s0 s : State} {a1 : ℕ} (k : Keeps s0 s) :
    Keeps s0 (State.withdraw s a1) := by
  unfold State.withdraw
  with_reducible repeat' first
    | assumption | refine State.absorb_keeps ?_ | refine State.freeCtx_keeps ?_ | refine State.freeRun_keeps ?_
    | refine State.uncharge_keeps ?_ | refine State.dropItem_keeps ?_ | refine State.refreshLines_keeps ?_
    | refine State.offChannel_keeps ?_ | refine State.settle_keeps ?_ | refine foldl_keeps ?_ (fun _ _ _ => ?_)
    | dsimp only | refine Keeps.ite ?_ ?_ | split

theorem State.noteEnd_keeps {s0 s : State} {a1 : Item} (k : Keeps s0 s) :
    Keeps s0 (State.noteEnd s a1) := by
  unfold State.noteEnd
  with_reducible repeat' first
    | assumption | refine State.sat_keeps ?_ | refine Keeps.ite ?_ ?_

theorem State.takeCtx_keeps {s0 s : State} {a1 : Item} {a2 : ℕ} (k : Keeps s0 s) :
    Keeps s0 (State.takeCtx s a1 a2) := by
  unfold State.takeCtx
  with_reducible repeat' first
    | assumption | refine State.grantLease_keeps ?_ | refine State.wr_keeps ?_ | refine State.bump_keeps ?_
    | refine State.putItem_keeps ?_ | dsimp only | refine Keeps.ite ?_ ?_ | split

theorem State.quenchItem_keeps {s0 s : State} {a1 : ℕ} (k : Keeps s0 s) :
    Keeps s0 (State.quenchItem s a1) := by
  unfold State.quenchItem
  with_reducible repeat' first
    | assumption | refine State.freeLines_keeps ?_ | refine State.withdraw_keeps ?_ | refine State.setTile_keeps ?_
    | dsimp only | split

theorem State.walkNotices_keeps {s0 s : State} {a1 : ℕ} {a2 : WalkRec} {a3 : WalkGroup} (k : Keeps s0 s) :
    Keeps s0 (State.walkNotices s a1 a2 a3) := by
  unfold State.walkNotices
  with_reducible repeat' first
    | assumption | refine State.classOf_keeps ?_ | refine State.addItem_keeps ?_
    | refine foldl_keeps_snd ?_ (fun _ _ _ => ?_) | dsimp only
    | fail_if_no_progress (refine Keeps.unfold ?_; dsimp only; refine Keeps.fold ?_)

theorem State.tryCtx_keeps {s0 s : State} {a1 : ℕ} (k : Keeps s0 s) :
    Keeps s0 (State.tryCtx s a1) := by
  unfold State.tryCtx
  with_reducible repeat' first
    | assumption | refine State.takeCtx_keeps ?_ | dsimp only | refine Keeps.ite ?_ ?_ | split

theorem State.serveCtxs_keeps {s0 s : State}  (k : Keeps s0 s) :
    Keeps s0 (State.serveCtxs s) := by
  unfold State.serveCtxs
  with_reducible repeat' first
    | assumption | refine State.slot_keeps ?_ | refine State.tryCtx_keeps ?_
    | refine foldl_keeps ?_ (fun _ _ _ => ?_) | dsimp only | refine Keeps.ite ?_ ?_ | split

theorem State.walkItemEnd_keeps {s0 s : State} {a1 : Item} {a2 : ℕ} {a3 : ℕ} (k : Keeps s0 s) :
    Keeps s0 (State.walkItemEnd s a1 a2 a3) := by
  unfold State.walkItemEnd
  with_reducible repeat' first
    | assumption | refine State.flag_keeps ?_ | refine State.walkAdvance_keeps ?_ | refine State.wr_keeps ?_
    | refine State.deadLetter_keeps ?_ | refine State.walkNotices_keeps ?_ | dsimp only | refine Keeps.ite ?_ ?_
    | fail_if_no_progress (refine Keeps.unfold ?_; dsimp only; refine Keeps.fold ?_) | split

theorem State.originEnd_keeps {s0 s : State} {a1 : Item} {a2 : ℕ} (k : Keeps s0 s) :
    Keeps s0 (State.originEnd s a1 a2) := by
  unfold State.originEnd
  with_reducible repeat' first
    | assumption | refine State.flag_keeps ?_ | refine State.walkItemEnd_keeps ?_ | refine State.sendResp_keeps ?_
    | refine State.deadLetter_keeps ?_ | dsimp only | refine Keeps.ite ?_ ?_
    | fail_if_no_progress (refine Keeps.unfold ?_; dsimp only; refine Keeps.fold ?_) | split

theorem State.voidItem_keeps {s0 s : State} {a1 : ℕ} (k : Keeps s0 s) :
    Keeps s0 (State.voidItem s a1) := by
  unfold State.voidItem
  with_reducible repeat' first
    | assumption | refine State.withdraw_keeps ?_ | refine State.setTile_keeps ?_ | refine State.writeSlot_keeps ?_
    | refine State.originEnd_keeps ?_ | dsimp only | split

theorem State.finish_keeps {s0 s : State} {a1 : ℕ} {a2 : ℕ} {a3 : ℕ} {a4 : ErrAt} (k : Keeps s0 s) :
    Keeps s0 (State.finish s a1 a2 a3 a4) := by
  unfold State.finish
  with_reducible repeat' first
    | assumption | refine State.epochDrop_keeps ?_ | refine State.withdraw_keeps ?_ | refine State.noteEnd_keeps ?_
    | refine State.bump_keeps ?_ | refine State.wr_keeps ?_ | refine State.latchErr_keeps ?_
    | refine State.writeSlot_keeps ?_ | refine State.soSignal_keeps ?_ | refine State.serveCtxs_keeps ?_
    | refine State.originEnd_keeps ?_ | dsimp only | refine Keeps.ite ?_ ?_ | split

/-! ### Data -/

theorem State.lteFlags_keeps {s0 s : State} {a1 : ℕ} {a2 : Flags} (k : Keeps s0 s) :
    Keeps s0 (State.lteFlags s a1 a2) := by
  unfold State.lteFlags
  with_reducible repeat' first
    | assumption | refine State.setReg_keeps ?_

theorem State.tedFlags_keeps {s0 s : State} {a1 : ℕ} {a2 : Flags} (k : Keeps s0 s) :
    Keeps s0 (State.tedFlags s a1 a2) := by
  unfold State.tedFlags
  with_reducible repeat' first
    | assumption | refine State.setReg_keeps ?_

theorem State.badRead_keeps {s0 s : State} {a1 : ℕ} {a2 : ℕ} {a3 : ℕ} (k : Keeps s0 s) :
    Keeps s0 (State.badRead s a1 a2 a3) := by
  unfold State.badRead
  with_reducible repeat' first
    | assumption | refine State.putItem_keeps ?_ | refine Keeps.ite ?_ ?_ | split

theorem State.gotRead_keeps {s0 s : State} {a1 : ℕ} {a2 : ℕ} {a3 : List Byte} (k : Keeps s0 s) :
    Keeps s0 (State.gotRead s a1 a2 a3) := by
  unfold State.gotRead
  with_reducible repeat' first
    | assumption | refine State.putItem_keeps ?_ | dsimp only | split

theorem State.lteCount_keeps {s0 s : State} {a1 : ℕ} {a2 : Beat} {a3 : Beat} {a4 : ℕ} (k : Keeps s0 s) :
    Keeps s0 (State.lteCount s a1 a2 a3 a4) := by
  unfold State.lteCount
  with_reducible repeat' first
    | assumption | refine State.bump_keeps ?_

theorem State.devWrite_keeps {s0 s : State} {a1 : ℕ} {a2 : ℕ} {a3 : List (ℕ × ℕ)} (k : Keeps s0 s) :
    wroteKeeps s0 (State.devWrite s a1 a2 a3) := by
  unfold State.devWrite
  with_reducible repeat' first
    | assumption | refine State.dtuFault_keeps ?_ | refine State.vwrite_keeps ?_ | refine wroteKeeps.ok ?_
    | refine wroteKeeps.fault ?_ | split

theorem State.issueReads_keeps {s0 s : State} {a0 : ℕ} {a2 : ℕ} (k : Keeps s0 s) :
    Keeps s0 (State.issueReads a0 s a2) := by
  induction a0 generalizing s a2 with
  | zero =>
    unfold State.issueReads
    with_reducible repeat' first
      | assumption


  | succ n ih =>
    unfold State.issueReads
    with_reducible repeat' first
      | refine ih ?_
      | assumption | refine State.putItem_keeps ?_ | refine State.sendRequest_keeps ?_ | refine State.sat_keeps ?_
      | refine State.askAts_keeps ?_ | refine State.refreshLines_keeps ?_
      | refine Keeps.of_opt (by assumption) (State.sendRead_keeps ?_) | dsimp only | refine Keeps.ite ?_ ?_ | split

theorem State.runWrite_keeps {s0 s : State} {a1 : ℕ} {a2 : Beat} {a3 : ℕ} {a4 : List (ℕ × ℕ)} {a5 : ℕ} (k : Keeps s0 s) :
    wroteKeeps s0 (State.runWrite s a1 a2 a3 a4 a5) := by
  unfold State.runWrite
  with_reducible repeat' first
    | assumption | refine State.devWrite_keeps ?_ | refine State.sendWrite_keeps ?_ | refine State.putItem_keeps ?_
    | refine wroteKeeps.ok ?_ | refine wroteKeeps.fault ?_ | dsimp only | refine wroteKeeps.ite ?_ ?_ | split

theorem State.issueWrites_keeps {s0 s : State} {a0 : ℕ} {a2 : ℕ} (k : Keeps s0 s) :
    Keeps s0 (State.issueWrites a0 s a2) := by
  induction a0 generalizing s a2 with
  | zero =>
    unfold State.issueWrites
    with_reducible repeat' first
      | assumption

  | succ n ih =>
    unfold State.issueWrites
    with_reducible repeat' first
      | refine ih ?_
      | assumption | refine State.putItem_keeps ?_ | refine State.sendRequest_keeps ?_ | dsimp only
      | refine Keeps.ite ?_ ?_ | split

theorem State.runsWrite_keeps {s0 s : State} {a0 : ℕ} {a1 : Beat} {a2 : ℕ} {a3 : List (ℕ × List (ℕ × ℕ))} (k : Keeps s0 s) :
    wroteKeeps s0 (State.runsWrite a0 a1 a2 a3 s) := by
  induction a3 generalizing a0 a1 a2 s with
  | nil =>
    unfold State.runsWrite
    with_reducible repeat' first
      | assumption | refine State.runWrite_keeps ?_ | refine Keeps.of_wrote (by assumption) (State.runWrite_keeps ?_)
      | refine wroteKeeps.ok ?_
  | cons x l ih =>
    unfold State.runsWrite
    with_reducible repeat' first
      | refine ih ?_
      | assumption | refine State.runWrite_keeps ?_ | refine Keeps.of_wrote (by assumption) (State.runWrite_keeps ?_)
      | refine wroteKeeps.ok ?_ | split

theorem State.runBeats_keeps {s0 : State} {s : Beats} {a0 : ℕ} {a1 : Beat} {a2 : ℕ → Got (Byte × Flags)} {a3 : ErrAt} {a4 : List ℕ} (k : Keeps s0 s.s) :
    Keeps s0 (State.runBeats a0 a1 a2 a3 a4 s).s := by
  induction a4 generalizing a0 a1 a2 a3 s with
  | nil =>
    unfold State.runBeats
    with_reducible repeat' first
      | assumption

  | cons x l ih =>
    unfold State.runBeats
    with_reducible repeat' first
      | refine ih ?_
      | assumption | refine Keeps.of_wrote (by assumption) (State.runsWrite_keeps ?_)
      | refine Keeps.of_fault (by assumption) (State.runsWrite_keeps ?_) | split

/-! ### Life -/

theorem State.requeueWaiters_keeps {s0 s : State} {a1 : ℕ} {a2 : ℕ} {a3 : ℕ} (k : Keeps s0 s) :
    Keeps s0 (State.requeueWaiters s a1 a2 a3) := by
  unfold State.requeueWaiters
  with_reducible repeat' first
    | assumption | dsimp only | fail_if_no_progress (refine Keeps.unfold ?_; dsimp only; refine Keeps.fold ?_)

theorem State.releaseTile_keeps {s0 s : State} {a0 : ℕ} {a2 : ℕ} {a3 : ℕ} {a4 : ℕ} (k : Keeps s0 s) :
    Keeps s0 (State.releaseTile a0 s a2 a3 a4) := by
  induction a0 generalizing s a2 a3 a4 with
  | zero =>
    unfold State.releaseTile
    with_reducible repeat' first
      | assumption

  | succ n ih =>
    unfold State.releaseTile
    with_reducible repeat' first
      | refine ih ?_
      | assumption | refine State.setTile_keeps ?_ | refine State.freeTile_keeps ?_
      | refine foldl_keeps ?_ (fun _ _ _ => ?_) | dsimp only | refine Keeps.ite ?_ ?_

theorem State.release_keeps {s0 s : State} {a1 : ℕ} {a2 : ℕ} {a3 : ℕ} (k : Keeps s0 s) :
    Keeps s0 (State.release s a1 a2 a3) := by
  unfold State.release
  with_reducible repeat' first
    | assumption | refine State.releaseTile_keeps ?_

theorem State.releaseInputs_keeps {s0 s : State} {a1 : ℕ} {a2 : List (ℕ × ℕ)} (k : Keeps s0 s) :
    Keeps s0 (State.releaseInputs s a1 a2) := by
  unfold State.releaseInputs
  with_reducible repeat' first
    | assumption | refine State.release_keeps ?_ | refine foldl_keeps ?_ (fun _ _ _ => ?_) | dsimp only
    | refine Keeps.ite ?_ ?_

theorem State.loseTile_keeps {s0 s : State} {a0 : ℕ} {a2 : ℕ} {a3 : ℕ} {a4 : ℕ} {a5 : ℕ} {a6 : ℕ} {a7 : Option ℕ} (k : Keeps s0 s) :
    Keeps s0 (State.loseTile a0 s a2 a3 a4 a5 a6 a7) := by
  induction a0 generalizing s a2 a3 a4 a5 a6 a7 with
  | zero =>
    unfold State.loseTile
    with_reducible repeat' first
      | assumption



  | succ n ih =>
    unfold State.loseTile
    with_reducible repeat' first
      | refine ih ?_
      | assumption | refine State.setTile_keeps ?_ | refine State.freeTile_keeps ?_
      | refine State.deadLetter_keeps ?_ | refine State.sat_keeps ?_ | refine State.releaseInputs_keeps ?_
      | refine State.finish_keeps ?_ | refine State.flag_keeps ?_ | refine State.requeueWaiters_keeps ?_
      | refine foldl_keeps ?_ (fun _ _ _ => ?_) | dsimp only | refine Keeps.ite ?_ ?_ | split

theorem State.lose_keeps {s0 s : State} {a1 : ℕ} {a2 : ℕ} {a3 : ℕ} {a4 : ℕ} {a5 : ℕ} {a6 : Option ℕ} (k : Keeps s0 s) :
    Keeps s0 (State.lose s a1 a2 a3 a4 a5 a6) := by
  unfold State.lose
  with_reducible repeat' first
    | assumption | refine State.loseTile_keeps ?_

theorem State.heal_keeps {s0 s : State} {a1 : ℕ} {a2 : ℕ} {a3 : ℕ} {a4 : ℕ} {a5 : ℕ} {a6 : Option ℕ} (k : Keeps s0 s) :
    Keeps s0 (State.heal s a1 a2 a3 a4 a5 a6) := by
  unfold State.heal
  with_reducible repeat' first
    | assumption | refine State.deadLetter_keeps ?_ | refine State.freeTile_keeps ?_ | refine State.setTile_keeps ?_
    | refine State.lose_keeps ?_ | dsimp only | refine Keeps.ite ?_ ?_

theorem State.fallback_keeps {s0 s : State} {a1 : ℕ} {a2 : ℕ} {a3 : ℕ} (k : Keeps s0 s) :
    Keeps s0 (State.fallback s a1 a2 a3) := by
  unfold State.fallback
  with_reducible repeat' first
    | assumption | refine State.sat_keeps ?_ | refine State.flag_keeps ?_ | refine State.requeueWaiters_keeps ?_
    | refine State.releaseInputs_keeps ?_ | refine State.setTile_keeps ?_ | refine State.lose_keeps ?_ | dsimp only
    | refine Keeps.ite ?_ ?_

theorem State.afterTile_keeps {s0 s : State} {a1 : ℕ} {a2 : ℕ} {a3 : ℕ} {a4 : ℕ} {a5 : ℕ} (k : Keeps s0 s) :
    Keeps s0 (State.afterTile s a1 a2 a3 a4 a5) := by
  unfold State.afterTile
  with_reducible repeat' first
    | assumption | refine State.heal_keeps ?_ | dsimp only | refine Keeps.ite ?_ ?_

theorem State.endItem_keeps {s0 s : State} {a1 : ℕ} {a2 : ℕ} {a3 : ℕ} {a4 : ErrAt} (k : Keeps s0 s) :
    Keeps s0 (State.endItem s a1 a2 a3 a4) := by
  unfold State.endItem
  with_reducible repeat' first
    | assumption | refine State.finish_keeps ?_ | refine State.afterTile_keeps ?_
    | refine foldl_keeps ?_ (fun _ _ _ => ?_) | dsimp only | split

theorem State.failItem_keeps {s0 s : State} {a1 : ℕ} {a2 : ℕ} {a3 : ℕ} {a4 : ErrAt} (k : Keeps s0 s) :
    Keeps s0 (State.failItem s a1 a2 a3 a4) := by
  unfold State.failItem
  with_reducible repeat' first
    | assumption | refine State.setTile_keeps ?_ | refine State.endItem_keeps ?_ | dsimp only | split

/-! ### Moor -/

theorem State.moorOne_keeps {s0 s : State} {a1 : Item} {a2 : Bool} {a3 : ℕ} {a4 : ℕ} (k : Keeps s0 s) :
    Keeps s0 (State.moorOne s a1 a2 a3 a4) := by
  unfold State.moorOne
  with_reducible repeat' first
    | assumption | refine State.sendEth_keeps ?_ | refine State.sendRequest_keeps ?_ | dsimp only
    | refine Keeps.ite ?_ ?_ | fail_if_no_progress (refine Keeps.unfold ?_; dsimp only; refine Keeps.fold ?_)

theorem State.moorSend_keeps {s0 s : State} {a0 : ℕ} {a2 : ℕ} (k : Keeps s0 s) :
    Keeps s0 (State.moorSend a0 s a2) := by
  induction a0 generalizing s a2 with
  | zero =>
    unfold State.moorSend
    with_reducible repeat' first
      | assumption

  | succ n ih =>
    unfold State.moorSend
    with_reducible repeat' first
      | refine ih ?_
      | assumption | refine State.putItem_keeps ?_ | refine State.moorOne_keeps ?_ | dsimp only
      | refine Keeps.ite ?_ ?_ | split

theorem State.moorDone_keeps {s0 s : State} {a1 : ℕ} {a2 : Option ℕ} (k : Keeps s0 s) :
    Keeps s0 (State.moorDone s a1 a2) := by
  unfold State.moorDone
  with_reducible repeat' first
    | assumption | refine State.putItem_keeps ?_ | refine State.moorSend_keeps ?_ | dsimp only
    | refine Keeps.ite ?_ ?_ | split

theorem State.moorMove_keeps {s0 s : State} {a1 : ℕ} {a2 : Bool} {a3 : ℕ} {a4 : ℕ} (k : Keeps s0 s) :
    Keeps s0 (State.moorMove s a1 a2 a3 a4) := by
  unfold State.moorMove
  with_reducible repeat' first
    | assumption | refine State.moorSend_keeps ?_ | refine State.putItem_keeps ?_ | dsimp only | split

end Sys2Proof.Machine
end

