-- ==== Sys2Proof/Laws/KeepsFront.lean ====
section
/-! SUPPORT. What the front end, channels, partitions, CHAIN and core instruction commands keep: memory in its
canonical form, the TALLY unit sound, the variant and the queue of commands (`Keeps`).
One lemma an operation, cited by its callers, so no proof unfolds an operation twice. -/

namespace Sys2Proof.Machine

open Ulital

/-! ### Intake -/

theorem State.refreshStalled_keeps {s0 s : State} {a1 : ℕ} (k : Keeps s0 s) :
    Keeps s0 (State.refreshStalled s a1) := by
  unfold State.refreshStalled
  with_reducible repeat' first
    | assumption | refine State.wr_keeps ?_

theorem State.commitIntake_keeps {s0 s : State} {a1 : Item} {a2 : TileRec} {a3 : Home} {a4 : ℕ} {a5 : ℕ} {a6 : Bool} {a7 : ℕ} (k : Keeps s0 s) :
    Keeps s0 (State.commitIntake s a1 a2 a3 a4 a5 a6 a7) := by
  unfold State.commitIntake
  with_reducible repeat' first
    | assumption | refine State.trimRun_keeps ?_ | refine State.setOcc_keeps ?_ | refine State.uncharge_keeps ?_
    | refine State.setTile_keeps ?_ | refine State.count_keeps ?_ | refine State.putItem_keeps ?_

theorem State.wantBaler_keeps {s0 s : State} {a1 : ℕ} {a2 : ℕ} (k : Keeps s0 s) :
    Keeps s0 (State.wantBaler s a1 a2) := by
  unfold State.wantBaler
  with_reducible repeat' first
    | assumption | refine State.putItem_keeps ?_ | refine Keeps.ite ?_ ?_ | split

theorem State.placed_keeps {s0 s : State} {a1 : Item} {a2 : TileRec} {a3 : Home} {a4 : ℕ} {a5 : ℕ} {a6 : Disp} (k : Keeps s0 s) :
    Keeps s0 (State.placed s a1 a2 a3 a4 a5 a6) := by
  unfold State.placed
  with_reducible repeat' first
    | assumption | refine State.setTile_keeps ?_ | refine State.putItem_keeps ?_ | refine State.wantBaler_keeps ?_
    | dsimp only | refine Keeps.ite ?_ ?_

theorem State.countPass_keeps {s0 s : State} {a1 : ℕ} {a2 : ℕ} {a3 : Pass} {a4 : Bool} (k : Keeps s0 s) :
    Keeps s0 (State.countPass s a1 a2 a3 a4) := by
  unfold State.countPass
  with_reducible repeat' first
    | assumption | refine State.bump_keeps ?_ | refine State.flag_keeps ?_ | dsimp only | refine Keeps.ite ?_ ?_
    | split

theorem State.writeMeta_keeps {s0 s : State} {a1 : ℕ} {a2 : ℕ} {a3 : ℕ} {a4 : ℕ} {a5 : Bale.Par} {a6 : ℕ} {a7 : List Byte} {a8 : Pass} {a9 : Bool} (k : Keeps s0 s) :
    Keeps s0 (State.writeMeta s a1 a2 a3 a4 a5 a6 a7 a8 a9).2 := by
  unfold State.writeMeta
  with_reducible repeat' first
    | assumption | refine State.freeWord_keeps ?_ | refine State.vwrite_keeps ?_ | refine State.flag_keeps ?_
    | dsimp only | refine Keeps.ite ?_ ?_ | refine Keeps.ite_snd ?_ ?_ | split

theorem State.pressure_keeps {s0 s : State} {a1 : ℕ} {a2 : ℕ} (k : Keeps s0 s) :
    Keeps s0 (State.pressure s a1 a2) := by
  unfold State.pressure
  with_reducible repeat' first
    | assumption | refine State.wr_keeps ?_ | refine State.irq_keeps ?_ | refine State.soSignal_keeps ?_ | dsimp only
    | refine Keeps.ite ?_ ?_

theorem State.balePart_keeps {s0 s : State} {a1 : Item} {a2 : TileRec} {a3 : RuleSet} {a4 : ℕ} {a5 : List Byte} (k : Keeps s0 s) :
    Keeps s0 (State.balePart s a1 a2 a3 a4 a5).2.2.2 := by
  unfold State.balePart
  with_reducible repeat' first
    | assumption | refine State.writeMeta_keeps ?_ | refine State.flag_keeps ?_ | refine State.countPass_keeps ?_
    | dsimp only | split

theorem State.placeTile_keeps {s0 s : State} {a1 : ℕ} {a2 : Bool} (k : Keeps s0 s) :
    Keeps s0 (State.placeTile s a1 a2) := by
  unfold State.placeTile
  with_reducible repeat' first
    | assumption | refine State.putItem_keeps ?_ | refine State.reserve_keeps ?_
    | refine State.refreshStalled_keeps ?_ | refine State.placed_keeps ?_ | refine State.flag_keeps ?_
    | refine State.setTile_keeps ?_ | refine State.count_keeps ?_ | refine State.pressure_keeps ?_
    | refine Keeps.of_optp (by assumption) (State.reserve_keeps ?_) | dsimp only | refine Keeps.ite ?_ ?_
    | refine Keeps.of_optp (by assumption) ?_ | exact optpKeeps.none | split

theorem State.intake_keeps {s0 s : State} {a1 : ℕ} {a2 : ℕ} {a3 : ℕ} (k : Keeps s0 s) :
    Keeps s0 (State.intake s a1 a2 a3) := by
  unfold State.intake
  with_reducible repeat' first
    | assumption | refine State.putItem_keeps ?_ | refine State.flag_keeps ?_ | refine State.placeTile_keeps ?_
    | refine State.setTile_keeps ?_ | refine State.count_keeps ?_ | dsimp only | refine Keeps.ite ?_ ?_ | split

theorem State.intakeCommit_keeps {s0 s : State} {a1 : ℕ} (k : Keeps s0 s) :
    Keeps s0 (State.intakeCommit s a1) := by
  unfold State.intakeCommit
  with_reducible repeat' first
    | assumption | refine State.commitIntake_keeps ?_ | refine State.balePart_keeps ?_
    | refine State.physWrite_keeps ?_ | refine State.moorMove_keeps ?_ | refine State.putItem_keeps ?_ | dsimp only
    | refine Keeps.ite ?_ ?_ | split

theorem State.intakeFault_keeps {s0 s : State} {a1 : ℕ} {a2 : ℕ} {a3 : Option ℕ} (k : Keeps s0 s) :
    Keeps s0 (State.intakeFault s a1 a2 a3) := by
  unfold State.intakeFault
  with_reducible repeat' first
    | assumption | refine State.putItem_keeps ?_ | refine State.finish_keeps ?_ | refine State.lose_keeps ?_
    | dsimp only | split

/-! ### Front -/

theorem State.setAwaited_keeps {s0 s : State} {a1 : List Awaited} (k : Keeps s0 s) :
    Keeps s0 (State.setAwaited s a1) := by
  unfold State.setAwaited
  with_reducible repeat' first
    | assumption | dsimp only | fail_if_no_progress (refine Keeps.unfold ?_; dsimp only; refine Keeps.fold ?_)

theorem State.reserveMove_keeps {s0 s : State} {a1 : ℕ} (k : Keeps s0 s) :
    Keeps s0 (State.reserveMove s a1) := by
  unfold State.reserveMove
  with_reducible repeat' first
    | assumption | refine State.putItem_keeps ?_ | refine Keeps.of_optp (by assumption) (State.reserve_keeps ?_)
    | dsimp only | refine Keeps.ite ?_ ?_ | split

theorem State.flyItem_keeps {s0 s : State} {a1 : ℕ} (k : Keeps s0 s) :
    Keeps s0 (State.flyItem s a1) := by
  unfold State.flyItem
  with_reducible repeat' first
    | assumption | refine State.fly_keeps ?_ | refine State.putItem_keeps ?_
    | refine foldl_keeps ?_ (fun _ _ _ => ?_) | dsimp only | split

theorem State.startRegrow_keeps {s0 s : State} {a1 : Item} (k : Keeps s0 s) :
    Keeps s0 (State.startRegrow s a1) := by
  unfold State.startRegrow
  with_reducible repeat' first
    | assumption | refine State.addItem_keeps ?_ | dsimp only | refine Keeps.ite ?_ ?_

theorem State.cancelAwaited_keeps {s0 s : State} {a1 : ℕ} {a2 : ℕ} {a3 : ℕ} (k : Keeps s0 s) :
    Keeps s0 (State.cancelAwaited s a1 a2 a3) := by
  unfold State.cancelAwaited
  with_reducible repeat' first
    | assumption | refine State.setAwaited_keeps ?_ | refine State.cancelNotice_keeps ?_
    | refine State.freeRun_keeps ?_ | refine State.uncharge_keeps ?_ | refine foldl_keeps ?_ (fun _ _ _ => ?_)
    | dsimp only | fail_if_no_progress (refine Keeps.unfold ?_; dsimp only; refine Keeps.fold ?_)

theorem State.startEngine_keeps {s0 s : State} {a1 : ℕ} (k : Keeps s0 s) :
    Keeps s0 (State.startEngine s a1) := by
  unfold State.startEngine
  with_reducible repeat' first
    | assumption | refine State.reserveMove_keeps ?_ | refine State.flyItem_keeps ?_ | refine State.putItem_keeps ?_
    | dsimp only | split

theorem State.relabelTile_keeps {s0 s : State} {a1 : ℕ} {a2 : ℕ} {a3 : ℕ} {a4 : Disp} (k : Keeps s0 s) :
    Keeps s0 (State.relabelTile s a1 a2 a3 a4) := by
  unfold State.relabelTile
  with_reducible repeat' first
    | assumption | refine State.freeTile_keeps ?_ | refine State.setTile_keeps ?_

theorem State.dropTile_keeps {s0 s : State} {a1 : ℕ} {a2 : ℕ} {a3 : ℕ} (k : Keeps s0 s) :
    Keeps s0 (State.dropTile s a1 a2 a3) := by
  unfold State.dropTile
  with_reducible repeat' first
    | assumption | refine State.cancelAwaited_keeps ?_ | refine State.release_keeps ?_

theorem State.useTile_keeps {s0 s : State} {a1 : ℕ} {a2 : ℕ} {a3 : ℕ} (k : Keeps s0 s) :
    Keeps s0 (State.useTile s a1 a2 a3) := by
  unfold State.useTile
  with_reducible repeat' first
    | assumption | refine State.setTile_keeps ?_ | refine State.release_keeps ?_ | dsimp only
    | refine Keeps.ite ?_ ?_

theorem State.stopDemotion_keeps {s0 s : State} {a1 : ℕ} (k : Keeps s0 s) :
    Keeps s0 (State.stopDemotion s a1) := by
  unfold State.stopDemotion
  with_reducible repeat' first
    | assumption | refine State.freeRun_keeps ?_ | refine State.uncharge_keeps ?_ | refine State.putItem_keeps ?_
    | refine State.offChannel_keeps ?_ | refine State.settle_keeps ?_ | refine State.finish_keeps ?_ | dsimp only
    | split

theorem State.stopDemotions_keeps {s0 s : State} {a1 : ℕ} {a2 : ℕ} {a3 : ℕ} (k : Keeps s0 s) :
    Keeps s0 (State.stopDemotions s a1 a2 a3) := by
  unfold State.stopDemotions
  with_reducible repeat' first
    | assumption | refine State.stopDemotion_keeps ?_ | refine foldl_keeps ?_ (fun _ _ _ => ?_)

theorem State.tileNotice_keeps {s0 s : State} {a1 : ℕ} {a2 : ℕ} (k : Keeps s0 s) :
    Keeps s0 (State.tileNotice s a1 a2) := by
  unfold State.tileNotice
  with_reducible repeat' first
    | assumption | refine State.endItem_keeps ?_ | refine State.putItem_keeps ?_ | refine State.flag_keeps ?_
    | refine State.writeNotice_keeps ?_ | refine State.setAwaited_keeps ?_ | dsimp only | refine Keeps.ite ?_ ?_
    | split

theorem State.startReturn_keeps {s0 s : State} {a1 : ℕ} {a2 : ℕ} (k : Keeps s0 s) :
    Keeps s0 (State.startReturn s a1 a2) := by
  unfold State.startReturn
  with_reducible repeat' first
    | assumption | refine State.endItem_keeps ?_ | refine State.putItem_keeps ?_ | refine State.tileNotice_keeps ?_
    | refine Keeps.of_optp (by assumption) (State.reserve_keeps ?_) | dsimp only | refine Keeps.ite ?_ ?_ | split

theorem State.frontLattice_keeps {s0 s : State} {a1 : ℕ} {a2 : ℕ} (k : Keeps s0 s) :
    Keeps s0 (State.frontLattice s a1 a2) := by
  unfold State.frontLattice
  with_reducible repeat' first
    | assumption | refine State.endItem_keeps ?_ | refine State.putItem_keeps ?_ | refine State.startReturn_keeps ?_
    | refine State.startRegrow_keeps ?_ | refine State.stopDemotions_keeps ?_
    | refine foldl_keeps ?_ (fun _ _ _ => ?_) | dsimp only | refine Keeps.ite ?_ ?_ | split

theorem State.frontDeliver_keeps {s0 s : State} {a1 : ℕ} (k : Keeps s0 s) :
    Keeps s0 (State.frontDeliver s a1) := by
  unfold State.frontDeliver
  with_reducible repeat' first
    | assumption | refine State.endItem_keeps ?_ | refine State.putItem_keeps ?_ | refine State.useTile_keeps ?_
    | refine State.startReturn_keeps ?_ | refine State.startRegrow_keeps ?_ | refine State.stopDemotions_keeps ?_
    | dsimp only | refine Keeps.ite ?_ ?_ | split

theorem State.front_keeps {s0 s : State} {a1 : ℕ} (k : Keeps s0 s) :
    Keeps s0 (State.front s a1) := by
  unfold State.front
  with_reducible repeat' first
    | assumption | refine State.intake_keeps ?_ | refine State.frontDeliver_keeps ?_
    | refine State.frontLattice_keeps ?_ | refine State.endItem_keeps ?_ | refine State.sendRequest_keeps ?_
    | refine State.putItem_keeps ?_ | refine State.stopDemotions_keeps ?_ | refine State.flag_keeps ?_
    | refine State.setCore_keeps ?_ | refine State.dropTile_keeps ?_ | refine State.relabelTile_keeps ?_
    | refine State.flyItem_keeps ?_ | refine State.startEngine_keeps ?_ | dsimp only | refine Keeps.ite ?_ ?_ | split

/-! ### Chan -/

theorem State.park_keeps {s0 s : State} {a1 : ℕ} {a2 : ℕ} (k : Keeps s0 s) :
    Keeps s0 (State.park s a1 a2) := by
  unfold State.park
  with_reducible repeat' first
    | assumption | refine State.setChan_keeps ?_ | refine State.putItem_keeps ?_ | dsimp only | split

theorem State.showChan_keeps {s0 s : State} {a1 : ℕ} (k : Keeps s0 s) :
    Keeps s0 (State.showChan s a1) := by
  unfold State.showChan
  with_reducible repeat' first
    | assumption | refine State.wr_keeps ?_

theorem State.moorReads_keeps {s0 s : State} {a1 : ℕ} {a2 : List ℕ} (k : Keeps s0 s) :
    Keeps s0 (State.moorReads s a1 a2) := by
  unfold State.moorReads
  with_reducible repeat' first
    | assumption | refine State.moorMove_keeps ?_ | refine foldl_keeps ?_ (fun _ _ _ => ?_) | dsimp only
    | refine Keeps.ite ?_ ?_ | split

theorem State.sendPut_keeps {s0 s : State} {a1 : ℕ} (k : Keeps s0 s) :
    Keeps s0 (State.sendPut s a1) := by
  unfold State.sendPut
  with_reducible repeat' first
    | assumption | refine State.endItem_keeps ?_ | refine State.putItem_keeps ?_ | refine State.count_keeps ?_
    | refine State.requestAs_keeps ?_ | refine State.sendRequest_keeps ?_ | dsimp only | refine Keeps.ite ?_ ?_
    | split

theorem State.beginWork_keeps {s0 s : State} {a1 : ℕ} (k : Keeps s0 s) :
    Keeps s0 (State.beginWork s a1) := by
  unfold State.beginWork
  with_reducible repeat' first
    | assumption | refine State.putItem_keeps ?_ | refine State.noteStart_keeps ?_ | refine State.issueReads_keeps ?_
    | refine State.flyItem_keeps ?_ | refine State.moorReads_keeps ?_ | refine State.sendPut_keeps ?_
    | refine State.reserveMove_keeps ?_ | dsimp only | refine Keeps.ite ?_ ?_ | split

theorem State.goOn_keeps {s0 s : State} {a1 : ℕ} (k : Keeps s0 s) :
    Keeps s0 (State.goOn s a1) := by
  unfold State.goOn
  with_reducible repeat' first
    | assumption | refine State.issueReads_keeps ?_ | refine State.beginWork_keeps ?_ | refine Keeps.ite ?_ ?_
    | split

theorem State.activate_keeps {s0 s : State} {a1 : ℕ} {a2 : ℕ} (k : Keeps s0 s) :
    Keeps s0 (State.activate s a1 a2) := by
  unfold State.activate
  with_reducible repeat' first
    | assumption | refine State.setChan_keeps ?_ | refine State.showChan_keeps ?_ | refine State.putItem_keeps ?_
    | refine State.issueReads_keeps ?_ | refine State.beginWork_keeps ?_ | dsimp only | refine Keeps.ite ?_ ?_
    | split

theorem State.pump_keeps {s0 s : State} {a0 : ℕ} {a2 : ℕ} (k : Keeps s0 s) :
    Keeps s0 (State.pump a0 s a2) := by
  induction a0 generalizing s a2 with
  | zero =>
    unfold State.pump
    with_reducible repeat' first
      | assumption

  | succ n ih =>
    unfold State.pump
    with_reducible repeat' first
      | refine ih ?_
      | assumption | refine State.showChan_keeps ?_ | refine State.activate_keeps ?_ | refine State.slot_keeps ?_
      | refine Keeps.ite ?_ ?_ | split

theorem State.pumpAll_keeps {s0 s : State}  (k : Keeps s0 s) :
    Keeps s0 (State.pumpAll s) := by
  unfold State.pumpAll
  with_reducible repeat' first
    | assumption | refine State.serveCtxs_keeps ?_ | refine State.pump_keeps ?_
    | refine foldl_keeps ?_ (fun _ _ _ => ?_) | refine Keeps.ite ?_ ?_

theorem State.placeItem_keeps {s0 s : State} {a1 : ℕ} (k : Keeps s0 s) :
    Keeps s0 (State.placeItem s a1) := by
  unfold State.placeItem
  with_reducible repeat' first
    | assumption | refine State.failItem_keeps ?_ | refine State.putItem_keeps ?_ | refine State.park_keeps ?_
    | refine State.activate_keeps ?_ | refine State.setChan_keeps ?_ | dsimp only | refine Keeps.ite ?_ ?_ | split

/-! ### Move -/

theorem State.countHome_keeps {s0 s : State} {a1 : ℕ} {a2 : Bool} {a3 : Home} {a4 : ℕ} (k : Keeps s0 s) :
    Keeps s0 (State.countHome s a1 a2 a3 a4) := by
  unfold State.countHome
  with_reducible repeat' first
    | assumption | refine State.count_keeps ?_ | refine Keeps.ite ?_ ?_

theorem State.countDesc_keeps {s0 s : State} {a1 : ℕ} {a2 : Bool} {a3 : Beat} {a4 : ℕ} (k : Keeps s0 s) :
    Keeps s0 (State.countDesc s a1 a2 a3 a4) := by
  unfold State.countDesc
  with_reducible repeat' first
    | assumption | refine State.countHome_keeps ?_ | refine foldl_keeps ?_ (fun _ _ _ => ?_)

theorem State.latticeOne_keeps {s0 s : State} {a1 : Item} {a2 : ℕ} {a3 : ℕ} (k : Keeps s0 s) :
    Keeps s0 (State.latticeOne s a1 a2 a3).1 := by
  unfold State.latticeOne
  with_reducible repeat' first
    | assumption | refine State.sendWrite_keeps ?_ | refine State.countHome_keeps ?_ | refine State.count_keeps ?_
    | refine foldl_keeps ?_ (fun _ _ _ => ?_) | dsimp only | split

theorem State.tierFail_keeps {s0 s : State} {a1 : ℕ} {a2 : ℕ} (k : Keeps s0 s) :
    Keeps s0 (State.tierFail s a1 a2) := by
  unfold State.tierFail
  with_reducible repeat' first
    | assumption | refine State.flag_keeps ?_ | refine Keeps.ite ?_ ?_

theorem State.lteOne_keeps {s0 s : State} {a1 : ℕ} {a2 : Beat} {a3 : ℕ} (k : Keeps s0 s) :
    Keeps s0 (State.lteOne s a1 a2 a3) := by
  unfold State.lteOne
  with_reducible repeat' first
    | assumption | refine State.bump_keeps ?_ | dsimp only | refine Keeps.ite ?_ ?_

theorem State.abandon_keeps {s0 s : State} {a1 : ℕ} {a2 : ℕ} {a3 : ℕ} (k : Keeps s0 s) :
    Keeps s0 (State.abandon s a1 a2 a3) := by
  unfold State.abandon
  with_reducible repeat' first
    | assumption | refine State.freeRun_keeps ?_ | refine State.uncharge_keeps ?_ | refine State.putItem_keeps ?_
    | refine State.tierFail_keeps ?_ | dsimp only | split

theorem State.readBack_keeps {s0 s : State} {a1 : Item} {a2 : ℕ} {a3 : ℕ} (k : Keeps s0 s) :
    Keeps s0 (State.readBack s a1 a2 a3) := by
  unfold State.readBack
  with_reducible repeat' first
    | assumption | refine State.putItem_keeps ?_ | refine Keeps.of_opt (by assumption) (State.sendRead_keeps ?_)
    | split

theorem State.commitMove_keeps {s0 s : State} {a1 : Item} {a2 : TileRec} {a3 : Disp} {a4 : Home} {a5 : ℕ} {a6 : ℕ} {a7 : ℕ} {a8 : Bool} {a9 : ℕ} (k : Keeps s0 s) :
    Keeps s0 (State.commitMove s a1 a2 a3 a4 a5 a6 a7 a8 a9) := by
  unfold State.commitMove
  with_reducible repeat' first
    | assumption | refine State.setTile_keeps ?_ | refine State.freeTile_keeps ?_ | refine State.trimRun_keeps ?_
    | refine State.setOcc_keeps ?_ | refine State.countHome_keeps ?_ | refine State.putItem_keeps ?_

theorem State.commitUnpress_keeps {s0 s : State} {a1 : ℕ} (k : Keeps s0 s) :
    Keeps s0 (State.commitUnpress s a1) := by
  unfold State.commitUnpress
  with_reducible repeat' first
    | assumption | refine State.abandon_keeps ?_ | refine State.flag_keeps ?_ | refine State.commitMove_keeps ?_
    | refine State.physWrite_keeps ?_ | dsimp only | refine Keeps.ite ?_ ?_ | split

theorem State.commitPress_keeps {s0 s : State} {a1 : ℕ} {a2 : ℕ} {a3 : ℕ} {a4 : ℕ} (k : Keeps s0 s) :
    Keeps s0 (State.commitPress s a1 a2 a3 a4) := by
  unfold State.commitPress
  with_reducible repeat' first
    | assumption | refine State.abandon_keeps ?_ | refine State.flag_keeps ?_ | refine State.countPass_keeps ?_
    | refine State.writeMeta_keeps ?_ | refine State.commitMove_keeps ?_ | refine State.physWrite_keeps ?_
    | refine State.setTile_keeps ?_ | dsimp only | refine Keeps.ite ?_ ?_ | split

theorem State.commitStored_keeps {s0 s : State} {a1 : ℕ} (k : Keeps s0 s) :
    Keeps s0 (State.commitStored s a1) := by
  unfold State.commitStored
  with_reducible repeat' first
    | assumption | refine State.abandon_keeps ?_ | refine State.commitMove_keeps ?_ | refine State.physWrite_keeps ?_
    | refine State.moorMove_keeps ?_ | refine State.putItem_keeps ?_ | dsimp only | refine Keeps.ite ?_ ?_ | split

theorem State.baleFault_keeps {s0 s : State} {a1 : ℕ} {a2 : ℕ} {a3 : ℕ} (k : Keeps s0 s) :
    Keeps s0 (State.baleFault s a1 a2 a3) := by
  unfold State.baleFault
  with_reducible repeat' first
    | assumption | refine State.heal_keeps ?_ | refine State.flag_keeps ?_

theorem State.regrowStart_keeps {s0 s : State} {a1 : ℕ} (k : Keeps s0 s) :
    Keeps s0 (State.regrowStart s a1) := by
  unfold State.regrowStart
  with_reducible repeat' first
    | assumption | refine State.endItem_keeps ?_ | refine State.fallback_keeps ?_ | refine State.flag_keeps ?_
    | refine State.reserveMove_keeps ?_ | refine State.flyItem_keeps ?_ | refine State.serveCtxs_keeps ?_
    | refine State.putItem_keeps ?_ | dsimp only | refine Keeps.ite ?_ ?_ | split

theorem State.endEnded_keeps {s0 s : State} {a1 : ℕ} (k : Keeps s0 s) :
    Keeps s0 (State.endEnded s a1) := by
  unfold State.endEnded
  with_reducible repeat' first
    | assumption | refine State.endItem_keeps ?_ | refine State.baleFault_keeps ?_ | dsimp only
    | refine Keeps.ite ?_ ?_ | split

theorem State.endNotify_keeps {s0 s : State} {a1 : ℕ} (k : Keeps s0 s) :
    Keeps s0 (State.endNotify s a1) := by
  unfold State.endNotify
  with_reducible repeat' first
    | assumption | refine State.endItem_keeps ?_ | refine State.putItem_keeps ?_ | refine State.flag_keeps ?_
    | refine State.writeNotice_keeps ?_ | refine State.setAwaited_keeps ?_
    | refine Keeps.of_optp (by assumption) (State.reserve_keeps ?_) | dsimp only | refine Keeps.ite ?_ ?_ | split

theorem State.regrowCommit_keeps {s0 s : State} {a1 : ℕ} (k : Keeps s0 s) :
    Keeps s0 (State.regrowCommit s a1) := by
  unfold State.regrowCommit
  with_reducible repeat' first
    | assumption | refine State.endItem_keeps ?_ | refine State.baleFault_keeps ?_ | refine State.afterTile_keeps ?_
    | refine State.tedFlags_keeps ?_ | refine State.countHome_keeps ?_ | refine State.physWrite_keeps ?_
    | refine State.setTile_keeps ?_ | refine State.bump_keeps ?_ | refine State.putItem_keeps ?_
    | refine State.releaseInputs_keeps ?_ | refine foldl_keeps ?_ (fun _ _ _ => ?_) | dsimp only
    | refine Keeps.ite ?_ ?_ | split

theorem State.endTedd_keeps {s0 s : State} {a1 : ℕ} {a2 : ℕ} {a3 : ℕ} (k : Keeps s0 s) :
    Keeps s0 (State.endTedd s a1 a2 a3) := by
  unfold State.endTedd
  with_reducible repeat' first
    | assumption | refine State.endItem_keeps ?_ | refine State.runBeats_keeps ?_ | refine State.countDesc_keeps ?_
    | refine State.tedFlags_keeps ?_ | refine State.bump_keeps ?_ | dsimp only | refine Keeps.ite ?_ ?_ | split

theorem State.delivered_keeps {s0 s : State} {a1 : ℕ} {a2 : ℕ} {a3 : ℕ} {a4 : List ℕ} {a5 : ErrAt} (k : Keeps s0 s) :
    Keeps s0 (State.delivered s a1 a2 a3 a4 a5) := by
  unfold State.delivered
  with_reducible repeat' first
    | assumption | refine State.endItem_keeps ?_ | refine State.useTile_keeps ?_
    | refine foldl_keeps ?_ (fun _ _ _ => ?_) | split

theorem State.endCopy_keeps {s0 s : State} {a1 : ℕ} {a2 : ℕ} (k : Keeps s0 s) :
    Keeps s0 (State.endCopy s a1 a2) := by
  unfold State.endCopy
  with_reducible repeat' first
    | assumption | refine State.endItem_keeps ?_ | refine State.runBeats_keeps ?_ | refine State.lteFlags_keeps ?_
    | refine State.lteCount_keeps ?_ | refine State.countDesc_keeps ?_ | refine State.tierFail_keeps ?_
    | refine State.issueWrites_keeps ?_ | refine State.putItem_keeps ?_ | dsimp only | refine Keeps.ite ?_ ?_ | split

theorem State.endRegrow_keeps {s0 s : State} {a1 : ℕ} {a2 : ℕ} {a3 : ℕ} {a4 : ℕ} (k : Keeps s0 s) :
    Keeps s0 (State.endRegrow s a1 a2 a3 a4) := by
  unfold State.endRegrow
  with_reducible repeat' first
    | assumption | refine State.endItem_keeps ?_ | refine foldl_keeps ?_ (fun _ _ _ => ?_) | dsimp only
    | refine Keeps.ite ?_ ?_

theorem State.endLattice_keeps {s0 s : State} {a1 : ℕ} {a2 : Bool} (k : Keeps s0 s) :
    Keeps s0 (State.endLattice s a1 a2) := by
  unfold State.endLattice
  with_reducible repeat' first
    | assumption | refine State.endItem_keeps ?_ | refine State.flag_keeps ?_ | refine State.latticeOne_keeps ?_
    | refine State.baleFault_keeps ?_ | refine State.readBack_keeps ?_ | refine State.delivered_keeps ?_
    | refine State.tierFail_keeps ?_ | refine foldl_keeps ?_ (fun _ _ _ => ?_)
    | refine foldl_keeps_fst ?_ (fun _ _ _ => ?_) | dsimp only | refine Keeps.ite ?_ ?_ | split

theorem State.endDeliver_keeps {s0 s : State} {a1 : ℕ} {a2 : Bool} (k : Keeps s0 s) :
    Keeps s0 (State.endDeliver s a1 a2) := by
  unfold State.endDeliver
  with_reducible repeat' first
    | assumption | refine State.endItem_keeps ?_ | refine State.tierFail_keeps ?_ | refine State.flag_keeps ?_
    | refine State.runBeats_keeps ?_ | refine State.countHome_keeps ?_ | refine State.count_keeps ?_
    | refine State.lteOne_keeps ?_ | refine State.baleFault_keeps ?_ | refine State.readBack_keeps ?_
    | refine State.delivered_keeps ?_ | dsimp only | refine Keeps.ite ?_ ?_ | split

/-! ### PartOps -/

theorem State.resetPartRegs_keeps {s0 s : State} {a1 : ℕ} (k : Keeps s0 s) :
    Keeps s0 (State.resetPartRegs s a1) := by
  unfold State.resetPartRegs
  with_reducible repeat' first
    | assumption | dsimp only | fail_if_no_progress (refine Keeps.unfold ?_; dsimp only; refine Keeps.fold ?_)

theorem State.clearPins_keeps {s0 s : State} {a1 : ℕ} (k : Keeps s0 s) :
    Keeps s0 (State.clearPins s a1) := by
  unfold State.clearPins
  with_reducible repeat' first
    | assumption | refine State.wr_keeps ?_ | dsimp only
    | fail_if_no_progress (refine Keeps.unfold ?_; dsimp only; refine Keeps.fold ?_)

theorem State.stopWalk_keeps {s0 s : State} {a1 : ℕ} (k : Keeps s0 s) :
    Keeps s0 (State.stopWalk s a1) := by
  unfold State.stopWalk
  with_reducible repeat' first
    | assumption | refine State.wr_keeps ?_
    | fail_if_no_progress (refine Keeps.unfold ?_; dsimp only; refine Keeps.fold ?_)

theorem State.dropHeld_keeps {s0 s : State} {a1 : ℕ → Held → Bool} (k : Keeps s0 s) :
    Keeps s0 (State.dropHeld s a1) := by
  unfold State.dropHeld
  with_reducible repeat' first
    | assumption | refine State.setHeld_keeps ?_ | refine foldl_keeps ?_ (fun _ _ _ => ?_) | dsimp only
    | refine Keeps.ite ?_ ?_

theorem State.sendClose_keeps {s0 s : State} {a1 : ℕ} (k : Keeps s0 s) :
    Keeps s0 (State.sendClose s a1) := by
  unfold State.sendClose
  with_reducible repeat' first
    | assumption | refine State.sendRaw_keeps ?_ | refine State.setConn_keeps ?_

theorem State.revokeRing_keeps {s0 s : State} {a1 : ℕ} (k : Keeps s0 s) :
    Keeps s0 (State.revokeRing s a1) := by
  unfold State.revokeRing
  with_reducible repeat' first
    | assumption | refine State.dropHeld_keeps ?_ | refine State.wr_keeps ?_ | refine State.setRingRec_keeps ?_

theorem State.crrDone_keeps {s0 s : State} {a1 : ℕ} {a2 : ℕ} (k : Keeps s0 s) :
    Keeps s0 (State.crrDone s a1 a2) := by
  unfold State.crrDone
  with_reducible repeat' first
    | assumption | refine State.wr_keeps ?_ | refine State.flag_keeps ?_

theorem State.endReset_keeps {s0 s : State} {a1 : ℕ} (k : Keeps s0 s) :
    Keeps s0 (State.endReset s a1) := by
  unfold State.endReset
  with_reducible repeat' first
    | assumption | refine State.flag_keeps ?_ | refine State.wr_keeps ?_

theorem State.stopStream_keeps {s0 s : State} {a1 : ℕ} {a2 : Bool} (k : Keeps s0 s) :
    Keeps s0 (State.stopStream s a1 a2) := by
  unfold State.stopStream
  with_reducible repeat' first
    | assumption | refine State.wr_keeps ?_ | refine State.flag_keeps ?_ | dsimp only | refine Keeps.ite ?_ ?_
    | fail_if_no_progress (refine Keeps.unfold ?_; dsimp only; refine Keeps.fold ?_)

theorem State.inDoubt_keeps {s0 s : State} {a1 : ℕ} {a2 : ℕ} {a3 : ℕ} {a4 : ℕ} {a5 : ℕ} (k : Keeps s0 s) :
    Keeps s0 (State.inDoubt s a1 a2 a3 a4 a5) := by
  unfold State.inDoubt
  with_reducible repeat' first
    | assumption | refine State.sat_keeps ?_ | refine State.deadLetter_keeps ?_

theorem State.revokeChannel_keeps {s0 s : State} {a1 : ℕ} (k : Keeps s0 s) :
    Keeps s0 (State.revokeChannel s a1) := by
  unfold State.revokeChannel
  with_reducible repeat' first
    | assumption | refine State.voidItem_keeps ?_ | refine State.freeLines_keeps ?_ | refine State.absorb_keeps ?_
    | refine State.dropHeld_keeps ?_ | refine State.refreshLines_keeps ?_ | refine State.setChan_keeps ?_
    | refine foldl_keeps ?_ (fun _ _ _ => ?_)

theorem State.revokeSo_keeps {s0 s : State} {a1 : ℕ} {a2 : ℕ} (k : Keeps s0 s) :
    Keeps s0 (State.revokeSo s a1 a2) := by
  unfold State.revokeSo
  with_reducible repeat' first
    | assumption | refine State.wake_keeps ?_ | refine State.voidItem_keeps ?_ | refine State.flag_keeps ?_
    | refine State.wr_keeps ?_ | refine State.stopStream_keeps ?_ | refine State.stopWalk_keeps ?_
    | refine foldl_keeps ?_ (fun _ _ _ => ?_) | dsimp only | refine Keeps.ite ?_ ?_
    | fail_if_no_progress (refine Keeps.unfold ?_; dsimp only; refine Keeps.fold ?_) | split

theorem State.revokeCtx_keeps {s0 s : State} {a1 : ℕ} (k : Keeps s0 s) :
    Keeps s0 (State.revokeCtx s a1) := by
  unfold State.revokeCtx
  with_reducible repeat' first
    | assumption | refine State.setLease_keeps ?_ | refine State.requeueWaiters_keeps ?_
    | refine State.voidItem_keeps ?_ | refine foldl_keeps ?_ (fun _ _ _ => ?_) | dsimp only | split

theorem State.putOver_keeps {s0 s : State} {a1 : Item} {a2 : ℕ} {a3 : ℕ} {a4 : ℕ} (k : Keeps s0 s) :
    Keeps s0 (State.putOver s a1 a2 a3 a4) := by
  unfold State.putOver
  with_reducible repeat' first
    | assumption | refine State.sendMessage_keeps ?_ | refine State.endItem_keeps ?_ | refine State.dropReq_keeps ?_
    | dsimp only | refine Keeps.ite ?_ ?_ | split

theorem State.failReq_keeps {s0 s : State} {a1 : CrrReq} {a2 : ℕ} (k : Keeps s0 s) :
    Keeps s0 (State.failReq s a1 a2) := by
  unfold State.failReq
  with_reducible repeat' first
    | assumption | refine State.badRead_keeps ?_ | refine State.putItem_keeps ?_ | refine State.moorDone_keeps ?_
    | refine State.endItem_keeps ?_ | refine Keeps.ite ?_ ?_ | split

theorem State.teardown_keeps {s0 s : State} {a1 : ℕ} {a2 : ℕ} (k : Keeps s0 s) :
    Keeps s0 (State.teardown s a1 a2) := by
  unfold State.teardown
  with_reducible repeat' first
    | assumption | refine State.setConn_keeps ?_ | refine State.wr_keeps ?_ | refine State.crrDone_keeps ?_
    | refine State.failReq_keeps ?_ | refine State.setMoorState_keeps ?_ | refine State.failItem_keeps ?_
    | refine State.lose_keeps ?_ | refine State.inDoubt_keeps ?_ | refine foldl_keeps ?_ (fun _ _ _ => ?_)
    | dsimp only | refine Keeps.ite ?_ ?_
    | fail_if_no_progress (refine Keeps.unfold ?_; dsimp only; refine Keeps.fold ?_) | split

theorem State.quench_keeps {s0 s : State} {a1 : ℕ} (k : Keeps s0 s) :
    Keeps s0 (State.quench s a1) := by
  unfold State.quench
  with_reducible repeat' first
    | assumption | refine State.advanceEpochs_keeps ?_ | refine State.quenchItem_keeps ?_
    | refine State.freeLines_keeps ?_ | refine State.absorb_keeps ?_ | refine State.dropHeld_keeps ?_
    | refine State.refreshLines_keeps ?_ | refine State.clearPins_keeps ?_ | refine State.dropPartLines_keeps ?_
    | refine State.setLease_keeps ?_ | refine State.teardown_keeps ?_ | refine State.sendClose_keeps ?_
    | refine State.freeRun_keeps ?_ | refine State.setPlan_keeps ?_ | refine State.setOcc_keeps ?_
    | refine State.wr_keeps ?_ | refine foldl_keeps ?_ (fun _ _ _ => ?_) | dsimp only | refine Keeps.ite ?_ ?_
    | fail_if_no_progress (refine Keeps.unfold ?_; dsimp only; refine Keeps.fold ?_)

theorem State.startReset_keeps {s0 s : State} {a1 : ℕ} (k : Keeps s0 s) :
    Keeps s0 (State.startReset s a1) := by
  unfold State.startReset
  with_reducible repeat' first
    | assumption | refine State.wr_keeps ?_ | refine State.resetPartRegs_keeps ?_ | refine State.quench_keeps ?_
    | refine State.zeroScratch_keeps ?_ | refine State.clearCore_keeps ?_ | refine State.setCoreState_keeps ?_
    | refine foldl_keeps ?_ (fun _ _ _ => ?_) | dsimp only | refine Keeps.ite ?_ ?_
    | fail_if_no_progress (refine Keeps.unfold ?_; dsimp only; refine Keeps.fold ?_)

theorem State.fatal_keeps {s0 s : State} {a1 : ℕ} {a2 : ℕ} {a3 : ℕ} {a4 : ℕ} (k : Keeps s0 s) :
    Keeps s0 (State.fatal s a1 a2 a3 a4) := by
  unfold State.fatal
  with_reducible repeat' first
    | assumption | refine State.deadLetter_keeps ?_ | refine State.haltCore_keeps ?_ | refine State.wr_keeps ?_
    | refine State.quench_keeps ?_ | refine foldl_keeps ?_ (fun _ _ _ => ?_) | dsimp only | refine Keeps.ite ?_ ?_

/-! ### Chain -/

theorem State.countRange_keeps {s0 s : State} {a1 : ℕ} {a2 : Bool} {a3 : List ℕ} (k : Keeps s0 s) :
    Keeps s0 (State.countRange s a1 a2 a3) := by
  unfold State.countRange
  with_reducible repeat' first
    | assumption | refine State.countHome_keeps ?_ | refine foldl_keeps ?_ (fun _ _ _ => ?_)

theorem State.setChState_keeps {s0 s : State} {a1 : ℕ} {a2 : ℕ} (k : Keeps s0 s) :
    Keeps s0 (State.setChState s a1 a2) := by
  unfold State.setChState
  with_reducible repeat' first
    | assumption | refine State.wr_keeps ?_

theorem State.endChain_keeps {s0 s : State} {a1 : ℕ} (k : Keeps s0 s) :
    Keeps s0 (State.endChain s a1) := by
  unfold State.endChain
  with_reducible repeat' first
    | assumption | refine State.setChan_keeps ?_ | refine State.wr_keeps ?_ | refine State.setChState_keeps ?_
    | dsimp only | refine Keeps.ite ?_ ?_

theorem State.kickRead_keeps {s0 s : State} {a1 : ℕ} {a2 : ℕ} (k : Keeps s0 s) :
    Keeps s0 (State.kickRead s a1 a2) := by
  unfold State.kickRead
  with_reducible repeat' first
    | assumption | refine State.setChState_keeps ?_ | refine State.setChan_keeps ?_ | dsimp only
    | refine Keeps.ite ?_ ?_

theorem State.afterRecs_keeps {s0 s : State} {a1 : ℕ} (k : Keeps s0 s) :
    Keeps s0 (State.afterRecs s a1) := by
  unfold State.afterRecs
  with_reducible repeat' first
    | assumption | refine State.wr_keeps ?_ | refine State.setChState_keeps ?_ | refine State.showChan_keeps ?_
    | refine State.endChain_keeps ?_ | dsimp only | refine Keeps.ite ?_ ?_

theorem State.addDesc_keeps {s0 s : State} {a1 : ℕ} {a2 : ℕ} {a3 : List ℕ} {a4 : Option (ℕ × ℕ)} (k : Keeps s0 s) :
    Keeps s0 (State.addDesc s a1 a2 a3 a4) := by
  unfold State.addDesc
  with_reducible repeat' first
    | assumption | refine State.classOf_keeps ?_ | refine State.addItem_keeps ?_ | refine State.setChan_keeps ?_

theorem State.haltChain_keeps {s0 s : State} {a1 : ℕ} {a2 : ℕ} {a3 : Option (ℕ × List ℕ)} (k : Keeps s0 s) :
    Keeps s0 (State.haltChain s a1 a2 a3) := by
  unfold State.haltChain
  with_reducible repeat' first
    | assumption | refine State.withdraw_keeps ?_ | refine State.absorb_keeps ?_ | refine State.setChan_keeps ?_
    | refine State.wr_keeps ?_ | refine State.refreshLines_keeps ?_ | refine State.setChState_keeps ?_
    | refine foldl_keeps ?_ (fun _ _ _ => ?_)

theorem State.chainWrite_keeps {s0 s : State} {a1 : Item} {a2 : List ℕ} {a3 : ℕ} {a4 : List Byte} (k : Keeps s0 s) :
    wroteKeeps s0 (State.chainWrite s a1 a2 a3 a4) := by
  unfold State.chainWrite
  with_reducible repeat' first
    | assumption | refine State.devWrite_keeps ?_ | refine State.sendWrite_keeps ?_ | refine wroteKeeps.ok ?_
    | refine wroteKeeps.fault ?_ | dsimp only | refine wroteKeeps.ite ?_ ?_ | split

theorem State.beginDesc_keeps {s0 s : State} {a1 : ℕ} {a2 : ℕ} (k : Keeps s0 s) :
    Keeps s0 (State.beginDesc s a1 a2) := by
  unfold State.beginDesc
  with_reducible repeat' first
    | assumption | refine State.setChan_keeps ?_ | refine State.issueReads_keeps ?_ | refine State.putItem_keeps ?_
    | dsimp only | refine Keeps.ite ?_ ?_ | split

theorem State.chainWrites_keeps {s0 s : State} {a0 : Item} {a1 : List ℕ} {a2 : List (ℕ × List Byte)} (k : Keeps s0 s) :
    wroteKeeps s0 (State.chainWrites a0 a1 a2 s) := by
  induction a2 generalizing a0 a1 s with
  | nil =>
    unfold State.chainWrites
    with_reducible repeat' first
      | assumption | refine State.chainWrite_keeps ?_
      | refine Keeps.of_wrote (by assumption) (State.chainWrite_keeps ?_) | refine wroteKeeps.ok ?_
  | cons x l ih =>
    unfold State.chainWrites
    with_reducible repeat' first
      | refine ih ?_
      | assumption | refine State.chainWrite_keeps ?_
      | refine Keeps.of_wrote (by assumption) (State.chainWrite_keeps ?_) | refine wroteKeeps.ok ?_ | split

theorem State.chainBeats_keeps {s0 s : State} {a0 : Item} {a1 : List ℕ} {a2 : ℕ} {a3 : ℕ} (k : Keeps s0 s) :
    Keeps s0 (State.chainBeats a0 a1 a2 a3 s).s := by
  induction a2 generalizing a0 a1 a3 s with
  | zero =>
    unfold State.chainBeats
    with_reducible repeat' first
      | assumption

  | succ n ih =>
    unfold State.chainBeats
    with_reducible repeat' first
      | refine ih ?_
      | assumption | refine Keeps.of_wrote (by assumption) (State.chainWrites_keeps ?_)
      | refine Keeps.of_fault (by assumption) (State.chainWrites_keeps ?_) | dsimp only | split

theorem State.writeRecs_keeps {s0 s : State} {a0 : ℕ} {a2 : ℕ} (k : Keeps s0 s) :
    Keeps s0 (State.writeRecs a0 s a2) := by
  induction a0 generalizing s a2 with
  | zero =>
    unfold State.writeRecs
    with_reducible repeat' first
      | assumption

  | succ n ih =>
    unfold State.writeRecs
    with_reducible repeat' first
      | refine ih ?_
      | assumption | refine State.setChan_keeps ?_ | refine State.wr_keeps ?_ | refine State.setChState_keeps ?_
      | refine Keeps.of_snd (by assumption) (State.putRecord_keeps ?_) | dsimp only | refine Keeps.ite ?_ ?_ | split

theorem State.beginChain_keeps {s0 s : State} {a1 : ℕ} (k : Keeps s0 s) :
    Keeps s0 (State.beginChain s a1) := by
  unfold State.beginChain
  with_reducible repeat' first
    | assumption | refine State.beginDesc_keeps ?_ | refine Keeps.ite ?_ ?_ | split

theorem State.addRec_keeps {s0 s : State} {a1 : ℕ} {a2 : CplRec} (k : Keeps s0 s) :
    Keeps s0 (State.addRec s a1 a2) := by
  unfold State.addRec
  with_reducible repeat' first
    | assumption | refine State.setChan_keeps ?_ | refine State.writeRecs_keeps ?_ | refine State.setChState_keeps ?_
    | dsimp only | refine Keeps.ite ?_ ?_

theorem State.runDesc_keeps {s0 s : State} {a1 : Item} (k : Keeps s0 s) :
    Keeps s0 (State.runDesc s a1).s := by
  unfold State.runDesc
  with_reducible repeat' first
    | assumption | refine State.chainBeats_keeps ?_ | refine State.countRange_keeps ?_ | dsimp only
    | refine Keeps.ite ?_ ?_ | split

theorem State.drainRecs_keeps {s0 s : State} {a1 : ℕ} (k : Keeps s0 s) :
    Keeps s0 (State.drainRecs s a1) := by
  unfold State.drainRecs
  with_reducible repeat' first
    | assumption | refine State.afterRecs_keeps ?_ | refine State.writeRecs_keeps ?_ | refine Keeps.ite ?_ ?_

theorem State.takeDesc_keeps {s0 s : State} {a1 : ℕ} {a2 : ℕ} {a3 : Option (List ℕ)} (k : Keeps s0 s) :
    Keeps s0 (State.takeDesc s a1 a2 a3) := by
  unfold State.takeDesc
  with_reducible repeat' first
    | assumption | refine State.wr_keeps ?_ | refine State.addDesc_keeps ?_ | refine State.beginChain_keeps ?_
    | dsimp only | split

theorem State.addRec?_keeps {s0 s : State} {a1 : ℕ} {a2 : Option CplRec} (k : Keeps s0 s) :
    Keeps s0 (State.addRec? s a1 a2) := by
  unfold State.addRec?
  with_reducible repeat' first
    | assumption | refine State.addRec_keeps ?_ | split

theorem State.endDesc_keeps {s0 s : State} {a1 : ℕ} {a2 : ℕ} {a3 : ℕ} {a4 : ErrAt} {a5 : Bool} {a6 : ℕ} (k : Keeps s0 s) :
    Keeps s0 (State.endDesc s a1 a2 a3 a4 a5 a6) := by
  unfold State.endDesc
  with_reducible repeat' first
    | assumption | refine State.finish_keeps ?_ | refine State.wr_keeps ?_ | refine State.addRec?_keeps ?_
    | refine State.haltChain_keeps ?_ | refine State.endChain_keeps ?_ | refine State.beginChain_keeps ?_
    | dsimp only | refine Keeps.ite ?_ ?_ | split

theorem State.endChainItem_keeps {s0 s : State} {a1 : ℕ} (k : Keeps s0 s) :
    Keeps s0 (State.endChainItem s a1) := by
  unfold State.endChainItem
  with_reducible repeat' first
    | assumption | refine State.endDesc_keeps ?_ | refine State.putItem_keeps ?_ | refine State.askAts_keeps ?_
    | refine State.runDesc_keeps ?_ | refine State.tierFail_keeps ?_ | refine State.readBack_keeps ?_ | dsimp only
    | refine Keeps.ite ?_ ?_ | split

theorem State.readNext_keeps {s0 s : State} {a1 : ℕ} (k : Keeps s0 s) :
    Keeps s0 (State.readNext s a1) := by
  unfold State.readNext
  with_reducible repeat' first
    | assumption | refine State.takeDesc_keeps ?_ | refine State.addDesc_keeps ?_ | refine State.haltChain_keeps ?_
    | refine State.askAts_keeps ?_ | refine State.setChState_keeps ?_ | refine State.setChan_keeps ?_
    | refine optKeeps.getD (State.sendRead_keeps ?_) ?_ | dsimp only | refine Keeps.ite ?_ ?_ | split

theorem State.stopDesc_keeps {s0 s : State} {a1 : ℕ} {a2 : ℕ} {a3 : ℕ} (k : Keeps s0 s) :
    Keeps s0 (State.stopDesc s a1 a2 a3) := by
  unfold State.stopDesc
  with_reducible repeat' first
    | assumption | refine State.endDesc_keeps ?_ | refine State.runDesc_keeps ?_ | dsimp only
    | refine Keeps.ite ?_ ?_ | split

/-! ### CoreExec -/

theorem State.retire_keeps {s0 s : State} {a1 : ℕ} (k : Keeps s0 s) :
    Keeps s0 (State.retire s a1) := by
  unfold State.retire
  with_reducible repeat' first
    | assumption | refine State.bump_keeps ?_

theorem State.trapReturn_keeps {s0 s : State} {a1 : ℕ} (k : Keeps s0 s) :
    Keeps s0 (State.trapReturn s a1) := by
  unfold State.trapReturn
  with_reducible repeat' first
    | assumption | refine State.setPc_keeps ?_ | refine State.wr_keeps ?_

theorem State.takeTrap_keeps {s0 s : State} {a1 : ℕ} {a2 : Trap} {a3 : Bool} {a4 : ℕ} (k : Keeps s0 s) :
    Keeps s0 (State.takeTrap s a1 a2 a3 a4) := by
  unfold State.takeTrap
  with_reducible repeat' first
    | assumption | refine State.setCore_keeps ?_ | refine State.irq_keeps ?_ | refine State.haltCore_keeps ?_
    | refine State.wr_keeps ?_ | refine State.wrb_keeps ?_ | refine State.setCoreState_keeps ?_
    | refine State.setPc_keeps ?_ | dsimp only | refine Keeps.ite ?_ ?_

theorem State.imprecise?_keeps {s0 s : State} {a1 : ℕ} (k : Keeps s0 s) :
    optKeeps s0 (State.imprecise? s a1) := by
  unfold State.imprecise?
  with_reducible repeat' first
    | assumption | refine State.wr_keeps ?_ | refine State.setCore_keeps ?_ | refine State.takeTrap_keeps ?_
    | refine optKeeps.some ?_ | exact optKeeps.none | dsimp only | refine optKeeps.ite ?_ ?_ | split

theorem State.takeFatal_keeps {s0 s : State} {a1 : ℕ} {a2 : ℕ} {a3 : ℕ} (k : Keeps s0 s) :
    Keeps s0 (State.takeFatal s a1 a2 a3) := by
  unfold State.takeFatal
  with_reducible repeat' first
    | assumption | refine State.wr_keeps ?_ | refine State.flag_keeps ?_ | refine State.fatal_keeps ?_
    | refine State.haltCore_keeps ?_ | dsimp only | split

theorem State.instr_keeps {s0 s : State} {a1 : ℕ} {a2 : Word} {a3 : Ulital.Kind} {a4 : CoreErr} {a5 : State → CRes} (k : Keeps s0 s) (h5 : ∀ x0, Keeps s0 x0 → cresKeeps s0 (a5 x0)) :
    Keeps s0 (State.instr s a1 a2 a3 a4 a5) := by
  unfold State.instr
  with_reducible repeat' first
    | assumption | refine State.takeFatal_keeps ?_ | refine h5 _ ?_ | refine State.takeTrap_keeps ?_
    | refine State.setPc_keeps ?_ | refine State.retire_keeps ?_
    | refine Keeps.of_opt (by assumption) (State.imprecise?_keeps ?_) | dsimp only | refine Keeps.ite ?_ ?_
    | refine Keeps.of_ok (by assumption) ?_ | refine Keeps.of_block (by assumption) ?_
    | refine Keeps.of_trapIn (by assumption) ?_ | refine cresKeeps.ok ?_ | split

/-! ### Scalar -/

theorem State.setPreds_keeps {s0 s : State} {a1 : ℕ} {a2 : Word} (k : Keeps s0 s) :
    Keeps s0 (State.setPreds s a1 a2) := by
  unfold State.setPreds
  with_reducible repeat' first
    | assumption | refine State.setP_keeps ?_ | refine foldl_keeps ?_ (fun _ _ _ => ?_)

theorem execTret_keeps {s0 s : State} {a0 : BitVec 6} {a1 : Word} {a2 : CoreErr} (k : Keeps s0 s) :
    nextKeeps s0 (execTret a0 a1 a2 s) := by
  unfold execTret
  with_reducible repeat' first
    | assumption | refine State.instr_keeps ?_ (fun _ _ => ?_) | refine State.trapReturn_keeps ?_
    | refine nextKeeps.next ?_ | refine cresKeeps.ok ?_ | exact cresKeeps.trap | refine cresKeeps.ite ?_ ?_

theorem execSload_keeps {s0 s : State} {a0 : BitVec 6} {a1 : Word} {a2 : CoreErr} (k : Keeps s0 s) :
    nextKeeps s0 (execSload a0 a1 a2 s) := by
  unfold execSload
  with_reducible repeat' first
    | assumption | refine State.instr_keeps ?_ (fun _ _ => ?_) | refine State.setG_keeps ?_
    | refine nextKeeps.next ?_ | refine cresKeeps.ok ?_ | exact cresKeeps.trap | exact cresKeeps.fatal | dsimp only
    | refine cresKeeps.ite ?_ ?_ | split

theorem execBra_keeps {s0 s : State} {a0 : BitVec 6} {a1 : Word} {a2 : CoreErr} (k : Keeps s0 s) :
    nextKeeps s0 (execBra a0 a1 a2 s) := by
  unfold execBra
  with_reducible repeat' first
    | assumption | refine State.instr_keeps ?_ (fun _ _ => ?_) | refine State.setPc_keeps ?_
    | refine nextKeeps.next ?_ | refine cresKeeps.ok ?_

theorem execPred_keeps {s0 s : State} {a0 : BitVec 6} {a1 : Word} {a2 : CoreErr} (k : Keeps s0 s) :
    nextKeeps s0 (execPred a0 a1 a2 s) := by
  unfold execPred
  with_reducible repeat' first
    | assumption | refine State.instr_keeps ?_ (fun _ _ => ?_) | refine State.setP_keeps ?_
    | refine State.setG_keeps ?_ | refine State.setPreds_keeps ?_ | refine nextKeeps.next ?_ | refine cresKeeps.ok ?_
    | split

theorem execAlui_keeps {s0 s : State} {a0 : BitVec 6} {a1 : Word} {a2 : CoreErr} (k : Keeps s0 s) :
    nextKeeps s0 (execAlui a0 a1 a2 s) := by
  unfold execAlui
  with_reducible repeat' first
    | assumption | refine State.instr_keeps ?_ (fun _ _ => ?_) | refine State.setG_keeps ?_
    | refine nextKeeps.next ?_ | refine cresKeeps.ok ?_

theorem execCallr_keeps {s0 s : State} {a0 : BitVec 6} {a1 : Word} {a2 : CoreErr} (k : Keeps s0 s) :
    nextKeeps s0 (execCallr a0 a1 a2 s) := by
  unfold execCallr
  with_reducible repeat' first
    | assumption | refine State.instr_keeps ?_ (fun _ _ => ?_) | refine State.setPc_keeps ?_
    | refine State.setG_keeps ?_ | refine nextKeeps.next ?_ | refine cresKeeps.ok ?_

theorem execTzero_keeps {s0 s : State} {a0 : BitVec 6} {a1 : Word} {a2 : CoreErr} (k : Keeps s0 s) :
    nextKeeps s0 (execTzero a0 a1 a2 s) := by
  unfold execTzero
  with_reducible repeat' first
    | assumption | refine State.instr_keeps ?_ (fun _ _ => ?_) | refine State.setT_keeps ?_
    | refine nextKeeps.next ?_ | refine cresKeeps.ok ?_

theorem execAlu_keeps {s0 s : State} {a0 : BitVec 6} {a1 : Word} {a2 : CoreErr} (k : Keeps s0 s) :
    nextKeeps s0 (execAlu a0 a1 a2 s) := by
  unfold execAlu
  with_reducible repeat' first
    | assumption | refine State.instr_keeps ?_ (fun _ _ => ?_) | refine State.setG_keeps ?_
    | refine nextKeeps.next ?_ | refine cresKeeps.ok ?_

theorem execBrk_keeps {s0 s : State} {a0 : BitVec 6} {a1 : Word} {a2 : CoreErr} (k : Keeps s0 s) :
    nextKeeps s0 (execBrk a0 a1 a2 s) := by
  unfold execBrk
  with_reducible repeat' first
    | assumption | refine State.instr_keeps ?_ (fun _ _ => ?_) | refine nextKeeps.next ?_ | exact cresKeeps.trap

theorem execCmpi_keeps {s0 s : State} {a0 : BitVec 6} {a1 : Word} {a2 : CoreErr} (k : Keeps s0 s) :
    nextKeeps s0 (execCmpi a0 a1 a2 s) := by
  unfold execCmpi
  with_reducible repeat' first
    | assumption | refine State.instr_keeps ?_ (fun _ _ => ?_) | refine State.setP_keeps ?_
    | refine nextKeeps.next ?_ | refine cresKeeps.ok ?_

theorem execMovi_keeps {s0 s : State} {a0 : BitVec 6} {a1 : Word} {a2 : CoreErr} (k : Keeps s0 s) :
    nextKeeps s0 (execMovi a0 a1 a2 s) := by
  unfold execMovi
  with_reducible repeat' first
    | assumption | refine State.instr_keeps ?_ (fun _ _ => ?_) | refine State.setG_keeps ?_
    | refine nextKeeps.next ?_ | refine cresKeeps.ok ?_

theorem execJr_keeps {s0 s : State} {a0 : BitVec 6} {a1 : Word} {a2 : CoreErr} (k : Keeps s0 s) :
    nextKeeps s0 (execJr a0 a1 a2 s) := by
  unfold execJr
  with_reducible repeat' first
    | assumption | refine State.instr_keeps ?_ (fun _ _ => ?_) | refine State.setPc_keeps ?_
    | refine nextKeeps.next ?_ | refine cresKeeps.ok ?_

theorem execCsrw_keeps {s0 s : State} {a0 : BitVec 6} {a1 : Word} {a2 : CoreErr} (k : Keeps s0 s) :
    nextKeeps s0 (execCsrw a0 a1 a2 s) := by
  unfold execCsrw
  with_reducible repeat' first
    | assumption | refine State.instr_keeps ?_ (fun _ _ => ?_) | refine State.wr_keeps ?_ | refine nextKeeps.next ?_
    | refine cresKeeps.ok ?_ | exact cresKeeps.trap | dsimp only | refine cresKeeps.ite ?_ ?_

theorem execMovhi_keeps {s0 s : State} {a0 : BitVec 6} {a1 : Word} {a2 : CoreErr} (k : Keeps s0 s) :
    nextKeeps s0 (execMovhi a0 a1 a2 s) := by
  unfold execMovhi
  with_reducible repeat' first
    | assumption | refine State.instr_keeps ?_ (fun _ _ => ?_) | refine State.setG_keeps ?_
    | refine nextKeeps.next ?_ | refine cresKeeps.ok ?_

theorem execCsrr_keeps {s0 s : State} {a0 : BitVec 6} {a1 : Word} {a2 : CoreErr} (k : Keeps s0 s) :
    nextKeeps s0 (execCsrr a0 a1 a2 s) := by
  unfold execCsrr
  with_reducible repeat' first
    | assumption | refine State.instr_keeps ?_ (fun _ _ => ?_) | refine State.setG_keeps ?_
    | refine nextKeeps.next ?_ | refine cresKeeps.ok ?_

theorem execTget_keeps {s0 s : State} {a0 : BitVec 6} {a1 : Word} {a2 : CoreErr} (k : Keeps s0 s) :
    nextKeeps s0 (execTget a0 a1 a2 s) := by
  unfold execTget
  with_reducible repeat' first
    | assumption | refine State.instr_keeps ?_ (fun _ _ => ?_) | refine State.setG_keeps ?_
    | refine nextKeeps.next ?_ | refine cresKeeps.ok ?_

theorem execHalt_keeps {s0 s : State} {a0 : BitVec 6} {a1 : Word} {a2 : CoreErr} (k : Keeps s0 s) :
    nextKeeps s0 (execHalt a0 a1 a2 s) := by
  unfold execHalt
  with_reducible repeat' first
    | assumption | refine State.instr_keeps ?_ (fun _ _ => ?_) | refine State.haltCore_keeps ?_
    | refine State.wr_keeps ?_ | refine nextKeeps.next ?_ | refine cresKeeps.ok ?_

theorem execCall_keeps {s0 s : State} {a0 : BitVec 6} {a1 : Word} {a2 : CoreErr} (k : Keeps s0 s) :
    nextKeeps s0 (execCall a0 a1 a2 s) := by
  unfold execCall
  with_reducible repeat' first
    | assumption | refine State.instr_keeps ?_ (fun _ _ => ?_) | refine State.setPc_keeps ?_
    | refine State.setG_keeps ?_ | refine nextKeeps.next ?_ | refine cresKeeps.ok ?_

theorem execMul_keeps {s0 s : State} {a0 : BitVec 6} {a1 : Word} {a2 : CoreErr} (k : Keeps s0 s) :
    nextKeeps s0 (execMul a0 a1 a2 s) := by
  unfold execMul
  with_reducible repeat' first
    | assumption | refine State.instr_keeps ?_ (fun _ _ => ?_) | refine State.setG_keeps ?_
    | refine nextKeeps.next ?_ | refine cresKeeps.ok ?_

theorem execTset_keeps {s0 s : State} {a0 : BitVec 6} {a1 : Word} {a2 : CoreErr} (k : Keeps s0 s) :
    nextKeeps s0 (execTset a0 a1 a2 s) := by
  unfold execTset
  with_reducible repeat' first
    | assumption | refine State.instr_keeps ?_ (fun _ _ => ?_) | refine State.setT_keeps ?_
    | refine nextKeeps.next ?_ | refine cresKeeps.ok ?_

theorem execDiv_keeps {s0 s : State} {a0 : BitVec 6} {a1 : Word} {a2 : CoreErr} (k : Keeps s0 s) :
    nextKeeps s0 (execDiv a0 a1 a2 s) := by
  unfold execDiv
  with_reducible repeat' first
    | assumption | refine State.instr_keeps ?_ (fun _ _ => ?_) | refine State.setG_keeps ?_
    | refine nextKeeps.next ?_ | refine cresKeeps.ok ?_ | exact cresKeeps.trap | dsimp only
    | refine cresKeeps.ite ?_ ?_

theorem execCmp_keeps {s0 s : State} {a0 : BitVec 6} {a1 : Word} {a2 : CoreErr} (k : Keeps s0 s) :
    nextKeeps s0 (execCmp a0 a1 a2 s) := by
  unfold execCmp
  with_reducible repeat' first
    | assumption | refine State.instr_keeps ?_ (fun _ _ => ?_) | refine State.setP_keeps ?_
    | refine nextKeeps.next ?_ | refine cresKeeps.ok ?_

theorem execSstore_keeps {s0 s : State} {a0 : BitVec 6} {a1 : Word} {a2 : CoreErr} (k : Keeps s0 s) :
    nextKeeps s0 (execSstore a0 a1 a2 s) := by
  unfold execSstore
  with_reducible repeat' first
    | assumption | refine State.instr_keeps ?_ (fun _ _ => ?_) | refine State.scratchWrite_keeps ?_
    | refine nextKeeps.next ?_ | refine cresKeeps.ok ?_ | exact cresKeeps.trap | dsimp only | split

theorem execTst_keeps {s0 s : State} {a0 : BitVec 6} {a1 : Word} {a2 : CoreErr} (k : Keeps s0 s) :
    nextKeeps s0 (execTst a0 a1 a2 s) := by
  unfold execTst
  with_reducible repeat' first
    | assumption | refine State.instr_keeps ?_ (fun _ _ => ?_) | refine State.scratchWrite_keeps ?_
    | refine nextKeeps.next ?_ | refine cresKeeps.ok ?_ | exact cresKeeps.trap | dsimp only | split

theorem execTld_keeps {s0 s : State} {a0 : BitVec 6} {a1 : Word} {a2 : CoreErr} (k : Keeps s0 s) :
    nextKeeps s0 (execTld a0 a1 a2 s) := by
  unfold execTld
  with_reducible repeat' first
    | assumption | refine State.instr_keeps ?_ (fun _ _ => ?_) | refine State.setT_keeps ?_
    | refine nextKeeps.next ?_ | refine cresKeeps.ok ?_ | exact cresKeeps.trap | exact cresKeeps.fatal | dsimp only
    | refine cresKeeps.ite ?_ ?_ | split

theorem execTmov_keeps {s0 s : State} {a0 : BitVec 6} {a1 : Word} {a2 : CoreErr} (k : Keeps s0 s) :
    nextKeeps s0 (execTmov a0 a1 a2 s) := by
  unfold execTmov
  with_reducible repeat' first
    | assumption | refine State.instr_keeps ?_ (fun _ _ => ?_) | refine State.setT_keeps ?_
    | refine nextKeeps.next ?_ | refine cresKeeps.ok ?_

/-! ### MemInstr -/

theorem State.coreRead_keeps_ok {s0 s t : State} {c va n : Nat} {err : CoreErr} {bs : List Byte}
    (e : s.coreRead c va n err = .ok (bs, t)) (k : Keeps s0 s) : Keeps s0 t := by
  unfold State.coreRead at e
  dsimp only at e
  split at e
  · cases e
  · split at e
    · cases e
    · split at e
      · cases e
      · cases e
        exact State.vread_keeps k

theorem State.coreRead_keeps_error {s0 s t : State} {c va n : Nat} {err : CoreErr} {x : Trap}
    (e : s.coreRead c va n err = .error (t, x)) (k : Keeps s0 s) : Keeps s0 t := by
  unfold State.coreRead at e
  dsimp only at e
  split at e
  · cases e; exact k
  · split at e
    · cases e; exact k
    · split at e
      · cases e
        exact State.vread_keeps k
      · cases e

theorem State.bufferStore_keeps {s0 s : State} {a1 : ℕ} {a2 : ℕ} {a3 : List Byte} (k : Keeps s0 s) :
    Keeps s0 (State.bufferStore s a1 a2 a3) := by
  unfold State.bufferStore
  with_reducible repeat' first
    | assumption | refine State.setCore_keeps ?_

theorem State.activateRules_keeps {s0 s : State} {a1 : ℕ} (k : Keeps s0 s) :
    Keeps s0 (State.activateRules s a1) := by
  unfold State.activateRules
  with_reducible repeat' first
    | assumption | refine State.wr_keeps ?_ | refine State.setPlan_keeps ?_ | dsimp only | split

theorem State.setAsync_keeps {s0 s : State} {a1 : ℕ} {a2 : ℕ} (k : Keeps s0 s) :
    Keeps s0 (State.setAsync s a1 a2) := by
  unfold State.setAsync
  with_reducible repeat' first
    | assumption | refine State.wr_keeps ?_ | refine State.setCore_keeps ?_ | dsimp only | refine Keeps.ite ?_ ?_

theorem State.waitHere_keeps {s0 s : State} {a1 : ℕ} (k : Keeps s0 s) :
    cresKeeps s0 (State.waitHere s a1) := by
  unfold State.waitHere
  with_reducible repeat' first
    | assumption | refine State.setPc_keeps ?_ | refine cresKeeps.block ?_

theorem execWaitTimeout_keeps {s0 s : State} {a0 : BitVec 6} (k : Keeps s0 s) :
    nextKeeps s0 (execWaitTimeout a0 s) := by
  unfold execWaitTimeout
  with_reducible repeat' first
    | assumption | refine State.wake_keeps ?_ | refine nextKeeps.next ?_ | dsimp only | split

theorem State.landStore_keeps {s0 s : State} {a1 : ℕ} {a2 : BufStore} (k : Keeps s0 s) :
    Keeps s0 (State.landStore s a1 a2) := by
  unfold State.landStore
  with_reducible repeat' first
    | assumption | refine State.vwrite_keeps ?_ | dsimp only | split

theorem State.coreStore_keeps {s0 s : State} {a1 : ℕ} {a2 : ℕ} {a3 : List Byte} (k : Keeps s0 s) :
    optKeeps s0 (State.coreStore s a1 a2 a3) := by
  unfold State.coreStore
  with_reducible repeat' first
    | assumption | refine State.setAsync_keeps ?_ | refine State.bufferStore_keeps ?_ | refine State.vwrite_keeps ?_
    | refine optKeeps.some ?_ | exact optKeeps.none | dsimp only | refine optKeeps.ite ?_ ?_

theorem State.drainStores_keeps {s0 s : State} {a0 : ℕ} {a2 : ℕ} {a3 : Bool} (k : Keeps s0 s) :
    Keeps s0 (State.drainStores a0 s a2 a3) := by
  induction a0 generalizing s a2 a3 with
  | zero =>
    unfold State.drainStores
    with_reducible repeat' first
      | assumption

  | succ n ih =>
    unfold State.drainStores
    with_reducible repeat' first
      | refine ih ?_
      | assumption | refine State.setCore_keeps ?_ | refine State.landStore_keeps ?_ | dsimp only
      | refine Keeps.ite ?_ ?_ | split

theorem State.storeRun_keeps {s0 s : State} {a1 : ℕ} {a2 : ℕ} {a3 : List Byte} (k : Keeps s0 s) :
    cresKeeps s0 (State.storeRun s a1 a2 a3) := by
  unfold State.storeRun
  with_reducible repeat' first
    | assumption | refine State.waitHere_keeps ?_ | refine Keeps.of_opt (by assumption) (State.coreStore_keeps ?_)
    | refine cresKeeps.ok ?_ | exact cresKeeps.trap | split

theorem execAsyncStoreFail_keeps {s0 s : State} {a0 : BitVec 6} (k : Keeps s0 s) :
    nextKeeps s0 (execAsyncStoreFail a0 s) := by
  unfold execAsyncStoreFail
  with_reducible repeat' first
    | assumption | refine State.setAsync_keeps ?_ | refine State.setCore_keeps ?_ | refine State.drainStores_keeps ?_
    | refine nextKeeps.next ?_ | dsimp only | split

theorem execAmo_keeps {s0 s : State} {a0 : BitVec 6} {a1 : Word} {a2 : CoreErr} (k : Keeps s0 s) :
    nextKeeps s0 (execAmo a0 a1 a2 s) := by
  unfold execAmo
  with_reducible repeat' first
    | assumption | refine State.instr_keeps ?_ (fun _ _ => ?_) | refine State.waitHere_keeps ?_
    | refine State.setG_keeps ?_ | refine State.vwrite_keeps ?_ | refine nextKeeps.next ?_ | refine cresKeeps.ok ?_
    | refine cresKeeps.trapIn ?_ | exact cresKeeps.trap | dsimp only | refine cresKeeps.ite ?_ ?_
    | refine State.coreRead_keeps_ok (by assumption) ?_ | refine State.coreRead_keeps_error (by assumption) ?_
    | split

theorem execSignal_keeps {s0 s : State} {a0 : BitVec 6} {a1 : Word} {a2 : CoreErr} (k : Keeps s0 s) :
    nextKeeps s0 (execSignal a0 a1 a2 s) := by
  unfold execSignal
  with_reducible repeat' first
    | assumption | refine State.instr_keeps ?_ (fun _ _ => ?_) | refine State.waitHere_keeps ?_
    | refine State.soOp_keeps ?_ | refine nextKeeps.next ?_ | refine cresKeeps.ok ?_ | exact cresKeeps.trap
    | refine cresKeeps.ite ?_ ?_ | split

theorem execFence_keeps {s0 s : State} {a0 : BitVec 6} {a1 : Word} {a2 : CoreErr} (k : Keeps s0 s) :
    nextKeeps s0 (execFence a0 a1 a2 s) := by
  unfold execFence
  with_reducible repeat' first
    | assumption | refine State.instr_keeps ?_ (fun _ _ => ?_) | refine State.waitHere_keeps ?_
    | refine nextKeeps.next ?_ | refine cresKeeps.ok ?_ | dsimp only | refine cresKeeps.ite ?_ ?_

theorem execLoad_keeps {s0 s : State} {a0 : BitVec 6} {a1 : Word} {a2 : CoreErr} (k : Keeps s0 s) :
    nextKeeps s0 (execLoad a0 a1 a2 s) := by
  unfold execLoad
  with_reducible repeat' first
    | assumption | refine State.instr_keeps ?_ (fun _ _ => ?_) | refine State.setG_keeps ?_
    | refine nextKeeps.next ?_ | refine cresKeeps.ok ?_ | refine cresKeeps.trapIn ?_ | dsimp only
    | refine State.coreRead_keeps_ok (by assumption) ?_ | refine State.coreRead_keeps_error (by assumption) ?_
    | split

theorem execEadv_keeps {s0 s : State} {a0 : BitVec 6} {a1 : Word} {a2 : CoreErr} (k : Keeps s0 s) :
    nextKeeps s0 (execEadv a0 a1 a2 s) := by
  unfold execEadv
  with_reducible repeat' first
    | assumption | refine State.instr_keeps ?_ (fun _ _ => ?_) | refine State.setG_keeps ?_
    | refine State.activateRules_keeps ?_ | refine State.setPlan_keeps ?_ | refine nextKeeps.next ?_
    | refine cresKeeps.ok ?_ | exact cresKeeps.trap | dsimp only | refine cresKeeps.ite ?_ ?_

theorem execWait_keeps {s0 s : State} {a0 : BitVec 6} {a1 : Word} {a2 : CoreErr} (k : Keeps s0 s) :
    nextKeeps s0 (execWait a0 a1 a2 s) := by
  unfold execWait
  with_reducible repeat' first
    | assumption | refine State.instr_keeps ?_ (fun _ _ => ?_) | refine State.setG_keeps ?_
    | refine State.setCoreState_keeps ?_ | refine State.setCore_keeps ?_ | refine State.setPc_keeps ?_
    | refine nextKeeps.next ?_ | refine cresKeeps.ok ?_ | refine cresKeeps.block ?_ | exact cresKeeps.trap
    | dsimp only | refine cresKeeps.ite ?_ ?_ | split

theorem execTldd_keeps {s0 s : State} {a0 : BitVec 6} {a1 : Word} {a2 : CoreErr} (k : Keeps s0 s) :
    nextKeeps s0 (execTldd a0 a1 a2 s) := by
  unfold execTldd
  with_reducible repeat' first
    | assumption | refine State.instr_keeps ?_ (fun _ _ => ?_) | refine State.setT_keeps ?_
    | refine nextKeeps.next ?_ | refine cresKeeps.ok ?_ | refine cresKeeps.trapIn ?_
    | refine State.coreRead_keeps_ok (by assumption) ?_ | refine State.coreRead_keeps_error (by assumption) ?_
    | split

theorem execTstd_keeps {s0 s : State} {a0 : BitVec 6} {a1 : Word} {a2 : CoreErr} (k : Keeps s0 s) :
    nextKeeps s0 (execTstd a0 a1 a2 s) := by
  unfold execTstd
  with_reducible repeat' first
    | assumption | refine State.instr_keeps ?_ (fun _ _ => ?_) | refine State.storeRun_keeps ?_
    | refine nextKeeps.next ?_

theorem execSread_keeps {s0 s : State} {a0 : BitVec 6} {a1 : Word} {a2 : CoreErr} (k : Keeps s0 s) :
    nextKeeps s0 (execSread a0 a1 a2 s) := by
  unfold execSread
  with_reducible repeat' first
    | assumption | refine State.instr_keeps ?_ (fun _ _ => ?_) | refine State.setG_keeps ?_
    | refine nextKeeps.next ?_ | refine cresKeeps.ok ?_ | exact cresKeeps.trap | split

theorem execStore_keeps {s0 s : State} {a0 : BitVec 6} {a1 : Word} {a2 : CoreErr} (k : Keeps s0 s) :
    nextKeeps s0 (execStore a0 a1 a2 s) := by
  unfold execStore
  with_reducible repeat' first
    | assumption | refine State.instr_keeps ?_ (fun _ _ => ?_) | refine State.storeRun_keeps ?_
    | refine nextKeeps.next ?_

theorem execRstage_keeps {s0 s : State} {a0 : BitVec 6} {a1 : Word} {a2 : CoreErr} (k : Keeps s0 s) :
    nextKeeps s0 (execRstage a0 a1 a2 s) := by
  unfold execRstage
  with_reducible repeat' first
    | assumption | refine State.instr_keeps ?_ (fun _ _ => ?_) | refine State.setG_keeps ?_
    | refine State.vread_keeps ?_ | refine State.setPlan_keeps ?_ | refine nextKeeps.next ?_ | refine cresKeeps.ok ?_
    | exact cresKeeps.trap | dsimp only | refine cresKeeps.ite ?_ ?_ | split

/-! ### Issue -/

theorem State.issueNow_keeps {s0 s : State} {a1 : ℕ} {a2 : Item} (k : Keeps s0 s) :
    cresKeeps s0 (State.issueNow s a1 a2) := by
  unfold State.issueNow
  with_reducible repeat' first
    | assumption | refine State.flag_keeps ?_ | refine State.writeSlot_keeps ?_ | refine State.setG_keeps ?_
    | refine State.wr_keeps ?_ | refine State.classOf_keeps ?_ | refine State.addItem_keeps ?_
    | refine State.front_keeps ?_ | refine cresKeeps.ok ?_ | refine cresKeeps.trapIn ?_ | dsimp only
    | refine Keeps.ite ?_ ?_ | refine cresKeeps.ite ?_ ?_

theorem State.issueOrStall_keeps {s0 s : State} {a1 : ℕ} {a2 : Item} (k : Keeps s0 s) :
    cresKeeps s0 (State.issueOrStall s a1 a2) := by
  unfold State.issueOrStall
  with_reducible repeat' first
    | assumption | refine State.issueNow_keeps ?_ | refine State.setPc_keeps ?_ | refine State.setCore_keeps ?_
    | refine State.setCoreState_keeps ?_ | refine cresKeeps.block ?_ | dsimp only | refine cresKeeps.ite ?_ ?_

theorem State.engine_keeps {s0 s : State} {a1 : BitVec 6} {a2 : Word} {a3 : Ulital.Kind} {a4 : CoreErr} {a5 : State → CRes} (k : Keeps s0 s) (h5 : ∀ x0, Keeps s0 x0 → cresKeeps s0 (a5 x0)) :
    nextKeeps s0 (State.engine s a1 a2 a3 a4 a5) := by
  unfold State.engine
  with_reducible repeat' first
    | assumption | refine State.pumpAll_keeps ?_ | refine h5 _ ?_ | refine State.instr_keeps ?_ (fun _ _ => ?_)
    | refine nextKeeps.next ?_

theorem State.issue_keeps {s0 s : State} {a1 : ℕ} {a2 : Word} {a3 : List ℕ} {a4 : List (ℕ × Beat)} {a5 : Option Trap} {a6 : Item} (k : Keeps s0 s) :
    cresKeeps s0 (State.issue s a1 a2 a3 a4 a5 a6) := by
  unfold State.issue
  with_reducible repeat' first
    | assumption | refine State.setPc_keeps ?_ | refine State.issueOrStall_keeps ?_ | refine cresKeeps.block ?_
    | exact cresKeeps.trap | refine cresKeeps.ite ?_ ?_ | split

theorem execTeddOp_keeps {s0 s : State} {a0 : BitVec 6} {a1 : Word} {a2 : CoreErr} (k : Keeps s0 s) :
    nextKeeps s0 (execTeddOp a0 a1 a2 s) := by
  unfold execTeddOp
  with_reducible repeat' first
    | assumption | refine State.engine_keeps ?_ (fun _ _ => ?_) | refine State.issue_keeps ?_

theorem execPress_keeps {s0 s : State} {a0 : BitVec 6} {a1 : Word} {a2 : CoreErr} (k : Keeps s0 s) :
    nextKeeps s0 (execPress a0 a1 a2 s) := by
  unfold execPress
  with_reducible repeat' first
    | assumption | refine State.engine_keeps ?_ (fun _ _ => ?_) | refine State.issue_keeps ?_

theorem execFetchRecall_keeps {s0 s : State} {a0 : BitVec 6} {a1 : Word} {a2 : CoreErr} (k : Keeps s0 s) :
    nextKeeps s0 (execFetchRecall a0 a1 a2 s) := by
  unfold execFetchRecall
  with_reducible repeat' first
    | assumption | refine State.engine_keeps ?_ (fun _ _ => ?_) | refine State.issue_keeps ?_

theorem execMoveSend_keeps {s0 s : State} {a0 : BitVec 6} {a1 : Word} {a2 : CoreErr} (k : Keeps s0 s) :
    nextKeeps s0 (execMoveSend a0 a1 a2 s) := by
  unfold execMoveSend
  with_reducible repeat' first
    | assumption | refine State.engine_keeps ?_ (fun _ _ => ?_) | refine State.issue_keeps ?_

theorem State.tileIssue_keeps {s0 s : State} {a1 : BitVec 6} {a2 : Word} {a3 : Ulital.Kind} {a4 : CoreErr} {a5 : Work} (k : Keeps s0 s) :
    nextKeeps s0 (State.tileIssue s a1 a2 a3 a4 a5) := by
  unfold State.tileIssue
  with_reducible repeat' first
    | assumption | refine State.engine_keeps ?_ (fun _ _ => ?_) | refine State.issue_keeps ?_

theorem execDeliver_keeps {s0 s : State} {a0 : BitVec 6} {a1 : Word} {a2 : CoreErr} (k : Keeps s0 s) :
    nextKeeps s0 (execDeliver a0 a1 a2 s) := by
  unfold execDeliver
  with_reducible repeat' first
    | assumption | refine State.engine_keeps ?_ (fun _ _ => ?_) | refine State.issue_keeps ?_

theorem execFetch_keeps {s0 s : State} {a0 : BitVec 6} {a1 : Word} {a2 : CoreErr} (k : Keeps s0 s) :
    nextKeeps s0 (execFetch a0 a1 a2 s) := by
  unfold execFetch
  with_reducible repeat' first
    | assumption | refine State.engine_keeps ?_ (fun _ _ => ?_) | refine State.issue_keeps ?_

theorem execNotify_keeps {s0 s : State} {a0 : BitVec 6} {a1 : Word} {a2 : CoreErr} (k : Keeps s0 s) :
    nextKeeps s0 (execNotify a0 a1 a2 s) := by
  unfold execNotify
  with_reducible repeat' first
    | assumption | refine State.engine_keeps ?_ (fun _ _ => ?_) | refine State.issue_keeps ?_

theorem execSpill_keeps {s0 s : State} {a0 : BitVec 6} {a1 : Word} {a2 : CoreErr} (k : Keeps s0 s) :
    nextKeeps s0 (execSpill a0 a1 a2 s) := by
  unfold execSpill
  with_reducible repeat' first
    | assumption | refine State.tileIssue_keeps ?_

theorem execMoveIntake_keeps {s0 s : State} {a0 : BitVec 6} {a1 : Word} {a2 : CoreErr} (k : Keeps s0 s) :
    nextKeeps s0 (execMoveIntake a0 a1 a2 s) := by
  unfold execMoveIntake
  with_reducible repeat' first
    | assumption | refine State.engine_keeps ?_ (fun _ _ => ?_) | refine State.issue_keeps ?_

theorem execTeddRegrow_keeps {s0 s : State} {a0 : BitVec 6} {a1 : Word} {a2 : CoreErr} (k : Keeps s0 s) :
    nextKeeps s0 (execTeddRegrow a0 a1 a2 s) := by
  unfold execTeddRegrow
  with_reducible repeat' first
    | assumption | refine State.tileIssue_keeps ?_

theorem execMoveCopy_keeps {s0 s : State} {a0 : BitVec 6} {a1 : Word} {a2 : CoreErr} (k : Keeps s0 s) :
    nextKeeps s0 (execMoveCopy a0 a1 a2 s) := by
  unfold execMoveCopy
  with_reducible repeat' first
    | assumption | refine State.engine_keeps ?_ (fun _ _ => ?_) | refine State.issue_keeps ?_

theorem execDeliverLattice_keeps {s0 s : State} {a0 : BitVec 6} {a1 : Word} {a2 : CoreErr} (k : Keeps s0 s) :
    nextKeeps s0 (execDeliverLattice a0 a1 a2 s) := by
  unfold execDeliverLattice
  with_reducible repeat' first
    | assumption | refine State.engine_keeps ?_ (fun _ _ => ?_) | refine State.issue_keeps ?_

theorem execTileDrop_keeps {s0 s : State} {a0 : BitVec 6} {a1 : Word} {a2 : CoreErr} (k : Keeps s0 s) :
    nextKeeps s0 (execTileDrop a0 a1 a2 s) := by
  unfold execTileDrop
  with_reducible repeat' first
    | assumption | refine State.tileIssue_keeps ?_

theorem execLayout_keeps {s0 s : State} {a0 : BitVec 6} {a1 : Word} {a2 : CoreErr} (k : Keeps s0 s) :
    nextKeeps s0 (execLayout a0 a1 a2 s) := by
  unfold execLayout
  with_reducible repeat' first
    | assumption | refine State.engine_keeps ?_ (fun _ _ => ?_) | refine State.issue_keeps ?_

theorem execTileRelabel_keeps {s0 s : State} {a0 : BitVec 6} {a1 : Word} {a2 : CoreErr} (k : Keeps s0 s) :
    nextKeeps s0 (execTileRelabel a0 a1 a2 s) := by
  unfold execTileRelabel
  with_reducible repeat' first
    | assumption | refine State.tileIssue_keeps ?_

theorem execUnpress_keeps {s0 s : State} {a0 : BitVec 6} {a1 : Word} {a2 : CoreErr} (k : Keeps s0 s) :
    nextKeeps s0 (execUnpress a0 a1 a2 s) := by
  unfold execUnpress
  with_reducible repeat' first
    | assumption | refine State.tileIssue_keeps ?_

end Sys2Proof.Machine
end

