-- ==== Sys2Proof/Laws/KeepsTile.lean ====
section
/-! SUPPORT. What the memory tiers, core, CHAIN, item, DTU and stream commands keep: memory in its
canonical form, the TALLY unit sound, the variant and the queue of commands (`Keeps`).
One lemma an operation, cited by its callers, so no proof unfolds an operation twice. -/

namespace Sys2Proof.Machine

open Ulital

/-! ### Tier -/

theorem State.raiseDemotions_keeps {s0 s : State} {a1 : ℕ} {a2 : ℕ} {a3 : ℕ} (k : Keeps s0 s) :
    Keeps s0 (State.raiseDemotions s a1 a2 a3) := by
  unfold State.raiseDemotions
  with_reducible repeat' first
    | assumption | dsimp only | fail_if_no_progress (refine Keeps.unfold ?_; dsimp only; refine Keeps.fold ?_)

theorem State.setMigrating_keeps {s0 s : State} {a1 : ℕ} {a2 : ℕ} {a3 : Bool} (k : Keeps s0 s) :
    Keeps s0 (State.setMigrating s a1 a2 a3) := by
  unfold State.setMigrating
  with_reducible repeat' first
    | assumption | refine State.putGranule_keeps ?_ | split

theorem State.setStuck_keeps {s0 s : State} {a1 : ℕ} {a2 : ℕ} (k : Keeps s0 s) :
    Keeps s0 (State.setStuck s a1 a2) := by
  unfold State.setStuck
  with_reducible repeat' first
    | assumption | refine State.flag_keeps ?_ | refine Keeps.ite ?_ ?_

theorem State.refreshPins_keeps {s0 s : State} {a1 : ℕ} (k : Keeps s0 s) :
    Keeps s0 (State.refreshPins s a1) := by
  unfold State.refreshPins
  with_reducible repeat' first
    | assumption | refine State.wr_keeps ?_

theorem State.heathDown_keeps {s0 s : State} {a1 : ℕ} (k : Keeps s0 s) :
    Keeps s0 (State.heathDown s a1) := by
  unfold State.heathDown
  with_reducible repeat' first
    | assumption | refine State.setHeathState_keeps ?_ | refine State.setCore_keeps ?_ | refine State.wr_keeps ?_
    | refine foldl_keeps ?_ (fun _ _ _ => ?_) | dsimp only | refine Keeps.ite ?_ ?_ | split

theorem State.unpinUnit_keeps {s0 s : State} {a1 : ℕ} {a2 : Granule} (k : Keeps s0 s) :
    Keeps s0 (State.unpinUnit s a1 a2) := by
  unfold State.unpinUnit
  with_reducible repeat' first
    | assumption | refine State.refreshPins_keeps ?_ | refine State.flag_keeps ?_ | dsimp only
    | refine Keeps.ite ?_ ?_ | fail_if_no_progress (refine Keeps.unfold ?_; dsimp only; refine Keeps.fold ?_)

theorem State.granAbandon_keeps {s0 s : State} {a1 : ℕ} {a2 : ℕ} (k : Keeps s0 s) :
    Keeps s0 (State.granAbandon s a1 a2) := by
  unfold State.granAbandon
  with_reducible repeat' first
    | assumption | refine State.freeRun_keeps ?_ | refine State.uncharge_keeps ?_ | refine State.putItem_keeps ?_
    | refine State.tierFail_keeps ?_ | dsimp only | split

theorem State.winReady_keeps {s0 s : State} {a1 : ℕ} (k : Keeps s0 s) :
    Keeps s0 (State.winReady s a1) := by
  unfold State.winReady
  with_reducible repeat' first
    | assumption | refine State.soSignal_keeps ?_ | dsimp only | refine Keeps.ite ?_ ?_

theorem State.winReadyAll_keeps {s0 s : State} {a1 : ℕ} (k : Keeps s0 s) :
    Keeps s0 (State.winReadyAll s a1) := by
  unfold State.winReadyAll
  with_reducible repeat' first
    | assumption | refine State.winReady_keeps ?_ | refine foldl_keeps ?_ (fun _ _ _ => ?_)

theorem State.reissue_keeps {s0 s : State}  (k : Keeps s0 s) :
    Keeps s0 (State.reissue s) := by
  unfold State.reissue
  with_reducible repeat' first
    | assumption | refine State.issueReads_keeps ?_ | refine foldl_keeps ?_ (fun _ _ _ => ?_)

theorem State.granReserve_keeps {s0 s : State} {a1 : ℕ} (k : Keeps s0 s) :
    Keeps s0 (State.granReserve s a1) := by
  unfold State.granReserve
  with_reducible repeat' first
    | assumption | refine State.putItem_keeps ?_ | refine State.setMigrating_keeps ?_
    | refine State.moorMove_keeps ?_ | refine State.raiseDemotions_keeps ?_
    | refine Keeps.of_optp (by assumption) (State.reserve_keeps ?_) | dsimp only | refine Keeps.ite ?_ ?_ | split

theorem State.granCommit_keeps {s0 s : State} {a1 : ℕ} (k : Keeps s0 s) :
    Keeps s0 (State.granCommit s a1) := by
  unfold State.granCommit
  with_reducible repeat' first
    | assumption | refine State.granAbandon_keeps ?_ | refine State.putGranule_keeps ?_
    | refine State.freeRun_keeps ?_ | refine State.uncharge_keeps ?_ | refine State.countHome_keeps ?_
    | refine State.winReadyAll_keeps ?_ | refine State.putItem_keeps ?_ | refine State.unpinUnit_keeps ?_
    | refine State.moorMove_keeps ?_ | refine State.physWrite_keeps ?_ | dsimp only | refine Keeps.ite ?_ ?_ | split

theorem State.dropMoorReqs_keeps {s0 s : State} {a1 : ℕ} {a2 : ℕ} (k : Keeps s0 s) :
    Keeps s0 (State.dropMoorReqs s a1 a2) := by
  unfold State.dropMoorReqs
  with_reducible repeat' first
    | assumption | refine State.moorDone_keeps ?_ | refine State.setConn_keeps ?_
    | refine foldl_keeps ?_ (fun _ _ _ => ?_) | dsimp only | refine Keeps.ite ?_ ?_
    | fail_if_no_progress (refine Keeps.unfold ?_; dsimp only; refine Keeps.fold ?_) | split

theorem State.addGranule_keeps {s0 s : State} {a1 : ℕ} {a2 : ℕ} {a3 : Home} {a4 : Origin} {a5 : ℕ} {a6 : ℕ} (k : Keeps s0 s) :
    Keeps s0 (State.addGranule s a1 a2 a3 a4 a5 a6) := by
  unfold State.addGranule
  with_reducible repeat' first
    | assumption | refine State.addItem_keeps ?_ | refine State.granReserve_keeps ?_ | dsimp only
    | refine Keeps.ite ?_ ?_ | fail_if_no_progress (refine Keeps.unfold ?_; dsimp only; refine Keeps.fold ?_) | split

theorem State.nextGran_keeps {s0 s : State} {a1 : ℕ} {a2 : ℕ} (k : Keeps s0 s) :
    Keeps s0 (State.nextGran s a1 a2) := by
  unfold State.nextGran
  with_reducible repeat' first
    | assumption | refine State.granReserve_keeps ?_ | split

theorem State.startMove_keeps {s0 s : State} {a1 : ℕ} (k : Keeps s0 s) :
    Keeps s0 (State.startMove s a1) := by
  unfold State.startMove
  with_reducible repeat' first
    | assumption | refine State.putItem_keeps ?_ | refine State.flyItem_keeps ?_ | refine State.reserveMove_keeps ?_
    | refine State.moorReads_keeps ?_ | refine State.raiseDemotions_keeps ?_ | dsimp only | refine Keeps.ite ?_ ?_
    | split

theorem State.leaveGran_keeps {s0 s : State} {a1 : Item} (k : Keeps s0 s) :
    Keeps s0 (State.leaveGran s a1) := by
  unfold State.leaveGran
  with_reducible repeat' first
    | assumption | refine State.nextGran_keeps ?_ | refine State.setMigrating_keeps ?_ | split

theorem State.demoteOne_keeps {s0 s : State} {a1 : ℕ} {a2 : ℕ} (k : Keeps s0 s) :
    Keeps s0 (State.demoteOne s a1 a2) := by
  unfold State.demoteOne
  with_reducible repeat' first
    | assumption | refine State.startMove_keeps ?_ | refine State.addItem_keeps ?_ | refine State.setStuck_keeps ?_
    | refine State.withdraw_keeps ?_ | dsimp only | refine Keeps.ite ?_ ?_
    | fail_if_no_progress (refine Keeps.unfold ?_; dsimp only; refine Keeps.fold ?_) | split

theorem State.watermark_keeps {s0 s : State} {a1 : ℕ} {a2 : ℕ} (k : Keeps s0 s) :
    Keeps s0 (State.watermark s a1 a2) := by
  unfold State.watermark
  with_reducible repeat' first
    | assumption | refine State.setStuck_keeps ?_ | refine State.demoteOne_keeps ?_ | dsimp only
    | refine Keeps.ite ?_ ?_ | fail_if_no_progress (refine Keeps.unfold ?_; dsimp only; refine Keeps.fold ?_)

theorem State.failHomed_keeps {s0 s : State} {a1 : ℕ → Bool} {a2 : ℕ} (k : Keeps s0 s) :
    Keeps s0 (State.failHomed s a1 a2) := by
  unfold State.failHomed
  with_reducible repeat' first
    | assumption | refine State.granAbandon_keeps ?_ | refine State.intakeFault_keeps ?_
    | refine State.endItem_keeps ?_ | refine foldl_keeps ?_ (fun _ _ _ => ?_) | refine Keeps.ite ?_ ?_ | split

theorem State.endGran_keeps {s0 s : State} {a1 : ℕ} (k : Keeps s0 s) :
    Keeps s0 (State.endGran s a1) := by
  unfold State.endGran
  with_reducible repeat' first
    | assumption | refine State.leaveGran_keeps ?_ | refine State.endEnded_keeps ?_ | split

theorem State.tierLost_keeps {s0 s : State} {a1 : ℕ → Bool} {a2 : ℕ} (k : Keeps s0 s) :
    Keeps s0 (State.tierLost s a1 a2) := by
  unfold State.tierLost
  with_reducible repeat' first
    | assumption | refine State.failHomed_keeps ?_ | refine State.settle_keeps ?_ | refine State.heal_keeps ?_
    | refine State.lose_keeps ?_ | refine State.freeRun_keeps ?_ | refine State.uncharge_keeps ?_
    | refine State.flag_keeps ?_ | refine foldl_keeps ?_ (fun _ _ _ => ?_) | dsimp only | refine Keeps.ite ?_ ?_
    | fail_if_no_progress (refine Keeps.unfold ?_; dsimp only; refine Keeps.fold ?_) | split

theorem State.serveWindows_keeps {s0 s : State}  (k : Keeps s0 s) :
    Keeps s0 (State.serveWindows s) := by
  unfold State.serveWindows
  with_reducible repeat' first
    | assumption | refine State.goOn_keeps ?_ | refine State.placeTile_keeps ?_
    | refine foldl_keeps ?_ (fun _ _ _ => ?_)

theorem State.retryStalled_keeps {s0 s : State} {a1 : ℕ} {a2 : ℕ} (k : Keeps s0 s) :
    Keeps s0 (State.retryStalled s a1 a2) := by
  unfold State.retryStalled
  with_reducible repeat' first
    | assumption | refine State.goOn_keeps ?_ | refine State.placeTile_keeps ?_
    | refine foldl_keeps ?_ (fun _ _ _ => ?_)

theorem State.flow_keeps {s0 s : State}  (k : Keeps s0 s) :
    Keeps s0 (State.flow s) := by
  unfold State.flow
  with_reducible repeat' first
    | assumption | refine State.reissue_keeps ?_ | refine State.pumpAll_keeps ?_ | refine State.serveWindows_keeps ?_

/-! ### CoreCmd -/

theorem State.startCore_keeps {s0 s : State} {a1 : ℕ} {a2 : Plan} (k : Keeps s0 s) :
    Keeps s0 (State.startCore s a1 a2) := by
  unfold State.startCore
  with_reducible repeat' first
    | assumption | refine State.clearCore_keeps ?_ | refine State.setG_keeps ?_ | refine State.setCoreState_keeps ?_
    | refine State.wrb_keeps ?_ | refine State.setPc_keeps ?_

theorem execSrtStart_keeps {s0 s : State} {a0 : BitVec 6} (k : Keeps s0 s) :
    nextKeeps s0 (execSrtStart a0 s) := by
  unfold execSrtStart
  with_reducible repeat' first
    | assumption | refine State.startCore_keeps ?_ | refine State.flag_keeps ?_ | refine nextKeeps.next ?_
    | refine Keeps.ite ?_ ?_ | split

theorem execSrtDbgRead_keeps {s0 s : State} {a0 : ℕ} {a1 : BitVec 6} (k : Keeps s0 s) :
    nextKeeps s0 (execSrtDbgRead a0 a1 s) := by
  unfold execSrtDbgRead
  with_reducible repeat' first
    | assumption | refine State.wr_keeps ?_ | refine State.emit_keeps ?_ | refine State.flag_keeps ?_
    | refine nextKeeps.next ?_ | refine Keeps.ite ?_ ?_

theorem execBadWrite_keeps {s0 s : State} {a0 : ℕ} {a1 : Bool} {a2 : ℕ} (k : Keeps s0 s) :
    nextKeeps s0 (execBadWrite a0 a1 a2 s) := by
  unfold execBadWrite
  with_reducible repeat' first
    | assumption | refine State.flag_keeps ?_ | refine State.emit_keeps ?_ | refine State.sat_keeps ?_
    | refine nextKeeps.next ?_ | dsimp only | refine Keeps.ite ?_ ?_ | refine nextKeeps.ite ?_ ?_

theorem execSrtResume_keeps {s0 s : State} {a0 : BitVec 6} (k : Keeps s0 s) :
    nextKeeps s0 (execSrtResume a0 s) := by
  unfold execSrtResume
  with_reducible repeat' first
    | assumption | refine State.setCoreState_keeps ?_ | refine State.flag_keeps ?_ | refine nextKeeps.next ?_
    | refine Keeps.ite ?_ ?_

theorem execHaltReq_keeps {s0 s : State} {a0 : BitVec 6} (k : Keeps s0 s) :
    nextKeeps s0 (execHaltReq a0 s) := by
  unfold execHaltReq
  with_reducible repeat' first
    | assumption | refine State.haltCore_keeps ?_ | refine State.wr_keeps ?_ | refine nextKeeps.next ?_
    | refine Keeps.ite ?_ ?_

theorem execSyncObjectUpdate_keeps {s0 s : State} {a0 : BitVec 12} {a1 : SoOp} {a2 : Word} (k : Keeps s0 s) :
    nextKeeps s0 (execSyncObjectUpdate a0 a1 a2 s) := by
  unfold execSyncObjectUpdate
  with_reducible repeat' first
    | assumption | refine State.soOp_keeps ?_ | refine nextKeeps.next ?_ | refine Keeps.ite ?_ ?_

theorem State.doorbell_keeps {s0 s : State} {a1 : ℕ} {a2 : ℕ} {a3 : SoOp} {a4 : Word} {a5 : Bool} (k : Keeps s0 s) :
    Keeps s0 (State.doorbell s a1 a2 a3 a4 a5) := by
  unfold State.doorbell
  with_reducible repeat' first
    | assumption | refine State.sat_keeps ?_ | refine State.flag_keeps ?_ | refine State.soOp_keeps ?_ | dsimp only
    | refine Keeps.ite ?_ ?_ | split

theorem execDoorbellMax_keeps {s0 s : State} {a0 : ℕ} {a1 : BitVec 12} {a2 : Word} {a3 : Bool} (k : Keeps s0 s) :
    nextKeeps s0 (execDoorbellMax a0 a1 a2 a3 s) := by
  unfold execDoorbellMax
  with_reducible repeat' first
    | assumption | refine State.doorbell_keeps ?_ | refine nextKeeps.next ?_

theorem execDoorbellSet_keeps {s0 s : State} {a0 : ℕ} {a1 : BitVec 12} {a2 : Word} {a3 : Bool} (k : Keeps s0 s) :
    nextKeeps s0 (execDoorbellSet a0 a1 a2 a3 s) := by
  unfold execDoorbellSet
  with_reducible repeat' first
    | assumption | refine State.doorbell_keeps ?_ | refine nextKeeps.next ?_

theorem execDoorbellOr_keeps {s0 s : State} {a0 : ℕ} {a1 : BitVec 12} {a2 : Word} {a3 : Bool} (k : Keeps s0 s) :
    nextKeeps s0 (execDoorbellOr a0 a1 a2 a3 s) := by
  unfold execDoorbellOr
  with_reducible repeat' first
    | assumption | refine State.doorbell_keeps ?_ | refine nextKeeps.next ?_

theorem execDoorbellAdd_keeps {s0 s : State} {a0 : ℕ} {a1 : BitVec 12} {a2 : Word} {a3 : Bool} (k : Keeps s0 s) :
    nextKeeps s0 (execDoorbellAdd a0 a1 a2 a3 s) := by
  unfold execDoorbellAdd
  with_reducible repeat' first
    | assumption | refine State.doorbell_keeps ?_ | refine nextKeeps.next ?_

theorem execGateTimeout_keeps {s0 s : State} {a0 : ℕ} (k : Keeps s0 s) :
    nextKeeps s0 (execGateTimeout a0 s) := by
  unfold execGateTimeout
  with_reducible repeat' first
    | assumption | refine State.pumpAll_keeps ?_ | refine State.finish_keeps ?_ | refine nextKeeps.next ?_
    | refine Keeps.ite ?_ ?_ | split

theorem State.arrive_keeps {s0 s : State} {a1 : ℕ} (k : Keeps s0 s) :
    Keeps s0 (State.arrive s a1) := by
  unfold State.arrive
  with_reducible repeat' first
    | assumption | refine State.front_keeps ?_ | refine State.placeItem_keeps ?_ | dsimp only
    | refine Keeps.ite ?_ ?_ | split

theorem execDeferredDispCheck_keeps {s0 s : State} {a0 : ℕ} (k : Keeps s0 s) :
    nextKeeps s0 (execDeferredDispCheck a0 s) := by
  unfold execDeferredDispCheck
  with_reducible repeat' first
    | assumption | refine State.flow_keeps ?_ | refine State.startMove_keeps ?_ | refine State.arrive_keeps ?_
    | refine State.putItem_keeps ?_ | refine nextKeeps.next ?_ | refine nextKeeps.ite ?_ ?_ | split

theorem State.endStall_keeps {s0 s : State} {a1 : ℕ} {a2 : CRes} (k : Keeps s0 s) (h2 : cresKeeps s0 a2) :
    Keeps s0 (State.endStall s a1 a2) := by
  unfold State.endStall
  with_reducible repeat' first
    | assumption | refine State.retire_keeps ?_ | refine State.setPc_keeps ?_ | refine State.takeTrap_keeps ?_
    | refine State.takeFatal_keeps ?_ | dsimp only | exact Keeps.of_ok rfl (by assumption)
    | exact Keeps.of_block rfl (by assumption) | exact Keeps.of_trapIn rfl (by assumption) | split

theorem execIssueTimeout_keeps {s0 s : State} {a0 : BitVec 6} (k : Keeps s0 s) :
    nextKeeps s0 (execIssueTimeout a0 s) := by
  unfold execIssueTimeout
  with_reducible repeat' first
    | assumption | refine State.setCoreState_keeps ?_ | refine State.setCore_keeps ?_ | refine State.pumpAll_keeps ?_
    | refine State.endStall_keeps ?_ ?_ | refine State.issueNow_keeps ?_ | refine State.takeTrap_keeps ?_
    | refine nextKeeps.next ?_ | dsimp only | refine nextKeeps.ite ?_ ?_ | split

theorem execStalledIssueProceeds_keeps {s0 s : State} {a0 : BitVec 6} (k : Keeps s0 s) :
    nextKeeps s0 (execStalledIssueProceeds a0 s) := by
  unfold execStalledIssueProceeds
  with_reducible repeat' first
    | assumption | refine State.setCoreState_keeps ?_ | refine State.setCore_keeps ?_ | refine State.pumpAll_keeps ?_
    | refine State.endStall_keeps ?_ ?_ | refine State.issueNow_keeps ?_ | refine nextKeeps.next ?_ | dsimp only
    | refine nextKeeps.ite ?_ ?_ | split

/-! ### ChainCmd -/

theorem State.errRingIrq_keeps {s0 s : State} {a1 : ℕ} {a2 : ℕ} (k : Keeps s0 s) :
    Keeps s0 (State.errRingIrq s a1 a2) := by
  unfold State.errRingIrq
  with_reducible repeat' first
    | assumption | refine State.ringIrq_keeps ?_ | dsimp only | refine Keeps.ite ?_ ?_

theorem execRingCoalesceTimeout_keeps {s0 s : State} {a0 : BitVec 9} (k : Keeps s0 s) :
    nextKeeps s0 (execRingCoalesceTimeout a0 s) := by
  unfold execRingCoalesceTimeout
  with_reducible repeat' first
    | assumption | refine State.ringIrq_keeps ?_ | refine nextKeeps.next ?_ | refine Keeps.ite ?_ ?_

theorem State.drainHeldList_keeps {s0 s : State} {a0 : ℕ} {a1 : ℕ} {a3 : List Held} (k : Keeps s0 s) :
    Keeps s0 (State.drainHeldList a0 a1 s a3) := by
  induction a1 generalizing a0 s a3 with
  | zero =>
    unfold State.drainHeldList
    with_reducible repeat' first
      | assumption | refine State.setHeld_keeps ?_


  | succ n ih =>
    unfold State.drainHeldList
    with_reducible repeat' first
      | refine ih ?_
      | assumption | refine State.setHeld_keeps ?_ | refine State.emit_keeps ?_ | refine State.setPba_keeps ?_
      | refine Keeps.of_snd (by assumption) (State.putRecord_keeps ?_)
      | (rename _ = Nat.succ _ => e; cases e; refine ih ?_) | split

theorem State.goChain_keeps {s0 s : State} {a1 : ℕ} (k : Keeps s0 s) :
    Keeps s0 (State.goChain s a1) := by
  unfold State.goChain
  with_reducible repeat' first
    | assumption | refine State.wr_keeps ?_ | refine State.setChState_keeps ?_ | refine State.writeRecs_keeps ?_
    | refine State.endChain_keeps ?_ | dsimp only | refine Keeps.ite ?_ ?_

theorem State.drainHeld_keeps {s0 s : State} {a1 : ℕ} (k : Keeps s0 s) :
    Keeps s0 (State.drainHeld s a1) := by
  unfold State.drainHeld
  with_reducible repeat' first
    | assumption | refine State.drainHeldList_keeps ?_ | refine State.setHeld_keeps ?_ | refine State.wr_keeps ?_
    | refine foldl_keeps ?_ (fun _ _ _ => ?_) | dsimp only | refine Keeps.ite ?_ ?_ | split

theorem State.ringRoom_keeps {s0 s : State} {a1 : ℕ} (k : Keeps s0 s) :
    Keeps s0 (State.ringRoom s a1) := by
  unfold State.ringRoom
  with_reducible repeat' first
    | assumption | refine State.wr_keeps ?_ | refine State.drainRecs_keeps ?_
    | refine foldl_keeps ?_ (fun _ _ _ => ?_) | refine Keeps.ite ?_ ?_

theorem State.leaveHalt_keeps {s0 s : State} {a1 : ℕ} (k : Keeps s0 s) :
    Keeps s0 (State.leaveHalt s a1) := by
  unfold State.leaveHalt
  with_reducible repeat' first
    | assumption | refine State.wr_keeps ?_ | refine State.goChain_keeps ?_ | refine State.setChan_keeps ?_
    | refine State.takeDesc_keeps ?_ | refine State.setChState_keeps ?_ | dsimp only | refine Keeps.ite ?_ ?_ | split

theorem State.chStart_keeps {s0 s : State} {a1 : ℕ} (k : Keeps s0 s) :
    Keeps s0 (State.chStart s a1) := by
  unfold State.chStart
  with_reducible repeat' first
    | assumption | refine State.setChan_keeps ?_ | refine State.goChain_keeps ?_ | refine State.wr_keeps ?_
    | refine State.leaveHalt_keeps ?_ | dsimp only | refine Keeps.ite ?_ ?_

theorem State.chHaltBit_keeps {s0 s : State} {a1 : ℕ} {a2 : Fld} (k : Keeps s0 s) :
    Keeps s0 (State.chHaltBit s a1 a2) := by
  unfold State.chHaltBit
  with_reducible repeat' first
    | assumption | refine State.leaveHalt_keeps ?_ | refine State.wr_keeps ?_ | refine Keeps.ite ?_ ?_

theorem execClear_keeps {s0 s : State} {a0 : ℕ} {a1 : BitVec 8} (k : Keeps s0 s) :
    nextKeeps s0 (execClear a0 a1 s) := by
  unfold execClear
  with_reducible repeat' first
    | assumption | refine State.chHaltBit_keeps ?_ | refine nextKeeps.next ?_ | refine Keeps.ite ?_ ?_

theorem State.ringCons_keeps {s0 s : State} {a1 : ℕ} {a2 : ℕ} (k : Keeps s0 s) :
    Keeps s0 (State.ringCons s a1 a2) := by
  unfold State.ringCons
  with_reducible repeat' first
    | assumption | refine State.ringRoom_keeps ?_ | refine State.drainHeld_keeps ?_ | refine State.wr_keeps ?_
    | refine Keeps.ite ?_ ?_

theorem execSkip_keeps {s0 s : State} {a0 : ℕ} {a1 : BitVec 8} (k : Keeps s0 s) :
    nextKeeps s0 (execSkip a0 a1 s) := by
  unfold execSkip
  with_reducible repeat' first
    | assumption | refine State.chHaltBit_keeps ?_ | refine nextKeeps.next ?_ | refine Keeps.ite ?_ ?_

theorem State.ringCfg_keeps {s0 s : State} {a1 : ℕ} {a2 : Word} (k : Keeps s0 s) :
    Keeps s0 (State.ringCfg s a1 a2) := by
  unfold State.ringCfg
  with_reducible repeat' first
    | assumption | refine State.wr_keeps ?_ | refine State.flag_keeps ?_ | refine State.ringRoom_keeps ?_
    | refine State.setRingRec_keeps ?_ | dsimp only | refine Keeps.ite ?_ ?_

theorem execChannelStart_keeps {s0 s : State} {a0 : ℕ} {a1 : BitVec 8} (k : Keeps s0 s) :
    nextKeeps s0 (execChannelStart a0 a1 s) := by
  unfold execChannelStart
  with_reducible repeat' first
    | assumption | refine State.chStart_keeps ?_ | refine nextKeeps.next ?_ | refine Keeps.ite ?_ ?_

theorem execRingConsWrite_keeps {s0 s : State} {a0 : ℕ} {a1 : BitVec 9} {a2 : BitVec 32} (k : Keeps s0 s) :
    nextKeeps s0 (execRingConsWrite a0 a1 a2 s) := by
  unfold execRingConsWrite
  with_reducible repeat' first
    | assumption | refine State.ringCons_keeps ?_ | refine nextKeeps.next ?_ | refine Keeps.ite ?_ ?_

theorem State.chKick_keeps {s0 s : State} {a1 : ℕ} (k : Keeps s0 s) :
    Keeps s0 (State.chKick s a1) := by
  unfold State.chKick
  with_reducible repeat' first
    | assumption | refine State.readNext_keeps ?_ | refine State.setChState_keeps ?_ | refine State.setChan_keeps ?_
    | refine State.wr_keeps ?_ | dsimp only | refine Keeps.ite ?_ ?_

theorem execChannelResume_keeps {s0 s : State} {a0 : ℕ} {a1 : BitVec 8} (k : Keeps s0 s) :
    nextKeeps s0 (execChannelResume a0 a1 s) := by
  unfold execChannelResume
  with_reducible repeat' first
    | assumption | refine State.chHaltBit_keeps ?_ | refine nextKeeps.next ?_ | refine Keeps.ite ?_ ?_

theorem execKick_keeps {s0 s : State} {a0 : ℕ} {a1 : BitVec 8} (k : Keeps s0 s) :
    nextKeeps s0 (execKick a0 a1 s) := by
  unfold execKick
  with_reducible repeat' first
    | assumption | refine State.chKick_keeps ?_ | refine nextKeeps.next ?_ | refine Keeps.ite ?_ ?_

theorem execDescriptorRead_keeps {s0 s : State} {a0 : BitVec 8} (k : Keeps s0 s) :
    nextKeeps s0 (execDescriptorRead a0 s) := by
  unfold execDescriptorRead
  with_reducible repeat' first
    | assumption | refine State.readNext_keeps ?_ | refine nextKeeps.next ?_ | refine Keeps.ite ?_ ?_

theorem execRingEnable_keeps {s0 s : State} {a0 : ℕ} {a1 : BitVec 9} {a2 : Word} (k : Keeps s0 s) :
    nextKeeps s0 (execRingEnable a0 a1 a2 s) := by
  unfold execRingEnable
  with_reducible repeat' first
    | assumption | refine State.ringCfg_keeps ?_ | refine nextKeeps.next ?_ | refine Keeps.ite ?_ ?_

theorem State.giveUp_keeps {s0 s : State} {a1 : ℕ} (k : Keeps s0 s) :
    Keeps s0 (State.giveUp s a1) := by
  unfold State.giveUp
  with_reducible repeat' first
    | assumption | refine State.setTile_keeps ?_ | refine State.endItem_keeps ?_ | refine State.putItem_keeps ?_
    | refine State.putOver_keeps ?_ | refine State.refreshStalled_keeps ?_ | refine State.flag_keeps ?_ | dsimp only
    | split

theorem State.stopItem_keeps {s0 s : State} {a1 : ℕ} {a2 : ℕ} (k : Keeps s0 s) :
    Keeps s0 (State.stopItem s a1 a2) := by
  unfold State.stopItem
  with_reducible repeat' first
    | assumption | refine State.failItem_keeps ?_ | dsimp only | split

theorem State.stallOut_keeps {s0 s : State} {a1 : ℕ} (k : Keeps s0 s) :
    Keeps s0 (State.stallOut s a1) := by
  unfold State.stallOut
  with_reducible repeat' first
    | assumption | refine State.giveUp_keeps ?_ | refine State.stopDesc_keeps ?_ | refine State.endGran_keeps ?_
    | refine State.granAbandon_keeps ?_ | refine State.endRegrow_keeps ?_ | refine State.stopItem_keeps ?_
    | refine Keeps.ite ?_ ?_ | split

theorem execNoticeRingRetry_keeps {s0 s : State} {a0 : ℕ} (k : Keeps s0 s) :
    nextKeeps s0 (execNoticeRingRetry a0 s) := by
  unfold execNoticeRingRetry
  with_reducible repeat' first
    | assumption | refine State.flow_keeps ?_ | refine State.endItem_keeps ?_
    | refine optKeeps.getD (State.sendRead_keeps ?_) ?_ | refine nextKeeps.next ?_ | dsimp only
    | refine nextKeeps.ite ?_ ?_ | split

theorem State.chAbort_keeps {s0 s : State} {a1 : ℕ} (k : Keeps s0 s) :
    Keeps s0 (State.chAbort s a1) := by
  unfold State.chAbort
  with_reducible repeat' first
    | assumption | refine State.stopDesc_keeps ?_ | refine State.haltChain_keeps ?_
    | refine State.errRingIrq_keeps ?_ | refine State.wr_keeps ?_ | refine State.stopItem_keeps ?_
    | refine State.addRec?_keeps ?_ | refine State.pumpAll_keeps ?_ | refine foldl_keeps ?_ (fun _ _ _ => ?_)
    | dsimp only | refine Keeps.ite ?_ ?_

theorem execAbort_keeps {s0 s : State} {a0 : ℕ} {a1 : BitVec 8} (k : Keeps s0 s) :
    nextKeeps s0 (execAbort a0 a1 s) := by
  unfold execAbort
  with_reducible repeat' first
    | assumption | refine State.chAbort_keeps ?_ | refine nextKeeps.next ?_ | refine Keeps.ite ?_ ?_

theorem execNoticeReservation_keeps {s0 s : State} {a0 : ℕ} (k : Keeps s0 s) :
    nextKeeps s0 (execNoticeReservation a0 s) := by
  unfold execNoticeReservation
  with_reducible repeat' first
    | assumption | refine State.flow_keeps ?_ | refine State.endNotify_keeps ?_ | refine State.startReturn_keeps ?_
    | refine nextKeeps.next ?_ | refine nextKeeps.ite ?_ ?_ | split

theorem execChannelStallTimeout_keeps {s0 s : State} {a0 : BitVec 8} {a1 : Option ℕ} (k : Keeps s0 s) :
    nextKeeps s0 (execChannelStallTimeout a0 a1 s) := by
  unfold execChannelStallTimeout
  with_reducible repeat' first
    | assumption | refine State.haltChain_keeps ?_ | refine State.flow_keeps ?_ | refine State.stallOut_keeps ?_
    | refine nextKeeps.next ?_ | dsimp only | refine Keeps.ite ?_ ?_ | refine nextKeeps.ite ?_ ?_ | split

/-! ### ItemCmd -/

theorem State.endPut_keeps {s0 s : State} {a1 : ℕ} (k : Keeps s0 s) :
    Keeps s0 (State.endPut s a1) := by
  unfold State.endPut
  with_reducible repeat' first
    | assumption | refine State.finish_keeps ?_ | refine State.setTile_keeps ?_ | refine State.setConn_keeps ?_
    | refine State.putOver_keeps ?_ | dsimp only | refine Keeps.ite ?_ ?_ | split

theorem State.unitFaultItem_keeps {s0 s : State} {a1 : ℕ} (k : Keeps s0 s) :
    Keeps s0 (State.unitFaultItem s a1) := by
  unfold State.unitFaultItem
  with_reducible repeat' first
    | assumption | refine State.endRegrow_keeps ?_ | refine State.stopItem_keeps ?_ | refine State.freeCtx_keeps ?_
    | refine State.putItem_keeps ?_ | refine foldl_keeps ?_ (fun _ _ _ => ?_) | dsimp only | refine Keeps.ite ?_ ?_
    | split

theorem State.endIntake_keeps {s0 s : State} {a1 : ℕ} (k : Keeps s0 s) :
    Keeps s0 (State.endIntake s a1) := by
  unfold State.endIntake
  with_reducible repeat' first
    | assumption | refine State.endItem_keeps ?_ | refine State.intakeFault_keeps ?_ | refine State.failItem_keeps ?_
    | dsimp only | refine Keeps.ite ?_ ?_ | split

theorem State.endRegrowItem_keeps {s0 s : State} {a1 : ℕ} (k : Keeps s0 s) :
    Keeps s0 (State.endRegrowItem s a1) := by
  unfold State.endRegrowItem
  with_reducible repeat' first
    | assumption | refine State.requeueWaiters_keeps ?_ | refine State.endRegrow_keeps ?_
    | refine State.endItem_keeps ?_ | split

theorem execRegrowCommit_keeps {s0 s : State} {a0 : ℕ} (k : Keeps s0 s) :
    nextKeeps s0 (execRegrowCommit a0 s) := by
  unfold execRegrowCommit
  with_reducible repeat' first
    | assumption | refine State.flow_keeps ?_ | refine State.regrowCommit_keeps ?_ | refine nextKeeps.next ?_
    | refine Keeps.ite ?_ ?_ | split

theorem execCarrierItemEnd_keeps {s0 s : State} {a0 : ℕ} (k : Keeps s0 s) :
    nextKeeps s0 (execCarrierItemEnd a0 s) := by
  unfold execCarrierItemEnd
  with_reducible repeat' first
    | assumption | refine State.flow_keeps ?_ | refine State.endChainItem_keeps ?_ | refine State.endIntake_keeps ?_
    | refine State.endCopy_keeps ?_ | refine State.endDeliver_keeps ?_ | refine State.endLattice_keeps ?_
    | refine State.endEnded_keeps ?_ | refine nextKeeps.next ?_ | refine nextKeeps.ite ?_ ?_ | split

theorem execWatermarkDemotion_keeps {s0 s : State} {a0 : BitVec 5} {a1 : Bool} (k : Keeps s0 s) :
    nextKeeps s0 (execWatermarkDemotion a0 a1 s) := by
  unfold execWatermarkDemotion
  with_reducible repeat' first
    | assumption | refine State.flow_keeps ?_ | refine State.watermark_keeps ?_ | refine nextKeeps.next ?_
    | refine Keeps.ite ?_ ?_

theorem execMigrationCommit_keeps {s0 s : State} {a0 : ℕ} (k : Keeps s0 s) :
    nextKeeps s0 (execMigrationCommit a0 s) := by
  unfold execMigrationCommit
  with_reducible repeat' first
    | assumption | refine State.flow_keeps ?_ | refine State.commitStored_keeps ?_
    | refine State.commitPress_keeps ?_ | refine State.commitUnpress_keeps ?_ | refine State.granCommit_keeps ?_
    | refine nextKeeps.next ?_ | refine Keeps.ite ?_ ?_ | refine nextKeeps.ite ?_ ?_ | split

theorem execItemArrival_keeps {s0 s : State} {a0 : ℕ} (k : Keeps s0 s) :
    nextKeeps s0 (execItemArrival a0 s) := by
  unfold execItemArrival
  with_reducible repeat' first
    | assumption | refine State.flow_keeps ?_ | refine State.startMove_keeps ?_ | refine State.granReserve_keeps ?_
    | refine State.arrive_keeps ?_ | refine State.placeItem_keeps ?_ | refine nextKeeps.next ?_
    | refine nextKeeps.ite ?_ ?_ | split

theorem execMigrationReserve_keeps {s0 s : State} {a0 : ℕ} (k : Keeps s0 s) :
    nextKeeps s0 (execMigrationReserve a0 s) := by
  unfold execMigrationReserve
  with_reducible repeat' first
    | assumption | refine State.flow_keeps ?_ | refine State.granReserve_keeps ?_ | refine State.regrowStart_keeps ?_
    | refine State.reserveMove_keeps ?_ | refine State.moorReads_keeps ?_ | refine State.putItem_keeps ?_
    | refine nextKeeps.next ?_ | dsimp only | refine Keeps.ite ?_ ?_ | refine nextKeeps.ite ?_ ?_ | split

theorem execRegrowStart_keeps {s0 s : State} {a0 : ℕ} (k : Keeps s0 s) :
    nextKeeps s0 (execRegrowStart a0 s) := by
  unfold execRegrowStart
  with_reducible repeat' first
    | assumption | refine State.flow_keeps ?_ | refine State.regrowStart_keeps ?_ | refine nextKeeps.next ?_
    | refine Keeps.ite ?_ ?_ | split

theorem execIntakeWriteFault_keeps {s0 s : State} {a0 : ℕ} (k : Keeps s0 s) :
    nextKeeps s0 (execIntakeWriteFault a0 s) := by
  unfold execIntakeWriteFault
  with_reducible repeat' first
    | assumption | refine State.intakeFault_keeps ?_ | refine State.tierFail_keeps ?_ | refine State.flow_keeps ?_
    | refine State.putOver_keeps ?_ | refine nextKeeps.next ?_ | dsimp only | refine nextKeeps.ite ?_ ?_ | split

theorem execStallRetry_keeps {s0 s : State} {a0 : BitVec 5} {a1 : BitVec 2} (k : Keeps s0 s) :
    nextKeeps s0 (execStallRetry a0 a1 s) := by
  unfold execStallRetry
  with_reducible repeat' first
    | assumption | refine State.flow_keeps ?_ | refine State.retryStalled_keeps ?_ | refine nextKeeps.next ?_
    | refine Keeps.ite ?_ ?_

theorem execEngineUnitFault_keeps {s0 s : State} {a0 : Bool} {a1 : BitVec 5} (k : Keeps s0 s) :
    nextKeeps s0 (execEngineUnitFault a0 a1 s) := by
  unfold execEngineUnitFault
  with_reducible repeat' first
    | assumption | refine State.wr_keeps ?_ | refine State.flow_keeps ?_ | refine State.unitFaultItem_keeps ?_
    | refine nextKeeps.next ?_ | refine foldl_keeps ?_ (fun _ _ _ => ?_) | dsimp only | refine Keeps.ite ?_ ?_
    | refine nextKeeps.ite ?_ ?_

theorem execReservationWaitTimeout_keeps {s0 s : State} {a0 : ℕ} (k : Keeps s0 s) :
    nextKeeps s0 (execReservationWaitTimeout a0 s) := by
  unfold execReservationWaitTimeout
  with_reducible repeat' first
    | assumption | refine State.flow_keeps ?_ | refine State.stallOut_keeps ?_ | refine nextKeeps.next ?_
    | refine Keeps.ite ?_ ?_ | split

theorem execIntakeCommit_keeps {s0 s : State} {a0 : ℕ} (k : Keeps s0 s) :
    nextKeeps s0 (execIntakeCommit a0 s) := by
  unfold execIntakeCommit
  with_reducible repeat' first
    | assumption | refine State.intakeCommit_keeps ?_ | refine State.flow_keeps ?_ | refine State.endPut_keeps ?_
    | refine nextKeeps.next ?_ | dsimp only | refine Keeps.ite ?_ ?_ | split

theorem execWorkItemEnd_keeps {s0 s : State} {a0 : ℕ} (k : Keeps s0 s) :
    nextKeeps s0 (execWorkItemEnd a0 s) := by
  unfold execWorkItemEnd
  with_reducible repeat' first
    | assumption | refine State.flow_keeps ?_ | refine State.endEnded_keeps ?_ | refine State.endGran_keeps ?_
    | refine State.endRegrowItem_keeps ?_ | refine State.endTedd_keeps ?_ | refine State.endCopy_keeps ?_
    | refine State.endNotify_keeps ?_ | refine State.endPut_keeps ?_ | refine nextKeeps.next ?_
    | refine Keeps.ite ?_ ?_ | refine nextKeeps.ite ?_ ?_ | split

/-! ### DtuCmd -/

theorem State.eachPage_keeps {s0 s : State} {a1 : ℕ} {a2 : List ℕ} {a3 : PageEnt → PageEnt} (k : Keeps s0 s) :
    Keeps s0 (State.eachPage s a1 a2 a3) := by
  unfold State.eachPage
  with_reducible repeat' first
    | assumption | refine State.putPage_keeps ?_ | refine foldl_keeps ?_ (fun _ _ _ => ?_) | split

theorem State.moorTgtWrite_keeps {s0 s : State} {a1 : ℕ} {a2 : Word} (k : Keeps s0 s) :
    Keeps s0 (State.moorTgtWrite s a1 a2) := by
  unfold State.moorTgtWrite
  with_reducible repeat' first
    | assumption | refine State.wr_keeps ?_ | refine Keeps.ite ?_ ?_

theorem State.openRoot_keeps {s0 s : State} {a1 : ℕ} (k : Keeps s0 s) :
    Keeps s0 (State.openRoot s a1) := by
  unfold State.openRoot
  with_reducible repeat' first
    | assumption | refine State.freeWord_keeps ?_ | refine State.wr_keeps ?_ | dsimp only | refine Keeps.ite ?_ ?_

theorem State.mapGranule_keeps {s0 s : State} {a1 : ℕ} {a2 : ℕ} {a3 : ℕ} {a4 : ℕ} (k : Keeps s0 s) :
    optKeeps s0 (State.mapGranule s a1 a2 a3 a4) := by
  unfold State.mapGranule
  with_reducible repeat' first
    | assumption | refine State.putGranule_keeps ?_ | refine Keeps.of_optp (by assumption) (State.reserve_keeps ?_)
    | refine optKeeps.some ?_ | exact optKeeps.none | dsimp only | refine findSome_keeps (fun _ => ?_) | split

theorem State.capacityCheck_keeps {s0 s : State} {a1 : ℕ} (k : Keeps s0 s) :
    Keeps s0 (State.capacityCheck s a1) := by
  unfold State.capacityCheck
  with_reducible repeat' first
    | assumption | refine State.flag_keeps ?_ | refine Keeps.ite ?_ ?_

theorem State.pinQuotaWrite_keeps {s0 s : State} {a1 : ℕ} {a2 : ℕ} (k : Keeps s0 s) :
    Keeps s0 (State.pinQuotaWrite s a1 a2) := by
  unfold State.pinQuotaWrite
  with_reducible repeat' first
    | assumption | refine State.flag_keeps ?_ | refine State.wr_keeps ?_ | dsimp only | refine Keeps.ite ?_ ?_

theorem execTierMoorTgtWrite_keeps {s0 s : State} {a0 : BitVec 4} {a1 : Word} (k : Keeps s0 s) :
    nextKeeps s0 (execTierMoorTgtWrite a0 a1 s) := by
  unfold execTierMoorTgtWrite
  with_reducible repeat' first
    | assumption | refine State.moorTgtWrite_keeps ?_ | refine nextKeeps.next ?_ | refine Keeps.ite ?_ ?_

theorem State.mapGranules_keeps {s0 s : State} {a0 : ℕ} {a1 : ℕ} {a2 : List ℕ} {a3 : ℕ} (k : Keeps s0 s) :
    optKeeps s0 (State.mapGranules a0 a1 a2 a3 s) := by
  induction a2 generalizing a0 a1 a3 s with
  | nil =>
    unfold State.mapGranules
    with_reducible repeat' first
      | assumption | refine Keeps.of_opt (by assumption) (State.mapGranule_keeps ?_) | refine optKeeps.some ?_

  | cons x l ih =>
    unfold State.mapGranules
    with_reducible repeat' first
      | refine ih ?_
      | assumption | refine Keeps.of_opt (by assumption) (State.mapGranule_keeps ?_) | refine optKeeps.some ?_
      | exact optKeeps.none | split

theorem State.quotaSoWrite_keeps {s0 s : State} {a1 : ℕ} {a2 : Word} (k : Keeps s0 s) :
    Keeps s0 (State.quotaSoWrite s a1 a2) := by
  unfold State.quotaSoWrite
  with_reducible repeat' first
    | assumption | refine State.flag_keeps ?_ | refine State.wr_keeps ?_ | refine Keeps.ite ?_ ?_

theorem execDtuPinQuotaWrite_keeps {s0 s : State} {a0 : BitVec 5} {a1 : BitVec 10} (k : Keeps s0 s) :
    nextKeeps s0 (execDtuPinQuotaWrite a0 a1 s) := by
  unfold execDtuPinQuotaWrite
  with_reducible repeat' first
    | assumption | refine State.pinQuotaWrite_keeps ?_ | refine nextKeeps.next ?_ | refine Keeps.ite ?_ ?_

theorem execPartQuotaSoWrite_keeps {s0 s : State} {a0 : BitVec 5} {a1 : Word} (k : Keeps s0 s) :
    nextKeeps s0 (execPartQuotaSoWrite a0 a1 s) := by
  unfold execPartQuotaSoWrite
  with_reducible repeat' first
    | assumption | refine State.quotaSoWrite_keeps ?_ | refine nextKeeps.next ?_ | refine Keeps.ite ?_ ?_

theorem State.unmapGranule_keeps {s0 s : State} {a1 : ℕ} {a2 : ℕ} (k : Keeps s0 s) :
    Keeps s0 (State.unmapGranule s a1 a2) := by
  unfold State.unmapGranule
  with_reducible repeat' first
    | assumption | refine State.withdraw_keeps ?_ | refine State.freeRun_keeps ?_ | refine State.uncharge_keeps ?_
    | refine State.unpinUnit_keeps ?_ | refine foldl_keeps ?_ (fun _ _ _ => ?_) | dsimp only | refine Keeps.ite ?_ ?_
    | fail_if_no_progress (refine Keeps.unfold ?_; dsimp only; refine Keeps.fold ?_) | split

theorem State.unmapRange_keeps {s0 s : State} {a1 : ℕ} {a2 : ℕ} {a3 : ℕ} (k : Keeps s0 s) :
    Keeps s0 (State.unmapRange s a1 a2 a3) := by
  unfold State.unmapRange
  with_reducible repeat' first
    | assumption | refine State.unmapGranule_keeps ?_ | refine State.wr_keeps ?_
    | refine foldl_keeps ?_ (fun _ _ _ => ?_) | dsimp only | refine Keeps.ite ?_ ?_
    | fail_if_no_progress (refine Keeps.unfold ?_; dsimp only; refine Keeps.fold ?_)

theorem State.dtuDone_keeps {s0 s : State} {a1 : ℕ} {a2 : ℕ} {a3 : ℕ} {a4 : ℕ} (k : Keeps s0 s) :
    Keeps s0 (State.dtuDone s a1 a2 a3 a4) := by
  unfold State.dtuDone
  with_reducible repeat' first
    | assumption | refine State.flag_keeps ?_ | refine State.wr_keeps ?_ | refine State.irq_keeps ?_
    | refine State.dtuFault_keeps ?_ | dsimp only | refine Keeps.ite ?_ ?_

theorem State.hintGranules_keeps {s0 s : State} {a1 : ℕ} {a2 : ℕ} {a3 : List ℕ} (k : Keeps s0 s) :
    Keeps s0 (State.hintGranules s a1 a2 a3) := by
  unfold State.hintGranules
  with_reducible repeat' first
    | assumption | refine State.addGranule_keeps ?_ | refine foldl_keeps ?_ (fun _ _ _ => ?_)
    | refine Keeps.ite ?_ ?_ | split

theorem State.migrateRange_keeps {s0 s : State} {a1 : ℕ} {a2 : ℕ} {a3 : ℕ} {a4 : ℕ} {a5 : Home} (k : Keeps s0 s) :
    Keeps s0 (State.migrateRange s a1 a2 a3 a4 a5) := by
  unfold State.migrateRange
  with_reducible repeat' first
    | assumption | refine State.addGranule_keeps ?_ | refine foldl_keeps ?_ (fun _ _ _ => ?_)
    | refine Keeps.ite ?_ ?_ | fail_if_no_progress (refine Keeps.unfold ?_; dsimp only; refine Keeps.fold ?_) | split

theorem State.applyHint_keeps {s0 s : State} {a1 : ℕ} {a2 : ℕ} {a3 : ℕ} {a4 : ℕ} (k : Keeps s0 s) :
    Keeps s0 (State.applyHint s a1 a2 a3 a4) := by
  unfold State.applyHint
  with_reducible repeat' first
    | assumption | refine State.eachPage_keeps ?_ | refine State.hintGranules_keeps ?_

theorem State.mapRange_keeps {s0 s : State} {a1 : ℕ} {a2 : ℕ} {a3 : ℕ} {a4 : ℕ} (k : Keeps s0 s) :
    optKeeps s0 (State.mapRange s a1 a2 a3 a4) := by
  unfold State.mapRange
  with_reducible repeat' first
    | assumption | refine State.putPage_keeps ?_ | refine State.applyHint_keeps ?_ | refine State.openRoot_keeps ?_
    | refine Keeps.of_opt (by assumption) (State.mapGranules_keeps ?_) | refine optKeeps.some ?_
    | exact optKeeps.none | refine foldl_keeps ?_ (fun _ _ _ => ?_) | dsimp only | split

theorem State.dtuExec_keeps {s0 s : State} {a1 : ℕ} (k : Keeps s0 s) :
    Keeps s0 (State.dtuExec s a1) := by
  unfold State.dtuExec
  with_reducible repeat' first
    | assumption | refine State.dtuDone_keeps ?_ | refine State.unmapRange_keeps ?_ | refine State.eachPage_keeps ?_
    | refine State.applyHint_keeps ?_ | refine State.migrateRange_keeps ?_ | refine State.wr_keeps ?_
    | refine Keeps.of_opt (by assumption) (State.mapRange_keeps ?_) | dsimp only | split

theorem State.dtuNext_keeps {s0 s : State} {a1 : ℕ} (k : Keeps s0 s) :
    Keeps s0 (State.dtuNext s a1) := by
  unfold State.dtuNext
  with_reducible repeat' first
    | assumption | refine State.dtuExec_keeps ?_ | dsimp only | refine Keeps.ite ?_ ?_

theorem execMigrateComplete_keeps {s0 s : State} {a0 : BitVec 6} (k : Keeps s0 s) :
    nextKeeps s0 (execMigrateComplete a0 s) := by
  unfold execMigrateComplete
  with_reducible repeat' first
    | assumption | refine State.flow_keeps ?_ | refine State.dtuNext_keeps ?_ | refine State.dtuDone_keeps ?_
    | refine nextKeeps.next ?_ | dsimp only | refine nextKeeps.ite ?_ ?_
    | fail_if_no_progress (refine Keeps.unfold ?_; dsimp only; refine Keeps.fold ?_) | split

theorem State.quotaWrite_keeps {s0 s : State} {a1 : ℕ} {a2 : ℕ} {a3 : ℕ} (k : Keeps s0 s) :
    Keeps s0 (State.quotaWrite s a1 a2 a3) := by
  unfold State.quotaWrite
  with_reducible repeat' first
    | assumption | refine State.flag_keeps ?_ | refine State.wr_keeps ?_ | refine State.setPlan_keeps ?_
    | refine State.retryStalled_keeps ?_ | refine State.flow_keeps ?_ | dsimp only | refine Keeps.ite ?_ ?_ | split

theorem State.dtuGo_keeps {s0 s : State} {a1 : ℕ} (k : Keeps s0 s) :
    Keeps s0 (State.dtuGo s a1) := by
  unfold State.dtuGo
  with_reducible repeat' first
    | assumption | refine State.flag_keeps ?_ | refine State.wr_keeps ?_ | refine State.flow_keeps ?_
    | refine State.dtuExec_keeps ?_ | dsimp only | refine Keeps.ite ?_ ?_

theorem State.dtuCommand_keeps {s0 s : State} {a1 : ℕ} {a2 : ℕ} {a3 : Word} {a4 : Word} {a5 : Word} (k : Keeps s0 s) :
    Keeps s0 (State.dtuCommand s a1 a2 a3 a4 a5) := by
  unfold State.dtuCommand
  with_reducible repeat' first
    | assumption | refine State.flag_keeps ?_ | refine State.wr_keeps ?_ | refine State.dtuGo_keeps ?_
    | refine State.setReg_keeps ?_ | dsimp only | refine Keeps.ite ?_ ?_

theorem execQuotaWrite_keeps {s0 s : State} {a0 : BitVec 5} {a1 : BitVec 2} {a2 : BitVec 32} (k : Keeps s0 s) :
    nextKeeps s0 (execQuotaWrite a0 a1 a2 s) := by
  unfold execQuotaWrite
  with_reducible repeat' first
    | assumption | refine State.quotaWrite_keeps ?_ | refine nextKeeps.next ?_ | refine Keeps.ite ?_ ?_

theorem execProtect_keeps {s0 s : State} {a0 : BitVec 6} {a1 : Word} {a2 : Word} {a3 : Word} (k : Keeps s0 s) :
    nextKeeps s0 (execProtect a0 a1 a2 a3 s) := by
  unfold execProtect
  with_reducible repeat' first
    | assumption | refine State.dtuCommand_keeps ?_ | refine nextKeeps.next ?_

theorem execMap_keeps {s0 s : State} {a0 : BitVec 6} {a1 : Word} {a2 : Word} {a3 : Word} (k : Keeps s0 s) :
    nextKeeps s0 (execMap a0 a1 a2 a3 s) := by
  unfold execMap
  with_reducible repeat' first
    | assumption | refine State.dtuCommand_keeps ?_ | refine nextKeeps.next ?_

theorem execUnmap_keeps {s0 s : State} {a0 : BitVec 6} {a1 : Word} {a2 : Word} {a3 : Word} (k : Keeps s0 s) :
    nextKeeps s0 (execUnmap a0 a1 a2 a3 s) := by
  unfold execUnmap
  with_reducible repeat' first
    | assumption | refine State.dtuCommand_keeps ?_ | refine nextKeeps.next ?_

theorem execMigrate_keeps {s0 s : State} {a0 : BitVec 6} {a1 : Word} {a2 : Word} {a3 : Word} (k : Keeps s0 s) :
    nextKeeps s0 (execMigrate a0 a1 a2 a3 s) := by
  unfold execMigrate
  with_reducible repeat' first
    | assumption | refine State.dtuCommand_keeps ?_ | refine nextKeeps.next ?_

theorem execUnpinXlate_keeps {s0 s : State} {a0 : BitVec 6} {a1 : Word} {a2 : Word} {a3 : Word} (k : Keeps s0 s) :
    nextKeeps s0 (execUnpinXlate a0 a1 a2 a3 s) := by
  unfold execUnpinXlate
  with_reducible repeat' first
    | assumption | refine State.dtuCommand_keeps ?_ | refine nextKeeps.next ?_

theorem execPinXlate_keeps {s0 s : State} {a0 : BitVec 6} {a1 : Word} {a2 : Word} {a3 : Word} (k : Keeps s0 s) :
    nextKeeps s0 (execPinXlate a0 a1 a2 a3 s) := by
  unfold execPinXlate
  with_reducible repeat' first
    | assumption | refine State.dtuCommand_keeps ?_ | refine nextKeeps.next ?_

theorem execHint_keeps {s0 s : State} {a0 : BitVec 6} {a1 : Word} {a2 : Word} {a3 : Word} (k : Keeps s0 s) :
    nextKeeps s0 (execHint a0 a1 a2 a3 s) := by
  unfold execHint
  with_reducible repeat' first
    | assumption | refine State.dtuCommand_keeps ?_ | refine nextKeeps.next ?_

/-! ### Stream -/

theorem State.strmFields_keeps {s0 s : State} {a1 : ℕ} {a2 : Word} (k : Keeps s0 s) :
    Keeps s0 (State.strmFields s a1 a2) := by
  unfold State.strmFields
  with_reducible repeat' first
    | assumption | refine State.wr_keeps ?_

theorem State.downPressure_keeps {s0 s : State} {a1 : ℕ} (k : Keeps s0 s) :
    Keeps s0 (State.downPressure s a1) := by
  unfold State.downPressure
  with_reducible repeat' first
    | assumption | refine State.pressure_keeps ?_ | refine foldl_keeps ?_ (fun _ _ _ => ?_) | refine Keeps.ite ?_ ?_

theorem execHeathResponse_keeps {s0 s : State} {a0 : BitVec 6} {a1 : Bool} (k : Keeps s0 s) :
    nextKeeps s0 (execHeathResponse a0 a1 s) := by
  unfold execHeathResponse
  with_reducible repeat' first
    | assumption | refine State.flag_keeps ?_ | refine State.drainStores_keeps ?_ | refine nextKeeps.next ?_
    | dsimp only | refine Keeps.ite ?_ ?_ | refine nextKeeps.ite ?_ ?_

theorem State.prefetchItem_keeps {s0 s : State} {a1 : ℕ} {a2 : ℕ} {a3 : ℕ} {a4 : ℕ} {a5 : Work} (k : Keeps s0 s) :
    Keeps s0 (State.prefetchItem s a1 a2 a3 a4 a5) := by
  unfold State.prefetchItem
  with_reducible repeat' first
    | assumption | refine State.addItem_keeps ?_ | refine State.startMove_keeps ?_ | dsimp only
    | fail_if_no_progress (refine Keeps.unfold ?_; dsimp only; refine Keeps.fold ?_) | split

theorem State.prefetchTiles_keeps {s0 s : State} {a0 : ℕ} {a1 : ℕ} {a2 : ℕ} {a3 : ℕ} {a4 : ℕ} {a5 : Option ℕ} {a6 : ℕ} {a7 : ℕ} (k : Keeps s0 s) :
    Keeps s0 (State.prefetchTiles a0 a1 a2 a3 a4 a5 a6 a7 s).2 := by
  induction a6 generalizing a0 a1 a2 a3 a4 a5 a7 s with
  | zero =>
    unfold State.prefetchTiles
    with_reducible repeat' first
      | assumption

  | succ n ih =>
    unfold State.prefetchTiles
    with_reducible repeat' first
      | refine ih ?_
      | assumption | refine State.bump_keeps ?_ | refine State.prefetchItem_keeps ?_ | refine Keeps.ite_snd ?_ ?_
      | split

theorem State.prefetchFire_keeps {s0 s : State} {a1 : ℕ} (k : Keeps s0 s) :
    Keeps s0 (State.prefetchFire s a1) := by
  unfold State.prefetchFire
  with_reducible repeat' first
    | assumption | refine State.wr_keeps ?_ | refine State.flag_keeps ?_ | refine State.prefetchTiles_keeps ?_
    | dsimp only | refine Keeps.ite ?_ ?_
    | fail_if_no_progress (refine Keeps.unfold ?_; dsimp only; refine Keeps.fold ?_) | split

theorem State.winAbandon_keeps {s0 s : State} {a1 : ℕ} {a2 : List (ℕ × ℕ)} (k : Keeps s0 s) :
    Keeps s0 (State.winAbandon s a1 a2) := by
  unfold State.winAbandon
  with_reducible repeat' first
    | assumption | refine State.leaveGran_keeps ?_ | refine State.withdraw_keeps ?_
    | refine foldl_keeps ?_ (fun _ _ _ => ?_) | dsimp only
    | fail_if_no_progress (refine Keeps.unfold ?_; dsimp only; refine Keeps.fold ?_) | split

theorem State.reconcile_keeps {s0 s : State} {a1 : ℕ} (k : Keeps s0 s) :
    Keeps s0 (State.reconcile s a1) := by
  unfold State.reconcile
  with_reducible repeat' first
    | assumption | refine State.winAbandon_keeps ?_ | refine State.wr_keeps ?_ | refine State.addGranule_keeps ?_
    | refine State.winReady_keeps ?_ | refine foldl_keeps ?_ (fun _ _ _ => ?_) | refine Keeps.ite ?_ ?_ | split

theorem State.tierPortDown_keeps {s0 s : State} {a1 : Bool} {a2 : ℕ} (k : Keeps s0 s) :
    Keeps s0 (State.tierPortDown s a1 a2) := by
  unfold State.tierPortDown
  with_reducible repeat' first
    | assumption | refine State.dropMoorReqs_keeps ?_ | refine State.setMoorState_keeps ?_
    | refine State.downPressure_keeps ?_ | refine State.failHomed_keeps ?_ | refine State.heathDown_keeps ?_
    | dsimp only | refine Keeps.ite ?_ ?_

theorem State.connLost_keeps {s0 s : State} {a1 : ℕ} (k : Keeps s0 s) :
    Keeps s0 (State.connLost s a1) := by
  unfold State.connLost
  with_reducible repeat' first
    | assumption | refine State.downPressure_keeps ?_ | refine State.failHomed_keeps ?_
    | refine foldl_keeps ?_ (fun _ _ _ => ?_) | refine Keeps.ite ?_ ?_

theorem State.loseMoor_keeps {s0 s : State} {a1 : ℕ} (k : Keeps s0 s) :
    Keeps s0 (State.loseMoor s a1) := by
  unfold State.loseMoor
  with_reducible repeat' first
    | assumption | refine State.tierLost_keeps ?_ | refine State.dropMoorReqs_keeps ?_
    | refine State.setMoorState_keeps ?_

theorem State.loseHeath_keeps {s0 s : State} {a1 : ℕ} (k : Keeps s0 s) :
    Keeps s0 (State.loseHeath s a1) := by
  unfold State.loseHeath
  with_reducible repeat' first
    | assumption | refine State.tierLost_keeps ?_ | refine State.setHeathState_keeps ?_
    | refine State.heathDown_keeps ?_

theorem State.tierReqFail_keeps {s0 s : State} {a1 : ℕ} {a2 : ℕ} (k : Keeps s0 s) :
    Keeps s0 (State.tierReqFail s a1 a2) := by
  unfold State.tierReqFail
  with_reducible repeat' first
    | assumption | refine State.tierFail_keeps ?_ | refine State.endGran_keeps ?_ | refine State.granAbandon_keeps ?_
    | refine State.stopDesc_keeps ?_ | refine State.putOver_keeps ?_ | refine State.intakeFault_keeps ?_
    | refine State.endRegrow_keeps ?_ | refine State.stopItem_keeps ?_ | dsimp only | split

theorem execDeclareMoor_keeps {s0 s : State} {a0 : BitVec 16} (k : Keeps s0 s) :
    nextKeeps s0 (execDeclareMoor a0 s) := by
  unfold execDeclareMoor
  with_reducible repeat' first
    | assumption | refine State.flow_keeps ?_ | refine State.loseMoor_keeps ?_ | refine nextKeeps.next ?_
    | refine foldl_keeps ?_ (fun _ _ _ => ?_) | refine Keeps.ite ?_ ?_

theorem execTierLossTimeout_keeps {s0 s : State} {a0 : Bool} {a1 : BitVec 4} (k : Keeps s0 s) :
    nextKeeps s0 (execTierLossTimeout a0 a1 s) := by
  unfold execTierLossTimeout
  with_reducible repeat' first
    | assumption | refine State.flow_keeps ?_ | refine State.loseMoor_keeps ?_ | refine State.loseHeath_keeps ?_
    | refine nextKeeps.next ?_ | dsimp only | refine Keeps.ite ?_ ?_ | refine nextKeeps.ite ?_ ?_

theorem execHeathTimeout_keeps {s0 s : State} {a0 : Option ℕ} {a1 : BitVec 6} (k : Keeps s0 s) :
    nextKeeps s0 (execHeathTimeout a0 a1 s) := by
  unfold execHeathTimeout
  with_reducible repeat' first
    | assumption | refine execAsyncStoreFail_keeps ?_ | refine State.flow_keeps ?_
    | refine State.tierReqFail_keeps ?_ | refine nextKeeps.next ?_ | refine Keeps.ite ?_ ?_ | split

theorem execDeclareHeath_keeps {s0 s : State} {a0 : BitVec 8} (k : Keeps s0 s) :
    nextKeeps s0 (execDeclareHeath a0 s) := by
  unfold execDeclareHeath
  with_reducible repeat' first
    | assumption | refine State.flow_keeps ?_ | refine State.loseHeath_keeps ?_ | refine nextKeeps.next ?_
    | refine foldl_keeps ?_ (fun _ _ _ => ?_) | refine Keeps.ite ?_ ?_

theorem State.tierPortUp_keeps {s0 s : State} {a1 : Bool} {a2 : ℕ} (k : Keeps s0 s) :
    Keeps s0 (State.tierPortUp s a1 a2) := by
  unfold State.tierPortUp
  with_reducible repeat' first
    | assumption | refine State.retryStalled_keeps ?_ | refine State.setMoorState_keeps ?_
    | refine State.setHeathState_keeps ?_ | refine foldl_keeps ?_ (fun _ _ _ => ?_) | dsimp only
    | refine Keeps.ite ?_ ?_

theorem execWindowReconcile_keeps {s0 s : State} {a0 : BitVec 8} (k : Keeps s0 s) :
    nextKeeps s0 (execWindowReconcile a0 s) := by
  unfold execWindowReconcile
  with_reducible repeat' first
    | assumption | refine State.flow_keeps ?_ | refine State.reconcile_keeps ?_ | refine nextKeeps.next ?_
    | refine Keeps.ite ?_ ?_

theorem execPrefetchFire_keeps {s0 s : State} {a0 : BitVec 8} (k : Keeps s0 s) :
    nextKeeps s0 (execPrefetchFire a0 s) := by
  unfold execPrefetchFire
  with_reducible repeat' first
    | assumption | refine State.flow_keeps ?_ | refine State.prefetchFire_keeps ?_ | refine nextKeeps.next ?_
    | refine Keeps.ite ?_ ?_

theorem execTierPortDown_keeps {s0 s : State} {a0 : Bool} {a1 : BitVec 4} (k : Keeps s0 s) :
    nextKeeps s0 (execTierPortDown a0 a1 s) := by
  unfold execTierPortDown
  with_reducible repeat' first
    | assumption | refine State.flow_keeps ?_ | refine State.tierPortDown_keeps ?_ | refine nextKeeps.next ?_
    | refine Keeps.ite ?_ ?_

theorem State.strmCfg_keeps {s0 s : State} {a1 : ℕ} {a2 : Word} (k : Keeps s0 s) :
    Keeps s0 (State.strmCfg s a1 a2) := by
  unfold State.strmCfg
  with_reducible repeat' first
    | assumption | refine State.stopStream_keeps ?_ | refine State.strmFields_keeps ?_ | refine State.flag_keeps ?_
    | refine State.eachPage_keeps ?_ | refine State.flow_keeps ?_ | refine State.reconcile_keeps ?_
    | refine State.wr_keeps ?_ | dsimp only | refine Keeps.ite ?_ ?_

theorem State.targetsUp_keeps {s0 s : State} {a1 : ℕ} {a2 : ℕ} (k : Keeps s0 s) :
    Keeps s0 (State.targetsUp s a1 a2) := by
  unfold State.targetsUp
  with_reducible repeat' first
    | assumption | refine State.tierPortUp_keeps ?_ | refine foldl_keeps ?_ (fun _ _ _ => ?_)
    | refine Keeps.ite ?_ ?_

theorem execStreamDisable_keeps {s0 s : State} {a0 : BitVec 8} {a1 : Word} (k : Keeps s0 s) :
    nextKeeps s0 (execStreamDisable a0 a1 s) := by
  unfold execStreamDisable
  with_reducible repeat' first
    | assumption | refine State.strmCfg_keeps ?_ | refine nextKeeps.next ?_ | refine Keeps.ite ?_ ?_

theorem execTierPortUp_keeps {s0 s : State} {a0 : Bool} {a1 : BitVec 4} (k : Keeps s0 s) :
    nextKeeps s0 (execTierPortUp a0 a1 s) := by
  unfold execTierPortUp
  with_reducible repeat' first
    | assumption | refine State.flow_keeps ?_ | refine State.tierPortUp_keeps ?_ | refine nextKeeps.next ?_
    | refine Keeps.ite ?_ ?_

theorem execStreamEnableWindow_keeps {s0 s : State} {a0 : BitVec 8} {a1 : Word} (k : Keeps s0 s) :
    nextKeeps s0 (execStreamEnableWindow a0 a1 s) := by
  unfold execStreamEnableWindow
  with_reducible repeat' first
    | assumption | refine State.strmCfg_keeps ?_ | refine nextKeeps.next ?_ | refine Keeps.ite ?_ ?_

theorem execStreamEnablePrefetch_keeps {s0 s : State} {a0 : BitVec 8} {a1 : Word} (k : Keeps s0 s) :
    nextKeeps s0 (execStreamEnablePrefetch a0 a1 s) := by
  unfold execStreamEnablePrefetch
  with_reducible repeat' first
    | assumption | refine State.strmCfg_keeps ?_ | refine nextKeeps.next ?_ | refine Keeps.ite ?_ ?_

end Sys2Proof.Machine
end

