-- ==== Sys2Proof/Laws/KeepsHost.lean ====
section
/-! SUPPORT. What the host, reset, error and lease commands keep: memory in its
canonical form, the TALLY unit sound, the variant and the queue of commands (`Keeps`).
One lemma an operation, cited by its callers, so no proof unfolds an operation twice. -/

namespace Sys2Proof.Machine

open Ulital

/-! ### HostCmd -/

theorem State.askPage_keeps {s0 s : State} {a1 : ℕ} {a2 : ℕ} (k : Keeps s0 s) :
    Keeps s0 (State.askPage s a1 a2) := by
  unfold State.askPage
  with_reducible repeat' first
    | assumption | refine State.emit_keeps ?_ | dsimp only | refine Keeps.ite ?_ ?_
    | fail_if_no_progress (refine Keeps.unfold ?_; dsimp only; refine Keeps.fold ?_)

theorem State.settleInvals_keeps {s0 s : State}  (k : Keeps s0 s) :
    Keeps s0 (State.settleInvals s) := by
  unfold State.settleInvals
  with_reducible repeat' first
    | assumption | refine State.emit_keeps ?_ | refine foldl_keeps ?_ (fun _ _ _ => ?_) | dsimp only
    | fail_if_no_progress (refine Keeps.unfold ?_; dsimp only; refine Keeps.fold ?_)

theorem State.cacheAts_keeps {s0 s : State} {a1 : AtsEnt} (k : Keeps s0 s) :
    Keeps s0 (State.cacheAts s a1) := by
  unfold State.cacheAts
  with_reducible repeat' first
    | assumption | dsimp only | fail_if_no_progress (refine Keeps.unfold ?_; dsimp only; refine Keeps.fold ?_)

theorem State.peerWords_keeps {s0 s : State} {a1 : List Word} {a2 : ℕ} (k : Keeps s0 s) :
    Keeps s0 (State.peerWords s a1 a2) := by
  unfold State.peerWords
  with_reducible repeat' first
    | assumption | refine State.wr_keeps ?_ | dsimp only | refine Keeps.ite ?_ ?_

theorem State.pfClear_keeps {s0 s : State}  (k : Keeps s0 s) :
    Keeps s0 (State.pfClear s) := by
  unfold State.pfClear
  with_reducible repeat' first
    | assumption | refine State.setReg_keeps ?_ | refine State.wr_keeps ?_ | refine foldl_keeps ?_ (fun _ _ _ => ?_)
    | dsimp only | fail_if_no_progress (refine Keeps.unfold ?_; dsimp only; refine Keeps.fold ?_)

theorem execInvalidationRequest_keeps {s0 s : State} {a0 : BitVec 5} {a1 : Word} {a2 : ℕ} (k : Keeps s0 s) :
    nextKeeps s0 (execInvalidationRequest a0 a1 a2 s) := by
  unfold execInvalidationRequest
  with_reducible repeat' first
    | assumption | refine State.settleInvals_keeps ?_ | refine nextKeeps.next ?_ | dsimp only
    | refine Keeps.ite ?_ ?_ | fail_if_no_progress (refine Keeps.unfold ?_; dsimp only; refine Keeps.fold ?_)

theorem State.donePage_keeps {s0 s : State} {a1 : ℕ} {a2 : ℕ} (k : Keeps s0 s) :
    Keeps s0 (State.donePage s a1 a2) := by
  unfold State.donePage
  with_reducible repeat' first
    | assumption | refine State.askPage_keeps ?_ | dsimp only
    | fail_if_no_progress (refine Keeps.unfold ?_; dsimp only; refine Keeps.fold ?_) | split

theorem execSysOpen_keeps {s0 s : State}  (k : Keeps s0 s) :
    nextKeeps s0 (execSysOpen s) := by
  unfold execSysOpen
  with_reducible repeat' first
    | assumption | refine State.wr_keeps ?_ | refine nextKeeps.next ?_ | refine foldl_keeps ?_ (fun _ _ _ => ?_)
    | dsimp only | refine Keeps.ite ?_ ?_

theorem State.wbCommit_keeps {s0 s : State} {a1 : ℕ} {a2 : Awaited} (k : Keeps s0 s) :
    Keeps s0 (State.wbCommit s a1 a2) := by
  unfold State.wbCommit
  with_reducible repeat' first
    | assumption | refine State.setAwaited_keeps ?_ | refine State.setTile_keeps ?_

theorem State.setBme_keeps {s0 s : State} {a1 : ℕ} {a2 : Bool} (k : Keeps s0 s) :
    Keeps s0 (State.setBme s a1 a2) := by
  unfold State.setBme
  with_reducible repeat' first
    | assumption | refine State.wrb_keeps ?_ | dsimp only | refine Keeps.ite ?_ ?_
    | fail_if_no_progress (refine Keeps.unfold ?_; dsimp only; refine Keeps.fold ?_)

theorem State.quarReads_keeps {s0 s : State} {a1 : ReadRec → ℕ → Bool} (k : Keeps s0 s) :
    Keeps s0 (State.quarReads s a1) := by
  unfold State.quarReads
  with_reducible repeat' first
    | assumption | refine State.quarantine_keeps ?_ | refine State.retireRead_keeps ?_
    | refine foldl_keeps ?_ (fun _ _ _ => ?_)

theorem State.wbStray_keeps {s0 s : State} {a1 : ℕ} {a2 : ℕ} (k : Keeps s0 s) :
    Keeps s0 (State.wbStray s a1 a2) := by
  unfold State.wbStray
  with_reducible repeat' first
    | assumption | refine State.flag_keeps ?_ | dsimp only
    | fail_if_no_progress (refine Keeps.unfold ?_; dsimp only; refine Keeps.fold ?_)

theorem State.flrLink_keeps {s0 s : State} {a1 : ℕ} (k : Keeps s0 s) :
    Keeps s0 (State.flrLink s a1) := by
  unfold State.flrLink
  with_reducible repeat' first
    | assumption | refine State.quarReads_keeps ?_ | refine State.setHeld_keeps ?_
    | refine State.settleInvals_keeps ?_ | refine State.setBme_keeps ?_ | dsimp only
    | fail_if_no_progress (refine Keeps.unfold ?_; dsimp only; refine Keeps.fold ?_)

theorem State.peerDone_keeps {s0 s : State} {a1 : ℕ} {a2 : ℕ} (k : Keeps s0 s) :
    Keeps s0 (State.peerDone s a1 a2) := by
  unfold State.peerDone
  with_reducible repeat' first
    | assumption | refine State.wr_keeps ?_ | refine State.irq_keeps ?_ | refine State.flag_keeps ?_

theorem execWriteBackHeader_keeps {s0 s : State} {a0 : BitVec 5} {a1 : BitVec 16} {a2 : List Byte} (k : Keeps s0 s) :
    nextKeeps s0 (execWriteBackHeader a0 a1 a2 s) := by
  unfold execWriteBackHeader
  with_reducible repeat' first
    | assumption | refine State.wbStray_keeps ?_ | refine nextKeeps.next ?_ | dsimp only | refine Keeps.ite ?_ ?_
    | fail_if_no_progress (refine Keeps.unfold ?_; dsimp only; refine Keeps.fold ?_) | split

theorem State.bar4Refuse_keeps {s0 s : State} {a1 : ℕ} {a2 : XErr × ℕ} {a3 : ℕ} {a4 : Bool} (k : Keeps s0 s) :
    Keeps s0 (State.bar4Refuse s a1 a2 a3 a4) := by
  unfold State.bar4Refuse
  with_reducible repeat' first
    | assumption | refine State.emit_keeps ?_ | refine State.dtuFault_keeps ?_ | dsimp only | refine Keeps.ite ?_ ?_

theorem State.peerUnregister_keeps {s0 s : State}  (k : Keeps s0 s) :
    Keeps s0 (State.peerUnregister s) := by
  unfold State.peerUnregister
  with_reducible repeat' first
    | assumption | refine State.peerDone_keeps ?_ | refine State.setReg_keeps ?_
    | refine foldl_keeps ?_ (fun _ _ _ => ?_) | dsimp only | refine Keeps.ite ?_ ?_
    | fail_if_no_progress (refine Keeps.unfold ?_; dsimp only; refine Keeps.fold ?_)

theorem State.peerRegister_keeps {s0 s : State}  (k : Keeps s0 s) :
    Keeps s0 (State.peerRegister s) := by
  unfold State.peerRegister
  with_reducible repeat' first
    | assumption | refine State.peerDone_keeps ?_ | refine Keeps.of_opt (by assumption) (State.sendRead_keeps ?_)
    | dsimp only | refine Keeps.ite ?_ ?_
    | fail_if_no_progress (refine Keeps.unfold ?_; dsimp only; refine Keeps.fold ?_) | split

theorem State.peerGo_keeps {s0 s : State}  (k : Keeps s0 s) :
    Keeps s0 (State.peerGo s) := by
  unfold State.peerGo
  with_reducible repeat' first
    | assumption | refine State.flag_keeps ?_ | refine State.wr_keeps ?_ | refine State.peerRegister_keeps ?_
    | refine State.peerUnregister_keeps ?_ | refine State.peerDone_keeps ?_ | dsimp only | refine Keeps.ite ?_ ?_
    | split

theorem State.probeEnd_keeps {s0 s : State} {a1 : ℕ} (k : Keeps s0 s) :
    Keeps s0 (State.probeEnd s a1) := by
  unfold State.probeEnd
  with_reducible repeat' first
    | assumption | refine State.peerDone_keeps ?_ | refine State.setReg_keeps ?_ | refine State.setRing_keeps ?_
    | refine foldl_keeps ?_ (fun _ _ _ => ?_) | dsimp only | refine Keeps.ite ?_ ?_
    | fail_if_no_progress (refine Keeps.unfold ?_; dsimp only; refine Keeps.fold ?_) | split

theorem execBar4Write_keeps {s0 s : State} {a0 : BitVec 5} {a1 : BitVec 36} {a2 : List Byte} (k : Keeps s0 s) :
    nextKeeps s0 (execBar4Write a0 a1 a2 s) := by
  unfold execBar4Write
  with_reducible repeat' first
    | assumption | refine State.bar4Refuse_keeps ?_ | refine State.vwrite_keeps ?_ | refine nextKeeps.next ?_
    | refine Keeps.ite ?_ ?_ | split

theorem execBar4Read_keeps {s0 s : State} {a0 : BitVec 5} {a1 : BitVec 36} {a2 : ℕ} (k : Keeps s0 s) :
    nextKeeps s0 (execBar4Read a0 a1 a2 s) := by
  unfold execBar4Read
  with_reducible repeat' first
    | assumption | refine State.emit_keeps ?_ | refine State.bar4Refuse_keeps ?_ | refine State.vread_keeps ?_
    | refine nextKeeps.next ?_ | dsimp only | refine Keeps.ite ?_ ?_ | split

theorem State.endRead_keeps {s0 s : State} {a1 : ℕ} {a2 : ReadRec} (k : Keeps s0 s) :
    Keeps s0 (State.endRead s a1 a2) := by
  unfold State.endRead
  with_reducible repeat' first
    | assumption | refine State.settleInvals_keeps ?_ | refine State.retireRead_keeps ?_
    | refine State.leaveHalt_keeps ?_ | refine State.refreshLines_keeps ?_ | dsimp only | split

theorem State.atsFault_keeps {s0 s : State} {a1 : ℕ} {a2 : ℕ} (k : Keeps s0 s) :
    Keeps s0 (State.atsFault s a1 a2) := by
  unfold State.atsFault
  with_reducible repeat' first
    | assumption | refine State.stopDesc_keeps ?_ | refine State.putItem_keeps ?_ | refine State.wr_keeps ?_
    | refine State.setChState_keeps ?_ | refine State.flag_keeps ?_ | refine State.takeDesc_keeps ?_
    | refine foldl_keeps ?_ (fun _ _ _ => ?_) | dsimp only | refine Keeps.ite ?_ ?_ | split

theorem State.readGot_keeps {s0 s : State} {a1 : ReadRec} {a2 : List Byte} (k : Keeps s0 s) :
    Keeps s0 (State.readGot s a1 a2) := by
  unfold State.readGot
  with_reducible repeat' first
    | assumption | refine State.gotRead_keeps ?_ | refine State.endDesc_keeps ?_ | refine State.delivered_keeps ?_
    | refine State.probeEnd_keeps ?_ | refine State.takeDesc_keeps ?_ | refine State.kickRead_keeps ?_
    | refine State.setRing_keeps ?_ | refine State.endNotify_keeps ?_ | refine State.tileNotice_keeps ?_ | dsimp only
    | split

theorem State.readFailed_keeps {s0 s : State} {a1 : ReadRec} {a2 : ℕ} (k : Keeps s0 s) :
    Keeps s0 (State.readFailed s a1 a2) := by
  unfold State.readFailed
  with_reducible repeat' first
    | assumption | refine State.endDesc_keeps ?_ | refine State.endItem_keeps ?_ | refine State.badRead_keeps ?_
    | refine State.probeEnd_keeps ?_ | refine State.takeDesc_keeps ?_ | dsimp only | split

theorem State.flrPart_keeps {s0 s : State} {a1 : ℕ} (k : Keeps s0 s) :
    Keeps s0 (State.flrPart s a1) := by
  unfold State.flrPart
  with_reducible repeat' first
    | assumption | refine State.wr_keeps ?_ | refine State.startReset_keeps ?_ | refine State.flrLink_keeps ?_

theorem State.hostLinkDown_keeps {s0 s : State} {a1 : ℕ} (k : Keeps s0 s) :
    Keeps s0 (State.hostLinkDown s a1) := by
  unfold State.hostLinkDown
  with_reducible repeat' first
    | assumption | refine State.sat_keeps ?_ | refine State.wr_keeps ?_ | refine State.irq_keeps ?_
    | refine State.emit_keeps ?_ | refine State.endRead_keeps ?_ | refine State.readFailed_keeps ?_
    | refine foldl_keeps ?_ (fun _ _ _ => ?_) | dsimp only | refine Keeps.ite ?_ ?_

theorem State.stopRiders_keeps {s0 s : State} {a1 : ℕ} (k : Keeps s0 s) :
    Keeps s0 (State.stopRiders s a1) := by
  unfold State.stopRiders
  with_reducible repeat' first
    | assumption | refine State.stopDesc_keeps ?_ | refine State.haltChain_keeps ?_ | refine State.stopItem_keeps ?_
    | refine State.absorb_keeps ?_ | refine foldl_keeps ?_ (fun _ _ _ => ?_) | dsimp only | refine Keeps.ite ?_ ?_
    | split

theorem execLinkUp_keeps {s0 s : State} {a0 : BitVec 3} {a1 : BitVec 3} {a2 : BitVec 5} {a3 : Bool} {a4 : Bool} (k : Keeps s0 s) :
    nextKeeps s0 (execLinkUp a0 a1 a2 a3 a4 s) := by
  unfold execLinkUp
  with_reducible repeat' first
    | assumption | refine State.wrb_keeps ?_ | refine State.wr_keeps ?_ | refine State.flow_keeps ?_
    | refine State.irq_keeps ?_ | refine nextKeeps.next ?_ | dsimp only | refine Keeps.ite ?_ ?_

theorem execCplReceived_keeps {s0 s : State} {a0 : BitVec 3} {a1 : BitVec 14} {a2 : BitVec 3} {a3 : List Byte} (k : Keeps s0 s) :
    nextKeeps s0 (execCplReceived a0 a1 a2 a3 s) := by
  unfold execCplReceived
  with_reducible repeat' first
    | assumption | refine State.endRead_keeps ?_ | refine State.flow_keeps ?_ | refine State.readGot_keeps ?_
    | refine State.emit_keeps ?_ | refine State.readFailed_keeps ?_ | refine State.unquarantine_keeps ?_
    | refine State.sat_keeps ?_ | refine nextKeeps.next ?_ | dsimp only | refine Keeps.ite ?_ ?_ | split

theorem execHostLinkDown_keeps {s0 s : State} {a0 : BitVec 3} (k : Keeps s0 s) :
    nextKeeps s0 (execHostLinkDown a0 s) := by
  unfold execHostLinkDown
  with_reducible repeat' first
    | assumption | refine State.flow_keeps ?_ | refine State.hostLinkDown_keeps ?_ | refine nextKeeps.next ?_
    | refine Keeps.ite ?_ ?_

theorem State.atsRetry_keeps {s0 s : State} {a1 : ℕ} (k : Keeps s0 s) :
    Keeps s0 (State.atsRetry s a1) := by
  unfold State.atsRetry
  with_reducible repeat' first
    | assumption | refine State.flow_keeps ?_ | refine State.drainRecs_keeps ?_
    | refine foldl_keeps ?_ (fun _ _ _ => ?_) | dsimp only | refine Keeps.ite ?_ ?_
    | fail_if_no_progress (refine Keeps.unfold ?_; dsimp only; refine Keeps.fold ?_)

theorem execProbeResult_keeps {s0 s : State} {a0 : BitVec 3} (k : Keeps s0 s) :
    nextKeeps s0 (execProbeResult a0 s) := by
  unfold execProbeResult
  with_reducible repeat' first
    | assumption | refine State.peerDone_keeps ?_ | refine State.probeEnd_keeps ?_ | refine State.endRead_keeps ?_
    | refine State.flow_keeps ?_ | refine State.emit_keeps ?_ | refine State.quarantine_keeps ?_
    | refine nextKeeps.next ?_ | dsimp only | refine Keeps.ite ?_ ?_ | split

theorem State.pfFlr_keeps {s0 s : State}  (k : Keeps s0 s) :
    Keeps s0 (State.pfFlr s) := by
  unfold State.pfFlr
  with_reducible repeat' first
    | assumption | refine State.flow_keeps ?_ | refine State.pfClear_keeps ?_ | refine State.flrPart_keeps ?_
    | refine foldl_keeps ?_ (fun _ _ _ => ?_)

theorem execPageRequestResponse_keeps {s0 s : State} {a0 : BitVec 5} {a1 : Word} {a2 : BitVec 4} (k : Keeps s0 s) :
    nextKeeps s0 (execPageRequestResponse a0 a1 a2 s) := by
  unfold execPageRequestResponse
  with_reducible repeat' first
    | assumption | refine State.donePage_keeps ?_ | refine State.askAts_keeps ?_ | refine State.flow_keeps ?_
    | refine State.atsFault_keeps ?_ | refine nextKeeps.next ?_ | dsimp only | refine Keeps.ite ?_ ?_

theorem execIdeCheckFail_keeps {s0 s : State} {a0 : BitVec 3} {a1 : BitVec 4} (k : Keeps s0 s) :
    nextKeeps s0 (execIdeCheckFail a0 a1 s) := by
  unfold execIdeCheckFail
  with_reducible repeat' first
    | assumption | refine State.wr_keeps ?_ | refine State.emit_keeps ?_ | refine State.flow_keeps ?_
    | refine State.readFailed_keeps ?_ | refine nextKeeps.next ?_ | refine foldl_keeps ?_ (fun _ _ _ => ?_)
    | dsimp only | refine Keeps.ite ?_ ?_
    | fail_if_no_progress (refine Keeps.unfold ?_; dsimp only; refine Keeps.fold ?_)

theorem State.bmeSet_keeps {s0 s : State} {a1 : ℕ} (k : Keeps s0 s) :
    Keeps s0 (State.bmeSet s a1) := by
  unfold State.bmeSet
  with_reducible repeat' first
    | assumption | refine State.drainHeld_keeps ?_ | refine State.setBme_keeps ?_ | refine State.flow_keeps ?_
    | refine State.drainRecs_keeps ?_ | refine foldl_keeps ?_ (fun _ _ _ => ?_) | dsimp only | refine Keeps.ite ?_ ?_

theorem execRegister_keeps {s0 s : State} {a0 : List Word} (k : Keeps s0 s) :
    nextKeeps s0 (execRegister a0 s) := by
  unfold execRegister
  with_reducible repeat' first
    | assumption | refine State.flow_keeps ?_ | refine State.peerGo_keeps ?_ | refine State.peerWords_keeps ?_
    | refine nextKeeps.next ?_ | refine Keeps.ite ?_ ?_

theorem execUnregister_keeps {s0 s : State} {a0 : BitVec 6} (k : Keeps s0 s) :
    nextKeeps s0 (execUnregister a0 s) := by
  unfold execUnregister
  with_reducible repeat' first
    | assumption | refine State.flow_keeps ?_ | refine State.peerGo_keeps ?_ | refine State.peerWords_keeps ?_
    | refine nextKeeps.next ?_ | refine Keeps.ite ?_ ?_

theorem State.portFlr_keeps {s0 s : State} {a1 : ℕ} (k : Keeps s0 s) :
    Keeps s0 (State.portFlr s a1) := by
  unfold State.portFlr
  with_reducible repeat' first
    | assumption | refine State.stopRiders_keeps ?_ | refine State.setBme_keeps ?_ | refine State.flow_keeps ?_
    | refine State.settleInvals_keeps ?_ | refine State.quarReads_keeps ?_ | dsimp only | refine Keeps.ite ?_ ?_

theorem execVfEnable_keeps {s0 s : State} {a0 : Bool} {a1 : BitVec 5} (k : Keeps s0 s) :
    nextKeeps s0 (execVfEnable a0 a1 s) := by
  unfold execVfEnable
  with_reducible repeat' first
    | assumption | refine State.flrPart_keeps ?_ | refine State.flow_keeps ?_ | refine nextKeeps.next ?_
    | refine foldl_keeps ?_ (fun _ _ _ => ?_) | dsimp only | refine Keeps.ite ?_ ?_
    | fail_if_no_progress (refine Keeps.unfold ?_; dsimp only; refine Keeps.fold ?_)

theorem execPriTimeout_keeps {s0 s : State} {a0 : BitVec 5} {a1 : Word} (k : Keeps s0 s) :
    nextKeeps s0 (execPriTimeout a0 a1 s) := by
  unfold execPriTimeout
  with_reducible repeat' first
    | assumption | refine State.flow_keeps ?_ | refine State.atsFault_keeps ?_ | refine State.donePage_keeps ?_
    | refine nextKeeps.next ?_ | refine Keeps.ite ?_ ?_

theorem State.bmeClear_keeps {s0 s : State} {a1 : ℕ} (k : Keeps s0 s) :
    Keeps s0 (State.bmeClear s a1) := by
  unfold State.bmeClear
  with_reducible repeat' first
    | assumption | refine State.flow_keeps ?_ | refine State.stopRiders_keeps ?_ | refine State.setBme_keeps ?_
    | refine Keeps.ite ?_ ?_

theorem execCompletionTimeout_keeps {s0 s : State} {a0 : BitVec 3} {a1 : BitVec 14} (k : Keeps s0 s) :
    nextKeeps s0 (execCompletionTimeout a0 a1 s) := by
  unfold execCompletionTimeout
  with_reducible repeat' first
    | assumption | refine State.emit_keeps ?_ | refine State.quarantine_keeps ?_ | refine State.endRead_keeps ?_
    | refine State.flow_keeps ?_ | refine State.readFailed_keeps ?_ | refine nextKeeps.next ?_ | dsimp only
    | refine Keeps.ite ?_ ?_ | split

theorem execPfFlr_keeps {s0 s : State}  (k : Keeps s0 s) :
    nextKeeps s0 (execPfFlr s) := by
  unfold execPfFlr
  with_reducible repeat' first
    | assumption | refine State.pfFlr_keeps ?_ | refine nextKeeps.next ?_ | refine Keeps.ite ?_ ?_

theorem execTagQuarantineEnd_keeps {s0 s : State} {a0 : BitVec 3} {a1 : BitVec 14} (k : Keeps s0 s) :
    nextKeeps s0 (execTagQuarantineEnd a0 a1 s) := by
  unfold execTagQuarantineEnd
  with_reducible repeat' first
    | assumption | refine State.flow_keeps ?_ | refine State.unquarantine_keeps ?_ | refine nextKeeps.next ?_
    | refine Keeps.ite ?_ ?_

theorem execTranslationCompletion_keeps {s0 s : State} {a0 : BitVec 5} {a1 : Word} {a2 : Word} {a3 : ℕ} {a4 : Bool} {a5 : Bool} (k : Keeps s0 s) :
    nextKeeps s0 (execTranslationCompletion a0 a1 a2 a3 a4 a5 s) := by
  unfold execTranslationCompletion
  with_reducible repeat' first
    | assumption | refine State.cacheAts_keeps ?_ | refine State.atsRetry_keeps ?_ | refine State.askPage_keeps ?_
    | refine State.flow_keeps ?_ | refine State.atsFault_keeps ?_ | refine nextKeeps.next ?_ | dsimp only
    | refine Keeps.ite ?_ ?_

theorem execBusMasterSet_keeps {s0 s : State} {a0 : BitVec 7} (k : Keeps s0 s) :
    nextKeeps s0 (execBusMasterSet a0 s) := by
  unfold execBusMasterSet
  with_reducible repeat' first
    | assumption | refine State.bmeSet_keeps ?_ | refine nextKeeps.next ?_ | refine Keeps.ite ?_ ?_

theorem State.vfFlr_keeps {s0 s : State} {a1 : ℕ} (k : Keeps s0 s) :
    Keeps s0 (State.vfFlr s a1) := by
  unfold State.vfFlr
  with_reducible repeat' first
    | assumption | refine State.flow_keeps ?_ | refine State.flrPart_keeps ?_ | refine Keeps.ite ?_ ?_

theorem execPortFunctionFlr_keeps {s0 s : State} {a0 : BitVec 3} (k : Keeps s0 s) :
    nextKeeps s0 (execPortFunctionFlr a0 s) := by
  unfold execPortFunctionFlr
  with_reducible repeat' first
    | assumption | refine State.portFlr_keeps ?_ | refine nextKeeps.next ?_ | refine Keeps.ite ?_ ?_

theorem execWriteBackData_keeps {s0 s : State} {a0 : BitVec 5} {a1 : BitVec 16} {a2 : BitVec 17} {a3 : List Byte} (k : Keeps s0 s) :
    nextKeeps s0 (execWriteBackData a0 a1 a2 a3 s) := by
  unfold execWriteBackData
  with_reducible repeat' first
    | assumption | refine State.wbStray_keeps ?_ | refine State.physWrite_keeps ?_ | refine State.flow_keeps ?_
    | refine State.wbCommit_keeps ?_ | refine nextKeeps.next ?_ | dsimp only | refine Keeps.ite ?_ ?_
    | fail_if_no_progress (refine Keeps.unfold ?_; dsimp only; refine Keeps.fold ?_) | split

theorem execVfFlr_keeps {s0 s : State} {a0 : BitVec 5} (k : Keeps s0 s) :
    nextKeeps s0 (execVfFlr a0 s) := by
  unfold execVfFlr
  with_reducible repeat' first
    | assumption | refine State.vfFlr_keeps ?_ | refine nextKeeps.next ?_ | refine Keeps.ite ?_ ?_

theorem execBusMasterClear_keeps {s0 s : State} {a0 : BitVec 7} (k : Keeps s0 s) :
    nextKeeps s0 (execBusMasterClear a0 s) := by
  unfold execBusMasterClear
  with_reducible repeat' first
    | assumption | refine State.bmeClear_keeps ?_ | refine nextKeeps.next ?_ | refine Keeps.ite ?_ ?_

theorem execD3hotToD0_keeps {s0 s : State} {a0 : BitVec 7} (k : Keeps s0 s) :
    nextKeeps s0 (execD3hotToD0 a0 s) := by
  unfold execD3hotToD0
  with_reducible repeat' first
    | assumption | refine State.pfFlr_keeps ?_ | refine State.vfFlr_keeps ?_ | refine State.portFlr_keeps ?_
    | refine nextKeeps.next ?_ | refine Keeps.ite ?_ ?_

/-! ### Reset -/

theorem execPwrokFall_keeps {s0 s : State}  (k : Keeps s0 s) :
    nextKeeps s0 (execPwrokFall s) := by
  unfold execPwrokFall
  with_reducible repeat' first
    | assumption | refine State.hold_keeps ?_ | refine nextKeeps.next ?_ | dsimp only
    | fail_if_no_progress (refine Keeps.unfold ?_; dsimp only; refine Keeps.fold ?_)

theorem execFirmwareUpdate_keeps {s0 s : State} {a0 : FwImage} {a1 : Bool} (k : Keeps s0 s) :
    nextKeeps s0 (execFirmwareUpdate a0 a1 s) := by
  unfold execFirmwareUpdate
  with_reducible repeat' first
    | assumption | refine nextKeeps.next ?_ | dsimp only | refine Keeps.ite ?_ ?_
    | fail_if_no_progress (refine Keeps.unfold ?_; dsimp only; refine Keeps.fold ?_) | split

theorem execPwrfailRise_keeps {s0 s : State}  (k : Keeps s0 s) :
    nextKeeps s0 (execPwrfailRise s) := by
  unfold execPwrfailRise
  with_reducible repeat' first
    | assumption | refine State.wr_keeps ?_ | refine nextKeeps.next ?_ | dsimp only | refine Keeps.ite ?_ ?_
    | fail_if_no_progress (refine Keeps.unfold ?_; dsimp only; refine Keeps.fold ?_)

theorem State.wipe_keeps {s0 s : State} {a1 : Tab ℕ} {a2 : Tab (List ℕ)} (k : Keeps s0 s) :
    Keeps s0 (State.wipe s a1 a2) := by
  unfold State.wipe
  with_reducible repeat' first
    | assumption | dsimp only | (refine Keeps.unfold ?_; dsimp only; refine Keeps.foldMem ?_ (fun h => ?_))
    | refine memFilter_wf (fun k => !isMeadow k) ?_

theorem State.cause_keeps {s0 s : State} {a1 : ℕ} (k : Keeps s0 s) :
    Keeps s0 (State.cause s a1) := by
  unfold State.cause
  with_reducible repeat' first
    | assumption | refine State.setReg_keeps ?_ | refine State.wr_keeps ?_

theorem State.startReady_keeps {s0 s : State} {a1 : List ZeroRange} (k : Keeps s0 s) :
    Keeps s0 (State.startReady s a1) := by
  unfold State.startReady
  with_reducible repeat' first
    | assumption | refine State.wr_keeps ?_ | dsimp only
    | fail_if_no_progress (refine Keeps.unfold ?_; dsimp only; refine Keeps.fold ?_)

theorem State.setPhase_keeps {s0 s : State} {a1 : ℕ} (k : Keeps s0 s) :
    Keeps s0 (State.setPhase s a1) := by
  unfold State.setPhase
  with_reducible repeat' first
    | assumption | refine State.wr_keeps ?_

theorem State.runImage_keeps {s0 s : State} {a1 : FwImage} {a2 : Option Bool} (k : Keeps s0 s) :
    Keeps s0 (State.runImage s a1 a2) := by
  unfold State.runImage
  with_reducible repeat' first
    | assumption | refine State.wr_keeps ?_ | refine State.setPhase_keeps ?_ | refine State.wrb_keeps ?_ | dsimp only
    | fail_if_no_progress (refine Keeps.unfold ?_; dsimp only; refine Keeps.fold ?_)

theorem State.mapRegions_keeps {s0 s : State} {a1 : List (ℕ × ℕ × ℕ)} (k : Keeps s0 s) :
    Keeps s0 (State.mapRegions s a1).1 := by
  unfold State.mapRegions
  with_reducible repeat' first
    | assumption | refine State.wr_keeps ?_ | refine foldl_keeps_fst ?_ (fun _ _ _ => ?_)

theorem execRecoveryImage_keeps {s0 s : State} {a0 : Bool} {a1 : FwImage} (k : Keeps s0 s) :
    nextKeeps s0 (execRecoveryImage a0 a1 s) := by
  unfold execRecoveryImage
  with_reducible repeat' first
    | assumption | refine State.runImage_keeps ?_ | refine nextKeeps.next ?_ | refine Keeps.ite ?_ ?_

theorem State.setSites_keeps {s0 s : State} {a1 : ℕ} (k : Keeps s0 s) :
    Keeps s0 (State.setSites s a1) := by
  unfold State.setSites
  with_reducible repeat' first
    | assumption | refine State.wr_keeps ?_ | refine State.setCoreState_keeps ?_
    | refine foldl_keeps ?_ (fun _ _ _ => ?_) | dsimp only | refine Keeps.ite ?_ ?_

theorem State.coldReset_keeps {s0 s : State} {a1 : ℕ} (k : Keeps s0 s) :
    Keeps s0 (State.coldReset s a1) := by
  unfold State.coldReset
  with_reducible repeat' first
    | assumption | refine State.wipe_keeps ?_ | refine State.setPhase_keeps ?_ | refine State.cause_keeps ?_
    | dsimp only | fail_if_no_progress (refine Keeps.unfold ?_; dsimp only; refine Keeps.fold ?_)

theorem State.startFail_keeps {s0 s : State} {a1 : ℕ} (k : Keeps s0 s) :
    Keeps s0 (State.startFail s a1) := by
  unfold State.startFail
  with_reducible repeat' first
    | assumption | refine State.wr_keeps ?_ | refine State.setPhase_keeps ?_

theorem execPwrokRise_keeps {s0 s : State}  (k : Keeps s0 s) :
    nextKeeps s0 (execPwrokRise s) := by
  unfold execPwrokRise
  with_reducible repeat' first
    | assumption | refine State.coldReset_keeps ?_ | refine nextKeeps.next ?_ | dsimp only | refine Keeps.ite ?_ ?_
    | fail_if_no_progress (refine Keeps.unfold ?_; dsimp only; refine Keeps.fold ?_)

theorem execStrapSample_keeps {s0 s : State} {a0 : BitVec 12} {a1 : Bool} (k : Keeps s0 s) :
    nextKeeps s0 (execStrapSample a0 a1 s) := by
  unfold execStrapSample
  with_reducible repeat' first
    | assumption | refine State.wr_keeps ?_ | refine State.setPhase_keeps ?_ | refine nextKeeps.next ?_ | dsimp only
    | refine Keeps.ite ?_ ?_ | fail_if_no_progress (refine Keeps.unfold ?_; dsimp only; refine Keeps.fold ?_)

theorem execHostPerstDeassert_keeps {s0 s : State}  (k : Keeps s0 s) :
    nextKeeps s0 (execHostPerstDeassert s) := by
  unfold execHostPerstDeassert
  with_reducible repeat' first
    | assumption | refine State.setPhase_keeps ?_ | refine nextKeeps.next ?_ | dsimp only | refine Keeps.ite ?_ ?_
    | fail_if_no_progress (refine Keeps.unfold ?_; dsimp only; refine Keeps.fold ?_)

theorem execDiesDone_keeps {s0 s : State} {a0 : BitVec 8} {a1 : BitVec 4} {a2 : BitVec 4} (k : Keeps s0 s) :
    nextKeeps s0 (execDiesDone a0 a1 a2 s) := by
  unfold execDiesDone
  with_reducible repeat' first
    | assumption | refine State.setSites_keeps ?_ | refine State.startFail_keeps ?_ | refine State.setPhase_keeps ?_
    | refine nextKeeps.next ?_ | dsimp only | refine Keeps.ite ?_ ?_
    | fail_if_no_progress (refine Keeps.unfold ?_; dsimp only; refine Keeps.fold ?_)

theorem execPllLockTimeout_keeps {s0 s : State}  (k : Keeps s0 s) :
    nextKeeps s0 (execPllLockTimeout s) := by
  unfold execPllLockTimeout
  with_reducible repeat' first
    | assumption | refine State.startFail_keeps ?_ | refine nextKeeps.next ?_ | refine Keeps.ite ?_ ?_

theorem State.warmReset_keeps {s0 s : State} {a1 : ℕ} (k : Keeps s0 s) :
    Keeps s0 (State.warmReset s a1) := by
  unfold State.warmReset
  with_reducible repeat' first
    | assumption | refine State.wipe_keeps ?_ | refine State.wr_keeps ?_ | refine State.cause_keeps ?_
    | refine State.setPhase_keeps ?_ | dsimp only | refine Keeps.ite ?_ ?_
    | fail_if_no_progress (refine Keeps.unfold ?_; dsimp only; refine Keeps.fold ?_)

theorem State.heathPortsUp_keeps {s0 s : State} {a1 : List HeathPortUp} {a2 : List HeathPortUp} (k : Keeps s0 s) :
    Keeps s0 (State.heathPortsUp s a1 a2) := by
  unfold State.heathPortsUp
  with_reducible repeat' first
    | assumption | refine State.wr_keeps ?_ | refine State.setHeathState_keeps ?_
    | refine foldl_keeps ?_ (fun _ _ _ => ?_) | refine Keeps.ite ?_ ?_

theorem execPldmResetRequest_keeps {s0 s : State}  (k : Keeps s0 s) :
    nextKeeps s0 (execPldmResetRequest s) := by
  unfold execPldmResetRequest
  with_reducible repeat' first
    | assumption | refine State.warmReset_keeps ?_ | refine nextKeeps.next ?_

theorem execPerstAssert_keeps {s0 s : State}  (k : Keeps s0 s) :
    nextKeeps s0 (execPerstAssert s) := by
  unfold execPerstAssert
  with_reducible repeat' first
    | assumption | refine State.warmReset_keeps ?_ | refine nextKeeps.next ?_ | dsimp only
    | fail_if_no_progress (refine Keeps.unfold ?_; dsimp only; refine Keeps.fold ?_)

theorem execMcWatchdog_keeps {s0 s : State}  (k : Keeps s0 s) :
    nextKeeps s0 (execMcWatchdog s) := by
  unfold execMcWatchdog
  with_reducible repeat' first
    | assumption | refine State.flag_keeps ?_ | refine State.warmReset_keeps ?_ | refine State.wr_keeps ?_
    | refine nextKeeps.next ?_ | dsimp only | refine Keeps.ite ?_ ?_
    | fail_if_no_progress (refine Keeps.unfold ?_; dsimp only; refine Keeps.fold ?_)

theorem execFirmwareStart_keeps {s0 s : State} {a0 : Bool} {a1 : Bool} {a2 : Bool} (k : Keeps s0 s) :
    nextKeeps s0 (execFirmwareStart a0 a1 a2 s) := by
  unfold execFirmwareStart
  with_reducible repeat' first
    | assumption | refine State.startFail_keeps ?_ | refine State.setPhase_keeps ?_ | refine State.runImage_keeps ?_
    | refine State.wr_keeps ?_ | refine nextKeeps.next ?_ | dsimp only | refine Keeps.ite ?_ ?_ | split

theorem execZeroPassDone_keeps {s0 s : State} {a0 : BitVec 8} (k : Keeps s0 s) :
    nextKeeps s0 (execZeroPassDone a0 s) := by
  unfold execZeroPassDone
  with_reducible repeat' first
    | assumption | refine State.setSites_keeps ?_ | refine State.startFail_keeps ?_ | refine State.setPhase_keeps ?_
    | refine nextKeeps.next ?_ | dsimp only | refine Keeps.ite ?_ ?_
    | fail_if_no_progress (refine Keeps.unfold ?_; dsimp only; refine Keeps.fold ?_)

theorem execEscalationTimeout_keeps {s0 s : State}  (k : Keeps s0 s) :
    nextKeeps s0 (execEscalationTimeout s) := by
  unfold execEscalationTimeout
  with_reducible repeat' first
    | assumption | refine State.warmReset_keeps ?_ | refine nextKeeps.next ?_ | refine Keeps.ite ?_ ?_

theorem State.resetCtrl_keeps {s0 s : State} {a1 : Word} (k : Keeps s0 s) :
    Keeps s0 (State.resetCtrl s a1) := by
  unfold State.resetCtrl
  with_reducible repeat' first
    | assumption | refine State.coldReset_keeps ?_ | refine State.warmReset_keeps ?_ | refine Keeps.ite ?_ ?_

theorem execHotReset_keeps {s0 s : State}  (k : Keeps s0 s) :
    nextKeeps s0 (execHotReset s) := by
  unfold execHotReset
  with_reducible repeat' first
    | assumption | refine State.warmReset_keeps ?_ | refine nextKeeps.next ?_

theorem execPwrfailFall_keeps {s0 s : State}  (k : Keeps s0 s) :
    nextKeeps s0 (execPwrfailFall s) := by
  unfold execPwrfailFall
  with_reducible repeat' first
    | assumption | refine State.finalFrame_keeps ?_ | refine State.sat_keeps ?_ | refine State.flag_keeps ?_
    | refine State.wr_keeps ?_ | refine State.emit_keeps ?_ | refine nextKeeps.next ?_ | dsimp only
    | refine Keeps.ite ?_ ?_ | fail_if_no_progress (refine Keeps.unfold ?_; dsimp only; refine Keeps.fold ?_)

theorem execLinksDone_keeps {s0 s : State} {a0 : List HeathPortUp} (k : Keeps s0 s) :
    nextKeeps s0 (execLinksDone a0 s) := by
  unfold execLinksDone
  with_reducible repeat' first
    | assumption | refine State.mapRegions_keeps ?_ | refine State.heathPortsUp_keeps ?_ | refine State.wr_keeps ?_
    | refine State.setPhase_keeps ?_ | refine State.capacityCheck_keeps ?_ | refine State.startReady_keeps ?_
    | refine nextKeeps.next ?_ | dsimp only | refine Keeps.ite ?_ ?_

theorem State.deviceCause_keeps {s0 s : State} {a1 : ℕ} (k : Keeps s0 s) :
    Keeps s0 (State.deviceCause s a1) := by
  unfold State.deviceCause
  with_reducible repeat' first
    | assumption | refine State.flag_keeps ?_ | refine State.wr_keeps ?_ | refine State.warmReset_keeps ?_
    | refine State.deadLetter_keeps ?_ | refine State.emit_keeps ?_ | dsimp only | refine Keeps.ite ?_ ?_
    | fail_if_no_progress (refine Keeps.unfold ?_; dsimp only; refine Keeps.fold ?_)

theorem execCold_keeps {s0 s : State} {a0 : BitVec 8} (k : Keeps s0 s) :
    nextKeeps s0 (execCold a0 s) := by
  unfold execCold
  with_reducible repeat' first
    | assumption | refine State.resetCtrl_keeps ?_ | refine nextKeeps.next ?_

theorem execWarm_keeps {s0 s : State} {a0 : BitVec 8} (k : Keeps s0 s) :
    nextKeeps s0 (execWarm a0 s) := by
  unfold execWarm
  with_reducible repeat' first
    | assumption | refine State.resetCtrl_keeps ?_ | refine nextKeeps.next ?_

theorem execFlrTimeout_keeps {s0 s : State} {a0 : BitVec 7} (k : Keeps s0 s) :
    nextKeeps s0 (execFlrTimeout a0 s) := by
  unfold execFlrTimeout
  with_reducible repeat' first
    | assumption | refine State.deviceCause_keeps ?_ | refine nextKeeps.next ?_ | refine Keeps.ite ?_ ?_

/-! ### Err -/

theorem State.setCached_keeps {s0 s : State} {a1 : ℕ} {a2 : ℕ} {a3 : Line} {a4 : Sector} (k : Keeps s0 s) :
    Keeps s0 (State.setCached s a1 a2 a3 a4) := by
  unfold State.setCached
  with_reducible repeat' first
    | assumption | fail_if_no_progress (refine Keeps.unfold ?_; dsimp only; refine Keeps.fold ?_)

theorem State.zeroRun_keeps {s0 s : State} {a1 : ℕ} {a2 : ℕ} (k : Keeps s0 s) :
    Keeps s0 (State.zeroRun s a1 a2) := by
  unfold State.zeroRun
  with_reducible repeat' first
    | assumption | (refine Keeps.unfold ?_; dsimp only; refine Keeps.foldMem ?_ (fun h => ?_))
    | refine memKeep_wf _ ?_

theorem State.setDieCause_keeps {s0 s : State} {a1 : ℕ} {a2 : ℕ} (k : Keeps s0 s) :
    Keeps s0 (State.setDieCause s a1 a2) := by
  unfold State.setDieCause
  with_reducible repeat' first
    | assumption | refine State.wr_keeps ?_

theorem State.ethDown_keeps {s0 s : State} {a1 : ℕ} (k : Keeps s0 s) :
    Keeps s0 (State.ethDown s a1) := by
  unfold State.ethDown
  with_reducible repeat' first
    | assumption | refine State.wr_keeps ?_

theorem State.countCe_keeps {s0 s : State} {a1 : ℕ} (k : Keeps s0 s) :
    Keeps s0 (State.countCe s a1) := by
  unfold State.countCe
  with_reducible repeat' first
    | assumption | refine State.sat_keeps ?_

theorem State.dieOff_keeps {s0 s : State} {a1 : ℕ} (k : Keeps s0 s) :
    Keeps s0 (State.dieOff s a1) := by
  unfold State.dieOff
  with_reducible repeat' first
    | assumption | refine State.wr_keeps ?_ | refine State.setCoreState_keeps ?_ | refine State.zeroScratch_keeps ?_
    | refine State.clearCore_keeps ?_ | refine foldl_keeps ?_ (fun _ _ _ => ?_) | dsimp only
    | fail_if_no_progress (refine Keeps.unfold ?_; dsimp only; refine Keeps.fold ?_)

theorem State.retirePage_keeps {s0 s : State} {a1 : ℕ} {a2 : ℕ} {a3 : ℕ} (k : Keeps s0 s) :
    Keeps s0 (State.retirePage s a1 a2 a3).2 := by
  unfold State.retirePage
  with_reducible repeat' first
    | assumption | refine State.flag_keeps ?_ | refine State.sat_keeps ?_ | refine State.wr_keeps ?_
    | refine State.deadLetter_keeps ?_ | refine State.capacityCheck_keeps ?_ | dsimp only
    | refine Keeps.ite_snd ?_ ?_ | fail_if_no_progress (refine Keeps.unfold ?_; dsimp only; refine Keeps.fold ?_)

theorem State.retireIn_keeps {s0 s : State} {a1 : ℕ} {a2 : ℕ} (k : Keeps s0 s) :
    Keeps s0 (State.retireIn s a1 a2) := by
  unfold State.retireIn
  with_reducible repeat' first
    | assumption | refine State.retirePage_keeps ?_ | refine foldl_keeps ?_ (fun _ _ _ => ?_) | dsimp only
    | refine Keeps.ite ?_ ?_

theorem State.noteFixed_keeps {s0 s : State} {a1 : ℕ} (k : Keeps s0 s) :
    Keeps s0 (State.noteFixed s a1) := by
  unfold State.noteFixed
  with_reducible repeat' first
    | assumption | refine State.retirePage_keeps ?_ | dsimp only | refine Keeps.ite ?_ ?_
    | fail_if_no_progress (refine Keeps.unfold ?_; dsimp only; refine Keeps.fold ?_)

theorem execFenceTimeout_keeps {s0 s : State} {a0 : BitVec 2} (k : Keeps s0 s) :
    nextKeeps s0 (execFenceTimeout a0 s) := by
  unfold execFenceTimeout
  with_reducible repeat' first
    | assumption | refine State.deviceCause_keeps ?_ | refine nextKeeps.next ?_ | refine Keeps.ite ?_ ?_

theorem State.dieTiles_keeps {s0 s : State} {a1 : ℕ} {a2 : ℕ} (k : Keeps s0 s) :
    Keeps s0 (State.dieTiles s a1 a2) := by
  unfold State.dieTiles
  with_reducible repeat' first
    | assumption | refine State.failHomed_keeps ?_ | refine State.settle_keeps ?_ | refine State.heal_keeps ?_
    | refine State.lose_keeps ?_ | refine State.unpinUnit_keeps ?_ | refine State.freeRun_keeps ?_
    | refine State.uncharge_keeps ?_ | refine State.deadLetter_keeps ?_ | refine foldl_keeps ?_ (fun _ _ _ => ?_)
    | dsimp only | refine Keeps.ite ?_ ?_
    | fail_if_no_progress (refine Keeps.unfold ?_; dsimp only; refine Keeps.fold ?_) | split

theorem State.dieItem_keeps {s0 s : State} {a1 : ℕ} (k : Keeps s0 s) :
    Keeps s0 (State.dieItem s a1) := by
  unfold State.dieItem
  with_reducible repeat' first
    | assumption | refine State.stopDesc_keeps ?_ | refine State.endRegrow_keeps ?_ | refine State.stopItem_keeps ?_
    | refine State.granAbandon_keeps ?_ | refine State.putOver_keeps ?_ | refine Keeps.ite ?_ ?_ | split

theorem State.postLost_keeps {s0 s : State} {a1 : ℕ} (k : Keeps s0 s) :
    Keeps s0 (State.postLost s a1) := by
  unfold State.postLost
  with_reducible repeat' first
    | assumption | refine State.tierPortDown_keeps ?_ | refine State.wr_keeps ?_ | refine State.hostLinkDown_keeps ?_
    | refine State.ethDown_keeps ?_ | refine foldl_keeps ?_ (fun _ _ _ => ?_) | dsimp only | refine Keeps.ite ?_ ?_
    | fail_if_no_progress (refine Keeps.unfold ?_; dsimp only; refine Keeps.fold ?_)

theorem execPostLinkFailure_keeps {s0 s : State} {a0 : BitVec 2} (k : Keeps s0 s) :
    nextKeeps s0 (execPostLinkFailure a0 s) := by
  unfold execPostLinkFailure
  with_reducible repeat' first
    | assumption | refine State.deviceCause_keeps ?_ | refine State.flow_keeps ?_ | refine State.postLost_keeps ?_
    | refine nextKeeps.next ?_ | refine Keeps.ite ?_ ?_

theorem State.poisonFound_keeps {s0 s : State} {a1 : ℕ} {a2 : ℕ} (k : Keeps s0 s) :
    Keeps s0 (State.poisonFound s a1 a2) := by
  unfold State.poisonFound
  with_reducible repeat' first
    | assumption | refine State.granAbandon_keeps ?_ | refine State.stopItem_keeps ?_ | refine State.heal_keeps ?_
    | refine State.fatal_keeps ?_ | refine State.deadLetter_keeps ?_ | refine State.retirePage_keeps ?_ | dsimp only
    | refine Keeps.ite ?_ ?_ | split

theorem State.moveItem_keeps {s0 s : State} {a1 : ℕ} {a2 : ℕ} (k : Keeps s0 s) :
    Keeps s0 (State.moveItem s a1 a2) := by
  unfold State.moveItem
  with_reducible repeat' first
    | assumption | refine State.offChannel_keeps ?_ | refine State.placeItem_keeps ?_ | refine State.putItem_keeps ?_
    | split

theorem execZeroRange_keeps {s0 s : State} {a0 : BitVec 6} (k : Keeps s0 s) :
    nextKeeps s0 (execZeroRange a0 s) := by
  unfold execZeroRange
  with_reducible repeat' first
    | assumption | refine State.retireIn_keeps ?_ | refine State.zeroRun_keeps ?_ | refine State.flow_keeps ?_
    | refine State.sendEth_keeps ?_ | refine State.sendRequest_keeps ?_ | refine nextKeeps.next ?_ | dsimp only
    | refine Keeps.ite ?_ ?_ | fail_if_no_progress (refine Keeps.unfold ?_; dsimp only; refine Keeps.fold ?_) | split

theorem execHeathMediaEvent_keeps {s0 s : State} {a0 : BitVec 48} (k : Keeps s0 s) :
    nextKeeps s0 (execHeathMediaEvent a0 s) := by
  unfold execHeathMediaEvent
  with_reducible repeat' first
    | assumption | refine State.flow_keeps ?_ | refine State.poisonFound_keeps ?_ | refine State.setPoison_keeps ?_
    | refine nextKeeps.next ?_ | refine Keeps.ite ?_ ?_

theorem State.scrubUe_keeps {s0 s : State} {a1 : ℕ} {a2 : RsvUse} (k : Keeps s0 s) :
    Keeps s0 (State.scrubUe s a1 a2) := by
  unfold State.scrubUe
  with_reducible repeat' first
    | assumption | refine State.setPoison_keeps ?_ | refine State.countUe_keeps ?_ | refine State.countCe_keeps ?_
    | refine State.setCached_keeps ?_ | refine State.poisonFound_keeps ?_ | refine State.deviceCause_keeps ?_
    | refine State.fatal_keeps ?_ | dsimp only | refine Keeps.ite ?_ ?_ | split

theorem execScrubRead_keeps {s0 s : State} {a0 : BitVec 41} {a1 : ScrubFind} {a2 : Bool} {a3 : Bool} (k : Keeps s0 s) :
    nextKeeps s0 (execScrubRead a0 a1 a2 a3 s) := by
  unfold execScrubRead
  with_reducible repeat' first
    | assumption | refine State.noteFixed_keeps ?_ | refine State.countCe_keeps ?_ | refine State.scrubUe_keeps ?_
    | refine State.flag_keeps ?_ | refine State.flow_keeps ?_ | refine State.bump_keeps ?_ | refine nextKeeps.next ?_
    | dsimp only | refine Keeps.ite ?_ ?_
    | fail_if_no_progress (refine Keeps.unfold ?_; dsimp only; refine Keeps.fold ?_) | split

theorem State.dieWork_keeps {s0 s : State} {a1 : ℕ} (k : Keeps s0 s) :
    Keeps s0 (State.dieWork s a1) := by
  unfold State.dieWork
  with_reducible repeat' first
    | assumption | refine State.dieItem_keeps ?_ | refine State.stopDesc_keeps ?_ | refine State.moveItem_keeps ?_
    | refine foldl_keeps ?_ (fun _ _ _ => ?_) | split

theorem State.fence_keeps {s0 s : State} {a1 : ℕ} {a2 : ℕ} (k : Keeps s0 s) :
    Keeps s0 (State.fence s a1 a2) := by
  unfold State.fence
  with_reducible repeat' first
    | assumption | refine State.setDieCause_keeps ?_ | refine State.flag_keeps ?_ | refine State.emit_keeps ?_
    | refine State.deviceCause_keeps ?_ | refine State.dieWork_keeps ?_ | refine State.dieOff_keeps ?_
    | refine State.fatal_keeps ?_ | refine State.flow_keeps ?_ | refine State.capacityCheck_keeps ?_
    | refine State.postLost_keeps ?_ | refine State.dieTiles_keeps ?_ | refine foldl_keeps ?_ (fun _ _ _ => ?_)
    | dsimp only | refine Keeps.ite ?_ ?_

theorem execHbmStackFailure_keeps {s0 s : State} {a0 : BitVec 3} (k : Keeps s0 s) :
    nextKeeps s0 (execHbmStackFailure a0 s) := by
  unfold execHbmStackFailure
  with_reducible repeat' first
    | assumption | refine State.fence_keeps ?_ | refine nextKeeps.next ?_ | refine Keeps.ite ?_ ?_

theorem execMeshLinkFailure_keeps {s0 s : State} {a0 : BitVec 2} {a1 : BitVec 2} (k : Keeps s0 s) :
    nextKeeps s0 (execMeshLinkFailure a0 a1 s) := by
  unfold execMeshLinkFailure
  with_reducible repeat' first
    | assumption | refine State.fence_keeps ?_ | refine nextKeeps.next ?_ | refine Keeps.ite ?_ ?_

theorem execLlcScrub_keeps {s0 s : State} {a0 : BitVec 2} {a1 : BitVec 15} {a2 : BitVec 4} {a3 : ArrayFind} (k : Keeps s0 s) :
    nextKeeps s0 (execLlcScrub a0 a1 a2 a3 s) := by
  unfold execLlcScrub
  with_reducible repeat' first
    | assumption | refine State.flow_keeps ?_ | refine State.sat_keeps ?_ | refine State.flag_keeps ?_
    | refine State.setCached_keeps ?_ | refine State.deadLetter_keeps ?_ | refine State.wr_keeps ?_
    | refine State.fence_keeps ?_ | refine State.fatal_keeps ?_ | refine nextKeeps.next ?_ | dsimp only
    | refine Keeps.ite ?_ ?_ | fail_if_no_progress (refine Keeps.unfold ?_; dsimp only; refine Keeps.fold ?_) | split

theorem execDieParityError_keeps {s0 s : State} {a0 : BitVec 2} (k : Keeps s0 s) :
    nextKeeps s0 (execDieParityError a0 s) := by
  unfold execDieParityError
  with_reducible repeat' first
    | assumption | refine State.fence_keeps ?_ | refine nextKeeps.next ?_ | refine Keeps.ite ?_ ?_

/-! ### Leases -/

theorem State.freshConn_keeps {s0 s : State} {a1 : ℕ} {a2 : ℕ} (k : Keeps s0 s) :
    Keeps s0 (State.freshConn s a1 a2) := by
  unfold State.freshConn
  with_reducible repeat' first
    | assumption | refine State.wr_keeps ?_

theorem State.leaseRegs_keeps {s0 s : State} {a1 : ℕ} {a2 : ℕ} (k : Keeps s0 s) :
    Keeps s0 (State.leaseRegs s a1 a2) := by
  unfold State.leaseRegs
  with_reducible repeat' first
    | assumption | refine State.partReg_keeps ?_ | refine foldl_keeps ?_ (fun _ _ _ => ?_)

theorem State.showRanks_keeps {s0 s : State}  (k : Keeps s0 s) :
    Keeps s0 (State.showRanks s) := by
  unfold State.showRanks
  with_reducible repeat' first
    | assumption | refine State.wr_keeps ?_ | refine foldl_keeps ?_ (fun _ _ _ => ?_)

theorem State.leaseEnd_keeps {s0 s : State} {a1 : ℕ} (k : Keeps s0 s) :
    Keeps s0 (State.leaseEnd s a1) := by
  unfold State.leaseEnd
  with_reducible repeat' first
    | assumption | refine State.wr_keeps ?_ | refine State.flag_keeps ?_

theorem State.moveCores_keeps {s0 s : State} {a1 : ℕ} {a2 : Option ℕ} (k : Keeps s0 s) :
    Keeps s0 (State.moveCores s a1 a2) := by
  unfold State.moveCores
  with_reducible repeat' first
    | assumption | refine State.showRanks_keeps ?_ | refine State.zeroScratch_keeps ?_
    | refine State.clearCore_keeps ?_ | refine State.setCoreState_keeps ?_ | refine State.wr_keeps ?_
    | refine foldl_keeps ?_ (fun _ _ _ => ?_) | dsimp only | refine Keeps.ite ?_ ?_ | split

theorem State.giveLease_keeps {s0 s : State} {a1 : ℕ} {a2 : ℕ} {a3 : ℕ} (k : Keeps s0 s) :
    Keeps s0 (State.giveLease s a1 a2 a3) := by
  unfold State.giveLease
  with_reducible repeat' first
    | assumption | refine State.grantLease_keeps ?_ | refine State.leaseRegs_keeps ?_
    | refine State.freshConn_keeps ?_ | dsimp only
    | fail_if_no_progress (refine Keeps.unfold ?_; dsimp only; refine Keeps.fold ?_) | split

theorem State.rangeFinish_keeps {s0 s : State} {a1 : ℕ} (k : Keeps s0 s) :
    Keeps s0 (State.rangeFinish s a1) := by
  unfold State.rangeFinish
  with_reducible repeat' first
    | assumption | refine State.giveLease_keeps ?_ | refine State.setReg_keeps ?_
    | refine foldl_keeps ?_ (fun _ _ _ => ?_) | dsimp only | refine Keeps.ite ?_ ?_
    | fail_if_no_progress (refine Keeps.unfold ?_; dsimp only; refine Keeps.fold ?_) | split

theorem State.revoked_keeps {s0 s : State} {a1 : ℕ} {a2 : ℕ} (k : Keeps s0 s) :
    Keeps s0 (State.revoked s a1 a2) := by
  unfold State.revoked
  with_reducible repeat' first
    | assumption | refine State.revokeSo_keeps ?_ | refine State.giveLease_keeps ?_ | refine State.setLease_keeps ?_
    | refine State.leaseRegs_keeps ?_ | refine State.wr_keeps ?_ | refine State.rangeFinish_keeps ?_ | dsimp only
    | refine Keeps.ite ?_ ?_

theorem State.revoke_keeps {s0 s : State} {a1 : ℕ} {a2 : ℕ} (k : Keeps s0 s) :
    Keeps s0 (State.revoke s a1 a2) := by
  unfold State.revoke
  with_reducible repeat' first
    | assumption | refine State.revokeCtx_keeps ?_ | refine State.setLease_keeps ?_
    | refine State.revokeChannel_keeps ?_ | refine State.revokeRing_keeps ?_ | refine State.drainRecs_keeps ?_
    | refine State.revokeSo_keeps ?_ | refine State.connLost_keeps ?_ | refine State.teardown_keeps ?_
    | refine State.sendClose_keeps ?_ | refine State.flag_keeps ?_ | refine State.clearPins_keeps ?_
    | refine foldl_keeps ?_ (fun _ _ _ => ?_) | dsimp only | refine Keeps.ite ?_ ?_ | split

theorem State.partReset_keeps {s0 s : State} {a1 : ℕ} (k : Keeps s0 s) :
    Keeps s0 (State.partReset s a1) := by
  unfold State.partReset
  with_reducible repeat' first
    | assumption | refine State.flow_keeps ?_ | refine State.startReset_keeps ?_ | refine Keeps.ite ?_ ?_

theorem State.leaseGo_keeps {s0 s : State}  (k : Keeps s0 s) :
    Keeps s0 (State.leaseGo s) := by
  unfold State.leaseGo
  with_reducible repeat' first
    | assumption | refine State.flag_keeps ?_ | refine State.wr_keeps ?_ | refine State.leaseEnd_keeps ?_
    | refine State.giveLease_keeps ?_ | refine State.flow_keeps ?_ | refine State.revoke_keeps ?_
    | refine State.moveCores_keeps ?_ | dsimp only | refine Keeps.ite ?_ ?_ | split

theorem execPartReset_keeps {s0 s : State} {a0 : BitVec 5} (k : Keeps s0 s) :
    nextKeeps s0 (execPartReset a0 s) := by
  unfold execPartReset
  with_reducible repeat' first
    | assumption | refine State.partReset_keeps ?_ | refine nextKeeps.next ?_ | refine Keeps.ite ?_ ?_

theorem execContextReclaim_keeps {s0 s : State} {a0 : Bool} {a1 : BitVec 7} (k : Keeps s0 s) :
    nextKeeps s0 (execContextReclaim a0 a1 s) := by
  unfold execContextReclaim
  with_reducible repeat' first
    | assumption | refine State.flow_keeps ?_ | refine State.flag_keeps ?_ | refine State.revokeCtx_keeps ?_
    | refine nextKeeps.next ?_ | refine Keeps.ite ?_ ?_

theorem State.resetDone_keeps {s0 s : State} {a1 : ℕ} (k : Keeps s0 s) :
    Keeps s0 (State.resetDone s a1) := by
  unfold State.resetDone
  with_reducible repeat' first
    | assumption | refine State.flow_keeps ?_ | refine State.wr_keeps ?_ | refine State.endReset_keeps ?_
    | refine Keeps.ite ?_ ?_

theorem State.rangeWrite_keeps {s0 s : State} {a1 : ℕ} {a2 : ℕ} {a3 : ℕ} (k : Keeps s0 s) :
    Keeps s0 (State.rangeWrite s a1 a2 a3) := by
  unfold State.rangeWrite
  with_reducible repeat' first
    | assumption | refine State.flag_keeps ?_ | refine State.wr_keeps ?_ | refine State.revoke_keeps ?_
    | refine State.flow_keeps ?_ | refine State.rangeFinish_keeps ?_ | refine foldl_keeps ?_ (fun _ _ _ => ?_)
    | dsimp only | refine Keeps.ite ?_ ?_
    | fail_if_no_progress (refine Keeps.unfold ?_; dsimp only; refine Keeps.fold ?_)

theorem State.revocationDone_keeps {s0 s : State} {a1 : ℕ} {a2 : ℕ} {a3 : ℕ} (k : Keeps s0 s) :
    Keeps s0 (State.revocationDone s a1 a2 a3) := by
  unfold State.revocationDone
  with_reducible repeat' first
    | assumption | refine State.revoked_keeps ?_ | refine State.flow_keeps ?_ | refine State.leaseEnd_keeps ?_
    | dsimp only | refine Keeps.ite ?_ ?_

theorem execRevocationComplete_keeps {s0 s : State} {a0 : BitVec 4} {a1 : BitVec 12} (k : Keeps s0 s) :
    nextKeeps s0 (execRevocationComplete a0 a1 s) := by
  unfold execRevocationComplete
  with_reducible repeat' first
    | assumption | refine State.revocationDone_keeps ?_ | refine nextKeeps.next ?_ | refine Keeps.ite ?_ ?_

theorem State.leaseCommand_keeps {s0 s : State} {a1 : ℕ} {a2 : Word} {a3 : Word} (k : Keeps s0 s) :
    Keeps s0 (State.leaseCommand s a1 a2 a3) := by
  unfold State.leaseCommand
  with_reducible repeat' first
    | assumption | refine State.leaseGo_keeps ?_ | refine State.setReg_keeps ?_ | dsimp only | refine Keeps.ite ?_ ?_

theorem execRevoke_keeps {s0 s : State} {a0 : Word} (k : Keeps s0 s) :
    nextKeeps s0 (execRevoke a0 s) := by
  unfold execRevoke
  with_reducible repeat' first
    | assumption | refine State.leaseCommand_keeps ?_ | refine nextKeeps.next ?_

theorem execUnassignCores_keeps {s0 s : State} {a0 : Word} {a1 : Word} (k : Keeps s0 s) :
    nextKeeps s0 (execUnassignCores a0 a1 s) := by
  unfold execUnassignCores
  with_reducible repeat' first
    | assumption | refine State.leaseCommand_keeps ?_ | refine nextKeeps.next ?_

theorem execSoRangeWrite_keeps {s0 s : State} {a0 : BitVec 5} {a1 : BitVec 12} {a2 : BitVec 13} (k : Keeps s0 s) :
    nextKeeps s0 (execSoRangeWrite a0 a1 a2 s) := by
  unfold execSoRangeWrite
  with_reducible repeat' first
    | assumption | refine State.rangeWrite_keeps ?_ | refine nextKeeps.next ?_

theorem execQuery_keeps {s0 s : State} {a0 : Word} (k : Keeps s0 s) :
    nextKeeps s0 (execQuery a0 s) := by
  unfold execQuery
  with_reducible repeat' first
    | assumption | refine State.leaseCommand_keeps ?_ | refine nextKeeps.next ?_

theorem execPartResetComplete_keeps {s0 s : State} {a0 : BitVec 5} (k : Keeps s0 s) :
    nextKeeps s0 (execPartResetComplete a0 s) := by
  unfold execPartResetComplete
  with_reducible repeat' first
    | assumption | refine State.resetDone_keeps ?_ | refine nextKeeps.next ?_ | refine Keeps.ite ?_ ?_

theorem execCrrConnRangeWrite_keeps {s0 s : State} {a0 : BitVec 5} {a1 : BitVec 12} {a2 : BitVec 13} (k : Keeps s0 s) :
    nextKeeps s0 (execCrrConnRangeWrite a0 a1 a2 s) := by
  unfold execCrrConnRangeWrite
  with_reducible repeat' first
    | assumption | refine State.rangeWrite_keeps ?_ | refine nextKeeps.next ?_

theorem execAssignCores_keeps {s0 s : State} {a0 : Word} {a1 : Word} (k : Keeps s0 s) :
    nextKeeps s0 (execAssignCores a0 a1 s) := by
  unfold execAssignCores
  with_reducible repeat' first
    | assumption | refine State.leaseCommand_keeps ?_ | refine nextKeeps.next ?_

theorem execGrant_keeps {s0 s : State} {a0 : Word} (k : Keeps s0 s) :
    nextKeeps s0 (execGrant a0 s) := by
  unfold execGrant
  with_reducible repeat' first
    | assumption | refine State.leaseCommand_keeps ?_ | refine nextKeeps.next ?_

theorem execQuiescenceTimeout_keeps {s0 s : State} {a0 : BitVec 2} {a1 : Option (BitVec 4 × BitVec 12)} {a2 : BitVec 5} (k : Keeps s0 s) :
    nextKeeps s0 (execQuiescenceTimeout a0 a1 a2 s) := by
  unfold execQuiescenceTimeout
  with_reducible repeat' first
    | assumption | refine State.fence_keeps ?_ | refine State.revocationDone_keeps ?_
    | refine State.resetDone_keeps ?_ | refine nextKeeps.next ?_ | dsimp only | refine Keeps.ite ?_ ?_ | split

end Sys2Proof.Machine
end

