-- ==== Sys2Proof/Laws/KeepsCrr.lean ====
section
/-! SUPPORT. What the walk, link-rate, packet, Ethernet and cache commands keep: memory in its
canonical form, the TALLY unit sound, the variant and the queue of commands (`Keeps`).
One lemma an operation, cited by its callers, so no proof unfolds an operation twice. -/

namespace Sys2Proof.Machine

open Ulital

/-! ### WalkCmd -/

theorem execAging_keeps {s0 s : State} {a0 : ℕ} (k : Keeps s0 s) :
    nextKeeps s0 (execAging a0 s) := by
  unfold execAging
  with_reducible repeat' first
    | assumption | refine State.putItem_keeps ?_ | refine nextKeeps.next ?_ | refine Keeps.ite ?_ ?_ | split

theorem execWalkStart_keeps {s0 s : State} {a0 : BitVec 6} (k : Keeps s0 s) :
    nextKeeps s0 (execWalkStart a0 s) := by
  unfold execWalkStart
  with_reducible repeat' first
    | assumption | refine State.bump_keeps ?_ | refine State.flag_keeps ?_ | refine State.walkAdvance_keeps ?_
    | refine State.wr_keeps ?_ | refine nextKeeps.next ?_ | dsimp only | refine Keeps.ite ?_ ?_ | split

theorem State.trackerOff_keeps {s0 s : State} {a1 : ℕ} (k : Keeps s0 s) :
    Keeps s0 (State.trackerOff s a1) := by
  unfold State.trackerOff
  with_reducible repeat' first
    | assumption | refine State.wr_keeps ?_ | refine State.flag_keeps ?_ | refine State.stopWalk_keeps ?_
    | refine foldl_keeps ?_ (fun _ _ _ => ?_) | dsimp only | refine Keeps.ite ?_ ?_ | split

theorem State.progCfg_keeps {s0 s : State} {a1 : ℕ} {a2 : Word} (k : Keeps s0 s) :
    Keeps s0 (State.progCfg s a1 a2) := by
  unfold State.progCfg
  with_reducible repeat' first
    | assumption | refine State.wr_keeps ?_ | refine State.trackerOff_keeps ?_ | refine State.flag_keeps ?_
    | dsimp only | refine Keeps.ite ?_ ?_

theorem State.walkCfg_keeps {s0 s : State} {a1 : ℕ} {a2 : Word} (k : Keeps s0 s) :
    Keeps s0 (State.walkCfg s a1 a2) := by
  unfold State.walkCfg
  with_reducible repeat' first
    | assumption | refine State.wr_keeps ?_ | refine State.stopWalk_keeps ?_ | refine State.flag_keeps ?_
    | dsimp only | refine Keeps.ite ?_ ?_

theorem execWalkerEnable_keeps {s0 s : State} {a0 : BitVec 6} {a1 : Word} {a2 : Word} (k : Keeps s0 s) :
    nextKeeps s0 (execWalkerEnable a0 a1 a2 s) := by
  unfold execWalkerEnable
  with_reducible repeat' first
    | assumption | refine State.setReg_keeps ?_ | refine State.walkCfg_keeps ?_ | refine nextKeeps.next ?_
    | dsimp only | refine Keeps.ite ?_ ?_

theorem State.watchCfg_keeps {s0 s : State} {a1 : ℕ} {a2 : Word} (k : Keeps s0 s) :
    Keeps s0 (State.watchCfg s a1 a2) := by
  unfold State.watchCfg
  with_reducible repeat' first
    | assumption | refine State.wr_keeps ?_ | refine State.flag_keeps ?_ | refine State.fireWatch_keeps ?_
    | dsimp only | refine Keeps.ite ?_ ?_

theorem execWalkerDisable_keeps {s0 s : State} {a0 : BitVec 6} {a1 : Word} (k : Keeps s0 s) :
    nextKeeps s0 (execWalkerDisable a0 a1 s) := by
  unfold execWalkerDisable
  with_reducible repeat' first
    | assumption | refine State.walkCfg_keeps ?_ | refine nextKeeps.next ?_ | refine Keeps.ite ?_ ?_

theorem execTrackerDisable_keeps {s0 s : State} {a0 : BitVec 7} {a1 : Word} (k : Keeps s0 s) :
    nextKeeps s0 (execTrackerDisable a0 a1 s) := by
  unfold execTrackerDisable
  with_reducible repeat' first
    | assumption | refine State.progCfg_keeps ?_ | refine nextKeeps.next ?_ | refine Keeps.ite ?_ ?_

theorem execTrackerEnable_keeps {s0 s : State} {a0 : BitVec 7} {a1 : Word} (k : Keeps s0 s) :
    nextKeeps s0 (execTrackerEnable a0 a1 s) := by
  unfold execTrackerEnable
  with_reducible repeat' first
    | assumption | refine State.progCfg_keeps ?_ | refine nextKeeps.next ?_ | refine Keeps.ite ?_ ?_

theorem execWatchArm_keeps {s0 s : State} {a0 : BitVec 9} {a1 : Word} (k : Keeps s0 s) :
    nextKeeps s0 (execWatchArm a0 a1 s) := by
  unfold execWatchArm
  with_reducible repeat' first
    | assumption | refine State.watchCfg_keeps ?_ | refine nextKeeps.next ?_ | refine Keeps.ite ?_ ?_

theorem execWalkerGroupIssue_keeps {s0 s : State} {a0 : BitVec 6} (k : Keeps s0 s) :
    nextKeeps s0 (execWalkerGroupIssue a0 s) := by
  unfold execWalkerGroupIssue
  with_reducible repeat' first
    | assumption | refine State.flag_keeps ?_ | refine State.classOf_keeps ?_ | refine State.addItem_keeps ?_
    | refine State.flow_keeps ?_ | refine State.front_keeps ?_ | refine nextKeeps.next ?_
    | refine foldl_keeps ?_ (fun _ _ _ => ?_) | refine foldl_keeps_snd ?_ (fun _ _ _ => ?_) | dsimp only
    | refine Keeps.ite ?_ ?_ | refine nextKeeps.ite ?_ ?_
    | fail_if_no_progress (refine Keeps.unfold ?_; dsimp only; refine Keeps.fold ?_) | split

/-! ### Cfgs -/

theorem State.cfgsDone_keeps {s0 s : State} {a1 : ℕ} (k : Keeps s0 s) :
    Keeps s0 (State.cfgsDone s a1) := by
  unfold State.cfgsDone
  with_reducible repeat' first
    | assumption | refine State.wr_keeps ?_ | refine State.flag_keeps ?_

theorem State.cfgsFlash_keeps {s0 s : State} {a1 : FlashEnd} (k : Keeps s0 s) :
    Keeps s0 (State.cfgsFlash s a1) := by
  unfold State.cfgsFlash
  with_reducible repeat' first
    | assumption | refine State.cfgsDone_keeps ?_ | dsimp only | refine Keeps.ite ?_ ?_
    | fail_if_no_progress (refine Keeps.unfold ?_; dsimp only; refine Keeps.fold ?_) | split

theorem State.cfgsGo_keeps {s0 s : State}  (k : Keeps s0 s) :
    Keeps s0 (State.cfgsGo s) := by
  unfold State.cfgsGo
  with_reducible repeat' first
    | assumption | refine State.flag_keeps ?_ | refine State.cfgsDone_keeps ?_ | refine State.wr_keeps ?_
    | refine State.vwrite_keeps ?_ | dsimp only | refine Keeps.ite ?_ ?_
    | fail_if_no_progress (refine Keeps.unfold ?_; dsimp only; refine Keeps.fold ?_) | split

theorem State.cfgsCommand_keeps {s0 s : State} {a1 : ℕ} {a2 : Word} {a3 : BitVec 32} (k : Keeps s0 s) :
    Keeps s0 (State.cfgsCommand s a1 a2 a3) := by
  unfold State.cfgsCommand
  with_reducible repeat' first
    | assumption | refine State.cfgsGo_keeps ?_ | refine State.wr_keeps ?_ | refine State.setReg_keeps ?_
    | refine Keeps.ite ?_ ?_

theorem execCfgsRead_keeps {s0 s : State} {a0 : Word} {a1 : BitVec 32} (k : Keeps s0 s) :
    nextKeeps s0 (execCfgsRead a0 a1 s) := by
  unfold execCfgsRead
  with_reducible repeat' first
    | assumption | refine State.cfgsCommand_keeps ?_ | refine nextKeeps.next ?_ | refine Keeps.ite ?_ ?_

theorem execCfgsWrite_keeps {s0 s : State} {a0 : Option (Word × BitVec 32)} {a1 : Option FlashEnd} (k : Keeps s0 s) :
    nextKeeps s0 (execCfgsWrite a0 a1 s) := by
  unfold execCfgsWrite
  with_reducible repeat' first
    | assumption | refine State.cfgsCommand_keeps ?_ | refine State.cfgsFlash_keeps ?_ | refine nextKeeps.next ?_
    | dsimp only | refine Keeps.ite ?_ ?_ | split

theorem execCfgsClear_keeps {s0 s : State} {a0 : Bool} {a1 : Option FlashEnd} (k : Keeps s0 s) :
    nextKeeps s0 (execCfgsClear a0 a1 s) := by
  unfold execCfgsClear
  with_reducible repeat' first
    | assumption | refine State.cfgsCommand_keeps ?_ | refine State.cfgsFlash_keeps ?_ | refine nextKeeps.next ?_
    | dsimp only | refine Keeps.ite ?_ ?_ | split

/-! ### CrrRx -/

theorem State.halveFlow_keeps {s0 s : State} {a1 : ℕ} {a2 : ℕ} (k : Keeps s0 s) :
    Keeps s0 (State.halveFlow s a1 a2) := by
  unfold State.halveFlow
  with_reducible repeat' first
    | assumption | dsimp only | fail_if_no_progress (refine Keeps.unfold ?_; dsimp only; refine Keeps.fold ?_)

theorem State.gotSack_keeps {s0 s : State} {a1 : ℕ} {a2 : Packet} (k : Keeps s0 s) :
    Keeps s0 (State.gotSack s a1 a2) := by
  unfold State.gotSack
  with_reducible repeat' first
    | assumption | refine State.setConn_keeps ?_

theorem State.sendSack_keeps {s0 s : State} {a1 : ℕ} (k : Keeps s0 s) :
    Keeps s0 (State.sendSack s a1) := by
  unfold State.sendSack
  with_reducible repeat' first
    | assumption | refine State.sendPacket_keeps ?_

theorem State.dropCheck_keeps {s0 s : State} {a1 : ℕ} (k : Keeps s0 s) :
    Keeps s0 (State.dropCheck s a1) := by
  unfold State.dropCheck
  with_reducible repeat' first
    | assumption | refine State.sat_keeps ?_

theorem State.tryClose_keeps {s0 s : State} {a1 : ℕ} (k : Keeps s0 s) :
    Keeps s0 (State.tryClose s a1) := by
  unfold State.tryClose
  with_reducible repeat' first
    | assumption | refine State.sendClose_keeps ?_ | dsimp only | refine Keeps.ite ?_ ?_

theorem State.gotAck_keeps {s0 s : State} {a1 : ℕ} {a2 : ℕ} (k : Keeps s0 s) :
    Keeps s0 (State.gotAck s a1 a2) := by
  unfold State.gotAck
  with_reducible repeat' first
    | assumption | refine State.setConn_keeps ?_ | refine State.tryClose_keeps ?_ | refine State.transmit_keeps ?_
    | refine State.wr_keeps ?_ | dsimp only | refine Keeps.ite ?_ ?_

theorem State.takeData_keeps {s0 s : State} {a1 : ℕ} {a2 : Packet} (k : Keeps s0 s) :
    Keeps s0 (State.takeData s a1 a2) := by
  unfold State.takeData
  with_reducible repeat' first
    | assumption | refine State.setConn_keeps ?_ | refine State.sendResp_keeps ?_ | dsimp only
    | refine Keeps.ite ?_ ?_

theorem State.drainReorder_keeps {s0 s : State} {a0 : ℕ} {a2 : ℕ} (k : Keeps s0 s) :
    Keeps s0 (State.drainReorder a0 s a2) := by
  induction a0 generalizing s a2 with
  | zero =>
    unfold State.drainReorder
    with_reducible repeat' first
      | assumption
  | succ n ih =>
    unfold State.drainReorder
    with_reducible repeat' first
      | refine ih ?_
      | assumption | refine State.takeData_keeps ?_ | refine State.setConn_keeps ?_ | dsimp only | split

theorem State.gotData_keeps {s0 s : State} {a1 : ℕ} {a2 : Packet} (k : Keeps s0 s) :
    Keeps s0 (State.gotData s a1 a2) := by
  unfold State.gotData
  with_reducible repeat' first
    | assumption | refine State.drainReorder_keeps ?_ | refine State.takeData_keeps ?_
    | refine State.sendAck_keeps ?_ | refine State.sendSack_keeps ?_ | refine State.setConn_keeps ?_
    | refine State.sat_keeps ?_ | dsimp only | refine Keeps.ite ?_ ?_

theorem State.gotClose_keeps {s0 s : State} {a1 : ℕ} (k : Keeps s0 s) :
    Keeps s0 (State.gotClose s a1) := by
  unfold State.gotClose
  with_reducible repeat' first
    | assumption | refine State.connLost_keeps ?_ | refine State.teardown_keeps ?_ | refine State.sendRaw_keeps ?_

theorem State.entersOpen_keeps {s0 s : State} {a1 : ℕ} {a2 : Packet} (k : Keeps s0 s) :
    Keeps s0 (State.entersOpen s a1 a2) := by
  unfold State.entersOpen
  with_reducible repeat' first
    | assumption | refine State.setConn_keeps ?_ | refine State.targetsUp_keeps ?_ | refine State.wr_keeps ?_

theorem State.gotOpenAck_keeps {s0 s : State} {a1 : ℕ} {a2 : Packet} (k : Keeps s0 s) :
    Keeps s0 (State.gotOpenAck s a1 a2) := by
  unfold State.gotOpenAck
  with_reducible repeat' first
    | assumption | refine State.entersOpen_keeps ?_ | refine State.setConn_keeps ?_ | refine State.crrDone_keeps ?_
    | dsimp only | refine Keeps.ite ?_ ?_ | split

theorem State.gotOpen_keeps {s0 s : State} {a1 : ℕ} {a2 : Packet} (k : Keeps s0 s) :
    Keeps s0 (State.gotOpen s a1 a2) := by
  unfold State.gotOpen
  with_reducible repeat' first
    | assumption | refine State.entersOpen_keeps ?_ | refine State.wr_keeps ?_ | refine State.sendRaw_keeps ?_
    | dsimp only | refine Keeps.ite ?_ ?_

theorem State.gotPacket_keeps {s0 s : State} {a1 : ℕ} {a2 : Packet} {a3 : Bool} (k : Keeps s0 s) :
    Keeps s0 (State.gotPacket s a1 a2 a3) := by
  unfold State.gotPacket
  with_reducible repeat' first
    | assumption | refine State.setConn_keeps ?_ | refine State.halveFlow_keeps ?_ | refine State.gotAck_keeps ?_
    | refine State.gotData_keeps ?_ | refine State.gotSack_keeps ?_ | refine State.gotOpen_keeps ?_
    | refine State.gotOpenAck_keeps ?_ | refine State.gotClose_keeps ?_ | refine State.connLost_keeps ?_
    | refine State.teardown_keeps ?_ | dsimp only | refine Keeps.ite ?_ ?_ | split

theorem State.receive_keeps {s0 s : State} {a1 : ℕ} {a2 : RxFrame} (k : Keeps s0 s) :
    Keeps s0 (State.receive s a1 a2) := by
  unfold State.receive
  with_reducible repeat' first
    | assumption | refine State.sat_keeps ?_ | refine State.dropCheck_keeps ?_ | refine State.flow_keeps ?_
    | refine State.gotPacket_keeps ?_ | dsimp only | refine Keeps.ite ?_ ?_ | split

theorem execOpenReceived_keeps {s0 s : State} {a0 : BitVec 3} {a1 : RxFrame} (k : Keeps s0 s) :
    nextKeeps s0 (execOpenReceived a0 a1 s) := by
  unfold execOpenReceived
  with_reducible repeat' first
    | assumption | refine State.receive_keeps ?_ | refine nextKeeps.next ?_ | refine Keeps.ite ?_ ?_

theorem execSackReceived_keeps {s0 s : State} {a0 : BitVec 3} {a1 : RxFrame} (k : Keeps s0 s) :
    nextKeeps s0 (execSackReceived a0 a1 s) := by
  unfold execSackReceived
  with_reducible repeat' first
    | assumption | refine State.receive_keeps ?_ | refine nextKeeps.next ?_ | refine Keeps.ite ?_ ?_

theorem execCloseReceived_keeps {s0 s : State} {a0 : BitVec 3} {a1 : RxFrame} (k : Keeps s0 s) :
    nextKeeps s0 (execCloseReceived a0 a1 s) := by
  unfold execCloseReceived
  with_reducible repeat' first
    | assumption | refine State.receive_keeps ?_ | refine nextKeeps.next ?_ | refine Keeps.ite ?_ ?_

theorem execOpenAckReceived_keeps {s0 s : State} {a0 : BitVec 3} {a1 : RxFrame} (k : Keeps s0 s) :
    nextKeeps s0 (execOpenAckReceived a0 a1 s) := by
  unfold execOpenAckReceived
  with_reducible repeat' first
    | assumption | refine State.receive_keeps ?_ | refine nextKeeps.next ?_ | refine Keeps.ite ?_ ?_

theorem execCloseAckReceived_keeps {s0 s : State} {a0 : BitVec 3} {a1 : RxFrame} (k : Keeps s0 s) :
    nextKeeps s0 (execCloseAckReceived a0 a1 s) := by
  unfold execCloseAckReceived
  with_reducible repeat' first
    | assumption | refine State.receive_keeps ?_ | refine nextKeeps.next ?_ | refine Keeps.ite ?_ ?_

theorem execDataReceived_keeps {s0 s : State} {a0 : BitVec 3} {a1 : RxFrame} (k : Keeps s0 s) :
    nextKeeps s0 (execDataReceived a0 a1 s) := by
  unfold execDataReceived
  with_reducible repeat' first
    | assumption | refine State.receive_keeps ?_ | refine nextKeeps.next ?_ | refine Keeps.ite ?_ ?_

theorem execAckReceived_keeps {s0 s : State} {a0 : BitVec 3} {a1 : RxFrame} (k : Keeps s0 s) :
    nextKeeps s0 (execAckReceived a0 a1 s) := by
  unfold execAckReceived
  with_reducible repeat' first
    | assumption | refine State.receive_keeps ?_ | refine nextKeeps.next ?_ | refine Keeps.ite ?_ ?_

/-! ### CrrCmd -/

theorem execOpenRepeat_keeps {s0 s : State} {a0 : BitVec 12} (k : Keeps s0 s) :
    nextKeeps s0 (execOpenRepeat a0 s) := by
  unfold execOpenRepeat
  with_reducible repeat' first
    | assumption | refine State.sendRaw_keeps ?_ | refine nextKeeps.next ?_ | refine Keeps.ite ?_ ?_

theorem State.takeRx_keeps {s0 s : State} {a1 : ℕ} {a2 : ℕ} {a3 : ℕ} (k : Keeps s0 s) :
    optpKeeps s0 (State.takeRx s a1 a2 a3) := by
  unfold State.takeRx
  with_reducible repeat' first
    | assumption | refine State.setConn_keeps ?_ | refine optpKeeps.some ?_ | exact optpKeeps.none | dsimp only
    | refine optpKeeps.ite ?_ ?_ | split

theorem State.crrWords_keeps {s0 s : State} {a1 : ℕ} {a2 : List Word} {a3 : ℕ} {a4 : Bool} (k : Keeps s0 s) :
    Keeps s0 (State.crrWords s a1 a2 a3 a4) := by
  unfold State.crrWords
  with_reducible repeat' first
    | assumption | refine State.wr_keeps ?_ | refine State.wrb_keeps ?_ | dsimp only | refine Keeps.ite ?_ ?_

theorem State.connConfig_keeps {s0 s : State} {a1 : ℕ} {a2 : ℕ} (k : Keeps s0 s) :
    Keeps s0 (State.connConfig s a1 a2) := by
  unfold State.connConfig
  with_reducible repeat' first
    | assumption | refine State.wr_keeps ?_ | refine State.setConn_keeps ?_

theorem execAckTimer_keeps {s0 s : State} {a0 : BitVec 12} (k : Keeps s0 s) :
    nextKeeps s0 (execAckTimer a0 s) := by
  unfold execAckTimer
  with_reducible repeat' first
    | assumption | refine State.sendAck_keeps ?_ | refine nextKeeps.next ?_ | refine Keeps.ite ?_ ?_

theorem State.tileSent_keeps {s0 s : State} {a1 : ℕ} {a2 : ℕ} {a3 : ℕ} (k : Keeps s0 s) :
    Keeps s0 (State.tileSent s a1 a2 a3) := by
  unfold State.tileSent
  with_reducible repeat' first
    | assumption | refine State.setTile_keeps ?_ | refine State.freeTile_keeps ?_

theorem execNopKeepalive_keeps {s0 s : State} {a0 : BitVec 12} (k : Keeps s0 s) :
    nextKeeps s0 (execNopKeepalive a0 s) := by
  unfold execNopKeepalive
  with_reducible repeat' first
    | assumption | refine State.sendMessage_keeps ?_ | refine State.setConn_keeps ?_ | refine nextKeeps.next ?_
    | refine Keeps.ite ?_ ?_

theorem State.serveRead_keeps {s0 s : State} {a1 : ℕ} {a2 : ℕ} {a3 : Rx} {a4 : ℕ} {a5 : ℕ} (k : Keeps s0 s) :
    Keeps s0 (State.serveRead s a1 a2 a3 a4 a5) := by
  unfold State.serveRead
  with_reducible repeat' first
    | assumption | refine State.sendResp_keeps ?_ | refine State.dtuFault_keeps ?_ | refine State.tierFail_keeps ?_
    | refine State.vread_keeps ?_ | dsimp only | refine Keeps.ite ?_ ?_ | split

theorem State.serveWrite_keeps {s0 s : State} {a1 : ℕ} {a2 : ℕ} {a3 : Rx} {a4 : ℕ} {a5 : List Byte} (k : Keeps s0 s) :
    Keeps s0 (State.serveWrite s a1 a2 a3 a4 a5) := by
  unfold State.serveWrite
  with_reducible repeat' first
    | assumption | refine State.sendResp_keeps ?_ | refine State.dtuFault_keeps ?_ | refine State.tierFail_keeps ?_
    | refine State.vwrite_keeps ?_ | refine Keeps.ite ?_ ?_ | split

theorem State.serveBlocks_keeps {s0 s : State} {a1 : ℕ} {a2 : Rx} {a3 : State → ℕ → ℕ → State} (k : Keeps s0 s) (h3 : ∀ x0 x1 x2, Keeps s0 x0 → Keeps s0 (a3 x0 x1 x2)) :
    Keeps s0 (State.serveBlocks s a1 a2 a3) := by
  unfold State.serveBlocks
  with_reducible repeat' first
    | assumption | refine State.sendResp_keeps ?_ | refine h3 _ _ _ ?_ | dsimp only | refine Keeps.ite ?_ ?_

theorem execOpenTimeout_keeps {s0 s : State} {a0 : BitVec 12} (k : Keeps s0 s) :
    nextKeeps s0 (execOpenTimeout a0 s) := by
  unfold execOpenTimeout
  with_reducible repeat' first
    | assumption | refine State.teardown_keeps ?_ | refine State.setConn_keeps ?_ | refine State.crrDone_keeps ?_
    | refine nextKeeps.next ?_ | dsimp only | refine Keeps.ite ?_ ?_ | split

theorem State.connClose_keeps {s0 s : State} {a1 : ℕ} (k : Keeps s0 s) :
    Keeps s0 (State.connClose s a1) := by
  unfold State.connClose
  with_reducible repeat' first
    | assumption | refine State.tryClose_keeps ?_ | refine State.wr_keeps ?_ | refine State.teardown_keeps ?_
    | dsimp only | refine Keeps.ite ?_ ?_

theorem State.crrGo_keeps {s0 s : State} {a1 : ℕ} (k : Keeps s0 s) :
    Keeps s0 (State.crrGo s a1) := by
  unfold State.crrGo
  with_reducible repeat' first
    | assumption | refine State.flag_keeps ?_ | refine State.crrDone_keeps ?_ | refine State.connClose_keeps ?_
    | refine State.connConfig_keeps ?_ | refine State.wr_keeps ?_ | refine State.setConn_keeps ?_
    | refine State.sendRaw_keeps ?_ | dsimp only | refine Keeps.ite ?_ ?_

theorem execConnOpenListen_keeps {s0 s : State} {a0 : BitVec 5} {a1 : List Word} (k : Keeps s0 s) :
    nextKeeps s0 (execConnOpenListen a0 a1 s) := by
  unfold execConnOpenListen
  with_reducible repeat' first
    | assumption | refine State.crrGo_keeps ?_ | refine State.crrWords_keeps ?_ | refine nextKeeps.next ?_
    | refine Keeps.ite ?_ ?_

theorem execConnOpen_keeps {s0 s : State} {a0 : BitVec 5} {a1 : List Word} (k : Keeps s0 s) :
    nextKeeps s0 (execConnOpen a0 a1 s) := by
  unfold execConnOpen
  with_reducible repeat' first
    | assumption | refine State.crrGo_keeps ?_ | refine State.crrWords_keeps ?_ | refine nextKeeps.next ?_
    | refine Keeps.ite ?_ ?_

theorem execCloseRepeat_keeps {s0 s : State} {a0 : BitVec 12} (k : Keeps s0 s) :
    nextKeeps s0 (execCloseRepeat a0 s) := by
  unfold execCloseRepeat
  with_reducible repeat' first
    | assumption | refine State.sendClose_keeps ?_ | refine State.flow_keeps ?_ | refine State.connLost_keeps ?_
    | refine State.teardown_keeps ?_ | refine nextKeeps.next ?_ | refine Keeps.ite ?_ ?_

theorem State.pathFail_keeps {s0 s : State} {a1 : ℕ} (k : Keeps s0 s) :
    Keeps s0 (State.pathFail s a1) := by
  unfold State.pathFail
  with_reducible repeat' first
    | assumption | refine State.flow_keeps ?_ | refine State.connLost_keeps ?_ | refine State.teardown_keeps ?_
    | refine State.sat_keeps ?_

theorem State.message_keeps {s0 s : State} {a1 : BitVec 12} {a2 : BitVec 32} {a3 : ℕ} {a4 : State → ℕ → ℕ → Rx → State} (k : Keeps s0 s) (h4 : ∀ x0 x1 x2 x3, Keeps s0 x0 → Keeps s0 (a4 x0 x1 x2 x3)) :
    nextKeeps s0 (State.message s a1 a2 a3 a4) := by
  unfold State.message
  with_reducible repeat' first
    | assumption | refine h4 _ _ _ _ ?_ | refine State.sendMessage_keeps ?_ | refine State.sendResp_keeps ?_
    | refine State.flow_keeps ?_ | refine State.tryClose_keeps ?_
    | refine Keeps.of_optp (by assumption) (State.takeRx_keeps ?_) | refine nextKeeps.next ?_ | dsimp only
    | refine Keeps.ite ?_ ?_ | split

theorem execHeld_keeps {s0 s : State} {a0 : BitVec 12} {a1 : BitVec 32} (k : Keeps s0 s) :
    nextKeeps s0 (execHeld a0 a1 s) := by
  unfold execHeld
  with_reducible repeat' first
    | assumption | refine State.message_keeps ?_ (fun _ _ _ _ _ => ?_) | refine State.dropReq_keeps ?_
    | refine State.endItem_keeps ?_ | refine State.tileSent_keeps ?_ | refine State.setConn_keeps ?_
    | refine State.sendMessage_keeps ?_ | dsimp only | refine Keeps.ite ?_ ?_ | split

theorem execResponseTimeout_keeps {s0 s : State} {a0 : BitVec 12} {a1 : BitVec 32} (k : Keeps s0 s) :
    nextKeeps s0 (execResponseTimeout a0 a1 s) := by
  unfold execResponseTimeout
  with_reducible repeat' first
    | assumption | refine State.pathFail_keeps ?_ | refine nextKeeps.next ?_ | refine Keeps.ite ?_ ?_

theorem execRetransmitTimeout_keeps {s0 s : State} {a0 : BitVec 12} (k : Keeps s0 s) :
    nextKeeps s0 (execRetransmitTimeout a0 s) := by
  unfold execRetransmitTimeout
  with_reducible repeat' first
    | assumption | refine State.pathFail_keeps ?_ | refine State.sendPacket_keeps ?_ | refine State.wr_keeps ?_
    | refine nextKeeps.next ?_ | refine foldl_keeps ?_ (fun _ _ _ => ?_) | dsimp only | refine Keeps.ite ?_ ?_

theorem execResp_keeps {s0 s : State} {a0 : BitVec 12} {a1 : BitVec 32} (k : Keeps s0 s) :
    nextKeeps s0 (execResp a0 a1 s) := by
  unfold execResp
  with_reducible repeat' first
    | assumption | refine State.message_keeps ?_ (fun _ _ _ _ _ => ?_) | refine State.dropReq_keeps ?_
    | refine State.gotRead_keeps ?_ | refine State.badRead_keeps ?_ | refine State.moorDone_keeps ?_
    | refine State.failReq_keeps ?_ | dsimp only | refine Keeps.ite ?_ ?_
    | (refine Keeps.unfold ?_; dsimp only; refine Keeps.foldMem ?_ (fun h => ?_)) | refine memStore_wf _ _ ?_ | split

theorem execBlockWrite_keeps {s0 s : State} {a0 : BitVec 12} {a1 : BitVec 32} (k : Keeps s0 s) :
    nextKeeps s0 (execBlockWrite a0 a1 s) := by
  unfold execBlockWrite
  with_reducible repeat' first
    | assumption | refine State.message_keeps ?_ (fun _ _ _ _ _ => ?_)
    | refine State.serveBlocks_keeps ?_ (fun _ _ _ _ => ?_) | refine State.serveWrite_keeps ?_

theorem execConnClose_keeps {s0 s : State} {a0 : BitVec 5} {a1 : BitVec 12} (k : Keeps s0 s) :
    nextKeeps s0 (execConnClose a0 a1 s) := by
  unfold execConnClose
  with_reducible repeat' first
    | assumption | refine State.wr_keeps ?_ | refine State.flow_keeps ?_ | refine State.crrGo_keeps ?_
    | refine nextKeeps.next ?_ | dsimp only | refine Keeps.ite ?_ ?_

theorem execOwnerRead_keeps {s0 s : State} {a0 : BitVec 12} {a1 : BitVec 32} (k : Keeps s0 s) :
    nextKeeps s0 (execOwnerRead a0 a1 s) := by
  unfold execOwnerRead
  with_reducible repeat' first
    | assumption | refine State.message_keeps ?_ (fun _ _ _ _ _ => ?_) | refine State.serveRead_keeps ?_

theorem execConfirm_keeps {s0 s : State} {a0 : BitVec 12} {a1 : BitVec 32} (k : Keeps s0 s) :
    nextKeeps s0 (execConfirm a0 a1 s) := by
  unfold execConfirm
  with_reducible repeat' first
    | assumption | refine State.message_keeps ?_ (fun _ _ _ _ _ => ?_) | refine State.setConn_keeps ?_
    | refine State.requeueWaiters_keeps ?_ | refine State.setTile_keeps ?_ | dsimp only | refine Keeps.ite ?_ ?_
    | split

theorem execBlockZero_keeps {s0 s : State} {a0 : BitVec 12} {a1 : BitVec 32} (k : Keeps s0 s) :
    nextKeeps s0 (execBlockZero a0 a1 s) := by
  unfold execBlockZero
  with_reducible repeat' first
    | assumption | refine State.message_keeps ?_ (fun _ _ _ _ _ => ?_)
    | refine State.serveBlocks_keeps ?_ (fun _ _ _ _ => ?_) | refine State.serveWrite_keeps ?_

theorem execOwnerWrite_keeps {s0 s : State} {a0 : BitVec 12} {a1 : BitVec 32} (k : Keeps s0 s) :
    nextKeeps s0 (execOwnerWrite a0 a1 s) := by
  unfold execOwnerWrite
  with_reducible repeat' first
    | assumption | refine State.message_keeps ?_ (fun _ _ _ _ _ => ?_) | refine State.serveWrite_keeps ?_

theorem execBlockRead_keeps {s0 s : State} {a0 : BitVec 12} {a1 : BitVec 32} (k : Keeps s0 s) :
    nextKeeps s0 (execBlockRead a0 a1 s) := by
  unfold execBlockRead
  with_reducible repeat' first
    | assumption | refine State.message_keeps ?_ (fun _ _ _ _ _ => ?_)
    | refine State.serveBlocks_keeps ?_ (fun _ _ _ _ => ?_) | refine State.serveRead_keeps ?_

theorem execRecall_keeps {s0 s : State} {a0 : BitVec 12} {a1 : BitVec 32} (k : Keeps s0 s) :
    nextKeeps s0 (execRecall a0 a1 s) := by
  unfold execRecall
  with_reducible repeat' first
    | assumption | refine State.message_keeps ?_ (fun _ _ _ _ _ => ?_) | refine State.sendResp_keeps ?_
    | refine State.classOf_keeps ?_ | refine State.front_keeps ?_ | refine State.addItem_keeps ?_ | dsimp only
    | refine Keeps.ite ?_ ?_

theorem execPut_keeps {s0 s : State} {a0 : BitVec 12} {a1 : BitVec 32} (k : Keeps s0 s) :
    nextKeeps s0 (execPut a0 a1 s) := by
  unfold execPut
  with_reducible repeat' first
    | assumption | refine State.message_keeps ?_ (fun _ _ _ _ _ => ?_) | refine State.sendMessage_keeps ?_
    | refine State.classOf_keeps ?_ | refine State.addItem_keeps ?_ | refine State.intake_keeps ?_
    | refine State.endPut_keeps ?_ | dsimp only | refine Keeps.ite ?_ ?_ | split

theorem execNop_keeps {s0 s : State} {a0 : BitVec 12} {a1 : BitVec 32} (k : Keeps s0 s) :
    nextKeeps s0 (execNop a0 a1 s) := by
  unfold execNop
  with_reducible repeat' first
    | assumption | refine State.message_keeps ?_ (fun _ _ _ _ _ => ?_)

/-! ### EthCmd -/

theorem State.dropTx_keeps {s0 s : State} {a1 : ℕ} (k : Keeps s0 s) :
    Keeps s0 (State.dropTx s a1) := by
  unfold State.dropTx
  with_reducible repeat' first
    | assumption | fail_if_no_progress (refine Keeps.unfold ?_; dsimp only; refine Keeps.fold ?_)

theorem execRateRecovery_keeps {s0 s : State} {a0 : BitVec 13} (k : Keeps s0 s) :
    nextKeeps s0 (execRateRecovery a0 s) := by
  unfold execRateRecovery
  with_reducible repeat' first
    | assumption | refine nextKeeps.next ?_ | dsimp only | refine Keeps.ite ?_ ?_
    | fail_if_no_progress (refine Keeps.unfold ?_; dsimp only; refine Keeps.fold ?_) | split

theorem State.roceSeen_keeps {s0 s : State} {a1 : ℕ} {a2 : NvmeCmd} {a3 : ℕ} {a4 : Bool} (k : Keeps s0 s) :
    Keeps s0 (State.roceSeen s a1 a2 a3 a4) := by
  unfold State.roceSeen
  with_reducible repeat' first
    | assumption | refine State.sendEth_keeps ?_ | dsimp only | refine Keeps.ite ?_ ?_
    | fail_if_no_progress (refine Keeps.unfold ?_; dsimp only; refine Keeps.fold ?_)

theorem execPfcStormRecovery_keeps {s0 s : State} {a0 : BitVec 3} {a1 : BitVec 3} (k : Keeps s0 s) :
    nextKeeps s0 (execPfcStormRecovery a0 a1 s) := by
  unfold execPfcStormRecovery
  with_reducible repeat' first
    | assumption | refine nextKeeps.next ?_ | dsimp only | refine Keeps.ite ?_ ?_
    | fail_if_no_progress (refine Keeps.unfold ?_; dsimp only; refine Keeps.fold ?_)

theorem State.drainTx_keeps {s0 s : State} {a1 : ℕ} {a2 : ℕ} (k : Keeps s0 s) :
    Keeps s0 (State.drainTx s a1 a2) := by
  unfold State.drainTx
  with_reducible repeat' first
    | assumption | dsimp only | refine Keeps.ite ?_ ?_
    | fail_if_no_progress (refine Keeps.unfold ?_; dsimp only; refine Keeps.fold ?_)

theorem execPfcFrame_keeps {s0 s : State} {a0 : BitVec 3} {a1 : BitVec 8} {a2 : BitVec 8} (k : Keeps s0 s) :
    nextKeeps s0 (execPfcFrame a0 a1 a2 s) := by
  unfold execPfcFrame
  with_reducible repeat' first
    | assumption | refine State.drainTx_keeps ?_ | refine nextKeeps.next ?_ | refine foldl_keeps ?_ (fun _ _ _ => ?_)
    | dsimp only | refine Keeps.ite ?_ ?_
    | fail_if_no_progress (refine Keeps.unfold ?_; dsimp only; refine Keeps.fold ?_)

theorem State.sendNvme_keeps {s0 s : State} {a1 : ℕ} {a2 : NvmeCmd} (k : Keeps s0 s) :
    Keeps s0 (State.sendNvme s a1 a2) := by
  unfold State.sendNvme
  with_reducible repeat' first
    | assumption | refine State.sendEth_keeps ?_

theorem execHoldover_keeps {s0 s : State}  (k : Keeps s0 s) :
    nextKeeps s0 (execHoldover s) := by
  unfold execHoldover
  with_reducible repeat' first
    | assumption | refine State.wr_keeps ?_ | refine nextKeeps.next ?_ | dsimp only | refine Keeps.ite ?_ ?_
    | fail_if_no_progress (refine Keeps.unfold ?_; dsimp only; refine Keeps.fold ?_)

theorem execPfcWatchdog_keeps {s0 s : State} {a0 : BitVec 3} {a1 : BitVec 3} (k : Keeps s0 s) :
    nextKeeps s0 (execPfcWatchdog a0 a1 s) := by
  unfold execPfcWatchdog
  with_reducible repeat' first
    | assumption | refine State.wr_keeps ?_ | refine nextKeeps.next ?_ | dsimp only | refine Keeps.ite ?_ ?_
    | fail_if_no_progress (refine Keeps.unfold ?_; dsimp only; refine Keeps.fold ?_)

theorem execCnp_keeps {s0 s : State} {a0 : BitVec 4} (k : Keeps s0 s) :
    nextKeeps s0 (execCnp a0 s) := by
  unfold execCnp
  with_reducible repeat' first
    | assumption | refine State.halveFlow_keeps ?_ | refine nextKeeps.next ?_ | refine Keeps.ite ?_ ?_

theorem execRdmaRead_keeps {s0 s : State} {a0 : BitVec 32} {a1 : BitVec 17} {a2 : BitVec 18} {a3 : Bool} (k : Keeps s0 s) :
    nextKeeps s0 (execRdmaRead a0 a1 a2 a3 s) := by
  unfold execRdmaRead
  with_reducible repeat' first
    | assumption | refine State.sendEth_keeps ?_ | refine State.roceSeen_keeps ?_ | refine nextKeeps.next ?_
    | dsimp only | refine Keeps.ite ?_ ?_ | split

theorem execRdmaWrite_keeps {s0 s : State} {a0 : BitVec 32} {a1 : BitVec 17} {a2 : List Byte} {a3 : Bool} (k : Keeps s0 s) :
    nextKeeps s0 (execRdmaWrite a0 a1 a2 a3 s) := by
  unfold execRdmaWrite
  with_reducible repeat' first
    | assumption | refine State.roceSeen_keeps ?_ | refine nextKeeps.next ?_ | dsimp only | refine Keeps.ite ?_ ?_
    | (refine Keeps.unfold ?_; dsimp only; refine Keeps.foldMem ?_ (fun h => ?_)) | refine memStore_wf _ _ ?_ | split

theorem State.ethTrain_keeps {s0 s : State} {a1 : ℕ} {a2 : ℕ} (k : Keeps s0 s) :
    Keeps s0 (State.ethTrain s a1 a2) := by
  unfold State.ethTrain
  with_reducible repeat' first
    | assumption | refine State.wr_keeps ?_ | dsimp only | refine Keeps.ite ?_ ?_

theorem execEthLinkDown_keeps {s0 s : State} {a0 : BitVec 3} (k : Keeps s0 s) :
    nextKeeps s0 (execEthLinkDown a0 s) := by
  unfold execEthLinkDown
  with_reducible repeat' first
    | assumption | refine State.ethDown_keeps ?_ | refine State.dropTx_keeps ?_ | refine nextKeeps.next ?_
    | refine Keeps.ite ?_ ?_

theorem execRetrain_keeps {s0 s : State} {a0 : BitVec 3} {a1 : BitVec 3} (k : Keeps s0 s) :
    nextKeeps s0 (execRetrain a0 a1 s) := by
  unfold execRetrain
  with_reducible repeat' first
    | assumption | refine State.ethTrain_keeps ?_ | refine State.wr_keeps ?_ | refine State.dropTx_keeps ?_
    | refine nextKeeps.next ?_ | refine Keeps.ite ?_ ?_

theorem State.ptpSync_keeps {s0 s : State} {a1 : ℤ} (k : Keeps s0 s) :
    Keeps s0 (State.ptpSync s a1) := by
  unfold State.ptpSync
  with_reducible repeat' first
    | assumption | refine State.wr_keeps ?_ | refine State.freeWord_keeps ?_ | refine State.flag_keeps ?_
    | dsimp only | refine Keeps.ite ?_ ?_
    | fail_if_no_progress (refine Keeps.unfold ?_; dsimp only; refine Keeps.fold ?_)

theorem State.prioMapWrite_keeps {s0 s : State} {a1 : ℕ} {a2 : Word} (k : Keeps s0 s) :
    Keeps s0 (State.prioMapWrite s a1 a2) := by
  unfold State.prioMapWrite
  with_reducible repeat' first
    | assumption | refine State.flag_keeps ?_ | refine State.setReg_keeps ?_ | dsimp only | refine Keeps.ite ?_ ?_

theorem execEthLinkUp_keeps {s0 s : State} {a0 : BitVec 3} {a1 : BitVec 3} (k : Keeps s0 s) :
    nextKeeps s0 (execEthLinkUp a0 a1 s) := by
  unfold execEthLinkUp
  with_reducible repeat' first
    | assumption | refine State.ethTrain_keeps ?_ | refine nextKeeps.next ?_ | refine Keeps.ite ?_ ?_

theorem execPtpEventMessage_keeps {s0 s : State} {a0 : BitVec 3} {a1 : PtpMessage} (k : Keeps s0 s) :
    nextKeeps s0 (execPtpEventMessage a0 a1 s) := by
  unfold execPtpEventMessage
  with_reducible repeat' first
    | assumption | refine State.ptpSync_keeps ?_ | refine State.sendEth_keeps ?_ | refine nextKeeps.next ?_
    | dsimp only | refine Keeps.ite ?_ ?_ | split

theorem execPrioMapWrite_keeps {s0 s : State} {a0 : BitVec 3} {a1 : Word} (k : Keeps s0 s) :
    nextKeeps s0 (execPrioMapWrite a0 a1 s) := by
  unfold execPrioMapWrite
  with_reducible repeat' first
    | assumption | refine State.prioMapWrite_keeps ?_ | refine nextKeeps.next ?_ | refine Keeps.ite ?_ ?_

theorem State.dropSet_keeps {s0 s : State} {a1 : ℕ} {a2 : ℕ} (k : Keeps s0 s) :
    Keeps s0 (State.dropSet s a1 a2) := by
  unfold State.dropSet
  with_reducible repeat' first
    | assumption | refine State.moorDone_keeps ?_ | refine foldl_keeps ?_ (fun _ _ _ => ?_) | dsimp only
    | fail_if_no_progress (refine Keeps.unfold ?_; dsimp only; refine Keeps.fold ?_) | split

theorem State.nvmeDisable_keeps {s0 s : State} {a1 : ℕ} (k : Keeps s0 s) :
    Keeps s0 (State.nvmeDisable s a1) := by
  unfold State.nvmeDisable
  with_reducible repeat' first
    | assumption | refine State.wr_keeps ?_ | refine State.sendEth_keeps ?_ | refine State.dropSet_keeps ?_
    | dsimp only | refine Keeps.ite ?_ ?_
    | fail_if_no_progress (refine Keeps.unfold ?_; dsimp only; refine Keeps.fold ?_)

theorem execNvmeSetDisable_keeps {s0 s : State} {a0 : BitVec 4} (k : Keeps s0 s) :
    nextKeeps s0 (execNvmeSetDisable a0 s) := by
  unfold execNvmeSetDisable
  with_reducible repeat' first
    | assumption | refine State.nvmeDisable_keeps ?_ | refine nextKeeps.next ?_ | refine Keeps.ite ?_ ?_

theorem execMoorTimeout_keeps {s0 s : State} {a0 : Option (BitVec 12)} {a1 : BitVec 32} (k : Keeps s0 s) :
    nextKeeps s0 (execMoorTimeout a0 a1 s) := by
  unfold execMoorTimeout
  with_reducible repeat' first
    | assumption | refine State.sendEth_keeps ?_ | refine State.flow_keeps ?_ | refine State.moorDone_keeps ?_
    | refine State.dropReq_keeps ?_ | refine nextKeeps.next ?_ | dsimp only | refine Keeps.ite ?_ ?_
    | fail_if_no_progress (refine Keeps.unfold ?_; dsimp only; refine Keeps.fold ?_) | split

theorem execMoorCompletion_keeps {s0 s : State} {a0 : BitVec 32} {a1 : BitVec 16} {a2 : Bool} (k : Keeps s0 s) :
    nextKeeps s0 (execMoorCompletion a0 a1 a2 s) := by
  unfold execMoorCompletion
  with_reducible repeat' first
    | assumption | refine State.flag_keeps ?_ | refine State.flow_keeps ?_ | refine State.moorDone_keeps ?_
    | refine nextKeeps.next ?_ | dsimp only | refine Keeps.ite ?_ ?_
    | fail_if_no_progress (refine Keeps.unfold ?_; dsimp only; refine Keeps.fold ?_) | split

theorem State.setDown_keeps {s0 s : State} {a1 : ℕ} (k : Keeps s0 s) :
    Keeps s0 (State.setDown s a1) := by
  unfold State.setDown
  with_reducible repeat' first
    | assumption | refine State.dropSet_keeps ?_ | refine State.wr_keeps ?_ | refine State.flow_keeps ?_
    | refine State.tierPortDown_keeps ?_ | refine foldl_keeps ?_ (fun _ _ _ => ?_) | dsimp only
    | refine Keeps.ite ?_ ?_

theorem State.nvmeMeets_keeps {s0 s : State} {a1 : ℕ} {a2 : NvmeMeet} (k : Keeps s0 s) :
    Keeps s0 (State.nvmeMeets s a1 a2) := by
  unfold State.nvmeMeets
  with_reducible repeat' first
    | assumption | refine State.wr_keeps ?_ | refine State.sendEth_keeps ?_ | refine State.flow_keeps ?_
    | refine State.targetsUp_keeps ?_ | refine foldl_keeps ?_ (fun _ _ _ => ?_) | dsimp only | refine Keeps.ite ?_ ?_
    | fail_if_no_progress (refine Keeps.unfold ?_; dsimp only; refine Keeps.fold ?_) | split

theorem execLocalAckTimeout_keeps {s0 s : State} {a0 : BitVec 32} (k : Keeps s0 s) :
    nextKeeps s0 (execLocalAckTimeout a0 s) := by
  unfold execLocalAckTimeout
  with_reducible repeat' first
    | assumption | refine State.setDown_keeps ?_ | refine State.sendNvme_keeps ?_ | refine nextKeeps.next ?_
    | dsimp only | refine Keeps.ite ?_ ?_
    | fail_if_no_progress (refine Keeps.unfold ?_; dsimp only; refine Keeps.fold ?_) | split

theorem execQpError_keeps {s0 s : State} {a0 : BitVec 4} (k : Keeps s0 s) :
    nextKeeps s0 (execQpError a0 s) := by
  unfold execQpError
  with_reducible repeat' first
    | assumption | refine State.setDown_keeps ?_ | refine nextKeeps.next ?_ | refine Keeps.ite ?_ ?_

theorem State.nvmeEnable_keeps {s0 s : State} {a1 : ℕ} {a2 : Word} {a3 : NvmeMeet} (k : Keeps s0 s) :
    Keeps s0 (State.nvmeEnable s a1 a2 a3) := by
  unfold State.nvmeEnable
  with_reducible repeat' first
    | assumption | refine State.wr_keeps ?_ | refine State.nvmeMeets_keeps ?_ | dsimp only | refine Keeps.ite ?_ ?_

theorem execKeepAlive_keeps {s0 s : State} {a0 : BitVec 4} {a1 : Bool} (k : Keeps s0 s) :
    nextKeeps s0 (execKeepAlive a0 a1 s) := by
  unfold execKeepAlive
  with_reducible repeat' first
    | assumption | refine State.sendEth_keeps ?_ | refine State.setDown_keeps ?_ | refine nextKeeps.next ?_
    | dsimp only | refine Keeps.ite ?_ ?_

theorem execNvmeReconnect_keeps {s0 s : State} {a0 : BitVec 4} {a1 : Bool} (k : Keeps s0 s) :
    nextKeeps s0 (execNvmeReconnect a0 a1 s) := by
  unfold execNvmeReconnect
  with_reducible repeat' first
    | assumption | refine State.sendEth_keeps ?_ | refine State.flow_keeps ?_ | refine State.targetsUp_keeps ?_
    | refine State.wr_keeps ?_ | refine nextKeeps.next ?_ | dsimp only | refine Keeps.ite ?_ ?_

theorem execNvmeSetEnable_keeps {s0 s : State} {a0 : BitVec 4} {a1 : Word} {a2 : NvmeMeet} (k : Keeps s0 s) :
    nextKeeps s0 (execNvmeSetEnable a0 a1 a2 s) := by
  unfold execNvmeSetEnable
  with_reducible repeat' first
    | assumption | refine State.nvmeEnable_keeps ?_ | refine nextKeeps.next ?_ | refine Keeps.ite ?_ ?_

/-! ### LlcCmd -/

theorem State.llcUnpin_keeps {s0 s : State} {a1 : ℕ} {a2 : ℕ} {a3 : ℕ} (k : Keeps s0 s) :
    Keeps s0 (State.llcUnpin s a1 a2 a3).2 := by
  unfold State.llcUnpin
  with_reducible repeat' first
    | assumption | refine State.refreshPins_keeps ?_ | dsimp only | refine Keeps.ite_snd ?_ ?_
    | fail_if_no_progress (refine Keeps.unfold ?_; dsimp only; refine Keeps.fold ?_)

theorem State.pinMaskWrite_keeps {s0 s : State} {a1 : ℕ} {a2 : ℕ} (k : Keeps s0 s) :
    Keeps s0 (State.pinMaskWrite s a1 a2) := by
  unfold State.pinMaskWrite
  with_reducible repeat' first
    | assumption | refine State.flag_keeps ?_ | refine State.wr_keeps ?_ | refine State.setLease_keeps ?_
    | refine State.grantLease_keeps ?_ | dsimp only | refine Keeps.ite ?_ ?_

theorem State.llcEvict_keeps {s0 s : State} {a1 : ℕ} {a2 : ℕ} {a3 : ℕ} (k : Keeps s0 s) :
    Keeps s0 (State.llcEvict s a1 a2 a3) := by
  unfold State.llcEvict
  with_reducible repeat' first
    | assumption | refine State.flushLines_keeps ?_ | refine State.evictLines_keeps ?_
    | refine foldl_keeps ?_ (fun _ _ _ => ?_) | dsimp only | refine Keeps.ite ?_ ?_

theorem State.llcFlush_keeps {s0 s : State} {a1 : ℕ} {a2 : ℕ} {a3 : ℕ} (k : Keeps s0 s) :
    Keeps s0 (State.llcFlush s a1 a2 a3) := by
  unfold State.llcFlush
  with_reducible repeat' first
    | assumption | refine State.flushLines_keeps ?_ | refine foldl_keeps ?_ (fun _ _ _ => ?_)

theorem execLlcPinMaskWrite_keeps {s0 s : State} {a0 : BitVec 5} {a1 : BitVec 16} (k : Keeps s0 s) :
    nextKeeps s0 (execLlcPinMaskWrite a0 a1 s) := by
  unfold execLlcPinMaskWrite
  with_reducible repeat' first
    | assumption | refine State.pinMaskWrite_keeps ?_ | refine nextKeeps.next ?_ | refine Keeps.ite ?_ ?_

theorem State.pinLine_keeps {s0 s : State} {a1 : ℕ} {a2 : ℕ} (k : Keeps s0 s) :
    Keeps s0 (State.pinLine s a1 a2) := by
  unfold State.pinLine
  with_reducible repeat' first
    | assumption | refine State.writeBackLine_keeps ?_ | refine State.readSector_keeps ?_
    | refine foldl_keeps ?_ (fun _ _ _ => ?_) | dsimp only | refine Keeps.ite ?_ ?_
    | fail_if_no_progress (refine Keeps.unfold ?_; dsimp only; refine Keeps.fold ?_) | split

theorem State.llcPin_keeps {s0 s : State} {a1 : ℕ} {a2 : ℕ} {a3 : ℕ} (k : Keeps s0 s) :
    Keeps s0 (State.llcPin s a1 a2 a3).2 := by
  unfold State.llcPin
  with_reducible repeat' first
    | assumption | refine State.pinLine_keeps ?_ | refine State.refreshPins_keeps ?_
    | refine foldl_keeps ?_ (fun _ _ _ => ?_) | dsimp only | refine Keeps.ite_snd ?_ ?_
    | fail_if_no_progress (refine Keeps.unfold ?_; dsimp only; refine Keeps.fold ?_)

theorem State.llcExec_keeps {s0 s : State} {a1 : ℕ} (k : Keeps s0 s) :
    Keeps s0 (State.llcExec s a1) := by
  unfold State.llcExec
  with_reducible repeat' first
    | assumption | refine State.llcFlush_keeps ?_ | refine State.llcEvict_keeps ?_ | refine State.llcPin_keeps ?_
    | refine State.llcUnpin_keeps ?_ | refine State.irq_keeps ?_ | refine State.wr_keeps ?_
    | refine State.flag_keeps ?_ | split

theorem State.llcCommand_keeps {s0 s : State} {a1 : ℕ} {a2 : ℕ} {a3 : Word} {a4 : Word} {a5 : Word} (k : Keeps s0 s) :
    Keeps s0 (State.llcCommand s a1 a2 a3 a4 a5) := by
  unfold State.llcCommand
  with_reducible repeat' first
    | assumption | refine State.wr_keeps ?_ | refine State.llcExec_keeps ?_ | refine State.setReg_keeps ?_
    | dsimp only | refine Keeps.ite ?_ ?_

theorem execLlcPin_keeps {s0 s : State} {a0 : BitVec 6} {a1 : Word} {a2 : Word} {a3 : Word} (k : Keeps s0 s) :
    nextKeeps s0 (execLlcPin a0 a1 a2 a3 s) := by
  unfold execLlcPin
  with_reducible repeat' first
    | assumption | refine State.llcCommand_keeps ?_ | refine nextKeeps.next ?_

theorem execLlcFlush_keeps {s0 s : State} {a0 : BitVec 6} {a1 : Word} {a2 : Word} {a3 : Word} (k : Keeps s0 s) :
    nextKeeps s0 (execLlcFlush a0 a1 a2 a3 s) := by
  unfold execLlcFlush
  with_reducible repeat' first
    | assumption | refine State.llcCommand_keeps ?_ | refine nextKeeps.next ?_

theorem execLlcEvict_keeps {s0 s : State} {a0 : BitVec 6} {a1 : Word} {a2 : Word} {a3 : Word} (k : Keeps s0 s) :
    nextKeeps s0 (execLlcEvict a0 a1 a2 a3 s) := by
  unfold execLlcEvict
  with_reducible repeat' first
    | assumption | refine State.llcCommand_keeps ?_ | refine nextKeeps.next ?_

theorem execLlcUnpin_keeps {s0 s : State} {a0 : BitVec 6} {a1 : Word} {a2 : Word} {a3 : Word} (k : Keeps s0 s) :
    nextKeeps s0 (execLlcUnpin a0 a1 a2 a3 s) := by
  unfold execLlcUnpin
  with_reducible repeat' first
    | assumption | refine State.llcCommand_keeps ?_ | refine nextKeeps.next ?_

end Sys2Proof.Machine
end

