-- ==== Sys2Proof/Laws/KeepsPlan.lean ====
section
/-! SUPPORT. What the plan, register and security commands and the idle step keep: memory in its
canonical form, the TALLY unit sound, the variant and the queue of commands (`Keeps`).
One lemma an operation, cited by its callers, so no proof unfolds an operation twice. -/

namespace Sys2Proof.Machine

open Ulital

/-! ### PlanLoad -/

theorem State.markPages_keeps {s0 s : State} {a1 : ℕ} {a2 : ℕ} {a3 : ℕ} {a4 : PageEnt → PageEnt} (k : Keeps s0 s) :
    Keeps s0 (State.markPages s a1 a2 a3 a4) := by
  unfold State.markPages
  with_reducible repeat' first
    | assumption | dsimp only | fail_if_no_progress (refine Keeps.unfold ?_; dsimp only; refine Keeps.fold ?_)

theorem State.unmarkPages_keeps {s0 s : State} {a1 : ℕ} (k : Keeps s0 s) :
    Keeps s0 (State.unmarkPages s a1) := by
  unfold State.unmarkPages
  with_reducible repeat' first
    | assumption | refine State.markPages_keeps ?_

theorem State.report_keeps {s0 s : State} {a1 : ℕ} {a2 : List ℕ} {a3 : ℕ} {a4 : ℕ} (k : Keeps s0 s) :
    Keeps s0 (State.report s a1 a2 a3 a4) := by
  unfold State.report
  with_reducible repeat' first
    | assumption | refine State.setReg_keeps ?_ | refine State.wr_keeps ?_ | refine State.irq_keeps ?_
    | refine State.flag_keeps ?_ | refine foldl_keeps ?_ (fun _ _ _ => ?_)

theorem State.rejectLoad_keeps {s0 s : State} {a1 : ℕ} {a2 : ℕ} {a3 : List ℕ} (k : Keeps s0 s) :
    Keeps s0 (State.rejectLoad s a1 a2 a3) := by
  unfold State.rejectLoad
  with_reducible repeat' first
    | assumption | refine State.report_keeps ?_ | refine State.unmarkPages_keeps ?_ | refine State.setPlan_keeps ?_

theorem execPlanLoadTimeout_keeps {s0 s : State} {a0 : BitVec 5} (k : Keeps s0 s) :
    nextKeeps s0 (execPlanLoadTimeout a0 s) := by
  unfold execPlanLoadTimeout
  with_reducible repeat' first
    | assumption | refine State.rejectLoad_keeps ?_ | refine nextKeeps.next ?_ | dsimp only | refine Keeps.ite ?_ ?_
    | split

theorem execPlanLoad_keeps {s0 s : State} {a0 : BitVec 5} (k : Keeps s0 s) :
    nextKeeps s0 (execPlanLoad a0 s) := by
  unfold execPlanLoad
  with_reducible repeat' first
    | assumption | refine State.flag_keeps ?_ | refine State.wr_keeps ?_ | refine State.markPages_keeps ?_
    | refine State.deadLetter_keeps ?_ | refine State.setPlan_keeps ?_ | refine nextKeeps.next ?_ | dsimp only
    | refine Keeps.ite ?_ ?_ | split

theorem State.admitPlan_keeps {s0 s : State} {a1 : ℕ} {a2 : Plan} (k : Keeps s0 s) :
    Keeps s0 (State.admitPlan s a1 a2) := by
  unfold State.admitPlan
  with_reducible repeat' first
    | assumption | refine State.setPlan_keeps ?_ | refine State.vwrite_keeps ?_ | refine State.markPages_keeps ?_
    | refine State.wr_keeps ?_ | refine State.scratchWrite_keeps ?_ | refine foldl_keeps ?_ (fun _ _ _ => ?_)
    | dsimp only | refine Keeps.ite ?_ ?_
    | fail_if_no_progress (refine Keeps.unfold ?_; dsimp only; refine Keeps.fold ?_)

theorem State.releaseAll_keeps {s0 s : State} {a1 : ℕ} (k : Keeps s0 s) :
    Keeps s0 (State.releaseAll s a1) := by
  unfold State.releaseAll
  with_reducible repeat' first
    | assumption | refine State.freeTile_keeps ?_ | refine State.vwrite_keeps ?_
    | refine foldl_keeps ?_ (fun _ _ _ => ?_) | dsimp only
    | fail_if_no_progress (refine Keeps.unfold ?_; dsimp only; refine Keeps.fold ?_) | split

theorem execPlanLoadEnd_keeps {s0 s : State} {a0 : BitVec 5} (k : Keeps s0 s) :
    nextKeeps s0 (execPlanLoadEnd a0 s) := by
  unfold execPlanLoadEnd
  with_reducible repeat' first
    | assumption | refine State.rejectLoad_keeps ?_ | refine State.report_keeps ?_ | refine State.admitPlan_keeps ?_
    | refine nextKeeps.next ?_ | dsimp only | refine Keeps.ite ?_ ?_ | split

theorem execUnload_keeps {s0 s : State} {a0 : BitVec 5} (k : Keeps s0 s) :
    nextKeeps s0 (execUnload a0 s) := by
  unfold execUnload
  with_reducible repeat' first
    | assumption | refine State.flag_keeps ?_ | refine State.wr_keeps ?_ | refine State.releaseAll_keeps ?_
    | refine nextKeeps.next ?_ | refine Keeps.ite ?_ ?_

theorem execUnloadComplete_keeps {s0 s : State} {a0 : BitVec 5} (k : Keeps s0 s) :
    nextKeeps s0 (execUnloadComplete a0 s) := by
  unfold execUnloadComplete
  with_reducible repeat' first
    | assumption | refine State.wr_keeps ?_ | refine State.unmarkPages_keeps ?_ | refine State.setPlan_keeps ?_
    | refine State.setCoreState_keeps ?_ | refine State.zeroScratch_keeps ?_ | refine State.clearCore_keeps ?_
    | refine State.flow_keeps ?_ | refine nextKeeps.next ?_ | refine foldl_keeps ?_ (fun _ _ _ => ?_) | dsimp only
    | refine Keeps.ite ?_ ?_

/-! ### RegMap -/

theorem State.unsupportedAccess_keeps {s0 s : State} {a1 : ℕ} {a2 : Bool} (k : Keeps s0 s) :
    Keeps s0 (State.unsupportedAccess s a1 a2) := by
  unfold State.unsupportedAccess
  with_reducible repeat' first
    | assumption | refine State.emit_keeps ?_ | dsimp only | refine Keeps.ite ?_ ?_

theorem State.badAccess_keeps {s0 s : State} {a1 : ℕ} {a2 : ℕ} (k : Keeps s0 s) :
    Keeps s0 (State.badAccess s a1 a2) := by
  unfold State.badAccess
  with_reducible repeat' first
    | assumption | refine State.sat_keeps ?_ | refine State.wr_keeps ?_ | refine State.flag_keeps ?_ | dsimp only
    | refine Keeps.ite ?_ ?_

/-! ### SpdmCmd -/

theorem execDebugUnlock_keeps {s0 s : State} {a0 : Bool} (k : Keeps s0 s) :
    nextKeeps s0 (execDebugUnlock a0 s) := by
  unfold execDebugUnlock
  with_reducible repeat' first
    | assumption | refine State.wr_keeps ?_ | refine nextKeeps.next ?_ | dsimp only | refine Keeps.ite ?_ ?_
    | fail_if_no_progress (refine Keeps.unfold ?_; dsimp only; refine Keeps.fold ?_)

theorem State.answer_keeps {s0 s : State} {a1 : DoeRsp} (k : Keeps s0 s) :
    Keeps s0 (State.answer s a1) := by
  unfold State.answer
  with_reducible repeat' first
    | assumption | refine State.emit_keeps ?_

theorem execGetCapabilities_keeps {s0 s : State}  (k : Keeps s0 s) :
    nextKeeps s0 (execGetCapabilities s) := by
  unfold execGetCapabilities
  with_reducible repeat' first
    | assumption | refine State.answer_keeps ?_ | refine nextKeeps.next ?_ | dsimp only | refine Keeps.ite ?_ ?_
    | fail_if_no_progress (refine Keeps.unfold ?_; dsimp only; refine Keeps.fold ?_)

theorem execNegotiateAlgorithms_keeps {s0 s : State} {a0 : Bool} (k : Keeps s0 s) :
    nextKeeps s0 (execNegotiateAlgorithms a0 s) := by
  unfold execNegotiateAlgorithms
  with_reducible repeat' first
    | assumption | refine State.answer_keeps ?_ | refine nextKeeps.next ?_ | dsimp only | refine Keeps.ite ?_ ?_
    | fail_if_no_progress (refine Keeps.unfold ?_; dsimp only; refine Keeps.fold ?_)

theorem State.spdmSession_keeps {s0 s : State} {a1 : State → State} (k : Keeps s0 s) (h1 : ∀ x0, Keeps s0 x0 → Keeps s0 (a1 x0)) :
    nextKeeps s0 (State.spdmSession s a1) := by
  unfold State.spdmSession
  with_reducible repeat' first
    | assumption | refine State.answer_keeps ?_ | refine h1 _ ?_ | refine nextKeeps.next ?_ | refine Keeps.ite ?_ ?_

theorem execKeyUpdate_keeps {s0 s : State}  (k : Keeps s0 s) :
    nextKeeps s0 (execKeyUpdate s) := by
  unfold execKeyUpdate
  with_reducible repeat' first
    | assumption | refine State.spdmSession_keeps ?_ (fun _ _ => ?_) | refine State.answer_keeps ?_

theorem execHeartbeat_keeps {s0 s : State}  (k : Keeps s0 s) :
    nextKeeps s0 (execHeartbeat s) := by
  unfold execHeartbeat
  with_reducible repeat' first
    | assumption | refine State.spdmSession_keeps ?_ (fun _ _ => ?_) | refine State.answer_keeps ?_

theorem execDoeDiscovery_keeps {s0 s : State} {a0 : ℕ} {a1 : BitVec 8} (k : Keeps s0 s) :
    nextKeeps s0 (execDoeDiscovery a0 a1 s) := by
  unfold execDoeDiscovery
  with_reducible repeat' first
    | assumption | refine State.answer_keeps ?_ | refine nextKeeps.next ?_ | dsimp only | refine Keeps.ite ?_ ?_
    | fail_if_no_progress (refine Keeps.unfold ?_; dsimp only; refine Keeps.fold ?_)

theorem execGetVersion_keeps {s0 s : State}  (k : Keeps s0 s) :
    nextKeeps s0 (execGetVersion s) := by
  unfold execGetVersion
  with_reducible repeat' first
    | assumption | refine State.answer_keeps ?_ | refine nextKeeps.next ?_ | dsimp only | refine Keeps.ite ?_ ?_
    | fail_if_no_progress (refine Keeps.unfold ?_; dsimp only; refine Keeps.fold ?_)

theorem State.spdmSlot_keeps {s0 s : State} {a1 : BitVec 3} {a2 : Bool} {a3 : State → State} (k : Keeps s0 s) (h3 : ∀ x0, Keeps s0 x0 → Keeps s0 (a3 x0)) :
    nextKeeps s0 (State.spdmSlot s a1 a2 a3) := by
  unfold State.spdmSlot
  with_reducible repeat' first
    | assumption | refine State.answer_keeps ?_ | refine h3 _ ?_ | refine nextKeeps.next ?_ | refine Keeps.ite ?_ ?_

theorem execKeyExchange_keeps {s0 s : State} {a0 : BitVec 3} (k : Keeps s0 s) :
    nextKeeps s0 (execKeyExchange a0 s) := by
  unfold execKeyExchange
  with_reducible repeat' first
    | assumption | refine State.spdmSlot_keeps ?_ (fun _ _ => ?_) | refine State.answer_keeps ?_ | dsimp only
    | fail_if_no_progress (refine Keeps.unfold ?_; dsimp only; refine Keeps.fold ?_)

theorem execChallenge_keeps {s0 s : State} {a0 : BitVec 3} (k : Keeps s0 s) :
    nextKeeps s0 (execChallenge a0 s) := by
  unfold execChallenge
  with_reducible repeat' first
    | assumption | refine State.spdmSlot_keeps ?_ (fun _ _ => ?_) | refine State.answer_keeps ?_

theorem execGetDigests_keeps {s0 s : State}  (k : Keeps s0 s) :
    nextKeeps s0 (execGetDigests s) := by
  unfold execGetDigests
  with_reducible repeat' first
    | assumption | refine State.spdmSlot_keeps ?_ (fun _ _ => ?_) | refine State.answer_keeps ?_

theorem execGetMeasurements_keeps {s0 s : State} {a0 : BitVec 8} {a1 : Bool} (k : Keeps s0 s) :
    nextKeeps s0 (execGetMeasurements a0 a1 s) := by
  unfold execGetMeasurements
  with_reducible repeat' first
    | assumption | refine State.spdmSlot_keeps ?_ (fun _ _ => ?_) | refine State.answer_keeps ?_ | dsimp only
    | refine Keeps.ite ?_ ?_

theorem execIdeKmKeyProg_keeps {s0 s : State} {a0 : BitVec 3} {a1 : BitVec 8} (k : Keeps s0 s) :
    nextKeeps s0 (execIdeKmKeyProg a0 a1 s) := by
  unfold execIdeKmKeyProg
  with_reducible repeat' first
    | assumption | refine State.spdmSession_keeps ?_ (fun _ _ => ?_) | refine State.answer_keeps ?_ | dsimp only
    | refine Keeps.ite ?_ ?_ | fail_if_no_progress (refine Keeps.unfold ?_; dsimp only; refine Keeps.fold ?_)

theorem execFinish_keeps {s0 s : State} {a0 : Bool} (k : Keeps s0 s) :
    nextKeeps s0 (execFinish a0 s) := by
  unfold execFinish
  with_reducible repeat' first
    | assumption | refine State.spdmSlot_keeps ?_ (fun _ _ => ?_) | refine State.answer_keeps ?_ | dsimp only
    | refine Keeps.ite ?_ ?_ | fail_if_no_progress (refine Keeps.unfold ?_; dsimp only; refine Keeps.fold ?_)

theorem execEndSession_keeps {s0 s : State}  (k : Keeps s0 s) :
    nextKeeps s0 (execEndSession s) := by
  unfold execEndSession
  with_reducible repeat' first
    | assumption | refine State.spdmSession_keeps ?_ (fun _ _ => ?_) | refine State.answer_keeps ?_ | dsimp only
    | fail_if_no_progress (refine Keeps.unfold ?_; dsimp only; refine Keeps.fold ?_)

theorem execGetCertificate_keeps {s0 s : State} {a0 : BitVec 3} (k : Keeps s0 s) :
    nextKeeps s0 (execGetCertificate a0 s) := by
  unfold execGetCertificate
  with_reducible repeat' first
    | assumption | refine State.spdmSlot_keeps ?_ (fun _ _ => ?_) | refine State.answer_keeps ?_

theorem execKSetGo_keeps {s0 s : State} {a0 : BitVec 3} {a1 : BitVec 8} (k : Keeps s0 s) :
    nextKeeps s0 (execKSetGo a0 a1 s) := by
  unfold execKSetGo
  with_reducible repeat' first
    | assumption | refine State.spdmSession_keeps ?_ (fun _ _ => ?_) | refine State.answer_keeps ?_
    | refine State.flow_keeps ?_ | dsimp only | refine Keeps.ite ?_ ?_
    | fail_if_no_progress (refine Keeps.unfold ?_; dsimp only; refine Keeps.fold ?_)

/-! ### RegCmd -/

theorem State.cfgWrite_keeps {s0 s : State} {a1 : ℕ} {a2 : CfgWrite} (k : Keeps s0 s) :
    Keeps s0 (State.cfgWrite s a1 a2) := by
  unfold State.cfgWrite
  with_reducible repeat' first
    | assumption | dsimp only | fail_if_no_progress (refine Keeps.unfold ?_; dsimp only; refine Keeps.fold ?_)
    | split

theorem State.after_keeps {s0 s : State} {f : State → Res} (k : Keeps s0 s)
    (h : ∀ u, Keeps s0 u → nextKeeps s0 (f u)) : Keeps s0 (s.after f) := by
  unfold State.after
  split
  · exact h s k _ ‹_›
  · exact k
  · exact k


theorem State.irqMap_keeps {s0 s : State} {a1 : ℕ} {a2 : Word} (k : Keeps s0 s) :
    Keeps s0 (State.irqMap s a1 a2) := by
  unfold State.irqMap
  with_reducible repeat' first
    | assumption | refine State.setReg_keeps ?_ | refine Keeps.ite ?_ ?_

theorem State.plainWrite_keeps {s0 s : State} {a1 : Reg} {a2 : ℕ} {a3 : Bool} {a4 : Word} {a5 : Word} (k : Keeps s0 s) :
    Keeps s0 (State.plainWrite s a1 a2 a3 a4 a5) := by
  unfold State.plainWrite
  with_reducible repeat' first
    | assumption | refine State.setReg_keeps ?_

theorem State.chCfg_keeps {s0 s : State} {a1 : ℕ} {a2 : Word} (k : Keeps s0 s) :
    Keeps s0 (State.chCfg s a1 a2) := by
  unfold State.chCfg
  with_reducible repeat' first
    | assumption | refine State.setReg_keeps ?_

theorem State.dlsCons_keeps {s0 s : State} {a1 : ℕ} {a2 : ℕ} (k : Keeps s0 s) :
    Keeps s0 (State.dlsCons s a1 a2) := by
  unfold State.dlsCons
  with_reducible repeat' first
    | assumption | refine State.wr_keeps ?_ | refine Keeps.ite ?_ ?_

theorem execMgtRsvRead_keeps {s0 s : State}  (k : Keeps s0 s) :
    nextKeeps s0 (execMgtRsvRead s) := by
  unfold execMgtRsvRead
  with_reducible repeat' first
    | assumption | refine State.wr_keeps ?_ | refine State.emit_keeps ?_ | refine State.badAccess_keeps ?_
    | refine nextKeeps.next ?_ | dsimp only | refine Keeps.ite ?_ ?_
    | fail_if_no_progress (refine Keeps.unfold ?_; dsimp only; refine Keeps.fold ?_)

theorem State.msixWrite_keeps {s0 s : State} {a1 : ℕ} {a2 : ℕ} {a3 : ℕ} {a4 : Word} {a5 : Word} (k : Keeps s0 s) :
    Keeps s0 (State.msixWrite s a1 a2 a3 a4 a5) := by
  unfold State.msixWrite
  with_reducible repeat' first
    | assumption | refine State.msix_keeps ?_ | refine State.setPba_keeps ?_ | dsimp only | refine Keeps.ite ?_ ?_
    | fail_if_no_progress (refine Keeps.unfold ?_; dsimp only; refine Keeps.fold ?_)

theorem execBadAccess_keeps {s0 s : State} {a0 : ℕ} {a1 : ℕ} {a2 : ℕ} {a3 : Bool} (k : Keeps s0 s) :
    nextKeeps s0 (execBadAccess a0 a1 a2 a3 s) := by
  unfold execBadAccess
  with_reducible repeat' first
    | assumption | refine State.emit_keeps ?_ | refine State.unsupportedAccess_keeps ?_
    | refine State.badAccess_keeps ?_ | refine nextKeeps.next ?_ | dsimp only | refine Keeps.ite ?_ ?_ | split

theorem State.frkGo_keeps {s0 s : State} (k : Keeps s0 s) : Keeps s0 s.frkGo := by
  unfold State.frkGo
  dsimp only
  split
  · exact State.after_keeps k (fun _ h => execBind_keeps h)
  · exact State.after_keeps k (fun _ h => execTimeref_keeps h)
  · exact State.after_keeps k (fun _ h => execReadRecord_keeps h)
  · exact State.after_keeps k (fun _ h => execReadInfo_keeps h)
  · exact State.after_keeps k (fun _ h => execReadLog_keeps h)
  · exact State.frkCommand_keeps k (fun _ h => h.ignore)


theorem State.nvmeCfg_keeps {s0 s : State} {a1 : ℕ} {a2 : Word} (k : Keeps s0 s) :
    Keeps s0 (State.nvmeCfg s a1 a2) := by
  unfold State.nvmeCfg
  with_reducible repeat' first
    | assumption | refine State.setReg_keeps ?_ | refine State.nvmeDisable_keeps ?_ | refine Keeps.ite ?_ ?_

theorem State.chCtrl_keeps {s0 s : State} {a1 : ℕ} {a2 : Word} (k : Keeps s0 s) :
    Keeps s0 (State.chCtrl s a1 a2) := by
  unfold State.chCtrl
  with_reducible repeat' first
    | assumption | refine State.chStart_keeps ?_ | refine State.chKick_keeps ?_ | refine State.chAbort_keeps ?_
    | refine State.chHaltBit_keeps ?_ | dsimp only | refine Keeps.ite ?_ ?_

theorem State.opWriteDevice_keeps {s0 s : State} {a1 : Reg} {a2 : ℕ} {a3 : Word} (k : Keeps s0 s) :
    optKeeps s0 (State.opWriteDevice s a1 a2 a3) := by
  unfold State.opWriteDevice
  with_reducible repeat' first
    | assumption | refine State.chCtrl_keeps ?_ | refine State.chCfg_keeps ?_ | refine State.setChan_keeps ?_
    | refine State.setReg_keeps ?_ | refine State.ringCfg_keeps ?_ | refine State.ringCons_keeps ?_
    | refine State.moorTgtWrite_keeps ?_ | refine State.after_keeps ?_ (fun _ _ => ?_)
    | refine execDeclareHeath_keeps ?_ | refine execDeclareMoor_keeps ?_ | refine execSysOpen_keeps ?_
    | refine State.peerGo_keeps ?_ | refine State.prioMapWrite_keeps ?_ | refine State.nvmeCfg_keeps ?_
    | refine State.leaseGo_keeps ?_ | refine State.frkGo_keeps ?_ | refine State.cfgsGo_keeps ?_
    | refine optKeeps.some ?_ | exact optKeeps.none | dsimp only | refine Keeps.ite ?_ ?_ | refine optKeeps.ite ?_ ?_

theorem State.opWritePart_keeps {s0 s : State} {a1 : Reg} {a2 : ℕ} {a3 : Word} (k : Keeps s0 s) :
    optKeeps s0 (State.opWritePart s a1 a2 a3) := by
  unfold State.opWritePart
  with_reducible repeat' first
    | assumption | refine State.after_keeps ?_ (fun _ _ => ?_) | refine execPlanLoad_keeps ?_
    | refine execUnload_keeps ?_ | refine State.quotaSoWrite_keeps ?_ | refine State.quotaWrite_keeps ?_
    | refine execSrtStart_keeps ?_ | refine execHaltReq_keeps ?_ | refine execSrtResume_keeps ?_
    | refine State.pinQuotaWrite_keeps ?_ | refine State.wr_keeps ?_ | refine State.dtuGo_keeps ?_
    | refine State.llcExec_keeps ?_ | refine State.strmCfg_keeps ?_ | refine State.rangeWrite_keeps ?_
    | refine State.watchCfg_keeps ?_ | refine State.progCfg_keeps ?_ | refine State.walkCfg_keeps ?_
    | refine State.irqMap_keeps ?_ | refine State.crrGo_keeps ?_ | refine State.partReset_keeps ?_
    | refine State.dlsCons_keeps ?_ | refine optKeeps.some ?_ | exact optKeeps.none | dsimp only
    | refine Keeps.ite ?_ ?_ | refine optKeeps.ite ?_ ?_

theorem State.regWrite_keeps {s0 s : State} {a1 : Reg} {a2 : ℕ} {a3 : Bool} {a4 : Word} {a5 : Word} (k : Keeps s0 s) :
    Keeps s0 (State.regWrite s a1 a2 a3 a4 a5) := by
  unfold State.regWrite
  with_reducible repeat' first
    | assumption | refine State.pinMaskWrite_keeps ?_ | refine State.resetCtrl_keeps ?_ | refine State.wr_keeps ?_
    | refine State.opWritePart_keeps ?_ | refine State.opWriteDevice_keeps ?_ | refine State.plainWrite_keeps ?_
    | dsimp only | refine Keeps.ite ?_ ?_ | refine Keeps.of_opt (by assumption) ?_ | refine optKeeps.orElse ?_ ?_
    | split

theorem State.applyItem_keeps {s0 s : State} {a1 : CfgItem} (k : Keeps s0 s) :
    Keeps s0 (State.applyItem s a1) := by
  unfold State.applyItem
  with_reducible repeat' first
    | assumption | refine State.regWrite_keeps ?_ | refine State.wr_keeps ?_ | refine State.wrb_keeps ?_
    | refine State.setReg_keeps ?_ | refine foldl_keeps ?_ (fun _ _ _ => ?_) | dsimp only | refine Keeps.ite ?_ ?_
    | split

theorem execConfigApply_keeps {s0 s : State}  (k : Keeps s0 s) :
    nextKeeps s0 (execConfigApply s) := by
  unfold execConfigApply
  with_reducible repeat' first
    | assumption | refine State.wrb_keeps ?_ | refine State.setReg_keeps ?_ | refine State.wr_keeps ?_
    | refine State.applyItem_keeps ?_ | refine State.setPhase_keeps ?_ | refine nextKeeps.next ?_
    | refine foldl_keeps ?_ (fun _ _ _ => ?_) | dsimp only | refine Keeps.ite ?_ ?_
    | fail_if_no_progress (refine Keeps.unfold ?_; dsimp only; refine Keeps.fold ?_) | split

theorem State.slotWrite_keeps {s0 s : State} {a1 : Reg} {a2 : ℕ} {a3 : Bool} {a4 : ℕ} {a5 : Word} {a6 : Word} (k : Keeps s0 s) :
    Keeps s0 (State.slotWrite s a1 a2 a3 a4 a5 a6) := by
  unfold State.slotWrite
  with_reducible repeat' first
    | assumption | refine State.sat_keeps ?_ | refine State.wr_keeps ?_ | refine State.flag_keeps ?_
    | refine State.regWrite_keeps ?_ | dsimp only | refine Keeps.ite ?_ ?_

theorem State.barWrite_keeps {s0 s : State} {a1 : ℕ} {a2 : ℕ} {a3 : ℕ} {a4 : Word} (k : Keeps s0 s) :
    Keeps s0 (State.barWrite s a1 a2 a3 a4) := by
  unfold State.barWrite
  with_reducible repeat' first
    | assumption | refine State.unsupportedAccess_keeps ?_ | refine State.badAccess_keeps ?_
    | refine State.msixWrite_keeps ?_ | refine State.slotWrite_keeps ?_ | dsimp only | refine Keeps.ite ?_ ?_ | split

theorem execRegisterWrite_keeps {s0 s : State} {a0 : ℕ} {a1 : RegWrite} (k : Keeps s0 s) :
    nextKeeps s0 (execRegisterWrite a0 a1 s) := by
  unfold execRegisterWrite
  with_reducible repeat' first
    | assumption | refine State.barWrite_keeps ?_ | refine State.cfgWrite_keeps ?_ | refine nextKeeps.next ?_
    | refine Keeps.ite ?_ ?_ | split

/-! ### Tick -/

theorem State.tick_keeps {s0 s : State}  (k : Keeps s0 s) :
    Keeps s0 (State.tick s) := by
  unfold State.tick
  with_reducible repeat' first
    | assumption | refine State.bump_keeps ?_ | refine State.hintGranules_keeps ?_
    | refine foldl_keeps ?_ (fun _ _ _ => ?_) | dsimp only | refine Keeps.ite ?_ ?_
    | fail_if_no_progress (refine Keeps.unfold ?_; dsimp only; refine Keeps.fold ?_)

end Sys2Proof.Machine
end

