-- ==== Sys2Proof/Laws/KeepsExec.lean ====
section
/-! SUPPORT. What every command keeps: memory in its canonical form, Frank sound, the variant and the queue. -/

namespace Sys2Proof.Machine

/-- A command that answers a next state keeps what `Keeps` says, whatever its operands. -/
theorem exec_keeps {s0 s : State} (c : Instr) (k : Keeps s0 s) : nextKeeps s0 (exec c s) := by
  cases c with
  | alu => exact execAlu_keeps k
  | alui => exact execAlui_keeps k
  | movi => exact execMovi_keeps k
  | movhi => exact execMovhi_keeps k
  | mul => exact execMul_keeps k
  | div => exact execDiv_keeps k
  | cmp => exact execCmp_keeps k
  | cmpi => exact execCmpi_keeps k
  | pred => exact execPred_keeps k
  | bra => exact execBra_keeps k
  | call => exact execCall_keeps k
  | jr => exact execJr_keeps k
  | callr => exact execCallr_keeps k
  | sload => exact execSload_keeps k
  | sstore => exact execSstore_keeps k
  | load => exact execLoad_keeps k
  | store => exact execStore_keeps k
  | amo => exact execAmo_keeps k
  | csrr => exact execCsrr_keeps k
  | csrw => exact execCsrw_keeps k
  | tld => exact execTld_keeps k
  | tst => exact execTst_keeps k
  | tmov => exact execTmov_keeps k
  | tzero => exact execTzero_keeps k
  | tset => exact execTset_keeps k
  | tget => exact execTget_keeps k
  | tldd => exact execTldd_keeps k
  | tstd => exact execTstd_keeps k
  | moveIntake => exact execMoveIntake_keeps k
  | moveCopy => exact execMoveCopy_keeps k
  | moveSend => exact execMoveSend_keeps k
  | press => exact execPress_keeps k
  | unpress => exact execUnpress_keeps k
  | spill => exact execSpill_keeps k
  | fetch => exact execFetch_keeps k
  | fetchRecall => exact execFetchRecall_keeps k
  | teddOp => exact execTeddOp_keeps k
  | teddRegrow => exact execTeddRegrow_keeps k
  | layout => exact execLayout_keeps k
  | deliver => exact execDeliver_keeps k
  | deliverLattice => exact execDeliverLattice_keeps k
  | notify => exact execNotify_keeps k
  | tileDrop => exact execTileDrop_keeps k
  | tileRelabel => exact execTileRelabel_keeps k
  | rstage => exact execRstage_keeps k
  | eadv => exact execEadv_keeps k
  | wait => exact execWait_keeps k
  | signal => exact execSignal_keeps k
  | sread => exact execSread_keeps k
  | fence => exact execFence_keeps k
  | halt => exact execHalt_keeps k
  | brk => exact execBrk_keeps k
  | tret => exact execTret_keeps k
  | stalledIssueProceeds => exact execStalledIssueProceeds_keeps k
  | issueTimeout => exact execIssueTimeout_keeps k
  | deferredDispCheck => exact execDeferredDispCheck_keeps k
  | asyncStoreFail => exact execAsyncStoreFail_keeps k
  | gateTimeout => exact execGateTimeout_keeps k
  | waitTimeout => exact execWaitTimeout_keeps k
  | syncObjectUpdate => exact execSyncObjectUpdate_keeps k
  | doorbellSet => exact execDoorbellSet_keeps k
  | doorbellAdd => exact execDoorbellAdd_keeps k
  | doorbellMax => exact execDoorbellMax_keeps k
  | doorbellOr => exact execDoorbellOr_keeps k
  | badWrite => exact execBadWrite_keeps k
  | srtStart => exact execSrtStart_keeps k
  | haltReq => exact execHaltReq_keeps k
  | srtResume => exact execSrtResume_keeps k
  | srtDbgRead => exact execSrtDbgRead_keeps k
  | stallRetry => exact execStallRetry_keeps k
  | intakeCommit => exact execIntakeCommit_keeps k
  | intakeWriteFault => exact execIntakeWriteFault_keeps k
  | migrationReserve => exact execMigrationReserve_keeps k
  | migrationCommit => exact execMigrationCommit_keeps k
  | reservationWaitTimeout => exact execReservationWaitTimeout_keeps k
  | watermarkDemotion => exact execWatermarkDemotion_keeps k
  | regrowStart => exact execRegrowStart_keeps k
  | regrowCommit => exact execRegrowCommit_keeps k
  | engineUnitFault => exact execEngineUnitFault_keeps k
  | workItemEnd => exact execWorkItemEnd_keeps k
  | carrierItemEnd => exact execCarrierItemEnd_keeps k
  | itemArrival => exact execItemArrival_keeps k
  | descriptorRead => exact execDescriptorRead_keeps k
  | channelStallTimeout => exact execChannelStallTimeout_keeps k
  | channelStart => exact execChannelStart_keeps k
  | kick => exact execKick_keeps k
  | abort => exact execAbort_keeps k
  | channelResume => exact execChannelResume_keeps k
  | skip => exact execSkip_keeps k
  | clear => exact execClear_keeps k
  | ringEnable => exact execRingEnable_keeps k
  | ringConsWrite => exact execRingConsWrite_keeps k
  | ringCoalesceTimeout => exact execRingCoalesceTimeout_keeps k
  | cplReceived => exact execCplReceived_keeps k
  | completionTimeout => exact execCompletionTimeout_keeps k
  | tagQuarantineEnd => exact execTagQuarantineEnd_keeps k
  | noticeRingRetry => exact execNoticeRingRetry_keeps k
  | noticeReservation => exact execNoticeReservation_keeps k
  | writeBackHeader => exact execWriteBackHeader_keeps k
  | writeBackData => exact execWriteBackData_keeps k
  | planLoad => exact execPlanLoad_keeps k
  | planLoadEnd => exact execPlanLoadEnd_keeps k
  | planLoadTimeout => exact execPlanLoadTimeout_keeps k
  | unload => exact execUnload_keeps k
  | unloadComplete => exact execUnloadComplete_keeps k
  | quotaWrite => exact execQuotaWrite_keeps k
  | partQuotaSoWrite => exact execPartQuotaSoWrite_keeps k
  | dtuPinQuotaWrite => exact execDtuPinQuotaWrite_keeps k
  | map => exact execMap_keeps k
  | unmap => exact execUnmap_keeps k
  | protect => exact execProtect_keeps k
  | hint => exact execHint_keeps k
  | migrate => exact execMigrate_keeps k
  | migrateComplete => exact execMigrateComplete_keeps k
  | pinXlate => exact execPinXlate_keeps k
  | unpinXlate => exact execUnpinXlate_keeps k
  | tierMoorTgtWrite => exact execTierMoorTgtWrite_keeps k
  | streamEnableWindow => exact execStreamEnableWindow_keeps k
  | streamEnablePrefetch => exact execStreamEnablePrefetch_keeps k
  | streamDisable => exact execStreamDisable_keeps k
  | windowReconcile => exact execWindowReconcile_keeps k
  | prefetchFire => exact execPrefetchFire_keeps k
  | heathResponse => exact execHeathResponse_keeps k
  | heathTimeout => exact execHeathTimeout_keeps k
  | moorCompletion => exact execMoorCompletion_keeps k
  | moorTimeout => exact execMoorTimeout_keeps k
  | tierPortDown => exact execTierPortDown_keeps k
  | tierPortUp => exact execTierPortUp_keeps k
  | tierLossTimeout => exact execTierLossTimeout_keeps k
  | declareHeath => exact execDeclareHeath_keeps k
  | declareMoor => exact execDeclareMoor_keeps k
  | heathMediaEvent => exact execHeathMediaEvent_keeps k
  | llcFlush => exact execLlcFlush_keeps k
  | llcEvict => exact execLlcEvict_keeps k
  | llcPin => exact execLlcPin_keeps k
  | llcUnpin => exact execLlcUnpin_keeps k
  | llcPinMaskWrite => exact execLlcPinMaskWrite_keeps k
  | scrubRead => exact execScrubRead_keeps k
  | llcScrub => exact execLlcScrub_keeps k
  | zeroRange => exact execZeroRange_keeps k
  | hbmStackFailure => exact execHbmStackFailure_keeps k
  | fenceTimeout => exact execFenceTimeout_keeps k
  | escalationTimeout => exact execEscalationTimeout_keeps k
  | partReset => exact execPartReset_keeps k
  | partResetComplete => exact execPartResetComplete_keeps k
  | quiescenceTimeout => exact execQuiescenceTimeout_keeps k
  | grant => exact execGrant_keeps k
  | revoke => exact execRevoke_keeps k
  | query => exact execQuery_keeps k
  | assignCores => exact execAssignCores_keeps k
  | unassignCores => exact execUnassignCores_keeps k
  | revocationComplete => exact execRevocationComplete_keeps k
  | contextReclaim => exact execContextReclaim_keeps k
  | soRangeWrite => exact execSoRangeWrite_keeps k
  | crrConnRangeWrite => exact execCrrConnRangeWrite_keeps k
  | watchArm => exact execWatchArm_keeps k
  | trackerEnable => exact execTrackerEnable_keeps k
  | walkerEnable => exact execWalkerEnable_keeps k
  | walkStart => exact execWalkStart_keeps k
  | walkerGroupIssue => exact execWalkerGroupIssue_keeps k
  | aging => exact execAging_keeps k
  | sysOpen => exact execSysOpen_keeps k
  | register => exact execRegister_keeps k
  | probeResult => exact execProbeResult_keeps k
  | unregister => exact execUnregister_keeps k
  | bar4Read => exact execBar4Read_keeps k
  | bar4Write => exact execBar4Write_keeps k
  | busMasterClear => exact execBusMasterClear_keeps k
  | busMasterSet => exact execBusMasterSet_keeps k
  | vfFlr => exact execVfFlr_keeps k
  | pfFlr => exact execPfFlr_keeps k
  | portFunctionFlr => exact execPortFunctionFlr_keeps k
  | d3hotToD0 => exact execD3hotToD0_keeps k
  | hostLinkDown => exact execHostLinkDown_keeps k
  | linkUp => exact execLinkUp_keeps k
  | translationCompletion => exact execTranslationCompletion_keeps k
  | invalidationRequest => exact execInvalidationRequest_keeps k
  | pageRequestResponse => exact execPageRequestResponse_keeps k
  | priTimeout => exact execPriTimeout_keeps k
  | ideCheckFail => exact execIdeCheckFail_keeps k
  | kSetGo => exact execKSetGo_keeps k
  | connOpenListen => exact execConnOpenListen_keeps k
  | connOpen => exact execConnOpen_keeps k
  | connClose => exact execConnClose_keeps k
  | openRepeat => exact execOpenRepeat_keeps k
  | openTimeout => exact execOpenTimeout_keeps k
  | openReceived => exact execOpenReceived_keeps k
  | openAckReceived => exact execOpenAckReceived_keeps k
  | closeReceived => exact execCloseReceived_keeps k
  | closeAckReceived => exact execCloseAckReceived_keeps k
  | closeRepeat => exact execCloseRepeat_keeps k
  | dataReceived => exact execDataReceived_keeps k
  | ackReceived => exact execAckReceived_keeps k
  | sackReceived => exact execSackReceived_keeps k
  | ackTimer => exact execAckTimer_keeps k
  | retransmitTimeout => exact execRetransmitTimeout_keeps k
  | nopKeepalive => exact execNopKeepalive_keeps k
  | responseTimeout => exact execResponseTimeout_keeps k
  | put => exact execPut_keeps k
  | held => exact execHeld_keeps k
  | confirm => exact execConfirm_keeps k
  | recallTile => exact execRecall_keeps k
  | resp => exact execResp_keeps k
  | ownerRead => exact execOwnerRead_keeps k
  | ownerWrite => exact execOwnerWrite_keeps k
  | blockRead => exact execBlockRead_keeps k
  | blockWrite => exact execBlockWrite_keeps k
  | blockZero => exact execBlockZero_keeps k
  | nop => exact execNop_keeps k
  | retrain => exact execRetrain_keeps k
  | ethLinkDown => exact execEthLinkDown_keeps k
  | prioMapWrite => exact execPrioMapWrite_keeps k
  | pfcFrame => exact execPfcFrame_keeps k
  | pfcWatchdog => exact execPfcWatchdog_keeps k
  | pfcStormRecovery => exact execPfcStormRecovery_keeps k
  | cnp => exact execCnp_keeps k
  | rateRecovery => exact execRateRecovery_keeps k
  | nvmeSetEnable => exact execNvmeSetEnable_keeps k
  | nvmeSetDisable => exact execNvmeSetDisable_keeps k
  | qpError => exact execQpError_keeps k
  | nvmeReconnect => exact execNvmeReconnect_keeps k
  | keepAlive => exact execKeepAlive_keeps k
  | ptpEventMessage => exact execPtpEventMessage_keeps k
  | holdover => exact execHoldover_keeps k
  | tallyTick => exact execTallyTick_keeps k
  | tallyAckTimeout => exact execTallyAckTimeout_keeps k
  | tally => exact execTally_keeps k
  | tallyGap => exact execTallyGap_keeps k
  | bind => exact execBind_keeps k
  | timeref => exact execTimeref_keeps k
  | readRecord => exact execReadRecord_keeps k
  | readInfo => exact execReadInfo_keeps k
  | readLog => exact execReadLog_keeps k
  | sampleInterval => exact execSampleInterval_keeps k
  | impulse => exact execImpulse_keeps k
  | snapshot => exact execSnapshot_keeps k
  | periodicBankWrite => exact execPeriodicBankWrite_keeps k
  | frankPowerUp => exact execFrankPowerUp_keeps k
  | frankPwrfailFall => exact execFrankPwrfailFall_keeps k
  | pwrfailBankRepeat => exact execPwrfailBankRepeat_keeps k
  | frankRecordsResume => exact execFrankRecordsResume_keeps k
  | i3cPrivateWrite => exact execI3cPrivateWrite_keeps k
  | i3cPrivateRead => exact execI3cPrivateRead_keeps k
  | i3cCcc => exact execI3cCcc_keeps k
  | i3cTimeout => exact execI3cTimeout_keeps k
  | pwrokRise => exact execPwrokRise_keeps k
  | pwrokFall => exact execPwrokFall_keeps k
  | strapSample => exact execStrapSample_keeps k
  | pllLockTimeout => exact execPllLockTimeout_keeps k
  | firmwareStart => exact execFirmwareStart_keeps k
  | recoveryImage => exact execRecoveryImage_keeps k
  | configApply => exact execConfigApply_keeps k
  | diesDone => exact execDiesDone_keeps k
  | zeroPassDone => exact execZeroPassDone_keeps k
  | linksDone => exact execLinksDone_keeps k
  | hostPerstDeassert => exact execHostPerstDeassert_keeps k
  | perstAssert => exact execPerstAssert_keeps k
  | hotReset => exact execHotReset_keeps k
  | cold => exact execCold_keeps k
  | warm => exact execWarm_keeps k
  | mcWatchdog => exact execMcWatchdog_keeps k
  | pldmResetRequest => exact execPldmResetRequest_keeps k
  | firmwareUpdate => exact execFirmwareUpdate_keeps k
  | cfgsRead => exact execCfgsRead_keeps k
  | cfgsWrite => exact execCfgsWrite_keeps k
  | cfgsClear => exact execCfgsClear_keeps k
  | pwrfailFall => exact execPwrfailFall_keeps k
  | pwrfailRise => exact execPwrfailRise_keeps k
  | pwrbrkFall => exact execPwrbrkFall_keeps k
  | pwrbrkRise => exact execPwrbrkRise_keeps k
  | throttleTick => exact execThrottleTick_keeps k
  | sensorSample => exact execSensorSample_keeps k
  | clockLoss => exact execClockLoss_keeps k
  | getVersion => exact execGetVersion_keeps k
  | getCapabilities => exact execGetCapabilities_keeps k
  | negotiateAlgorithms => exact execNegotiateAlgorithms_keeps k
  | getCertificate => exact execGetCertificate_keeps k
  | challenge => exact execChallenge_keeps k
  | getMeasurements => exact execGetMeasurements_keeps k
  | keyExchange => exact execKeyExchange_keeps k
  | debugUnlock => exact execDebugUnlock_keeps k
  | mgtRsvRead => exact execMgtRsvRead_keeps k
  | registerWrite => exact execRegisterWrite_keeps k
  | badAccess => exact execBadAccess_keeps k
  | meshLinkFailure => exact execMeshLinkFailure_keeps k
  | postLinkFailure => exact execPostLinkFailure_keeps k
  | dieParityError => exact execDieParityError_keeps k
  | flrTimeout => exact execFlrTimeout_keeps k
  | walkerDisable => exact execWalkerDisable_keeps k
  | trackerDisable => exact execTrackerDisable_keeps k
  | frankLinkDown => exact execFrankLinkDown_keeps k
  | frankLinkUp => exact execFrankLinkUp_keeps k
  | frkCmdTimeout => exact execFrkCmdTimeout_keeps k
  | ethLinkUp => exact execEthLinkUp_keeps k
  | localAckTimeout => exact execLocalAckTimeout_keeps k
  | rdmaRead => exact execRdmaRead_keeps k
  | rdmaWrite => exact execRdmaWrite_keeps k
  | vfEnable => exact execVfEnable_keeps k
  | vddFrkLoss => exact execVddFrkLoss_keeps k
  | p0PowerLoss => exact execP0PowerLoss_keeps k
  | finish => exact execFinish_keeps k
  | getDigests => exact execGetDigests_keeps k
  | heartbeat => exact execHeartbeat_keeps k
  | keyUpdate => exact execKeyUpdate_keeps k
  | endSession => exact execEndSession_keeps k
  | doeDiscovery => exact execDoeDiscovery_keeps k
  | ideKmKeyProg => exact execIdeKmKeyProg_keeps k

end Sys2Proof.Machine
end

