-- ==== Sys2Proof/WellFormed.lean ====
section
/-! DEFINITION. Which commands are well formed: operands a sender can put into the command. A command that is not has a
meaning all the same; the statements about effects ask for these checks where they need one. -/

namespace Sys2Proof

open Sys2Proof.Machine

/-- A function of the endpoint: the PF or a VF (R424). -/
def fnOk (fn : Nat) : Bool := decide (fn ≤ 31)

/-- A register write reaches BAR0 of a function in 4 or 8 bytes, or its configuration space (R638, R641). -/
def writeOk (fn : Nat) : RegWrite → Bool
  | .bar0 off size _ => fnOk fn && decide (off < 67108864) && decide (1 ≤ size) && decide (size ≤ 8)
  | .config _ => fnOk fn || (decide (64 ≤ fn) && decide (fn < 72))

/-- The checks of a command. -/
def Instr.wf : Instr → Bool
  | .alu _ _ _ => true
  | .alui _ _ _ => true
  | .movi _ _ _ => true
  | .movhi _ _ _ => true
  | .mul _ _ _ => true
  | .div _ _ _ => true
  | .cmp _ _ _ => true
  | .cmpi _ _ _ => true
  | .pred _ _ _ => true
  | .bra _ _ _ => true
  | .call _ _ _ => true
  | .jr _ _ _ => true
  | .callr _ _ _ => true
  | .sload _ _ _ => true
  | .sstore _ _ _ => true
  | .load _ _ _ => true
  | .store _ _ _ => true
  | .amo _ _ _ => true
  | .csrr _ _ _ => true
  | .csrw _ _ _ => true
  | .tld _ _ _ => true
  | .tst _ _ _ => true
  | .tmov _ _ _ => true
  | .tzero _ _ _ => true
  | .tset _ _ _ => true
  | .tget _ _ _ => true
  | .tldd _ _ _ => true
  | .tstd _ _ _ => true
  | .moveIntake _ _ _ => true
  | .moveCopy _ _ _ => true
  | .moveSend _ _ _ => true
  | .press _ _ _ => true
  | .unpress _ _ _ => true
  | .spill _ _ _ => true
  | .fetch _ _ _ => true
  | .fetchRecall _ _ _ => true
  | .teddOp _ _ _ => true
  | .teddRegrow _ _ _ => true
  | .layout _ _ _ => true
  | .deliver _ _ _ => true
  | .deliverLattice _ _ _ => true
  | .notify _ _ _ => true
  | .tileDrop _ _ _ => true
  | .tileRelabel _ _ _ => true
  | .rstage _ _ _ => true
  | .eadv _ _ _ => true
  | .wait _ _ _ => true
  | .signal _ _ _ => true
  | .sread _ _ _ => true
  | .fence _ _ _ => true
  | .halt _ _ _ => true
  | .brk _ _ _ => true
  | .tret _ _ _ => true
  | .stalledIssueProceeds _ => true
  | .issueTimeout _ => true
  | .deferredDispCheck _ => true
  | .asyncStoreFail _ => true
  | .gateTimeout _ => true
  | .waitTimeout _ => true
  | .syncObjectUpdate _ _ _ => true
  | .doorbellSet fn _ _ _ => fnOk fn
  | .doorbellAdd fn _ _ _ => fnOk fn
  | .doorbellMax fn _ _ _ => fnOk fn
  | .doorbellOr fn _ _ _ => fnOk fn
  | .badWrite fn _ bytes => fnOk fn && decide (bytes ≤ 4096)
  | .srtStart _ => true
  | .haltReq _ => true
  | .srtResume _ => true
  | .srtDbgRead fn _ => fnOk fn
  | .stallRetry _ _ => true
  | .intakeCommit _ => true
  | .intakeWriteFault _ => true
  | .migrationReserve _ => true
  | .migrationCommit _ => true
  | .reservationWaitTimeout _ => true
  | .watermarkDemotion _ _ => true
  | .regrowStart _ => true
  | .regrowCommit _ => true
  | .engineUnitFault _ _ => true
  | .workItemEnd _ => true
  | .carrierItemEnd _ => true
  | .itemArrival _ => true
  | .descriptorRead _ => true
  | .channelStallTimeout _ _ => true
  | .channelStart fn _ => fnOk fn
  | .kick fn _ => fnOk fn
  | .abort fn _ => fnOk fn
  | .channelResume fn _ => fnOk fn
  | .skip fn _ => fnOk fn
  | .clear fn _ => fnOk fn
  | .ringEnable fn _ _ => fnOk fn
  | .ringConsWrite fn _ _ => fnOk fn
  | .ringCoalesceTimeout _ => true
  | .cplReceived _ _ _ data => decide (data.length ≤ 4096)
  | .completionTimeout _ _ => true
  | .tagQuarantineEnd _ _ => true
  | .noticeRingRetry _ => true
  | .noticeReservation _ => true
  | .writeBackHeader _ _ bytes => bytes.length == 64
  | .writeBackData _ _ offset bytes => decide (offset.toNat + bytes.length ≤ 131072)
  | .planLoad _ => true
  | .planLoadEnd _ => true
  | .planLoadTimeout _ => true
  | .unload _ => true
  | .unloadComplete _ => true
  | .quotaWrite _ _ _ => true
  | .partQuotaSoWrite _ _ => true
  | .dtuPinQuotaWrite _ _ => true
  | .map _ _ _ _ => true
  | .unmap _ _ _ _ => true
  | .protect _ _ _ _ => true
  | .hint _ _ _ _ => true
  | .migrate _ _ _ _ => true
  | .migrateComplete _ => true
  | .pinXlate _ _ _ _ => true
  | .unpinXlate _ _ _ _ => true
  | .tierMoorTgtWrite _ _ => true
  | .streamEnableWindow _ _ => true
  | .streamEnablePrefetch _ _ => true
  | .streamDisable _ _ => true
  | .windowReconcile _ => true
  | .prefetchFire _ => true
  | .heathResponse _ _ => true
  | .heathTimeout _ _ => true
  | .moorCompletion _ _ _ => true
  | .moorTimeout _ _ => true
  | .tierPortDown _ _ => true
  | .tierPortUp _ _ => true
  | .tierLossTimeout _ _ => true
  | .declareHeath _ => true
  | .declareMoor _ => true
  | .heathMediaEvent _ => true
  | .llcFlush _ _ _ _ => true
  | .llcEvict _ _ _ _ => true
  | .llcPin _ _ _ _ => true
  | .llcUnpin _ _ _ _ => true
  | .llcPinMaskWrite _ _ => true
  | .scrubRead _ _ _ _ => true
  | .llcScrub _ _ _ _ => true
  | .zeroRange _ => true
  | .hbmStackFailure _ => true
  | .fenceTimeout _ => true
  | .escalationTimeout => true
  | .partReset _ => true
  | .partResetComplete _ => true
  | .quiescenceTimeout _ _ _ => true
  | .grant _ => true
  | .revoke _ => true
  | .query _ => true
  | .assignCores _ _ => true
  | .unassignCores _ _ => true
  | .revocationComplete _ _ => true
  | .contextReclaim _ _ => true
  | .soRangeWrite _ _ _ => true
  | .crrConnRangeWrite _ _ _ => true
  | .watchArm _ _ => true
  | .trackerEnable _ _ => true
  | .walkerEnable _ _ _ => true
  | .walkStart _ => true
  | .walkerGroupIssue _ => true
  | .aging _ => true
  | .sysOpen => true
  | .register words => words.length == 6
  | .probeResult _ => true
  | .unregister _ => true
  | .bar4Read _ _ bytes => decide (1 ≤ bytes) && decide (bytes ≤ 4096)
  | .bar4Write _ _ bytes => decide (1 ≤ bytes.length) && decide (bytes.length ≤ 4096)
  | .busMasterClear _ => true
  | .busMasterSet _ => true
  | .vfFlr _ => true
  | .pfFlr => true
  | .portFunctionFlr _ => true
  | .d3hotToD0 _ => true
  | .hostLinkDown _ => true
  | .linkUp _ _ _ _ _ => true
  | .translationCompletion _ page target size _ _ => page.toNat % 4096 == 0 && target.toNat % 4096 == 0 && decide (4096 ≤ size)
  | .invalidationRequest _ page size => page.toNat % 4096 == 0 && decide (4096 ≤ size)
  | .pageRequestResponse _ page _ => page.toNat % 4096 == 0
  | .priTimeout _ page => page.toNat % 4096 == 0
  | .ideCheckFail _ _ => true
  | .kSetGo _ _ => true
  | .connOpenListen _ words => words.length == 8
  | .connOpen _ words => words.length == 8
  | .connClose _ _ => true
  | .openRepeat _ => true
  | .openTimeout _ => true
  | .openReceived _ _ => true
  | .openAckReceived _ _ => true
  | .closeReceived _ _ => true
  | .closeAckReceived _ _ => true
  | .closeRepeat _ => true
  | .dataReceived _ _ => true
  | .ackReceived _ _ => true
  | .sackReceived _ _ => true
  | .ackTimer _ => true
  | .retransmitTimeout _ => true
  | .nopKeepalive _ => true
  | .responseTimeout _ _ => true
  | .put _ _ => true
  | .held _ _ => true
  | .confirm _ _ => true
  | .recallTile _ _ => true
  | .resp _ _ => true
  | .ownerRead _ _ => true
  | .ownerWrite _ _ => true
  | .blockRead _ _ => true
  | .blockWrite _ _ => true
  | .blockZero _ _ => true
  | .nop _ _ => true
  | .retrain _ _ => true
  | .ethLinkDown _ => true
  | .prioMapWrite _ _ => true
  | .pfcFrame _ _ _ => true
  | .pfcWatchdog _ _ => true
  | .pfcStormRecovery _ _ => true
  | .cnp _ => true
  | .rateRecovery _ => true
  | .nvmeSetEnable _ _ _ => true
  | .nvmeSetDisable _ => true
  | .qpError _ => true
  | .nvmeReconnect _ _ => true
  | .keepAlive _ _ => true
  | .ptpEventMessage _ _ => true
  | .holdover => true
  | .tallyTick => true
  | .tallyAckTimeout => true
  | .tally frame => decide (frame.length ≤ 4096)
  | .tallyGap => true
  | .bind partition _ => decide (partition < 256)
  | .timeref _ => true
  | .readRecord _ => true
  | .readInfo _ => true
  | .readLog _ => true
  | .sampleInterval rails _ _ => rails.length == 10
  | .impulse => true
  | .snapshot _ => true
  | .periodicBankWrite => true
  | .frankPowerUp _ => true
  | .frankPwrfailFall => true
  | .pwrfailBankRepeat => true
  | .frankRecordsResume => true
  | .i3cPrivateWrite bytes => decide (bytes.length ≤ 256)
  | .i3cPrivateRead count => decide (count ≤ 4096)
  | .i3cCcc _ => true
  | .i3cTimeout => true
  | .pwrokRise => true
  | .pwrokFall => true
  | .strapSample _ _ => true
  | .pllLockTimeout => true
  | .firmwareStart _ _ _ => true
  | .recoveryImage _ _ => true
  | .configApply => true
  | .diesDone _ _ _ => true
  | .zeroPassDone _ => true
  | .linksDone heath => heath.all (fun h => decide (h.port < 8) && decide (h.decoders.length ≤ 8))
  | .hostPerstDeassert => true
  | .perstAssert => true
  | .hotReset => true
  | .cold _ => true
  | .warm _ => true
  | .mcWatchdog => true
  | .pldmResetRequest => true
  | .firmwareUpdate _ _ => true
  | .cfgsRead _ _ => true
  | .cfgsWrite _ _ => true
  | .cfgsClear _ _ => true
  | .pwrfailFall => true
  | .pwrfailRise => true
  | .pwrbrkFall => true
  | .pwrbrkRise => true
  | .throttleTick => true
  | .sensorSample dies hbm _ rails => dies.length == 8 && hbm.length == 8 && rails.length == 10
  | .clockLoss _ => true
  | .getVersion => true
  | .getCapabilities => true
  | .negotiateAlgorithms _ => true
  | .getCertificate _ => true
  | .challenge _ => true
  | .getMeasurements _ _ => true
  | .keyExchange _ => true
  | .debugUnlock _ => true
  | .mgtRsvRead => true
  | .registerWrite fn write => writeOk fn write
  | .badAccess fn off size _ => fnOk fn && decide (off < 67108864) && decide (1 ≤ size) && decide (size ≤ 64)
  | .meshLinkFailure _ _ => true
  | .postLinkFailure _ => true
  | .dieParityError _ => true
  | .flrTimeout _ => true
  | .walkerDisable _ _ => true
  | .trackerDisable _ _ => true
  | .frankLinkDown => true
  | .frankLinkUp => true
  | .frkCmdTimeout => true
  | .ethLinkUp _ _ => true
  | .localAckTimeout _ => true
  | .rdmaRead _ offset length _ => decide (offset.toNat + length.toNat ≤ 131072)
  | .rdmaWrite _ offset data _ => decide (offset.toNat + data.length ≤ 131072)
  | .vfEnable _ _ => true
  | .vddFrkLoss _ => true
  | .p0PowerLoss => true
  | .finish _ => true
  | .getDigests => true
  | .heartbeat => true
  | .keyUpdate => true
  | .endSession => true
  | .doeDiscovery length _ => decide (1 ≤ length)
  | .ideKmKeyProg _ _ => true

end Sys2Proof
end

