-- ==== Sys2Proof/Tests/Slice0.lean ====
section
/-! SUPPORT. Tests: the well-formedness smoke, and for every statement the states and operands that meet its hypotheses, clause
by clause, with what the one command then does. Expected values are worked by hand from the rules the statements cite. -/

namespace Sys2Proof.Tests

open Sys2Proof.Machine Sys2Proof.Ulital

set_option Elab.async false

/-! ### Small states -/

/-- A device that is not held: every partition ACTIVE, every die online. -/
def up : State :=
  { State.reset.wr F.SYS_TOPOLOGY_MEADOW_ONLINE 0 15 with pins := { Pins.initial with pwrok := true, held := false } }

def rules : RuleSet := { gen := 0, sieve := [], baler := [], placer := [], recipes := [], lattice := [] }

/-- A small plan: four cores, one object of two 4 KiB tiles, 64 bytes of code. -/
def plan : Plan :=
  { format := 2, ulital := 2, policy := 0, epochs := 4, cores := 4, entryPc := 16, areaBase := 0, areaSize := 0
    imageAddr := 0, imageSize := 0, codeBase := 0, codeSize := 64, data := []
    objects := [{ index := 0, sizeCode := 0, cls := 0, lattice := none, tiles := 2, recordBase := 0 }]
    rules := rules, schedule := [], overrides := [], metaBase := 0, digest := 0 }

/-- Partition 0 has the plan. -/
def planned : State :=
  { up.wr F.PART_PLAN_STATUS_STATE 0 2 with plans := [(0, { PlanState.empty with plan := some plan })] }

/-- Core 2 of partition 0 runs at PC 0. -/
def ran : State := planned.setCoreState 2 coreRunning

/-- A handler is enabled at 0x20. -/
def handled : State := (ran.wr F.SRT_TRAP_VEC_EN 2 1).wr F.SRT_TRAP_VEC_ADDR 2 4

/-- A Ulital word: OPC, FUNC, and values at bit places. -/
def wd (opc fn : Nat) (l : List (Nat × Nat)) : Word :=
  BitVec.ofNat 64 (l.foldl (fun a e => a + e.2 * 2 ^ e.1) (opc * 2 ^ 58 + fn * 2 ^ 48))

/-- The outcome is a next state with a property. -/
def ok (r : Host.Outcome State Fault Refusal) (p : State → Bool) : Bool :=
  match r with
  | .next t => p t
  | _ => false

/-- Registers other than those listed read as before. -/
def sameRegs (s t : State) (l : List (Reg × Nat)) : Bool :=
  (s.regs ++ t.regs).all (fun e =>
    l.any (fun x => x.1.key x.2 == e.1) || Tab.find? s.regs e.1 == Tab.find? t.regs e.1)

/-- Nothing but registers differs. -/
def regsOnly (s t : State) : Bool := { t with regs := s.regs } == s

/-- Core 2 moved on to the next word and retired, and no other register changed. -/
def done (s t : State) (l : List Reg) : Bool :=
  t.pc 2 == s.pc 2 + 8 && t.rd F.SRT_INSTRET_COUNT 2 == s.rd F.SRT_INSTRET_COUNT 2 + 1 &&
    sameRegs s t ((Reg.SRT_PC :: Reg.SRT_INSTRET :: l).map (fun r => (r, 2)))

/-! ### The machine -/

theorem test_front_command : (up.ask .hotReset).pending = [.hotReset] ∧
    ok (step (up.ask .hotReset)) (fun t => t == up.warmReset 3) := by decide +kernel

theorem test_idle_step : ran.pending = [] ∧ (∀ p, p < 32 → ran.preferred p = []) ∧ ran.pins.held = false ∧
    ok (step ran) (fun t => t.time == 1 && t.rd F.SRT_CYCLE_COUNT 2 == 2 && t.rd F.SRT_CYCLE_COUNT 3 == 0 &&
      sameRegs ran t [(Reg.SRT_CYCLE, 2)]) := by decide +kernel

theorem test_idle_held : State.reset.pending = [] ∧ (∀ p, p < 32 → State.reset.preferred p = []) ∧
    State.reset.pins.held = true ∧ ok (step State.reset) (fun t => t == State.reset) := by decide +kernel

/-! ### Scalar instructions -/

/-- g1 = 7, g2 = -2; p1 set. -/
def nums : State := ((handled.setG 2 1 7).setG 2 2 (0 - 2)).setP 2 1 true

theorem test_alu_sub : nums.runs 2 (wd 1 1 [(43, 3), (38, 1), (33, 2)]) .alu .none ∧
    ok (exec (.alu 2 (wd 1 1 [(43, 3), (38, 1), (33, 2)]) .none) nums) (fun t => t.g 2 3 == 9 && done nums t []) := by decide +kernel

theorem test_alu_clz : nums.runs 2 (wd 1 13 [(43, 3), (38, 1)]) .alu .none ∧
    ok (exec (.alu 2 (wd 1 13 [(43, 3), (38, 1)]) .none) nums) (fun t => t.g 2 3 == 61) := by decide +kernel

theorem test_alui_g0 : nums.runs 2 (wd 2 0 [(38, 1), (0, 0xFFFFFFFF)]) .alui .none ∧
    ok (exec (.alui 2 (wd 2 0 [(38, 1), (0, 0xFFFFFFFF)]) .none) nums) (fun t => t.g 2 0 == 0 && t.gregs == nums.gregs) := by
  decide +kernel

theorem test_movi_sign : nums.runs 2 (wd 2 16 [(43, 31), (0, 0x80000000)]) .movi .none ∧
    ok (exec (.movi 2 (wd 2 16 [(43, 31), (0, 0x80000000)]) .none) nums)
      (fun t => t.g 2 31 == 0xFFFFFFFF80000000 && done nums t []) := by decide +kernel

theorem test_movhi_keeps_low : nums.runs 2 (wd 2 17 [(43, 1), (0, 0x12345678)]) .movhi .none ∧
    ok (exec (.movhi 2 (wd 2 17 [(43, 1), (0, 0x12345678)]) .none) nums) (fun t => t.g 2 1 == 0x1234567800000007) := by decide +kernel

theorem test_mulh_signed : nums.runs 2 (wd 3 2 [(43, 3), (38, 1), (33, 2)]) .mul .none ∧
    ok (exec (.mul 2 (wd 3 2 [(43, 3), (38, 1), (33, 2)]) .none) nums) (fun t => t.g 2 3 == 0xFFFFFFFFFFFFFFFF) := by decide +kernel

theorem test_div_signed : nums.runs 2 (wd 3 4 [(43, 3), (38, 1), (33, 2)]) .div .none ∧ nums.g 2 2 ≠ 0 ∧
    ok (exec (.div 2 (wd 3 4 [(43, 3), (38, 1), (33, 2)]) .none) nums) (fun t => t.g 2 3 == (0 - 3)) := by decide +kernel

theorem test_div_overflow : (divOp 4 0x8000000000000000 0xFFFFFFFFFFFFFFFF).toInt = -2 ^ 63 := by decide +kernel

theorem test_bra_back : (nums.setPc 2 16).runs 2 (wd 8 0 [(0, 0xFFFFFFF8)]) .bra .none ∧
    ok (exec (.bra 2 (wd 8 0 [(0, 0xFFFFFFF8)]) .none) (nums.setPc 2 16)) (fun t => t.pc 2 == 8 && t.gregs == nums.gregs) := by
  decide +kernel

theorem test_call : nums.runs 2 (wd 8 1 [(43, 5), (0, 64)]) .call .none ∧
    ok (exec (.call 2 (wd 8 1 [(43, 5), (0, 64)]) .none) nums) (fun t => t.pc 2 == 64 && t.g 2 5 == 8) := by decide +kernel

theorem test_jr : nums.runs 2 (wd 8 2 [(38, 2), (0, 10)]) .jr .none ∧
    ok (exec (.jr 2 (wd 8 2 [(38, 2), (0, 10)]) .none) nums) (fun t => t.pc 2 == 8) := by decide +kernel

theorem test_callr : nums.runs 2 (wd 8 3 [(43, 1), (38, 1), (0, 1)]) .callr .none ∧
    ok (exec (.callr 2 (wd 8 3 [(43, 1), (38, 1), (0, 1)]) .none) nums) (fun t => t.pc 2 == 8 && t.g 2 1 == 8) := by decide +kernel

theorem test_cmp_signed : nums.runs 2 (wd 4 2 [(38, 2), (33, 1), (30, 2)]) .cmp .none ∧
    ok (exec (.cmp 2 (wd 4 2 [(38, 2), (33, 1), (30, 2)]) .none) nums) (fun t => t.p 2 2 && done nums t []) := by decide +kernel

theorem test_cmpi_unsigned : nums.runs 2 (wd 5 5 [(38, 1), (35, 1), (0, 0xFFFFFFFF)]) .cmpi .none ∧
    ok (exec (.cmpi 2 (wd 5 5 [(38, 1), (35, 1), (0, 0xFFFFFFFF)]) .none) nums) (fun t => !t.p 2 1) := by decide +kernel

theorem test_pred_p0 : nums.runs 2 (wd 6 4 [(27, 0)]) .pred .none ∧ func (wd 6 4 [(27, 0)]) ≤ 5 ∧
    ok (exec (.pred 2 (wd 6 4 [(27, 0)]) .none) nums) (fun t => t.p 2 0 && t.pregs == nums.pregs) := by decide +kernel

theorem test_getp : nums.runs 2 (wd 6 6 [(43, 4)]) .pred .none ∧ func (wd 6 6 [(43, 4)]) = 6 ∧
    ok (exec (.pred 2 (wd 6 6 [(43, 4)]) .none) nums) (fun t => t.g 2 4 == 3) := by decide +kernel

theorem test_setp : nums.runs 2 (wd 6 7 [(38, 2)]) .pred .none ∧ func (wd 6 7 [(38, 2)]) = 7 ∧
    ok (exec (.pred 2 (wd 6 7 [(38, 2)]) .none) nums)
      (fun t => t.p 2 0 && !(nums.setG 2 2 0).p 2 3 && t.p 2 7 && t.p 2 1 && done nums t []) := by decide +kernel

/-! ### Scratch and tensor registers -/

/-- g6 = 0x3C000 - 8, the last doubleword below the ticket table; g7 = 0x40000 - 64, the last beat of the map; t1 holds a
pattern; scratch holds 0x80 at 16 of core 2. -/
def scr : State :=
  ((((handled.setG 2 6 0x3BFF8).setG 2 7 0x3FFC0).setG 2 8 16).setT 2 1 (0xABCD <<< 500)).scratchWrite 2 16 [0x80, 0xFF]

theorem test_sload_unsigned : scr.runs 2 (wd 0xA 0 [(43, 3), (38, 8)]) .sload .none ∧
    func (wd 0xA 0 [(43, 3), (38, 8)]) = 0 ∧ (16 : Nat) % 2 ^ 0 = 0 ∧
    ok (exec (.sload 2 (wd 0xA 0 [(43, 3), (38, 8)]) .none) scr) (fun t => t.g 2 3 == 0x80 && done scr t []) := by decide +kernel

theorem test_sload_signed : scr.runs 2 (wd 0xA 5 [(43, 3), (38, 8)]) .sload .none ∧
    ok (exec (.sload 2 (wd 0xA 5 [(43, 3), (38, 8)]) .none) scr) (fun t => t.g 2 3 == 0xFFFFFFFFFFFFFF80) := by decide +kernel

theorem test_sload_top : scr.runs 2 (wd 0xA 3 [(43, 3), (38, 7), (0, 56)]) .sload .none ∧
    ok (exec (.sload 2 (wd 0xA 3 [(43, 3), (38, 7), (0, 56)]) .none) scr) (fun t => t.g 2 3 == 0 && done scr t []) := by decide +kernel

theorem test_sstore_top : scr.runs 2 (wd 0xB 3 [(43, 6), (38, 6)]) .sstore .none ∧
    ok (exec (.sstore 2 (wd 0xB 3 [(43, 6), (38, 6)]) .none) scr)
      (fun t => t.scratchRead 2 0x3BFF8 8 == leBytes 8 0x3BFF8 && t.scratchByte 2 16 == 0x80 && done scr t []) := by decide +kernel

theorem test_tld_top : scr.runs 2 (wd 0x10 0 [(44, 15), (35, 7)]) .tld .none ∧
    ok (exec (.tld 2 (wd 0x10 0 [(44, 15), (35, 7)]) .none) scr) (fun t => t.t 2 15 == 0 && done scr t []) := by decide +kernel

theorem test_tst : scr.runs 2 (wd 0x10 1 [(40, 1)]) .tst .none ∧
    ok (exec (.tst 2 (wd 0x10 1 [(40, 1)]) .none) scr)
      (fun t => t.scratchByte 2 63 == 0xBC && t.scratchByte 2 62 == 0xD0 && t.scratchByte 2 16 == 0 && done scr t []) := by decide +kernel

theorem test_tmov : scr.runs 2 (wd 0x10 2 [(44, 0), (40, 1)]) .tmov .none ∧
    ok (exec (.tmov 2 (wd 0x10 2 [(44, 0), (40, 1)]) .none) scr) (fun t => t.t 2 0 == scr.t 2 1 && done scr t []) := by decide +kernel

theorem test_tzero : scr.runs 2 (wd 0x10 3 [(44, 1)]) .tzero .none ∧
    ok (exec (.tzero 2 (wd 0x10 3 [(44, 1)]) .none) scr) (fun t => t.t 2 1 == 0 && done scr t []) := by decide +kernel

theorem test_tset_top : scr.runs 2 (wd 0x10 4 [(44, 1), (35, 8), (26, 504), (20, 7)]) .tset .none ∧
    ok (exec (.tset 2 (wd 0x10 4 [(44, 1), (35, 8), (26, 504), (20, 7)]) .none) scr)
      (fun t => (t.t 2 1).toNat / 2 ^ 500 == 0x10D && done scr t []) := by decide +kernel

theorem test_tget : scr.runs 2 (wd 0x10 5 [(40, 1), (35, 9), (26, 504), (20, 3)]) .tget .none ∧
    ok (exec (.tget 2 (wd 0x10 5 [(40, 1), (35, 9), (26, 504), (20, 3)]) .none) scr)
      (fun t => t.g 2 9 == 0xC && done scr t []) := by decide +kernel

/-! ### System instructions and traps -/

theorem test_csrr : nums.runs 2 (wd 0xF 0 [(43, 3), (0, 4)]) .csrr .none ∧
    ok (exec (.csrr 2 (wd 0xF 0 [(43, 3), (0, 4)]) .none) nums) (fun t => t.g 2 3 == 0x21 && done nums t []) := by decide +kernel

theorem test_csrw_vec : nums.runs 2 (wd 0xF 1 [(38, 1), (0, 4)]) .csrw .none ∧ field (wd 0xF 1 [(38, 1), (0, 4)]) 0 12 = 4 ∧
    ok (exec (.csrw 2 (wd 0xF 1 [(38, 1), (0, 4)]) .none) nums)
      (fun t => t.rdb F.SRT_TRAP_VEC_EN 2 && t.rd F.SRT_TRAP_VEC_ADDR 2 == 0 && done nums t [Reg.SRT_TRAP_VEC]) := by decide +kernel

theorem test_csrw_pc : nums.runs 2 (wd 0xF 1 [(38, 2), (0, 6)]) .csrw .none ∧ field (wd 0xF 1 [(38, 2), (0, 6)]) 0 12 = 6 ∧
    ok (exec (.csrw 2 (wd 0xF 1 [(38, 2), (0, 6)]) .none) nums)
      (fun t => t.rd F.SRT_TRAP_PC_PC 2 == 0xFFFFFFFE && done nums t [Reg.SRT_TRAP_PC]) := by decide +kernel

theorem test_halt : nums.runs 2 (wd 0x30 0 [(0, 0xFFFFFFFF)]) .halt .none ∧
    ok (exec (.halt 2 (wd 0x30 0 [(0, 0xFFFFFFFF)]) .none) nums)
      (fun t => t.rd F.SRT_EXIT_CODE 2 == 0xFFFFFFFF && t.coreState 2 == coreHalted && t.rd F.SRT_STATUS_HALT_CAUSE 2 == 1 &&
        done nums t [Reg.SRT_EXIT, Reg.SRT_STATUS, Reg.SRT_CTRL]) := by decide +kernel

theorem test_brk : nums.runs 2 (wd 0x30 1 [(0, 5)]) .brk .none ∧ nums.handles 2 ∧
    ok (exec (.brk 2 (wd 0x30 1 [(0, 5)]) .none) nums)
      (fun t => t.rd F.SRT_TRAP_CAUSE_CAUSE 2 == 0x0F && t.rd F.SRT_TRAP_VALUE_VALUE 2 == 5 && t.rd F.SRT_TRAP_PC_PC 2 == 0 &&
        t.pc 2 == 32 && t.rdb F.SRT_STATUS_IN_TRAP 2 && regsOnly nums t) := by decide +kernel

theorem test_tret : let s := (nums.wr F.SRT_STATUS_IN_TRAP 2 1).wr F.SRT_TRAP_PC_PC 2 0xFFFFFFF8
    s.runs 2 (wd 0x30 2 []) .tret .none ∧ s.rdb F.SRT_STATUS_IN_TRAP 2 ∧
    ok (exec (.tret 2 (wd 0x30 2 []) .none) s) (fun t => !t.rdb F.SRT_STATUS_IN_TRAP 2 && t.pc 2 == 0xFFFFFFF8) := by decide +kernel

theorem test_div_zero_traps : nums.handles 2 ∧ nums.runs 2 (wd 3 5 [(43, 3), (38, 1), (33, 9)]) .div .none ∧ nums.g 2 9 = 0 ∧
    ok (exec (.div 2 (wd 3 5 [(43, 3), (38, 1), (33, 9)]) .none) nums)
      (fun t => t.rd F.SRT_TRAP_CAUSE_CAUSE 2 == 0x0E && t.pc 2 == 32 && t.gregs == nums.gregs) := by decide +kernel

theorem test_sstore_unaligned : scr.handles 2 ∧ scr.runs 2 (wd 0xB 3 [(43, 1), (0, 4)]) .sstore .none ∧
    (4 : Nat) < 2 ^ 32 ∧ (4 : Nat) % 2 ^ 3 ≠ 0 ∧ ok (exec (.sstore 2 (wd 0xB 3 [(43, 1), (0, 4)]) .none) scr)
      (fun t => t.rd F.SRT_TRAP_CAUSE_CAUSE 2 == 0x06 && t.rd F.SRT_TRAP_VALUE_VALUE 2 == 4 && t.scratch == scr.scratch) := by
  decide +kernel

theorem test_sstore_ticket_table : scr.handles 2 ∧ scr.runs 2 (wd 0xB 0 [(43, 1), (38, 6), (0, 8)]) .sstore .none ∧
    ok (exec (.sstore 2 (wd 0xB 0 [(43, 1), (38, 6), (0, 8)]) .none) scr)
      (fun t => t.rd F.SRT_TRAP_CAUSE_CAUSE 2 == 0x05 && t.rd F.SRT_TRAP_VALUE_VALUE 2 == 0x3C000) := by decide +kernel

theorem test_csrw_read_only : nums.handles 2 ∧ nums.runs 2 (wd 0xF 1 [(38, 1), (0, 0x10)]) .csrw .none ∧
    ok (exec (.csrw 2 (wd 0xF 1 [(38, 1), (0, 0x10)]) .none) nums)
      (fun t => t.rd F.SRT_TRAP_CAUSE_CAUSE 2 == 0x03 && t.rd F.SRT_TRAP_VALUE_VALUE 2 == 9 + 256 * 0x10) := by
  decide +kernel

theorem test_tret_outside : nums.handles 2 ∧ nums.runs 2 (wd 0x30 2 []) .tret .none ∧
    ok (exec (.tret 2 (wd 0x30 2 []) .none) nums) (fun t => t.rd F.SRT_TRAP_CAUSE_CAUSE 2 == 0x01) := by decide +kernel

theorem test_load_traps : nums.runs 2 (wd 0xC 3 [(43, 3), (38, 2)]) .load .none ∧ nums.handles 2 ∧
    (nums.past 2).memTrap? (nums.corePart 2) (nums.g 2 2).toNat 8 false = some ⟨0x07, 0xFFFFFFFFFFFFFFFE, 0⟩ ∧
    ok (exec (.load 2 (wd 0xC 3 [(43, 3), (38, 2)]) .none) nums)
      (fun t => t.rd F.SRT_TRAP_CAUSE_CAUSE 2 == 0x07 && t.rd F.SRT_TRAP_PC_PC 2 == 0) := by decide +kernel

theorem test_load_unaligned : nums.runs 2 (wd 0xC 3 [(43, 3), (38, 1)]) .load .none ∧
    (nums.past 2).memTrap? (nums.corePart 2) 7 8 false = some ⟨0x06, 7, 0⟩ := by decide +kernel

theorem test_fetch_range : (nums.setPc 2 64).fetches 2 (wd 2 16 []) .movi ∧ (nums.setPc 2 64).pcValid 2 = false ∧
    (nums.setPc 2 64).handles 2 ∧ ok (exec (.movi 2 (wd 2 16 []) .none) (nums.setPc 2 64))
      (fun t => t.rd F.SRT_TRAP_CAUSE_CAUSE 2 == 0x04 && t.rd F.SRT_TRAP_VALUE_VALUE 2 == 64) := by decide +kernel

theorem test_false_guard : nums.fetches 2 (wd 2 16 [(57, 1), (43, 3), (0, 9)]) .movi ∧ nums.pcValid 2 ∧
    nums.guarded 2 (wd 2 16 [(57, 1), (43, 3), (0, 9)]) = false ∧ (nums.imprecise? 2).isNone ∧
    ok (exec (.movi 2 (wd 2 16 [(57, 1), (43, 3), (0, 9)]) .none) nums)
      (fun t => regsOnly nums t && done nums t []) := by decide +kernel

theorem test_double_halts : (nums.wr F.SRT_STATUS_IN_TRAP 2 1).rdb F.SRT_STATUS_IN_TRAP 2 ∧
    ((nums.wr F.SRT_STATUS_IN_TRAP 2 1).takeTrap 2 ⟨0x06, 4, 0⟩ false 8).rd F.SRT_STATUS_HALT_CAUSE 2 = 4 := by decide +kernel

theorem test_unhandled_halts : ran.rdb F.SRT_STATUS_IN_TRAP 2 = false ∧ ran.rdb F.SRT_TRAP_VEC_EN 2 = false ∧
    (ran.takeTrap 2 ⟨0x06, 4, 0⟩ false 8).rd F.SRT_STATUS_HALT_CAUSE 2 = 3 ∧
    (ran.takeTrap 2 ⟨0x06, 4, 0⟩ false 8).rd F.SRT_TRAP_VALUE_VALUE 2 = 4 := by decide +kernel

theorem test_imprecise : let s := nums.setCore 2 { CoreRec.idle with async := some 0x1000 }
    s.fetches 2 (wd 2 16 [(43, 3), (0, 9)]) .movi ∧ s.pcValid 2 ∧ s.handles 2 ∧ (s.core 2).async = some 0x1000 ∧
    ok (exec (.movi 2 (wd 2 16 [(43, 3), (0, 9)]) .none) s)
      (fun t => t.rd F.SRT_TRAP_CAUSE_CAUSE 2 == 0x10 && t.rdb F.SRT_TRAP_CAUSE_IMPRECISE 2 &&
        t.rd F.SRT_TRAP_VALUE_VALUE 2 == 0x1000 && t.rd F.SRT_TRAP_PC_PC 2 == s.pc 2 && t.gregs == s.gregs) := by decide +kernel

/-! ### Device memory -/

/-- A core's read gives these bytes. -/
def gives (r : Except (State × Trap) (List Byte × State)) (bs : List Byte) : Bool :=
  match r with
  | .ok (b, _) => b == bs
  | .error _ => false

/-- An operand names this sync object. -/
def names (r : Except Trap Nat) (n : Nat) : Bool :=
  match r with
  | .ok m => m == n
  | .error _ => false

def page : PageEnt :=
  { write := true, nomove := false, records := false, code := false, stream := 0, tier := 0, diePolicy := 0, fixedDie := 0
    hint := 0, plan := false, pinned := false }

/-- A granule in Meadow, at bytes `u` * 65,536. -/
def gran (u : Nat) : Granule := { home := .meadow, zero := false, migrating := false, lost := false, unit := u, target := 0 }

/-- The first page of partition 0 maps to two Meadow granules; bytes 8 and 9 hold 0xFE and 0xFF. -/
def mapped : State :=
  { handled with pages := [(0, page)], granules := [(0, gran 4), (1, gran 5)], mem := [(0x40008, 0xFE), (0x40009, 0xFF)] }

theorem test_mapped_wf : Memory.wf mapped.mem := by decide

theorem test_load : mapped.runs 2 (wd 0xC 5 [(43, 3), (0, 8)]) .load .none ∧ loadForm (func (wd 0xC 5 [])) = (2, true) ∧
    gives ((mapped.past 2).coreRead 2 8 2 .none) [0xFE, 0xFF] ∧
    ok (exec (.load 2 (wd 0xC 5 [(43, 3), (0, 8)]) .none) mapped)
      (fun t => t.g 2 3 == 0xFFFFFFFFFFFFFFFE && t.pc 2 == 8 && t.mem == mapped.mem) := by decide +kernel

theorem test_store_top : let s := mapped.setG 2 1 0x1FFF8
    s.runs 2 (wd 0xD 3 [(43, 1), (38, 1)]) .store .none ∧ (s.past 2).memTrap? 0 0x1FFF8 8 true = none ∧
    ((s.past 2).coreStore 2 0x1FFF8 (leBytes 8 0x1FFF8)).isSome ∧ ok (exec (.store 2 (wd 0xD 3 [(43, 1), (38, 1)]) .none) s)
      (fun t => t.byte 0x5FFF9 == 0xFF && t.byte 0x40008 == 0xFE && done s t []) := by decide +kernel

theorem test_amo_swap : let s := (mapped.wr F.SYS_FEAT_ACCEPT_BITS 0 1024).setG 2 1 8
    s.runs 2 (wd 0xE 2 [(43, 3), (38, 1), (33, 1)]) .amo .none ∧ s.feature 10 ∧ (s.past 2).memTrap? 0 8 4 true = none ∧
    (s.core 2).stores = [] ∧ gives ((s.past 2).coreRead 2 8 4 .none) [0xFE, 0xFF, 0, 0] ∧
    ok (exec (.amo 2 (wd 0xE 2 [(43, 3), (38, 1), (33, 1)]) .none) s)
      (fun t => t.g 2 3 == 0xFFFE && t.bytes 0x40008 4 == [8, 0, 0, 0]) := by decide +kernel

theorem test_tldd : mapped.runs 2 (wd 0x10 6 [(44, 1), (35, 0)]) .tldd .none ∧
    gives ((mapped.past 2).coreRead 2 0 64 .none) (mapped.bytes 0x40000 64) ∧
    ok (exec (.tldd 2 (wd 0x10 6 [(44, 1), (35, 0)]) .none) mapped)
      (fun t => (t.t 2 1).toNat == 0xFFFE * 2 ^ 64 && t.pc 2 == 8) := by decide +kernel

theorem test_tstd : let s := mapped.setT 2 1 0x77
    s.runs 2 (wd 0x10 7 [(40, 1), (35, 0), (0, 64)]) .tstd .none ∧ (s.past 2).memTrap? 0 64 64 true = none ∧
    ((s.past 2).coreStore 2 64 (leBytes 64 0x77)).isSome ∧ ok (exec (.tstd 2 (wd 0x10 7 [(40, 1), (35, 0), (0, 64)]) .none) s)
      (fun t => t.byte 0x40040 == 0x77 && t.byte 0x40008 == 0xFE) := by decide +kernel

/-! ### Epochs, rule tables, sync objects -/

theorem test_eadv_other : let s := handled.setG 2 1 3
    s.runs 2 (wd 0x2C 0 [(43, 3), (38, 1)]) .eadv .none ∧ (s.plan (s.corePart 2)).epoch ≠ 3 ∧
    ok (exec (.eadv 2 (wd 0x2C 0 [(43, 3), (38, 1)]) .none) s) (fun t => t.g 2 3 == 0 && done s t []) := by decide +kernel

theorem test_eadv_last : let s := { handled.setG 2 1 2 with plans := [(0, { PlanState.empty with plan := some plan, epoch := 2 })] }
    s.runs 2 (wd 0x2C 0 [(43, 3), (38, 1)]) .eadv .none ∧ (s.plan (s.corePart 2)).epoch = 2 ∧
    (s.plan (s.corePart 2)).plan = some plan ∧ 2 + 2 ≤ plan.epochs ∧
    ok (exec (.eadv 2 (wd 0x2C 0 [(43, 3), (38, 1)]) .none) s)
      (fun t => t.g 2 3 == 3 && (t.plan 0).epoch == 3) := by decide +kernel

theorem test_rstage : let s := mapped.setG 2 2 64
    s.runs 2 (wd 0x24 0 [(43, 3), (33, 2)]) .rstage .none ∧ (0 : Nat) % 64 = 0 ∧
    ((s.past 2).xcheckRun 0 0 64 false false).isNone ∧
    (∀ x ∈ granulesOf 0 64, (s.past 2).xcheck 0 x.1 false false ≠ some .xlate ∧
      (s.past 2).heathReadFails 0 x.1 .none = false) ∧ ((s.past 2).vread .cached 0 0 64).1 = false ∧
    ok (exec (.rstage 2 (wd 0x24 0 [(43, 3), (33, 2)]) .none) s) (fun t => t.g 2 3 != 0 && (t.plan 0).staged.isNone) := by
  decide +kernel

/-- Objects 16 to 31 belong to partition 0; object 31 holds 5; g1 = 5, g2 = 1. -/
def synced : State :=
  { ((((handled.wr F.SO_RANGE_BASE 0 16).wr F.SO_RANGE_COUNT 0 16).setG 2 1 5).setG 2 2 1) with sos := [(31, 5)] }

theorem test_sread : synced.runs 2 (wd 0x28 3 [(43, 3), (12, 31)]) .sread .none ∧
    names (synced.soOperand 2 (wd 0x28 3 [(43, 3), (12, 31)])) 31 ∧
    ok (exec (.sread 2 (wd 0x28 3 [(43, 3), (12, 31)]) .none) synced) (fun t => t.g 2 3 == 5 && done synced t []) := by
  decide +kernel

theorem test_signal_add : synced.runs 2 (wd 0x28 1 [(38, 1), (12, 31)]) .signal .none ∧ (synced.core 2).stores = [] ∧
    ok (exec (.signal 2 (wd 0x28 1 [(38, 1), (12, 31)]) .none) synced)
      (fun t => t.soVal 31 == 10 && t.soVal 30 == 0 && done synced t []) := by decide +kernel

theorem test_wait_fenced_die : let s := synced.wr F.SYS_TOPOLOGY_MEADOW_ONLINE 0 0
    s.runs 2 (wd 0x28 0 [(43, 3), (38, 1), (33, 2), (12, 31)]) .wait .none ∧ s.soUsable 31 = false ∧
    ok (exec (.wait 2 (wd 0x28 0 [(43, 3), (38, 1), (33, 2), (12, 31)]) .none) s) (fun t => t.g 2 3 == 2 && done s t []) := by
  decide +kernel

theorem test_wait_holds : synced.runs 2 (wd 0x28 0 [(43, 3), (38, 1), (33, 2), (12, 31)]) .wait .none ∧ synced.soUsable 31 ∧
    soCmp 0 (synced.soVal 31) 5 ∧ (0 : Nat) < (synced.g 2 2).toNat ∧
    ok (exec (.wait 2 (wd 0x28 0 [(43, 3), (38, 1), (33, 2), (12, 31)]) .none) synced)
      (fun t => t.g 2 3 == 0 && done synced t []) := by decide +kernel

theorem test_wait_blocks : let s := synced.setG 2 2 (BitVec.ofNat 64 (2 ^ 40 - 1))
    s.runs 2 (wd 0x28 0 [(43, 3), (38, 1), (33, 2), (12, 30)]) .wait .none ∧ s.soUsable 30 ∧
    soCmp 0 (s.soVal 30) 5 = false ∧ (s.g 2 2).toNat < 2 ^ 40 ∧
    ok (exec (.wait 2 (wd 0x28 0 [(43, 3), (38, 1), (33, 2), (12, 30)]) .none) s)
      (fun t => t.coreState 2 == coreWaiting && t.pc 2 == 0 &&
        (t.core 2).wait == some { so := 30, cmp := 0, x := 5, timeout := 2 ^ 40 - 1, rd := 3 }) := by decide +kernel

theorem test_fence_waits_tickets : let s := synced.setCore 2 { CoreRec.idle with stores := [⟨0, [1]⟩] }
    s.runs 2 (wd 0x28 2 [(0, 2)]) .fence .none ∧ ((mask (wd 0x28 2 [(0, 2)])).testBit 0 → (s.core 2).stores = []) ∧
    ((mask (wd 0x28 2 [(0, 2)])).testBit 1 → s.rd F.SRT_ISSUE_STATUS_OUTSTANDING 2 = 0) ∧
    ok (exec (.fence 2 (wd 0x28 2 [(0, 2)]) .none) s) (fun t => regsOnly s t && done s t []) := by decide +kernel

/-! ### Issue -/

/-- The state an instruction's body leaves. -/
def left (r : CRes) : State :=
  match r with
  | .ok s => s
  | _ => State.reset

/-- The checks of an issue pass, and the command issues the item. -/
def issues (s : State) (w : Word) (bits : List Nat) (ds : List (Nat × Beat)) (bad : Option Trap) (it : Item)
    (r : Host.Outcome State Fault Refusal) : Bool :=
  let x := s.past 2
  (x.issueTrap? 2 w bits ds bad).isNone && (s.core 2).stores.isEmpty && x.issueRoom 2 (gate w) &&
    match x.issueNow 2 (x.issueItem 2 w it) with
    | .ok u => ok r (fun t => t == (u.retire 2).pumpAll && t.rd F.SRT_ISSUE_STATUS_NEXT_TICKET 2 == 1)
    | _ => false

/-- Connection 5 is held and OPEN at version 2; peer 3 is registered; every feature is accepted; the tile is IN_FLIGHT, so that its requests wait; g1 is tile 1 of object 0,
g2 names the connection, g3 is tile 1 at peer 3, g4 = 3. -/
def issuer : State :=
  let s := (((((((ran.setG 2 1 0x100000000).setG 2 2 5).setG 2 3 0x0300000100000000).setG 2 4 3).wr F.SYS_FEAT_ACCEPT_BITS 0
    0xFFFFFFFF).setReg Reg.HOST_PEER_TABLE 18 0x300).setReg Reg.HOST_PEER_TABLE 20 4096).wr F.CRR_CONN_STATE_STATE 5 connOpen
  { ((s.setReg Reg.HOST_PEER_TABLE 18 0).wr F.SO_RANGE_COUNT 0 16) with
    tiles := [(tileKey 0 0 1, { TileRec.fresh with state := .inFlight })]
    leases := [(leaseConn * 4096 + 5, { state := 1, holder := 0, epoch := 1 })]
    eth := { s.eth with conns := [(5, { Conn.closed with verMax := 2 })] } }

/-- The item a tile word in g1 names. -/
def tileItem (work : Work) : Item := { (issuer.past 2).itemOf 2 work with obj := 0, tile := 1 }

theorem test_unpress_issues : issuer.runs 2 (wd 0x1A 0 [(43, 3), (4, 2), (38, 1)]) .unpress .none ∧
    issues issuer (wd 0x1A 0 [(43, 3), (4, 2), (38, 1)]) [] [] ((issuer.past 2).tileWord 0 0x100000000 false) (tileItem .unpress)
      (exec (.unpress 2 (wd 0x1A 0 [(43, 3), (4, 2), (38, 1)]) .none) issuer) := by decide +kernel

theorem test_spill_issues : issuer.runs 2 (wd 0x1E 0 [(43, 3), (4, 2), (38, 1), (0, 1)]) .spill .none ∧
    issues issuer (wd 0x1E 0 [(43, 3), (4, 2), (38, 1), (0, 1)]) [] [] ((issuer.past 2).tileWord 0 0x100000000 false)
      (tileItem (.spill true)) (exec (.spill 2 (wd 0x1E 0 [(43, 3), (4, 2), (38, 1), (0, 1)]) .none) issuer) := by decide +kernel

theorem test_regrow_issues : issuer.runs 2 (wd 0x1B 0 [(43, 3), (4, 2), (38, 1), (0, 1)]) .teddRegrow .none ∧
    issues issuer (wd 0x1B 0 [(43, 3), (4, 2), (38, 1), (0, 1)]) [] [] ((issuer.past 2).tileWord 0 0x100000000 false)
      (tileItem .regrow) (exec (.teddRegrow 2 (wd 0x1B 0 [(43, 3), (4, 2), (38, 1), (0, 1)]) .none) issuer) := by decide +kernel

theorem test_drop_issues : issuer.runs 2 (wd 0x21 0 [(43, 3), (4, 2), (38, 1)]) .tileDrop .none ∧
    issues issuer (wd 0x21 0 [(43, 3), (4, 2), (38, 1)]) [] [] ((issuer.past 2).tileWord 0 0x100000000 false) (tileItem .drop)
      (exec (.tileDrop 2 (wd 0x21 0 [(43, 3), (4, 2), (38, 1)]) .none) issuer) := by decide +kernel

theorem test_fetch_issues : issuer.runs 2 (wd 0x1F 0 [(43, 3), (4, 2), (38, 1), (33, 4)]) .fetch .none ∧
    issues issuer (wd 0x1F 0 [(43, 3), (4, 2), (38, 1), (33, 4)]) [] [] ((issuer.past 2).tileWord 0 0x100000000 false)
      { tileItem (.fetch 0) with deadline := 3 } (exec (.fetch 2 (wd 0x1F 0 [(43, 3), (4, 2), (38, 1), (33, 4)]) .none) issuer) := by
  decide +kernel

theorem test_send_issues : issuer.runs 2 (wd 0x18 0 [(43, 3), (4, 2), (38, 1), (33, 2), (0, 2)]) .moveSend .none ∧
    issues issuer (wd 0x18 0 [(43, 3), (4, 2), (38, 1), (33, 2), (0, 2)]) [9] []
      (firstTrap [(issuer.past 2).tileWord 0 0x100000000 false, (issuer.past 2).connTrap 0 5 false]) (tileItem (.send 5 0))
      (exec (.moveSend 2 (wd 0x18 0 [(43, 3), (4, 2), (38, 1), (33, 2), (0, 2)]) .none) issuer) := by decide +kernel

theorem test_press_issues : issuer.runs 2 (wd 0x19 0 [(43, 3), (4, 2), (38, 1)]) .press .none ∧ mode (wd 0x19 0 []) = 0 ∧
    issues issuer (wd 0x19 0 [(43, 3), (4, 2), (38, 1)]) [] [] ((issuer.past 2).tileWord 0 0x100000000 false)
      (tileItem (.press 0 0 0)) (exec (.press 2 (wd 0x19 0 [(43, 3), (4, 2), (38, 1)]) .none) issuer) := by decide +kernel

/-- A descriptor of `n` elements of format 1 in a space. -/
def dsc (base space peer n : Nat) : Beat :=
  BitVec.ofNat 512 (base + 2 ^ 64 + 2 ^ 71 + space * 2 ^ 75 + peer * 2 ^ 77 + n * 2 ^ 96)

/-- t1 describes elements at peer 3, t2 and t4 in the device map, t3 a notice of an event. -/
def described : State :=
  (((issuer.setT 2 1 (dsc 0x1000 1 3 64)).setT 2 2 (dsc 0x10000 0 0 64)).setT 2 4 (dsc 0x20000 0 0 64)).setT 2 5
    (dsc 0x30000 0 0 64)

def atPeer (dest : Bool) : Desc.Use := { spaces := [1], peer := some 3, identity := false, dest }
def inMap (dest : Bool) : Desc.Use := { spaces := [0], peer := none, identity := true, dest }

/-- The item a tile word in g3 names, with the descriptor of t1. -/
def peerItem (work : Work) : Item :=
  { (described.past 2).itemOf 2 work with obj := 0, tile := 1, peer := 3, ta := dsc 0x1000 1 3 64 }

theorem test_intake_issues : described.runs 2 (wd 0x18 0 [(43, 3), (4, 2), (38, 3), (33, 4), (24, 1)]) .moveIntake .none ∧
    issues described (wd 0x18 0 [(43, 3), (4, 2), (38, 3), (33, 4), (24, 1)]) [] [(5, dsc 0x1000 1 3 64)]
      (firstTrap [(described.past 2).tileWord 0 0x0300000100000000 true,
        (described.past 2).descTrap 0 5 (dsc 0x1000 1 3 64) (atPeer false)]) (peerItem (.intake 3 0 false false))
      (exec (.moveIntake 2 (wd 0x18 0 [(43, 3), (4, 2), (38, 3), (33, 4), (24, 1)]) .none) described) := by decide +kernel

theorem test_intake_nodata_issues : described.runs 2 (wd 0x18 0 [(43, 3), (4, 2), (38, 3), (33, 4), (0, 8)]) .moveIntake .none ∧
    (mode (wd 0x18 0 [(0, 8)])).testBit 3 ∧ issues described (wd 0x18 0 [(43, 3), (4, 2), (38, 3), (33, 4), (0, 8)]) [] []
      ((described.past 2).tileWord 0 0x0300000100000000 true) { peerItem (.intake 3 0 false true) with ta := 0 }
      (exec (.moveIntake 2 (wd 0x18 0 [(43, 3), (4, 2), (38, 3), (33, 4), (0, 8)]) .none) described) := by decide +kernel

theorem test_copy_issues : described.runs 2 (wd 0x18 0 [(43, 3), (4, 2), (24, 1), (20, 2), (0, 1)]) .moveCopy .none ∧
    issues described (wd 0x18 0 [(43, 3), (4, 2), (24, 1), (20, 2), (0, 1)]) [] [(5, dsc 0x1000 1 3 64), (6, dsc 0x10000 0 0 64)]
      (firstTrap [(described.past 2).descTrap 0 5 (dsc 0x1000 1 3 64)
          { spaces := [0, 1, 2], peer := none, identity := false, dest := false },
        (described.past 2).descTrap 0 6 (dsc 0x10000 0 0 64) { spaces := [0, 2], peer := none, identity := false, dest := true },
        copyShape (dsc 0x1000 1 3 64) (dsc 0x10000 0 0 64)])
      { (described.past 2).itemOf 2 .copy with peer := 3, ta := dsc 0x1000 1 3 64, tb := dsc 0x10000 0 0 64 }
      (exec (.moveCopy 2 (wd 0x18 0 [(43, 3), (4, 2), (24, 1), (20, 2), (0, 1)]) .none) described) := by decide +kernel

theorem test_deliver_issues : described.runs 2 (wd 0x1D 0 [(43, 3), (4, 2), (38, 3), (33, 4), (24, 1), (0, 1)]) .deliver .none ∧
    issues described (wd 0x1D 0 [(43, 3), (4, 2), (38, 3), (33, 4), (24, 1), (0, 1)]) [4] [(5, dsc 0x1000 1 3 64)]
      (firstTrap [(described.past 2).tileWord 0 0x0300000100000000 true,
        (described.past 2).descTrap 0 5 (dsc 0x1000 1 3 64) (atPeer true)]) { peerItem (.deliver true) with deadline := 3 }
      (exec (.deliver 2 (wd 0x1D 0 [(43, 3), (4, 2), (38, 3), (33, 4), (24, 1), (0, 1)]) .none) described) := by decide +kernel

theorem test_lattice_issues : described.runs 2 (wd 0x1D 0 [(43, 3), (4, 2), (38, 3), (33, 4), (24, 1), (0, 2)]) .deliverLattice .none ∧
    issues described (wd 0x1D 0 [(43, 3), (4, 2), (38, 3), (33, 4), (24, 1), (0, 2)]) [3] [(5, dsc 0x1000 1 3 64)]
      (firstTrap [(described.past 2).latticeWord 0 0x0300000100000000,
        (described.past 2).descTrap 0 5 (dsc 0x1000 1 3 64) (atPeer true),
        (latticeDest (dsc 0x1000 1 3 64)).map (trapOperand 5)]) { peerItem (.lattice 1 false) with tile := 0, deadline := 3 }
      (exec (.deliverLattice 2 (wd 0x1D 0 [(43, 3), (4, 2), (38, 3), (33, 4), (24, 1), (0, 2)]) .none) described) := by decide +kernel

theorem test_notify_issues : let d : Beat := BitVec.ofNat 512 (3 * 2 ^ 16 + 15 * 2 ^ 320)
    let s := described.setT 2 3 d
    s.runs 2 (wd 0x20 0 [(43, 3), (4, 2), (38, 4), (24, 3)]) .notify .none ∧ (3 : Nat) < 64 ∧ s.peerOf 0 3 ∧
    issues s (wd 0x20 0 [(43, 3), (4, 2), (38, 4), (24, 3)]) [] [] (((s.past 2).noticeBad 0 false d).map (trapOperand 5))
      { (s.past 2).itemOf 2 .notify with peer := 3, ta := d }
      (exec (.notify 2 (wd 0x20 0 [(43, 3), (4, 2), (38, 4), (24, 3)]) .none) s) := by decide +kernel

theorem test_layout_issues : let s := described.setG 2 5 0x4688
    s.runs 2 (wd 0x1C 0 [(43, 3), (4, 2), (38, 5), (24, 2), (20, 4)]) .layout .none ∧ (0x4688 : Nat) < 2 ^ 15 ∧
    issues s (wd 0x1C 0 [(43, 3), (4, 2), (38, 5), (24, 2), (20, 4)]) [] [(5, dsc 0x10000 0 0 64), (6, dsc 0x20000 0 0 64)]
      (firstTrap [if !Desc.permOk 0x4688 1 then some (trapOperand 2 0x4688) else none,
        (s.past 2).descTrap 0 5 (dsc 0x10000 0 0 64) (inMap false), (s.past 2).descTrap 0 6 (dsc 0x20000 0 0 64) (inMap true)])
      { (s.past 2).itemOf 2 (.layout 0x4688) with ta := dsc 0x10000 0 0 64, tb := dsc 0x20000 0 0 64 }
      (exec (.layout 2 (wd 0x1C 0 [(43, 3), (4, 2), (38, 5), (24, 2), (20, 4)]) .none) s) := by decide +kernel

theorem test_tedd_two_inputs_issues : let s := described.setG 2 5 0x20
    s.runs 2 (wd 0x1B 0 [(43, 3), (4, 2), (38, 5), (24, 4), (20, 2)]) .teddOp .none ∧ Ted.known 0x20 ∧ Ted.twoInputs 0x20 ∧
    ta (wd 0x1B 0 [(24, 4)]) ≠ 15 ∧
    issues s (wd 0x1B 0 [(43, 3), (4, 2), (38, 5), (24, 4), (20, 2)]) []
      [(5, dsc 0x20000 0 0 64), (5, dsc 0x30000 0 0 64), (6, dsc 0x10000 0 0 64)]
      (firstTrap [(s.past 2).descTrap 0 5 (dsc 0x20000 0 0 64) (inMap false),
        teddDesc 0x20 5 (dsc 0x20000 0 0 64) (Desc.ext (dsc 0x20000 0 0 64)),
        (s.past 2).descTrap 0 5 (dsc 0x30000 0 0 64) (inMap false),
        teddDesc 0x20 5 (dsc 0x30000 0 0 64) (Desc.ext (dsc 0x20000 0 0 64)),
        (s.past 2).descTrap 0 6 (dsc 0x10000 0 0 64) (inMap true),
        teddDesc 0x20 6 (dsc 0x10000 0 0 64) (Desc.ext (dsc 0x20000 0 0 64))])
      { (s.past 2).itemOf 2 (.teddOp 0x20 0) with
        ta := dsc 0x20000 0 0 64, ta2 := dsc 0x30000 0 0 64, tb := dsc 0x10000 0 0 64 }
      (exec (.teddOp 2 (wd 0x1B 0 [(43, 3), (4, 2), (38, 5), (24, 4), (20, 2)]) .none) s) := by decide +kernel

theorem test_issue_stalls : let s := issuer.scratchWrite 2 (issuer.slotAddr 2 0) (leBytes 8 0x10000)
    s.runs 2 (wd 0x1E 0 [(43, 3), (4, 2), (38, 1)]) .spill .none ∧ (s.core 2).stores = [] ∧
    ((s.past 2).issueTrap? 2 (wd 0x1E 0 [(43, 3), (4, 2), (38, 1)]) [] [] ((s.past 2).tileWord 0 0x100000000 false)).isNone ∧
    (s.past 2).issueRoom 2 false = false ∧
    ok (exec (.spill 2 (wd 0x1E 0 [(43, 3), (4, 2), (38, 1)]) .none) s)
      (fun t => t.coreState 2 == coreStalled && t.pc 2 == 0 && t.nextTicket 2 == 0 && t.items == s.items) := by decide +kernel

theorem test_ticket_wraps : let s := issuer.wr F.SRT_ISSUE_STATUS_NEXT_TICKET 2 0xFFFF
    let it := { tileItem (.spill false) with core := 2, rd := 31 }
    it.rd < 32 ∧ it.part < 32 ∧ (s.issueNow 2 it = .ok (left (s.issueNow 2 it))) ∧
    (left (s.issueNow 2 it)).g 2 31 = 0xFFFF ∧ (left (s.issueNow 2 it)).nextTicket 2 = 0 ∧
    (left (s.issueNow 2 it)).slotState 2 0xFFFF = slotPending ∧ (left (s.issueNow 2 it)).nextItem = s.nextItem + 1 := by
  decide +kernel

/-! ### Host commands, the debug window, doorbells -/

theorem test_start : let s := (planned.setCoreState 2 coreIdle).wr F.SRT_IDENT_RANK 2 3
    s.pins.held = false ∧ (s.plan 0).plan = some plan ∧ s.coreState 2 = coreIdle ∧ s.rd F.PART_PLAN_STATUS_STATE 0 = 2 ∧
    s.rd F.SRT_IDENT_RANK 2 < plan.cores ∧ s.served 0 ∧ ok (exec (.srtStart 2) s)
      (fun t => t.coreState 2 == coreRunning && t.pc 2 == 16 && t.g 2 1 == 3 && t.g 2 2 == 4 && t.g 2 5 == 4 && t.p 2 0 &&
        t.t 2 15 == 0 && t.scratch == s.scratch) := by decide +kernel

theorem test_start_refused : ran.coreState 2 ≠ coreIdle ∧ ok (exec (.srtStart 2) ran)
    (fun t => t.rdb F.SRT_STATUS_REFUSED 2 && t.coreState 2 == coreRunning && regsOnly ran t &&
      sameRegs ran t [(Reg.SRT_STATUS, 2)]) := by decide +kernel

theorem test_halt_req : let s := ran.setCoreState 2 coreStalled
    coreRunning ≤ s.coreState 2 ∧ s.coreState 2 ≤ coreStalled ∧ ok (exec (.haltReq 2) s)
      (fun t => t.coreState 2 == coreHalted && t.rd F.SRT_STATUS_HALT_CAUSE 2 == 2 &&
        sameRegs s t [(Reg.SRT_STATUS, 2), (Reg.SRT_CTRL, 2)]) := by decide +kernel

theorem test_resume : let s := ran.haltCore 2 2
    s.coreState 2 = coreHalted ∧ s.rd F.SRT_STATUS_HALT_CAUSE 2 = 2 ∧ s.served (s.corePart 2) ∧ ok (exec (.srtResume 2) s)
      (fun t => t.coreState 2 == coreRunning && regsOnly s t && sameRegs s t [(Reg.SRT_STATUS, 2)]) := by decide +kernel

theorem test_resume_refused : let s := ran.haltCore 2 1
    s.coreState 2 = coreHalted ∧ s.rd F.SRT_STATUS_HALT_CAUSE 2 ≠ 2 ∧ ok (exec (.srtResume 2) s)
      (fun t => t.coreState 2 == coreHalted && t.rdb F.SRT_STATUS_REFUSED 2 && regsOnly s t) := by decide +kernel

theorem test_debug_scratch_top : let s := ((planned.setCoreState 2 coreIdle).wr F.SRT_DBG_ADDR_ADDR 2 0x3FFF8).scratchWrite 2 0x3FFF8 [7]
    s.pins.held = false ∧ s.fnExists 0 ∧ s.coreState 2 = coreIdle ∧ s.rd F.SRT_DBG_ADDR_ADDR 2 + 8 ≤ 0x40000 ∧
    ok (exec (.srtDbgRead 0 2) s) (fun t => t.out == [.readData 0 [7, 0, 0, 0, 0, 0, 0, 0]] &&
      t.rd F.SRT_DBG_ADDR_ADDR 2 == 0x40000 && sameRegs s t [(Reg.SRT_DBG_ADDR, 2)]) := by decide +kernel

theorem test_debug_g31 : let s := ((planned.setCoreState 2 coreHalted).wr F.SRT_DBG_ADDR_ADDR 2 0x1000F8).setG 2 31 9
    s.coreState 2 = coreHalted ∧ s.rd F.SRT_DBG_ADDR_ADDR 2 = 0x100000 + 8 * 31 ∧
    ok (exec (.srtDbgRead 0 2) s) (fun t => t.out == [.readData 0 [9, 0, 0, 0, 0, 0, 0, 0]]) := by decide +kernel

theorem test_debug_running : ran.coreState 2 = coreRunning ∧ ok (exec (.srtDbgRead 0 2) ran)
    (fun t => t.out == [.readData 0 (List.replicate 8 0)] && t.rdb F.SRT_STATUS_REFUSED 2 &&
      sameRegs ran t [(Reg.SRT_DBG_ADDR, 2), (Reg.SRT_STATUS, 2)]) := by decide +kernel

theorem test_wait_timeout : let w : WaitRec := { so := 31, cmp := 0, x := 5, timeout := 9, rd := 31 }
    let s := (ran.setCore 2 { CoreRec.idle with wait := some w }).setCoreState 2 coreWaiting
    (s.core 2).wait = some w ∧ w.rd < 32 ∧ ok (exec (.waitTimeout 2) s)
      (fun t => t.g 2 31 == 1 && t.coreState 2 == coreRunning && (t.core 2).wait.isNone && done s t [Reg.SRT_STATUS]) := by
  decide +kernel

theorem test_async_fail : let s := ran.setCore 2 { CoreRec.idle with stores := [⟨0x1000, [1]⟩] }
    (s.core 2).stores = [⟨0x1000, [1]⟩] ∧ (s.core 2).async = none ∧ ok (exec (.asyncStoreFail 2) s)
      (fun t => (t.core 2).async == some 0x1000 && (t.core 2).stores.isEmpty && t.rdb F.SRT_STATUS_ASYNC_PENDING 2 &&
        sameRegs s t [(Reg.SRT_STATUS, 2)]) := by decide +kernel

/-- Objects 0 to 15 are partition 0's, 16 to 31 partition 1's; one VF; object 16 holds 2^64 - 1. -/
def belled : State :=
  let s := ((up.wr F.SO_RANGE_COUNT 0 16).wr F.SO_RANGE_BASE 1 16).wr F.SO_RANGE_COUNT 1 16
  { s with sos := [(16, 0xFFFFFFFFFFFFFFFF)], host := { s.host with numVfs := 1 } }

theorem test_doorbell_reaches : belled.pins.held = false ∧ belled.fnExists 1 ∧ belled.soOwner 16 = some 1 ∧
    belled.partState 1 ≠ partResetting ∧ (belled.lease leaseSync 16).state ≠ 2 ∧ belled.soUsable 16 ∧
    ok (exec (.doorbellAdd 1 16 3 false) belled) (fun t => t.soVal 16 == 2 && t.soVal 15 == 0 && t.mem == belled.mem) ∧
    ok (exec (.doorbellSet 1 16 0x100000007 true) belled) (fun t => t.soVal 16 == 7) ∧
    ok (exec (.doorbellMax 1 16 3 false) belled) (fun t => t.soVal 16 == 0xFFFFFFFFFFFFFFFF) ∧
    ok (exec (.doorbellOr 1 31 6 false) belled) (fun t => t.soVal 31 == 6) := by decide +kernel

theorem test_doorbell_outside : belled.pins.held = false ∧ belled.fnExists 1 ∧ belled.soOwner 15 ≠ some 1 ∧
    belled.partState 1 ≠ partResetting ∧ ok (exec (.doorbellAdd 1 15 3 false) belled)
      (fun t => regsOnly belled t && t.rdb F.SO_DB_STATUS_OUT_OF_RANGE 1 && t.rd F.SO_DB_STATUS_COUNT 1 == 1) := by decide +kernel

theorem test_sync_update : belled.stopped = false ∧ (belled.lease leaseSync 4095).state ≠ 2 ∧ belled.soUsable 4095 ∧
    ok (exec (.syncObjectUpdate 4095 .max 8) belled) (fun t => t.soVal 4095 == 8) := by decide +kernel

theorem test_bad_write : belled.fnExists 1 ∧
    ok (exec (.badWrite 1 true 2) belled) (fun t => t.out == [.readData 1 [0, 0]] && t.rdb F.SO_DB_STATUS_BAD_WRITE 1) ∧
    ok (exec (.badWrite 1 false 2) belled)
      (fun t => regsOnly belled t && t.rdb F.SO_DB_STATUS_BAD_WRITE 1 && t.rd F.SO_DB_STATUS_COUNT 1 == 1) := by decide +kernel

/-! ### Work items -/

/-- An item under number 7. -/
def withItem (s : State) (it : Item) : State := { s with items := [(7, { it with id := 7 })], nextItem := 8 }

/-- Work of partition 0 on tile 1 of object 0. -/
def work (w : Work) : Item := { Item.blank 0 w with id := 7, tile := 1 }

theorem test_stalled_proceeds : let it := { work (.spill false) with core := 2, rd := 3 }
    let s := ((issuer.setCore 2 { CoreRec.idle with stalled := some it }).setCoreState 2 coreStalled)
    let x := (s.setCore 2 { s.core 2 with stalled := none }).setCoreState 2 coreRunning
    (s.core 2).stalled = some it ∧ s.coreState 2 = coreStalled ∧ s.issueRoom 2 it.gate.isSome ∧
    x.issueNow 2 it = .ok (left (x.issueNow 2 it)) ∧ ok (exec (.stalledIssueProceeds 2) s)
      (fun t => t == ((((left (x.issueNow 2 it)).setPc 2 8).retire 2).pumpAll)) := by decide +kernel

theorem test_issue_timeout : let it := { work (.spill false) with core := 2, rd := 3 }
    let s := (((handled.setCore 2 { CoreRec.idle with stalled := some it }).setCoreState 2 coreStalled)).scratchWrite 2
      (handled.slotAddr 2 0) (leBytes 8 0x10000)
    (s.core 2).stalled = some it ∧ s.coreState 2 = coreStalled ∧ s.issueRoom 2 false = false ∧ s.handles 2 ∧
    ok (exec (.issueTimeout 2) s)
      (fun t => t.rd F.SRT_TRAP_CAUSE_CAUSE 2 == 0x0D && t.pc 2 == 32 && (t.core 2).stalled.isNone) := by decide +kernel

theorem test_deferred_check : let it := { work .drop with stage := .deferred }
    let s := withItem planned it
    s.item? 7 = some it ∧ (s.tile 0 0 1).state ≠ .inFlight ∧ s.served 0 ∧
    ok (exec (.deferredDispCheck 7) s) (fun t => t == ((s.putItem { it with stage := .queued }).arrive 7).flow) := by
  decide +kernel

theorem test_gate_timeout : let it := { work .drop with stage := .gated, gate := some (31, 9) }
    let s := withItem planned it
    s.item? 7 = some it ∧ ok (exec (.gateTimeout 7) s) (fun t => t.items.isEmpty && t.slotState 0 0 == slotDone) := by
  decide +kernel

theorem test_finish : let it := { work .drop with core := 63, ticket := 0xFFFF }
    let s := withItem planned it
    s.item? 7 = some it ∧ it.origin = .plan ∧ it.core < 64 ∧ it.channel = none ∧ it.cso = none ∧ s.epochsHold it ∧
    (0xFFFF : Nat) < 2 ^ 16 ∧ (s.finish 7 0xFFFF 5 ErrAt.none).slotState 63 0xFFFF = slotDone := by decide +kernel

/-- The state of an item's tile before an intake. -/
def before : Option TileRec := some TileRec.fresh

theorem test_intake_commit : let it := { work (.intake 0 0 false false) with before, resv := some (.meadow, 0x40000, 4096), laid := some (4096, false, 0) }
    let s := withItem planned it
    s.item? 7 = some it ∧ s.served 0 ∧ it.before.isSome ∧ it.isPut = false ∧
    ok (exec (.intakeCommit 7) s) (fun t => t == (s.intakeCommit 7).flow) := by decide +kernel

theorem test_put_commit : let it := { work (.put 5 1 0 0 false) with
      origin := .courier 1, before, resv := some (.meadow, 0x40000, 4096), laid := some (4096, false, 0) }
    let s := withItem planned it
    it.before.isSome ∧ it.isPut ∧
    ok (exec (.intakeCommit 7) s) (fun t => t == ((s.intakeCommit 7).endPut 7).flow) := by decide +kernel

theorem test_intake_fault : let it := { work (.intake 0 0 false false) with before, resv := some (.heath, heathKey 0, 4096) }
    let s := withItem planned it
    s.item? 7 = some it ∧ it.resv = some (.heath, heathKey 0, 4096) ∧ it.before.isSome ∧ it.ended = none ∧
    ok (exec (.intakeWriteFault 7) s)
      (fun t => t == ((s.tierFail 0 (homeFault .heath)).intakeFault 7 (homeFault .heath) (some (heathKey 0))).flow) := by
  decide +kernel

theorem test_migration_events : let g := { work (.granule 0 .meadow) with stage := .reserving }
    let r := { work .regrow with stage := .reserving }
    let p := work (.press 0 0 0)
    ok (exec (.migrationReserve 7) (withItem mapped g)) (fun t => t == ((withItem mapped g).granReserve 7).flow) ∧
    ok (exec (.migrationReserve 7) (withItem planned r)) (fun t => t == ((withItem planned r).regrowStart 7).flow) ∧
    ok (exec (.migrationCommit 7) (withItem planned p)) (fun t => t == ((withItem planned p).commitPress 7 0 0 0).flow) ∧
    ok (exec (.migrationCommit 7) (withItem planned (work .unpress)))
      (fun t => t == ((withItem planned (work .unpress)).commitUnpress 7).flow) := by decide +kernel

theorem test_migration_events2 : let b := { work (.spill false) with begun := true }
    let q := { work .regrow with stage := .windowed }
    let v := { work (.move .heath) with stage := .reserving }
    ok (exec (.migrationCommit 7) (withItem planned b)) (fun t => t == ((withItem planned b).commitStored 7).flow) ∧
    v.waitsFree ∧
    ok (exec (.reservationWaitTimeout 7) (withItem planned v)) (fun t => t == ((withItem planned v).stallOut 7).flow) ∧
    (q.resv = none ∧ q.ended = none ∧ q.stage ≠ .gated) ∧
    ok (exec (.regrowStart 7) (withItem planned q)) (fun t => t == ((withItem planned q).regrowStart 7).flow) ∧
    ok (exec (.regrowCommit 7) (withItem planned q)) (fun t => t == ((withItem planned q).regrowCommit 7).flow) := by
  decide +kernel

theorem test_partition_events : planned.served 0 ∧
    ok (exec (.stallRetry 0 2) planned) (fun t => t == (planned.retryStalled 0 2).flow) ∧
    ok (exec (.watermarkDemotion 0 true) planned) (fun t => t == (planned.watermark 0 1).flow) ∧
    ok (exec (.engineUnitFault false 31) planned) (fun t => t.rd F.BAL_UNIT_STATUS_ONLINE 31 == 0 &&
      t.rd F.BAL_UNIT_STATUS_FAULT 31 == 1 && sameRegs planned t [(Reg.BAL_UNIT_STATUS, 31)]) ∧
    ok (exec (.engineUnitFault true 15) planned) (fun t => t.rd F.TED_UNIT_STATUS_ONLINE 15 == 0 &&
      t.rd F.TED_UNIT_STATUS_FAULT 15 == 1 && sameRegs planned t [(Reg.TED_UNIT_STATUS, 15)]) := by decide +kernel

theorem test_engine_ends : let r (w : Work) : Item := { work w with stage := .running }
    (withItem planned (r .notify)).item? 7 = some (r .notify) ∧
    ok (exec (.workItemEnd 7) (withItem planned (r (.teddOp 1 0))))
      (fun t => t == ((withItem planned (r (.teddOp 1 0))).endTedd 7 1 0).flow) ∧
    ok (exec (.workItemEnd 7) (withItem planned (r (.layout 0x4688))))
      (fun t => t == ((withItem planned (r (.layout 0x4688))).endCopy 7 0x4688).flow) ∧
    ok (exec (.workItemEnd 7) (withItem planned (r (.press 0 0 0))))
      (fun t => t == ((withItem planned (r (.press 0 0 0))).endEnded 7).flow) ∧
    ok (exec (.workItemEnd 7) (withItem planned (r .notify)))
      (fun t => t == ((withItem planned (r .notify)).endNotify 7).flow) ∧
    ok (exec (.workItemEnd 7) (withItem planned (r .regrow)))
      (fun t => t == ((withItem planned (r .regrow)).endRegrowItem 7).flow) := by decide +kernel

theorem test_carrier_ends : let r (w : Work) : Item := { work w with stage := .running, channel := some 255 }
    (r .copy).channel.isSome ∧
    ok (exec (.carrierItemEnd 7) (withItem planned (r (.intake 0 0 false false))))
      (fun t => t == ((withItem planned (r (.intake 0 0 false false))).endIntake 7).flow) ∧
    ok (exec (.carrierItemEnd 7) (withItem planned (r .copy)))
      (fun t => t == ((withItem planned (r .copy)).endCopy 7 0x4688).flow) ∧
    ok (exec (.carrierItemEnd 7) (withItem planned (r (.deliver true))))
      (fun t => t == ((withItem planned (r (.deliver true))).endDeliver 7 true).flow) ∧
    ok (exec (.carrierItemEnd 7) (withItem planned (r (.chain [0, 0, 0, 0, 0, 0, 0, 0, 0]))))
      (fun t => t == ((withItem planned (r (.chain [0, 0, 0, 0, 0, 0, 0, 0, 0]))).endChainItem 7).flow) := by decide +kernel

theorem test_item_arrival : let it := work .copy
    it.stage = .queued ∧ it.channel = none ∧ it.started = false ∧ (withItem planned it).served 0 ∧
    ok (exec (.itemArrival 7) (withItem planned it)) (fun t => t == ((withItem planned it).arrive 7).flow) := by decide +kernel

/-! ### Channels, rings, reads -/

/-- Channel 255 is partition 0's CHAIN channel. -/
def chained : State :=
  { (planned.wr F.CAR_CH_CFG_POOL 255 1).wr F.CAR_CH_HEAD_ADDR 255 0x40 with
    leases := [(leaseChannel * 4096 + 255, { state := 1, holder := 0, epoch := 1 })] }

theorem test_channel_start : chained.fnChannel 0 255 ∧ chained.isChain 255 ∧ chained.chState 255 = chIdle ∧
    ok (exec (.channelStart 0 255) chained) (fun t => t.chState 255 == chRunning && (t.chan 255).next == 0x40 &&
      (t.chan 255).reading && t.rd F.CAR_CH_CUR_ADDR 255 == 0x40 &&
      sameRegs chained t [(Reg.CAR_CH_STATUS, 255), (Reg.CAR_CH_CUR, 255)]) := by decide +kernel

theorem test_channel_running : let s := chained.setChState 255 chRunning
    s.fnChannel 0 255 ∧ s.chState 255 = chRunning ∧ ok (exec (.channelStart 0 255) s) (· == s) ∧
    ok (exec (.kick 0 255) s) (fun t => regsOnly s t && t.rdb F.CAR_CH_STATUS_KICK_PENDING 255 &&
      sameRegs s t [(Reg.CAR_CH_STATUS, 255)]) := by decide +kernel

theorem test_channel_idle : ok (exec (.abort 0 255) chained) (· == chained) ∧
    ok (exec (.kick 0 255) chained) (· == ((chained.setChan 255 { chained.chan 255 with
      reading := true, kickRead := true }).setChState 255 chRunning).readNext 255) := by decide +kernel

theorem test_channel_abort : let s := (chained.setChState 255 chWaitRing).wr F.CAR_CH_STATUS_CAUSE 255 4
    s.fnChannel 0 255 ∧ s.chState 255 = chWaitRing ∧ s.rd F.CAR_CH_STATUS_CAUSE 255 ≠ 0 ∧
    ok (exec (.abort 0 255) s) (fun t => regsOnly s t && t.rd F.CAR_CH_CTRL_ABORT 255 == 1) := by decide +kernel

/-- The halted channel with a line out. -/
def halted : State :=
  let r : ReadRec := { fn := 0, part := 0, addr := 0, len := 64, use := .burst 7 0, since := 0, absorbed := false, line := some (255, 7) }
  let s := chained.setChState 255 chHalted
  { s with host := { s.host with reads := [(readKey 1 9, r)] } }

theorem test_channel_halted : halted.fnChannel 0 255 ∧ halted.isChain 255 ∧ halted.chState 255 = chHalted ∧
    halted.chanReads 255 ≠ 0 ∧
    ok (exec (.channelResume 0 255) halted) (fun t => regsOnly halted t && t.rd F.CAR_CH_CTRL_RESUME 255 == 1 &&
      t.chState 255 == chHalted && sameRegs halted t [(Reg.CAR_CH_CTRL, 255)]) ∧
    ok (exec (.skip 0 255) halted) (fun t => t.rd F.CAR_CH_CTRL_SKIP 255 == 1 && t.chState 255 == chHalted) ∧
    ok (exec (.clear 0 255) halted) (fun t => t.rd F.CAR_CH_CTRL_CLEAR 255 == 1 && t.chState 255 == chHalted) := by
  decide +kernel

theorem test_descriptor_read : let s := chained.setChan 255 { chained.chan 255 with reading := true }
    s.chainLive 255 ∧ ok (exec (.descriptorRead 255) s) (· == s.readNext 255) := by decide +kernel

def record : CplRec := { ring := 511, status := 0, channel := 255, readback := false, user := 0, residue := 0, desc := 0, epoch := 0, irq := false }

/-- Channel 255 waits for ring 511, which is full. -/
def stalled : State :=
  let s := ((chained.setChState 255 chWaitRing).wr F.CAR_RING_CFG_EN 511 1).wr F.CAR_RING_PROD_COUNT 511 1
  s.setChan 255 { s.chan 255 with recs := [record] }

theorem test_ring_stall : stalled.chState 255 = chWaitRing ∧ stalled.isChain 255 ∧ (stalled.chan 255).recs = [record] ∧
    stalled.rdb F.CAR_RING_CFG_EN 511 ∧ stalled.ringFull 511 ∧
    ok (exec (.channelStallTimeout 255 none) stalled) (· == stalled.haltChain 255 4 none) := by decide +kernel

/-- Ring 511 is partition 0's. -/
def ringed : State := { planned with leases := [(leaseRing * 4096 + 511, { state := 1, holder := 0, epoch := 1 })] }

theorem test_ring_enable : let v6 := F.CAR_RING_CFG_LOG2.put (F.CAR_RING_CFG_EN.put 0 1) 6
    let v16 := F.CAR_RING_CFG_LOG2.put (F.CAR_RING_CFG_EN.put 0 1) 16
    ringed.fnSees 0 leaseRing 511 ∧ ringed.rdb F.CAR_RING_CFG_EN 511 = false ∧ F.CAR_RING_CFG_EN.get v6 = 1 ∧
    F.CAR_RING_CFG_CFG_ERR.get v16 = 0 ∧ F.CAR_RING_CFG_LOG2.get v6 = 6 ∧ F.CAR_RING_CFG_LOG2.get v16 = 16 ∧
    ringed.rd F.CAR_RING_BASE_ADDR 511 * 32 % 4096 = 0 ∧ (ringed.rdb F.CAR_RING_BASE_HOST 511 → ringed.feature 20) ∧
    (∀ e ∈ ringed.chans, e.2.recs = []) ∧
    ok (exec (.ringEnable 0 511 v6) ringed) (fun t => t.rdb F.CAR_RING_CFG_EN 511 && t.rd F.CAR_RING_CFG_LOG2 511 == 6) ∧
    ok (exec (.ringEnable 0 511 v16) ringed) (fun t => t.rdb F.CAR_RING_CFG_EN 511) := by decide +kernel

theorem test_ring_enable_bad : let v5 := F.CAR_RING_CFG_LOG2.put (F.CAR_RING_CFG_EN.put 0 1) 5
    let v17 := F.CAR_RING_CFG_LOG2.put (F.CAR_RING_CFG_EN.put 0 1) 17
    F.CAR_RING_CFG_LOG2.get v5 < 6 ∧ 16 < F.CAR_RING_CFG_LOG2.get v17 ∧
    ok (exec (.ringEnable 0 511 v5) ringed) (fun t => regsOnly ringed t && t.rdb F.CAR_RING_CFG_CFG_ERR 511) ∧
    ok (exec (.ringEnable 0 511 v17) ringed) (fun t => !t.rdb F.CAR_RING_CFG_EN 511 && t.rdb F.CAR_RING_CFG_CFG_ERR 511) := by
  decide +kernel

theorem test_ring_cons : let s := (ringed.wr F.CAR_RING_CFG_LOG2 511 6).wr F.CAR_RING_PROD_COUNT 511 64
    s.fnSees 0 leaseRing 511 ∧ (64 + 2 ^ 32 - 0) % 2 ^ 32 ≤ 2 ^ s.rd F.CAR_RING_CFG_LOG2 511 ∧
    2 ^ s.rd F.CAR_RING_CFG_LOG2 511 < (64 + 2 ^ 32 - (2 ^ 32 - 1)) % 2 ^ 32 ∧
    ok (exec (.ringConsWrite 0 511 0) s) (fun t => t.rd F.CAR_RING_CONS_COUNT 511 == 0) ∧
    ok (exec (.ringConsWrite 0 511 64) s) (fun t => t.rd F.CAR_RING_CONS_COUNT 511 == 64) ∧
    ok (exec (.ringConsWrite 0 511 0xFFFFFFFF) s) (· == s) := by decide +kernel

theorem test_ring_coalesce : let s := (ringed.wr F.CAR_RING_CFG_COAL_US 511 1).setRingRec 511 { since := 2 }
    0 < (s.ringRec 511).since ∧ s.rd F.CAR_RING_CFG_COAL_US 511 ≠ 0 ∧
    ok (exec (.ringCoalesceTimeout 511) s) (fun t => (t.ringRec 511).since == 0) := by decide +kernel

theorem test_notice_events : let n := { work .notify with stage := .notice, peer := 3 }
    let r := { work .notify with stage := .noticeReserve }
    let d := { work (.deliver false) with stage := .noticeReserve }
    let s := withItem (((planned.wr F.HOST_PORT_STATUS_UP 0 1).setBme 0 true).setBme 64 true) n
    s.item? 7 = some n ∧ (∀ e ∈ s.host.reads, e.2.absorbed = true ∨ e.2.use ≠ .consumer 7) ∧
    s.portErr 0 (s.peerPort 3) (s.peerWord 3 4) = none ∧
    ok (exec (.noticeRingRetry 7) s) (fun t => t.host.reads.length == 1) ∧
    ok (exec (.noticeReservation 7) (withItem planned r)) (· == ((withItem planned r).endNotify 7).flow) ∧
    d.work ≠ .notify ∧ ok (exec (.noticeReservation 7) (withItem planned d))
      (· == ((withItem planned d).startReturn 7 ((withItem planned d).noticeTile d)).flow) := by decide +kernel

theorem test_read_ends : let r : ReadRec := { fn := 0, part := 0, addr := 0, len := 64, use := .readback 7, since := 0, absorbed := false, line := none }
    let s := { planned with host := { planned.host with reads := [(readKey 7 0x3FFF, r)] } }
    Tab.find? s.host.reads (readKey 7 0x3FFF) = some r ∧ r.absorbed = false ∧
    ok (exec (.cplReceived 7 0x3FFF 0 [1, 2]) s) (· == ((s.endRead (readKey 7 0x3FFF) r).readGot r [1, 2]).flow) ∧
    ok (exec (.cplReceived 7 0x3FFF 1 []) s) (· == ((s.endRead (readKey 7 0x3FFF) r).readFailed r 0x0031).flow) ∧
    ok (exec (.completionTimeout 7 0x3FFF) s) (fun t => t.out == [.aer 0 aerTimeout] && t.host.reads.isEmpty &&
      (Tab.find? t.host.quar (readKey 7 0x3FFF)).isSome) := by decide +kernel

theorem test_read_unexpected : Tab.find? planned.host.reads (readKey 0 5) = none ∧
    Tab.find? planned.host.quar (readKey 0 5) = none ∧ ok (exec (.cplReceived 0 5 0 []) planned)
      (fun t => t.out == [.aer (planned.portFn 0) aerUnexpected] && { t with out := [] } == planned) := by decide +kernel

theorem test_quarantine_end : let s := { (planned.wr F.HOST_PORT_STATUS_TAGS_QUAR 7 2).wr F.HOST_FN_STATUS_QUAR_TAGS 0 1 with
      host := { planned.host with quar := [(readKey 7 9, { fn := 0, flr := false })] } }
    Tab.find? s.host.quar (readKey 7 9) = some { fn := 0, flr := false } ∧ ok (exec (.tagQuarantineEnd 7 9) s)
      (fun t => t.host.quar.isEmpty && t.rd F.HOST_PORT_STATUS_TAGS_QUAR 7 == 1 && t.rd F.HOST_FN_STATUS_QUAR_TAGS 0 == 0) := by
  decide +kernel

/-! ### Write-backs and the BAR4 window -/

/-- A notice for tile 1 of object 0 awaits its write-back from requester 0x100 at peer 3. -/
def awaiting : State :=
  let s := ((planned.setReg Reg.HOST_PEER_TABLE 18 0x1000000).setReg Reg.HOST_PEER_TABLE 20 4096)
  let a : Awaited := { part := 0, peer := 3, obj := 0, tile := 1, seq := 5, place := 0x40000, bytes := 4096 }
  let r : TileRec := { TileRec.fresh with disp := .ret, state := .resident }
  { s with host := { s.host with awaited := [a] }, tiles := [(tileKey 0 0 1, r)] }

/-- The header that stream starts with. -/
def header : List Byte :=
  let b := leBytes 4 0 ++ leBytes 4 1 ++ leBytes 4 4096 ++ leBytes 4 5 ++ List.replicate 40 0
  b ++ leBytes 4 (crc32c b).toNat ++ leBytes 4 0

theorem test_header_opens : awaiting.fnOpen 0 ∧ header.length = 64 ∧ Tab.find? awaiting.host.streams 0x100 = none ∧
    awaiting.awaitedOf 0 0x100 header = awaiting.host.awaited.head? ∧ fieldAt header 7 1 = 0 ∧ fieldAt header 14 2 = 0 ∧
    allZero (bytesAt header 16 40) ∧ fieldAt header 60 4 = 0 ∧ fieldAt header 56 4 = (crc32c (header.take 56)).toNat ∧
    (awaiting.tile 0 0 1).disp = .ret ∧ (awaiting.tile 0 0 1).state = .resident ∧
    fieldAt header 8 4 = awaiting.tileSize 0 0 ∧ ok (exec (.writeBackHeader 0 0x100 header) awaiting)
      (fun t => Tab.find? t.host.streams 0x100 ==
        some { fn := 0, peer := 3, obj := 0, tile := 1, len := 4096, next := 0 }) := by decide +kernel

theorem test_header_stray : awaiting.awaitedOf 0 0x101 header = none ∧ ok (exec (.writeBackHeader 0 0x101 header) awaiting)
      (fun t => t.rdb F.PART_LIFE_STATUS_WB_STRAY 0 && t.mem == awaiting.mem && t.host.streams.isEmpty) ∧
    ok (exec (.writeBackData 0 0x101 0 [1]) awaiting)
      (fun t => t.rdb F.PART_LIFE_STATUS_WB_STRAY 0 && t.mem == awaiting.mem) := by decide +kernel

theorem test_write_back_data : let w : WbStream := { fn := 0, peer := 3, obj := 0, tile := 1, len := 4096, next := 0 }
    let s := { awaiting with host := { awaiting.host with streams := [(0x100, w)] } }
    let e := { awaiting with host := { awaiting.host with streams := [(0x100, { w with next := 4095 })] } }
    Tab.find? s.host.streams 0x100 = some w ∧ (0 : Nat) + 2 < 4096 ∧ (4095 : Nat) % 131072 = 4095 ∧
    ok (exec (.writeBackData 0 0x100 0 [8, 9]) s) (fun t => t.bytes 0x40000 3 == [8, 9, 0] &&
      Tab.find? t.host.streams 0x100 == some { w with next := 2 }) ∧
    ok (exec (.writeBackData 0 0x100 4095 [7]) e) (fun t => t.byte 0x40FFF == 7 && t.host.streams.isEmpty &&
      t.host.awaited.isEmpty) := by decide +kernel

/-- The window maps, the feature is accepted. -/
def windowed : State := { mapped.wr F.SYS_FEAT_ACCEPT_BITS 0 (2 ^ 23) with cores := [] }

theorem test_bar4 : windowed.fnOpen 0 ∧ windowed.feature 23 ∧ (windowed.xcheckRun 0 8 2 false false).isNone ∧
    windowed.vheathFail 0 8 2 = none ∧ (windowed.vread .cached 0 8 2).1 = false ∧
    ok (exec (.bar4Read 0 8 2) windowed) (fun t => t.out == [.readData 0 [0xFE, 0xFF]]) ∧
    (windowed.xcheckRun 0 0x1FFFF 1 true false).isNone ∧
    ok (exec (.bar4Write 0 0x1FFFF [3]) windowed) (fun t => t.byte 0x5FFFF == 3 && t.byte 0x40008 == 0xFE) := by decide +kernel

theorem test_bar4_poison : let s := windowed.setPoison 0x40000 true
    (s.vread .cached 0 8 2).1 = true ∧ ok (exec (.bar4Read 0 8 2) s)
      (fun t => t.out == [.aer 0 aerAbort, .completerAbort 0]) := by decide +kernel

theorem test_bar4_untranslated : (windowed.xcheckRun 0 0x20000 1 true false).map (·.2) = some 0 ∧
    ok (exec (.bar4Write 0 0x20000 [3]) windowed)
      (fun t => t.out == [.aer 0 aerAbort] && t.mem == windowed.mem) := by decide +kernel

/-! ### The open, peers, functions, links -/

theorem test_open : let s := (up.wr F.SYS_START_STATUS_READY 0 1)
    s.rdb F.SYS_OPEN_OPENED 0 = false ∧ s.rdb F.SYS_START_STATUS_READY 0 ∧
    (∀ k, k < 4 → s.rd F.SYS_FEAT_ACCEPT_BITS k &&& s.offer k = s.rd F.SYS_FEAT_ACCEPT_BITS k) ∧
    (∀ d ∈ [(3, 0), (11, 0), (0, 16), (17, 3), (20, 19)], (s.rd F.SYS_FEAT_ACCEPT_BITS 0).testBit d.1 →
      (s.rd F.SYS_FEAT_ACCEPT_BITS 0).testBit d.2) ∧
    ok (exec .sysOpen s) (fun t => t.rdb F.SYS_OPEN_OPENED 0 && t.rd F.SYS_OPEN_ERR 0 == 0 && regsOnly s t) := by
  decide +kernel

theorem test_open_again : let s := up.wr F.SYS_OPEN_OPENED 0 1
    s.rdb F.SYS_OPEN_OPENED 0 ∧ ok (exec .sysOpen s) (fun t => t.rd F.SYS_OPEN_ERR 0 == 3 && sameRegs s t [(Reg.SYS_OPEN, 0)]) ∧
    up.rdb F.SYS_OPEN_OPENED 0 = false ∧ up.rdb F.SYS_START_STATUS_READY 0 = false ∧
    ok (exec .sysOpen up) (fun t => t.rd F.SYS_OPEN_ERR 0 == 4 && sameRegs up t [(Reg.SYS_OPEN, 0)]) := by decide +kernel

theorem test_peer_commands : up.rdb F.HOST_PEER_CTRL_GO 0 = false ∧
    ok (exec (.register [63, 0, 0, 0, 0, 0]) up)
      (· == (((up.peerWords [63, 0, 0, 0, 0, 0] 1).wr F.HOST_PEER_CTRL_GO 0 1).peerRegister).flow) ∧
    ok (exec (.unregister 63) up)
      (· == (((up.peerWords [63] 2).wr F.HOST_PEER_CTRL_GO 0 1).peerUnregister).flow) := by decide +kernel

theorem test_peer_busy : let s := up.wr F.HOST_PEER_CTRL_GO 0 1
    s.rdb F.HOST_PEER_CTRL_GO 0 ∧ ok (exec (.register [1, 2, 3, 4, 5, 6]) s) (fun t =>
      t.rdb F.HOST_PEER_STATUS_BUSY_REFUSED 0 && regsOnly s t && sameRegs s t [(Reg.HOST_PEER_STATUS, 0)]) := by decide +kernel

theorem test_probe : let r : ReadRec := { fn := 0, part := 0, addr := 0, len := 4, use := .probe, since := 0, absorbed := false, line := none }
    let u := up.wr F.HOST_PEER_CTRL_GO 0 1
    let s := { u with host := { u.host with probe := some (readKey 1 2, 0), reads := [(readKey 1 2, r)] } }
    s.host.probe = some (readKey 1 2, 0) ∧ Tab.find? s.host.reads (readKey 1 2) = some r ∧
    ok (exec (.probeResult 0) s) (fun t => !t.rdb F.HOST_PEER_CTRL_GO 0 && t.host.reads.isEmpty) ∧
    ok (exec (.probeResult 1) s) (fun t => !t.rdb F.HOST_PEER_CTRL_GO 0 && t.host.probe.isNone) := by decide +kernel

/-- Port 0 is HOST, port 5 PEER; both are up. -/
def linked : State :=
  ((up.wr F.SYS_PORT_MAP_X16_ROLE 0 (1 + 2 * 4 ^ 5)).wr F.HOST_PORT_STATUS_UP 0 1).wr F.HOST_PORT_STATUS_UP 5 1

theorem test_bus_master : let s := linked.setBme 0 true
    s.anyFn 0 ∧ s.busMaster 0 ∧ ok (exec (.busMasterClear 0) s) (· == (((s.setBme 0 false).stopRiders 0).flow)) ∧
    linked.busMaster 0 = false ∧ ok (exec (.busMasterClear 0) linked) (· == linked) ∧
    linked.rdb F.HOST_FN_STATUS_FLR_ACTIVE 0 = false ∧ linked.heldOf 0 = [] ∧
    ok (exec (.busMasterSet 0) linked) (fun t => t.busMaster 0) := by decide +kernel

theorem test_function_resets : linked.pins.held = false ∧ exec (.vfFlr 31) linked = .next (linked.vfFlr 31) ∧
    exec .pfFlr linked = .next linked.pfFlr ∧ exec (.portFunctionFlr 5) linked = .next (linked.portFlr 5) ∧
    exec (.d3hotToD0 0) linked = .next linked.pfFlr ∧ exec (.d3hotToD0 63) linked = .next (linked.vfFlr 63) ∧
    exec (.d3hotToD0 64) linked = .next (linked.portFlr 0) := ⟨by decide, rfl, rfl, rfl, rfl, rfl, rfl⟩

theorem test_links : linked.role 5 ≠ 0 ∧ (5 : Nat) < linked.variant.ports ∧ linked.err.postDown.testBit 2 = false ∧
    linked.rdb F.HOST_PORT_STATUS_UP 5 ∧
    ok (exec (.linkUp 5 6 16 true false) linked) (fun t => t.rd F.HOST_PORT_STATUS_GEN 5 == 6 &&
      t.rd F.HOST_PORT_STATUS_WIDTH 5 == 16 && t.rdb F.HOST_PORT_STATUS_FLIT 5 && !t.rdb F.HOST_PORT_STATUS_CXL 5) ∧
    ok (exec (.hostLinkDown 5) linked) (· == (linked.hostLinkDown 5).flow) := by decide +kernel

theorem test_vf_enable : let s := linked.wr F.SYS_STRAPS_VFCOUNT 0 3
    s.rd F.SYS_STRAPS_VFCOUNT 0 = 3 ∧ s.rdb F.SYS_START_STATUS_SAFE_BOOT 0 = false ∧ s.host.numVfs = 0 ∧
    ok (exec (.vfEnable true 31) s) (fun t => t.host.numVfs == 31) ∧
    belled.host.numVfs ≠ 0 ∧ ok (exec (.vfEnable true 31) belled) (· == belled) := by decide +kernel

/-! ### Translation services, IDE, SPDM -/

theorem test_ats : let s := { linked with host := { linked.host with atsOn := 1 } }
    s.fnExists 0 ∧ s.host.atsOn.testBit 0 ∧ s.host.ats = [] ∧
    ok (exec (.translationCompletion 0 0x5000 0x7000 4096 true true) s) (fun t => t.host.ats ==
      [{ fn := 0, page := 0x5000, size := 4096, target := 0x7000, write := true }]) := by decide +kernel

theorem test_invalidation : let x : AtsEnt := { fn := 0, page := 0x5000, size := 4096, target := 0x7000, write := true }
    let s := { linked with host := { linked.host with ats := [x, { x with page := 0x6000 }] } }
    s.host.reads = [] ∧ s.host.invals = [] ∧ ok (exec (.invalidationRequest 0 0x5000 4096) s)
      (fun t => t.host.ats == [{ x with page := 0x6000 }] && t.out == [.invalDone 0 0x5000]) := by decide +kernel

theorem test_page_response : let s := { linked with host := { linked.host with pageReqs := [(0, 0x5000)] } }
    s.host.pageReqs.contains (0, 0x5000) ∧
    ok (exec (.pageRequestResponse 0 0x5000 0) s) (fun t => t.out == [.atsRequest 0 0x5000] && t.host.pageReqs.isEmpty) ∧
    ok (exec (.pageRequestResponse 0 0x5000 1) s) (· == ((s.donePage 0 0x5000).atsFault 0 0x5000).flow) ∧
    ok (exec (.priTimeout 0 0x5000) s) (· == ((s.donePage 0 0x5000).atsFault 0 0x5000).flow) := by decide +kernel

theorem test_ide_fail : let s := { linked with host := { linked.host with ide := [(5 * 16 + 8, 2)] } }
    s.role 5 = 2 ∧ Tab.get 0 s.host.ide (5 * 16 + 8) = 2 ∧ s.host.reads = [] ∧ ok (exec (.ideCheckFail 5 8) s)
      (fun t => Tab.get 0 t.host.ide (5 * 16 + 8) == 3 && (t.rd F.HOST_IDE_STATUS_INSECURE 5).testBit 8 &&
        t.out == [.aer (s.portFn 5) aerIde]) := by decide +kernel

def image : FwImage := { genuine := true, svn := 3, keySlot := 0, build := 7, minor := 2, major := 1, digest := 5 }

/-- An image runs; the SPDM responder is at phase `n`. -/
def spdmAt (n : Nat) : State :=
  { linked with
    boot := { linked.boot with running := some image }
    spdm := { linked.spdm with phase := n, aliasKey := true, handshake := true, session := true } }

theorem test_spdm_order : (spdmAt 0).boot.running.isSome ∧
    ok (exec .getVersion (spdmAt 3)) (fun t => t.spdm.phase == 1 && t.out == [.doe .version]) ∧
    ok (exec .getCapabilities (spdmAt 1)) (fun t => t.spdm.phase == 2 && t.out == [.doe .capabilities]) ∧
    ok (exec (.negotiateAlgorithms true) (spdmAt 2)) (fun t => t.spdm.phase == 3 && t.out == [.doe .algorithms]) ∧
    ok (exec (.negotiateAlgorithms true) (spdmAt 3)) (fun t => t.spdm == (spdmAt 3).spdm && t.out == [.doe .errorProtocol]) := by
  decide +kernel

theorem test_spdm_session : (spdmAt 3).spdm.aliasKey ∧ (spdmAt 3).spdm.handshake ∧ (spdmAt 3).spdm.session ∧
    ok (exec .getDigests (spdmAt 3)) (fun t => t.out == [.doe .digests]) ∧
    ok (exec (.getCertificate 0) (spdmAt 3)) (fun t => t.out == [.doe .certificate]) ∧
    ok (exec (.challenge 0) (spdmAt 3)) (fun t => t.out == [.doe .challengeAuth]) ∧
    ok (exec (.getMeasurements 0 false) (spdmAt 3)) (fun t => t.out == [.doe (.measurements false [(0, [40])])]) ∧
    ok (exec (.finish true) (spdmAt 3)) (fun t => !t.spdm.handshake && t.spdm.session && t.out == [.doe .finish]) ∧
    ok (exec (.finish false) (spdmAt 3)) (fun t => !t.spdm.handshake && t.out == [.doe .errorProtocol]) ∧
    ok (exec .endSession (spdmAt 3)) (fun t => !t.spdm.session && t.out == [.doe .endSessionAck]) := by decide +kernel

theorem test_spdm_session2 : ok (exec .heartbeat (spdmAt 3)) (fun t => t.out == [.doe .heartbeatAck]) ∧
    ok (exec .keyUpdate (spdmAt 3)) (fun t => t.out == [.doe .keyUpdateAck]) ∧
    ok (exec (.keyExchange 0) { spdmAt 3 with spdm := { (spdmAt 3).spdm with handshake := false, session := false } })
      (fun t => t.spdm.handshake && t.out == [.doe .keyExchange]) := by decide +kernel

theorem test_debug_unlock : ok (exec (.debugUnlock true) (spdmAt 0)) (fun t => !t.boot.secret && t.out.isEmpty &&
      t.rdb F.MGT_SEC_STATUS_DEBUG_UNLOCKED 0) ∧ ok (exec (.debugUnlock false) (spdmAt 0)) (· == spdmAt 0) := by decide +kernel

theorem test_doe : ok (exec (.doeDiscovery 65536 0) (spdmAt 0)) (fun t => t.out == [.doe (.discovery 0 0 1)]) ∧
    ok (exec (.doeDiscovery 1 2) (spdmAt 0)) (fun t => t.out == [.doe (.discovery 2 2 0)]) := by decide +kernel

theorem test_ide_keys : (spdmAt 3).spdm.session ∧ (spdmAt 3).idePort 5 8 ∧
    (let s := { spdmAt 3 with host := { (spdmAt 3).host with ide := [(5 * 16 + 8, 1)] } }
     Tab.get 0 s.host.ide (5 * 16 + 8) ≠ 0 ∧ Tab.get 0 s.host.ide (5 * 16 + 8) ≠ 3 ∧
     ok (exec (.ideKmKeyProg 5 8) (spdmAt 3)) (fun t => Tab.get 0 t.host.ide (5 * 16 + 8) == 1 &&
       t.out == [.doe (.keyProgAck 5 8 true)]) ∧
     ok (exec (.kSetGo 5 8) s) (fun t => Tab.get 0 t.host.ide (5 * 16 + 8) == 2 && t.out == [.doe (.setGoAck 5 8)])) := by
  decide +kernel

/-! ### Quotas and translation commands -/

theorem test_quota_over : let s := up
    s.quotaUnits 31 2 < 1 ∧ s.assignable 2 < s.quotaSum 2 31 1 * 65536 ∧
    ok (exec (.quotaWrite 31 2 1) s) (fun t => t.rdb F.TIER_QUOTA_ERR_OVERCOMMIT 0 && regsOnly s t &&
      sameRegs s t [(Reg.TIER_QUOTA_ERR, 0)]) := by decide +kernel

theorem test_quota_same : let s := up.wr F.TIER_QUOTA_MEADOW_UNITS 31 7
    (7 : Nat) ≤ s.quotaUnits 31 0 ∧ ok (exec (.quotaWrite 31 0 7) s) (fun t => t.quotaUnits 31 0 == 7 && regsOnly s t) ∧
    ok (exec (.quotaWrite 31 0 6) s) (fun t => t.quotaUnits 31 0 == 6) := by decide +kernel

theorem test_quota_so : let v := F.PART_QUOTA_SO_EN.put (F.PART_QUOTA_SO_SO.put 0 15) 1
    let w := F.PART_QUOTA_SO_EN.put (F.PART_QUOTA_SO_SO.put 0 16) 1
    belled.soInRange 0 (F.PART_QUOTA_SO_SO.get v) ∧ F.PART_QUOTA_SO_EN.get w = 1 ∧
    belled.soInRange 0 (F.PART_QUOTA_SO_SO.get w) = false ∧
    ok (exec (.partQuotaSoWrite 0 v) belled) (fun t => t.rd F.PART_QUOTA_SO_SO 0 == 15 && t.rd F.PART_QUOTA_SO_EN 0 == 1) ∧
    ok (exec (.partQuotaSoWrite 0 w) belled) (fun t => t.rdb F.PART_QUOTA_STATUS_SO_ERR 0 && t.rd F.PART_QUOTA_SO_EN 0 == 0) := by
  decide +kernel

theorem test_pin_quota : let s := up.wr F.DTU_PIN_QUOTA_PAGES 0 512
    (512 : Nat) ≤ s.rd F.DTU_PIN_QUOTA_PAGES 0 ∧
    ok (exec (.dtuPinQuotaWrite 0 512) s) (fun t => t.rd F.DTU_PIN_QUOTA_PAGES 0 == 512) := by decide +kernel

theorem test_moor_target : let v := F.TIER_MOOR_TGT_KIND.put 0 2
    let s := { up with space := [(moorKey 15 0, { part := 0, len := 4096, kind := .granule 0 })] }
    (∃ e ∈ s.space, homeOf e.1 = .moor ∧ moorTarget e.1 = 15) ∧ ok (exec (.tierMoorTgtWrite 15 v) s) (· == s) ∧
    up.space = [] ∧ ok (exec (.tierMoorTgtWrite 15 v) up) (fun t => t.rd F.TIER_MOOR_TGT_KIND 15 == 2) := by decide +kernel

theorem test_migrate_complete : let m : MigRec := { quota := 1, other := 0 }
    let s := { planned with migs := [(0, m)] }
    Tab.find? s.migs 0 = some m ∧ s.served 0 ∧ (∀ e ∈ s.items, e.2.part ≠ 0 ∨ e.2.origin ≠ .migrate 0) ∧
    ok (exec (.migrateComplete 0) s) (fun t => t.rd F.DTU_CMD_STATUS_RESULT 0 == 4 && t.migs.isEmpty) := by decide +kernel

theorem test_command_busy : let s := planned.wr F.DTU_CMD_CTRL_GO 0 1
    s.setOpen 0 ∧ s.rdb F.DTU_CMD_CTRL_GO 0 ∧ ok (exec (.map 0 0 0 0) s) (fun t =>
      t.rdb F.DTU_CMD_STATUS_BUSY_REFUSED 0 && regsOnly s t && sameRegs s t [(Reg.DTU_CMD_STATUS, 0)]) := by decide +kernel

/-- The state in which command `op` of set 0 runs. -/
def asked (s : State) (op : Nat) (c1 c2 : Word) (c0 : Nat := 0) : State :=
  (((s.wr F.DTU_CMD0_WORD 0 (c0 + op)).setReg Reg.DTU_CMD1 0 c1).setReg Reg.DTU_CMD2 0 c2).wr F.DTU_CMD_CTRL_GO 0 1

/-- Partition 0 may use 32 granules of Meadow; its translation root has its place. -/
def roomy : State :=
  ((planned.wr F.TIER_QUOTA_MEADOW_UNITS 0 32).wr F.SYS_HBM_STATUS_ONLINE 0 255).wr F.DTU_ROOT_DPA 0 1

theorem test_map_top : let va := 2 ^ 57 - 2 ^ 21
    roomy.setOpen 0 ∧ roomy.rdb F.DTU_CMD_CTRL_GO 0 = false ∧ roomy.dtuRunning 1 = false ∧
    (asked roomy 1 (BitVec.ofNat 64 va) 0x200000).dtuCheck 0 1 va 0x200000 = 0 ∧
    ((asked roomy 1 (BitVec.ofNat 64 va) 0x200000).mapRange 0 1 va 0x200000).isSome ∧
    ok (exec (.map 0 0 (BitVec.ofNat 64 va) 0x200000) roomy)
      (fun t => (t.page? 0 va).isSome && t.rd F.DTU_CMD_STATUS_RESULT 0 == 0 && !t.rdb F.DTU_CMD_CTRL_GO 0) := by decide +kernel

theorem test_unmap : (asked mapped 2 0 0x200000).dtuCheck 0 2 0 0x200000 = 0 ∧
    ok (exec (.unmap 0 0 0 0x200000) mapped) (fun t => t.pages.isEmpty && t.granules.isEmpty &&
      t.rd F.DTU_CMD_STATUS_RESULT 0 == 0) ∧
    (asked mapped 2 0x200000 0x200000).dtuCheck 0 2 0x200000 0x200000 = 3 ∧
    ok (exec (.unmap 0 0 0x200000 0x200000) mapped) (fun t => t.rd F.DTU_CMD_STATUS_RESULT 0 == 3) := by decide +kernel

theorem test_protect : (asked mapped 3 0 0x200000).dtuCheck 0 3 0 0x200000 = 0 ∧
    ok (exec (.protect 0 0 0 0x200000) mapped) (fun t => t.pages.map (·.2.write) == [false]) := by decide +kernel

theorem test_hint : (asked mapped 4 0 0x200000 0x8000).dtuCheck 0 0x8004 0 0x200000 = 0 ∧
    ok (exec (.hint 0 0x8000 0 0x200000) mapped) (fun t => t.pages.map (·.2.hint) == [1]) := by decide +kernel

theorem test_migrate : (asked mapped 5 0 65536 0x200).dtuCheck 0 0x205 0 65536 = 0 ∧
    ok (exec (.migrate 0 0x200 0 65536) mapped)
      (· == ((asked mapped 5 0 65536 0x200).migrateRange 0 0 0 65536 .meadow).flow) := by decide +kernel

theorem test_pin_xlate : let s := mapped.wr F.DTU_PIN_QUOTA_PAGES 0 1
    let u := { (mapped.wr F.DTU_PIN_USED_PAGES 0 1) with pages := [(0, { page with pinned := true })] }
    (asked s 6 0 0x200000).dtuCheck 0 6 0 0x200000 = 0 ∧
    ok (exec (.pinXlate 0 0 0 0x200000) s) (fun t => t.pages.map (·.2.pinned) == [true] && t.rd F.DTU_PIN_USED_PAGES 0 == 1) ∧
    (asked u 7 0 0x200000).dtuCheck 0 7 0 0x200000 = 0 ∧
    ok (exec (.unpinXlate 0 0 0 0x200000) u)
      (fun t => t.pages.map (·.2.pinned) == [false] && t.rd F.DTU_PIN_USED_PAGES 0 == 0) := by decide +kernel

/-! ### The cache, streams, the lower tiers -/

theorem test_cache_commands : mapped.setOpen 0 ∧ (∀ a ∈ pagesOf 0 65536, (mapped.page? 0 a).isSome) ∧
    ok (exec (.llcFlush 0 0 0 65536) mapped) (fun t => t.rd F.LLC_CMD_STATUS_RESULT 0 == 0 && t.rdb F.LLC_CMD_STATUS_DONE 0) ∧
    ok (exec (.llcEvict 0 0 0 65536) mapped) (fun t => t.rd F.LLC_CMD_STATUS_RESULT 0 == 0 && t.llc.isEmpty) ∧
    ok (exec (.llcPin 0 0 0 65536) mapped) (fun t => t.rd F.LLC_CMD_STATUS_RESULT 0 == 4 && t.pinRanges.isEmpty) ∧
    ok (exec (.llcUnpin 0 0 0 65536) mapped) (fun t => t.rdb F.LLC_CMD_STATUS_DONE 0) ∧
    ok (exec (.llcFlush 0 0 1 65536) mapped) (fun t => t.rd F.LLC_CMD_STATUS_RESULT 0 == 1) := by decide +kernel

theorem test_pin_mask : (0xFFF0 : Nat) % 16 = 0 ∧ (∀ r, r < 32 → r ≠ 31 → up.rd F.LLC_PIN_MASK_WAYS r &&& 0xFFF = 0) ∧
    Tab.get [] up.pinRanges 31 = [] ∧
    ok (exec (.llcPinMaskWrite 31 0xFFF0) up) (fun t => t.rd F.LLC_PIN_MASK_WAYS 31 == 0xFFF && t.holds leasePin 31 31) ∧
    ok (exec (.llcPinMaskWrite 31 0xFFF8) up) (fun t => t.rdb F.LLC_PIN_ERR_BAD_WAYS 31 && t.rd F.LLC_PIN_MASK_WAYS 31 == 0) := by
  decide +kernel

theorem test_pin_mask_in_use : let s := { up with pinRanges := [(31, [(0, 65536)])] }
    Tab.get [] s.pinRanges 31 ≠ [] ∧
    ok (exec (.llcPinMaskWrite 31 0x10) s) (fun t => t.rdb F.LLC_PIN_ERR_IN_USE 31) := by decide +kernel

theorem test_stream_without_feature : planned.served 0 ∧ planned.rdb F.TIER_STRM_CFG_EN 7 = false ∧ planned.feature 18 = false ∧
    ok (exec (.streamEnableWindow 7 0) planned) (fun t => t.rdb F.TIER_STRM_STATUS_CFG_ERR 7 && !t.rdb F.TIER_STRM_CFG_EN 7) ∧
    ok (exec (.streamEnablePrefetch 7 0) planned)
      (fun t => t.rdb F.TIER_STRM_STATUS_CFG_ERR 7 && t.rd F.TIER_STRM_CFG_KIND 7 == 1) := by decide +kernel

/-- A stream's registers are set up over the mapped page; object 0 is its progress object. -/
def streamed : State :=
  (((mapped.wr F.SYS_FEAT_ACCEPT_BITS 0 (2 ^ 18)).wr F.SO_RANGE_COUNT 0 16).wr F.TIER_STRM_SIZE_VALUE 0 65536)

/-- CFG of a window stream of two layers, one ahead, its slices backed by Heath. -/
def winCfg : Word :=
  F.TIER_STRM_CFG_LAYERS.put (F.TIER_STRM_CFG_BACKING.put (F.TIER_STRM_CFG_DEPTH.put 0 1) 2) 2

theorem test_window_starts : streamed.rdb F.TIER_STRM_CFG_EN 0 = false ∧ streamed.feature 18 ∧
    (streamed.strmFields 0 ((winCfg ||| 1) &&& ~~~ 2)).winOk 0 ∧ ok (exec (.streamEnableWindow 0 winCfg) streamed)
      (fun t => t.rdb F.TIER_STRM_CFG_EN 0 && t.pages.map (·.2.stream) == [1]) := by decide +kernel

theorem test_prefetch_starts : (streamed.strmFields 0 (0 ||| 3)).preOk 0 ∧ ok (exec (.streamEnablePrefetch 0 0) streamed)
      (fun t => t.rdb F.TIER_STRM_CFG_EN 0 && t.rd F.TIER_STRM_POS_VALUE 0 == 0 && regsOnly streamed t) := by decide +kernel

theorem test_stream_on : let s := streamed.wr F.TIER_STRM_CFG_EN 0 1
    let q := s.wr F.TIER_STRM_CFG_KIND 0 1
    s.rdb F.TIER_STRM_CFG_EN 0 ∧ s.rd F.TIER_STRM_CFG_KIND 0 = 0 ∧ q.rd F.TIER_STRM_CFG_KIND 0 = 1 ∧
    ok (exec (.streamEnableWindow 0 0) s) (· == s) ∧ ok (exec (.streamDisable 0 0) s) (fun t => !t.rdb F.TIER_STRM_CFG_EN 0) ∧
    ok (exec (.windowReconcile 0) s) (· == (s.reconcile 0).flow) ∧
    ok (exec (.prefetchFire 0) q) (· == (q.prefetchFire 0).flow) := by decide +kernel

theorem test_heath_answers : let s := ran.setCore 2 { CoreRec.idle with stores := [⟨8, [1]⟩] }
    (s.core 2).stores = [⟨8, [1]⟩] ∧ (s.core 2).async = none ∧ (ran.core 2).stores = [] ∧
    ok (exec (.heathResponse 2 false) s) (fun t => (t.core 2).stores.isEmpty) ∧
    ok (exec (.heathResponse 2 true) ran) (· == ran) ∧
    ok (exec (.heathTimeout none 2) s) (fun t => (t.core 2).async == some 8 && (t.core 2).stores.isEmpty) := by decide +kernel

theorem test_heath_item_timeout : let it := { work .copy with stage := .running, started := true }
    let s := withItem planned it
    s.item? 7 = some it ∧ s.served 0 ∧ it.ended = none ∧ s.usesTier it .heath ∧
    ok (exec (.heathTimeout (some 7) 0) s) (· == (s.tierReqFail 7 0x0041).flow) := by decide +kernel

theorem test_tier_ports : let s := (up.wr F.TIER_MOOR_STATE_TARGET 0 (4 ^ 15)).wr F.TIER_HEATH_STATE_PORT 0 (4 ^ 7)
    s.moorState 15 = 1 ∧ s.heathState 7 = 1 ∧
    ok (exec (.tierPortDown true 15) up) (· == (up.tierPortDown true 15).flow) ∧
    ok (exec (.tierPortUp false 7) s) (· == (s.tierPortUp false 7).flow) ∧
    ok (exec (.tierLossTimeout true 15) s) (fun t => t.moorState 15 == 2) ∧
    ok (exec (.tierLossTimeout false 7) s) (fun t => t.heathState 7 == 2) := by decide +kernel

theorem test_declare : let s := (up.wr F.SYS_PORT_MAP_X16_ROLE 0 (3 * 4 ^ 7)).wr F.TIER_MOOR_TGT_KIND 15 1
    s.role 7 = 3 ∧ s.heathState 7 ≠ 2 ∧ s.rd F.TIER_MOOR_TGT_KIND 15 ≠ 0 ∧ s.moorState 15 ≠ 2 ∧
    ok (exec (.declareHeath (BitVec.ofNat 8 (2 ^ 7))) s) (fun t => t.heathState 7 == 2 && t.heathState 6 == 0) ∧
    ok (exec (.declareMoor (BitVec.ofNat 16 (2 ^ 15))) s) (fun t => t.moorState 15 == 2 && t.moorState 14 == 0) := by
  decide +kernel

/-! ### Watches, trackers, walkers -/

theorem test_watch : let c := F.SO_WATCH_CFG_SO.put 0 15
    let s := belled.wr F.SO_WATCH_VAL_THRESHOLD 15 1
    s.partOpen 0 ∧ s.soInRange 0 15 ∧ (s.soVal 15).toNat < s.rd F.SO_WATCH_VAL_THRESHOLD 15 ∧
    belled.rd F.SO_WATCH_VAL_THRESHOLD 15 ≤ (belled.soVal 15).toNat ∧
    belled.soInRange 0 (F.SO_WATCH_CFG_SO.get (F.SO_WATCH_CFG_SO.put 0 16)) = false ∧
    ok (exec (.watchArm 15 c) s) (fun t => t.rdb F.SO_WATCH_CFG_ARM 15 && t.rd F.SO_WATCH_CFG_SO 15 == 15) ∧
    ok (exec (.watchArm 15 c) belled) (fun t => !t.rdb F.SO_WATCH_CFG_ARM 15 && t.rdb F.SO_WATCH_CFG_FIRED 15) ∧
    ok (exec (.watchArm 15 (F.SO_WATCH_CFG_SO.put 0 16)) belled)
      (fun t => !t.rdb F.SO_WATCH_CFG_ARM 15 && t.rdb F.SO_DB_STATUS_OUT_OF_RANGE 0) := by decide +kernel

theorem test_tracker : let c := F.SO_PROG_CFG_SO.put 0 16
    let s := { belled with time := 9 }
    let e := s.wr F.SO_PROG_CFG_EN 7 1
    s.partOpen 1 ∧ s.rdb F.SO_PROG_CFG_EN 7 = false ∧ s.soInRange 1 16 ∧ s.soInRange 1 15 = false ∧
    ok (exec (.trackerEnable 7 c) s) (fun t => t.rdb F.SO_PROG_CFG_EN 7 &&
      t.rd F.SO_PROG_LAST_V_VALUE 7 == 0xFFFFFFFFFFFFFFFF && t.rd F.SO_PROG_LAST_T_NS 7 == 9) ∧
    ok (exec (.trackerEnable 7 (F.SO_PROG_CFG_SO.put 0 15)) s)
      (fun t => !t.rdb F.SO_PROG_CFG_EN 7 && t.rdb F.SO_PROG_CFG_CFG_ERR 7) ∧
    e.rdb F.SO_PROG_CFG_EN 7 ∧ e.walks = [] ∧ ok (exec (.trackerDisable 7 c) e) (fun t => !t.rdb F.SO_PROG_CFG_EN 7) := by
  decide +kernel

theorem test_tracker_rate : trackerRate 100 3 50 2 4 51 = 75 ∧ (3 : Nat) < 4 ∧ (100 : Nat) < 2 ^ 32 := by decide +kernel

theorem test_walker : let c := F.SO_WALK_CFG_START_SO.put 0 16
    let s := (belled.wr F.SYS_FEAT_ACCEPT_BITS 0 (2 ^ 17)).wr F.SO_WALK_COUNT_WALKS 3 4
    s.partOpen 1 ∧ s.rd F.SO_WALK_STATUS_STATE 3 = 0 ∧ s.feature 17 ∧ s.soInRange 1 16 ∧ s.rdb F.SO_WALK_CFG_EN 3 = false ∧
    belled.feature 17 = false ∧
    ok (exec (.walkerEnable 3 c 64) s) (fun t => t.rdb F.SO_WALK_CFG_EN 3 && t.rd F.SO_WALK_COUNT_WALKS 3 == 0 &&
      t.rd F.SO_WALK_CFG_START_SO 3 == 16 && t.reg Reg.SO_WALK_BLOCK 3 == 64) ∧
    ok (exec (.walkerEnable 3 c 64) belled) (fun t => !t.rdb F.SO_WALK_CFG_EN 3 && t.rdb F.SO_WALK_STATUS_BAD_BLOCK 3) ∧
    ok (exec (.walkerDisable 3 c) (s.wr F.SO_WALK_CFG_EN 3 1)) (fun t => !t.rdb F.SO_WALK_CFG_EN 3) := by decide +kernel

theorem test_walk_start : let s := (belled.wr F.SO_WALK_CFG_EN 3 1).wr F.SO_WALK_CFG_START_SO 3 16
    (belled.soVal (belled.rd F.SO_WALK_CFG_START_SO 3)).toNat ≤ belled.rd F.SO_WALK_COUNT_WALKS 3 ∧
    ok (exec (.walkStart 3) belled) (· == belled) ∧ s.served 1 ∧
    s.rd F.SO_WALK_COUNT_WALKS 3 < (s.soVal (s.rd F.SO_WALK_CFG_START_SO 3)).toNat ∧
    (s.bump F.SO_WALK_COUNT_WALKS 3 1).descWords 1 (s.rd F.SO_WALK_BLOCK_ADDR 3) 8 = none ∧
    ok (exec (.walkStart 3) s) (fun t => t.rd F.SO_WALK_COUNT_WALKS 3 == 1 && t.rdb F.SO_WALK_STATUS_BAD_BLOCK 3) := by
  decide +kernel

/-- Walker 3 of partition 1 has its next group before it: step 0 to 1, one entry. -/
theorem test_walker_group : let g : WalkGroup := { lo := 0, hi := 1, stride := 1, level := 1 }
    let r : WalkRec := { block := [0, 0, 0, 0, 0, 0, 0, 0], entries := [(1, 0)], descs := [0], levels := [(1, true)], stepNs := 0
                         calls := [], group := some g, issued := false, noticing := false, items := [], written := 0
                         failed := false, lost := false }
    let s := { belled with walks := [(3, r)] }
    let z := { belled with walks := [(3, { r with group := none })] }
    Tab.find? s.walks 3 = some r ∧ s.served 1 ∧ (s.walkTimes 1 r g).2 ≤ s.time + WB.lead r ∧ s.time ≤ (s.walkTimes 1 r g).2 ∧
    ok (exec (.walkerGroupIssue 3) s) (fun t => t.nextItem == s.nextItem + 1) ∧
    ok (exec (.walkerGroupIssue 3) z) (· == z) := by decide +kernel

theorem test_aging : let it := { work .copy with urg := 2, want := some true }
    let s := withItem planned it
    s.item? 7 = some it ∧ it.id = 7 ∧ 2 ≤ it.urg ∧ s.waits it ∧
    ok (exec (.aging 7) s) (fun t => t.item? 7 == some { it with aged := true }) := by decide +kernel

/-! ### Plans -/

theorem test_plan_load : let e := planned.wr F.PART_PLAN_STATUS_STATE 0 4
    planned.rd F.PART_PLAN_STATUS_STATE 0 ≠ 0 ∧ planned.rd F.PART_PLAN_STATUS_STATE 0 ≠ 4 ∧
    ok (exec (.planLoad 0) planned) (fun t => t.rdb F.PART_PLAN_STATUS_BUSY_REFUSED 0) ∧
    e.rd F.PART_PLAN_STATUS_STATE 0 = 4 ∧ e.served 0 ∧ ok (exec (.planLoad 0) e)
      (fun t => t.rd F.PART_PLAN_STATUS_STATE 0 == 1 && (t.plan 0).load.isSome) := by decide +kernel

theorem test_plan_end : let l : Load := { reason := 9, plan := none, report := [1, 2, 3, 4, 5, 6, 7], changed := false }
    let g : Load := { reason := 0, plan := some plan, report := [0, 0, 0, 0, 0, 0, 0], changed := false }
    let s := { up with plans := [(31, { PlanState.empty with load := some l })] }
    let q := { up with plans := [(31, { PlanState.empty with load := some g })] }
    (s.plan 31).load = some l ∧ l.plan = none ∧ (q.plan 31).load = some g ∧ g.plan = some plan ∧ g.changed = false ∧ g.reason = 0 ∧
    ok (exec (.planLoadEnd 31) s) (fun t => t.rd F.PART_PLAN_STATUS_STATE 31 == 4) ∧
    ok (exec (.planLoadTimeout 31) s) (fun t => t.rd F.PART_PLAN_STATUS_STATE 31 == 4) ∧
    ok (exec (.planLoadEnd 31) q) (fun t => t.rd F.PART_PLAN_STATUS_STATE 31 == 2 && (t.plan 31).plan == some plan) := by
  decide +kernel

theorem test_unload : let b := (ran.wr F.SRT_IDENT_ASSIGNED 2 1)
    planned.rd F.PART_PLAN_STATUS_STATE 0 = 2 ∧ planned.partBusy 0 = false ∧ b.partBusy 0 ∧
    ok (exec (.unload 0) planned) (fun t => t.rd F.PART_PLAN_STATUS_STATE 0 == 3) ∧
    ok (exec (.unload 0) b) (fun t => t.rdb F.PART_PLAN_STATUS_BUSY_REFUSED 0 && t.rd F.PART_PLAN_STATUS_STATE 0 == 2) := by
  decide +kernel

theorem test_unload_complete : let s := planned.wr F.PART_PLAN_STATUS_STATE 0 3
    s.rd F.PART_PLAN_STATUS_STATE 0 = 3 ∧ (∀ c, c < 64 → s.corePart? c ≠ some 0) ∧
    ok (exec (.unloadComplete 0) s) (fun t => t.rd F.PART_PLAN_STATUS_STATE 0 == 0 && t.plan 0 == PlanState.empty) := by
  decide +kernel

/-! ### Media errors, zeroing, dies -/

/-- The scrubber runs; M3 has both stacks. -/
def scrubbed : State := (up.wr F.ERR_SCRUB_CFG_EN 0 1).wr F.SYS_HBM_STATUS_ONLINE 0 255

/-- The last sector of M3. -/
def lastSector : Nat := 3 * 2 ^ 39 + 96 * gib - 32

theorem test_scrub : scrubbed.rdb F.ERR_SCRUB_CFG_EN 0 ∧ scrubbed.meadowOn (dieOf lastSector) ∧
    lastSector % 2 ^ 39 < scrubbed.dieCap (dieOf lastSector) ∧ (scrubbed.setPoison lastSector true).poisonAt lastSector ∧
    ok (exec (.scrubRead (BitVec.ofNat 41 (lastSector + 31)) .clean false false) scrubbed) (· == scrubbed.flow) ∧
    ok (exec (.scrubRead (BitVec.ofNat 41 lastSector) .correctable false false) scrubbed)
      (· == ((scrubbed.countCe (scrubbed.siteOf lastSector)).noteFixed lastSector).flow) ∧
    ok (exec (.scrubRead (BitVec.ofNat 41 lastSector) (.uncorrectable .device) false false) (scrubbed.setPoison lastSector true))
      (· == (scrubbed.setPoison lastSector true).flow) ∧
    ok (exec (.scrubRead (BitVec.ofNat 41 lastSector) .clean true true) scrubbed)
      (fun t => t.rd F.ERR_SCRUB_STATUS_PASSES 0 == 1 && t.rdb F.ERR_SCRUB_STATUS_BEHIND 0) := by decide +kernel

theorem test_scrub_ue : ok (exec (.scrubRead 64 (.uncorrectable (.table 3)) false false) scrubbed)
    (· == (scrubbed.scrubUe 64 (.table 3)).flow) := by decide +kernel

theorem test_llc_scrub : scrubbed.meadowOn 3 ∧ belled.soOwner 31 = some 1 ∧
    ok (exec (.llcScrub 3 32767 15 .dataCorrected) scrubbed) (fun t => t.rd F.ERR_CE_OTHER_LLC 0 == 1) ∧
    ok (exec (.llcScrub 3 0 0 .scratchCorrected) scrubbed) (fun t => t.rd F.ERR_CE_OTHER_SCRATCH 0 == 1) ∧
    ok (exec (.llcScrub 3 0 0 .syncCorrected) scrubbed) (fun t => t.rd F.ERR_CE_OTHER_SYNC 0 == 1) := by decide +kernel

theorem test_heath_media : let s := (up.wr F.TIER_HEATH_RGN_VALID 15 1).wr F.TIER_HEATH_RGN_SIZE 15 1
    let k := heathKey (2 ^ 28 - 32)
    (∃ r ∈ s.regions, heathKey r.2.1 ≤ k ∧ k < heathKey (r.2.1 + r.2.2)) ∧ s.poisonAt k = false ∧
    ok (exec (.heathMediaEvent (BitVec.ofNat 48 (2 ^ 28 - 1))) s) (fun t => t.poisonAt k) := by decide +kernel

theorem test_zero_range : let z : ZeroRange := { key := 0, len := 4096, part := 0, why := .normal }
    let s := { scrubbed with zeroQ := [z], mem := [(9, 1), (5000, 2)] }
    let u := BitVec.ofNat 6 (s.unitOf 0)
    s.zeroQ.find? (fun z => s.unitOf z.key == u.toNat) = some z ∧ homeOf z.key = .meadow ∧
    ok (exec (.zeroRange u) s) (fun t => t.mem == [(5000, 2)] && t.zeroQ.isEmpty) ∧
    (∀ z ∈ up.zeroQ, up.unitOf z.key ≠ 63) ∧ ok (exec (.zeroRange 63) up) (· == up) := by decide +kernel

theorem test_memory_cells : Memory.wf (memStore [(7, 1)] 6 [5, 0, 3]) ∧ memStore [(7, 1)] 6 [5, 0, 3] = [(6, 5), (8, 3)] := by
  decide +kernel

theorem test_die_failures : scrubbed.stackOnline 7 ∧ scrubbed.meadowOn 2 ∧ scrubbed.meadowOn 3 ∧ (2 : BitVec 2) ≠ 3 ∧
    scrubbed.variant.posts.testBit 1 ∧ scrubbed.err.postDown.testBit 1 = false ∧
    ok (exec (.hbmStackFailure 7) scrubbed) (fun t => !t.meadowOn 3 && t.meadowOn 2) ∧
    ok (exec (.meshLinkFailure 2 3) scrubbed) (fun t => !t.meadowOn 3 && t.meadowOn 2) ∧
    ok (exec (.dieParityError 1) scrubbed) (fun t => !t.meadowOn 1) ∧
    ok (exec (.postLinkFailure 1) scrubbed) (fun t => t.err.postDown.testBit 1) := by decide +kernel

theorem test_device_causes : let f := scrubbed.wr F.ERR_DIE_STATUS_FENCED 0 8
    let r := scrubbed.wr F.HOST_FN_STATUS_FLR_ACTIVE 63 1
    (f.rd F.ERR_DIE_STATUS_FENCED 0).testBit 3 ∧ r.rdb F.HOST_FN_STATUS_FLR_ACTIVE 63 ∧
    ok (exec (.fenceTimeout 3) f) (fun t => t.err.deviceStop && t.rd F.ERR_DEVICE_CAUSE_CAUSE 0 == 5) ∧
    ok (exec (.flrTimeout 63) r) (fun t => t.err.deviceStop && t.rd F.ERR_DEVICE_CAUSE_CAUSE 0 == 3) ∧
    scrubbed.err.deviceStop = false ∧ scrubbed.rd F.ERR_DEVICE_CAUSE_CAUSE 0 = 0 ∧ (15 : Nat) ≠ 1 := by decide +kernel

theorem test_escalation : let s := { scrubbed.wr F.ERR_ESCALATE_MS_MS 0 1 with
      err := { ErrState.none with deviceStop := true }, pins := { scrubbed.pins with hostPerstLow := false } }
    s.err.deviceStop ∧ s.rd F.ERR_ESCALATE_MS_MS 0 ≠ 0 ∧ State.reset.meadowOn 3 = false ∧
    State.reset.fence 3 4 = State.reset ∧ ok (exec .escalationTimeout s) (fun t => t.phase == phRom) := by decide +kernel

/-! ### Leases and resets -/

/-- CMD0 of a lease command on ring 511 for partition 31. -/
def leaseWord : Word :=
  F.PART_LEASE_CMD0_PARTITION.put (F.PART_LEASE_CMD0_INDEX.put (F.PART_LEASE_CMD0_KIND.put 0 leaseRing) 511) 31

theorem test_grant : up.rdb F.PART_LEASE_CTRL_GO 0 = false ∧ up.leaseCheck 1 leaseRing 511 31 0 0 = 0 ∧
    ok (exec (.grant leaseWord) up) (fun t => t.lease leaseRing 511 == { state := 1, holder := 31, epoch := 1 } &&
      t.rd F.PART_LEASE_STATUS_RESULT 0 == 0 && t.rdb F.PART_LEASE_STATUS_DONE 0 && !t.rdb F.PART_LEASE_CTRL_GO 0) := by
  decide +kernel

theorem test_grant_busy : let s := up.wr F.PART_LEASE_CTRL_GO 0 1
    s.rdb F.PART_LEASE_CTRL_GO 0 ∧ ok (exec (.grant leaseWord) s)
      (fun t => t.rdb F.PART_LEASE_STATUS_BUSY_REFUSED 0 && sameRegs s t [(Reg.PART_LEASE_STATUS, 0)]) := by decide +kernel

theorem test_revoke_query : let s := { up with leases := [(leaseRing * 4096 + 511, { state := 1, holder := 31, epoch := 9 })] }
    s.leaseCheck 2 leaseRing 511 31 0 0 = 0 ∧ s.leaseCheck 3 leaseRing 511 31 0 0 = 0 ∧
    ok (exec (.revoke leaseWord) s) (fun t => (t.lease leaseRing 511).state == 2) ∧
    ok (exec (.query leaseWord) s) (fun t => t.rd F.PART_LEASE_RESULT_STATE 0 == 1 && t.rd F.PART_LEASE_RESULT_EPOCH 0 == 9) ∧
    (let w := F.PART_LEASE_CMD0_INDEX.put (F.PART_LEASE_CMD0_KIND.put 0 leaseRing) 512
     s.leaseCheck 3 leaseRing 512 0 0 0 = 1 ∧ ok (exec (.query w) s) (fun t => t.rd F.PART_LEASE_STATUS_RESULT 0 == 1)) := by
  decide +kernel

theorem test_assign_cores : let s := up.setCoreState 63 coreOff
    s.leaseCheck 4 0 0 0 0 0 = 0 ∧ s.leaseCheck 5 0 0 0 0 0 = 0 ∧
    ok (exec (.assignCores 0 0) s) (fun t => t.rdb F.PART_LEASE_STATUS_DONE 0 && t.rd F.PART_LEASE_STATUS_RESULT 0 == 0) ∧
    ok (exec (.unassignCores 0 0) s) (fun t => t.rdb F.PART_LEASE_STATUS_DONE 0) := by decide +kernel

theorem test_part_reset : let s := up.wr F.PART_STATE_STATE 31 partResetting
    up.partState 31 ≠ partResetting ∧ s.partState 31 = partResetting ∧
    ok (exec (.partReset 31) up) (fun t => t.partState 31 == partResetting) ∧ ok (exec (.partReset 31) s) (· == s) ∧
    ok (exec (.partResetComplete 31) s) (fun t => t.partState 31 == partActive &&
      t.rdb F.PART_RECOVERY_STATUS_RESET_DONE 31) := by decide +kernel

theorem test_revocation : let s := { up with leases := [(4096 + 255, { state := 2, holder := 3, epoch := 9 })] }
    (s.lease 1 255).state = 2 ∧ s.revoking 1 255 = false ∧ s.rangeWr = [] ∧ (up.lease 1 255).state ≠ 2 ∧
    ok (exec (.revocationComplete 1 255) s) (fun t => t.lease 1 255 == { state := 0, holder := 0, epoch := 9 }) ∧
    ok (exec (.revocationComplete 1 255) up) (· == up) := by decide +kernel

theorem test_context_reclaim : let s := { up with leases := [(6 * 4096 + 127, { state := 1, holder := 3, epoch := 9 })] }
    (s.lease 6 127).state = 1 ∧
    ok (exec (.contextReclaim false 127) s) (fun t => t.rdb F.PART_RECOVERY_STATUS_CTX_RECLAIMED 3) := by decide +kernel

theorem test_ranges : up.partState 31 ≠ partResetting ∧ up.rangeWr = [] ∧ up.rangeVal leaseConn 31 = 0 ∧
    (∀ q, q < 32 → q ≠ 31 → up.rangeVal leaseConn q = 0) ∧ (∀ q, q < 32 → q ≠ 31 → up.rangeVal leaseSync q = 0) ∧
    up.rdb F.PART_QUOTA_SO_EN 31 = false ∧
    ok (exec (.soRangeWrite 31 4095 2) up) (fun t => t.rdb F.SO_RANGE_ERR_OVERLAP 0 && sameRegs up t [(Reg.SO_RANGE_ERR, 0)]) ∧
    ok (exec (.crrConnRangeWrite 31 4095 2) up) (fun t => t.rdb F.SO_RANGE_ERR_OVERLAP 0) := by decide +kernel

theorem test_range_taken : ok (exec (.crrConnRangeWrite 31 4094 2) up) (fun t => t.rangeVal leaseConn 31 == 4094 + 2 * 4096 &&
      t.lease leaseConn 4095 == { state := 1, holder := 31, epoch := 1 } && t.connState 4095 == connClosed) ∧
    ok (exec (.soRangeWrite 31 4094 2) { up with sos := [(4094, 7)] }) (fun t => t.soVal 4094 == 0 &&
      t.lease leaseSync 4094 == { state := 1, holder := 31, epoch := 1 }) := by decide +kernel

theorem test_quiescence : let s := { up with leases := [(4096 + 255, { state := 2, holder := 3, epoch := 9 })] }
    (s.lease 1 255).state = 2 ∧ (s.fence 3 3).meadowOn 3 = false ∧
    ok (exec (.quiescenceTimeout 3 (some (1, 255)) 0) s) (fun t => (t.lease 1 255).state == 0) := by decide +kernel

theorem test_warm_reset : let s := { scrubbed with pins := { scrubbed.pins with hostPerstLow := false }, mem := [(9, 1), (heathKey 0, 2)], time := 5 }
    s.pins.held = false ∧ s.pins.hostPerstLow = false ∧ s.boot.escalate = false ∧ (s.warmReset 3).phase = phRom ∧
    (s.warmReset 3).rd F.SYS_RESET_CAUSE_LAST 0 = 3 ∧ (s.warmReset 3).time = 0 ∧ (s.warmReset 3).mem = [(heathKey 0, 2)] := by
  decide +kernel

theorem test_device_resets : scrubbed.pins.held = false ∧ (0xA4 : BitVec 8) ≠ 0xA5 ∧
    exec .hotReset scrubbed = .next (scrubbed.warmReset 3) ∧ exec (.warm 0xA5) scrubbed = .next (scrubbed.warmReset 4) ∧
    exec (.cold 0xA5) scrubbed = .next (scrubbed.coldReset 1) ∧ exec (.cold 0xA4) scrubbed = .next scrubbed ∧
    exec .hotReset State.reset = .next State.reset := ⟨by decide, by decide, rfl, rfl, rfl, rfl, rfl⟩

theorem test_watchdog : let s := { scrubbed with pins := { scrubbed.pins with hostPerstLow := false } }
    s.pins.hostPerstLow = false ∧ ok (exec .mcWatchdog s) (fun t => t.phase == phRom &&
      t.rd F.SYS_RESET_CAUSE_LAST 0 == 6 && t.rd F.SYS_RESET_CAUSE_ESCALATION 0 == 1) ∧
    ok (exec (.clockLoss false) s) (fun t => t.pins.held && t.pins.devFaultLow) := by decide +kernel

theorem test_power_pins : up.phase = 0 ∧ State.reset.pins.pwrok = false ∧
    ok (exec .hostPerstDeassert up) (fun t => t.phase == phRom && !t.pins.hostPerstLow) ∧
    ok (exec .pwrokFall up) (fun t => t.pins.held && !t.pins.pwrok) ∧
    ok (exec .pwrokRise State.reset) (fun t => t.phase == phStraps && t.pins.pwrok && t.pins.held) := by decide +kernel

/-! ### Start-up, power, registers -/

theorem test_straps : let s := { up.setPhase phStraps with pins := { up.pins with held := true, hostPerstLow := false } }
    s.pins.pwrok ∧ s.phase = phStraps ∧ s.pins.held ∧ ok (exec (.strapSample 0xFFF false) s) (fun t => t.phase == phRom &&
      !t.pins.held && t.rd F.SYS_STRAPS_HOSTPORT 0 == 3 && t.rd F.SYS_STRAPS_BOOT_SRC_APPLIED 0 == 0) := by decide +kernel

def slot : FwSlot := { sequence := 1, image := image }

theorem test_rom : let s := up.setPhase phRom
    let r := s.wr F.SYS_STRAPS_BOOT_SRC_APPLIED 0 1
    let f := { s with boot := { s.boot with slotA := some slot } }
    s.phase = phRom ∧ r.rd F.SYS_STRAPS_BOOT_SRC_APPLIED 0 ≠ 0 ∧ f.boot.slotA = some slot ∧ f.boot.slotB = none ∧
    f.accepts slot.image ∧ ok (exec .pllLockTimeout s) (fun t => t.phase == phFailed && t.rd F.SYS_START_STATUS_FAIL_CAUSE 0 == 1) ∧
    ok (exec (.firmwareStart false false false) s) (fun t => t.rd F.SYS_START_STATUS_FAIL_CAUSE 0 == 2) ∧
    ok (exec (.firmwareStart true false false) r) (fun t => t.phase == phRecovery) ∧
    exec (.firmwareStart true false false) f = .next (f.runImage slot.image (some false)) := by
  refine ⟨by decide +kernel, by decide +kernel, rfl, rfl, by decide, by decide +kernel, by decide +kernel, by decide +kernel, ?_⟩
  rfl

theorem test_recovery : (up.setPhase phRecovery).phase = phRecovery ∧ (up.setPhase phRecovery).accepts image := by decide +kernel

theorem test_dies_done : let s := (up.setPhase phDies)
    s.phase = phDies ∧ (3 : Nat) % 4 = 3 ∧ s.variant.sites.testBit 0 ∧ s.rdb F.ERR_RETIRE_FULL 0 = false ∧
    ok (exec (.diesDone 0 0 0) s) (fun t => t.phase == phFailed && t.rd F.SYS_START_STATUS_FAIL_CAUSE 0 == 4) ∧
    ok (exec (.diesDone 3 0 0) s) (fun t => t.phase == phZero && t.mem == s.mem) := by decide +kernel

theorem test_zero_pass : let s := { up.setPhase phZero with boot := { up.boot with sites := 3 } }
    s.phase = phZero ∧ s.boot.sites.testBit 0 ∧ ok (exec (.zeroPassDone 0xFE) s) (fun t => t.phase == phLinks) ∧
    ok (exec (.zeroPassDone 0xFF) s) (fun t => t.rd F.SYS_START_STATUS_FAIL_CAUSE 0 == 4) := by decide +kernel

theorem test_links_done : (up.setPhase phLinks).phase = phLinks ∧ ok (exec (.linksDone []) (up.setPhase phLinks))
    (fun t => t.phase == phReady && t.pins.devReady && t.rdb F.SYS_START_STATUS_READY 0) := by decide +kernel

theorem test_update : let s := { up with boot := { up.boot with running := some image, fromSlot := some true } }
    s.boot.running.isSome ∧ s.boot.fromSlot = some true ∧ s.accepts image ∧ s.pins.pwrfailLow = false ∧
    ok (exec (.firmwareUpdate image true) s) (fun t => t.boot.slotA.map (·.image) == some image && t.boot.slotB.isNone) := by
  decide +kernel

theorem test_throttle : throttleLevel 7 false true false = 7 ∧ throttleLevel 0 false false true = 0 ∧
    ok (exec .throttleTick up) (fun t => regsOnly { up with pins := t.pins, overTj := t.overTj } t) ∧
    ok (exec .pwrbrkFall up) (fun t => t.rd F.PWR_THROTTLE_STATUS_LEVEL 0 == 7 && t.pins.thermAlertLow) ∧
    ok (exec .pwrbrkRise up) (fun t => !t.pins.pwrbrkLow) := by decide +kernel

theorem test_samples : let s := { scrubbed with overRun := 2 }
    let hot := List.replicate 8 (some (110 * 16))
    let cool := List.replicate 8 (some (99 * 16))
    s.overRun = 2 ∧ 110 * 16 ≤ maxReading s.dieOnline hot 8 ∧ maxReading s.dieOnline cool 8 < 110 * 16 ∧
    maxReading s.stackOnline cool 8 < 100 * 16 ∧
    ok (exec (.sensorSample hot cool 5 (List.replicate 10 0)) s) (fun t => t.pins.thermTripLow && t.pins.held) ∧
    ok (exec (.sensorSample cool cool 5 (List.replicate 10 0)) s) (fun t => t.overRun == 0 && t.rd F.PWR_POWER_MW 0 == 5) := by
  decide +kernel

theorem test_power_fail : let s := up.wr F.MGT_CFGS_CTRL_GO 0 1
    s.rdb F.PWR_PWRFAIL_STATUS_LEVEL 0 = false ∧ s.rdb F.MGT_CFGS_CTRL_GO 0 ∧
    ok (exec .pwrfailFall s) (fun t => t.rdb F.PWR_PWRFAIL_STATUS_SEEN 0 && t.rd F.MGT_CFGS_STATUS_RESULT 0 == 5 &&
      !t.rdb F.MGT_CFGS_CTRL_GO 0) ∧ ok (exec .pwrfailRise s) (fun t => !t.rdb F.PWR_PWRFAIL_STATUS_LEVEL 0) := by decide +kernel

/-! ### Register accesses and the configuration store -/

theorem test_register_write : up.fnExists 0 ∧ up.rdb F.HOST_FN_STATUS_FLR_ACTIVE 0 = false ∧
    up.place 0 25096 = .reg Reg.SO_PROG_INIT 0 ∧ goodAccess 25096 8 ∧ goodAccess 25096 3 = false ∧
    up.instancePart Reg.SO_PROG_INIT 0 = some 0 ∧ up.partState 0 ≠ partResetting ∧ up.rdb F.SYS_OPEN_OPENED 0 = false ∧
    up.regKept Reg.SO_PROG_INIT 0 = false ∧ accMask Acc.writable true (regSpec Reg.SO_PROG_INIT).fields ≠ 0 ∧
    (up.wr F.PART_STATE_STATE 0 partResetting).partState 0 = partResetting ∧
    ok (exec (.registerWrite 0 (.bar0 25096 8 7)) up) (fun t => t.reg Reg.SO_PROG_INIT 0 == 7 && regsOnly up t &&
      sameRegs up t [(Reg.SO_PROG_INIT, 0)]) ∧
    ok (exec (.registerWrite 0 (.bar0 25096 3 7)) up) (fun t => t.rdb F.SYS_BAD_ACCESS_VALID 0) ∧
    ok (exec (.badAccess 0 25096 3 true) up) (fun t => t.out == [.readData 0 [0, 0, 0]]) ∧
    ok (exec (.registerWrite 0 (.bar0 25096 8 7)) (up.wr F.PART_STATE_STATE 0 partResetting))
      (· == up.wr F.PART_STATE_STATE 0 partResetting) := by decide +kernel

theorem test_register_plain : ∀ w, up.opWritePart Reg.SO_PROG_INIT 0 w = none ∧ up.opWriteDevice Reg.SO_PROG_INIT 0 w = none :=
  fun _ => ⟨rfl, rfl⟩

theorem test_config_write : (31 : Nat) < 64 ∧ belled.fnExists 1 ∧
    ok (exec (.registerWrite 1 (.config (.maxReadRequest 512))) belled) (fun t => t.mrrsOf 1 == 512) := by decide +kernel

theorem test_identification : up.barWord 66 0 = 10 ∧ up.barWord 66 8 = 0 ∧
    up.cfgIdent 0 = [0x1F3D, 0x480, 0x120000, 0xB0, 0x1F3D, 0xA00 + up.variant.code] ∧
    up.cfgIdent 5 = [0x1F3D, 0x481, 0x120000, 0xB0, 0x1F3D, 0xA00 + up.variant.code] := by decide +kernel

theorem test_reserve_read : up.inReserve (up.rd F.MGT_RSV_ADDR_DPA 0 * 8) = false ∧ ok (exec .mgtRsvRead up) (fun t =>
    t.out == [.readData 0 (List.replicate 8 0)] && t.rd F.MGT_RSV_ADDR_DPA 0 == 1 && t.rdb F.SYS_BAD_ACCESS_VALID 0) := by
  decide +kernel

/-- The MC's firmware runs. -/
def stored : State := { up with boot := { up.boot with running := some image } }

theorem test_store_busy : let s := stored.wr F.MGT_CFGS_CTRL_GO 0 1
    s.cfgsOpen ∧ s.rdb F.MGT_CFGS_CTRL_GO 0 ∧ ok (exec (.cfgsRead 0 4) s) (· == s.flag F.MGT_CFGS_STATUS_BUSY_REFUSED 0) ∧
    ok (exec (.cfgsWrite (some (0, 4)) none) s) (· == s.flag F.MGT_CFGS_STATUS_BUSY_REFUSED 0) ∧
    ok (exec (.cfgsClear true none) s) (· == s.flag F.MGT_CFGS_STATUS_BUSY_REFUSED 0) := by decide +kernel

theorem test_store_checks : stored.cfgsOpen ∧ stored.rdb F.MGT_CFGS_CTRL_GO 0 = false ∧ stored.boot.newest = none ∧
    stored.pins.pwrfailLow = false ∧
    ok (exec (.cfgsRead 0 4) stored) (fun t => t.rd F.MGT_CFGS_STATUS_RESULT 0 == 3 && t.rdb F.MGT_CFGS_STATUS_DONE 0) ∧
    ok (exec (.cfgsWrite (some (0, 3)) none) stored) (fun t => t.rd F.MGT_CFGS_STATUS_RESULT 0 == 1) ∧
    ok (exec (.cfgsClear true none) stored) (fun t => t.rdb F.MGT_CFGS_CTRL_GO 0 && t.boot.bank0.isNone) ∧
    ok (exec (.cfgsClear true none) { stored with pins := { stored.pins with pwrfailLow := true } })
      (fun t => t.rd F.MGT_CFGS_STATUS_RESULT 0 == 5) := by decide +kernel

theorem test_store_write : let b : CfgBank := { sequence := 2 ^ 32 - 1, payload := [] }
    let s := { (stored.wr F.MGT_CFGS_CTRL_GO 0 1).wr F.MGT_CFGS_CMD0_OP 0 2 with boot := { stored.boot with bank0 := some b } }
    let r := { stored with boot := { stored.boot with bank0 := some b } }
    s.cfgsOpen ∧ s.rd F.MGT_CFGS_CMD0_OP 0 = 2 ∧ s.boot.newest = some (false, b) ∧
    ok (exec (.cfgsWrite none (some .verified)) s) (fun t => t.boot.bank1.map (·.sequence) == some 0 &&
      t.boot.bank0 == some b && t.rd F.MGT_CFGS_STATUS_RESULT 0 == 0) ∧
    b.payload.length < 2 ^ 20 ∧ b.payload.take 4 = [] ∧
    ok (exec (.cfgsRead 0 4) r) (fun t => t.rd F.MGT_CFGS_STATUS_LENGTH 0 == 0 && t.rd F.MGT_CFGS_STATUS_RESULT 0 == 0) := by
  decide +kernel

theorem test_config_defaults : let s := up.setPhase phConfig
    s.phase = phConfig ∧ (s.pins.straps.testBit 11 = false ∨ s.boot.newest = none) ∧
    s.rd F.SYS_STRAPS_HOSTPORT 0 < s.variant.ports ∧ ok (exec .configApply s) (fun t => t.phase == phDies &&
      t.rdb F.SYS_START_STATUS_CFG_DEFAULTS 0 && t.role 0 == 1) := by decide +kernel

/-! ### Courier -/

/-- Connection 0 belongs to partition 0, whose range it is; Ethernet port 0 is a Courier port and up. -/
def courier : State :=
  let s := ((up.wr F.SYS_PORT_MAP_ETH_ROLE 0 2).wr F.CRR_PORT_STATUS_UP 0 1).wr F.CRR_CONN_RANGE_COUNT 0 16
  { s with leases := [(leaseConn * 4096, { state := 1, holder := 0, epoch := 1 })] }

/-- Connection 0 in a state, with a record. -/
def conned (st : Nat) (c : Conn) : State :=
  let s := (courier.wr F.CRR_CONN_STATE_STATE 0 st).wr F.CRR_CONN_STATE_VER 0 1
  { s with eth := { s.eth with conns := [(0, c)] } }

theorem test_connection_busy : let s := courier.wr F.CRR_CMD_CTRL_GO 0 1
    s.served 0 ∧ s.rdb F.CRR_CMD_CTRL_GO 0 ∧
    ok (exec (.connOpenListen 0 [0, 0, 0, 0, 0, 0, 0, 0]) s) (· == s.flag F.CRR_CMD_STATUS_BUSY_REFUSED 0) ∧
    ok (exec (.connOpen 0 [0, 0, 0, 0, 0, 0, 0, 0]) s) (· == s.flag F.CRR_CMD_STATUS_BUSY_REFUSED 0) ∧
    ok (exec (.connClose 0 0) s) (· == (s.flag F.CRR_CMD_STATUS_BUSY_REFUSED 0).flow) := by decide +kernel

/-- Command words that open connection 0: version 1, port 0. -/
def openWords : List Word :=
  [2 ^ 36, 64 + 64 * 2 ^ 24 + 2 ^ 40, 7, 0, 0, 0, 0, 0]

theorem test_connection_opens : courier.rdb F.CRR_CMD_CTRL_GO 0 = false ∧ (courier.crrWords 0 openWords 1 true).crrCheck 0 = 0 ∧
    (courier.crrWords 0 openWords 1 false).crrCheck 0 = 0 ∧
    ok (exec (.connOpenListen 0 openWords) courier) (fun t => t.connState 0 == connListen && (t.conn 0).cookie == 7 &&
      t.rdb F.CRR_CMD_STATUS_DONE 0) ∧
    ok (exec (.connOpen 0 openWords) courier) (fun t => t.connState 0 == connOpening && t.rd F.CRR_CONN_STATE_GEN 0 == 1 &&
      t.rdb F.CRR_CMD_CTRL_GO 0 && t.out.length == 1) := by decide +kernel

theorem test_connection_refused : let w : List Word := [16 * 2 ^ 8, 0, 0, 0, 0, 0, 0, 0]
    (courier.crrWords 0 w 1 true).crrCheck 0 ≠ 0 ∧ (courier.crrWords 0 w 1 false).crrCheck 0 ≠ 0 ∧
    ok (exec (.connOpen 0 w) courier) (fun t => t.rdb F.CRR_CMD_STATUS_DONE 0 && t.out.isEmpty) := by decide +kernel

theorem test_connection_close : let y (s : State) := (s.wr F.CRR_CMD0_OP 0 2).wr F.CRR_CMD0_CONN 0 0
    let a := conned connClosing { Conn.closed with verMax := 1 }
    let b := conned connOpen { Conn.closed with verMax := 1, reqs := [{ trans := 1, opcode := 8, item := 0, k := 0, since := 0 }] }
    let c := conned connListen Conn.closed
    (y a).crrCheck 0 = 0 ∧ (y b).crrCheck 0 = 0 ∧ (y c).crrCheck 0 = 0 ∧
    ok (exec (.connClose 0 0) a) (fun t => t.connState 0 == connClosing && t.rdb F.CRR_CMD_STATUS_DONE 0) ∧
    ok (exec (.connClose 0 0) b) (fun t => t.connState 0 == connClosing && t.rdb F.CRR_CMD_STATUS_DONE 0) ∧
    ok (exec (.connClose 0 0) c) (fun t => t.connState 0 == connClosed) := by decide +kernel

theorem test_open_timers : let s := conned connOpening { Conn.closed with verMax := 1, cmd := some (0, 0) }
    s.connState 0 = connOpening ∧ (s.conn 0).cmd = some (0, 0) ∧ courier.connState 0 ≠ connOpening ∧
    ok (exec (.openRepeat 0) s) (fun t => t.out.length == 1) ∧ ok (exec (.openRepeat 0) courier) (· == courier) ∧
    ok (exec (.openTimeout 0) courier) (· == courier) ∧ ok (exec (.openTimeout 0) s) (fun t =>
      t.connState 0 == connClosed && t.rd F.CRR_CMD_STATUS_RESULT 0 == 6) := by decide +kernel

theorem test_close_timers : let a := conned connClosing { Conn.closed with verMax := 1, closes := 1 }
    let b := conned connClosing { Conn.closed with verMax := 1, closes := 3 }
    (a.conn 0).closes = 1 ∧ (b.conn 0).closes = 3 ∧ ok (exec (.closeRepeat 0) a) (fun t => (t.conn 0).closes == 2) ∧
    ok (exec (.closeRepeat 0) b) (fun t => t.connState 0 == connClosed) := by decide +kernel

def packet : Packet :=
  { ver := 1, typ := 1, cls := 2, first := true, last := true, ackValid := true, ece := false, dstConn := 0, srcConn := 0
    dstGen := 0, srcGen := 0, psn := 0, ack := 0xFFFFFF
    opcode := 0, trans := 1, offset := 0, payload := [] }

theorem test_packet : packet.ver < 16 ∧ packet.typ < 16 ∧ packet.cls < 4 ∧ packet.dstConn < 2 ^ 16 ∧ packet.psn < 2 ^ 24 ∧
    packet.ack < 2 ^ 24 ∧ packet.payload.length < 2 ^ 16 ∧ Packet.parse packet.bytes = some packet := by decide +kernel

theorem test_retransmission : let c := { Conn.closed with verMax := 1, replay := [packet], w := 64, replayKib := 64 }
    let a := conned connOpen c
    let b := (conned connOpen c).wr F.CRR_CONN_STATE_RETRIES 0 7
    a.connLive 0 ∧ (a.conn 0).replay = [packet] ∧ a.connVer 0 = 1 ∧ a.rd F.CRR_CONN_STATE_RETRIES 0 < 7 ∧
    b.rd F.CRR_CONN_STATE_RETRIES 0 = 7 ∧
    ok (exec (.retransmitTimeout 0) a) (fun t => t.rd F.CRR_CONN_STATE_RETRIES 0 == 1 && t.out.length == 1) ∧
    ok (exec (.retransmitTimeout 0) b) (fun t => t.out.isEmpty) := by decide +kernel

theorem test_other_timers : let r : CrrReq := { trans := 1, opcode := 8, item := 0, k := 0, since := 0 }
    let s := conned connOpen { Conn.closed with verMax := 1, unacked := 2, reqs := [r], w := 64, replayKib := 64 }
    s.connLive 0 ∧ (s.conn 0).unacked ≠ 0 ∧ (s.conn 0).reqs ≠ [] ∧ (∃ r ∈ (s.conn 0).reqs, r.trans = (1 : BitVec 32).toNat) ∧
    ok (exec (.ackTimer 0) s) (fun t => (t.conn 0).unacked == 0 && t.out.length == 1) ∧
    ok (exec (.nopKeepalive 0) s) (fun t => (t.conn 0).nextTrans == 1) ∧
    ok (exec (.responseTimeout 0 1) s) (fun t => t.connState 0 != connOpen) := by decide +kernel

/-- A frame with a packet, for connection 0 on port 0. -/
def frame : RxFrame :=
  { fcs := true, size := 100, full := false, src := 0, udp := BitVec.ofNat 16 (courier.rd F.CRR_PORT_CFG_UDP 0), ce := false
    bytes := packet.bytes }

theorem test_frames : let s := conned connOpen { Conn.closed with verMax := 1, w := 64, replayKib := 64 }
    s.rdb F.CRR_PORT_STATUS_UP 0 ∧ frame.fcs ∧ frame.size.toNat ≤ s.maxFrame 0 ∧ frame.full = false ∧
    frame.udp.toNat = s.rd F.CRR_PORT_CFG_UDP 0 ∧ 2 ≤ s.ethRole 0 ∧ Packet.parse frame.bytes = some packet ∧
    frame.typ = 1 ∧ Packet.parse (List.replicate 35 0) = none ∧
    (s.verOk 0 packet && s.fromPeer 0 packet frame.src.toNat && s.lengthOk 0 packet frame.bytes &&
      typeAccepted 1 (s.connState 0) && s.connPort 0 == 0 && (s.lease leaseConn 0).state == 1) = true ∧
    ok (exec (.dataReceived 0 frame) s) (fun t => (t.conn 0).e == 1) ∧
    ok (exec (.dataReceived 0 { frame with fcs := false }) s) (fun t => t.rd F.CRR_PORT_DROP_FCS 0 == 1) ∧
    ok (exec (.dataReceived 0 { frame with udp := frame.udp + 1 }) s) (fun t => t.rd F.CRR_PORT_DROP_CHECK 0 == 1) ∧
    ok (exec (.dataReceived 0 frame) courier) (fun t => t.rd F.CRR_PORT_DROP_CHECK 0 == 1) := by decide +kernel

theorem test_postmarks : let s := conned connOpen { Conn.closed with verMax := 1, w := 64, replayKib := 64, e := 1 }
    (s.conn 0).w ≤ 2 ^ 23 ∧ (s.conn 0).w ≤ (0 + 2 ^ 24 - (s.conn 0).e) % 2 ^ 24 ∧
    ((s.conn 0).e + 2 ^ 24 - 1 - 0) % 2 ^ 24 < (s.conn 0).w ∧
    (s.conn 0).w ≤ (100 + 2 ^ 24 - (s.conn 0).e) % 2 ^ 24 ∧ (s.conn 0).w ≤ ((s.conn 0).e + 2 ^ 24 - 1 - 100) % 2 ^ 24 ∧
    (s.gotData 0 { packet with psn := 100 }) = s.sat F.CRR_PORT_DROP_STRAY (s.connPort 0) 1 ∧
    (0xFFFFFF + 1 + 2 ^ 24 - (s.conn 0).u) % 2 ^ 24 = 0 ∧ s.gotAck 0 0xFFFFFF = s ∧
    (s.conn 0).replay.length < (5 + 1 + 2 ^ 24 - (s.conn 0).u) % 2 ^ 24 ∧ s.gotAck 0 5 = s := by decide +kernel

/-- Connection 0 is OPEN and holds a complete message. -/
def messaged (op : Nat) (b : List Byte) (c : Conn) : State :=
  let s := conned connOpen { c with rx := [{ trans := 1, opcode := op, cls := 2, bytes := b, done := true, bad := false }] }
  { s with plans := [(0, { PlanState.empty with plan := some plan })] }

/-- The connection's record with what a message needs. -/
def rec2 : Conn := { Conn.closed with verMax := 2, w := 64, replayKib := 64, limit := 1024, exportBlocks := 1 }

/-- A 32-byte message header of STATUS 0 with these field bytes. -/
def msg (b : List Byte) : List Byte := List.replicate 10 0 ++ b ++ List.replicate (22 - b.length) 0

/-- The same with STATUS 0x20. -/
def msgBad : List Byte := [0, 0x20] ++ List.replicate 30 0

theorem test_put_held : let a := messaged 1 (msg [8]) rec2
    let b := messaged 1 (msg [0, 0, 0, 0, 0, 0, 1]) rec2
    (a.takeRx 0 1 1).isSome ∧ msgField (msg [8]) 0 4 / 2 ^ 27 ≠ a.connPart 0 ∧
    msgField (msg [0, 0, 0, 0, 0, 0, 1]) 0 4 / 2 ^ 27 = b.connPart 0 ∧
    ok (exec (.put 0 1) a) (fun t => t.out.length == 1 && t.items.isEmpty) ∧
    ok (exec (.put 0 1) b) (fun t => t.conn 0 != b.conn 0) := by decide +kernel

theorem test_held_confirm : let it := { work (.send 0 0) with stage := .remote, origin := .plan }
    let q : CrrReq := { trans := 1, opcode := 1, item := 7, k := 0, since := 0 }
    let a := withItem (messaged 2 (msg []) { rec2 with reqs := [q] }) it
    let h : HeldTile := { trans := 1, obj := 0, tile := 1 }
    let b := { messaged 3 (msg []) { rec2 with held := [h] } with
      tiles := [(tileKey 0 0 1, { TileRec.fresh with state := .inFlight })] }
    (a.takeRx 0 1 2).isSome ∧ msgStatus (msg []) = 0 ∧ a.item? 7 = some it ∧
    ok (exec (.held 0 1) a) (fun t => t.items.isEmpty) ∧ (b.tile 0 0 1).state = .inFlight ∧
    ok (exec (.confirm 0 1) b) (fun t => (t.tile 0 0 1).state == .resident && (t.conn 0).held.isEmpty) := by decide +kernel

theorem test_held_not_released : let a := { messaged 2 (msg []) rec2 with
      tiles := [(tileKey 0 0 1, { TileRec.fresh with state := .inFlight })] }
    (a.tile 0 0 1).state ≠ .released := by decide +kernel

theorem test_recall : let l := { messaged 4 (msg [0, 0, 0, 0, 0, 0, 1]) rec2 with
      tiles := [(tileKey 0 0 1, { TileRec.fresh with state := .lost })] }
    let r := { messaged 4 (msg [0, 0, 0, 0, 0, 0, 1]) rec2 with
      tiles := [(tileKey 0 0 1, { TileRec.fresh with state := .resident, disp := .hold })] }
    l.tileExists 0 0 1 ∧ (l.tile 0 0 1).state = .lost ∧ (r.tile 0 0 1).state = .resident ∧ (r.tile 0 0 1).disp.stored ∧
    ok (exec (.recallTile 0 1) l) (fun t => t.items.isEmpty && t.out.length == 1) ∧
    ok (exec (.recallTile 0 1) r) (fun t => t.nextItem == 1) := by decide +kernel

theorem test_responses : let q (op : Nat) : CrrReq := { trans := 1, opcode := op, item := 7, k := 0, since := 0 }
    let a := messaged 5 (msg []) { rec2 with reqs := [q 8] }
    let b := messaged 5 msgBad { rec2 with reqs := [q 9] }
    (a.takeRx 0 1 5).isSome ∧ msgStatus (msg []) = 0 ∧ msgStatus msgBad ≠ 0 ∧
    ok (exec (.resp 0 1) a) (fun t => (t.conn 0).reqs.isEmpty) ∧
    ok (exec (.resp 0 1) b) (fun t => (t.conn 0).reqs.isEmpty) := by decide +kernel

theorem test_block_bounds : let b := msg [0, 0, 0, 0, 0, 0, 0, 0, 2]
    (messaged 12 b rec2).conn 0 ≠ Conn.closed ∧ rec2.exportBlocks < msgField b 0 8 + msgField b 8 1 ∧
    ok (exec (.blockRead 0 1) (messaged 12 b rec2)) (fun t => t.out.length == 1) ∧
    ok (exec (.blockWrite 0 1) (messaged 13 b rec2)) (fun t => t.mem.isEmpty) ∧
    ok (exec (.blockZero 0 1) (messaged 14 b rec2)) (fun t => t.mem.isEmpty) ∧
    msgField (msg [0, 0, 0, 0, 0, 0, 0, 0, 1]) 0 8 + msgField (msg [0, 0, 0, 0, 0, 0, 0, 0, 1]) 8 1 ≤ rec2.exportBlocks := by
  decide +kernel

theorem test_owner_access : let r := msg [0, 0, 0, 0, 0, 0, 0, 8, 0, 0, 0, 2]
    let w := msg [0, 0, 0, 0, 0, 0, 0, 8, 0, 0, 0, 1, 0xFF, 0x0F] ++ [0x55]
    let s (op : Nat) (b : List Byte) : State := { messaged op b rec2 with pages := mapped.pages, granules := mapped.granules, mem := mapped.mem }
    ((s 8 r).xcheckRun 0 8 2 false false).isNone ∧ ((s 9 w).xcheckRun 0 8 1 true false).isNone ∧ msgField w 8 4 = 1 ∧
    ok (exec (.ownerRead 0 1) (s 8 r)) (fun t => t.mem == mapped.mem && t.out.length == 1) ∧
    ok (exec (.ownerWrite 0 1) (s 9 w)) (fun t => t.byte 0x40008 == 0xF5 && t.byte 0x40009 == 0xFF) ∧
    ok (exec (.nop 0 1) (s 0 r)) (fun t => (t.conn 0).rx.isEmpty) := by decide +kernel

/-! ### Ethernet ports and TIME -/

theorem test_port_training : up.ethRole 0 = 0 ∧ courier.ethRole 0 ≠ 0 ∧ courier.err.postDown.testBit 0 = false ∧
    courier.rd F.CRR_PORT_CFG_MODE 0 = 0 ∧ (courier.wr F.CRR_PORT_STATUS_UP 0 0).rdb F.CRR_PORT_STATUS_UP 0 = false ∧
    ok (exec (.retrain 0 5) courier) (fun t => t.rdb F.CRR_PORT_STATUS_UP 0 && t.rd F.CRR_PORT_STATUS_MODE 0 == 5) ∧
    ok (exec (.ethLinkUp 0 1) (courier.wr F.CRR_PORT_STATUS_UP 0 0)) (fun t => t.rdb F.CRR_PORT_STATUS_UP 0) ∧
    ok (exec (.ethLinkDown 0) { courier with txq := [(3, [.pulse])] }) (fun t => t.txq.isEmpty &&
      !t.rdb F.CRR_PORT_STATUS_UP 0) := by decide +kernel

theorem test_prio_map : let s := courier.wr F.SYS_PORT_MAP_ETH_ROLE 0 3
    s.ethRole 0 = 3 ∧ courier.ethRole 0 ≠ 3 ∧
    ok (exec (.prioMapWrite 0 0x11) s) (fun t => t.rdb F.CRR_PORT_STATUS_CFG_ERR 0) ∧
    ok (exec (.prioMapWrite 0 0x3F00043211) courier) (fun t => t.prio 0 0 == 1 && t.prio 0 4 == 4 && t.dscp 0 0 == 63) := by
  decide +kernel

/-- Priority 3 of port 0 is paused. -/
def paused : State :=
  let s := courier.wr F.CRR_PFC_CFG_PFC_EN 0 8
  { s with eth := { s.eth with paused := [(0, 8)] } }

theorem test_pauses : let s := paused
    let w := { s with eth := { s.eth with storm := [(0, 8)] } }
    s.rdb F.CRR_PORT_STATUS_UP 0 ∧ s.txq = [] ∧ s.pausedPrio 0 3 ∧ (Tab.get 0 w.eth.storm 0).testBit 3 ∧
    ok (exec (.pfcFrame 0 8 8) (courier.wr F.CRR_PFC_CFG_PFC_EN 0 8)) (fun t => t.eth == s.eth) ∧
    ok (exec (.pfcFrame 0 8 8) (courier.wr F.CRR_PFC_CFG_PFC_EN 0 4)) (fun t => t.eth == courier.eth) ∧
    ok (exec (.pfcFrame 0 8 0) s) (fun t => t.eth == courier.eth) ∧
    ok (exec (.pfcWatchdog 0 3) s) (fun t => !t.pausedPrio 0 3 && t.rd F.CRR_PORT_STATUS_STORM 0 == 8) ∧
    ok (exec (.pfcStormRecovery 0 3) w) (fun t => t.eth == courier.eth) := by decide +kernel

theorem test_rates : let s := { (courier.wr F.CRR_NVME_STATUS_STATE 1 2) with eth := { courier.eth with flows := [(2, 1500), (4097, 1500)] } }
    let r := { courier.wr F.CRR_PORT_STATUS_MODE 0 5 with eth := { courier.eth with flows := [(0, 1500)] } }
    s.rd F.CRR_NVME_STATUS_STATE 1 = 2 ∧ r.lineRate 0 = 100000 ∧ r.connPort 0 = 0 ∧
    ok (exec (.cnp 1) s) (fun t => Tab.find? t.eth.flows 4097 == some 1000) ∧
    ok (exec (.rateRecovery 0) r) (fun t => Tab.find? t.eth.flows 0 == some 6500) := by decide +kernel

theorem test_time : let s := courier.wr F.CRR_PTP_CFG_EN 0 1
    let p := (s.wr F.CRR_PTP_CFG_P2P 0 1).wr F.SYS_OPEN_OPENED 0 1
    s.rdb F.CRR_PTP_CFG_EN 0 ∧ s.rd F.CRR_PTP_CFG_PORT 0 = 0 ∧ s.rd F.CRR_PTP_CFG_DOMAIN 0 = 0 ∧ p.rdb F.CRR_PTP_CFG_P2P 0 ∧
    s.rdb F.SYS_OPEN_OPENED 0 = false ∧ s.eth.stepped = false ∧ p.rdb F.SYS_OPEN_OPENED 0 ∧
    ok (exec (.ptpEventMessage 1 .other) s) (· == s) ∧ ok (exec (.ptpEventMessage 0 (.sync 1 9 0)) s) (· == s) ∧
    ok (exec (.ptpEventMessage 0 (.sync 0 100 20)) (s.wr F.CRR_PTP_CFG_P2P 0 1)) (fun t => t.time == 120 && t.eth.stepped) ∧
    ok (exec (.ptpEventMessage 0 (.sync 0 100 20)) { p with time := 2000000000 }) (fun t => t.time == 2000000000 &&
      t.rdb F.CRR_PTP_STATUS_FAR 0 && t.rd F.CLK_TIME_RATE_RATE 0 == 2 ^ F.CLK_TIME_RATE_RATE.width - 2147483) ∧
    ok (exec .holdover s) (fun t => t.rd F.CRR_PTP_STATUS_STATE 0 == 2) := by decide +kernel

/-! ### NVMe sets -/

/-- Ethernet port 0 has role MOOR, is up, and pauses the priority of Moor traffic, 3. -/
def moored : State :=
  ((up.wr F.SYS_PORT_MAP_ETH_ROLE 0 1).wr F.CRR_PORT_STATUS_UP 0 1).setReg Reg.CRR_PRIO_MAP 0 3

theorem test_set_enable : moored.rd F.CRR_NVME_STATUS_STATE 0 = 0 ∧ moored.space = [] ∧ moored.eth.nvme = [] ∧
    ok (exec (.nvmeSetEnable 0 0 .timeout) moored) (fun t => t.rd F.CRR_NVME_STATUS_RESULT 0 == 1) ∧
    ok (exec (.nvmeSetEnable 0 0 .timeout) (moored.wr F.CRR_NVME_STATUS_STATE 0 2))
      (· == moored.wr F.CRR_NVME_STATUS_STATE 0 2) ∧
    ok (exec (.nvmeSetDisable 0) moored) (fun t => !t.rdb F.CRR_NVME_CFG_EN 0) := by decide +kernel

/-- The same with NVMe NQN memory mapped at 0 and the priority paused where it should be: the checks pass. -/
def meets : State := { moored.wr F.CRR_PFC_CFG_PFC_EN 0 8 with pages := mapped.pages, granules := mapped.granules }

theorem test_set_meets : let cfg : Word := BitVec.ofNat 64 (1 * 2 ^ F.CRR_NVME_CFG_QPS.lo + 16 * 2 ^ F.CRR_NVME_CFG_DEPTH.lo)
    F.CRR_NVME_CFG_QPS.get cfg = 1 ∧ F.CRR_NVME_CFG_DEPTH.get cfg = 16 ∧ F.CRR_NVME_CFG_PORT.get cfg = 0 ∧
    (((meets.wr F.CRR_NVME_CFG_QPS 0 1).wr F.CRR_NVME_CFG_DEPTH 0 16).wr F.CRR_NVME_CFG_EN 0 1).nvmeCheck 0 = 0 ∧
    ok (exec (.nvmeSetEnable 0 cfg (.found 100 4096)) meets) (fun t => t.rd F.CRR_NVME_STATUS_STATE 0 == 2 &&
      Tab.find? t.eth.ns 0 == some { blocks := 100, lba512 := false }) ∧
    ok (exec (.nvmeSetEnable 0 cfg (.found 100 520)) meets) (fun t => t.rd F.CRR_NVME_STATUS_RESULT 0 == 5) := by
  decide +kernel

theorem test_set_faults : let u := moored.wr F.CRR_NVME_STATUS_STATE 0 2
    let d := moored.wr F.CRR_NVME_STATUS_STATE 0 3
    u.rd F.CRR_NVME_STATUS_STATE 0 = 2 ∧ d.rd F.CRR_NVME_STATUS_STATE 0 = 3 ∧
    d.rdb F.CRR_PORT_STATUS_UP (d.rd F.CRR_NVME_CFG_PORT 0) ∧
    ok (exec (.qpError 0) u) (fun t => t.rd F.CRR_NVME_STATUS_STATE 0 == 3) ∧
    ok (exec (.nvmeReconnect 0 true) d) (fun t => t.rd F.CRR_NVME_STATUS_STATE 0 == 2 && t.out.length == 1) ∧
    ok (exec (.keepAlive 0 true) u) (fun t => t.out.length == 1) := by decide +kernel

/-- NVMe command 5 writes, or reads, one block for work item 7, with a transport retry count. -/
def commanded (write : Bool) (retries : Nat) : State :=
  let c : NvmeCmd := { set := 0, target := 0, item := some 7, write, lba := 0, count := 1, since := 0, moved := 0, retries }
  { moored.wr F.CRR_NVME_STATUS_STATE 0 2 with eth := { moored.eth with nvme := [(5, c)] } }

theorem test_set_commands : (Tab.find? (commanded true 6).eth.nvme 5).isSome ∧
    Tab.find? (commanded true 6).eth.nvme 6 = none ∧ (0 : Nat) + 4096 ≤ 1 * 4096 ∧
    (commanded true 6).pausedPrio 0 ((commanded true 6).prio 0 0) = false ∧
    ok (exec (.localAckTimeout 5) (commanded true 6)) (fun t => (Tab.find? t.eth.nvme 5).map (·.retries) == some 7) ∧
    ok (exec (.localAckTimeout 5) (commanded true 7)) (fun t => t.rd F.CRR_NVME_STATUS_STATE 0 == 3 && t.eth.nvme.isEmpty) ∧
    ok (exec (.rdmaRead 5 4095 1 false) (commanded true 0)) (fun t => t.out == [.rdmaData 0 5 [0]]) ∧
    ok (exec (.rdmaWrite 5 4095 [0x77] false) (commanded false 0)) (fun t => t.byte (moorKey 0 0 + 4095) == 0x77) ∧
    ok (exec (.rdmaWrite 5 4095 [0x77, 0x77] false) (commanded false 0)) (· == commanded false 0) ∧
    ok (exec (.moorCompletion 5 0 false) (commanded false 0)) (fun t => t.eth.nvme.isEmpty) ∧
    ok (exec (.moorCompletion 6 0 false) (commanded false 0)) (· == commanded false 0) ∧
    ok (exec (.moorTimeout none 5) (commanded false 0)) (fun t => t.eth.nvme.isEmpty && t.out.length == 1) := by decide +kernel

theorem test_target_timeout : let r : CrrReq := { trans := 9, opcode := 0x0C, item := 7, k := 0, since := 0 }
    let s := conned connOpen { rec2 with reqs := [r] }
    (s.conn 0).reqs.find? (fun r => r.trans == 9 && decide (0x0C ≤ r.opcode)) = some r ∧
    ok (exec (.moorTimeout (some 0) 9) s) (fun t => (t.conn 0).reqs.isEmpty) := by decide +kernel

/-! ### Frank, the tally engine and the MC mailbox -/

/-- P0 and Frank have power, and their link is up. -/
def franked : State :=
  { up.wr F.FRK_TALLY_STATUS_LINK_UP 0 1 with frank := { State.reset.frank with powered := true }
                                              tally := { Tally.initial with powered := true } }

/-- A frame of one tick with a delta of 5 in quantity 3 of partition 1. -/
def delta : TallyFrame := { seq := 0, sync := false, ticks := 1, deltas := [(14, 5)] }

/-- A frame of one tick without deltas. -/
def bare : TallyFrame := { delta with deltas := [] }

theorem test_tally_tick : let w := { franked with tally := { franked.tally with unacked := some bare } }
    franked.tally.powered ∧ franked.rdb F.PWR_PWRFAIL_STATUS_LEVEL 0 = false ∧ franked.tally.unacked = none ∧
    w.tally.unacked = some bare ∧ w.rdb F.FRK_TALLY_STATUS_LINK_UP 0 ∧
    ok (exec .tallyTick franked) (fun t => t.tally.unacked.map (·.ticks) == some 1 && t.out.length == 1) ∧
    ok (exec .tallyTick w) (fun t => t.tally.ticks == 1 && t.out.isEmpty) ∧
    ok (exec .tallyAckTimeout w) (fun t => t.out == [.tallyFrame bare.bytes] &&
      t.rd F.FRK_TALLY_STATUS_RETRIES 0 == 1) := by decide +kernel

theorem test_tally_frame : let w := { franked with tally := { franked.tally with unacked := some bare } }
    bare.seq = franked.frank.tallyE ∧ fieldAt bare.bytes 4 4 = 0 ∧ frameParts [0] = none ∧
    (franked.frank.tally bare.bytes).2 = some 0 ∧
    ok (exec (.tally [0]) franked) (fun t => t.frank == franked.frank.ignore && t.out.isEmpty) ∧
    ok (exec (.tally bare.bytes) w) (fun t => t.tally.unacked.isNone &&
      t.frank.tallyE == 1) := by decide +kernel

theorem test_tally_link : let g := { franked with frank := { franked.frank with gap := true } }
    let c := franked.wr F.FRK_CMD_CTRL_GO 0 1
    let o := { franked with pins := { franked.pins with pwrok := false } }
    franked.frank.powered ∧ franked.frank.gap = false ∧ g.frank.gap ∧ o.pins.pwrok = false ∧ c.rdb F.FRK_CMD_CTRL_GO 0 ∧
    ok (exec .tallyGap franked) (fun t => t.frank.gap && t.frank.audit == 1 && t.frank.log.length == 1) ∧
    ok (exec .tallyGap g) (· == g) ∧
    ok (exec (.vddFrkLoss false) franked) (fun t => !t.frank.powered && !t.rdb F.FRK_TALLY_STATUS_LINK_UP 0) ∧
    ok (exec .p0PowerLoss o) (fun t => !t.tally.powered) ∧
    ok (exec .frankLinkDown c) (fun t => t.rd F.FRK_CMD_STATUS_RESULT 0 == 2 && !t.rdb F.FRK_CMD_CTRL_GO 0) ∧
    ok (exec .frankLinkUp franked) (fun t => t.rdb F.FRK_TALLY_STATUS_LINK_UP 0) ∧
    ok (exec .frkCmdTimeout c) (fun t => t.rd F.FRK_CMD_STATUS_RESULT 0 == 3) := by decide +kernel

theorem test_delta_hypotheses : delta.seq < 2 ^ 32 ∧ 1 ≤ delta.ticks ∧ delta.ticks ≤ 65535 ∧
    (∀ e ∈ delta.deltas, e.1 < 352 ∧ e.2 < 2 ^ 64) ∧ franked.frank.totals = [] := by decide +kernel

/-- A record with SEQ 7. -/
def frankRecord : FrankRecord :=
  { seq := 7, audit := 0, session := 1, uptime := 1, ignored := 0, energy := 9, flags := 0, tallyE := 0, utc := 0
    utcAge := 0, tenants := [], totals := [], read := false }

theorem test_mailbox : let h := { franked with frank := { franked.frank with ring := [frankRecord] } }
    let b := franked.wr F.FRK_CMD_CTRL_GO 0 1
    franked.rdb F.FRK_CMD_CTRL_GO 0 = false ∧ franked.rdb F.FRK_TALLY_STATUS_LINK_UP 0 ∧ h.mcRecord = none ∧
    h.frank.record? 7 = some frankRecord ∧ franked.frank.record? 7 = none ∧ (31 : Nat) < 32 ∧
    ok (exec (.bind 31 0x55) franked) (fun t => Tab.get 0 t.frank.tenants 31 == 0x55 && t.rdb F.FRK_CMD_STATUS_DONE 0) ∧
    ok (exec (.bind 32 0x55) franked) (fun t => t.frank == franked.frank.ignore && t.rdb F.FRK_CMD_CTRL_GO 0) ∧
    ok (exec (.timeref 3) franked) (fun t => t.frank.utc == 3) ∧
    ok (exec (.readRecord 7) franked) (fun t => t.rd F.FRK_CMD_STATUS_RESULT 0 == 1) ∧
    ok (exec (.readRecord 7) h) (fun t => t.mcRecord == some frankRecord) ∧
    ok (exec (.timeref 3) b) (· == b.flag F.FRK_CMD_STATUS_BUSY_REFUSED 0) ∧
    ok (exec (.timeref 3) (franked.wr F.FRK_TALLY_STATUS_LINK_UP 0 0)) (fun t => t.rd F.FRK_CMD_STATUS_RESULT 0 == 2) := by
  decide +kernel

/-- What Frank signs and certifies has no value in the model: the commands that answer with it are run, not computed. -/
theorem test_info : (∃ t, exec (.readInfo 0) franked = .next t) ∧ (∃ t, exec (.readInfo 2) franked = .next t) ∧
    ∃ t, exec (.readLog 48) franked = .next t := ⟨⟨_, rfl⟩, ⟨_, rfl⟩, ⟨_, rfl⟩⟩

theorem test_metering : let f := { franked with frank := { franked.frank with energy := 35999, remainder := 2 ^ 32 - 1 } }
    let m := { franked with frank := { franked.frank with sessionFlags := flagMeterFail } }
    let q := { franked with frank := { franked.frank with pulses := 1 } }
    let p := { franked with frank := { franked.frank with powerFail := true } }
    f.frank.meterFail = false ∧ m.frank.meterFail ∧ f.frank.energy + (f.frank.remainder + 1) / 2 ^ 32 < 2 ^ 64 ∧
    ok (exec (.sampleInterval [1, 0, 0, 0, 0, 0, 0, 0, 0, 0] true true) f) (fun t => t.frank.energy == 36000 &&
      t.frank.remainder == 0 && t.frank.pulses == 1) ∧
    ok (exec (.sampleInterval [1, 0, 0, 0, 0, 0, 0, 0, 0, 0] true true) m) (fun t => t.frank.energy == 0 && t.frank.remainder == 0) ∧
    ok (exec .impulse q) (fun t => t.frank.pulses == 0 && t.out == [.pulse]) ∧ ok (exec .impulse franked) (· == franked) ∧
    ok (exec (.snapshot false) franked) (fun t => t.frank.ring.length == 1) ∧
    ok (exec (.snapshot false) p) (fun t => t.frank.ring.isEmpty) := by decide +kernel

/-- A bank written a minute ago. -/
def bank : FrankBank :=
  { valid := true, sequence := 3, cause := 1, nextSeq := 100, audit := 0, ignored := 0, energy := 77, remainder := 1
    tallyE := 0, tenants := [], totals := [(0, 6)], log := [] }

theorem test_banks : let a := { franked with frank := { franked.frank with bankA := some bank } }
    let d := { a with frank := { a.frank with powered := false } }
    let p := { franked with frank := { franked.frank with powerFail := true } }
    let l := { p with pins := { p.pins with pwrfailLow := true } }
    a.frank.newest = some (false, bank) ∧ d.frank.newest = some (false, bank) ∧ d.frank.powered = false ∧
    franked.pins.pwrfailLow = false ∧ l.pins.pwrfailLow ∧
    ok (exec .periodicBankWrite a) (fun t => t.frank.bankB.map (·.sequence) == some 4 && t.frank.bankA == some bank) ∧
    ok (exec .frankPwrfailFall franked) (fun t => t.frank.powerFail && t.pins.pwrfailLow) ∧
    ok (exec .pwrfailBankRepeat l) (fun t => t.frank == l.frank.writeBank 2) ∧
    ok (exec .frankRecordsResume p) (fun t => !t.frank.powerFail) ∧
    ok (exec (.frankPowerUp true) franked) (· == franked) ∧
    ok (exec (.frankPowerUp true) d) (fun t => t.frank.energy == 77 && t.frank.nextSeq == 164) := by decide +kernel

theorem test_i3c : ok (exec (.i3cPrivateWrite [0x10, 0x00]) franked) (fun t => t.frank.pointer == 16) ∧
    ok (exec (.i3cPrivateRead 2) { franked with frank := { franked.frank with pointer := 0xFFFF } }) (fun t =>
      t.frank.pointer == 1 && t.out.length == 1) ∧
    ok (exec (.i3cCcc (.setdasa 9)) franked) (fun t => t.frank.dynAddr == some 9 && t.frank.audit == 1) ∧
    ok (exec (.i3cCcc .enec) franked) (fun t => t.frank.ibi) ∧ ok (exec .i3cTimeout franked) (· == franked) := by decide +kernel

/-! ### The machine as a whole -/

/-- The form holds at a state, which a step leaves for another. -/
theorem test_form : Memory.wf mapped.mem ∧ franked.frank.ring.length ≤ 16 ∧ franked.frank.log.length ≤ 64 ∧
    franked.frank.energy < 2 ^ 64 ∧ franked.frank.remainder < 2 ^ 32 ∧ franked.frank.logSel ≤ 63 ∧
    ok (step { franked with pending := [.tallyGap, .impulse] }) (fun t => t.pending == [.impulse] && t.frank.audit == 1) := by
  decide +kernel

/-- Frank's form holds with nothing stored, and so does the whole form. -/
theorem test_sound : franked.Sound :=
  ⟨by decide, ⟨by decide, by decide, by decide, by decide, by decide, by decide, by decide, by decide, by decide,
    fun r h => absurd h List.not_mem_nil, fun b h => by
      have h : none = some b ∨ none = some b := h
      simp at h⟩⟩

/-! ### Well-formedness: one term that each check refuses -/

theorem test_ill_formed : Instr.wf (.doorbellSet 32 0 0 false) = false ∧ Instr.wf (.badWrite 0 false 4097) = false ∧
    Instr.wf (.kick 32 0) = false ∧ Instr.wf (.cplReceived 0 0 0 (List.replicate 4097 0)) = false ∧
    Instr.wf (.writeBackHeader 0 0 (List.replicate 63 0)) = false ∧ Instr.wf (.writeBackData 0 0 131071 [0, 0]) = false ∧
    Instr.wf (.register (List.replicate 5 0)) = false ∧ Instr.wf (.bar4Read 0 0 0) = false ∧
    Instr.wf (.bar4Read 0 0 4097) = false ∧ Instr.wf (.bar4Write 0 0 []) = false ∧
    Instr.wf (.translationCompletion 0 1 0 4096 false false) = false ∧
    Instr.wf (.translationCompletion 0 0 1 4096 false false) = false ∧
    Instr.wf (.translationCompletion 0 0 0 4095 false false) = false ∧
    Instr.wf (.invalidationRequest 0 1 4096) = false ∧ Instr.wf (.invalidationRequest 0 0 4095) = false ∧
    Instr.wf (.priTimeout 0 1) = false := by decide +kernel

theorem test_ill_formed_more : Instr.wf (.connOpen 0 (List.replicate 7 0)) = false ∧
    Instr.wf (.connOpenListen 0 (List.replicate 9 0)) = false ∧ Instr.wf (.tally (List.replicate 4097 0)) = false ∧
    Instr.wf (.bind 256 0) = false ∧ Instr.wf (.sampleInterval (List.replicate 9 0) true true) = false ∧
    Instr.wf (.i3cPrivateWrite (List.replicate 257 0)) = false ∧ Instr.wf (.i3cPrivateRead 4097) = false ∧
    Instr.wf (.linksDone [{ port := 8, up := true, foreign := false, decoders := [] }]) = false ∧
    Instr.wf (.linksDone [{ port := 0, up := true, foreign := false, decoders := List.replicate 9 0 }]) = false ∧
    Instr.wf (.sensorSample [] [] 0 []) = false ∧ Instr.wf (.registerWrite 32 (.bar0 0 8 0)) = false ∧
    Instr.wf (.registerWrite 0 (.bar0 67108864 8 0)) = false ∧ Instr.wf (.registerWrite 0 (.bar0 0 9 0)) = false ∧
    Instr.wf (.registerWrite 72 (.config (.ats true))) = false ∧ Instr.wf (.badAccess 0 0 65 true) = false ∧
    Instr.wf (.rdmaRead 0 131071 2 false) = false ∧ Instr.wf (.rdmaWrite 0 131071 [0, 0] false) = false ∧
    Instr.wf (.doeDiscovery 0 0) = false := by decide +kernel

end Sys2Proof.Tests
end

section
/-! SUPPORT. How a Sorter core's instruction whose body completes leaves the machine, and the scalar and branch rows by it
(R172 to R174, R177). -/

namespace Sys2Proof.Machine

open Ulital

/-! ### Fields of a word -/

theorem field_lt (w : Word) (lo n : Nat) : field w lo n < 2 ^ n := Nat.mod_lt _ (Nat.two_pow_pos n)

theorem rd_lt (w : Word) : rd w < 32 := field_lt w 43 5

theorem pdA_lt (w : Word) : pdA w < 8 := field_lt w 30 3

theorem pdI_lt (w : Word) : pdI w < 8 := field_lt w 35 3

/-- The immediate's sign extension keeps its value (R166). -/
theorem imm_toInt (w : Word) : (imm w).toInt = (w.setWidth 32).toInt := BitVec.toInt_signExtend_of_le (by decide)

/-! ### The state an instruction's body sees -/

@[simp] theorem State.g_past (s : State) (c d q : Nat) : (s.past c).g d q = s.g d q := by simp [State.past]

@[simp] theorem State.p_past (s : State) (c d q : Nat) : (s.past c).p d q = s.p d q := by simp [State.past]

/-- PC is a 32-bit field: a write keeps the low bits. -/
theorem State.pc_setPc (s : State) (c v : Nat) : (s.setPc c v).pc c = v % 2 ^ 32 :=
  State.rd_wr_self s F.SRT_PC_PC c v (by decide)

theorem State.pc_lt (s : State) (c : Nat) : s.pc c < 2 ^ 32 := Fld.get_lt F.SRT_PC_PC _

@[simp] theorem State.pc_past (s : State) (c : Nat) : (s.past c).pc c = (s.pc c + 8) % 2 ^ 32 := State.pc_setPc s c _

/-- The body's way back from the moved PC to its own word. -/
@[simp] theorem State.ownPc_past (s : State) (c : Nat) : (s.past c).ownPc c = s.pc c := by
  have hlt := s.pc_lt c
  rw [State.ownPc, State.pc_past]
  omega

/-- A write of PC leaves the fields of a core's other registers. -/
theorem State.rd_setPc (s : State) (f : Fld) {c : Nat} (v : Nat) (hf : f.reg ≠ Reg.SRT_PC) (hc : c < 64) :
    (s.setPc c v).rd f c = s.rd f c :=
  State.rd_wr_reg s F.SRT_PC_PC f v hf (by omega) (by omega)

@[simp] theorem State.isV1_past (s : State) {c : Nat} (hc : c < 64) : (s.past c).isV1 c = s.isV1 c := by
  rw [State.isV1, State.isV1, State.rdb, State.rdb, State.past, State.rd_setPc s _ _ (by decide) hc]

/-! ### Completion -/

/-- An instruction that runs and whose body completes retires in the body's state. -/
theorem State.instr_of_ok {s t : State} {c : Nat} {w : Word} {k : Kind} {e : CoreErr} {body : State → CRes}
    (h : s.runs c w k e = true) (hb : body (s.past c) = .ok t) : s.instr c w k e body = t.retire c := by
  rw [State.instr_of_runs body h, hb]

theorem State.pc_retire (s : State) {c : Nat} (hc : c < 64) : (s.retire c).pc c = s.pc c :=
  State.rd_wr_reg s F.SRT_INSTRET_COUNT F.SRT_PC_PC _ (by decide) (by omega) (by omega)

/-- SRT_INSTRET counts modulo 2^64. -/
theorem State.instret_retire (s : State) (c : Nat) :
    (s.retire c).rd F.SRT_INSTRET_COUNT c = (s.rd F.SRT_INSTRET_COUNT c + 1) % 2 ^ 64 :=
  State.rd_wr_self s F.SRT_INSTRET_COUNT c _ (by decide)

/-- Retiring reads and writes the register file alone. -/
theorem State.retire_regs_congr {t u : State} (c : Nat) (h : u.regs = t.regs) : (u.retire c).regs = (t.retire c).regs := by
  simp only [State.retire, State.bump, State.wr, State.setReg, State.rd, State.reg, h]

section Completes

variable {core : BitVec 6} {w : Word} {k : Kind} {e : CoreErr} {s : State} {body : State → CRes} {o : Res}

/-- A body that writes one g register: the command completes with that write. -/
theorem completes_setG {r : Nat} {v : Word} (hr : r < 32) (ho : o = .next (s.instr core.toNat w k e body))
    (h : s.runs core.toNat w k e = true)
    (hb : body (s.past core.toNat) = .ok ((s.past core.toNat).setG core.toNat r v)) :
    ∃ t, o = .next t ∧ onlyG s t core.toNat r v ∧ nextPc s t core.toNat ∧ retired s t core.toNat ∧
      coreRegs s t core.toNat [] :=
  ⟨_, by rw [ho, State.instr_of_ok h hb], done_setG s core.toNat r v core.isLt hr⟩

/-- A body that writes one p register: the command completes with that write. -/
theorem completes_setP {r : Nat} {v : Bool} (hr : r < 8) (ho : o = .next (s.instr core.toNat w k e body))
    (h : s.runs core.toNat w k e = true)
    (hb : body (s.past core.toNat) = .ok ((s.past core.toNat).setP core.toNat r v)) :
    ∃ t, o = .next t ∧ onlyP s t core.toNat r v ∧ nextPc s t core.toNat ∧ retired s t core.toNat ∧
      coreRegs s t core.toNat [] :=
  ⟨_, by rw [ho, State.instr_of_ok h hb], done_setP s core.toNat r v core.isLt hr⟩

end Completes

/-! ### Branches and calls (R177) -/

/-- What a taken branch that retires leaves. -/
theorem done_setPc (s : State) {c : Nat} (v : Nat) (hc : c < 64) :
    onlyRegs s (((s.past c).setPc c v).retire c) ∧ (((s.past c).setPc c v).retire c).pc c = v % 2 ^ 32 ∧
      retired s (((s.past c).setPc c v).retire c) c ∧ coreRegs s (((s.past c).setPc c v).retire c) c [] := by
  refine ⟨rfl, ?_, ?_, ?_⟩
  · rw [State.pc_retire _ hc, State.pc_setPc]
  · rw [retired, State.instret_retire, State.rd_setPc _ _ _ (by decide) hc, State.past,
      State.rd_setPc _ _ _ (by decide) hc]
  · have hpc : (F.SRT_PC_PC.reg, c) ∈ [Reg.SRT_PC, Reg.SRT_INSTRET].map (fun r => (r, c)) := by simp [F.SRT_PC_PC]
    have hpast := regsBut_wr_of F.SRT_PC_PC c (s.pc c + 8) (regsBut_refl s _) (by omega) hpc
    exact regsBut_wr_of _ _ _ (regsBut_wr_of _ _ v hpast (by omega) hpc) (by omega) (by simp [F.SRT_INSTRET_COUNT])

/-- What a call that retires leaves: the branch, and the link in RD. -/
theorem done_link (s : State) {c r : Nat} (x : Word) (v : Nat) (hc : c < 64) (hr : r < 32) :
    onlyG s ((((s.past c).setG c r x).setPc c v).retire c) c r x ∧
      ((((s.past c).setG c r x).setPc c v).retire c).pc c = v % 2 ^ 32 ∧
      retired s ((((s.past c).setG c r x).setPc c v).retire c) c ∧
      coreRegs s ((((s.past c).setG c r x).setPc c v).retire c) c [] := by
  have e : ((((s.past c).setG c r x).setPc c v).retire c).regs = (((s.past c).setPc c v).retire c).regs := by
    unfold State.setG; split <;> rfl
  obtain ⟨_, hpc, hret, hregs⟩ := done_setPc s v hc
  refine ⟨⟨?_, ?_⟩, ?_, retired_congr hret e, coreRegs_congr hregs e⟩
  · unfold State.setG; split <;> rfl
  · intro d q hq
    rw [State.g_retire, State.setPc, State.g_wr, State.g_setG _ _ _ _ hq hr, State.g_past]
  · simp only [State.pc, State.rd, State.reg, e] at hpc ⊢; exact hpc

/-- The low 32 bits of a branch target: the base plus the signed offset. -/
theorem branchTarget_imm_mod (base w : Word) :
    ((branchTarget base (imm w) % 2 ^ 32 : Nat) : Int) = ((base.toNat : Int) + (w.setWidth 32).toInt) % 2 ^ 32 := by
  have hcond := BitVec.toInt_eq_toNat_cond (imm w)
  rw [branchTarget, BitVec.toNat_add, ← imm_toInt]
  split at hcond <;> omega

section Jumps

variable {core : BitVec 6} {w : Word} {k : Kind} {e : CoreErr} {s : State} {body : State → CRes} {o : Res}
  {base : Word} {b : Nat}

/-- A body that only branches: the command completes at its target. -/
theorem completes_branch (hbase : base.toNat = b) (ho : o = .next (s.instr core.toNat w k e body))
    (h : s.runs core.toNat w k e = true)
    (hb : body (s.past core.toNat) = .ok ((s.past core.toNat).setPc core.toNat (branchTarget base (imm w)))) :
    ∃ t, o = .next t ∧ onlyRegs s t ∧
      (t.pc core.toNat : Int) = ((b : Int) + (w.setWidth 32).toInt) % 2 ^ 32 ∧ retired s t core.toNat ∧
      coreRegs s t core.toNat [] := by
  obtain ⟨honly, hpc, hret, hregs⟩ := done_setPc s (branchTarget base (imm w)) core.isLt
  exact ⟨_, by rw [ho, State.instr_of_ok h hb], honly, by rw [hpc, branchTarget_imm_mod, hbase], hret, hregs⟩

/-- A body that links and branches: the command completes at its target, RD holding the link. -/
theorem completes_call {r : Nat} {x : Word} (hbase : base.toNat = b) (hr : r < 32)
    (ho : o = .next (s.instr core.toNat w k e body))
    (h : s.runs core.toNat w k e = true)
    (hb : body (s.past core.toNat) =
      .ok (((s.past core.toNat).setG core.toNat r x).setPc core.toNat (branchTarget base (imm w)))) :
    ∃ t, o = .next t ∧ onlyG s t core.toNat r x ∧
      (t.pc core.toNat : Int) = ((b : Int) + (w.setWidth 32).toInt) % 2 ^ 32 ∧ retired s t core.toNat ∧
      coreRegs s t core.toNat [] := by
  obtain ⟨honly, hpc, hret, hregs⟩ := done_link s x (branchTarget base (imm w)) core.isLt hr
  exact ⟨_, by rw [ho, State.instr_of_ok h hb], honly, by rw [hpc, branchTarget_imm_mod, hbase], hret, hregs⟩

end Jumps

/-- PC fits a 64-bit base. -/
theorem State.toNat_ofNat_pc (s : State) (c : Nat) : (BitVec.ofNat 64 (s.pc c)).toNat = s.pc c := by
  have hlt := s.pc_lt c
  rw [BitVec.toNat_ofNat]
  omega

/-- MOVHI's sum of a high and a low half is their concatenation. -/
theorem ofNat_immU_add_low (w g : Word) :
    BitVec.ofNat 64 (immU w * 2 ^ 32 + g.toNat % 2 ^ 32) = (w.setWidth 32 ++ g.setWidth 32 : BitVec 64) := by
  apply BitVec.eq_of_toNat_eq
  have hlow : g.toNat % 2 ^ 32 < 2 ^ 32 := Nat.mod_lt _ (Nat.two_pow_pos 32)
  rw [BitVec.toNat_append, BitVec.toNat_setWidth, BitVec.toNat_setWidth, ← Nat.shiftLeft_add_eq_or_of_lt hlow,
    Nat.shiftLeft_eq, BitVec.toNat_ofNat]
  simp only [immU, field]
  omega

end Sys2Proof.Machine

namespace Sys2Proof

open Sys2Proof.Machine Sys2Proof.Ulital

/-- Settles O4: each body writes its one register, or PC, on the state past the word, and what such a body leaves is
said once for every row. -/
theorem scalarResultsAndBranches : Obligations.ScalarResultsAndBranches := by
  unfold Obligations.ScalarResultsAndBranches
  refine ⟨fun core w e s => ⟨?alu, ?alui, ?movi, ?movhi, ?mul, ?div⟩,
    fun core w e s => ⟨?bra, ?call, ?jr, ?callr⟩⟩
  case alu => exact fun h => completes_setG (rd_lt w) rfl h (by simp)
  case alui => exact fun h => completes_setG (rd_lt w) rfl h (by simp [imm])
  case movi => exact fun h => completes_setG (rd_lt w) rfl h rfl
  case movhi => exact fun h => completes_setG (rd_lt w) rfl h (by rw [← ofNat_immU_add_low, State.g_past])
  case mul => exact fun h => completes_setG (rd_lt w) rfl h (by simp)
  case div => exact fun h hb => completes_setG (rd_lt w) rfl h (by simpa using hb)
  case bra => exact fun h => completes_branch (s.toNat_ofNat_pc _) rfl h (by simp)
  case call => exact fun h => completes_call (s.toNat_ofNat_pc _) (rd_lt w) rfl h (by simp)
  case jr => exact fun h => completes_branch rfl rfl h (by simp)
  case callr => exact fun h => completes_call rfl (rd_lt w) rfl h (by simp)

end Sys2Proof
end

section
/-! SUPPORT. The compares and the predicate operations (R175, R176). -/

namespace Sys2Proof.Machine

open Ulital

/-! ### The relations of R175 as numbers -/

@[simp] theorem cmpRel_equal (a b : Word) : cmpRel 0 a b = (a == b) := rfl

@[simp] theorem cmpRel_notEqual (a b : Word) : cmpRel 1 a b = (a != b) := rfl

@[simp] theorem cmpRel_signedLess (a b : Word) : cmpRel 2 a b = decide (a.toInt < b.toInt) := rfl

@[simp] theorem cmpRel_signedGe (a b : Word) : cmpRel 3 a b = decide (b.toInt ≤ a.toInt) := by
  change (!decide (a.toInt < b.toInt)) = _
  rw [← decide_not, decide_eq_decide]
  exact Int.not_lt

@[simp] theorem cmpRel_unsignedLess (a b : Word) : cmpRel 4 a b = decide (a.toNat < b.toNat) := rfl

/-- Every code above stands for unsigned greater or equal. -/
@[simp] theorem cmpRel_unsignedGe (f : Nat) (a b : Word) : cmpRel (f + 5) a b = decide (b.toNat ≤ a.toNat) := by
  change (!decide (a.toNat < b.toNat)) = _
  rw [← decide_not, decide_eq_decide]
  exact Nat.not_lt

/-! ### GETP: the predicates as a number -/

theorem testBit_b2n (b : Bool) (i : Nat) : (b2n b).testBit i = (decide (i = 0) && b) := by
  cases b
  · simp [b2n]
  · rw [Bool.and_true, b2n, if_pos rfl, Bool.eq_iff_iff, Nat.testBit_one_eq_true_iff_self_eq_zero, decide_eq_true_iff]

/-- A sum of distinct powers of two, one for each true bit, stays below the next power. -/
theorem foldl_bits_lt (b : Nat → Bool) (n : Nat) :
    (List.range n).foldl (fun a i => a + b2n (b i) * 2 ^ i) 0 < 2 ^ n := by
  induction n with
  | zero => simp
  | succ n ih =>
    rw [List.range_succ, List.foldl_append]
    simp only [List.foldl_cons, List.foldl_nil]
    have hbit : b2n (b n) ≤ 1 := by cases b n <;> decide
    have hmul := Nat.mul_le_mul_right (2 ^ n) hbit
    omega

/-- Its bits are those it was made of. -/
theorem testBit_foldl_bits (b : Nat → Bool) (n i : Nat) :
    ((List.range n).foldl (fun a i => a + b2n (b i) * 2 ^ i) 0).testBit i = (decide (i < n) && b i) := by
  induction n with
  | zero => simp
  | succ n ih =>
    rw [List.range_succ, List.foldl_append]
    simp only [List.foldl_cons, List.foldl_nil]
    rw [Nat.add_comm, Nat.mul_comm, Nat.testBit_two_pow_mul_add _ (foldl_bits_lt b n), ih]
    rcases Nat.lt_trichotomy i n with hlt | rfl | hgt
    · simp [hlt, Nat.lt_succ_of_lt hlt]
    · rw [Nat.sub_self, testBit_b2n]; simp
    · have hpos : i - n ≠ 0 := by omega
      have hn : ¬ i < n := by omega
      have hsucc : ¬ i < n + 1 := by omega
      simp [testBit_b2n, hpos, hn, hsucc]

theorem State.getLsbD_predBits (s : State) (c i : Nat) :
    (BitVec.ofNat 64 (s.predBits c)).getLsbD i = (decide (i < if s.isV1 c then 4 else 8) && s.p c i) := by
  rw [BitVec.getLsbD_ofNat, State.predBits, testBit_foldl_bits (s.p c)]
  by_cases hi : i < 64
  · simp [hi]
  · have hn : ¬ i < if s.isV1 c then 4 else 8 := by split <;> omega
    simp [hi, hn]

theorem State.predBits_past (s : State) {c : Nat} (hc : c < 64) : (s.past c).predBits c = s.predBits c := by
  simp only [State.predBits, State.isV1_past s hc, State.p_past]

/-! ### SETP: several predicates at once -/

/-- `n` predicates of a core taken from the low bits of a word, p0 keeping its 1 (R127). -/
theorem State.p_foldl_setP (s : State) (c : Nat) (v : Word) {n d q : Nat} (hn : n ≤ 8) (hq : q < 8) :
    ((List.range n).foldl (fun s i => s.setP c i (v.getLsbD i)) s).p d q =
      if d = c ∧ q ≠ 0 ∧ q < n then v.getLsbD q else s.p d q := by
  induction n with
  | zero => simp
  | succ n ih =>
    rw [List.range_succ, List.foldl_append]
    simp only [List.foldl_cons, List.foldl_nil]
    rw [State.p_setP _ _ _ _ hq (by omega), ih (by omega)]
    by_cases hqn : q = n
    · subst hqn; simp
    · have hlt : q < n + 1 ↔ q < n := by omega
      simp [hqn, hlt]

/-- Writes of predicates change the p registers alone. -/
theorem State.foldl_setP_frame (s : State) (c : Nat) (v : Word) (l : List Nat) :
    l.foldl (fun s i => s.setP c i (v.getLsbD i)) s =
      { s with pregs := (l.foldl (fun s i => s.setP c i (v.getLsbD i)) s).pregs } := by
  induction l generalizing s with
  | nil => rfl
  | cons i l ih =>
    rw [List.foldl_cons, ih]
    unfold State.setP
    split <;> rfl

theorem State.setPreds_frame (s : State) (c : Nat) (v : Word) :
    s.setPreds c v = { s with pregs := (s.setPreds c v).pregs } := State.foldl_setP_frame s c v _

theorem State.p_setPreds (s : State) (c : Nat) (v : Word) {d q : Nat} (hq : q < 8) :
    (s.setPreds c v).p d q =
      if d = c ∧ q ≠ 0 ∧ q < (if s.isV1 c then 4 else 8) then v.getLsbD q else s.p d q :=
  State.p_foldl_setP s c v (by split <;> omega) hq

/-- A body that writes the predicates of a word (SETP): the command completes with those writes. -/
theorem completes_setPreds {core : BitVec 6} {w : Word} {k : Kind} {e : CoreErr} {s : State} {body : State → CRes}
    {o : Res} {v : Word} (ho : o = .next (s.instr core.toNat w k e body)) (h : s.runs core.toNat w k e = true)
    (hb : body (s.past core.toNat) = .ok ((s.past core.toNat).setPreds core.toNat v)) :
    ∃ t, o = .next t ∧ t = { s with regs := t.regs, pregs := t.pregs } ∧
      (∀ d q, q < 8 → t.p d q =
        if d = core.toNat ∧ q ≠ 0 ∧ q < (if s.isV1 core.toNat then 4 else 8) then v.getLsbD q else s.p d q) ∧
      nextPc s t core.toNat ∧ retired s t core.toNat ∧ coreRegs s t core.toNat [] := by
  have hframe := State.setPreds_frame (s.past core.toNat) core.toNat v
  have hregs := State.retire_regs_congr core.toNat (congrArg State.regs hframe)
  obtain ⟨_, hpc, hret, hcore⟩ := past_retire s core.toNat core.isLt
  refine ⟨_, by rw [ho, State.instr_of_ok h hb], ?_, ?_, nextPc_congr hpc hregs, retired_congr hret hregs,
    coreRegs_congr hcore hregs⟩
  · rw [hframe]; rfl
  · intro d q hq
    rw [State.p_retire, State.p_setPreds _ _ v hq, State.isV1_past s core.isLt, State.p_past]

end Sys2Proof.Machine

namespace Sys2Proof

open Sys2Proof.Machine Sys2Proof.Ulital

/-- Settles O5: a compare or an operation of one result is one write of PD or RD, whatever its FUNC; GETP's number has
the predicates as its bits, and SETP is one write for each predicate of the image's version. -/
theorem predicateInstructionsWritePd : Obligations.PredicateInstructionsWritePd := by
  unfold Obligations.PredicateInstructionsWritePd
  intro core w e s
  refine ⟨?cmp, ?cmpi, ?logic, ?getp, ?setp⟩
  case cmp =>
    intro h
    refine completes_setP (pdA_lt w) rfl h ?_
    simp only [State.g_past]
    generalize func w = f
    match f with
    | 0 | 1 | 2 | 3 | 4 | _ + 5 => simp
  case cmpi =>
    intro h
    refine completes_setP (pdI_lt w) rfl h ?_
    simp only [State.g_past]
    generalize func w = f
    match f with
    | 0 | 1 | 4 | _ + 5 => simp [imm]
    | 2 | 3 => simp [imm_toInt]
  case logic =>
    intro h hf
    refine completes_setP (pdA_lt w) rfl h ?_
    interval_cases func w <;> simp
  case getp =>
    intro h hf
    obtain ⟨t, hnext, honly, hrest⟩ := completes_setG (o := exec (.pred core w e) s) (rd_lt w) rfl h
      (v := BitVec.ofNat 64 (s.predBits core.toNat)) (by simp [hf, State.predBits_past s core.isLt])
    exact ⟨t, hnext, ⟨_, honly, s.getLsbD_predBits _⟩, hrest⟩
  case setp =>
    intro h hf
    exact completes_setPreds rfl h (by simp [hf])

end Sys2Proof
end

section
/-! SUPPORT. Laws of byte strings: little-endian and network-order fields read back, and where a field of a
concatenation lies. Courier packets read back by them (R483). -/

namespace Sys2Proof.Machine

/-! ### Little-endian and network-order strings (R7) -/

@[simp] theorem length_leBytes (n v : Nat) : (leBytes n v).length = n := by
  induction n generalizing v with
  | zero => rfl
  | succ n ih => rw [leBytes, List.length_cons, ih]

@[simp] theorem length_beBytes (n v : Nat) : (beBytes n v).length = n := by rw [beBytes, List.length_reverse, length_leBytes]

/-- The low bytes of a number spell its low bits. -/
theorem ofLe_leBytes (n v : Nat) : ofLe (leBytes n v) = v % 2 ^ (8 * n) := by
  induction n generalizing v with
  | zero => simp [leBytes, ofLe, Nat.mod_one]
  | succ n ih =>
    rw [leBytes, ofLe, ih, BitVec.toNat_ofNat, Nat.mul_succ, Nat.add_comm (8 * n), Nat.pow_add, Nat.mod_mul]

/-- A byte string's number fits its bytes. -/
theorem ofLe_lt (b : List Byte) : ofLe b < 2 ^ (8 * b.length) := by
  induction b with
  | nil => simp [ofLe]
  | cons x t ih =>
    have hx : x.toNat < 256 := x.isLt
    rw [ofLe, List.length_cons, Nat.mul_succ, Nat.pow_add]
    omega

/-! ### Slices of a concatenation -/

theorem bytesAt_append_right {a : List Byte} (b : List Byte) {o : Nat} (n : Nat) (h : a.length ≤ o) :
    bytesAt (a ++ b) o n = bytesAt b (o - a.length) n := by
  rw [bytesAt, bytesAt, List.drop_append, List.drop_eq_nil_of_le h, List.nil_append]

theorem bytesAt_append_left {a : List Byte} (b : List Byte) {o n : Nat} (h : o + n ≤ a.length) :
    bytesAt (a ++ b) o n = bytesAt a o n := by
  have hn : n ≤ (a.drop o).length := by rw [List.length_drop]; omega
  rw [bytesAt, bytesAt, List.drop_append_of_le_length (by omega), List.take_append_of_le_length hn]

theorem bytesAt_whole {a : List Byte} {n : Nat} (h : a.length = n) : bytesAt a 0 n = a := by
  simp [bytesAt, ← h]

theorem fieldAt_append_right {a : List Byte} (b : List Byte) {o : Nat} (n : Nat) (h : a.length ≤ o) :
    fieldAt (a ++ b) o n = fieldAt b (o - a.length) n := by rw [fieldAt, fieldAt, bytesAt_append_right b n h]

theorem fieldAt_append_left {a : List Byte} (b : List Byte) {o n : Nat} (h : o + n ≤ a.length) :
    fieldAt (a ++ b) o n = fieldAt a o n := by rw [fieldAt, fieldAt, bytesAt_append_left b h]

theorem beField_append_right {a : List Byte} (b : List Byte) {o : Nat} (n : Nat) (h : a.length ≤ o) :
    beField (a ++ b) o n = beField b (o - a.length) n := by rw [beField, beField, bytesAt_append_right b n h]

theorem beField_append_left {a : List Byte} (b : List Byte) {o n : Nat} (h : o + n ≤ a.length) :
    beField (a ++ b) o n = beField a o n := by rw [beField, beField, bytesAt_append_left b h]

/-- A little-endian field reads back the low bits it was made of. -/
@[simp] theorem fieldAt_leBytes (n v : Nat) : fieldAt (leBytes n v) 0 n = v % 2 ^ (8 * n) := by
  rw [fieldAt, bytesAt_whole (length_leBytes n v), ofLe_leBytes]

/-- So does a field in network byte order. -/
@[simp] theorem beField_beBytes (n v : Nat) : beField (beBytes n v) 0 n = v % 2 ^ (8 * n) := by
  rw [beField, bytesAt_whole (length_beBytes n v), beBytes, List.reverse_reverse, ofLe_leBytes]

/-! ### Courier packets -/

@[simp] theorem Packet.length_header (p : Packet) : p.header.length = 32 := by simp [Packet.header]

/-- The header's second byte carries its four flags and the class. -/
theorem flagByte_reads (a b c d : Bool) (k : Nat) (h : k < 4) :
    let n := b2n a * 128 + b2n b * 64 + b2n c * 32 + b2n d * 16 + k * 4
    n < 2 ^ 8 ∧ n.testBit 7 = a ∧ n.testBit 6 = b ∧ n.testBit 5 = c ∧ n.testBit 4 = d ∧ n / 4 % 4 = k ∧ n % 4 = 0 := by
  revert a b c d k
  decide

end Sys2Proof.Machine

namespace Sys2Proof

open Sys2Proof.Machine

/-- Settles O58: the header is 32 bytes, each field of it reads back modulo its width, and the CRC field holds the CRC of
what stands before it. -/
theorem packetsReadBack : Obligations.PacketsReadBack := by
  unfold Obligations.PacketsReadBack
  intro p hver htyp hcls hdst hsrc hdgen hsgen hpsn hack hop htrans hoff hlen
  obtain ⟨hf, h7, h6, h5, h4, hk, hr⟩ := flagByte_reads p.first p.last p.ackValid p.ece p.cls hcls
  have hbytes : p.bytes = (p.header ++ p.payload) ++ beBytes 4 (crc32c (p.header ++ p.payload)).toNat := rfl
  have htotal : p.bytes.length = 32 + p.payload.length + 4 := by simp [hbytes, Nat.add_assoc]
  have htake : p.bytes.take (32 + p.payload.length) = p.header ++ p.payload := by
    rw [hbytes]; exact List.take_left' (by simp)
  have hhead : p.bytes.take 32 = p.header := by
    rw [hbytes, List.append_assoc]; exact List.take_left' (by simp)
  have hcrc : beField p.bytes (32 + p.payload.length) 4 = (crc32c (p.header ++ p.payload)).toNat := by
    rw [hbytes, beField_append_right _ _ (by simp)]
    simpa using Nat.mod_eq_of_lt (crc32c (p.header ++ p.payload)).isLt
  have hfield (o n : Nat) (h : o + n ≤ 32) : beField p.bytes o n = beField p.header o n := by
    rw [hbytes, List.append_assoc]
    exact beField_append_left _ (by simpa using h)
  constructor
  · have hlong : ¬ 32 + p.payload.length + 4 < 36 := by omega
    simp only [Packet.parse, htotal, Nat.add_sub_cancel, hcrc, htake, hhead, ne_eq, not_true_eq_false, if_false, hlong]
    have hpay : (p.header ++ p.payload).drop 32 = p.payload := List.drop_left' (by simp)
    have hv : (p.ver * 16 + p.typ) % 2 ^ 8 / 16 = p.ver := by omega
    have ht : (p.ver * 16 + p.typ) % 2 ^ 8 % 16 = p.typ := by omega
    rw [hpay]
    simp (disch := simp) only [Packet.header, beField_append_right, beField_append_left, beField_beBytes,
      length_beBytes, List.length_append, Nat.reduceAdd, Nat.reduceSub, Nat.reduceMul, hv, ht, Nat.mod_eq_of_lt hf,
      h7, h6, h5, h4, hk, Nat.mod_eq_of_lt hdst, Nat.mod_eq_of_lt hsrc, Nat.mod_eq_of_lt hdgen, Nat.mod_eq_of_lt hsgen,
      Nat.mod_eq_of_lt hpsn, Nat.mod_eq_of_lt hack, Nat.mod_eq_of_lt hop, Nat.mod_eq_of_lt htrans, Nat.mod_eq_of_lt hoff]
  · have hl : p.payload.length % 2 ^ 16 + 36 = 32 + p.payload.length + 4 := by omega
    simp (disch := simp) only [headerSound, hfield, htotal, Packet.header, beField_append_right, beField_append_left,
      beField_beBytes, length_beBytes, List.length_append, Nat.reduceAdd, Nat.reduceSub, Nat.reduceMul,
      Nat.mod_eq_of_lt hf, hr, hl, Nat.zero_mod, beq_self_eq_true, Bool.and_self]

end Sys2Proof
end

section
/-! SUPPORT. The machine as a whole: the form every step keeps, reset, the front of the queue, and the idle step. -/

namespace Sys2Proof.Machine

/-! ### Every command answers a next state -/

theorem exec_answers (c : Instr) (s : State) : ∃ t, exec c s = .next t := by
  cases c
  case asyncStoreFail | badWrite | carrierItemEnd | channelStallTimeout | deferredDispCheck | engineUnitFault |
      gateTimeout | heathResponse | heathTimeout | intakeCommit | intakeWriteFault | issueTimeout | itemArrival |
      migrateComplete | migrationCommit | migrationReserve | noticeReservation | noticeRingRetry | regrowCommit |
      regrowStart | reservationWaitTimeout | stalledIssueProceeds | tierLossTimeout | waitTimeout | walkerGroupIssue |
      workItemEnd =>
    simp only [exec, execAsyncStoreFail, execBadWrite, execCarrierItemEnd, execChannelStallTimeout,
      execDeferredDispCheck, execEngineUnitFault, execGateTimeout, execHeathResponse, execHeathTimeout,
      execIntakeCommit, execIntakeWriteFault, execIssueTimeout, execItemArrival, execMigrateComplete,
      execMigrationCommit, execMigrationReserve, execNoticeReservation, execNoticeRingRetry, execRegrowCommit,
      execRegrowStart, execReservationWaitTimeout, execStalledIssueProceeds, execTierLossTimeout, execWaitTimeout,
      execWalkerGroupIssue, execWorkItemEnd]
    repeat' split
    all_goals exact ⟨_, rfl⟩
  all_goals exact ⟨_, rfl⟩

theorem step_of_idle {s : State} (h : s.pending = []) : step s = .next s.tick := by rw [step, h]

theorem step_of_cons {s : State} {c : Instr} {cs : List Instr} (h : s.pending = c :: cs) :
    step s = exec c { s with pending := cs } := by rw [step, h]; rfl

/-! ### The idle step -/

/-- The counting cores among `l`, two cycles each. -/
def State.countCycles (s : State) (l : List Nat) : State :=
  l.foldl (fun s c => if s.counting c then s.bump F.SRT_CYCLE_COUNT c 2 else s) s

/-- The promotions a PREFER_MEADOW hint allows now (R301). -/
def State.promote (s : State) : State :=
  (List.range 32).foldl (fun s p => if s.served p then s.hintGranules p 1 (s.preferred p) else s) s

theorem State.tick_of_held {s : State} (h : s.pins.held = true) : s.tick = s := if_pos h

theorem State.tick_of_live {s : State} (h : s.pins.held = false) :
    s.tick = (({ s with time := s.time + 1 } : State).countCycles (List.range 64)).promote :=
  if_neg (ne_true_of_eq_false h)

/-- A fold whose every step changes nothing. -/
theorem foldl_of_fixed {α β : Type} {g : β → α → β} {x : β} {l : List α} (h : ∀ a ∈ l, g x a = x) : l.foldl g x = x := by
  induction l with
  | nil => rfl
  | cons a l ih =>
    rw [List.foldl_cons, h a List.mem_cons_self]
    exact ih (fun b hb => h b (List.mem_cons_of_mem a hb))

theorem State.promote_of_none {s : State} (h : ∀ p, p < 32 → s.preferred p = []) : s.promote = s := by
  refine foldl_of_fixed (fun p hp => ?_)
  rw [h p (List.mem_range.1 hp)]
  split <;> rfl

theorem State.countCycles_succ (s : State) (n : Nat) : s.countCycles (List.range (n + 1)) =
    if (s.countCycles (List.range n)).counting n then (s.countCycles (List.range n)).bump F.SRT_CYCLE_COUNT n 2
    else s.countCycles (List.range n) := by
  rw [State.countCycles, List.range_succ, List.foldl_append]; rfl

theorem State.onlyRegs_countCycles (s : State) (n : Nat) : onlyRegs s (s.countCycles (List.range n)) := by
  induction n with
  | zero => exact onlyRegs_refl s
  | succ n ih =>
    rw [State.countCycles_succ]
    split
    · exact onlyRegs_wr_of _ _ _ ih
    · exact ih

/-- Counting cycles touches the cycle counters of the cores it counts. -/
theorem State.reg_countCycles (s : State) {n i : Nat} {r : Reg} (hn : n ≤ 64) (hi : i < 131072)
    (h : r ≠ Reg.SRT_CYCLE ∨ n ≤ i) : (s.countCycles (List.range n)).reg r i = s.reg r i := by
  induction n with
  | zero => rfl
  | succ n ih =>
    rw [State.countCycles_succ]
    split
    · refine Eq.trans (State.reg_setReg_of_key_ne _ _ ?_) (ih (by omega) (h.imp_right (by omega)))
      intro e
      obtain ⟨hr, he⟩ := (Reg.key_inj hi (by omega)).1 e
      exact h.elim (fun hne => hne hr) (by omega)
    · exact ih (by omega) (h.imp_right (by omega))

theorem State.counting_countCycles (s : State) {n c : Nat} (hn : n ≤ 64) (hc : c < 64) :
    (s.countCycles (List.range n)).counting c = s.counting c := by
  have h : (s.countCycles (List.range n)).coreState c = s.coreState c :=
    congrArg F.SRT_STATUS_STATE.get (s.reg_countCycles hn (by omega) (.inl (by decide)))
  simp only [State.counting, h]

theorem State.cycles_countCycles (s : State) {n c : Nat} (hn : n ≤ 64) (hc : c < n) :
    (s.countCycles (List.range n)).rd F.SRT_CYCLE_COUNT c =
      if s.counting c then (s.rd F.SRT_CYCLE_COUNT c + 2) % 2 ^ 64 else s.rd F.SRT_CYCLE_COUNT c := by
  induction n with
  | zero => omega
  | succ n ih =>
    rw [State.countCycles_succ, State.counting_countCycles s (by omega) (by omega)]
    rcases Nat.lt_succ_iff_lt_or_eq.1 hc with hlt | rfl
    · rw [← ih (by omega) hlt]
      split
      · exact State.rd_wr_inst _ _ _ _ rfl (by omega)
      · rfl
    · have hsame : (s.countCycles (List.range c)).rd F.SRT_CYCLE_COUNT c = s.rd F.SRT_CYCLE_COUNT c :=
        congrArg F.SRT_CYCLE_COUNT.get (s.reg_countCycles (by omega) (by omega) (.inr (Nat.le_refl c)))
      split
      · rw [← hsame]; exact State.rd_wr_self _ F.SRT_CYCLE_COUNT c _ (by decide)
      · exact hsame

end Sys2Proof.Machine

namespace Sys2Proof

open Sys2Proof.Machine

/-- Settles O59: the idle step keeps the form, and so does every command on the state without its queue's front. -/
theorem everyStepKeepsTheForm : Obligations.EveryStepKeepsTheForm := by
  unfold Obligations.EveryStepKeepsTheForm
  intro s t hs hstep
  cases hq : s.pending with
  | nil =>
    rw [step_of_idle hq] at hstep
    have hk : Keeps s t := Keeps.of_next hstep (nextKeeps.next (State.tick_keeps (Keeps.refl s)))
    exact ⟨⟨hk.mem hs.mem, hk.frank hs.frank⟩, hk.variant, by rw [hk.pending, hq]; rfl⟩
  | cons c cs =>
    rw [step_of_cons hq] at hstep
    have hk : Keeps { s with pending := cs } t := Keeps.of_next hstep (exec_keeps c (Keeps.refl _))
    exact ⟨⟨hk.mem hs.mem, hk.frank hs.frank⟩, hk.variant, hk.pending⟩

/-- Settles O57: every table of the reset state is empty, so each read gives its default. -/
theorem resetState : Obligations.ResetState :=
  ⟨rfl, rfl, rfl, rfl, fun _ => rfl, fun _ => rfl, fun _ _ => rfl, rfl, fun _ _ => rfl, State.reset_sound⟩

/-- Settles O1: a step unfolds to its front command, and no branch of a command's meaning stops the machine. -/
theorem stepRunsTheFrontCommand : Obligations.StepRunsTheFrontCommand :=
  ⟨⟨fun _ _ => rfl, fun _ _ _ h => step_of_cons h⟩, exec_answers⟩

/-- Settles O2: the promotions have nothing to do, and counting cycles is one write for each counting core. -/
theorem idleStepPassesOneNanosecond : Obligations.IdleStepPassesOneNanosecond := by
  unfold Obligations.IdleStepPassesOneNanosecond
  intro s hq hnone
  refine ⟨s.tick, step_of_idle hq, State.tick_of_held, fun hlive => ?_⟩
  let u : State := { s with time := s.time + 1 }
  have honly : onlyRegs u (u.countCycles (List.range 64)) := State.onlyRegs_countCycles u 64
  have htick : s.tick = u.countCycles (List.range 64) := by
    rw [State.tick_of_live hlive]
    refine State.promote_of_none (fun p hp => ?_)
    rw [honly]; exact hnone p hp
  rw [htick]
  refine ⟨honly, fun c hc => ?_, fun r i hi h => State.reg_countCycles u (Nat.le_refl 64) hi h⟩
  rw [State.cycles_countCycles u (Nat.le_refl 64) hc]
  simp only [State.counting, Bool.or_eq_true, beq_iff_eq, or_assoc]
  rfl

end Sys2Proof
end

section
/-! SUPPORT. TALLY frames (R548, R549, R551, R553): the parts of a frame's own bytes, and what its deltas do to the
totals. -/

namespace Sys2Proof.Machine

/-! ### Listed values of a table -/

/-- A read gives the default or a listed value. -/
theorem Tab.get_eq_or_mem {α : Type} (d : α) (t : Tab α) (k : Nat) : Tab.get d t k = d ∨ (k, Tab.get d t k) ∈ t := by
  induction t with
  | nil => exact .inl rfl
  | cons e t ih =>
    simp only [Tab.get]
    split
    · rename_i h; exact .inr (by rw [← h]; exact List.mem_cons_self)
    · exact ih.imp_right (List.mem_cons_of_mem e)

/-! ### The PRESENT mask -/

theorem TallyFrame.present_eq (f : TallyFrame) : f.present =
    (List.range 32).foldl (fun m p => m + b2n (f.deltas.any (fun e => e.1 / 11 == p)) * 2 ^ p) 0 := by
  rw [TallyFrame.present]
  congr 1
  funext m p
  cases f.deltas.any (fun e => e.1 / 11 == p) <;> simp [b2n]

theorem TallyFrame.present_lt (f : TallyFrame) : f.present < 2 ^ 32 := by
  rw [f.present_eq]; exact foldl_bits_lt _ 32

/-- A partition's bit is set where the frame lists a delta of it. -/
theorem TallyFrame.testBit_present (f : TallyFrame) (p : Nat) :
    f.present.testBit p = (decide (p < 32) && f.deltas.any (fun e => e.1 / 11 == p)) := by
  rw [f.present_eq]; exact testBit_foldl_bits _ 32 p

theorem TallyFrame.mem_presentList (f : TallyFrame) (p : Nat) :
    p ∈ presentList f.present ↔ p < 32 ∧ ∃ e ∈ f.deltas, e.1 / 11 = p := by
  simp [presentList, TallyFrame.testBit_present]

theorem nodup_presentList (m : Nat) : (presentList m).Nodup := List.nodup_range.filter _

theorem length_presentList_le (m : Nat) : (presentList m).length ≤ 32 := by
  have h := List.length_filter_le (fun p => m.testBit p) (List.range 32)
  rwa [List.length_range] at h

/-! ### The frame's bytes -/

/-- The eleven deltas of a partition (Table 15-6). -/
def deltaBlock (deltas : Tab Nat) (p : Nat) : List Byte :=
  (List.range 11).flatMap (fun q => leBytes 8 (Tab.get 0 deltas (11 * p + q)))

/-- What stands between a frame's header and its CRC. -/
def TallyFrame.payload (f : TallyFrame) : List Byte :=
  leBytes 4 f.ticks ++ (leBytes 4 f.present ++ (presentList f.present).flatMap (deltaBlock f.deltas))

/-- A frame without its CRC. -/
def TallyFrame.body (f : TallyFrame) : List Byte :=
  leBytes 1 0x01 ++ (leBytes 1 (b2n f.sync) ++ (leBytes 2 f.payload.length ++ (leBytes 4 f.seq ++ f.payload)))

theorem TallyFrame.bytes_eq (f : TallyFrame) : f.bytes = f.body ++ leBytes 4 (crc32c f.body).toNat := by
  simp only [TallyFrame.body, TallyFrame.payload, ← List.append_assoc]
  rfl

theorem length_flatMap_leBytes {α : Type} (v : α → Nat) (l : List α) :
    (l.flatMap (fun q => leBytes 8 (v q))).length = 8 * l.length := by
  induction l with
  | nil => rfl
  | cons q l ih => rw [List.flatMap_cons, List.length_append, ih, length_leBytes, List.length_cons]; omega

theorem length_deltaBlock (deltas : Tab Nat) (p : Nat) : (deltaBlock deltas p).length = 88 :=
  length_flatMap_leBytes (fun q => Tab.get 0 deltas (11 * p + q)) (List.range 11)

theorem length_deltaBlocks (deltas : Tab Nat) (ps : List Nat) : (ps.flatMap (deltaBlock deltas)).length = 88 * ps.length := by
  induction ps with
  | nil => rfl
  | cons p ps ih => rw [List.flatMap_cons, List.length_append, ih, length_deltaBlock, List.length_cons]; omega

theorem TallyFrame.length_payload (f : TallyFrame) : f.payload.length = 8 + 88 * (presentList f.present).length := by
  simp only [TallyFrame.payload, List.length_append, length_leBytes, length_deltaBlocks]; omega

theorem TallyFrame.length_body (f : TallyFrame) : f.body.length = 8 + f.payload.length := by
  simp only [TallyFrame.body, List.length_append, length_leBytes]; omega

/-- A frame's own bytes pass R553's checks on CRC and LENGTH and give its parts back. -/
theorem TallyFrame.frameParts_bytes (f : TallyFrame) (hseq : f.seq < 2 ^ 32) :
    frameParts f.bytes = some (1, b2n f.sync, f.seq, f.payload) := by
  have hlist := length_presentList_le f.present
  have hlen : f.payload.length % 2 ^ 16 = f.payload.length := Nat.mod_eq_of_lt (by rw [f.length_payload]; omega)
  have hsync : b2n f.sync % 2 ^ 8 = b2n f.sync := by cases f.sync <;> rfl
  have htake : f.bytes.take (8 + f.payload.length) = f.body := by
    rw [f.bytes_eq]; exact List.take_left' f.length_body
  have hcrc : fieldAt f.bytes (8 + f.payload.length) 4 = (crc32c f.body).toNat := by
    rw [f.bytes_eq, fieldAt_append_right _ _ (by rw [f.length_body]), f.length_body, Nat.sub_self, fieldAt_leBytes]
    exact Nat.mod_eq_of_lt (crc32c f.body).isLt
  have hhead (o n : Nat) (h : o + n ≤ 8) : fieldAt f.bytes o n = fieldAt f.body o n := by
    rw [f.bytes_eq]; exact fieldAt_append_left _ (by rw [f.length_body]; omega)
  have hfields : fieldAt f.body 0 1 = 1 ∧ fieldAt f.body 1 1 = b2n f.sync ∧ fieldAt f.body 2 2 = f.payload.length ∧
      fieldAt f.body 4 4 = f.seq := by
    simp (disch := simp) only [TallyFrame.body, fieldAt_append_right, fieldAt_append_left, fieldAt_leBytes,
      length_leBytes, Nat.reduceSub, Nat.reduceMul]
    exact ⟨rfl, hsync, hlen, Nat.mod_eq_of_lt hseq⟩
  obtain ⟨hcode, hflags, hlength, hseqField⟩ := hfields
  have hpay : (f.bytes.drop 8).take f.payload.length = f.payload := by
    have hdrop : f.body.drop 8 = f.payload := by
      simp only [TallyFrame.body, ← List.append_assoc]
      exact List.drop_left' (by simp)
    rw [f.bytes_eq, List.drop_append_of_le_length (by rw [f.length_body]; omega), hdrop]
    exact List.take_left' rfl
  have htotal : f.bytes.length = 12 + f.payload.length := by
    rw [f.bytes_eq, List.length_append, f.length_body, length_leBytes]; omega
  simp only [frameParts, hhead, hcode, hflags, hlength, hseqField, htake, hcrc, hpay, htotal, and_self, if_true,
    Nat.reduceAdd, Nat.reduceLeDiff]

theorem TallyFrame.payload_ticks (f : TallyFrame) (h : f.ticks ≤ 65535) : fieldAt f.payload 0 4 = f.ticks := by
  rw [TallyFrame.payload, fieldAt_append_left _ (by simp), fieldAt_leBytes]
  omega

theorem TallyFrame.payload_present (f : TallyFrame) : fieldAt f.payload 4 4 = f.present := by
  rw [TallyFrame.payload, fieldAt_append_right _ _ (by simp), length_leBytes, Nat.sub_self,
    fieldAt_append_left _ (by simp), fieldAt_leBytes]
  exact Nat.mod_eq_of_lt f.present_lt

theorem TallyFrame.payload_blocks (f : TallyFrame) :
    f.payload.drop 8 = (presentList f.present).flatMap (deltaBlock f.deltas) := by
  rw [TallyFrame.payload, ← List.append_assoc]
  exact List.drop_left' (by simp)

/-! ### The deltas added to the totals (R549) -/

/-- Quantity `q` of a partition's block. -/
theorem fieldAt_flatMap_leBytes (v : Nat → Nat) (l : List Nat) (rest : List Byte) {q : Nat} (h : q < l.length) :
    fieldAt (l.flatMap (fun q => leBytes 8 (v q)) ++ rest) (8 * q) 8 = v (l[q]) % 2 ^ 64 := by
  induction l generalizing q with
  | nil => exact absurd h (Nat.not_lt_zero q)
  | cons a l ih =>
    rw [List.flatMap_cons, List.append_assoc]
    cases q with
    | zero => rw [Nat.mul_zero, fieldAt_append_left _ (by simp), fieldAt_leBytes]; rfl
    | succ q =>
      rw [fieldAt_append_right _ _ (by rw [length_leBytes]; omega), length_leBytes, Nat.mul_succ, Nat.add_sub_cancel,
        ih (Nat.lt_of_succ_lt_succ h), List.getElem_cons_succ]

theorem fieldAt_deltaBlock (deltas : Tab Nat) (p : Nat) (rest : List Byte) {q : Nat} (h : q < 11) :
    fieldAt (deltaBlock deltas p ++ rest) (8 * q) 8 = Tab.get 0 deltas (11 * p + q) % 2 ^ 64 := by
  rw [deltaBlock, fieldAt_flatMap_leBytes (fun q => Tab.get 0 deltas (11 * p + q)) _ _ (by simpa using h),
    List.getElem_range]

/-- One partition's block: each of its first `n` quantities rises by its delta, and no other total changes. -/
theorem get_addBlock (totals : Tab Nat) (b : List Byte) (p n k : Nat) :
    Tab.get 0 ((List.range n).foldl (fun t q =>
      Tab.set 0 t (11 * p + q) (low 64 (Tab.get 0 t (11 * p + q) + fieldAt b (8 * q) 8))) totals) k =
      if 11 * p ≤ k ∧ k < 11 * p + n then (Tab.get 0 totals k + fieldAt b (8 * (k - 11 * p)) 8) % 2 ^ 64
      else Tab.get 0 totals k := by
  induction n generalizing k with
  | zero => rw [if_neg (by omega)]; rfl
  | succ n ih =>
    simp only [List.range_succ, List.foldl_append, List.foldl_cons, List.foldl_nil, Tab.get_set]
    rw [ih, ih, if_neg (by omega : ¬ (11 * p ≤ 11 * p + n ∧ 11 * p + n < 11 * p + n))]
    by_cases hk : k = 11 * p + n
    · subst hk
      rw [if_pos rfl, if_pos (by omega), Nat.add_sub_cancel_left]; rfl
    · rw [if_neg hk]
      have hiff : 11 * p ≤ k ∧ k < 11 * p + (n + 1) ↔ 11 * p ≤ k ∧ k < 11 * p + n := by omega
      simp only [hiff]

/-- The blocks of partitions without repetition: each listed partition's totals rise by its deltas. -/
theorem get_applyDeltas (totals deltas : Tab Nat) (ps : List Nat) (hps : ps.Nodup) (k : Nat) :
    Tab.get 0 (applyDeltas totals ps (ps.flatMap (deltaBlock deltas))) k =
      if k / 11 ∈ ps then (Tab.get 0 totals k + Tab.get 0 deltas k % 2 ^ 64) % 2 ^ 64 else Tab.get 0 totals k := by
  induction ps generalizing totals with
  | nil => rfl
  | cons p ps ih =>
    obtain ⟨hp, hps⟩ := List.nodup_cons.1 hps
    rw [List.flatMap_cons, applyDeltas, List.drop_left' (length_deltaBlock deltas p), ih _ hps, get_addBlock]
    by_cases hk : k / 11 = p
    · have hin : 11 * p ≤ k ∧ k < 11 * p + 11 := by omega
      have hq : 11 * p + (k - 11 * p) = k := by omega
      rw [if_neg (by rw [hk]; exact hp), if_pos hin, if_pos (by rw [hk]; exact List.mem_cons_self),
        fieldAt_deltaBlock _ _ _ (by omega), hq]
    · have hout : ¬ (11 * p ≤ k ∧ k < 11 * p + 11) := by omega
      simp only [hout, if_false, List.mem_cons, hk, false_or]

/-- The deltas a frame lists are all of its own: a partition that is not PRESENT has none. -/
theorem TallyFrame.delta_of_absent (f : TallyFrame) {k : Nat} (hk : k < 352) (h : k / 11 ∉ presentList f.present) :
    Tab.get 0 f.deltas k = 0 := by
  refine (Tab.get_eq_or_mem 0 f.deltas k).resolve_right (fun hmem => h ?_)
  exact (f.mem_presentList _).2 ⟨by omega, _, hmem, rfl⟩

/-- Frank with an in-sequence frame's deltas applied (R549). -/
def Frank.applied (f : Frank) (t : TallyFrame) : Frank :=
  { f with totals := applyDeltas f.totals (presentList t.present) ((presentList t.present).flatMap (deltaBlock t.deltas))
           gap := false, tallyE := low 32 (t.seq + 1) }

/-- A frame's own bytes in sequence are applied; SYNC is logged besides (R549, R560). -/
theorem Frank.tally_bytes (f : Frank) (t : TallyFrame) (hseq : t.seq = f.tallyE) (hseq32 : t.seq < 2 ^ 32)
    (hlow : 1 ≤ t.ticks) (hhigh : t.ticks ≤ 65535) :
    f.tally t.bytes = (if t.sync then (f.applied t).event 0x05 else f.applied t, some 0) := by
  have hflag : ¬ 1 < b2n t.sync := by cases t.sync <;> decide
  have hok : ¬ ((1 : Nat) ≠ 1 ∨ b2n t.sync > 1 ∨ t.payload.length ≠ 8 + 88 * (presentList t.present).length ∨
      t.ticks = 0 ∨ 65535 < t.ticks) := by rw [t.length_payload]; omega
  simp only [Frank.tally, t.frameParts_bytes hseq32, t.payload_ticks hhigh, t.payload_present, t.payload_blocks, hok,
    if_false]
  cases t.sync with
  | true => rfl
  | false => exact if_pos hseq

theorem Frank.get_totals_applied (f : Frank) (t : TallyFrame)
    (htotals : ∀ k, Tab.get 0 f.totals k < 2 ^ 64) (k : Nat) :
    Tab.get 0 (f.applied t).totals k =
      (Tab.get 0 f.totals k + (if k < 352 then Tab.get 0 t.deltas k else 0)) % 2 ^ 64 := by
  have hsum := get_applyDeltas f.totals t.deltas (presentList t.present) (nodup_presentList _) k
  have hold := htotals k
  rw [Frank.applied, hsum]
  by_cases hp : k / 11 ∈ presentList t.present
  · have h32 := ((t.mem_presentList _).1 hp).1
    rw [if_pos hp, if_pos (by omega), Nat.add_mod_mod]
  · rw [if_neg hp]
    by_cases hk : k < 352
    · rw [if_pos hk, t.delta_of_absent hk hp, Nat.add_zero, Nat.mod_eq_of_lt hold]
    · rw [if_neg hk, Nat.add_zero, Nat.mod_eq_of_lt hold]

end Sys2Proof.Machine

namespace Sys2Proof

open Sys2Proof.Machine

/-- Settles O54: the frame's bytes give its parts back, a block adds its eleven deltas, and a partition without a block
has no delta. -/
theorem tallyFrameAddsItsDeltas : Obligations.TallyFrameAddsItsDeltas := by
  unfold Obligations.TallyFrameAddsItsDeltas
  intro f t hseq hseq32 hlow hhigh _ htotals
  refine ⟨_, f.tally_bytes t hseq hseq32 hlow hhigh, ?_⟩
  have happlied : (f.applied t).tallyE = (f.tallyE + 1) % 2 ^ 32 := by rw [← hseq]; rfl
  have hget := f.get_totals_applied t htotals
  cases t.sync <;> exact ⟨happlied, rfl, rfl, hget⟩

end Sys2Proof
end

section
/-! SUPPORT. The results of the ALU, multiply and divide groups as numbers (R172, R174). -/

namespace Sys2Proof.Machine

/-! ### Counts of bits -/

theorem popcount_eq_length_filter (k n : Nat) : popcount k n = ((List.range k).filter (fun i => n.testBit i)).length := by
  induction k with
  | zero => rfl
  | succ k ih =>
    rw [popcount, ih, List.range_succ, List.filter_append, List.length_append, List.filter_singleton]
    cases n.testBit k <;> simp [b2n, Nat.add_comm]

theorem popcount_le (k n : Nat) : popcount k n ≤ k := by
  rw [popcount_eq_length_filter]
  exact (List.length_filter_le _ _).trans (List.length_range).le

/-- The leading zeros of a 64-bit number, by the logarithm of its double plus one. -/
theorem clz_eq_iff {a n : Nat} (hn : n ≤ 64) (ha : a < 2 ^ 64) :
    64 - Nat.log2 (2 * a + 1) = n ↔ a < 2 ^ (64 - n) ∧ (n < 64 → 2 ^ (63 - n) ≤ a) := by
  have hlog : Nat.log2 (2 * a + 1) ≤ 64 := Nat.lt_succ_iff.1 ((Nat.log2_lt (by omega)).2 (by omega))
  have hflip : 64 - Nat.log2 (2 * a + 1) = n ↔ Nat.log2 (2 * a + 1) = 64 - n := by omega
  rw [hflip, Nat.log2_eq_iff (by omega)]
  rcases Nat.lt_or_eq_of_le hn with hlt | rfl
  · have hexp : 64 - n = (63 - n) + 1 := by omega
    simp only [hexp, Nat.pow_succ, hlt, true_implies]
    omega
  · simp only [Nat.sub_self, Nat.pow_zero, Nat.zero_add, Nat.pow_one, Nat.lt_irrefl, false_implies, and_true]
    omega

/-! ### Signed results that fit -/

theorem toInt_bounds (a : Word) : -2 ^ 63 ≤ a.toInt ∧ a.toInt < 2 ^ 63 :=
  ⟨BitVec.le_toInt a, BitVec.toInt_lt⟩

/-- A signed result within 64 bits is kept exactly. -/
theorem toInt_ofInt_of_bounds {z : Int} (hlow : -2 ^ 63 ≤ z) (hhigh : z < 2 ^ 63) : (BitVec.ofInt 64 z).toInt = z := by
  rw [BitVec.toInt_ofInt]
  exact Int.bmod_eq_of_le (by omega) (by omega)

/-- The high half of a signed product fits. -/
theorem mulHigh_bounds (a b : Word) : -2 ^ 63 ≤ a.toInt * b.toInt / 2 ^ 64 ∧ a.toInt * b.toInt / 2 ^ 64 < 2 ^ 63 := by
  have hprod : |a.toInt * b.toInt| ≤ 2 ^ 63 * 2 ^ 63 := by
    obtain ⟨ha, ha'⟩ := toInt_bounds a
    obtain ⟨hb, hb'⟩ := toInt_bounds b
    rw [abs_mul]
    exact mul_le_mul (abs_le.2 ⟨ha, ha'.le⟩) (abs_le.2 ⟨hb, hb'.le⟩) (abs_nonneg _) (by norm_num)
  obtain ⟨hlow, hhigh⟩ := abs_le.1 hprod
  omega

/-- A signed quotient fits, but that of -2^63 by -1 (R174). -/
theorem tdiv_bounds {a b : Word} (hover : ¬ (a.toInt = -2 ^ 63 ∧ b.toInt = -1)) :
    -2 ^ 63 ≤ Int.tdiv a.toInt b.toInt ∧ Int.tdiv a.toInt b.toInt < 2 ^ 63 := by
  obtain ⟨ha, ha'⟩ := toInt_bounds a
  have habs : (Int.tdiv a.toInt b.toInt).natAbs = a.toInt.natAbs / b.toInt.natAbs := Int.natAbs_tdiv _ _
  have hle := Nat.div_le_self a.toInt.natAbs b.toInt.natAbs
  refine ⟨by omega, lt_of_le_of_ne (by omega) (fun htop => ?_)⟩
  have hfull : a.toInt.natAbs / b.toInt.natAbs = 2 ^ 63 := by omega
  have hmin : a.toInt = -2 ^ 63 := by omega
  have hunit : b.toInt.natAbs ≤ 1 := by
    by_contra hbig
    have hhalf := Nat.div_le_div_left (a := a.toInt.natAbs) (show 2 ≤ b.toInt.natAbs by omega) two_pos
    omega
  have hone : b.toInt = 0 ∨ b.toInt = 1 := by omega
  rcases hone with h | h
  · rw [h, Int.tdiv_zero] at htop; omega
  · rw [h, Int.tdiv_one] at htop; omega

theorem tmod_bounds {a b : Word} (hb : b ≠ 0) :
    -2 ^ 63 ≤ Int.tmod a.toInt b.toInt ∧ Int.tmod a.toInt b.toInt < 2 ^ 63 := by
  have hne : b.toInt ≠ 0 := fun h => hb (BitVec.eq_of_toInt_eq (h.trans BitVec.toInt_zero.symm))
  obtain ⟨hlow, hhigh⟩ := toInt_bounds b
  have habs : (Int.tmod a.toInt b.toInt).natAbs = a.toInt.natAbs % b.toInt.natAbs := Int.natAbs_tmod _ _
  have hlt := Nat.mod_lt a.toInt.natAbs (show 0 < b.toInt.natAbs by omega)
  omega

end Sys2Proof.Machine

namespace Sys2Proof

open Sys2Proof.Machine

/-- Settles O3: the operations of BitVec as numbers; leading zeros are a logarithm, set bits a count over the positions,
and a signed product, quotient or remainder is kept because it fits. -/
theorem arithmeticResults : Obligations.ArithmeticResults := by
  unfold Obligations.ArithmeticResults
  intro a b p
  have ha := a.isLt
  have hb := b.isLt
  refine ⟨?add, ?sub, ?and, ?or, ?xor, ?shl, ?shr, ?sar, ?min, ?max, ?minu, ?maxu, ?sel, ?clz, ?cnt, ?mul, ?mulhu,
    ?mulh, ?div⟩
  case add => exact BitVec.toNat_add a b
  case sub => exact (BitVec.toNat_sub a b).trans (congrArg (· % 2 ^ 64) (by omega))
  case and => exact fun i _ => BitVec.getLsbD_and
  case or => exact fun i _ => BitVec.getLsbD_or
  case xor => exact fun i _ => BitVec.getLsbD_xor
  case shl => rw [aluOp, BitVec.toNat_shiftLeft, Nat.shiftLeft_eq]
  case shr => rw [aluOp, BitVec.toNat_ushiftRight, Nat.shiftRight_eq_div_pow]
  case sar => rw [aluOp, BitVec.toInt_sshiftRight, Int.shiftRight_eq_div_pow]; rfl
  case min => simp only [aluOp, BitVec.slt, decide_eq_true_eq]; split <;> omega
  case max => simp only [aluOp, BitVec.slt, decide_eq_true_eq]; split <;> omega
  case minu => simp only [aluOp, BitVec.ult, decide_eq_true_eq]; split <;> omega
  case maxu => simp only [aluOp, BitVec.ult, decide_eq_true_eq]; split <;> omega
  case sel => rfl
  case clz =>
    intro n hn
    rw [← clz_eq_iff hn ha, aluOp, BitVec.toNat_ofNat, Nat.mod_eq_of_lt (by omega)]
  case cnt =>
    have hle := popcount_le 64 a.toNat
    rw [aluOp, BitVec.toNat_ofNat, Nat.mod_eq_of_lt (by omega), popcount_eq_length_filter]
    · rfl
    all_goals simp
  case mul => exact BitVec.toNat_mul a b
  case mulhu =>
    have hlt : a.toNat * b.toNat / 2 ^ 64 < 2 ^ 64 := Nat.div_lt_of_lt_mul (Nat.mul_lt_mul'' ha hb)
    rw [mulOp, BitVec.toNat_ofNat, Nat.mod_eq_of_lt hlt]
  case mulh =>
    obtain ⟨hlow, hhigh⟩ := mulHigh_bounds a b
    exact toInt_ofInt_of_bounds hlow hhigh
  case div =>
    intro hne
    refine ⟨rfl, rfl, fun hover => ?_, fun ⟨hmin, hneg⟩ => ?_, ?_⟩
    · obtain ⟨hlow, hhigh⟩ := tdiv_bounds hover
      exact toInt_ofInt_of_bounds hlow hhigh
    · rw [divOp, hmin, hneg]; rfl
    · obtain ⟨hlow, hhigh⟩ := tmod_bounds (a := a) hne
      exact toInt_ofInt_of_bounds hlow hhigh

end Sys2Proof
end

section
/-! SUPPORT. Scratch and the tensor registers (R133, R134, R179, R180, R183, R184): what a byte reads after a store, the
value a load extends, and the fields of a beat. -/

namespace Sys2Proof.Machine

open Ulital

/-! ### Scratch -/

theorem State.scratchWrite_frame (s : State) (c a : Nat) (bs : List Byte) :
    s.scratchWrite c a bs = { s with scratch := (s.scratchWrite c a bs).scratch } := by
  induction bs generalizing s a with
  | nil => rfl
  | cons b bs ih => rw [State.scratchWrite, ih]

/-- A byte of scratch after a store that lies in the core's 256 KiB. -/
theorem State.scratchByte_scratchWrite (s : State) (c : Nat) {a x : Nat} (bs : List Byte) (d : Nat)
    (ha : a + bs.length ≤ 262144) (hx : x < 262144) :
    (s.scratchWrite c a bs).scratchByte d x =
      if d = c ∧ a ≤ x ∧ x < a + bs.length then bs.getD (x - a) 0 else s.scratchByte d x := by
  induction bs generalizing s a with
  | nil => rw [if_neg (by rw [List.length_nil]; omega)]; rfl
  | cons b bs ih =>
    rw [List.length_cons] at ha
    rw [State.scratchWrite, ih _ (by omega), List.length_cons]
    simp only [State.scratchByte, Tab.get_set]
    by_cases hrest : d = c ∧ a + 1 ≤ x ∧ x < a + 1 + bs.length
    · obtain ⟨k, hk⟩ : ∃ k, x - a = k + 1 := ⟨x - a - 1, by omega⟩
      rw [if_pos hrest, if_pos (by omega), hk, List.getD_cons_succ]
      congr 1; omega
    · rw [if_neg hrest]
      by_cases hhead : d = c ∧ x = a
      · obtain ⟨rfl, rfl⟩ := hhead
        rw [if_pos rfl, if_pos (by omega), Nat.sub_self, List.getD_cons_zero]
      · rw [if_neg (by omega), if_neg (by omega)]

@[simp] theorem State.scratchRead_past (s : State) (c d a n : Nat) : (s.past c).scratchRead d a n = s.scratchRead d a n := by
  simp [State.scratchRead, State.past]

@[simp] theorem State.t_past (s : State) (c d q : Nat) : (s.past c).t d q = s.t d q := by simp [State.past]

theorem State.length_scratchRead (s : State) (c a n : Nat) : (s.scratchRead c a n).length = n := by
  simp [State.scratchRead]

/-- What a store to scratch that retires leaves. -/
theorem done_scratchWrite (s : State) {c a : Nat} (bs : List Byte) (hc : c < 64) (ha : a + bs.length ≤ 262144) :
    onlyScratch s (((s.past c).scratchWrite c a bs).retire c) c a bs ∧
      nextPc s (((s.past c).scratchWrite c a bs).retire c) c ∧ retired s (((s.past c).scratchWrite c a bs).retire c) c ∧
      coreRegs s (((s.past c).scratchWrite c a bs).retire c) c [] := by
  have hframe := State.scratchWrite_frame (s.past c) c a bs
  have hregs := State.retire_regs_congr c (congrArg State.regs hframe)
  obtain ⟨_, hpc, hret, hcore⟩ := past_retire s c hc
  refine ⟨⟨by rw [hframe]; rfl, fun d x hx => ?_⟩, nextPc_congr hpc hregs, retired_congr hret hregs,
    coreRegs_congr hcore hregs⟩
  rw [State.scratchByte_retire, State.scratchByte_scratchWrite _ _ _ _ ha hx]
  simp [State.past]

/-! ### Checks of a scratch access (R134, R180) -/

theorem scratchTrap?_load {v1 : Bool} {a n : Nat} (halign : a % n = 0) (htop : a + n ≤ scratchEnd v1) :
    scratchTrap? v1 a n false = none := by
  have htop' : a + n ≤ 0x40000 := htop.trans (by cases v1 <;> decide)
  rw [scratchTrap?, if_neg (by omega), if_neg (not_not.2 halign), if_neg (by omega)]; rfl

theorem scratchTrap?_store {v1 : Bool} {a n : Nat} (halign : a % n = 0) (htop : a + n ≤ ticketBase v1) :
    scratchTrap? v1 a n true = none := by
  have hend : ticketBase v1 ≤ scratchEnd v1 := by cases v1 <;> decide
  have htop' : a + n ≤ 0x40000 := htop.trans (by cases v1 <;> decide)
  rw [scratchTrap?, if_neg (by omega), if_neg (not_not.2 halign), if_neg (by omega), Bool.true_and,
    if_neg (by simpa using htop)]

/-! ### Extension of loaded bytes (R179) -/

/-- A sign-extending load keeps the signed value of its bytes. -/
theorem toInt_extendLoad {bs : List Byte} (hpos : 0 < bs.length) (h8 : bs.length ≤ 4) :
    (extendLoad bs true).toInt = (BitVec.ofNat (8 * bs.length) (ofLe bs)).toInt := by
  have hlt := ofLe_lt bs
  have hbound : 2 ^ (8 * bs.length) ≤ 2 ^ 32 := Nat.pow_le_pow_right two_pos (by omega)
  obtain ⟨k, hk⟩ : ∃ k, 8 * bs.length = k + 1 := ⟨8 * bs.length - 1, by omega⟩
  rw [extendLoad, Bool.true_and]
  rw [hk, Nat.pow_succ] at hlt hbound
  rw [hk, Nat.add_sub_cancel]
  have hself : (BitVec.ofNat (k + 1) (ofLe bs)).toNat = ofLe bs := by
    rw [BitVec.toNat_ofNat, Nat.pow_succ, Nat.mod_eq_of_lt hlt]
  have hpow : (2 : Int) ^ (k + 1) = ((2 ^ k * 2 : Nat) : Int) := by push_cast [pow_succ]; rfl
  rw [BitVec.toInt_eq_toNat_cond (BitVec.ofNat (k + 1) (ofLe bs)), hself, Nat.pow_succ]
  by_cases htop : ofLe bs < 2 ^ k
  · rw [Nat.testBit_lt_two_pow htop, if_neg Bool.false_ne_true, if_pos (by omega), BitVec.toInt_eq_toNat_cond,
      BitVec.toNat_ofNat, Nat.mod_eq_of_lt (by omega), if_pos (by omega)]
  · rw [Nat.testBit_of_two_pow_le_and_two_pow_add_one_gt (by omega) (by rw [Nat.pow_succ]; omega), if_pos rfl,
      if_neg (by omega), hpow, toInt_ofInt_of_bounds (by omega) (by omega)]

/-! ### Fields of a beat (R183, R184) -/

/-- A field write replaces its bits and keeps every other. -/
theorem getLsbD_beatPut (b : Beat) (pos n v : Nat) {i : Nat} (hi : i < 512) :
    (beatPut b pos n v).getLsbD i = if pos ≤ i ∧ i < pos + n then v.testBit (i - pos) else b.getLsbD i := by
  simp only [beatPut, BitVec.getLsbD_or, BitVec.getLsbD_and, BitVec.getLsbD_not, BitVec.getLsbD_shiftLeft,
    BitVec.getLsbD_ofNat, testBit_mask, Nat.testBit_mod_two_pow, hi]
  by_cases hlow : pos ≤ i
  · have hbit : i - pos < 512 := by omega
    have hin : i < pos + n ↔ i - pos < n := by omega
    have hge : ¬ i < pos := by omega
    by_cases htop : i - pos < n <;> simp [hlow, hbit, hin, hge, htop]
  · have hlt : i < pos := by omega
    simp [hlow, hlt]

theorem testBit_beatGet (b : Beat) (pos n i : Nat) : (beatGet b pos n).testBit i = (decide (i < n) && b.getLsbD (pos + i)) := by
  rw [beatGet, Nat.testBit_mod_two_pow, Nat.testBit_div_two_pow, BitVec.getLsbD, Nat.add_comm]

/-! ### Words that run -/

theorem State.reservedZero_of_runs {s : State} {c : Nat} {w : Word} {k : Kind} {e : CoreErr}
    (h : s.runs c w k e = true) : reservedZero w k = true := by
  simp only [State.runs, State.fetches, Bool.and_eq_true] at h
  exact h.1.1.1.1.1.2

theorem td_lt (w : Word) : td w < 16 := field_lt w 44 4

theorem rg_lt (w : Word) : rg w < 32 := field_lt w 35 5

theorem wm1_lt (w : Word) : wm1 w < 64 := field_lt w 20 6

section Completes

variable {core : BitVec 6} {w : Word} {k : Kind} {e : CoreErr} {s : State} {body : State → CRes} {o : Res}

/-- A body that writes one t register: the command completes with that write. -/
theorem completes_setT {r : Nat} {v : Beat} (hr : r < 16) (ho : o = .next (s.instr core.toNat w k e body))
    (h : s.runs core.toNat w k e = true)
    (hb : body (s.past core.toNat) = .ok ((s.past core.toNat).setT core.toNat r v)) :
    ∃ t, o = .next t ∧ onlyT s t core.toNat r v ∧ nextPc s t core.toNat ∧ retired s t core.toNat ∧
      coreRegs s t core.toNat [] :=
  ⟨_, by rw [ho, State.instr_of_ok h hb], done_setT s core.toNat r v core.isLt hr⟩

/-- A body that stores to scratch: the command completes with that store. -/
theorem completes_scratchWrite {a : Nat} {bs : List Byte} (ha : a + bs.length ≤ 262144)
    (ho : o = .next (s.instr core.toNat w k e body)) (h : s.runs core.toNat w k e = true)
    (hb : body (s.past core.toNat) = .ok ((s.past core.toNat).scratchWrite core.toNat a bs)) :
    ∃ t, o = .next t ∧ onlyScratch s t core.toNat a bs ∧ nextPc s t core.toNat ∧ retired s t core.toNat ∧
      coreRegs s t core.toNat [] :=
  ⟨_, by rw [ho, State.instr_of_ok h hb], done_scratchWrite s bs core.isLt ha⟩

end Completes

end Sys2Proof.Machine

namespace Sys2Proof

open Sys2Proof.Machine Sys2Proof.Ulital

/-- Settles O6: an access within its bounds passes the checks of R180, and a body is one write of a g register, a t
register or scratch. -/
theorem scratchAndTensorRegisters : Obligations.ScratchAndTensorRegisters := by
  unfold Obligations.ScratchAndTensorRegisters
  refine ⟨fun core w e s => ⟨?sload, ?sloads, ?sstore, ?tld, ?tst⟩, fun core w e s => ⟨?tmov, ?tzero, ?tset, ?tget⟩⟩
  case tmov => exact fun h => completes_setT (td_lt w) rfl h (by simp)
  case tzero => exact fun h => completes_setT (td_lt w) rfl h rfl
  case sload =>
    intro n hn hf h he ha htop
    refine completes_setG (rd_lt w) rfl h ?_
    have hform : loadForm (func w) = (2 ^ n, false) := by rw [hf]; interval_cases n <;> rfl
    simp only [hform, State.g_past, State.isV1_past s core.isLt, imm]
    rw [scratchTrap?_load ha htop]
    simp [he, extendLoad]
  case sloads =>
    intro n hn hf h he ha htop
    have hform : loadForm (func w) = (2 ^ n, true) := by rw [hf]; interval_cases n <;> rfl
    have hlen := s.length_scratchRead core.toNat (s.g core.toNat (rs1 w) + imm w).toNat (2 ^ n)
    have h4 : 2 ^ n ≤ 2 ^ 2 := Nat.pow_le_pow_right two_pos hn
    have hint := toInt_extendLoad (by rw [hlen]; exact Nat.two_pow_pos n) (hlen.le.trans h4)
    rw [hlen] at hint
    obtain ⟨t, hnext, honly, hrest⟩ := completes_setG (o := exec (.sload core w e) s) (rd_lt w) rfl h
      (v := extendLoad (s.scratchRead core.toNat (s.g core.toNat (rs1 w) + imm w).toNat (2 ^ n)) true) (by
        simp only [hform, State.g_past, State.isV1_past s core.isLt]
        rw [scratchTrap?_load (a := (s.g core.toNat (rs1 w) + imm w).toNat) ha htop]
        simp [he])
    exact ⟨t, _, hnext, honly, hint, hrest⟩
  case sstore =>
    intro n hn hf h ha htop
    have hin := htop.trans (show (if s.isV1 core.toNat then 0x1C000 else 0x3C000) ≤ 262144 by split <;> decide)
    refine completes_scratchWrite (by rw [length_leBytes]; exact hin) rfl h ?_
    simp only [State.g_past, State.isV1_past s core.isLt, storeSize, hf, imm]
    rw [scratchTrap?_store ha htop]
  case tld =>
    intro h he ha htop
    refine completes_setT (td_lt w) rfl h ?_
    simp only [State.g_past, State.isV1_past s core.isLt, imm20]
    rw [scratchTrap?_load ha htop]
    simp [he]
  case tst =>
    intro h ha htop
    have hin := htop.trans (show (if s.isV1 core.toNat then 0x1C000 else 0x3C000) ≤ 262144 by split <;> decide)
    refine completes_scratchWrite (by rw [length_leBytes]; exact hin) rfl h ?_
    simp only [State.g_past, State.t_past, State.isV1_past s core.isLt, imm20]
    rw [scratchTrap?_store ha htop]
  case tset =>
    intro h
    obtain ⟨t, hnext, honly, hrest⟩ := completes_setT (o := exec (.tset core w e) s) (td_lt w) rfl h (by simp; rfl)
    refine ⟨t, _, hnext, honly, fun i hi => ?_, hrest⟩
    rw [getLsbD_beatPut _ _ _ _ hi]; rfl
  case tget =>
    intro h
    obtain ⟨t, hnext, honly, hrest⟩ := completes_setG (o := exec (.tget core w e) s) (rg_lt w) rfl h (by simp; rfl)
    refine ⟨t, _, hnext, honly, fun i hi => ?_, hrest⟩
    rw [BitVec.getLsbD_ofNat, testBit_beatGet]
    simp [hi]

end Sys2Proof
end

section
/-! SUPPORT. System instructions, precise traps, the fetch and the guard (R124, R131, R151 to R153, R158, R160, R168, R182,
R212): what a body that writes registers of its core leaves, and what a trap leaves. -/

namespace Sys2Proof.Machine

open Ulital

theorem immU_eq (w : Word) : immU w = w.toNat % 2 ^ 32 := by rw [immU, field, Nat.pow_zero, Nat.div_one]

/-! ### Registers other than PC -/

/-- Moving PC past the word leaves every other register. -/
theorem State.reg_past (s : State) {c i : Nat} {r : Reg} (hr : r ≠ Reg.SRT_PC) (hc : c < 64) (hi : i < 131072) :
    (s.past c).reg r i = s.reg r i :=
  State.reg_setReg_of_key_ne _ _ (Reg.key_ne_of_reg hr (by omega) hi)

theorem State.rd_past (s : State) {c i : Nat} {f : Fld} (hf : f.reg ≠ Reg.SRT_PC) (hc : c < 64) (hi : i < 131072) :
    (s.past c).rd f i = s.rd f i := State.rd_wr_reg _ _ _ _ hf (by omega) hi

theorem State.corePart_past (s : State) {c : Nat} (hc : c < 64) : (s.past c).corePart c = s.corePart c :=
  s.rd_past (by decide) hc (by omega)

theorem State.handles_past (s : State) {c : Nat} (hc : c < 64) : (s.past c).handles c = s.handles c := by
  simp only [State.handles, State.rdb, s.rd_past (f := F.SRT_STATUS_IN_TRAP) (by decide) hc (by omega : c < 131072),
    s.rd_past (f := F.SRT_TRAP_VEC_EN) (by decide) hc (by omega : c < 131072)]

/-- No CSR shows PC. -/
theorem State.csr_past (s : State) {c : Nat} (n : Nat) (hc : c < 64) : (s.past c).csr c n = s.csr c n := by
  have hplan : (s.past c).plan ((s.past c).corePart c) = s.plan (s.corePart c) := by
    rw [s.corePart_past hc, State.past, State.plan_setPc]
  have hreg (r : Reg) (hr : r ≠ Reg.SRT_PC) : (s.past c).reg r c = s.reg r c := s.reg_past hr hc (by omega)
  unfold State.csr
  rw [hreg _ (by decide : Reg.SRT_IDENT ≠ Reg.SRT_PC), hreg _ (by decide : Reg.SRT_STATUS ≠ Reg.SRT_PC),
    hreg _ (by decide : Reg.SRT_TRAP_VEC ≠ Reg.SRT_PC), hreg _ (by decide : Reg.SRT_TRAP_CAUSE ≠ Reg.SRT_PC),
    hreg _ (by decide : Reg.SRT_TRAP_PC ≠ Reg.SRT_PC), hreg _ (by decide : Reg.SRT_TRAP_VALUE ≠ Reg.SRT_PC),
    hreg _ (by decide : Reg.SRT_CYCLE ≠ Reg.SRT_PC), hreg _ (by decide : Reg.SRT_INSTRET ≠ Reg.SRT_PC), hplan]
  have hissue : (s.past c).issueStatus c = s.issueStatus c := by
    rw [State.issueStatus, State.issueStatus, hreg _ (by decide)]; rfl
  rw [hissue]
  by_cases hfeat : n < 0x024
  · rw [if_pos hfeat, if_pos hfeat, s.reg_past (by decide) hc (by omega)]; rfl
  · rw [if_neg hfeat, if_neg hfeat]; rfl

/-! ### Bodies that write registers -/

/-- A register that the body left, and that is not SRT_INSTRET, reads the same once the instruction retires. -/
theorem State.rd_retire (s : State) {c i : Nat} {f : Fld} (hf : f.reg ≠ Reg.SRT_INSTRET) (hc : c < 64) (hi : i < 131072) :
    (s.retire c).rd f i = s.rd f i := State.rd_wr_reg _ _ _ _ hf (by omega) hi

/-- What an instruction leaves whose body changes no registers but those listed, neither PC nor SRT_INSTRET among them. -/
theorem done_regs {s u : State} {c : Nat} {l : List Reg} (hc : c < 64)
    (hu : regsBut (s.past c) u (l.map (fun r => (r, c)))) (hpc : Reg.SRT_PC ∉ l) (hret : Reg.SRT_INSTRET ∉ l) :
    nextPc s (u.retire c) c ∧ retired s (u.retire c) c ∧ coreRegs s (u.retire c) c l := by
  have hkept (r : Reg) (hr : r ∉ l) : u.reg r c = (s.past c).reg r c :=
    hu r c (by omega) (by simpa using hr)
  refine ⟨?_, ?_, ?_⟩
  · rw [nextPc, State.pc_retire _ hc, ← State.pc_past]
    exact congrArg F.SRT_PC_PC.get (hkept _ hpc)
  · rw [retired, State.instret_retire, ← s.rd_past (f := F.SRT_INSTRET_COUNT) (by decide) hc (by omega : c < 131072)]
    exact congrArg (fun w => (F.SRT_INSTRET_COUNT.get w + 1) % 2 ^ 64) (hkept _ hret)
  · have hpast : regsBut s (s.past c) ((Reg.SRT_PC :: Reg.SRT_INSTRET :: l).map (fun r => (r, c))) :=
      regsBut_mono (regsBut_wr s F.SRT_PC_PC c _ (by omega)) (by simp [F.SRT_PC_PC])
    have hbody := regsBut_trans hpast (regsBut_mono hu (by simp; tauto))
    exact regsBut_wr_of F.SRT_INSTRET_COUNT c _ hbody (by omega) (by simp [F.SRT_INSTRET_COUNT])

section Completes

variable {core : BitVec 6} {w : Word} {k : Kind} {e : CoreErr} {s u : State} {body : State → CRes} {o : Res} {l : List Reg}

/-- A body that writes registers of its core: the command completes with those writes. -/
theorem completes_regs (ho : o = .next (s.instr core.toNat w k e body)) (h : s.runs core.toNat w k e = true)
    (hb : body (s.past core.toNat) = .ok u) (hu : regsBut (s.past core.toNat) u (l.map (fun r => (r, core.toNat))))
    (hpc : Reg.SRT_PC ∉ l) (hret : Reg.SRT_INSTRET ∉ l) :
    o = .next (u.retire core.toNat) ∧ nextPc s (u.retire core.toNat) core.toNat ∧
      retired s (u.retire core.toNat) core.toNat ∧ coreRegs s (u.retire core.toNat) core.toNat l :=
  ⟨by rw [ho, State.instr_of_ok h hb], done_regs core.isLt hu hpc hret⟩

end Completes

/-- One more update that keeps the register file. -/
theorem regsBut_of_regs_of {s t u : State} {l : List (Reg × Nat)} (h : regsBut s t l) (e : u.regs = t.regs) :
    regsBut s u l := regsBut_trans h (regsBut_of_regs e)

/-- Halting a core writes its state, its cause and HALT_REQ, and abandons what it waits for (R124, R125). -/
theorem State.haltCore_frame (s : State) (c cause : Nat) :
    s.haltCore c cause = { s with regs := (s.haltCore c cause).regs, cores := (s.haltCore c cause).cores } := rfl

theorem State.regsBut_haltCore (s : State) {c : Nat} (cause : Nat) (hc : c < 131072) :
    regsBut s (s.haltCore c cause) [(Reg.SRT_STATUS, c), (Reg.SRT_CTRL, c)] := by
  have hstate := regsBut_wr_of F.SRT_STATUS_STATE c coreHalted (regsBut_refl s [(Reg.SRT_STATUS, c), (Reg.SRT_CTRL, c)])
    hc (by simp [F.SRT_STATUS_STATE])
  have hcause := regsBut_wr_of F.SRT_STATUS_HALT_CAUSE c cause hstate hc (by simp [F.SRT_STATUS_HALT_CAUSE])
  exact regsBut_of_regs_of (regsBut_wr_of F.SRT_CTRL_HALT_REQ c 0 hcause hc (by simp [F.SRT_CTRL_HALT_REQ])) rfl

theorem State.coreState_haltCore (s : State) {c : Nat} (cause : Nat) (hc : c < 131072) :
    (s.haltCore c cause).coreState c = coreHalted := by
  simp (disch := first | decide | omega) only [State.haltCore, State.coreState, State.setCoreState, State.rd_setCore,
    State.rd_wr_reg, State.rd_wr_disjoint, State.rd_wr_self]
  rfl

theorem State.haltCause_haltCore (s : State) {c cause : Nat} (hc : c < 131072) (h : cause < 8) :
    (s.haltCore c cause).rd F.SRT_STATUS_HALT_CAUSE c = cause := by
  simp (disch := first | decide | omega) only [State.haltCore, State.rd_setCore, State.rd_wr_reg, State.rd_wr_self]
  exact Nat.mod_eq_of_lt (h.trans_le (by decide))

theorem State.haltReq_haltCore (s : State) (c cause : Nat) : (s.haltCore c cause).rd F.SRT_CTRL_HALT_REQ c = 0 :=
  State.rd_wr_self _ F.SRT_CTRL_HALT_REQ c 0 (by decide)

/-- Halting leaves the registers it does not name. -/
theorem State.rd_haltCore (s : State) {c : Nat} (cause : Nat) {f : Fld} {i : Nat} (hstatus : f.reg ≠ Reg.SRT_STATUS)
    (hctrl : f.reg ≠ Reg.SRT_CTRL) (hc : c < 131072) (hi : i < 131072) :
    (s.haltCore c cause).rd f i = s.rd f i :=
  congrArg f.get (s.regsBut_haltCore cause hc f.reg i hi (by simp [hstatus, hctrl]))

/-! ### Traps -/

section Traps

variable {core : BitVec 6} {w : Word} {k : Kind} {e : CoreErr} {s : State} {body : State → CRes} {o : Res} {x : Trap}

/-- A body that traps: the handler is entered with PC at the instruction (R151). -/
theorem completes_trap (ho : o = .next (s.instr core.toNat w k e body)) (h : s.runs core.toNat w k e = true)
    (hh : s.handles core.toNat = true) (hb : body (s.past core.toNat) = .trap x) :
    ∃ t, o = .next t ∧ trapped s t core.toNat x false (s.pc core.toNat) :=
  ⟨_, by rw [ho, State.instr_of_runs body h, hb], takeTrap_handled s _ x false _ core.isLt hh⟩

end Traps

theorem scratchTrap?_unaligned {v1 : Bool} {a n : Nat} (store : Bool) (ha : a < 2 ^ 32) (halign : a % n ≠ 0) :
    scratchTrap? v1 a n store = some (trapAlign a) := by
  rw [scratchTrap?, if_neg (by omega), if_pos halign]

/-- A store beyond plan scratch, the ticket table among it, is out of range. -/
theorem scratchTrap?_beyond {v1 : Bool} {a n : Nat} (halign : a % n = 0) (htop : ticketBase v1 < a + n) :
    scratchTrap? v1 a n true = some (trapScratchRange a) := by
  rw [scratchTrap?]
  split
  · rfl
  · rw [if_neg (not_not.2 halign)]
    split
    · rfl
    · rw [if_pos (by simpa using htop)]

theorem State.memTrap?_beyond {s : State} {p va n : Nat} {write : Bool} (h : 2 ^ 57 ≤ va) :
    s.memTrap? p va n write = some (trapTranslation va) := if_pos h

theorem State.memTrap?_unaligned {s : State} {p va n : Nat} {write : Bool} (h : va < 2 ^ 57) (halign : va % n ≠ 0) :
    s.memTrap? p va n write = some (trapAlign va) := by rw [State.memTrap?, if_neg (by omega), if_pos halign]

theorem State.coreRead_of_trap {s : State} {c va n : Nat} {e : CoreErr} {x : Trap}
    (h : s.memTrap? (s.corePart c) va n false = some x) : s.coreRead c va n e = .error (s, x) := by
  rw [State.coreRead, h]

/-! ### Every row runs its word in one wrapper -/

/-- A row that is no engine instruction is one run of its word. -/
theorem exec_instr {k : Kind} (core : BitVec 6) (w : Word) (e : CoreErr) (s : State) (h : k.isEngine = false) :
    ∃ body, exec (k.instr core w e) s = .next (s.instr core.toNat w k e body) := by
  cases k <;> first | exact absurd h (by decide) | exact ⟨_, rfl⟩

/-- After an engine instruction's row, engine work that can proceed does. -/
theorem exec_engine {k : Kind} (core : BitVec 6) (w : Word) (e : CoreErr) (s : State) (h : k.isEngine = true) :
    ∃ body, exec (k.instr core w e) s = .next (s.instr core.toNat w k e body).pumpAll := by
  cases k <;> first | exact absurd h (by decide) | exact ⟨_, rfl⟩

/-! ### Traps without a handler -/

/-- A trap inside a handler halts with cause 4; the trap registers stand (R153, log entry 43). -/
theorem takeTrap_double {s : State} {c : Nat} (x : Trap) (imprecise : Bool) (pc : Nat)
    (h : s.rdb F.SRT_STATUS_IN_TRAP c = true) :
    s.takeTrap c x imprecise pc =
      ((s.setCore c { s.core c with doubleValue := x.code }).haltCore c 4).irq (s.corePart c) 2 := if_pos h

/-- The trap registers of a core as a trap writes them. -/
def State.trapRegs (s : State) (c : Nat) (x : Trap) (imprecise : Bool) (pc : Nat) : State :=
  ((((s.wr F.SRT_TRAP_CAUSE_CAUSE c x.code).wrb F.SRT_TRAP_CAUSE_IMPRECISE c imprecise).wr F.SRT_TRAP_CAUSE_DETAIL c
    x.detail).wr F.SRT_TRAP_PC_PC c pc).wr F.SRT_TRAP_VALUE_VALUE c x.value

/-- With no handler enabled the trap registers take the trap and the core halts with cause 3. -/
theorem takeTrap_unhandled {s : State} {c : Nat} (x : Trap) (imprecise : Bool) (pc : Nat) (hc : c < 64)
    (h : s.rdb F.SRT_STATUS_IN_TRAP c = false) (hv : s.rdb F.SRT_TRAP_VEC_EN c = false) :
    s.takeTrap c x imprecise pc = ((s.trapRegs c x imprecise pc).haltCore c 3).irq (s.corePart c) 2 := by
  have hvec : (s.trapRegs c x imprecise pc).rdb F.SRT_TRAP_VEC_EN c = false := by
    rw [← hv]
    simp only [State.rdb, State.trapRegs, State.wrb]
    simp (disch := first | decide | omega) only [State.rd_wr_reg]
  unfold State.takeTrap
  rw [if_neg (by rw [h]; exact Bool.false_ne_true)]
  exact if_neg (by rw [← State.trapRegs, hvec]; exact Bool.false_ne_true)

end Sys2Proof.Machine

namespace Sys2Proof

open Sys2Proof.Machine Sys2Proof.Ulital

/-- Settles O9: a bad PC traps before the word is looked at, and a false guard leaves only the move past the word. -/
theorem fetchAndGuard : Obligations.FetchAndGuard := by
  unfold Obligations.FetchAndGuard
  refine ⟨fun k core w e s hk hf he hpc hh => ?_, fun k core w e s hf he hpc hg hi => ?_⟩
  · obtain ⟨body, hexec⟩ := exec_instr core w e s hk
    rw [hexec, State.instr_of_badPc body hf he hpc]
    exact ⟨_, rfl, takeTrap_handled s _ _ false _ core.isLt hh⟩
  · refine ⟨(s.past core.toNat).retire core.toNat, ?_, past_retire s core.toNat core.isLt⟩
    have hskip (body) := State.instr_of_skip body hf he hpc hg (Option.isNone_iff_eq_none.1 hi)
    cases hk : k.isEngine with
    | false =>
      obtain ⟨body, hexec⟩ := exec_instr core w e s hk
      rw [hexec, hskip]; rfl
    | true =>
      obtain ⟨body, hexec⟩ := exec_engine core w e s hk
      rw [hexec, hskip]; rfl

end Sys2Proof
end

section
/-! SUPPORT. CSR writes, HALT and TRET (R160, R182, R212): the registers each body writes. -/

namespace Sys2Proof.Machine

open Ulital

/-- A CSRW body that writes SRT_TRAP_VEC: EN and ADDR take the bits of the value. -/
theorem regsBut_writeVec (s : State) {c : Nat} (en a : Nat) (hc : c < 131072) :
    regsBut s ((s.wr F.SRT_TRAP_VEC_EN c en).wr F.SRT_TRAP_VEC_ADDR c a) [(Reg.SRT_TRAP_VEC, c)] :=
  regsBut_wr_of F.SRT_TRAP_VEC_ADDR c a (regsBut_wr s F.SRT_TRAP_VEC_EN c en hc) hc (by simp [F.SRT_TRAP_VEC_ADDR])

theorem en_writeVec (s : State) (c en a : Nat) :
    ((s.wr F.SRT_TRAP_VEC_EN c en).wr F.SRT_TRAP_VEC_ADDR c a).rd F.SRT_TRAP_VEC_EN c = en % 2 := by
  rw [State.rd_wr_disjoint _ F.SRT_TRAP_VEC_ADDR F.SRT_TRAP_VEC_EN c a rfl (by decide) (by decide),
    State.rd_wr_self _ F.SRT_TRAP_VEC_EN c en (by decide)]
  rfl

/-- The state of HALT's body: the exit code, then the halt (R212). -/
theorem regsBut_exitHalt (s : State) {c : Nat} (code cause : Nat) (hc : c < 131072) :
    regsBut s ((s.wr F.SRT_EXIT_CODE c code).haltCore c cause)
      [(Reg.SRT_EXIT, c), (Reg.SRT_STATUS, c), (Reg.SRT_CTRL, c)] := by
  have hexit := regsBut_wr_of F.SRT_EXIT_CODE c code (regsBut_refl s
    [(Reg.SRT_EXIT, c), (Reg.SRT_STATUS, c), (Reg.SRT_CTRL, c)]) hc (by simp [F.SRT_EXIT_CODE])
  exact regsBut_trans hexit (regsBut_mono ((s.wr F.SRT_EXIT_CODE c code).regsBut_haltCore cause hc) (by simp))

theorem frame_of_onlyRegs_left {s u t : State} (h : onlyRegs s u) (ht : t = { u with regs := t.regs, cores := t.cores }) :
    t = { s with regs := t.regs, cores := t.cores } :=
  ht.trans (congrArg (fun v : State => { v with regs := t.regs, cores := t.cores }) h)

theorem frame_of_onlyRegs_right {s u t : State} (hu : u = { s with regs := u.regs, cores := u.cores })
    (h : onlyRegs u t) : t = { s with regs := t.regs, cores := t.cores } := by
  have hcores : t.cores = u.cores := by rw [show t = { u with regs := t.regs } from h]
  exact (h.trans (congrArg (fun v : State => { v with regs := t.regs }) hu)).trans (by rw [hcores])

theorem onlyRegs_past (s : State) (c : Nat) : onlyRegs s (s.past c) := rfl

theorem onlyRegs_retire (s : State) (c : Nat) : onlyRegs s (s.retire c) := rfl

/-- A return from a handler leaves IN_TRAP clear and PC at SRT_TRAP_PC, and changes no other register (R160). -/
theorem State.inTrap_trapReturn (s : State) {c : Nat} (hc : c < 64) :
    (s.trapReturn c).rd F.SRT_STATUS_IN_TRAP c = 0 := by
  rw [State.trapReturn, State.rd_setPc _ _ _ (by decide) hc, State.rd_wr_self _ _ _ _ (by decide)]
  rfl

theorem State.pc_trapReturn (s : State) (c : Nat) : (s.trapReturn c).pc c = s.rd F.SRT_TRAP_PC_PC c := by
  rw [State.trapReturn, State.pc_setPc]
  exact Nat.mod_eq_of_lt (Fld.get_lt F.SRT_TRAP_PC_PC _)

theorem State.regsBut_trapReturn (s : State) {c : Nat} (hc : c < 131072) :
    regsBut s (s.trapReturn c) [(Reg.SRT_PC, c), (Reg.SRT_STATUS, c)] :=
  regsBut_wr_of F.SRT_PC_PC c _ (regsBut_wr_of F.SRT_STATUS_IN_TRAP c 0
    (regsBut_refl s [(Reg.SRT_PC, c), (Reg.SRT_STATUS, c)]) hc (by simp [F.SRT_STATUS_IN_TRAP])) hc (by simp [F.SRT_PC_PC])

section Rows

variable (core : BitVec 6) (w : Word) (e : CoreErr) (s : State)

theorem exec_csrw_vec (h : s.runs core.toNat w .csrw e) (hn : field w 0 12 = 4) :
    ∃ t, exec (.csrw core w e) s = .next t ∧ onlyRegs s t ∧
      t.rd F.SRT_TRAP_VEC_EN core.toNat = (s.g core.toNat (rs1 w)).toNat % 2 ∧
      t.rd F.SRT_TRAP_VEC_ADDR core.toNat = (s.g core.toNat (rs1 w)).toNat / 8 % 2 ^ 29 ∧
      nextPc s t core.toNat ∧ retired s t core.toNat ∧ coreRegs s t core.toNat [Reg.SRT_TRAP_VEC] := by
  have hc := core.isLt
  obtain ⟨hnext, hdone⟩ := completes_regs (o := exec (.csrw core w e) s) (l := [Reg.SRT_TRAP_VEC]) rfl h
    (by rw [if_pos hn, State.g_past]) (regsBut_writeVec _ _ _ (by omega)) (by decide) (by decide)
  refine ⟨_, hnext, rfl, ?_, ?_, hdone⟩
  · rw [State.rd_retire _ (by decide) hc (by omega), en_writeVec, bitsOf, Nat.pow_zero, Nat.div_one]
    exact Nat.mod_mod _ _
  · rw [State.rd_retire _ (by decide) hc (by omega), State.rd_wr_self _ F.SRT_TRAP_VEC_ADDR _ _ (by decide)]
    exact Nat.mod_mod _ _

theorem exec_csrw_pc (h : s.runs core.toNat w .csrw e) (hn : field w 0 12 = 6) :
    ∃ t, exec (.csrw core w e) s = .next t ∧ onlyRegs s t ∧
      t.rd F.SRT_TRAP_PC_PC core.toNat = (s.g core.toNat (rs1 w)).toNat % 2 ^ 32 ∧
      nextPc s t core.toNat ∧ retired s t core.toNat ∧ coreRegs s t core.toNat [Reg.SRT_TRAP_PC] := by
  have hc := core.isLt
  obtain ⟨hnext, hdone⟩ := completes_regs (o := exec (.csrw core w e) s) (l := [Reg.SRT_TRAP_PC]) rfl h
    (by rw [if_neg (by rw [hn]; decide), if_pos hn, State.g_past])
    (regsBut_wr (s.past core.toNat) F.SRT_TRAP_PC_PC core.toNat _ (by omega)) (by decide) (by decide)
  refine ⟨_, hnext, rfl, ?_, hdone⟩
  rw [State.rd_retire _ (by decide) hc (by omega)]
  exact State.rd_wr_self _ F.SRT_TRAP_PC_PC _ _ (by decide)

theorem exec_halt (h : s.runs core.toNat w .halt e) :
    ∃ t, exec (.halt core w e) s = .next t ∧ t = { s with regs := t.regs, cores := t.cores } ∧
      t.rd F.SRT_EXIT_CODE core.toNat = w.toNat % 2 ^ 32 ∧ t.coreState core.toNat = coreHalted ∧
      t.rd F.SRT_STATUS_HALT_CAUSE core.toNat = 1 ∧ t.rd F.SRT_CTRL_HALT_REQ core.toNat = 0 ∧
      nextPc s t core.toNat ∧ retired s t core.toNat ∧
      coreRegs s t core.toNat [Reg.SRT_EXIT, Reg.SRT_STATUS, Reg.SRT_CTRL] := by
  have hc := core.isLt
  obtain ⟨hnext, hdone⟩ := completes_regs (o := exec (.halt core w e) s)
    (l := [Reg.SRT_EXIT, Reg.SRT_STATUS, Reg.SRT_CTRL]) rfl h rfl (regsBut_exitHalt _ (immU w) 1 (by omega))
    (by decide) (by decide)
  have hexit : onlyRegs s ((s.past core.toNat).wr F.SRT_EXIT_CODE core.toNat (immU w)) :=
    onlyRegs_wr_of F.SRT_EXIT_CODE core.toNat (immU w) (onlyRegs_past s core.toNat)
  refine ⟨_, hnext, frame_of_onlyRegs_right (frame_of_onlyRegs_left hexit (State.haltCore_frame _ _ _))
    (onlyRegs_retire _ _), ?_, ?_, ?_, ?_, hdone⟩
  · rw [State.rd_retire _ (by decide) hc (by omega), State.rd_haltCore _ _ (by decide) (by decide) (by omega) (by omega),
      State.rd_wr_self _ F.SRT_EXIT_CODE _ _ (by decide), immU_eq]
    exact Nat.mod_mod _ _
  · rw [State.coreState, State.rd_retire _ (by decide) hc (by omega)]
    exact State.coreState_haltCore _ _ (by omega)
  · rw [State.rd_retire _ (by decide) hc (by omega), State.haltCause_haltCore _ (by omega) (by decide)]
  · rw [State.rd_retire _ (by decide) hc (by omega), State.haltReq_haltCore]

theorem exec_tret (h : s.runs core.toNat w .tret e) (ht : s.rdb F.SRT_STATUS_IN_TRAP core.toNat) :
    ∃ t, exec (.tret core w e) s = .next t ∧ onlyRegs s t ∧ t.rdb F.SRT_STATUS_IN_TRAP core.toNat = false ∧
      t.pc core.toNat = s.rd F.SRT_TRAP_PC_PC core.toNat ∧
      retired s t core.toNat ∧ coreRegs s t core.toNat [Reg.SRT_STATUS] := by
  have hc := core.isLt
  have hpastTrap : (s.past core.toNat).rdb F.SRT_STATUS_IN_TRAP core.toNat = true := by
    rw [State.rdb, s.rd_past (by decide) hc (by omega)]; exact ht
  have hreturn := (s.past core.toNat).regsBut_trapReturn (c := core.toNat) (by omega)
  refine ⟨_, congrArg Host.Outcome.next (State.instr_of_ok h (if_pos hpastTrap)), rfl, ?_, ?_, ?_, ?_⟩
  · rw [State.rdb, State.rd_retire _ (by decide) hc (by omega), State.inTrap_trapReturn _ hc]; rfl
  · rw [State.pc_retire _ hc, State.pc_trapReturn, s.rd_past (by decide) hc (by omega)]
  · have hcount := hreturn F.SRT_INSTRET_COUNT.reg core.toNat (by omega)
      (by rw [F.SRT_INSTRET_COUNT]; simp; decide)
    rw [retired, State.instret_retire, ← s.rd_past (f := F.SRT_INSTRET_COUNT) (by decide) hc (by omega : core.toNat < 131072)]
    exact congrArg (fun v => (F.SRT_INSTRET_COUNT.get v + 1) % 2 ^ 64) hcount
  · have hpast : regsBut s (s.past core.toNat) [(Reg.SRT_PC, core.toNat)] := regsBut_wr s F.SRT_PC_PC _ _ (by omega)
    have hbody := regsBut_trans (regsBut_mono (m := [Reg.SRT_PC, Reg.SRT_INSTRET, Reg.SRT_STATUS].map
      (fun r => (r, core.toNat))) hpast (by simp)) (regsBut_mono hreturn (by simp))
    exact regsBut_wr_of F.SRT_INSTRET_COUNT _ _ hbody (by omega) (by simp [F.SRT_INSTRET_COUNT])

end Rows

end Sys2Proof.Machine

namespace Sys2Proof

open Sys2Proof.Machine Sys2Proof.Ulital

/-- Settles O7: a CSR is not changed by the move past the word, and each body writes registers of its own core. -/
theorem systemInstructions : Obligations.SystemInstructions := by
  unfold Obligations.SystemInstructions
  refine ⟨fun core w e s => ⟨fun h => ?csrr, exec_csrw_vec core w e s, exec_csrw_pc core w e s⟩,
    fun core w e s => ⟨exec_halt core w e s, fun h hh => ?brk, exec_tret core w e s⟩⟩
  case csrr => exact completes_setG (rd_lt w) rfl h (by rw [s.csr_past _ core.isLt])
  case brk => exact completes_trap rfl h hh (by rw [trapBreak, immU_eq])

end Sys2Proof
end

section
/-! SUPPORT. Precise traps of a load, traps without a handler, and the imprecise trap of a store (R141, R151 to R153). -/

namespace Sys2Proof.Machine

open Ulital

/-- A load whose check fails enters the handler with that check's trap; the checks begin with the address (log entry 43). -/
theorem exec_load_trap (core : BitVec 6) (w : Word) (e : CoreErr) (s : State) (x : Trap)
    (h : s.runs core.toNat w .load e) (hh : s.handles core.toNat)
    (hx : (s.past core.toNat).memTrap? (s.corePart core.toNat)
      (s.g core.toNat (rs1 w) + (w.setWidth 32).signExtend 64).toNat (loadForm (func w)).1 false = some x) :
    ∃ t, exec (.load core w e) s = .next t ∧ trapped (s.past core.toNat) t core.toNat x false (s.pc core.toNat) ∧
      (2 ^ 57 ≤ (s.g core.toNat (rs1 w) + (w.setWidth 32).signExtend 64).toNat →
        x = ⟨0x07, (s.g core.toNat (rs1 w) + (w.setWidth 32).signExtend 64).toNat, 0⟩) ∧
      ((s.g core.toNat (rs1 w) + (w.setWidth 32).signExtend 64).toNat < 2 ^ 57 →
        (s.g core.toNat (rs1 w) + (w.setWidth 32).signExtend 64).toNat % (loadForm (func w)).1 ≠ 0 →
        x = ⟨0x06, (s.g core.toNat (rs1 w) + (w.setWidth 32).signExtend 64).toNat, 0⟩) := by
  have hread := State.coreRead_of_trap (e := e) (c := core.toNat) (by rw [s.corePart_past core.isLt]; exact hx)
  refine ⟨_, congrArg Host.Outcome.next ?_, takeTrap_handled (s.past core.toNat) core.toNat x false (s.pc core.toNat)
    core.isLt (by rw [s.handles_past core.isLt]; exact hh), fun ha => ?_, fun ha halign => ?_⟩
  · rw [State.instr_of_runs _ h]
    simp only [State.g_past, imm, hread]
  · rw [State.memTrap?_beyond ha] at hx
    exact (Option.some.inj hx).symm
  · rw [State.memTrap?_unaligned ha halign] at hx
    exact (Option.some.inj hx).symm

/-- A change of registers only leaves the g registers and the cores. -/
theorem onlyRegs_gregs {s t : State} (h : onlyRegs s t) : t.gregs = s.gregs := by rw [show t = { s with regs := t.regs } from h]

theorem onlyRegs_core {s t : State} (h : onlyRegs s t) (c : Nat) : t.core c = s.core c := by
  rw [show t = { s with regs := t.regs } from h]; rfl

/-! ### The imprecise trap of a failed store -/

/-- An instruction that would complete gives way to an imprecise trap that waits (R141). -/
theorem State.instr_of_imprecise {s t : State} {c : Nat} {w : Word} {k : Kind} {e : CoreErr} {body : State → CRes}
    (h : s.fetches c w k = true) (he : e.fetchOk = true) (hp : s.pcValid c = true) (hi : s.imprecise? c = some t)
    (hb : ∃ u, body (s.past c) = .ok u) : s.instr c w k e body = t := by
  simp only [State.fetches, Bool.and_eq_true, Bool.not_eq_true', beq_iff_eq] at h
  obtain ⟨⟨⟨⟨hstop, hrun⟩, hkind⟩, hres⟩, hver⟩ := h
  obtain ⟨u, hu⟩ := hb
  have hok : ∃ v, (if s.p c (gpred w) = (gsense w == 0) then body (s.past c) else .ok (s.past c)) = .ok v := by
    split
    · exact ⟨u, hu⟩
    · exact ⟨_, rfl⟩
  obtain ⟨v, hv⟩ := hok
  unfold State.instr
  rw [if_neg (by simp [hstop, hrun, hkind, hres, hver])]
  cases e with
  | code => exact absurd he Bool.false_ne_true
  | regfile => exact absurd he Bool.false_ne_true
  | _ =>
    simp only [hp, Bool.not_true, Bool.false_eq_true, if_false]
    rw [← State.past, hv, hi]

/-- The state in which a core's failed store is no longer pending. -/
def State.asyncTaken (s : State) (c : Nat) : State :=
  (s.setCore c { s.core c with async := none }).wr F.SRT_STATUS_ASYNC_PENDING c 0

theorem State.gregs_asyncTaken (s : State) (c : Nat) : (s.asyncTaken c).gregs = s.gregs := rfl

theorem State.async_asyncTaken (s : State) (c : Nat) : ((s.asyncTaken c).core c).async = none := by
  rw [State.asyncTaken, State.core_wr, State.core_setCore_self]

theorem State.rd_asyncTaken {s : State} {c : Nat} (f : Fld) (hf : f.reg ≠ Reg.SRT_STATUS) (hc : c < 64) :
    (s.asyncTaken c).rd f c = s.rd f c := by
  rw [State.asyncTaken, State.rd_wr_reg _ F.SRT_STATUS_ASYNC_PENDING f _ hf (by omega) (by omega), State.rd_setCore]

theorem State.imprecise?_of_async {s : State} {c va : Nat} (hc : c < 64) (hout : s.rdb F.SRT_STATUS_IN_TRAP c = false)
    (ha : (s.core c).async = some va) :
    s.imprecise? c = some ((s.asyncTaken c).takeTrap c ⟨0x10, va, 0⟩ true (s.pc c)) := by
  have hpc : (s.asyncTaken c).pc c = s.pc c := State.rd_asyncTaken F.SRT_PC_PC (by decide) hc
  unfold State.imprecise?
  simp only [hout, ha, Bool.false_eq_true, if_false]
  rw [← hpc]
  rfl

theorem State.handles_asyncTaken {s : State} {c : Nat} (hc : c < 64) (h : s.handles c = true) :
    (s.asyncTaken c).handles c = true := by
  have hin : (s.asyncTaken c).rd F.SRT_STATUS_IN_TRAP c = s.rd F.SRT_STATUS_IN_TRAP c := by
    rw [State.asyncTaken, State.rd_wr_disjoint _ F.SRT_STATUS_ASYNC_PENDING F.SRT_STATUS_IN_TRAP _ _ rfl (by decide)
      (by decide), State.rd_setCore]
  rw [← h, State.handles, State.handles, State.rdb, State.rdb, State.rdb, State.rdb, hin,
    State.rd_asyncTaken F.SRT_TRAP_VEC_EN (by decide) hc]

theorem takeTrap_enters {s : State} {c : Nat} (x : Trap) (imprecise : Bool) (pc : Nat) (hc : c < 64)
    (h : s.handles c = true) :
    s.takeTrap c x imprecise pc = (((s.trapRegs c x imprecise pc).wr F.SRT_STATUS_IN_TRAP c 1).setPc c
      ((s.trapRegs c x imprecise pc).rd F.SRT_TRAP_VEC_ADDR c * 8)).setCoreState c coreRunning := by
  simp only [State.handles, Bool.and_eq_true, Bool.not_eq_true'] at h
  obtain ⟨hout, hen⟩ := h
  have hvec : (s.trapRegs c x imprecise pc).rdb F.SRT_TRAP_VEC_EN c = true := by
    rw [← hen]
    simp only [State.rdb, State.trapRegs, State.wrb]
    simp (disch := first | decide | omega) only [State.rd_wr_reg]
  unfold State.takeTrap
  rw [if_neg (by rw [hout]; exact Bool.false_ne_true)]
  exact if_pos hvec

/-- Entering a handler leaves whether a store failed. -/
theorem asyncPending_takeTrap {s : State} {c : Nat} (x : Trap) (imprecise : Bool) (pc : Nat) (hc : c < 64)
    (h : s.handles c = true) :
    (s.takeTrap c x imprecise pc).rd F.SRT_STATUS_ASYNC_PENDING c = s.rd F.SRT_STATUS_ASYNC_PENDING c := by
  rw [takeTrap_enters x imprecise pc hc h]
  simp only [State.setPc, State.setCoreState, State.trapRegs, State.wrb]
  simp (disch := first | decide | omega) only [State.rd_wr_reg, State.rd_wr_disjoint]

theorem exec_movi_async (core : BitVec 6) (w : Word) (e : CoreErr) (s : State) (va : Nat)
    (h : s.fetches core.toNat w .movi) (he : e.fetchOk) (hp : s.pcValid core.toNat) (hh : s.handles core.toNat)
    (ha : (s.core core.toNat).async = some va) :
    ∃ t, exec (.movi core w e) s = .next t ∧ t.gregs = s.gregs ∧ (t.core core.toNat).async = none ∧
      t.rd F.SRT_TRAP_CAUSE_CAUSE core.toNat = 0x10 ∧ t.rdb F.SRT_TRAP_CAUSE_IMPRECISE core.toNat = true ∧
      t.rd F.SRT_TRAP_PC_PC core.toNat = s.pc core.toNat ∧ t.rd F.SRT_TRAP_VALUE_VALUE core.toNat = va % 2 ^ 64 ∧
      t.pc core.toNat = s.rd F.SRT_TRAP_VEC_ADDR core.toNat * 8 ∧ t.rdb F.SRT_STATUS_IN_TRAP core.toNat = true ∧
      t.rdb F.SRT_STATUS_ASYNC_PENDING core.toNat = false := by
  have hc := core.isLt
  have hout : s.rdb F.SRT_STATUS_IN_TRAP core.toNat = false := by
    simp only [State.handles, Bool.and_eq_true, Bool.not_eq_true'] at hh; exact hh.1
  have hu := State.handles_asyncTaken hc hh
  obtain ⟨honly, hcause, himp, -, hpc, hvalue, hin, hvec, -, -, -⟩ :=
    takeTrap_handled (s.asyncTaken core.toNat) core.toNat ⟨0x10, va, 0⟩ true (s.pc core.toNat) hc hu
  refine ⟨_, congrArg Host.Outcome.next (State.instr_of_imprecise h he hp (State.imprecise?_of_async hc hout ha) ⟨_, rfl⟩),
    ?_, ?_, hcause, himp, hpc.trans ?_, hvalue, hvec.trans ?_, hin, ?_⟩
  · exact (onlyRegs_gregs honly).trans (State.gregs_asyncTaken s core.toNat)
  · rw [onlyRegs_core honly, State.async_asyncTaken]
  · exact Nat.mod_eq_of_lt (Fld.get_lt F.SRT_PC_PC _)
  · rw [State.rd_asyncTaken F.SRT_TRAP_VEC_ADDR (by decide) hc]
  · rw [State.rdb, asyncPending_takeTrap _ _ _ hc hu, State.asyncTaken, State.rd_wr_self _ F.SRT_STATUS_ASYNC_PENDING _ _
      (by decide)]
    rfl

/-! ### Halts of a trap -/

/-- What a halt leaves of a state that differs from `s` in the registers and the cores only. -/
theorem haltCore_frame_of {s u : State} (h : u = { s with regs := u.regs, cores := u.cores }) (c cause : Nat) :
    u.haltCore c cause = { s with regs := (u.haltCore c cause).regs, cores := (u.haltCore c cause).cores } :=
  (u.haltCore_frame c cause).trans (congrArg (fun v : State => { v with
    regs := (u.haltCore c cause).regs, cores := (u.haltCore c cause).cores }) h)

theorem onlyRegs_trapRegs (s : State) (c : Nat) (x : Trap) (imprecise : Bool) (pc : Nat) :
    onlyRegs s (s.trapRegs c x imprecise pc) :=
  onlyRegs_wr_of _ _ _ (onlyRegs_wr_of _ _ _ (onlyRegs_wr_of _ _ _ (onlyRegs_wr_of _ _ _
    (onlyRegs_wr_of F.SRT_TRAP_CAUSE_CAUSE c x.code (onlyRegs_refl s)))))

theorem rd_trapRegs_haltCore {s : State} {c : Nat} (x : Trap) (imprecise : Bool) (pc : Nat) (hc : c < 64) :
    ((s.trapRegs c x imprecise pc).haltCore c 3).rd F.SRT_TRAP_CAUSE_CAUSE c = x.code % 2 ^ 8 ∧
    ((s.trapRegs c x imprecise pc).haltCore c 3).rd F.SRT_TRAP_PC_PC c = pc % 2 ^ 32 ∧
    ((s.trapRegs c x imprecise pc).haltCore c 3).rd F.SRT_TRAP_VALUE_VALUE c = x.value % 2 ^ 64 ∧
    ((s.trapRegs c x imprecise pc).haltCore c 3).rdb F.SRT_TRAP_CAUSE_IMPRECISE c = imprecise ∧
    ((s.trapRegs c x imprecise pc).haltCore c 3).pc c = s.pc c := by
  simp only [State.pc, State.rdb]
  simp (disch := first | decide | omega) only [State.rd_haltCore, State.trapRegs, State.wrb, State.rd_wr_reg,
    State.rd_wr_disjoint, State.rd_wr_self]
  refine ⟨rfl, rfl, rfl, ?_, trivial⟩
  cases imprecise <;> rfl

end Sys2Proof.Machine

namespace Sys2Proof

open Sys2Proof.Machine Sys2Proof.Ulital

/-- Settles O8: each failed operand check is the body's trap, and a load's failed check is that of its read. -/
theorem preciseTraps : Obligations.PreciseTraps := by
  unfold Obligations.PreciseTraps
  refine ⟨fun core w e s hh => ⟨?div, ?unaligned, ?beyond, ?csrw, ?tret⟩, fun core w e s x => exec_load_trap core w e s x⟩
  case div => exact fun h hb => completes_trap rfl h hh (by simp [hb, trapDivide])
  case unaligned =>
    intro n hn hf h ha halign
    refine completes_trap rfl h hh ?_
    simp only [State.g_past, storeSize, hf, imm]
    rw [scratchTrap?_unaligned true ha halign, trapAlign]
  case beyond =>
    intro n hn hf h halign htop
    refine completes_trap rfl h hh ?_
    simp only [State.g_past, State.isV1_past s core.isLt, storeSize, hf, imm]
    rw [scratchTrap?_beyond halign htop, trapScratchRange]
  case csrw =>
    intro h hvec hpc
    refine completes_trap rfl h hh ?_
    have hn := field_lt w 0 12
    rw [if_neg hvec, if_neg hpc, trapOperand, low, Nat.mod_eq_of_lt (by omega)]
    congr 2; omega
  case tret =>
    intro h
    have hc := core.isLt
    have hout : s.rdb F.SRT_STATUS_IN_TRAP core.toNat = false := by
      simp only [State.handles, Bool.and_eq_true, Bool.not_eq_true'] at hh; exact hh.1
    refine completes_trap rfl h hh (if_neg ?_)
    rw [State.rdb, s.rd_past (by decide) hc (by omega)]
    exact ne_true_of_eq_false hout

/-- Settles O10: a trap inside a handler and one without a handler halt the core; a failed store's trap is entered in place of
the instruction. -/
theorem trapsWithoutAHandlerAndImprecise : Obligations.TrapsWithoutAHandlerAndImprecise := by
  unfold Obligations.TrapsWithoutAHandlerAndImprecise
  refine ⟨fun s c x imprecise pc hc => ⟨fun h => ?double, fun h hv => ?unhandled⟩,
    fun core w e s va => exec_movi_async core w e s va⟩
  case double =>
    have hregs := (s.setCore c { s.core c with doubleValue := x.code }).regsBut_haltCore (c := c) 4 (by omega)
    exact ⟨_, takeTrap_double x imprecise pc h, State.coreState_haltCore _ _ (by omega),
      State.haltCause_haltCore _ (by omega) (by decide), regsBut_trans (regsBut_of_regs rfl) hregs,
      haltCore_frame_of rfl _ _⟩
  case unhandled =>
    obtain ⟨hcause, hpc, hvalue, himp, hsame⟩ := rd_trapRegs_haltCore (s := s) x imprecise pc hc
    exact ⟨_, takeTrap_unhandled x imprecise pc hc h hv, State.coreState_haltCore _ _ (by omega),
      State.haltCause_haltCore _ (by omega) (by decide), hcause, hpc, hvalue, himp, hsame,
      frame_of_onlyRegs_left (onlyRegs_trapRegs s c x imprecise pc) (State.haltCore_frame _ _ _)⟩

end Sys2Proof
end

section
/-! SUPPORT. Device memory, rule tables and epochs, sync objects (sections 4.5, 5.5, 5.6, 5.9, 5.10): what a body reads is
not changed by the move past the word. -/

namespace Sys2Proof.Machine

open Ulital

@[simp] theorem State.core_past (s : State) (c d : Nat) : (s.past c).core d = s.core d := by rw [State.past, State.core_setPc]

@[simp] theorem State.plan_past (s : State) (c p : Nat) : (s.past c).plan p = s.plan p := by rw [State.past, State.plan_setPc]

@[simp] theorem State.soVal_past (s : State) (c n : Nat) : (s.past c).soVal n = s.soVal n := by
  rw [State.past, State.soVal_setPc]

theorem State.feature_past (s : State) {c : Nat} (b : Nat) (hc : c < 64) : (s.past c).feature b = s.feature b := by
  rw [State.feature, State.feature, s.rd_past (by decide) hc (by omega)]

theorem State.corePart_lt (s : State) (c : Nat) : s.corePart c < 131072 :=
  (Fld.get_lt F.SRT_IDENT_PARTITION _).trans_le (by decide)

theorem State.soOperand_past (s : State) {c : Nat} (w : Word) (hc : c < 64) : (s.past c).soOperand c w = s.soOperand c w := by
  unfold State.soOperand State.soInRange
  rw [s.corePart_past hc, s.rd_past (f := F.SO_RANGE_BASE) (by decide) hc (s.corePart_lt c),
    s.rd_past (f := F.SO_RANGE_COUNT) (by decide) hc (s.corePart_lt c)]
  simp only [State.g_past]

/-- A core's store whose checks pass and that the buffer or memory takes. -/
theorem State.storeRun_ok {s u : State} {c va : Nat} {bs : List Byte}
    (hx : s.memTrap? (s.corePart c) va bs.length true = none) (hu : s.coreStore c va bs = some u) :
    s.storeRun c va bs = .ok u := by rw [State.storeRun, hx, hu]

section Rows

variable (core : BitVec 6) (w : Word) (e : CoreErr) (s : State)

theorem exec_load_ok {bs : List Byte} {u : State} (h : s.runs core.toNat w .load e)
    (hr : (s.past core.toNat).coreRead core.toNat (s.g core.toNat (rs1 w) + (w.setWidth 32).signExtend 64).toNat
      (loadForm (func w)).1 e = .ok (bs, u)) :
    exec (.load core w e) s =
      .next ((u.setG core.toNat (rd w) (extendLoad bs (loadForm (func w)).2)).retire core.toNat) := by
  refine congrArg Host.Outcome.next (State.instr_of_ok h ?_)
  simp only [State.g_past, imm, hr]

theorem exec_store_ok {u : State} (h : s.runs core.toNat w .store e)
    (hx : (s.past core.toNat).memTrap? (s.corePart core.toNat)
      (s.g core.toNat (rs1 w) + (w.setWidth 32).signExtend 64).toNat (2 ^ func w) true = none)
    (hu : (s.past core.toNat).coreStore core.toNat (s.g core.toNat (rs1 w) + (w.setWidth 32).signExtend 64).toNat
      (leBytes (2 ^ func w) (s.g core.toNat (rd w)).toNat) = some u) :
    exec (.store core w e) s = .next (u.retire core.toNat) := by
  refine congrArg Host.Outcome.next (State.instr_of_ok h ?_)
  simp only [State.g_past, imm, storeSize]
  exact State.storeRun_ok (by rw [length_leBytes, s.corePart_past core.isLt]; exact hx) hu

theorem exec_amo_ok {bs : List Byte} {u : State} {n : Nat} (hn : (if func w % 2 = 0 then 4 else 8) = n)
    (h : s.runs core.toNat w .amo e) (hf : s.isV1 core.toNat || s.feature 10)
    (hx : (s.past core.toNat).memTrap? (s.corePart core.toNat) (s.g core.toNat (rs1 w)).toNat n true = none)
    (hst : (s.core core.toNat).stores = [])
    (hr : (s.past core.toNat).coreRead core.toNat (s.g core.toNat (rs1 w)).toNat n e = .ok (bs, u)) :
    exec (.amo core w e) s = .next
      (((u.vwrite .cached (s.corePart core.toNat) (s.g core.toNat (rs1 w)).toNat (leBytes n
        (amoNew (func w) n (ofLe bs) (u.g core.toNat (rs2 w)).toNat (u.g core.toNat (rs3 w)).toNat))).setG core.toNat (rd w)
          (extendLoad bs false)).retire core.toNat) := by
  have hfeat : ¬ (!s.isV1 core.toNat && !s.feature 10) = true := by
    rw [← Bool.not_or, hf]; exact Bool.false_ne_true
  refine congrArg Host.Outcome.next (State.instr_of_ok h ?_)
  simp only [State.g_past, State.isV1_past s core.isLt, s.feature_past 10 core.isLt, if_neg hfeat,
    s.corePart_past core.isLt, hn, hx, State.core_past, hst, List.isEmpty_nil, Bool.not_true, Bool.false_eq_true, if_false, hr]

theorem exec_tldd_ok {bs : List Byte} {u : State} (h : s.runs core.toNat w .tldd e)
    (hr : (s.past core.toNat).coreRead core.toNat (s.g core.toNat (rg w) + (w.setWidth 20).signExtend 64).toNat 64 e =
      .ok (bs, u)) :
    exec (.tldd core w e) s = .next ((u.setT core.toNat (td w) (BitVec.ofNat 512 (ofLe bs))).retire core.toNat) := by
  refine congrArg Host.Outcome.next (State.instr_of_ok h ?_)
  simp only [State.g_past, imm20, hr]

theorem exec_tstd_ok {u : State} (h : s.runs core.toNat w .tstd e)
    (hx : (s.past core.toNat).memTrap? (s.corePart core.toNat)
      (s.g core.toNat (rg w) + (w.setWidth 20).signExtend 64).toNat 64 true = none)
    (hu : (s.past core.toNat).coreStore core.toNat (s.g core.toNat (rg w) + (w.setWidth 20).signExtend 64).toNat
      (leBytes 64 (s.t core.toNat (ts w)).toNat) = some u) :
    exec (.tstd core w e) s = .next (u.retire core.toNat) := by
  refine congrArg Host.Outcome.next (State.instr_of_ok h ?_)
  simp only [State.g_past, State.t_past, imm20]
  exact State.storeRun_ok (by rw [length_leBytes, s.corePart_past core.isLt]; exact hx) hu

theorem exec_eadv_other (h : s.runs core.toNat w .eadv e)
    (hne : (s.plan (s.corePart core.toNat)).epoch ≠ (s.g core.toNat (rs1 w)).toNat) :
    ∃ t, exec (.eadv core w e) s = .next t ∧
      onlyG s t core.toNat (rd w) (BitVec.ofNat 64 (s.plan (s.corePart core.toNat)).epoch) ∧
      nextPc s t core.toNat ∧ retired s t core.toNat ∧ coreRegs s t core.toNat [] :=
  completes_setG (rd_lt w) rfl h (by
    simp only [s.corePart_past core.isLt, State.g_past, State.plan_past]
    rw [if_pos hne])

theorem exec_eadv_next {pl : Plan} (h : s.runs core.toNat w .eadv e)
    (heq : (s.plan (s.corePart core.toNat)).epoch = (s.g core.toNat (rs1 w)).toNat)
    (hpl : (s.plan (s.corePart core.toNat)).plan = some pl) (hlast : (s.g core.toNat (rs1 w)).toNat + 2 ≤ pl.epochs) :
    exec (.eadv core w e) s = .next (((((s.past core.toNat).setPlan (s.corePart core.toNat)
      { s.plan (s.corePart core.toNat) with epoch := (s.g core.toNat (rs1 w)).toNat + 1 }).activateRules
        (s.corePart core.toNat)).setG core.toNat (rd w) (BitVec.ofNat 64 ((s.g core.toNat (rs1 w)).toNat + 1))).retire
          core.toNat) := by
  refine congrArg Host.Outcome.next (State.instr_of_ok h ?_)
  simp only [s.corePart_past core.isLt, State.g_past, State.plan_past, hpl]
  rw [if_neg (not_not.2 heq), if_neg (by omega)]

theorem exec_rstage_ok {bs : List Byte} {u : State} {p a n : Nat} (hp : s.corePart core.toNat = p)
    (ha : (s.g core.toNat (rs1 w)).toNat = a) (hn : (s.g core.toNat (rs2 w)).toNat = n)
    (h : s.runs core.toNat w .rstage e) (halign : a % 64 = 0) (htop : a + n ≤ 2 ^ 57)
    (hx : (s.past core.toNat).xcheckRun p a n false false = none)
    (hg : ∀ x ∈ granulesOf a n, (s.past core.toNat).xcheck p x.1 false false ≠ some .xlate ∧
      (s.past core.toNat).heathReadFails p x.1 e = false)
    (hr : (s.past core.toNat).vread .cached p a n = (false, bs, u)) :
    exec (.rstage core w e) s = .next ((match (s.past core.toNat).stageSet p (s.isV1 core.toNat) bs with
      | (v, some rs) => (u.setPlan p { s.plan p with staged := some rs }).setG core.toNat (rd w) (BitVec.ofNat 64 v)
      | (v, none) => u.setG core.toNat (rd w) (BitVec.ofNat 64 v)).retire core.toNat) := by
  have hfind : (granulesOf a n).find? (fun x => (s.past core.toNat).xcheck p x.1 false false == some .xlate) = none :=
    List.find?_eq_none.2 (fun x hxm => by simpa using (hg x hxm).1)
  have hany : (granulesOf a n).any (fun x => (s.past core.toNat).heathReadFails p x.1 e) = false :=
    List.any_eq_false.2 (fun x hxm => by simpa using (hg x hxm).2)
  refine congrArg Host.Outcome.next (State.instr_of_ok h ?_)
  simp only [s.corePart_past core.isLt, State.g_past, State.plan_past, State.isV1_past s core.isLt, hp, ha, hn, hfind, hx,
    hany, hr, Option.isSome_none, Bool.or_self, Bool.false_eq_true, if_false]
  rw [if_neg (by omega), if_neg (by omega)]
  generalize (s.past core.toNat).stageSet p (s.isV1 core.toNat) bs = r
  obtain ⟨v, _ | rs⟩ := r <;> rfl

/-! ### Sync instructions and FENCE -/

theorem soOperand_lt {s : State} {c n : Nat} (h : s.soOperand c w = .ok n) : n < 4096 := by
  unfold State.soOperand at h
  dsimp only at h
  split at h
  case isTrue hn => obtain rfl := Except.ok.inj h; exact hn.1
  case isFalse => cases h

theorem State.soUsable_past (s : State) {c n : Nat} (hc : c < 64) : (s.past c).soUsable n = s.soUsable n := by
  rw [State.soUsable, State.soUsable, State.meadowOn, State.meadowOn, s.rd_past (by decide) hc (by omega)]

theorem exec_sread_ok {n : Nat} (h : s.runs core.toNat w .sread e) (ho : s.soOperand core.toNat w = .ok n) :
    ∃ t, exec (.sread core w e) s = .next t ∧ onlyG s t core.toNat (rd w) (s.soVal n) ∧ nextPc s t core.toNat ∧
      retired s t core.toNat ∧ coreRegs s t core.toNat [] :=
  completes_setG (rd_lt w) rfl h (by simp only [s.soOperand_past w core.isLt, ho, State.soVal_past])

theorem exec_signal_ok {n : Nat} (h : s.runs core.toNat w .signal e) (ho : s.soOperand core.toNat w = .ok n)
    (hst : (s.core core.toNat).stores = []) :
    exec (.signal core w e) s = .next (((s.past core.toNat).soOp (s.corePart core.toNat) n (soOpOf (cmp w))
      (s.g core.toNat (rs1 w))).retire core.toNat) := by
  refine congrArg Host.Outcome.next (State.instr_of_ok h ?_)
  simp only [s.soOperand_past w core.isLt, ho, State.core_past, hst, List.isEmpty_nil, Bool.not_true, Bool.false_eq_true,
    if_false, s.corePart_past core.isLt, State.g_past]

section Wait

variable {core w e s} {n time : Nat} (h : s.runs core.toNat w .wait e) (ho : s.soOperand core.toNat w = .ok n)
  (ht : (s.g core.toNat (rs2 w)).toNat = time) (hpos : 0 < time)
  (htop : time < (if s.isV1 core.toNat then 2 ^ 32 else 2 ^ 40))
include h ho ht hpos htop

/-- A WAIT that ends at once gives its outcome. -/
theorem exec_wait_now {v : Word}
    (hv : (if !s.soUsable n then some (2 : Word)
      else if soCmp (cmp w) (s.soVal n) (s.g core.toNat (rs1 w)) then some 0 else none) = some v) :
    ∃ t, exec (.wait core w e) s = .next t ∧ onlyG s t core.toNat (rd w) v ∧ nextPc s t core.toNat ∧
      retired s t core.toNat ∧ coreRegs s t core.toNat [] := by
  refine completes_setG (rd_lt w) rfl h ?_
  simp only [s.soOperand_past w core.isLt, ho, State.g_past, State.isV1_past s core.isLt, ht, s.soUsable_past core.isLt,
    State.soVal_past]
  rw [if_neg (by omega)]
  split at hv
  case isTrue hoff => rw [if_pos hoff]; cases hv; rfl
  case isFalse hon =>
    rw [if_neg hon]
    split at hv
    case isTrue hmet => rw [if_pos hmet]; cases hv; rfl
    case isFalse => cases hv

/-- The state of a core that WAIT blocks: PC at the WAIT, what it waits for, and its state (R148). -/
def State.blocked (s : State) (c : Nat) (r : WaitRec) : State :=
  (((s.past c).setPc c (s.pc c)).setCore c { s.core c with wait := some r }).setCoreState c coreWaiting

theorem exec_wait_blocks (hon : s.soUsable n) (hcmp : soCmp (cmp w) (s.soVal n) (s.g core.toNat (rs1 w)) = false) :
    exec (.wait core w e) s = .next (s.blocked core.toNat
      ⟨n, cmp w, s.g core.toNat (rs1 w), if s.isV1 core.toNat then time * 1000 else time, rd w⟩) := by
  refine congrArg Host.Outcome.next ((State.instr_of_runs _ h).trans ?_)
  simp only [s.soOperand_past w core.isLt, ho, State.g_past, State.isV1_past s core.isLt, ht, s.soUsable_past core.isLt,
    State.soVal_past, hon, hcmp, Bool.not_true, Bool.false_eq_true, if_false, State.ownPc_past, State.core_past]
  rw [if_neg (by omega)]
  rfl

end Wait

theorem blocked_leaves (r : WaitRec) {c : Nat} (hc : c < 64) :
    s.blocked c r = { s with regs := (s.blocked c r).regs, cores := (s.blocked c r).cores } ∧
      (s.blocked c r).coreState c = coreWaiting ∧ (s.blocked c r).pc c = s.pc c ∧
      ((s.blocked c r).core c).wait = some r ∧ coreRegs s (s.blocked c r) c [Reg.SRT_STATUS] := by
  have hpc : s.pc c < 2 ^ 32 := Fld.get_lt F.SRT_PC_PC _
  have hlist : coreRegs s (s.past c) c [Reg.SRT_STATUS] :=
    regsBut_mono (regsBut_wr s F.SRT_PC_PC c _ (by omega)) (by simp [F.SRT_PC_PC])
  refine ⟨rfl, ?_, ?_, ?_, ?_⟩
  · exact State.rd_wr_self _ F.SRT_STATUS_STATE c coreWaiting (by decide)
  · rw [State.blocked, State.setCoreState, State.pc, State.rd_wr_reg _ _ _ _ (by decide) (by omega) (by omega),
      State.rd_setCore, ← State.pc, State.pc_setPc, Nat.mod_eq_of_lt hpc]
  · rw [State.blocked, State.core_setCoreState, State.core_setCore_self]
  · have hback : coreRegs s ((s.past c).setPc c (s.pc c)) c [Reg.SRT_STATUS] :=
      regsBut_wr_of F.SRT_PC_PC c _ hlist (by omega) (by simp [F.SRT_PC_PC])
    exact regsBut_wr_of F.SRT_STATUS_STATE c coreWaiting (regsBut_of_regs_of hback rfl) (by omega)
      (by simp [F.SRT_STATUS_STATE])

theorem exec_fence_ok (h : s.runs core.toNat w .fence e)
    (hst : (mask w).testBit 0 → (s.core core.toNat).stores = [])
    (hout : (mask w).testBit 1 → s.rd F.SRT_ISSUE_STATUS_OUTSTANDING core.toNat = 0) :
    exec (.fence core w e) s = .next ((s.past core.toNat).retire core.toNat) := by
  have hc := core.isLt
  refine congrArg Host.Outcome.next (State.instr_of_ok h ?_)
  simp only [State.core_past, s.rd_past (f := F.SRT_ISSUE_STATUS_OUTSTANDING) (by decide) hc (by omega : core.toNat < 131072)]
  refine if_neg ?_
  simp only [Bool.and_eq_true, Bool.not_eq_true', List.isEmpty_eq_false_iff, bne_iff_ne]
  tauto

end Rows

end Sys2Proof.Machine

namespace Sys2Proof

open Sys2Proof.Machine Sys2Proof.Ulital

/-- Settles O11: each body is the read or the store its hypotheses name, and the instruction retires. -/
theorem deviceMemoryInstructions : Obligations.DeviceMemoryInstructions := by
  unfold Obligations.DeviceMemoryInstructions
  exact fun core w e s => ⟨fun _ _ => exec_load_ok core w e s, fun _ => exec_store_ok core w e s,
    fun _ _ => exec_amo_ok core w e s rfl, fun _ _ => exec_tldd_ok core w e s, fun _ => exec_tstd_ok core w e s⟩

/-- Settles O12: the epoch named decides EADV; a set that is read goes through its checks. -/
theorem epochAdvanceAndStaging : Obligations.EpochAdvanceAndStaging := by
  unfold Obligations.EpochAdvanceAndStaging
  exact fun core w e s => ⟨exec_eadv_other core w e s, fun _ => exec_eadv_next core w e s,
    fun _ _ => exec_rstage_ok core w e s rfl rfl rfl⟩

/-- Settles O13: the operand, the object and the comparison decide WAIT; FENCE retires when nothing it names is outstanding. -/
theorem syncInstructions : Obligations.SyncInstructions := by
  unfold Obligations.SyncInstructions
  intro core w e s n c time
  refine ⟨exec_sread_ok core w e s, exec_signal_ok core w e s, fun h ho hpos htop hoff => ?_,
    fun h ho hpos htop hon hmet => ?_, fun h ho hpos htop hon hcmp => ?_, fun h hst hout => ?_⟩
  · exact exec_wait_now h ho rfl hpos htop (by rw [hoff]; rfl)
  · exact exec_wait_now h ho rfl hpos htop (by rw [hon, hmet]; rfl)
  · obtain ⟨hframe, hstate, hpc, hwait, hregs⟩ := blocked_leaves s
      ⟨n, cmp w, s.g c (rs1 w), if s.isV1 c then time * 1000 else time, rd w⟩ core.isLt
    exact ⟨_, exec_wait_blocks h ho rfl hpos htop hon hcmp, hframe, hstate, hpc, hwait, hregs⟩
  · exact ⟨_, exec_fence_ok core w e s h hst hout, past_retire s core.toNat core.isLt⟩

end Sys2Proof
end

section
/-! SUPPORT. Engine instructions issue (sections 5.7 and 5.8): every row's body is one call of `State.issue`. -/

namespace Sys2Proof.Machine

open Ulital

theorem bitsOf_zero (v k : Nat) : bitsOf v 0 k = v % 2 ^ k := by rw [bitsOf, Nat.pow_zero, Nat.div_one]

/-- An instruction's checks pass, no store of its core is buffered, and its queue takes it: it issues (R144, R187 to R189). -/
theorem State.issue_of_room {x u : State} {c : Nat} {w : Word} {bits : List Nat} {ds : List (Nat × Beat)} {bad : Option Trap}
    {it : Item} (htrap : x.issueTrap? c w bits ds bad = none) (hst : (x.core c).stores = [])
    (hroom : x.issueRoom c (gate w) = true) (hnow : x.issueNow c (x.issueItem c w it) = .ok u) :
    x.issue c w bits ds bad it = .ok u := by
  have hgate : (x.issueItem c w it).gate.isSome = gate w := by
    rw [State.issueItem]
    cases gate w <;> rfl
  have hempty : ¬ (!(x.core c).stores.isEmpty) = true := by rw [hst]; exact Bool.false_ne_true
  rw [State.issue, htrap]
  dsimp only
  rw [if_neg hempty, State.issueOrStall, hgate, if_pos hroom, hnow]

section Issues

variable {core : BitVec 6} {w : Word} {k : Kind} {e : CoreErr} {s u : State} {body : State → CRes} {o : Res}
  {bits : List Nat} {ds : List (Nat × Beat)} {bad : Option Trap} {it : Item}

/-- A row whose body issues: the instruction retires, and engine work that can proceed does. -/
theorem exec_of_issue (ho : o = .next (s.instr core.toNat w k e body).pumpAll) (h : s.runs core.toNat w k e = true)
    (hi : (s.past core.toNat).issueTrap? core.toNat w bits ds bad = none ∧ (s.core core.toNat).stores = [] ∧
      (s.past core.toNat).issueRoom core.toNat (gate w) = true ∧
      (s.past core.toNat).issueNow core.toNat ((s.past core.toNat).issueItem core.toNat w it) = .ok u)
    (hb : body (s.past core.toNat) = (s.past core.toNat).issue core.toNat w bits ds bad it) :
    o = .next (u.retire core.toNat).pumpAll := by
  obtain ⟨htrap, hst, hroom, hnow⟩ := hi
  rw [ho, State.instr_of_ok h (hb.trans (State.issue_of_room htrap (by rw [State.core_past, hst]) hroom hnow))]

end Issues

theorem State.time_past (s : State) (c : Nat) : (s.past c).time = s.time := rfl

theorem firstTrap_append_none (x : Option Trap) : firstTrap [x, none] = x := by cases x <;> rfl

theorem firstTrap_cons_none (l : List (Option Trap)) : firstTrap (none :: l) = firstTrap l := rfl

theorem firstTrap_singleton (x : Option Trap) : firstTrap [x] = x := by cases x <;> rfl

/-- The range of PRESS's operand (R194), as the check asks for it. -/
theorem pressRange_ok {m b : Nat}
    (h : m = 0 ∨ (b / 2 ^ 48 = 0 ∧ 0x100 ≤ b / 2 ^ 32 % 2 ^ 16 ∧ epsOk m (b % 2 ^ 32))) :
    ¬ (m ≠ 0 ∧ (bitsOf b 48 16 ≠ 0 ∨ bitsOf b 32 16 < 0x100 ∨ !epsOk m (b % 2 ^ 32))) := by
  rintro ⟨hm, hbad⟩
  obtain ⟨hhi, hlo, heps⟩ := h.resolve_left hm
  rw [bitsOf, bitsOf, hhi, heps] at hbad
  simp only [Nat.zero_mod, ne_eq, not_true, Bool.not_true, Bool.false_eq_true, or_false, false_or] at hbad
  omega

end Sys2Proof.Machine

namespace Sys2Proof

open Sys2Proof.Machine Sys2Proof.Ulital

/-- Settles O14: each body is the issue of its item; PRESS adds the range of its operand. -/
theorem tileInstructionsIssue : Obligations.TileInstructionsIssue := by
  unfold Obligations.TileInstructionsIssue
  intro core w e s u
  have hpart := s.corePart_past core.isLt
  have hv1 := State.isV1_past s core.isLt
  dsimp only
  refine ⟨fun h hi => ?_, fun h hi => ?_, fun h hi => ?_, fun h hi => ?_, fun h hi => ?_, fun h hi => ?fetch,
    fun h hi => ?send, fun h hi => ?fetchRecall, fun h hb hi => ?press⟩
  case fetch =>
    refine exec_of_issue rfl h hi ?_
    simp only [State.g_past, hpart, hv1, State.time_past, objOf, tileOf, bitsOf_zero]
    rfl
  case send =>
    refine exec_of_issue rfl h hi ?_
    simp only [State.g_past, hpart, objOf, tileOf, bitsOf_zero]
    rfl
  case fetchRecall =>
    refine exec_of_issue rfl h hi ?_
    simp only [State.g_past, hpart, objOf, tileOf, bitsOf_zero]
    rfl
  case press =>
    refine exec_of_issue rfl h hi ?_
    simp only [State.g_past, hpart, objOf, tileOf, bitsOf_zero]
    rw [if_neg (pressRange_ok hb), firstTrap_append_none]
    rfl
  all_goals
    refine exec_of_issue rfl h hi ?_
    simp only [State.g_past, hpart, objOf, tileOf, bitsOf_zero]
    rfl

/-- Settles O15: each body is the issue of its item; an operand's own range check passes under its hypotheses. -/
theorem descriptorInstructionsIssue : Obligations.DescriptorInstructionsIssue := by
  unfold Obligations.DescriptorInstructionsIssue
  intro core w e s u
  have hpart := s.corePart_past core.isLt
  have hv1 := State.isV1_past s core.isLt
  dsimp only
  refine ⟨fun h hd hi => ?intake, fun h hd hi => ?noData, fun h hi => ?copy, fun h hi => ?deliver, fun h hi => ?lattice,
    fun h ha hp hi => ?notify, fun h ha hi => ?layout, fun h hk hz ht hi => ?tedd⟩
  case intake =>
    refine exec_of_issue rfl h hi ?_
    simp only [State.g_past, State.t_past, hpart, objOf, tileOf, bitsOf_zero, hd, Bool.false_eq_true, if_false]
    rfl
  case noData =>
    refine exec_of_issue rfl h hi ?_
    simp only [State.g_past, State.t_past, hpart, objOf, tileOf, bitsOf_zero, hd, if_true, firstTrap_append_none]
    rfl
  case copy =>
    refine exec_of_issue rfl h hi ?_
    simp only [State.t_past, hpart]
  case deliver =>
    refine exec_of_issue rfl h hi ?_
    simp only [State.g_past, State.t_past, hpart, objOf, tileOf, bitsOf_zero]
    rfl
  case lattice =>
    refine exec_of_issue rfl h hi ?_
    simp only [State.g_past, State.t_past, hpart, objOf, bitsOf_zero]
    rfl
  case notify =>
    refine exec_of_issue rfl h hi ?_
    simp only [State.g_past, State.t_past, hpart, hv1]
    have hpeer : ¬ (64 ≤ (s.g core.toNat (ra w)).toNat ∨
        !(s.past core.toNat).peerOf (s.corePart core.toNat) (s.g core.toNat (ra w)).toNat) := by
      rw [hp]; exact not_or.2 ⟨by omega, Bool.false_ne_true⟩
    rw [if_neg hpeer, firstTrap_cons_none, firstTrap_singleton]
  case layout =>
    refine exec_of_issue rfl h hi ?_
    simp only [State.g_past, State.t_past, hpart, hv1, bitsOf_zero, Nat.mod_eq_of_lt ha]
    rw [if_neg (by omega : ¬ 2 ^ 15 ≤ (s.g core.toNat (ra w)).toNat), firstTrap_cons_none] <;> rfl
  case tedd =>
    refine exec_of_issue rfl h hi ?_
    simp only [State.g_past, State.t_past, hpart, hv1, bitsOf_zero]
    have hop : ¬ (!Ted.known ((s.g core.toNat (ra w)).toNat % 2 ^ 16) ∨ bitsOf (s.g core.toNat (ra w)).toNat 16 16 ≠ 0) := by
      rw [hk, bitsOf, hz]; exact not_or.2 ⟨Bool.false_ne_true, not_not.2 rfl⟩
    have hpair : ¬ (Ted.twoInputs ((s.g core.toNat (ra w)).toNat % 2 ^ 16) ∧
        ta w = if s.isV1 core.toNat then 7 else 15) := fun h2 => ht h2.1 h2.2
    have hsecond : (Ted.twoInputs ((s.g core.toNat (ra w)).toNat % 2 ^ 16) &&
        ta w != if s.isV1 core.toNat then 7 else 15) = Ted.twoInputs ((s.g core.toNat (ra w)).toNat % 2 ^ 16) := by
      rw [Bool.and_eq_left_iff_imp]
      exact fun h2 => bne_iff_ne.2 (ht h2)
    rw [hsecond, if_neg hop, if_neg hpair, firstTrap_cons_none, firstTrap_cons_none]
    rfl

end Sys2Proof
end

section
/-! SUPPORT. Sync objects (sections 11.1 to 11.3): what an operation leaves beside its object, saturating counters and
flags, and the arithmetic of a tracker's rate. -/

namespace Sys2Proof.Machine

/-! ### Counters and flags -/

theorem State.rdb_flag_self (s : State) (f : Fld) (i : Nat) (hf : f.lo + f.width ≤ 64) (hw : 0 < f.width) :
    (s.flag f i).rdb f i = true := by
  have hone : 1 < 2 ^ f.width := Nat.one_lt_two_pow (by omega)
  rw [State.rdb, State.flag, State.rd_wr_self _ _ _ _ hf, Nat.mod_eq_of_lt hone]
  rfl

theorem State.rd_sat_self (s : State) (f : Fld) (i n : Nat) (hf : f.lo + f.width ≤ 64) :
    (s.sat f i n).rd f i = min (s.rd f i + n) (2 ^ f.width - 1) := by
  have hpos := Nat.two_pow_pos f.width
  rw [State.sat, State.rd_wr_self _ _ _ _ hf]
  exact Nat.mod_eq_of_lt (by rw [satAdd]; omega)

/-! ### Sync objects and memory after an evaluation of waiters -/

/-- The sync objects' values and memory are as before. -/
def State.SameData (s t : State) : Prop := t.sos = s.sos ∧ t.mem = s.mem

theorem State.SameData.refl (s : State) : s.SameData s := ⟨rfl, rfl⟩

theorem State.SameData.trans {s t u : State} (h : s.SameData t) (k : t.SameData u) : s.SameData u :=
  ⟨k.1.trans h.1, k.2.trans h.2⟩

theorem State.SameData.wr {s t : State} (h : s.SameData t) (f : Fld) (i v : Nat) : s.SameData (t.wr f i v) :=
  h.trans ⟨rfl, rfl⟩

theorem State.SameData.foldl {α : Type} {f : State → α → State}
    (hf : ∀ (s : State) x, s.SameData (f s x)) (l : List α) (s : State) :
    s.SameData (l.foldl f s) := by
  induction l generalizing s with
  | nil => exact .refl s
  | cons x xs ih => exact (hf s x).trans (ih _)

theorem State.msix_sameData (s : State) (fn v : Nat) : s.SameData (s.msix fn v) := by
  unfold State.msix
  split
  · exact ⟨rfl, rfl⟩
  · split
    · exact ⟨rfl, rfl⟩
    · dsimp only
      split
      · exact .refl s
      · split <;> exact ⟨rfl, rfl⟩

theorem State.wake_sameData (s : State) (c : Nat) (w : WaitRec) (outcome : Nat) : s.SameData (s.wake c w outcome) := by
  constructor <;> simp [State.wake]

theorem State.releaseGates_sameData (s : State) (n : Nat) (v : Word) : s.SameData (s.releaseGates n v) := ⟨rfl, rfl⟩

theorem State.wakeCores_sameData (s : State) (n : Nat) (v : Word) : s.SameData (s.wakeCores n v) := by
  refine SameData.foldl (fun s c => ?_) _ s
  split
  · split
    · exact State.wake_sameData _ _ _ _
    · exact .refl s
  · exact .refl s

theorem State.fireWatch_sameData (s : State) (i n : Nat) (v : Word) : s.SameData (s.fireWatch i n v) := by
  unfold State.fireWatch
  split
  · exact SameData.trans ⟨rfl, rfl⟩ (State.msix_sameData _ _ _)
  · exact .refl s

theorem State.track_sameData (s : State) (k n : Nat) (v : Word) : s.SameData (s.track k n v) := by
  unfold State.track
  split
  · exact .refl s
  · dsimp only
    split
    · exact ((SameData.refl s).wr _ _ _).wr _ _ _ |>.wr _ _ _
    · split
      · exact ((SameData.refl s).wr _ _ _).wr _ _ _
      · exact .refl s

theorem State.soEvaluate_sameData (s : State) (n : Nat) (v : Word) : s.SameData (s.soEvaluate n v) := by
  have hwake : s.SameData ((s.wakeCores n v).releaseGates n v) := 
    (s.wakeCores_sameData n v).trans (State.releaseGates_sameData _ n v)
  unfold State.soEvaluate
  dsimp only
  split
  · exact hwake
  · next p _ =>
    have hfire := SameData.foldl (fun t i => State.fireWatch_sameData t (16 * p + i) n v) (List.range 16)
      ((s.wakeCores n v).releaseGates n v)
    exact (hwake.trans hfire).trans (SameData.foldl (fun t i => State.track_sameData t (4 * p + i) n v) _ _)

/-- An operation that reaches its object leaves its value there, every other object and memory as before. -/
theorem State.soOp_reaches {s : State} {p n : Nat} (op : SoOp) (x : Word) (hl : (s.lease leaseSync n).state ≠ 2)
    (hu : s.soUsable n = true) :
    (∀ m, (s.soOp p n op x).soVal m = if m = n then soApply op (s.soVal n) x else s.soVal m) ∧
      (s.soOp p n op x).mem = s.mem := by
  obtain ⟨hsos, hmem⟩ := State.soEvaluate_sameData { s with sos := Tab.set 0 s.sos n (soApply op (s.soVal n) x) } n
    (soApply op (s.soVal n) x)
  have hop : s.soOp p n op x =
      { s with sos := Tab.set 0 s.sos n (soApply op (s.soVal n) x) }.soEvaluate n (soApply op (s.soVal n) x) := by
    rw [State.soOp, if_neg hl, if_neg (by rw [hu]; exact Bool.false_ne_true)]
  rw [hop]
  refine ⟨fun m => ?_, hmem⟩
  rw [State.soVal, hsos]
  exact Tab.get_set _ _ _ _ _

/-! ### Doorbells -/

/-- A 4-byte write reaches the low half of its word, zero-extended (R390). -/
theorem doorbell_operand (v : Word) (short : Bool) :
    (if short then (v.setWidth 32).setWidth 64 else v) = if short then BitVec.ofNat 64 (v.toNat % 2 ^ 32) else v := by
  cases short with
  | false => rfl
  | true => exact BitVec.eq_of_toNat_eq (by simp)

theorem State.doorbell_reaches {s : State} {fn n : Nat} {v : Word} {short : Bool} (op : SoOp)
    (hheld : s.pins.held = false) (hfn : s.fnExists fn) (hown : fn = 0 ∨ s.soOwner n = some fn)
    (hpart : s.partState ((s.soOwner n).getD 0) ≠ partResetting) (hvf : fn ≠ 0 → s.partState fn ≠ partResetting) :
    s.doorbell fn n op v short =
      s.soOp ((s.soOwner n).getD 0) n op (if short then (v.setWidth 32).setWidth 64 else v) := by
  have hlive : ¬ (fn ≠ 0 ∧ s.partState fn = partResetting) := fun h => hvf h.1 h.2
  have howns : ¬ (fn ≠ 0 ∧ s.soOwner n ≠ some fn) := fun h => h.2 (hown.resolve_left h.1)
  have hopen : ¬ (s.pins.held || !s.fnExists fn) = true := by rw [hheld, hfn]; exact Bool.false_ne_true
  unfold State.doorbell State.fnPart
  dsimp only
  rw [if_neg hopen, if_neg hlive, if_neg howns]
  cases ho : s.soOwner n with
  | none => rfl
  | some p => exact if_neg (by rw [ho] at hpart; exact hpart)

theorem State.doorbell_refused {s : State} {fn n : Nat} {v : Word} {short : Bool} (op : SoOp)
    (hheld : s.pins.held = false) (hfn : s.fnExists fn) (hpf : fn ≠ 0) (hown : s.soOwner n ≠ some fn)
    (hpart : s.partState fn ≠ partResetting) :
    s.doorbell fn n op v short = (s.flag F.SO_DB_STATUS_OUT_OF_RANGE fn).sat F.SO_DB_STATUS_COUNT fn 1 := by
  have hopen : ¬ (s.pins.held || !s.fnExists fn) = true := by rw [hheld, hfn]; exact Bool.false_ne_true
  unfold State.doorbell State.fnPart
  dsimp only
  rw [if_neg hopen, if_neg (fun h => hpart h.2), if_pos ⟨hpf, hown⟩]

theorem ofNat_add_toNat (v x : Word) : v + x = BitVec.ofNat 64 (v.toNat + x.toNat) := BitVec.eq_of_toNat_eq (by simp)

theorem max_eq_ofNat (v x : Word) : (if v.ult x then x else v) = BitVec.ofNat 64 (max v.toNat x.toNat) := by
  by_cases h : v.toNat < x.toNat
  · rw [if_pos (BitVec.ult_iff_toNat_lt.2 h), max_eq_right h.le, BitVec.ofNat_toNat, BitVec.setWidth_eq]
  · rw [if_neg (fun hv => h (BitVec.ult_iff_toNat_lt.1 hv)), max_eq_left (by omega), BitVec.ofNat_toNat, BitVec.setWidth_eq]

/-- A flag of SO_DB_STATUS set and its count advanced. -/
theorem State.flagCounted (s : State) (f : Fld) (i : Nat) (hr : F.SO_DB_STATUS_COUNT.reg = f.reg)
    (hf : f.lo + f.width ≤ F.SO_DB_STATUS_COUNT.lo ∧ 0 < f.width) :
    onlyRegs s ((s.flag f i).sat F.SO_DB_STATUS_COUNT i 1) ∧ ((s.flag f i).sat F.SO_DB_STATUS_COUNT i 1).rdb f i = true ∧
      ((s.flag f i).sat F.SO_DB_STATUS_COUNT i 1).rd F.SO_DB_STATUS_COUNT i =
        min (s.rd F.SO_DB_STATUS_COUNT i + 1) (2 ^ F.SO_DB_STATUS_COUNT.width - 1) := by
  have hlo : F.SO_DB_STATUS_COUNT.lo + F.SO_DB_STATUS_COUNT.width ≤ 64 := by decide
  obtain ⟨hdis, hpos⟩ := hf
  refine ⟨onlyRegs_wr_of _ _ _ (onlyRegs_wr_of f i 1 (onlyRegs_refl s)), ?_, ?_⟩
  · rw [State.rdb, State.sat, State.rd_wr_disjoint _ F.SO_DB_STATUS_COUNT f _ _ hr (by omega) (by omega)]
    exact s.rdb_flag_self f i (by omega) hpos
  · rw [State.rd_sat_self _ F.SO_DB_STATUS_COUNT i 1 hlo, State.flag,
      State.rd_wr_disjoint _ f F.SO_DB_STATUS_COUNT _ _ hr.symm (by omega) (by omega)]

/-! ### A tracker's rate -/

/-- A step of a floored fraction of the difference stays between the two (R397). -/
theorem shifted_between {rate sample : Nat} (k : Nat) :
    (min rate sample : Int) ≤ rate + ((sample : Int) - rate) / 2 ^ k ∧
      rate + ((sample : Int) - rate) / 2 ^ k ≤ (max rate sample : Int) := by
  have hpow : (1 : Int) ≤ 2 ^ k := one_le_pow₀ (by norm_num)
  rcases le_total rate sample with h | h
  · have hd : (0 : Int) ≤ (sample : Int) - rate := by omega
    have hle := Int.ediv_le_self (2 ^ k) hd
    have hge : 0 ≤ ((sample : Int) - rate) / 2 ^ k := Int.ediv_nonneg hd (by omega)
    omega
  · have hd : (sample : Int) - rate ≤ 0 := by omega
    have hle : ((sample : Int) - rate) / 2 ^ k ≤ 0 := Int.ediv_nonpos_of_nonpos_of_neg hd (by omega)
    have hge : (sample : Int) - rate ≤ ((sample : Int) - rate) / 2 ^ k :=
      Int.le_ediv_of_mul_le (by omega) (mul_le_of_one_le_right hd hpow)
    omega

end Sys2Proof.Machine

namespace Sys2Proof

open Sys2Proof.Machine

/-- Settles O36: the rate plus a floor of the difference, so between the rate and the sample. -/
theorem trackerRateFollowsTheSample : Obligations.TrackerRateFollowsTheSample := by
  unfold Obligations.TrackerRateFollowsTheSample
  intro rate lastV lastT shift v t _ hr sample
  have hsample : sample < 2 ^ 32 := by
    have hmin : sample ≤ 2 ^ 32 - 1 := Nat.min_le_right _ _
    omega
  obtain ⟨hlo, hhi⟩ := shifted_between (rate := rate) (sample := sample) shift
  have hshift : Int.shiftRight ((sample : Int) - rate) shift = ((sample : Int) - rate) / 2 ^ shift :=
    Int.shiftRight_eq_div_pow _ _
  have hvalue : (trackerRate rate lastV lastT shift v t : Int) = rate + ((sample : Int) - rate) / 2 ^ shift := by
    have hnonneg : (0 : Int) ≤ rate + Int.shiftRight ((sample : Int) - rate) shift := by
      rw [hshift]; exact le_trans (by positivity) hlo
    rw [← hshift]
    exact Int.toNat_of_nonneg hnonneg
  refine ⟨hvalue, ?_, ?_, ?_⟩ <;> omega

/-- Settles O18: a doorbell that reaches its object is one operation there; a refused one is counted. -/
theorem doorbellsPerformTheirOperation : Obligations.DoorbellsPerformTheirOperation := by
  unfold Obligations.DoorbellsPerformTheirOperation
  intro fn object value short s n x p reaches becomes
  have hx : (if short then (value.setWidth 32).setWidth 64 else value) = x := doorbell_operand value short
  have hop (op : SoOp) (h : reaches) :
      becomes (s.doorbell fn n op value short) (soApply op (s.soVal n) x) := by
    obtain ⟨hheld, hfn, hown, hpart, hvf, hl, hu⟩ := h
    rw [State.doorbell_reaches op hheld hfn hown hpart hvf, hx]
    exact State.soOp_reaches op x hl hu
  refine ⟨fun h => ⟨_, rfl, hop .set h⟩, fun h => ⟨_, rfl, ?add⟩, fun h => ⟨_, rfl, ?max⟩, fun h => ⟨_, rfl, hop .or h⟩,
    fun hheld hfn hpf hown hpart _ => ⟨_, congrArg Host.Outcome.next (State.doorbell_refused _ hheld hfn hpf hown hpart),
      State.flagCounted s F.SO_DB_STATUS_OUT_OF_RANGE fn rfl (by decide)⟩,
    fun op hstop hl hu => ⟨_, congrArg Host.Outcome.next (if_neg (by rw [hstop]; exact Bool.false_ne_true)),
      State.soOp_reaches op value hl hu⟩, fun bytes hheld hfn _ => ?read,
    fun bytes hheld hfn _ => ?write⟩
  case add => rw [← ofNat_add_toNat]; exact hop .add h
  case max => rw [← max_eq_ofNat]; exact hop .max h
  case read =>
    exact ⟨_, if_neg (by rw [hheld, hfn]; exact Bool.false_ne_true), rfl,
      State.rdb_flag_self s F.SO_DB_STATUS_BAD_WRITE fn (by decide) (by decide), rfl⟩
  case write =>
    obtain ⟨honly, hflag, hcount⟩ := State.flagCounted s F.SO_DB_STATUS_BAD_WRITE fn rfl (by decide)
    exact ⟨_, if_neg (by rw [hheld, hfn]; exact Bool.false_ne_true), honly, hflag, hcount⟩

end Sys2Proof
end

section
/-! SUPPORT. Memory cells (sections 8.1 and 17.4); watches and trackers (sections 11.2 and 11.3). -/

namespace Sys2Proof.Machine

/-! ### Updates that write registers only -/

/-- Only the listed register instances differ. -/
structure RegChange (s t : State) (l : List (Reg × Nat)) : Prop where
  only : onlyRegs s t
  but : regsBut s t l

namespace RegChange

variable {s t u : State} {l m : List (Reg × Nat)}

theorem refl (s : State) (l : List (Reg × Nat)) : RegChange s s l := ⟨onlyRegs_refl s, regsBut_refl s l⟩

theorem trans (h : RegChange s t l) (k : RegChange t u l) : RegChange s u l :=
  ⟨onlyRegs_trans h.only k.only, regsBut_trans h.but k.but⟩

theorem mono (h : RegChange s t l) (hs : ∀ x ∈ l, x ∈ m) : RegChange s t m := ⟨h.only, regsBut_mono h.but hs⟩

theorem wr (h : RegChange s t l) (f : Fld) (i v : Nat) (hi : i < 131072) (hm : (f.reg, i) ∈ l) : RegChange s (t.wr f i v) l :=
  ⟨onlyRegs_wr_of f i v h.only, regsBut_wr_of f i v h.but hi hm⟩

theorem ite {c : Prop} [Decidable c] (h : RegChange s t l) (k : RegChange s u l) : RegChange s (if c then t else u) l := by
  split
  · exact h
  · exact k

theorem reg (h : RegChange s t l) {r : Reg} {i : Nat} (hi : i < 131072) (hn : (r, i) ∉ l) : t.reg r i = s.reg r i :=
  h.but r i hi hn

theorem rd (h : RegChange s t l) {f : Fld} {i : Nat} (hi : i < 131072) (hn : (f.reg, i) ∉ l) : t.rd f i = s.rd f i :=
  congrArg f.get (h.but f.reg i hi hn)

/-- A field of a register none of whose numbers is listed. -/
theorem rd_of_reg (h : RegChange s t l) (f : Fld) {i : Nat} (hi : i < 131072)
    (hn : (l.all fun x => decide (x.1 ≠ f.reg)) = true) : t.rd f i = s.rd f i :=
  h.rd hi (fun hm => of_decide_eq_true (List.all_eq_true.1 hn _ hm) rfl)

end RegChange

theorem State.rd_ite {c : Prop} [Decidable c] (a b : State) (f : Fld) (i : Nat) :
    (if c then a else b).rd f i = if c then a.rd f i else b.rd f i := apply_ite (fun x : State => x.rd f i) c a b

/-! ### Memory cells -/

/-- What is stored is read back. -/
theorem State.bytes_memStore (s : State) (k : Nat) (bs : List Byte) :
    { s with mem := memStore s.mem k bs }.bytes k bs.length = bs := by
  refine List.ext_getElem (State.length_bytes _ _ _) (fun i h _ => ?_)
  rw [State.length_bytes] at h
  have hbyte := State.getD_bytes { s with mem := memStore s.mem k bs } k bs.length i h
  rw [List.getD_eq_getElem _ _ (by rw [State.length_bytes]; exact h)] at hbyte
  rw [hbyte, State.byte, get_memStore, if_pos (by omega), Nat.add_sub_cancel_left, List.getD_eq_getElem _ _ h]

theorem State.byte_zeroRun (s : State) (k n j : Nat) :
    (s.zeroRun k n).byte j =
      if k ≤ j ∧ j < k + n ∧ ¬ (isMeadow k ∧ (Tab.find? s.err.retired (j / 4096)).isSome) then 0 else s.byte j := by
  rw [State.byte, State.zeroRun, Tab.get_keep]
  by_cases h : k ≤ j ∧ j < k + n ∧ ¬ (isMeadow k ∧ (Tab.find? s.err.retired (j / 4096)).isSome)
  · obtain ⟨hlo, hhi, hlive⟩ := h
    rw [if_neg, if_pos ⟨hlo, hhi, hlive⟩]
    simp only [Bool.or_eq_true, Bool.not_eq_true', Bool.and_eq_false_iff, decide_eq_false_iff_not, Bool.and_eq_true]
    exact not_or.2 ⟨by omega, hlive⟩
  · rw [if_pos, if_neg h]
    · rfl
    · simp only [Bool.or_eq_true, Bool.not_eq_true', Bool.and_eq_false_iff, decide_eq_false_iff_not, Bool.and_eq_true]
      by_contra hn
      obtain ⟨hin, hlive⟩ := not_or.1 hn
      exact h ⟨by omega, by omega, hlive⟩

/-! ### Watches (R394) -/

/-- The state after a write of SO_WATCH_CFG has taken SO and VECTOR and cleared the flags whose bits it sets. -/
def State.watchBase (s : State) (i : Nat) (v : Word) : State :=
  let s := (s.wr F.SO_WATCH_CFG_SO i (F.SO_WATCH_CFG_SO.get v)).wr F.SO_WATCH_CFG_VECTOR i (F.SO_WATCH_CFG_VECTOR.get v)
  let s := if F.SO_WATCH_CFG_FIRED.get v = 1 then s.wr F.SO_WATCH_CFG_FIRED i 0 else s
  if F.SO_WATCH_CFG_REVOKED.get v = 1 then s.wr F.SO_WATCH_CFG_REVOKED i 0 else s

theorem State.watchBase_change (s : State) (v : Word) {i : Nat} (hi : i < 512) :
    RegChange s (s.watchBase i v) [(Reg.SO_WATCH_CFG, i)] := by
  have hmem : ∀ f ∈ [F.SO_WATCH_CFG_SO, F.SO_WATCH_CFG_VECTOR, F.SO_WATCH_CFG_FIRED, F.SO_WATCH_CFG_REVOKED],
      (f.reg, i) ∈ [(Reg.SO_WATCH_CFG, i)] := by
    simp [F.SO_WATCH_CFG_SO, F.SO_WATCH_CFG_VECTOR, F.SO_WATCH_CFG_FIRED, F.SO_WATCH_CFG_REVOKED]
  have hval := ((RegChange.refl s [(Reg.SO_WATCH_CFG, i)]).wr F.SO_WATCH_CFG_SO i (F.SO_WATCH_CFG_SO.get v) (by omega)
    (hmem _ (by simp))).wr F.SO_WATCH_CFG_VECTOR i (F.SO_WATCH_CFG_VECTOR.get v) (by omega) (hmem _ (by simp))
  have hfired := RegChange.ite (c := F.SO_WATCH_CFG_FIRED.get v = 1)
    (hval.wr F.SO_WATCH_CFG_FIRED i 0 (by omega) (hmem _ (by simp))) hval
  exact RegChange.ite (hfired.wr F.SO_WATCH_CFG_REVOKED i 0 (by omega) (hmem _ (by simp))) hfired

theorem State.rd_watchBase (s : State) (v : Word) (i : Nat) :
    (s.watchBase i v).rd F.SO_WATCH_CFG_SO i = F.SO_WATCH_CFG_SO.get v ∧
    (s.watchBase i v).rd F.SO_WATCH_CFG_VECTOR i = F.SO_WATCH_CFG_VECTOR.get v := by
  simp only [State.watchBase]
  simp (disch := first | decide | omega) only [State.rd_ite, State.rd_wr_disjoint, State.rd_wr_self, ite_self]
  exact ⟨Nat.mod_eq_of_lt (Fld.get_lt F.SO_WATCH_CFG_SO _), Nat.mod_eq_of_lt (Fld.get_lt F.SO_WATCH_CFG_VECTOR _)⟩

section Watch

variable {s : State} {cfg : Word} {i : Nat} (hi : i < 512)
include hi

theorem State.soInRange_watchBase (p n : Nat) (hp : p < 32) : (s.watchBase i cfg).soInRange p n = s.soInRange p n := by
  have hchange := s.watchBase_change cfg hi
  rw [State.soInRange, State.soInRange, hchange.rd_of_reg F.SO_RANGE_BASE (by omega) rfl,
    hchange.rd_of_reg F.SO_RANGE_COUNT (by omega) rfl]

end Watch

theorem State.watchCfg_arm (s : State) (cfg : Word) (i : Nat) :
    s.watchCfg i (F.SO_WATCH_CFG_ARM.put cfg 1) =
      if !(s.watchBase i cfg).soInRange (i / 16) (F.SO_WATCH_CFG_SO.get cfg) then
        ((s.watchBase i cfg).wr F.SO_WATCH_CFG_ARM i 0).flag F.SO_DB_STATUS_OUT_OF_RANGE (i / 16)
      else ((s.watchBase i cfg).wr F.SO_WATCH_CFG_ARM i 1).fireWatch i (F.SO_WATCH_CFG_SO.get cfg)
        ((s.watchBase i cfg).soVal (F.SO_WATCH_CFG_SO.get cfg)) := by
  have hkeep (f : Fld) (hlo : f.lo + f.width ≤ 64) (hd : 24 ≤ f.lo ∨ f.lo + f.width ≤ 23) :
      f.get (F.SO_WATCH_CFG_ARM.put cfg 1) = f.get cfg := Fld.get_put_disjoint F.SO_WATCH_CFG_ARM f cfg 1 hlo hd
  have harm : F.SO_WATCH_CFG_ARM.get (F.SO_WATCH_CFG_ARM.put cfg 1) = 1 := Fld.get_put F.SO_WATCH_CFG_ARM cfg 1 (by decide)
  unfold State.watchCfg
  rw [hkeep F.SO_WATCH_CFG_SO (by decide) (by decide), hkeep F.SO_WATCH_CFG_VECTOR (by decide) (by decide),
    hkeep F.SO_WATCH_CFG_FIRED (by decide) (by decide), hkeep F.SO_WATCH_CFG_REVOKED (by decide) (by decide), harm]
  rfl

section WatchCases

variable {s : State} {cfg : Word} {i : Nat} (hi : i < 512)
include hi

theorem State.watchCfg_in (hin : s.soInRange (i / 16) (F.SO_WATCH_CFG_SO.get cfg)) :
    s.watchCfg i (F.SO_WATCH_CFG_ARM.put cfg 1) =
      ((s.watchBase i cfg).wr F.SO_WATCH_CFG_ARM i 1).fireWatch i (F.SO_WATCH_CFG_SO.get cfg)
        (s.soVal (F.SO_WATCH_CFG_SO.get cfg)) := by
  rw [s.watchCfg_arm, State.soInRange_watchBase hi _ _ (by omega), hin, (s.watchBase_change cfg hi).only]
  rfl

theorem State.watchCfg_out (hout : s.soInRange (i / 16) (F.SO_WATCH_CFG_SO.get cfg) = false) :
    s.watchCfg i (F.SO_WATCH_CFG_ARM.put cfg 1) =
      ((s.watchBase i cfg).wr F.SO_WATCH_CFG_ARM i 0).flag F.SO_DB_STATUS_OUT_OF_RANGE (i / 16) := by
  rw [s.watchCfg_arm, State.soInRange_watchBase hi _ _ (by omega), hout]
  rfl

/-- A watch that is armed below its threshold stays armed. -/
theorem State.fireWatch_below {n : Nat} (hlow : (s.soVal n).toNat < s.rd F.SO_WATCH_VAL_THRESHOLD i) :
    let t := ((s.watchBase i cfg).wr F.SO_WATCH_CFG_ARM i 1).fireWatch i n (s.soVal n)
    onlyRegs s t ∧ t.rdb F.SO_WATCH_CFG_ARM i = true ∧ t.rd F.SO_WATCH_CFG_SO i = F.SO_WATCH_CFG_SO.get cfg ∧
      regsBut s t [(Reg.SO_WATCH_CFG, i)] := by
  have harmed := (s.watchBase_change cfg hi).wr F.SO_WATCH_CFG_ARM i 1 (by omega) (by simp [F.SO_WATCH_CFG_ARM])
  have hstay : ((s.watchBase i cfg).wr F.SO_WATCH_CFG_ARM i 1).fireWatch i n (s.soVal n) =
      (s.watchBase i cfg).wr F.SO_WATCH_CFG_ARM i 1 := by
    rw [State.fireWatch, harmed.rd_of_reg F.SO_WATCH_VAL_THRESHOLD (by omega) rfl]
    exact if_neg (by simp; omega)
  intro t
  rw [show t = _ from hstay]
  refine ⟨harmed.only, ?_, ?_, harmed.but⟩
  · rw [State.rdb, State.rd_wr_self _ F.SO_WATCH_CFG_ARM _ _ (by decide)]; rfl
  · rw [State.rd_wr_disjoint _ F.SO_WATCH_CFG_ARM F.SO_WATCH_CFG_SO _ _ rfl (by decide) (by decide)]
    exact (s.rd_watchBase cfg i).1

/-- A watch whose condition holds when it is armed fires. -/
theorem State.fireWatch_met
    (hmet : s.rd F.SO_WATCH_VAL_THRESHOLD i ≤ (s.soVal (F.SO_WATCH_CFG_SO.get cfg)).toNat) :
    ∃ u : State, ((s.watchBase i cfg).wr F.SO_WATCH_CFG_ARM i 1).fireWatch i (F.SO_WATCH_CFG_SO.get cfg)
        (s.soVal (F.SO_WATCH_CFG_SO.get cfg)) = u.msix (s.fnOf (i / 16)) (F.SO_WATCH_CFG_VECTOR.get cfg) ∧
      onlyRegs s u ∧ u.rdb F.SO_WATCH_CFG_ARM i = false ∧ u.rdb F.SO_WATCH_CFG_FIRED i = true ∧
      regsBut s u [(Reg.SO_WATCH_CFG, i)] := by
  obtain ⟨hso, hvector⟩ := s.rd_watchBase cfg i
  have harmed := (s.watchBase_change cfg hi).wr F.SO_WATCH_CFG_ARM i 1 (by omega) (by simp [F.SO_WATCH_CFG_ARM])
  have hfired := (harmed.wr F.SO_WATCH_CFG_ARM i 0 (by omega) (by simp [F.SO_WATCH_CFG_ARM])).wr F.SO_WATCH_CFG_FIRED i 1
    (by omega) (by simp [F.SO_WATCH_CFG_FIRED])
  have hfn : ((s.watchBase i cfg).wr F.SO_WATCH_CFG_ARM i 1).fnOf (i / 16) = s.fnOf (i / 16) := by
    rw [State.fnOf, State.fnOf, show _ = _ from harmed.only]
  refine ⟨_, ?_, hfired.only, ?_, State.rdb_flag_self _ F.SO_WATCH_CFG_FIRED i (by decide) (by decide), hfired.but⟩
  · rw [State.fireWatch, harmed.rd_of_reg F.SO_WATCH_VAL_THRESHOLD (by omega) rfl,
      State.rd_wr_disjoint _ F.SO_WATCH_CFG_ARM F.SO_WATCH_CFG_SO _ _ rfl (by decide) (by decide), hso,
      State.rd_wr_disjoint _ F.SO_WATCH_CFG_ARM F.SO_WATCH_CFG_VECTOR _ _ rfl (by decide) (by decide), hvector, hfn, State.rdb,
      State.rd_wr_self _ F.SO_WATCH_CFG_ARM _ _ (by decide)]
    refine if_pos ?_
    simp only [beq_self_eq_true, Bool.and_true, decide_eq_true hmet]
    rfl
  · rw [State.rdb, State.rd_wr_disjoint _ F.SO_WATCH_CFG_FIRED F.SO_WATCH_CFG_ARM _ _ rfl (by decide) (by decide),
      State.rd_wr_self _ F.SO_WATCH_CFG_ARM _ _ (by decide)]
    rfl

/-- A watch outside the partition's range is not armed. -/
theorem State.watchRefused :
    let t := ((s.watchBase i cfg).wr F.SO_WATCH_CFG_ARM i 0).flag F.SO_DB_STATUS_OUT_OF_RANGE (i / 16)
    onlyRegs s t ∧ t.rdb F.SO_WATCH_CFG_ARM i = false ∧ t.rdb F.SO_DB_STATUS_OUT_OF_RANGE (i / 16) = true := by
  have hoff := (s.watchBase_change cfg hi).wr F.SO_WATCH_CFG_ARM i 0 (by omega) (by simp [F.SO_WATCH_CFG_ARM])
  dsimp only
  refine ⟨onlyRegs_wr_of _ _ _ hoff.only, ?_, State.rdb_flag_self _ F.SO_DB_STATUS_OUT_OF_RANGE _ (by decide) (by decide)⟩
  rw [State.rdb, State.flag, State.rd_wr_reg _ _ F.SO_WATCH_CFG_ARM _ (by decide) (by omega) (by omega),
    State.rd_wr_self _ F.SO_WATCH_CFG_ARM _ _ (by decide)]
  rfl

end WatchCases

/-! ### Trackers (R396) -/

section Trackers

variable {s : State} {cfg : Word} {t : Nat} (ht : t < 128)

/-- The state after a write of SO_PROG_CFG has taken its fields other than EN. -/
def State.progBase (s : State) (t : Nat) (v : Word) : State :=
  let s := if F.SO_PROG_CFG_CFG_ERR.get v = 1 then s.wr F.SO_PROG_CFG_CFG_ERR t 0 else s
  (s.wr F.SO_PROG_CFG_SO t (F.SO_PROG_CFG_SO.get v)).wr F.SO_PROG_CFG_SHIFT t (F.SO_PROG_CFG_SHIFT.get v)

include ht in
theorem State.progBase_change : RegChange s (s.progBase t cfg) [(Reg.SO_PROG_CFG, t)] := by
  have herr := RegChange.ite (c := F.SO_PROG_CFG_CFG_ERR.get cfg = 1)
    ((RegChange.refl s [(Reg.SO_PROG_CFG, t)]).wr F.SO_PROG_CFG_CFG_ERR t 0 (by omega) (by simp [F.SO_PROG_CFG_CFG_ERR]))
    (RegChange.refl s _)
  exact (herr.wr F.SO_PROG_CFG_SO t _ (by omega) (by simp [F.SO_PROG_CFG_SO])).wr F.SO_PROG_CFG_SHIFT t _ (by omega)
    (by simp [F.SO_PROG_CFG_SHIFT])

theorem State.en_progBase : (s.progBase t cfg).rd F.SO_PROG_CFG_EN t = s.rd F.SO_PROG_CFG_EN t := by
  simp only [State.progBase]
  simp (disch := first | decide | omega) only [State.rd_ite, State.rd_wr_disjoint, ite_self]

theorem State.en_cfgErr (c : Prop) [Decidable c] :
    (if c then s.wr F.SO_PROG_CFG_CFG_ERR t 0 else s).rdb F.SO_PROG_CFG_EN t = s.rdb F.SO_PROG_CFG_EN t := by
  rw [State.rdb, State.rd_ite, State.rd_wr_disjoint _ F.SO_PROG_CFG_CFG_ERR F.SO_PROG_CFG_EN _ _ rfl (by decide) (by decide),
    ite_self]
  rfl

include ht

/-- The state of a tracker that starts. -/
def State.progStarted (s : State) (t n : Nat) : State :=
  let u := (s.wr F.SO_PROG_LAST_V_VALUE t (s.soVal n).toNat).wr F.SO_PROG_LAST_T_NS t s.time
  (u.wr F.SO_PROG_RATE_NS t (u.rd F.SO_PROG_INIT_NS t)).wr F.SO_PROG_CFG_EN t 1

/-- A tracker that is off starts, or is refused where its object is not in the partition's range. -/
theorem State.progCfg_enable (hoff : s.rdb F.SO_PROG_CFG_EN t = false) :
    s.progCfg t (F.SO_PROG_CFG_EN.put cfg 1) =
      if !s.soInRange (t / 4) (F.SO_PROG_CFG_SO.get cfg) then (s.progBase t cfg).flag F.SO_PROG_CFG_CFG_ERR t
      else (s.progBase t cfg).progStarted t (F.SO_PROG_CFG_SO.get cfg) := by
  have hkeep (f : Fld) (hlo : f.lo + f.width ≤ 64) (hd : 13 ≤ f.lo ∨ f.lo + f.width ≤ 12) :
      f.get (F.SO_PROG_CFG_EN.put cfg 1) = f.get cfg := Fld.get_put_disjoint F.SO_PROG_CFG_EN f cfg 1 hlo hd
  have hen : F.SO_PROG_CFG_EN.get (F.SO_PROG_CFG_EN.put cfg 1) = 1 := Fld.get_put F.SO_PROG_CFG_EN cfg 1 (by decide)
  have hchange := State.progBase_change (s := s) (cfg := cfg) ht
  have hrange (n : Nat) : s.soInRange (t / 4) n = (s.progBase t cfg).soInRange (t / 4) n := by
    rw [State.soInRange, State.soInRange, hchange.rd_of_reg F.SO_RANGE_BASE (by omega) rfl,
      hchange.rd_of_reg F.SO_RANGE_COUNT (by omega) rfl]
  unfold State.progCfg
  rw [hkeep F.SO_PROG_CFG_SO (by decide) (by decide), hkeep F.SO_PROG_CFG_SHIFT (by decide) (by decide),
    hkeep F.SO_PROG_CFG_CFG_ERR (by decide) (by decide), hen, hrange]
  dsimp only
  rw [State.en_cfgErr, if_neg (by rw [hoff]; exact Bool.false_ne_true), if_neg (by decide)]
  rfl

theorem State.rd_progStarted (n : Nat) :
    onlyRegs s (s.progStarted t n) ∧ (s.progStarted t n).rdb F.SO_PROG_CFG_EN t = true ∧
      (s.progStarted t n).rd F.SO_PROG_LAST_V_VALUE t = (s.soVal n).toNat ∧
      (s.progStarted t n).rd F.SO_PROG_LAST_T_NS t = s.time % 2 ^ 64 ∧
      (s.progStarted t n).rd F.SO_PROG_RATE_NS t = s.rd F.SO_PROG_INIT_NS t % 2 ^ 32 := by
  have hv := (s.soVal n).isLt
  have hlast := onlyRegs_wr_of F.SO_PROG_LAST_T_NS t s.time
    (onlyRegs_wr_of F.SO_PROG_LAST_V_VALUE t (s.soVal n).toNat (onlyRegs_refl s))
  refine ⟨onlyRegs_wr_of _ _ _ (onlyRegs_wr_of _ _ _ hlast), ?_⟩
  simp only [State.progStarted, State.rdb]
  simp (disch := first | decide | omega) only [State.rd_wr_reg, State.rd_wr_self]
  exact ⟨rfl, Nat.mod_eq_of_lt hv, rfl, rfl⟩

/-- A tracker that is on and is switched off; no walk is in progress. -/
theorem State.progCfg_disable (hon : s.rdb F.SO_PROG_CFG_EN t = true) (hw : s.walks = []) :
    RegChange s (s.progCfg t (F.SO_PROG_CFG_EN.put cfg 0)) [(Reg.SO_PROG_CFG, t)] ∧
      (s.progCfg t (F.SO_PROG_CFG_EN.put cfg 0)).rdb F.SO_PROG_CFG_EN t = false := by
  have hen : F.SO_PROG_CFG_EN.get (F.SO_PROG_CFG_EN.put cfg 0) = 0 := Fld.get_put F.SO_PROG_CFG_EN cfg 0 (by decide)
  have herr := RegChange.ite (c := F.SO_PROG_CFG_CFG_ERR.get (F.SO_PROG_CFG_EN.put cfg 0) = 1)
    ((RegChange.refl s [(Reg.SO_PROG_CFG, t)]).wr F.SO_PROG_CFG_CFG_ERR t 0 (by omega) (by simp [F.SO_PROG_CFG_CFG_ERR]))
    (RegChange.refl s _)
  have hoff := herr.wr F.SO_PROG_CFG_EN t 0 (by omega) (by simp [F.SO_PROG_CFG_EN])
  have hwalks : ∀ u : State, u.walks = [] → u.trackerOff t = u.wr F.SO_PROG_CFG_EN t 0 := by
    intro u hu
    rw [State.trackerOff]
    refine foldl_of_fixed (fun i _ => ?_)
    rw [State.wr_walks, hu]
    rfl
  have hstop : s.progCfg t (F.SO_PROG_CFG_EN.put cfg 0) =
      (if F.SO_PROG_CFG_CFG_ERR.get (F.SO_PROG_CFG_EN.put cfg 0) = 1 then s.wr F.SO_PROG_CFG_CFG_ERR t 0 else s).wr
        F.SO_PROG_CFG_EN t 0 := by
    unfold State.progCfg
    dsimp only
    rw [State.en_cfgErr, if_pos hon, hen, if_neg (by decide), hwalks]
    rw [show _ = _ from herr.only]
    exact hw
  rw [hstop]
  exact ⟨hoff, by rw [State.rdb, State.rd_wr_self _ F.SO_PROG_CFG_EN _ _ (by decide)]; rfl⟩

end Trackers

end Sys2Proof.Machine

namespace Sys2Proof

open Sys2Proof.Machine

/-- Settles O40: a byte after a zeroing or a store, and the canonical form, are laws of memory's table. -/
theorem memoryCells : Obligations.MemoryCells := by
  unfold Obligations.MemoryCells
  refine ⟨fun s k n j h => ⟨memKeep_wf _ h, s.byte_zeroRun k n j⟩, fun s k bs h => ⟨s.bytes_memStore k bs, fun j hj => ?_,
    memStore_wf k bs h⟩⟩
  rw [State.byte, get_memStore, if_neg (by omega), State.byte]

/-- Settles O35: a write of a watch or a tracker changes its own registers; its value decides between arming and firing. -/
theorem watchesAndTrackers : Obligations.WatchesAndTrackers := by
  unfold Obligations.WatchesAndTrackers
  refine ⟨fun watch cfg s ho => ?watch, fun tracker cfg s ho => ?tracker⟩
  case watch =>
    have hi := watch.isLt
    have hexec : exec (.watchArm watch cfg) s = .next (s.watchCfg watch.toNat (F.SO_WATCH_CFG_ARM.put cfg 1)) :=
      congrArg Host.Outcome.next (if_pos ho)
    refine ⟨fun hin hlow => ⟨_, hexec, ?_⟩, fun hin hmet => ?_, fun hout => ⟨_, hexec, ?_⟩⟩
    · rw [State.watchCfg_in hi hin]
      exact State.fireWatch_below hi hlow
    · obtain ⟨u, hu⟩ := State.fireWatch_met (cfg := cfg) hi hmet
      exact ⟨u, by rw [hexec, State.watchCfg_in hi hin, hu.1], hu.2⟩
    · rw [State.watchCfg_out hi hout]
      exact State.watchRefused hi
  case tracker =>
    have ht := tracker.isLt
    have henable : exec (.trackerEnable tracker cfg) s = .next (s.progCfg tracker.toNat (F.SO_PROG_CFG_EN.put cfg 1)) :=
      congrArg Host.Outcome.next (if_pos ho)
    have hdisable : exec (.trackerDisable tracker cfg) s = .next (s.progCfg tracker.toNat (F.SO_PROG_CFG_EN.put cfg 0)) :=
      congrArg Host.Outcome.next (if_pos ho)
    have hbase := State.progBase_change (s := s) (cfg := cfg) ht
    refine ⟨fun hoff hin => ⟨_, henable, ?_⟩, fun hoff hout => ⟨_, henable, ?_⟩, fun hon hw => ⟨_, hdisable, ?_⟩⟩
    · rw [State.progCfg_enable ht hoff, hin, if_neg (by decide)]
      obtain ⟨honly, hen, hv, htime, hrate⟩ :=
        State.rd_progStarted (s := s.progBase tracker.toNat cfg) ht (F.SO_PROG_CFG_SO.get cfg)
      rw [hbase.rd_of_reg F.SO_PROG_INIT_NS (by omega) rfl] at hrate
      have hsame : (s.progBase tracker.toNat cfg).soVal (F.SO_PROG_CFG_SO.get cfg) = s.soVal (F.SO_PROG_CFG_SO.get cfg) ∧
          (s.progBase tracker.toNat cfg).time = s.time := by
        rw [show _ = _ from hbase.only]; exact ⟨rfl, rfl⟩
      exact ⟨onlyRegs_trans hbase.only honly, hen, by rw [hv, hsame.1], by rw [htime, hsame.2], hrate⟩
    · rw [State.progCfg_enable ht hoff, hout, if_pos (by decide)]
      refine ⟨onlyRegs_wr_of _ _ _ hbase.only, ?_, State.rdb_flag_self _ F.SO_PROG_CFG_CFG_ERR _ (by decide) (by decide)⟩
      rw [State.rdb, State.flag, State.rd_wr_disjoint _ F.SO_PROG_CFG_CFG_ERR F.SO_PROG_CFG_EN _ _ rfl (by decide) (by decide),
        State.en_progBase]
      exact hoff
    · obtain ⟨hchange, hen⟩ := State.progCfg_disable (cfg := cfg) ht hon hw
      exact ⟨hchange.only, hen, hchange.but⟩

end Sys2Proof
end

section
/-! SUPPORT. Lease commands (sections 14.3 and 14.8, R516, R537, R688): the words, the checks, what each command does. -/

namespace Sys2Proof.Machine

/-! ### Whole registers -/

theorem State.rd_setReg_of_reg (s : State) {r : Reg} (f : Fld) {i j : Nat} (w : Word) (hf : f.reg ≠ r) (hi : i < 131072)
    (hj : j < 131072) : (s.setReg r i w).rd f j = s.rd f j :=
  congrArg f.get (s.reg_setReg_of_key_ne w (Reg.key_ne_of_reg hf hi hj))

theorem State.reg_setReg_of_reg (s : State) {r q : Reg} {i j : Nat} (w : Word) (hq : q ≠ r) (hi : i < 131072)
    (hj : j < 131072) : (s.setReg r i w).reg q j = s.reg q j := s.reg_setReg_of_key_ne w (Reg.key_ne_of_reg hq hi hj)

/-- A write of a field below bit `k` leaves the bits from `k` on. -/
theorem Fld.toNat_put_div (f : Fld) (w : Word) (v : Nat) {k : Nat} (hk : f.lo + f.width ≤ k) :
    (f.put w v).toNat / 2 ^ k = w.toNat / 2 ^ k := by
  refine Nat.eq_of_testBit_eq (fun i => ?_)
  rw [Nat.testBit_div_two_pow, Nat.testBit_div_two_pow, BitVec.testBit_toNat, BitVec.testBit_toNat]
  by_cases hi : i + k < 64
  · rw [Fld.getLsbD_put f w v _ hi, if_neg (by omega)]
  · rw [BitVec.getLsbD_of_ge _ _ (by omega), BitVec.getLsbD_of_ge _ _ (by omega)]

/-! ### Lease commands -/

/-- The words of a lease command, and GO (Table 14-12). -/
def State.leaseWords (s : State) (op : Nat) (cmd0 cmd1 : Word) : State :=
  ((s.setReg Reg.PART_LEASE_CMD0 0 (F.PART_LEASE_CMD0_OP.put cmd0 op)).setReg Reg.PART_LEASE_CMD1 0 cmd1).wr
    F.PART_LEASE_CTRL_GO 0 1

/-- What a lease command does once its checks have answered `r`. -/
def State.leaseRun (s : State) (op kind i p cores r : Nat) : State :=
  if r ≠ 0 then s.leaseEnd r
  else match op with
    | 1 => (s.giveLease kind i p).leaseEnd 0
    | 2 => (s.revoke kind i).flow
    | 3 => (((s.wr F.PART_LEASE_RESULT_STATE 0 (s.lease kind i).state).wr F.PART_LEASE_RESULT_HOLDER 0
        (s.lease kind i).holder).wr F.PART_LEASE_RESULT_EPOCH 0 (s.lease kind i).epoch).leaseEnd 0
    | 4 => (s.moveCores cores (some p)).leaseEnd 0
    | _ => (s.moveCores cores none).leaseEnd 0

section Commands

variable {s : State} {cmd0 cmd1 : Word} {op : Nat} (hheld : s.pins.held = false)
include hheld

theorem State.leaseCommand_busy (hgo : s.rdb F.PART_LEASE_CTRL_GO 0 = true) :
    s.leaseCommand op cmd0 cmd1 = s.flag F.PART_LEASE_STATUS_BUSY_REFUSED 0 := by
  rw [State.leaseCommand, if_neg (by rw [hheld]; exact Bool.false_ne_true), if_pos hgo, State.leaseGo, if_pos hgo]

theorem State.leaseCommand_run (hop : op < 2 ^ 8) (hgo : s.rdb F.PART_LEASE_CTRL_GO 0 = false) :
    s.leaseCommand op cmd0 cmd1 = (s.leaseWords op cmd0 cmd1).leaseRun op (F.PART_LEASE_CMD0_KIND.get cmd0)
      (F.PART_LEASE_CMD0_INDEX.get cmd0) (F.PART_LEASE_CMD0_PARTITION.get cmd0) cmd1.toNat
      ((s.leaseWords op cmd0 cmd1).leaseCheck op (F.PART_LEASE_CMD0_KIND.get cmd0) (F.PART_LEASE_CMD0_INDEX.get cmd0)
        (F.PART_LEASE_CMD0_PARTITION.get cmd0) (cmd0.toNat / 2 ^ 29) cmd1.toNat) := by
  have hkeep (f : Fld) (hr : f.reg = Reg.PART_LEASE_CMD0) (hf : f.lo + f.width ≤ 64 ∧ 8 ≤ f.lo) :
      ((s.setReg Reg.PART_LEASE_CMD0 0 (F.PART_LEASE_CMD0_OP.put cmd0 op)).setReg Reg.PART_LEASE_CMD1 0 cmd1).rd f 0 =
        f.get cmd0 := by
    rw [State.rd_setReg_of_reg _ f _ (by rw [hr]; decide) (by omega) (by omega), ← hr, State.rd_setReg_self,
      Fld.get_put_disjoint F.PART_LEASE_CMD0_OP f cmd0 op hf.1 (Or.inl hf.2)]
  have hopw : ((s.setReg Reg.PART_LEASE_CMD0 0 (F.PART_LEASE_CMD0_OP.put cmd0 op)).setReg Reg.PART_LEASE_CMD1 0 cmd1).rd
      F.PART_LEASE_CMD0_OP 0 = op := by
    rw [State.rd_setReg_of_reg _ F.PART_LEASE_CMD0_OP _ (by decide) (by omega) (by omega)]
    exact (State.rd_setReg_self _ F.PART_LEASE_CMD0_OP _ _).trans
      ((Fld.get_put F.PART_LEASE_CMD0_OP cmd0 op (by decide)).trans (Nat.mod_eq_of_lt hop))
  have hcores : ((s.setReg Reg.PART_LEASE_CMD0 0 (F.PART_LEASE_CMD0_OP.put cmd0 op)).setReg Reg.PART_LEASE_CMD1 0 cmd1).rd
      F.PART_LEASE_CMD1_CORES 0 = cmd1.toNat :=
    (State.rd_setReg_self _ F.PART_LEASE_CMD1_CORES _ _).trans
      ((congrArg (· % 2 ^ 64) (Nat.div_one cmd1.toNat)).trans (Nat.mod_eq_of_lt cmd1.isLt))
  have hgo1 : ((s.setReg Reg.PART_LEASE_CMD0 0 (F.PART_LEASE_CMD0_OP.put cmd0 op)).setReg Reg.PART_LEASE_CMD1 0 cmd1).rdb
      F.PART_LEASE_CTRL_GO 0 = false := by
    rw [← hgo, State.rdb, State.rdb, State.rd_setReg_of_reg _ F.PART_LEASE_CTRL_GO _ (by decide) (by omega) (by omega),
      State.rd_setReg_of_reg _ F.PART_LEASE_CTRL_GO _ (by decide) (by omega) (by omega)]
  have hword : ((s.leaseWords op cmd0 cmd1).reg Reg.PART_LEASE_CMD0 0).toNat / 2 ^ 29 = cmd0.toNat / 2 ^ 29 := by
    rw [State.leaseWords, State.wr, State.reg_setReg_of_reg _ _ (by decide) (by omega) (by omega),
      State.reg_setReg_of_reg _ _ (by decide) (by omega) (by omega), State.reg_setReg_self,
      Fld.toNat_put_div F.PART_LEASE_CMD0_OP cmd0 op (by decide)]
  rw [State.leaseCommand, if_neg (by rw [hheld]; exact Bool.false_ne_true), if_neg (by rw [hgo]; exact Bool.false_ne_true),
    State.leaseGo, if_neg (by rw [hgo1]; exact Bool.false_ne_true), hopw, hkeep F.PART_LEASE_CMD0_KIND rfl (by decide),
    hkeep F.PART_LEASE_CMD0_INDEX rfl (by decide), hkeep F.PART_LEASE_CMD0_PARTITION rfl (by decide), hcores]
  rw [← State.leaseWords]
  dsimp only
  rw [hword]
  rfl

end Commands

/-- Only the commands of cores look at the cores' mask. -/
theorem State.leaseCheck_cores (s : State) {op : Nat} (kind i p rsv cores cores' : Nat) (hop : op < 4) :
    s.leaseCheck op kind i p rsv cores = s.leaseCheck op kind i p rsv cores' := by
  have h4 : op ≠ 4 := by omega
  have h5 : op ≠ 5 := by omega
  simp only [State.leaseCheck, h4, h5, false_and, or_false]

/-- A command ends: its result, DONE, and GO clear. -/
theorem State.leaseEnd_ends (s : State) {r : Nat} (hr : r < 2 ^ 8) :
    (s.leaseEnd r).rd F.PART_LEASE_STATUS_RESULT 0 = r ∧ (s.leaseEnd r).rdb F.PART_LEASE_STATUS_DONE 0 = true ∧
      (s.leaseEnd r).rdb F.PART_LEASE_CTRL_GO 0 = false := by
  simp only [State.leaseEnd, State.flag, State.rdb]
  simp (disch := first | decide | omega) only [State.rd_wr_reg, State.rd_wr_disjoint, State.rd_wr_self]
  exact ⟨Nat.mod_eq_of_lt hr, rfl, rfl⟩

theorem State.leaseEnd_only (s : State) (r : Nat) : onlyRegs s (s.leaseEnd r) :=
  onlyRegs_wr_of _ _ _ (onlyRegs_wr_of _ _ _ (onlyRegs_wr_of F.PART_LEASE_STATUS_RESULT 0 r (onlyRegs_refl s)))

theorem State.leaseWords_only (s : State) (op : Nat) (cmd0 cmd1 : Word) : onlyRegs s (s.leaseWords op cmd0 cmd1) := rfl

/-- The lease that QUERY shows (R688). -/
def State.leaseShown (s : State) (l : Lease) : State :=
  ((s.wr F.PART_LEASE_RESULT_STATE 0 l.state).wr F.PART_LEASE_RESULT_HOLDER 0 l.holder).wr F.PART_LEASE_RESULT_EPOCH 0 l.epoch

theorem State.leaseShown_leaves (s : State) (l : Lease) :
    onlyRegs s (s.leaseShown l) ∧
      ((s.leaseShown l).leaseEnd 0).rd F.PART_LEASE_RESULT_STATE 0 = l.state % 2 ^ F.PART_LEASE_RESULT_STATE.width ∧
      ((s.leaseShown l).leaseEnd 0).rd F.PART_LEASE_RESULT_EPOCH 0 = l.epoch % 2 ^ F.PART_LEASE_RESULT_EPOCH.width := by
  refine ⟨onlyRegs_wr_of _ _ _ (onlyRegs_wr_of _ _ _ (onlyRegs_wr_of _ _ _ (onlyRegs_refl s))), ?_⟩
  simp only [State.leaseEnd, State.flag, State.leaseShown]
  simp (disch := first | decide | omega) only [State.rd_wr_reg, State.rd_wr_disjoint, State.rd_wr_self]
  exact ⟨trivial, trivial⟩

/-- A check passes for a GRANT of a channel or a ring only. -/
theorem State.kind_of_grantCheck {s : State} {kind i p rsv cores : Nat} (h : s.leaseCheck 1 kind i p rsv cores = 0) :
    kind = leaseChannel ∨ kind = leaseRing := by
  by_contra hk
  have hbad : leaseCount kind = 0 ∨ 2 < kind := by
    rcases kind with _ | _ | _ | kind
    · exact .inl rfl
    · exact absurd (.inl rfl) hk
    · exact absurd (.inr rfl) hk
    · exact .inr (by omega)
  rw [State.leaseCheck, if_pos] at h
  · cases h
  · rcases hbad with h0 | h2
    · exact .inr (.inr (.inl ⟨rfl, h0⟩))
    · exact .inr (.inr (.inr ⟨rfl, h2⟩))

/-- A lease given: HELD by the partition, its epoch advanced by one; its registers take their reset values. -/
theorem State.giveLease_channelOrRing (s : State) {kind : Nat} (i p : Nat) (hk : kind = leaseChannel ∨ kind = leaseRing) :
    s.giveLease kind i p = { s with
      regs := (s.giveLease kind i p).regs,
      leases := Tab.set Lease.free s.leases (kind * 4096 + i)
        { state := 1, holder := p, epoch := ((s.lease kind i).epoch + 1) % 2 ^ 32 } } := by
  have hregs (u : State) (k : Nat) : onlyRegs u (u.leaseRegs k i) := by
    rw [State.leaseRegs]
    generalize (regTable.filter _) = l
    induction l generalizing u with
    | nil => exact onlyRegs_refl u
    | cons r l ih => exact onlyRegs_trans (t := u.partReg r.reg i) rfl (ih _)
  rcases hk with rfl | rfl
  · exact hregs (s.grantLease leaseChannel i p) leaseChannel
  · exact hregs (s.grantLease leaseRing i p) leaseRing

end Sys2Proof.Machine

namespace Sys2Proof

open Sys2Proof.Machine

/-- Settles O42: the command's words and checks decide, and each command ends with its result or runs on. -/
theorem leaseCommands : Obligations.LeaseCommands := by
  unfold Obligations.LeaseCommands
  intro cmd0 cmd1 s hheld put go kind i p check
  have hrun (op : Nat) (hop : op < 4) (hgo : s.rdb F.PART_LEASE_CTRL_GO 0 = false) :
      s.leaseCommand op cmd0 (s.reg Reg.PART_LEASE_CMD1 0) =
        (go op).leaseRun op kind i p (s.reg Reg.PART_LEASE_CMD1 0).toNat (check op) := by
    have hwords : s.leaseWords op cmd0 (s.reg Reg.PART_LEASE_CMD1 0) = go op := by
      simp only [go, put, if_pos hop]; rfl
    rw [State.leaseCommand_run hheld (by omega) hgo, hwords, State.leaseCheck_cores _ _ _ _ _ _ cmd1.toNat hop]
  have hcores (op : Nat) (hop : 4 ≤ op ∧ op < 6) (hgo : s.rdb F.PART_LEASE_CTRL_GO 0 = false) :
      s.leaseCommand op cmd0 cmd1 = (go op).leaseRun op kind i p cmd1.toNat (check op) := by
    have hwords : s.leaseWords op cmd0 cmd1 = go op := by
      simp only [go, put, if_neg (show ¬ op < 4 by omega)]; rfl
    rw [State.leaseCommand_run hheld (by omega) hgo, hwords]
  have honly (op : Nat) : onlyRegs s (go op) := rfl
  refine ⟨fun hgo => ⟨_, congrArg Host.Outcome.next (State.leaseCommand_busy hheld hgo), onlyRegs_wr_of _ _ _ (onlyRegs_refl s),
      State.rdb_flag_self s F.PART_LEASE_STATUS_BUSY_REFUSED 0 (by decide) (by decide),
      regsBut_wr s F.PART_LEASE_STATUS_BUSY_REFUSED 0 1 (by omega)⟩,
    fun hgo hc => ?grant, fun hgo hc => ?revoke, fun hgo hc => ?query, fun hgo hc => ?assign, fun hgo hc => ?unassign,
    fun hgo hne hlt => ?failed⟩
  case revoke => exact congrArg Host.Outcome.next ((hrun 2 (by decide) hgo).trans (by rw [hc]; rfl))
  case assign => exact congrArg Host.Outcome.next ((hcores 4 (by decide) hgo).trans (by rw [hc]; rfl))
  case unassign => exact congrArg Host.Outcome.next ((hcores 5 (by decide) hgo).trans (by rw [hc]; rfl))
  case failed =>
    obtain ⟨hresult, hdone, -⟩ := (go 3).leaseEnd_ends (r := check 3) (by omega)
    exact ⟨_, congrArg Host.Outcome.next ((hrun 3 (by decide) hgo).trans (if_pos hne)),
      onlyRegs_trans (honly 3) ((go 3).leaseEnd_only _), hresult, hdone⟩
  case query =>
    obtain ⟨hresult, hdone, -⟩ := State.leaseEnd_ends ((go 3).leaseShown (s.lease kind i)) (r := 0) (by decide)
    obtain ⟨hshown, hstate, hepoch⟩ := State.leaseShown_leaves (go 3) (s.lease kind i)
    exact ⟨_, congrArg Host.Outcome.next ((hrun 3 (by decide) hgo).trans (by rw [hc]; rfl)),
      onlyRegs_trans (onlyRegs_trans (honly 3) hshown) (State.leaseEnd_only _ 0), hstate, hepoch, hresult, hdone⟩
  case grant =>
    have hkind := State.kind_of_grantCheck hc
    have hgive := (go 1).giveLease_channelOrRing i p hkind
    have hend := ((go 1).giveLease kind i p).leaseEnd_only 0
    obtain ⟨hresult, hdone, hclear⟩ := ((go 1).giveLease kind i p).leaseEnd_ends (r := 0) (by decide)
    have hleases : (((go 1).giveLease kind i p).leaseEnd 0).leases = Tab.set Lease.free s.leases (kind * 4096 + i)
        { state := 1, holder := p, epoch := ((s.lease kind i).epoch + 1) % 2 ^ 32 } := by
      rw [show _ = _ from hend, hgive]; rfl
    refine ⟨_, congrArg Host.Outcome.next ((hrun 1 (by decide) hgo).trans (by rw [hc]; rfl)), ?_, fun j _ hj => ?_, hresult,
      hdone, hclear, ?_⟩
    · rw [State.lease, hleases, Tab.get_set_self]
    · rw [hleases, Tab.get_set_ne _ _ _ hj]
    · rw [hleases]
      exact (show _ = _ from hend).trans (by rw [hgive]; rfl)

end Sys2Proof
end

section
/-! SUPPORT. Commands of Carrier channels (sections 10.8 and 10.12). -/

namespace Sys2Proof.Machine

/-- A chain that has started: it is RUNNING, and its next descriptor is at HEAD (R358). -/
def State.started (s : State) (c : Nat) : State :=
  (((s.setChan c { ChanRec.idle with next := s.rd F.CAR_CH_HEAD_ADDR c, reading := true }).wr F.CAR_CH_CUR_ADDR c
    (s.rd F.CAR_CH_HEAD_ADDR c)).setChState c chRunning).wr F.CAR_CH_STATUS_CAUSE c 0

theorem State.started_leaves (s : State) {c : Nat} (hc : c < 256) :
    (s.started c).rd F.CAR_CH_CUR_ADDR c = s.rd F.CAR_CH_HEAD_ADDR c ∧ (s.started c).chState c = chRunning ∧
      regsBut s (s.started c) [(Reg.CAR_CH_STATUS, c), (Reg.CAR_CH_CUR, c)] := by
  refine ⟨?_, ?_, ?_⟩
  · simp only [State.started, State.setChState]
    simp (disch := first | decide | omega) only [State.rd_wr_reg, State.rd_wr_self]
    exact Nat.mod_eq_of_lt (Fld.get_lt F.CAR_CH_HEAD_ADDR _)
  · simp only [State.started, State.chState, State.setChState]
    simp (disch := first | decide | omega) only [State.rd_wr_disjoint, State.rd_wr_self]
    rfl
  · have hset : regsBut s (s.setChan c { ChanRec.idle with next := s.rd F.CAR_CH_HEAD_ADDR c, reading := true })
        [(Reg.CAR_CH_STATUS, c), (Reg.CAR_CH_CUR, c)] := regsBut_of_regs rfl
    have hcur := regsBut_wr_of F.CAR_CH_CUR_ADDR c (s.rd F.CAR_CH_HEAD_ADDR c) hset (by omega) (by simp [F.CAR_CH_CUR_ADDR])
    have hstate := regsBut_wr_of F.CAR_CH_STATUS_STATE c chRunning hcur (by omega) (by simp [F.CAR_CH_STATUS_STATE])
    exact regsBut_wr_of F.CAR_CH_STATUS_CAUSE c 0 hstate (by omega) (by simp [F.CAR_CH_STATUS_CAUSE])

section Channels

variable {s : State} {c : Nat}

/-- A channel that leaves IDLE or HALTED with no record waiting and a descriptor to read is RUNNING (Table 10-9). -/
theorem State.goChain_reading (hrecs : (s.chan c).recs = []) (hread : (s.chan c).reading = true) :
    s.goChain c = (s.setChState c chRunning).wr F.CAR_CH_STATUS_CAUSE c 0 := by
  have hstate : ((s.setChState c chRunning).wr F.CAR_CH_STATUS_CAUSE c 0).chState c = chRunning := by
    rw [State.chState, State.rd_wr_disjoint _ F.CAR_CH_STATUS_CAUSE F.CAR_CH_STATUS_STATE _ _ rfl (by decide) (by decide)]
    exact State.rd_wr_self _ F.CAR_CH_STATUS_STATE _ _ (by decide)
  have hchan : ((s.setChState c chRunning).wr F.CAR_CH_STATUS_CAUSE c 0).chan c = s.chan c := rfl
  have hwrite : State.writeRecs 1 ((s.setChState c chRunning).wr F.CAR_CH_STATUS_CAUSE c 0) c =
      (s.setChState c chRunning).wr F.CAR_CH_STATUS_CAUSE c 0 := by
    rw [State.writeRecs, hchan, hrecs]
  unfold State.goChain
  dsimp only
  rw [hchan, hrecs, List.length_nil, Nat.zero_add, hwrite, if_neg (by rw [hstate]; decide), hchan, hrecs, List.isEmpty_nil,
    if_pos rfl, State.endChain, if_pos]
  rw [hchan, hread]
  exact .inr (.inl rfl)

section Chain

variable (hchain : s.isChain c = true)
include hchain

theorem State.chStart_idle (hidle : s.chState c = chIdle) :
    s.chStart c = s.started c := by
  have hchan : ((s.setChan c { ChanRec.idle with next := s.rd F.CAR_CH_HEAD_ADDR c, reading := true }).wr
      F.CAR_CH_CUR_ADDR c (s.rd F.CAR_CH_HEAD_ADDR c)).chan c =
        { ChanRec.idle with next := s.rd F.CAR_CH_HEAD_ADDR c, reading := true } := Tab.get_set_self _ _ _ _
  rw [State.chStart, if_neg (by rw [hchain]; decide), if_pos hidle]
  exact State.goChain_reading (congrArg ChanRec.recs hchan) (congrArg ChanRec.reading hchan)

theorem State.chStart_running (hrun : s.chState c = chRunning) : s.chStart c = s := by
  rw [State.chStart, if_neg (by rw [hchain]; decide), if_neg (by rw [hrun]; decide), if_neg (by rw [hrun]; decide)]

theorem State.chKick_busy (hbusy : s.chState c ≠ chIdle) : s.chKick c = s.wr F.CAR_CH_STATUS_KICK_PENDING c 1 := by
  rw [State.chKick, if_neg (by rw [hchain]; decide), if_neg hbusy]

theorem State.chKick_idle (hidle : s.chState c = chIdle) :
    s.chKick c = ((s.setChan c { s.chan c with reading := true, kickRead := true }).setChState c chRunning).readNext c := by
  rw [State.chKick, if_neg (by rw [hchain]; decide), if_pos hidle]

theorem State.chAbort_idle (hidle : s.chState c = chIdle) : s.chAbort c = s := by
  have hrun : ¬ (s.chState c = chRunning ∨ s.chState c = chWaitRing ∧ s.rd F.CAR_CH_STATUS_CAUSE c = 0) := by
    rw [hidle]; exact not_or.2 ⟨by decide, fun h => absurd h.1 (by decide)⟩
  rw [State.chAbort, if_pos hchain, if_neg hrun, if_neg (by rw [hidle]; decide)]

theorem State.chAbort_waits (hwait : s.chState c = chWaitRing) (hcause : s.rd F.CAR_CH_STATUS_CAUSE c ≠ 0) :
    s.chAbort c = s.wr F.CAR_CH_CTRL_ABORT c 1 := by
  rw [State.chAbort, if_pos hchain, if_neg, if_pos hwait]
  rintro (hrun | ⟨_, h0⟩)
  · rw [hwait] at hrun; exact absurd hrun (by decide)
  · exact hcause h0

/-- A control bit of a HALTED channel waits while reads are out (R374). -/
theorem State.chHaltBit_waits (f : Fld) (hhalt : s.chState c = chHalted)
    (hreads : s.chanReads c ≠ 0) : s.chHaltBit c f = s.wr f c 1 := by
  have hstay : (s.wr f c 1).chanReads c ≠ 0 := hreads
  rw [State.chHaltBit, if_pos ⟨hchain, hhalt⟩, State.leaveHalt, if_pos (.inr (.inl hstay))]

end Chain

theorem State.chState_wr_ctrl (f : Fld) (v : Nat) (hf : f.reg = Reg.CAR_CH_CTRL) (hc : c < 131072) :
    (s.wr f c v).chState c = s.chState c :=
  State.rd_wr_reg _ _ F.CAR_CH_STATUS_STATE _ (by rw [hf]; decide) hc hc

end Channels

/-- What a control bit that waits leaves. -/
theorem ctrlBit_leaves (s : State) {c : Nat} (f : Fld) (hf : f.reg = Reg.CAR_CH_CTRL) (hlo : f.lo + f.width ≤ 64)
    (hw : f.width = 1) (hc : c < 256) (hhalt : s.chState c = chHalted) :
    onlyRegs s (s.wr f c 1) ∧ (s.wr f c 1).rd f c = 1 ∧ (s.wr f c 1).chState c = chHalted ∧
      regsBut s (s.wr f c 1) [(Reg.CAR_CH_CTRL, c)] :=
  ⟨rfl, by rw [State.rd_wr_self _ f _ _ hlo, hw]; rfl, by rw [State.chState_wr_ctrl f 1 hf (by omega), hhalt],
    hf ▸ regsBut_wr s f c 1 (by omega)⟩

end Sys2Proof.Machine

namespace Sys2Proof

open Sys2Proof.Machine

/-- Settles O22: each command by the state of its channel. -/
theorem channelCommands : Obligations.ChannelCommands := by
  unfold Obligations.ChannelCommands
  intro fn channel s hfn hchain c
  have hc : c < 256 := channel.isLt
  have hstart : exec (.channelStart fn channel) s = .next (s.chStart c) := congrArg Host.Outcome.next (if_pos hfn)
  have hkick : exec (.kick fn channel) s = .next (s.chKick c) := congrArg Host.Outcome.next (if_pos hfn)
  have habort : exec (.abort fn channel) s = .next (s.chAbort c) := congrArg Host.Outcome.next (if_pos hfn)
  have hresume : exec (.channelResume fn channel) s = .next (s.chHaltBit c F.CAR_CH_CTRL_RESUME) :=
    congrArg Host.Outcome.next (if_pos hfn)
  have hskip : exec (.skip fn channel) s = .next (s.chHaltBit c F.CAR_CH_CTRL_SKIP) :=
    congrArg Host.Outcome.next (if_pos hfn)
  have hclear : exec (.clear fn channel) s = .next (s.chHaltBit c F.CAR_CH_CTRL_CLEAR) :=
    congrArg Host.Outcome.next (if_pos hfn)
  refine ⟨fun hidle => ?start, fun hrun => by rw [hstart, State.chStart_running hchain hrun],
    fun hbusy => ?kick, fun hidle => by rw [hkick, State.chKick_idle hchain hidle],
    fun hidle => by rw [habort, State.chAbort_idle hchain hidle],
    fun hwait hcause => ⟨_, habort.trans (congrArg Host.Outcome.next (State.chAbort_waits hchain hwait hcause)), rfl,
      State.rd_wr_self s F.CAR_CH_CTRL_ABORT _ _ (by decide)⟩,
    fun hhalt hreads => ⟨_, hresume.trans (congrArg Host.Outcome.next (State.chHaltBit_waits hchain _ hhalt hreads)),
      ctrlBit_leaves s F.CAR_CH_CTRL_RESUME rfl (by decide) rfl hc hhalt⟩,
    fun hhalt hreads => ⟨_, hskip.trans (congrArg Host.Outcome.next (State.chHaltBit_waits hchain _ hhalt hreads)),
      ctrlBit_leaves s F.CAR_CH_CTRL_SKIP rfl (by decide) rfl hc hhalt⟩,
    fun hhalt hreads => ⟨_, hclear.trans (congrArg Host.Outcome.next (State.chHaltBit_waits hchain _ hhalt hreads)),
      ctrlBit_leaves s F.CAR_CH_CTRL_CLEAR rfl (by decide) rfl hc hhalt⟩⟩
  case start =>
    obtain ⟨hcur, hstate, hbut⟩ := State.started_leaves s hc
    exact ⟨_, hstart.trans (congrArg Host.Outcome.next (State.chStart_idle hchain hidle)), rfl, hstate, hcur,
      congrArg ChanRec.next (Tab.get_set_self _ _ _ _), congrArg ChanRec.reading (Tab.get_set_self _ _ _ _), hbut⟩
  case kick =>
    have hset := s.rdb_flag_self F.CAR_CH_STATUS_KICK_PENDING c (by decide) (by decide)
    refine ⟨_, hkick.trans (congrArg Host.Outcome.next (State.chKick_busy hchain hbusy)), rfl, hset, ?_,
      regsBut_wr s F.CAR_CH_STATUS_KICK_PENDING c 1 (by omega)⟩
    exact State.rd_wr_disjoint _ F.CAR_CH_STATUS_KICK_PENDING F.CAR_CH_STATUS_STATE _ _ rfl (by decide) (by decide)

end Sys2Proof
end

section
/-! SUPPORT. Completion rings (section 10.9). -/

namespace Sys2Proof.Machine

section Rings

variable (s : State) (r : Nat) (v : Word)

/-- The state after a write of CAR_RING_CFG has taken the ring's size, its coalescing and its vector. -/
def State.ringBase : State :=
  (((s.wr F.CAR_RING_CFG_LOG2 r (F.CAR_RING_CFG_LOG2.get v)).wr F.CAR_RING_CFG_COAL_COUNT r
    (F.CAR_RING_CFG_COAL_COUNT.get v)).wr F.CAR_RING_CFG_COAL_US r (F.CAR_RING_CFG_COAL_US.get v)).wr F.CAR_RING_CFG_VECTOR r
    (F.CAR_RING_CFG_VECTOR.get v)

theorem State.ringBase_change {r : Nat} (hr : r < 512) : RegChange s (s.ringBase r v) [(Reg.CAR_RING_CFG, r)] :=
  ((((RegChange.refl s _).wr F.CAR_RING_CFG_LOG2 r _ (by omega) (by simp [F.CAR_RING_CFG_LOG2])).wr F.CAR_RING_CFG_COAL_COUNT
    r _ (by omega) (by simp [F.CAR_RING_CFG_COAL_COUNT])).wr F.CAR_RING_CFG_COAL_US r _ (by omega)
    (by simp [F.CAR_RING_CFG_COAL_US])).wr F.CAR_RING_CFG_VECTOR r _ (by omega) (by simp [F.CAR_RING_CFG_VECTOR])

theorem State.rd_ringBase : (s.ringBase r v).rd F.CAR_RING_CFG_LOG2 r = F.CAR_RING_CFG_LOG2.get v ∧
    (s.ringBase r v).rd F.CAR_RING_CFG_EN r = s.rd F.CAR_RING_CFG_EN r := by
  simp only [State.ringBase]
  simp (disch := first | decide | omega) only [State.rd_wr_disjoint, State.rd_wr_self, and_true]
  exact Nat.mod_eq_of_lt (Fld.get_lt F.CAR_RING_CFG_LOG2 _)

/-- A ring that is enabled (R385): its counts are 0, and no channel waits for it. -/
def State.ringOpened : State :=
  ((((s.wr F.CAR_RING_CFG_EN r 1).wr F.CAR_RING_PROD_COUNT r 0).wr F.CAR_RING_CONS_COUNT r 0).setRingRec r RingRec.idle).wr
    F.CAR_RING_STATUS_FULL_WAIT r 0

/-- A size and a base that R385 refuses. -/
abbrev State.ringBad (lg : Nat) : Prop :=
  lg < 6 ∨ 16 < lg ∨ s.rd F.CAR_RING_BASE_ADDR r * 32 % max (32 * 2 ^ lg) 4096 ≠ 0 ∨
    (s.rdb F.CAR_RING_BASE_HOST r ∧ !s.feature 20)

theorem State.ringCfg_eq : s.ringCfg r v =
    (let u := if F.CAR_RING_CFG_CFG_ERR.get v = 1 then (s.ringBase r v).wr F.CAR_RING_CFG_CFG_ERR r 0 else s.ringBase r v
     if F.CAR_RING_CFG_EN.get v = 0 then u.wr F.CAR_RING_CFG_EN r 0
     else if s.rdb F.CAR_RING_CFG_EN r then u
     else if u.ringBad r (u.rd F.CAR_RING_CFG_LOG2 r) then u.flag F.CAR_RING_CFG_CFG_ERR r
     else ((((u.wr F.CAR_RING_CFG_EN r 1).wr F.CAR_RING_PROD_COUNT r 0).wr F.CAR_RING_CONS_COUNT r 0).setRingRec r
       RingRec.idle).ringRoom r) := rfl

theorem State.ringBad_ringBase {r : Nat} (hr : r < 512) (lg : Nat) : (s.ringBase r v).ringBad r lg = s.ringBad r lg := by
  have hbase := s.ringBase_change v hr
  rw [State.ringBad, State.ringBad, hbase.rd_of_reg F.CAR_RING_BASE_ADDR (by omega) rfl, State.rdb,
    hbase.rd_of_reg F.CAR_RING_BASE_HOST (by omega) rfl, State.feature, hbase.rd_of_reg F.SYS_FEAT_ACCEPT_BITS (by omega) rfl]
  rfl

section Enable

variable {s r v} (hr : r < 512) (hoff : s.rdb F.CAR_RING_CFG_EN r = false) (hen : F.CAR_RING_CFG_EN.get v = 1)
  (herr : F.CAR_RING_CFG_CFG_ERR.get v = 0)
include hr hoff hen herr

theorem State.ringCfg_refused (hbad : s.ringBad r (F.CAR_RING_CFG_LOG2.get v)) :
    s.ringCfg r v = (s.ringBase r v).flag F.CAR_RING_CFG_CFG_ERR r := by
  rw [← s.ringBad_ringBase v hr] at hbad
  rw [State.ringCfg_eq, hoff, hen, herr, if_neg (by decide : ¬ (0 : Nat) = 1), if_neg (by decide : ¬ (1 : Nat) = 0),
    if_neg Bool.false_ne_true, (s.rd_ringBase r v).1]
  exact if_pos hbad

theorem State.ringCfg_opened (hok : ¬ s.ringBad r (F.CAR_RING_CFG_LOG2.get v)) (hrecs : ∀ e ∈ s.chans, e.2.recs = []) :
    s.ringCfg r v = (s.ringBase r v).ringOpened r := by
  have hnone (u : State) (hu : u.chans = s.chans) : u.ringRoom r = u.wr F.CAR_RING_STATUS_FULL_WAIT r 0 := by
    have hfilter : u.chans.filter (fun e => e.2.recs.any (fun x => x.ring == r)) = [] :=
      List.filter_eq_nil_iff.2 (fun e he => by rw [hrecs e (hu ▸ he)]; exact Bool.false_ne_true)
    rw [State.ringRoom, hfilter]
    rfl
  rw [← s.ringBad_ringBase v hr] at hok
  rw [State.ringCfg_eq, hoff, hen, herr, if_neg (by decide : ¬ (0 : Nat) = 1), if_neg (by decide : ¬ (1 : Nat) = 0),
    if_neg Bool.false_ne_true, (s.rd_ringBase r v).1, if_neg hok, hnone]
  · rfl
  · simp only [State.ringBase, State.setRingRec_chans, State.wr_chans]

end Enable

theorem State.ringOpened_leaves {r : Nat} (hr : r < 512) :
    (s.ringOpened r).rdb F.CAR_RING_CFG_EN r = true ∧ (s.ringOpened r).rd F.CAR_RING_PROD_COUNT r = 0 ∧
      (s.ringOpened r).rd F.CAR_RING_CONS_COUNT r = 0 ∧
      (s.ringOpened r).rd F.CAR_RING_CFG_LOG2 r = s.rd F.CAR_RING_CFG_LOG2 r ∧
      s.ringOpened r = { s with regs := (s.ringOpened r).regs, rings := (s.ringOpened r).rings } := by
  have hset (f : Fld) (u : State) : (u.setRingRec r RingRec.idle).rd f r = u.rd f r := rfl
  simp only [State.ringOpened, State.rdb]
  simp (disch := first | decide | omega) only [State.rd_wr_reg, State.rd_wr_disjoint, State.rd_wr_self, hset, true_and]
  refine ⟨rfl, rfl, rfl, ?_⟩
  have hopen : onlyRegs s (((s.wr F.CAR_RING_CFG_EN r 1).wr F.CAR_RING_PROD_COUNT r 0).wr F.CAR_RING_CONS_COUNT r 0) :=
    onlyRegs_wr_of _ _ _ (onlyRegs_wr_of _ _ _ (onlyRegs_wr_of _ _ _ (onlyRegs_refl s)))
  generalize (((s.wr F.CAR_RING_CFG_EN r 1).wr F.CAR_RING_PROD_COUNT r 0).wr F.CAR_RING_CONS_COUNT r 0) = u at hopen
  exact (rfl : (u.setRingRec r RingRec.idle).wr F.CAR_RING_STATUS_FULL_WAIT r 0 = { u with
    regs := ((u.setRingRec r RingRec.idle).wr F.CAR_RING_STATUS_FULL_WAIT r 0).regs,
    rings := ((u.setRingRec r RingRec.idle).wr F.CAR_RING_STATUS_FULL_WAIT r 0).rings }).trans
      (congrArg (fun x : State => { x with
        regs := ((u.setRingRec r RingRec.idle).wr F.CAR_RING_STATUS_FULL_WAIT r 0).regs,
        rings := ((u.setRingRec r RingRec.idle).wr F.CAR_RING_STATUS_FULL_WAIT r 0).rings }) hopen)

end Rings

end Sys2Proof.Machine

namespace Sys2Proof

open Sys2Proof.Machine

/-- Settles O23: each row's guard holds under its hypotheses; an enable is refused exactly for a bad size or base. -/
theorem ringsAndDescriptorReads : Obligations.RingsAndDescriptorReads := by
  unfold Obligations.RingsAndDescriptorReads
  refine ⟨fun channel s h => congrArg Host.Outcome.next (if_pos h), fun channel s r l hheld hst hch hrecs hen hfull => ?stall,
    fun fn ring v s hsee => ?enable, fun fn ring count s hsee => ?cons, fun ring s hheld hsince hcoal => ?coalesce,
    fun item s it hit hserved => ⟨fun hstage hreads herr => ?retry, fun hstage hwork => ?notify, fun hstage hwork => ?giveBack⟩⟩
  case stall =>
    refine (if_neg (by rw [hheld]; decide)).trans (congrArg Host.Outcome.next (if_pos ⟨hst, hch, ?_⟩))
    rw [hrecs]
    exact Bool.and_eq_true_iff.2 ⟨hen, hfull⟩
  case enable =>
    intro r lg hoff hen herr
    have hr : r < 512 := ring.isLt
    have hexec : exec (.ringEnable fn ring v) s = .next (s.ringCfg r v) := congrArg Host.Outcome.next (if_pos hsee)
    have hbase := s.ringBase_change v hr
    obtain ⟨hlog, hon⟩ := s.rd_ringBase r v
    refine ⟨fun hmin hmax halign hhost hrecs => ?_, fun hsize => ?_⟩
    · have hok : ¬ s.ringBad r lg := by
        rintro (h | h | h | ⟨hb, hf⟩)
        · omega
        · omega
        · exact h halign
        · rw [hhost hb] at hf; exact absurd hf (by decide)
      obtain ⟨hen', hprod, hcons, hlg, hframe⟩ := State.ringOpened_leaves (s.ringBase r v) hr
      refine ⟨_, hexec.trans (congrArg Host.Outcome.next (State.ringCfg_opened hr hoff hen herr hok hrecs)), hen', hprod, hcons,
        hlg.trans hlog, ?_⟩
      exact hframe.trans (congrArg (fun u : State => { u with
        regs := ((s.ringBase r v).ringOpened r).regs, rings := ((s.ringBase r v).ringOpened r).rings }) hbase.only)
    · have hbad : s.ringBad r lg := hsize.elim .inl (fun h => .inr (.inl h))
      refine ⟨_, hexec.trans (congrArg Host.Outcome.next (State.ringCfg_refused hr hoff hen herr hbad)),
        onlyRegs_wr_of _ _ _ hbase.only, ?_, State.rdb_flag_self _ F.CAR_RING_CFG_CFG_ERR _ (by decide) (by decide)⟩
      rw [State.rdb, State.flag, State.rd_wr_disjoint _ F.CAR_RING_CFG_CFG_ERR F.CAR_RING_CFG_EN _ _ rfl (by decide) (by decide),
        hon]
      exact hoff
  case cons =>
    intro r ahead
    have hexec : exec (.ringConsWrite fn ring count) s = .next (s.ringCons r count.toNat) :=
      congrArg Host.Outcome.next (if_pos hsee)
    have hmod : count.toNat % 2 ^ 32 = count.toNat := Nat.mod_eq_of_lt count.isLt
    refine ⟨fun hle => ⟨s.wr F.CAR_RING_CONS_COUNT r count.toNat, ?_, rfl, ?_, regsBut_wr s F.CAR_RING_CONS_COUNT r _ ?_⟩,
      fun hgt => ?_⟩
    · rw [hexec, State.ringCons, hmod, if_neg (by omega)]
    · rw [State.rd_wr_self _ _ _ _ (by decide)]; exact hmod
    · have hr : r < 512 := ring.isLt
      omega
    · rw [hexec, State.ringCons, hmod, if_pos hgt]
  case coalesce => exact congrArg Host.Outcome.next (if_pos ⟨by rw [hheld]; decide, hsince, hcoal⟩)
  case retry =>
    have hany : (s.host.reads.any (fun e => !e.2.absorbed && e.2.use == .consumer item)) = false := by
      refine List.any_eq_false.2 (fun e he => ?_)
      rcases hreads e he with habs | huse
      · rw [habs]; exact Bool.false_ne_true
      · rw [beq_eq_false_iff_ne.2 huse, Bool.and_false]; exact Bool.false_ne_true
    show execNoticeRingRetry item s = _
    simp only [execNoticeRingRetry, hit, hany, hserved, hstage, herr, ne_eq, not_true, Bool.not_true, Bool.false_eq_true,
      or_self, if_false]
  case notify =>
    show execNoticeReservation item s = _
    simp only [execNoticeReservation, hit, hserved, hstage, hwork, ne_eq, not_true, Bool.not_true, Bool.false_eq_true,
      or_self, if_false]
  case giveBack =>
    show execNoticeReservation item s = _
    simp only [execNoticeReservation, hit, hserved, hstage, ne_eq, not_true, Bool.not_true, Bool.false_eq_true,
      or_self, if_false]

end Sys2Proof
end

section
/-! SUPPORT. Write-back streams and BAR4 (sections 12.4 and 12.2): a stray, and an access that the checks let through. -/

namespace Sys2Proof.Machine

theorem State.wbStray_leaves (s : State) (p r : Nat) :
    (s.wbStray p r).rdb F.PART_LIFE_STATUS_WB_STRAY p = true ∧ (s.wbStray p r).mem = s.mem ∧
      Tab.find? (s.wbStray p r).host.streams r = none :=
  ⟨State.rdb_flag_self _ F.PART_LIFE_STATUS_WB_STRAY p (by decide) (by decide), rfl, Tab.find?_erase_self _ _⟩

/-- A write-back stream that stands as `w`, and one that has ended. -/
def State.streamTo (s : State) (r : Nat) (w : WbStream) : State :=
  { s with host := { s.host with streams := Tab.put s.host.streams r w } }

def State.streamEnd (s : State) (r : Nat) : State :=
  { s with host := { s.host with streams := Tab.erase s.host.streams r } }

section Streams

variable {fn : BitVec 5} {rid : BitVec 16} {s : State} (ho : s.fnOpen fn.toNat)
include ho

theorem exec_wbHeader_opens {b : List Byte} {a : Awaited} (hb : b.length = 64)
    (hr : Tab.find? s.host.streams rid.toNat = none) (ha : s.awaitedOf fn.toNat rid.toNat b = some a)
    (hgood : (fieldAt b 7 1 == 0 && fieldAt b 14 2 == 0 && allZero (bytesAt b 16 40) && fieldAt b 60 4 == 0 &&
      fieldAt b 56 4 == (crc32c (b.take 56)).toNat) = true)
    (hdisp : (s.tile fn.toNat a.obj a.tile).disp = .ret) (hst : (s.tile fn.toNat a.obj a.tile).state = .resident)
    (hlen : fieldAt b 8 4 = s.tileSize fn.toNat a.obj) :
    exec (.writeBackHeader fn rid b) s = .next (s.streamTo rid.toNat
      { fn := fn.toNat, peer := a.peer, obj := a.obj, tile := a.tile, len := fieldAt b 8 4, next := 0 }) := by
  show execWriteBackHeader fn rid b s = _
  unfold execWriteBackHeader
  dsimp only
  rw [bytesAt_whole hb, if_neg (by rw [ho]; decide), hr]
  simp only [Option.isSome_none, Bool.false_eq_true, if_false, ha]
  rw [if_pos ⟨hgood, hdisp, hst, hlen⟩]
  rfl

theorem exec_wbHeader_stray {b : List Byte} (hb : b.length = 64)
    (hr : Tab.find? s.host.streams rid.toNat = none) (ha : s.awaitedOf fn.toNat rid.toNat b = none) :
    exec (.writeBackHeader fn rid b) s = .next (s.wbStray fn.toNat rid.toNat) := by
  show execWriteBackHeader fn rid b s = _
  unfold execWriteBackHeader
  dsimp only
  rw [bytesAt_whole hb, if_neg (by rw [ho]; decide), hr]
  simp only [Option.isSome_none, Bool.false_eq_true, if_false, ha]

theorem exec_wbData_stray (offset : BitVec 17) (bs : List Byte) (hr : Tab.find? s.host.streams rid.toNat = none) :
    exec (.writeBackData fn rid offset bs) s = .next (s.wbStray fn.toNat rid.toNat) := by
  show execWriteBackData fn rid offset bs s = _
  unfold execWriteBackData
  dsimp only
  rw [if_neg (by rw [ho]; decide), hr]

theorem exec_wbData {w : WbStream} {a : Awaited} {offset : BitVec 17} {bs : List Byte}
    (hr : Tab.find? s.host.streams rid.toNat = some w) (hfn : w.fn = fn.toNat) (hoff : w.next % 131072 = offset.toNat)
    (hlen : w.next + bs.length ≤ w.len)
    (ha : s.host.awaited.find? (fun a => a.part == fn.toNat && a.peer == w.peer && a.obj == w.obj && a.tile == w.tile) =
      some a) :
    exec (.writeBackData fn rid offset bs) s =
      .next (if w.next + bs.length = w.len then
        (((s.physWrite .bulk fn.toNat (a.place + w.next) bs).streamEnd rid.toNat).wbCommit fn.toNat a).flow
      else (s.physWrite .bulk fn.toNat (a.place + w.next) bs).streamTo rid.toNat
        { w with next := w.next + bs.length }) := by
  show execWriteBackData fn rid offset bs s = _
  unfold execWriteBackData
  dsimp only
  have hgood : ¬ (w.fn ≠ fn.toNat ∨ w.next % 131072 ≠ offset.toNat ∨ w.len < w.next + bs.length) := by
    rintro (h | h | h)
    · exact h hfn
    · exact h hoff
    · omega
  rw [if_neg (by rw [ho]; decide), hr]
  dsimp only
  rw [if_neg hgood, ha]
  rfl

end Streams

section Window

variable {fn : BitVec 5} {offset : BitVec 36} {s : State} {va : Nat}
  (hva : s.rd F.HOST_BAR4_WIN_BASE fn.toNat * 2 ^ 36 + offset.toNat = va) (ho : s.fnOpen fn.toNat) (hfeat : s.feature 23)
include hva ho hfeat

theorem exec_bar4Read {n : Nat} {bad : Bool} {bs : List Byte} {u : State} (hx : s.xcheckRun fn.toNat va n false false = none)
    (hh : s.vheathFail fn.toNat va n = none) (hr : s.vread .cached fn.toNat va n = (bad, bs, u)) :
    exec (.bar4Read fn offset n) s = .next (if bad then (u.emit (.aer fn.toNat aerAbort)).emit (.completerAbort fn.toNat)
      else u.emit (.readData fn.toNat bs)) := by
  simp only [State.fnOpen, Bool.and_eq_true, Bool.not_eq_true'] at ho
  obtain ⟨⟨hheld, hfn⟩, hflr⟩ := ho
  show execBar4Read fn offset n s = _
  unfold execBar4Read
  dsimp only
  rw [State.bar4, hva, State.bar4Check, if_neg (by rw [hheld, hfn]; decide), if_neg (by rw [hflr]; decide),
    if_neg (by rw [hfeat]; decide), hx]
  dsimp only
  rw [hh, if_neg (by decide), hr]

theorem exec_bar4Write {bs : List Byte} (hx : s.xcheckRun fn.toNat va bs.length true false = none)
    (hh : s.vheathFail fn.toNat va bs.length = none) :
    exec (.bar4Write fn offset bs) s = .next (s.vwrite .cached fn.toNat va bs) := by
  show execBar4Write fn offset bs s = _
  unfold execBar4Write
  dsimp only
  rw [State.bar4, hva, State.bar4Check, if_neg (by rw [ho]; decide), if_neg (by rw [hfeat]; decide), hx]
  dsimp only
  rw [hh, if_neg (by decide)]

theorem exec_bar4Write_refused {bs : List Byte} {x : XErr} {o : Nat}
    (hx : s.xcheckRun fn.toNat va bs.length true false = some (x, o)) :
    exec (.bar4Write fn offset bs) s =
      .next ((s.dtuFault fn.toNat x.kind 2 (va + o) true).emit (.aer fn.toNat aerAbort)) := by
  show execBar4Write fn offset bs s = _
  unfold execBar4Write
  dsimp only
  rw [State.bar4, hva, State.bar4Check, if_neg (by rw [ho]; decide), if_neg (by rw [hfeat]; decide), hx]
  rfl

end Window

end Sys2Proof.Machine

namespace Sys2Proof

open Sys2Proof.Machine

/-- Settles O25: a header opens a stream or is stray; its data goes on, ends it or is stray; BAR4 by its checks. -/
theorem writeBackAndWindowAccess : Obligations.WriteBackAndWindowAccess := by
  unfold Obligations.WriteBackAndWindowAccess
  refine ⟨fun fn rid s ho => ⟨?opens, ?headerStray, ?dataStray, ?data, ?last⟩,
    fun fn offset s ho => ⟨?read, ?poison, ?write, ?refused⟩⟩
  case opens =>
    intro b a hb hr ha h7 h14 h16 h60 hcrc hdisp hst hlen
    have hgood : (fieldAt b 7 1 == 0 && fieldAt b 14 2 == 0 && allZero (bytesAt b 16 40) && fieldAt b 60 4 == 0 &&
        fieldAt b 56 4 == (crc32c (b.take 56)).toNat) = true := by
      rw [h7, h14, h16, h60, hcrc, beq_self_eq_true, beq_self_eq_true]; rfl
    exact ⟨_, exec_wbHeader_opens ho hb hr ha hgood hdisp hst hlen, rfl, Tab.find?_put_self _ _ _⟩
  case headerStray =>
    exact fun b hb hr ha => ⟨_, exec_wbHeader_stray ho hb hr ha, s.wbStray_leaves _ _⟩
  case dataStray =>
    intro offset bs hr
    obtain ⟨hflag, hmem, -⟩ := s.wbStray_leaves fn.toNat rid.toNat
    exact ⟨_, exec_wbData_stray ho offset bs hr, hflag, hmem⟩
  case data =>
    intro w a offset bs hr hfn hoff hlen ha
    exact (exec_wbData ho hr hfn hoff hlen.le ha).trans (congrArg Host.Outcome.next (if_neg (by omega)))
  case last =>
    intro w a offset bs hr hfn hoff hlen ha
    exact (exec_wbData ho hr hfn hoff hlen.le ha).trans (congrArg Host.Outcome.next (if_pos hlen))
  case read => exact fun n bs u hf hx hh hr => exec_bar4Read rfl ho hf hx hh hr
  case poison =>
    intro n u bs hf hx hh hr
    exact exec_bar4Read rfl ho hf hx hh hr
  case write => exact fun bs hf hx hh => exec_bar4Write rfl ho hf hx hh
  case refused => exact fun bs x o hf hx => exec_bar4Write_refused rfl ho hf hx

end Sys2Proof
end

section
/-! SUPPORT. The open handshake (R430, Table 12-4) and the peer commands (R434 to R437). -/

namespace Sys2Proof.Machine

/-! ### The open handshake -/

/-- The words of SRT_FEAT after the first `n` took the accepted features. -/
theorem State.featFold (s : State) (n : Nat) (hn : n ≤ 256) :
    RegChange s ((List.range n).foldl (fun s i => s.wr F.SRT_FEAT_BITS i (s.rd F.SYS_FEAT_ACCEPT_BITS (i % 4))) s)
      ((List.range n).map (fun i => (Reg.SRT_FEAT, i))) ∧
    ∀ j, j < n → ((List.range n).foldl (fun s i => s.wr F.SRT_FEAT_BITS i (s.rd F.SYS_FEAT_ACCEPT_BITS (i % 4))) s).rd
      F.SRT_FEAT_BITS j = s.rd F.SYS_FEAT_ACCEPT_BITS (j % 4) := by
  induction n with
  | zero => exact ⟨RegChange.refl s _, fun j hj => absurd hj (Nat.not_lt_zero j)⟩
  | succ n ih =>
    obtain ⟨hchange, hrd⟩ := ih (by omega)
    rw [List.range_succ, List.foldl_append, List.foldl_cons, List.foldl_nil]
    generalize (List.range n).foldl (fun s i => s.wr F.SRT_FEAT_BITS i (s.rd F.SYS_FEAT_ACCEPT_BITS (i % 4))) s = u at *
    have haccept (k : Nat) : u.rd F.SYS_FEAT_ACCEPT_BITS (k % 4) = s.rd F.SYS_FEAT_ACCEPT_BITS (k % 4) :=
      hchange.rd (by omega) (by simp [F.SYS_FEAT_ACCEPT_BITS]; intro _ h; exact absurd h (by decide))
    refine ⟨(hchange.mono (by simp; omega)).wr F.SRT_FEAT_BITS n _ (by omega) (by simp [F.SRT_FEAT_BITS]), fun j hj => ?_⟩
    by_cases hjn : j = n
    · subst hjn
      rw [State.rd_wr_self _ F.SRT_FEAT_BITS _ _ (by decide), haccept]
      exact Nat.mod_eq_of_lt (Fld.get_lt F.SYS_FEAT_ACCEPT_BITS _)
    · rw [State.rd_wr_inst _ F.SRT_FEAT_BITS F.SRT_FEAT_BITS _ rfl hjn, hrd j (by omega)]

theorem State.openErr_opened {s : State} (h : s.rdb F.SYS_OPEN_OPENED 0 = true) : s.openErr = 3 := if_pos h

theorem State.openErr_notReady {s : State} (h : s.rdb F.SYS_OPEN_OPENED 0 = false)
    (hr : s.rdb F.SYS_START_STATUS_READY 0 = false) : s.openErr = 4 := by
  rw [State.openErr, if_neg (by rw [h]; decide), if_pos (by rw [hr]; decide)]

/-- Every accepted bit is offered, and each is accepted with those it needs. -/
theorem State.openErr_ok {s : State} (h : s.rdb F.SYS_OPEN_OPENED 0 = false)
    (hr : s.rdb F.SYS_START_STATUS_READY 0)
    (hoffer : ∀ k, k < 4 → s.rd F.SYS_FEAT_ACCEPT_BITS k &&& s.offer k = s.rd F.SYS_FEAT_ACCEPT_BITS k)
    (hneeds : ∀ d ∈ [(3, 0), (11, 0), (0, 16), (17, 3), (20, 19)], (s.rd F.SYS_FEAT_ACCEPT_BITS 0).testBit d.1 →
      (s.rd F.SYS_FEAT_ACCEPT_BITS 0).testBit d.2) : s.openErr = 0 := by
  have hany : ((List.range 4).any (fun k => s.rd F.SYS_FEAT_ACCEPT_BITS k &&& s.offer k != s.rd F.SYS_FEAT_ACCEPT_BITS k)) =
      false := List.any_eq_false.2 (fun k hk => by simp [hoffer k (List.mem_range.1 hk)])
  have hneed (b d : Nat) (hm : (b, d) ∈ [(3, 0), (11, 0), (0, 16), (17, 3), (20, 19)]) :
      ((s.rd F.SYS_FEAT_ACCEPT_BITS 0).testBit b && !(s.rd F.SYS_FEAT_ACCEPT_BITS 0).testBit d) = false := by
    cases hb : (s.rd F.SYS_FEAT_ACCEPT_BITS 0).testBit b with
    | false => rfl
    | true => rw [hneeds (b, d) hm hb]; rfl
  rw [State.openErr, if_neg (by rw [h]; decide), if_neg (by rw [hr]; decide), if_neg (by rw [hany]; decide), if_neg]
  simp only [hneed 3 0 (by simp), hneed 11 0 (by simp), hneed 0 16 (by simp), hneed 17 3 (by simp), hneed 20 19 (by simp),
    Bool.or_self, Bool.false_eq_true, not_false_iff]

theorem exec_sysOpen_refused {s : State} {n : Nat} (hheld : s.pins.held = false) (he : s.openErr = n) (hn : n ≠ 0) :
    exec .sysOpen s = .next (s.wr F.SYS_OPEN_ERR 0 n) := by
  show execSysOpen s = _
  rw [execSysOpen, if_neg (by rw [hheld]; decide), he, if_pos hn]

/-- The state of an open that has no error. -/
def State.opened (s : State) : State :=
  (List.range 256).foldl (fun s i => s.wr F.SRT_FEAT_BITS i (s.rd F.SYS_FEAT_ACCEPT_BITS (i % 4)))
    ((s.wr F.SYS_OPEN_ERR 0 0).wr F.SYS_OPEN_OPENED 0 1)

theorem exec_sysOpen_opens {s : State} (hheld : s.pins.held = false) (he : s.openErr = 0) :
    exec .sysOpen s = .next s.opened := by
  show execSysOpen s = _
  rw [execSysOpen, if_neg (by rw [hheld]; decide), he, if_neg (not_not.2 rfl)]
  rfl

theorem State.opened_leaves (s : State) :
    onlyRegs s s.opened ∧ s.opened.rdb F.SYS_OPEN_OPENED 0 = true ∧ s.opened.rd F.SYS_OPEN_ERR 0 = 0 ∧
      ∀ c k, c < 64 → k < 4 → s.opened.rd F.SRT_FEAT_BITS (4 * c + k) = s.rd F.SYS_FEAT_ACCEPT_BITS k := by
  obtain ⟨hchange, hfeat⟩ := State.featFold ((s.wr F.SYS_OPEN_ERR 0 0).wr F.SYS_OPEN_OPENED 0 1) 256 (le_refl _)
  have hopen (f : Fld) (hf : f.reg = Reg.SYS_OPEN) :
      s.opened.rd f 0 = ((s.wr F.SYS_OPEN_ERR 0 0).wr F.SYS_OPEN_OPENED 0 1).rd f 0 :=
    hchange.rd (by omega) (by simp [hf]; exact fun h => absurd h (by decide))
  refine ⟨onlyRegs_trans (onlyRegs_wr_of _ _ _ (onlyRegs_wr_of _ _ _ (onlyRegs_refl s))) hchange.only, ?_, ?_,
    fun c k hc hk => ?_⟩
  · rw [State.rdb, hopen F.SYS_OPEN_OPENED rfl, State.rd_wr_self _ F.SYS_OPEN_OPENED _ _ (by decide)]
    rfl
  · rw [hopen F.SYS_OPEN_ERR rfl, State.rd_wr_disjoint _ F.SYS_OPEN_OPENED F.SYS_OPEN_ERR _ _ rfl (by decide) (by decide),
      State.rd_wr_self _ F.SYS_OPEN_ERR _ _ (by decide)]
    rfl
  · have hmod : (4 * c + k) % 4 = k := by omega
    refine (hfeat (4 * c + k) (by omega)).trans ?_
    rw [hmod, State.rd_wr_reg _ _ F.SYS_FEAT_ACCEPT_BITS _ (by decide) (by omega) (by omega),
      State.rd_wr_reg _ _ F.SYS_FEAT_ACCEPT_BITS _ (by decide) (by omega) (by omega)]

/-! ### Peer commands -/

section Peers

variable {s : State} (hgo : s.rdb F.HOST_PEER_CTRL_GO 0 = false)
include hgo

theorem State.peerWords_go (l : List Word) (op : Nat) : (s.peerWords l op).rdb F.HOST_PEER_CTRL_GO 0 = false := by
  rw [State.peerWords, if_neg (by rw [hgo]; decide), State.rdb]
  simp (disch := first | decide | omega) only [State.rd_wr_reg]
  exact hgo

/-- The words that GO takes name the command. -/
theorem State.peerCmd_op (l : List Word) {op : Nat} (hop : op < 4) :
    bitsOf (((s.peerWords l op).wr F.HOST_PEER_CTRL_GO 0 1).peerCmd 0) 6 2 = op := by
  rw [State.peerWords, if_neg (by rw [hgo]; decide), State.peerCmd]
  simp (disch := first | decide | omega) only [State.rd_wr_reg, State.rd_wr_self]
  show ((l.getD 0 0).toNat - (l.getD 0 0).toNat / 2 ^ 6 % 2 ^ 2 * 64 + op * 64) % 2 ^ 64 / 2 ^ 6 % 2 ^ 2 = op
  omega

theorem State.peerGo_register (l : List Word) :
    (s.peerWords l 1).peerGo = ((s.peerWords l 1).wr F.HOST_PEER_CTRL_GO 0 1).peerRegister := by
  rw [State.peerGo, if_neg (by rw [State.peerWords_go hgo]; decide)]
  dsimp only
  rw [State.peerCmd_op hgo l (by decide)]
  rfl

theorem State.peerGo_unregister (l : List Word) :
    (s.peerWords l 2).peerGo = ((s.peerWords l 2).wr F.HOST_PEER_CTRL_GO 0 1).peerUnregister := by
  rw [State.peerGo, if_neg (by rw [State.peerWords_go hgo]; decide)]
  dsimp only
  rw [State.peerCmd_op hgo l (by decide)]
  rfl

end Peers

theorem State.peerGo_busy {s : State} (hgo : s.rdb F.HOST_PEER_CTRL_GO 0 = true) (l : List Word) (op : Nat) :
    (s.peerWords l op).peerGo = s.flag F.HOST_PEER_STATUS_BUSY_REFUSED 0 := by
  rw [State.peerWords, if_pos hgo, State.peerGo, if_pos hgo]

end Sys2Proof.Machine

namespace Sys2Proof

open Sys2Proof.Machine

/-- Settles O26: the error of an open decides it; GO of a peer command runs the command its words name. -/
theorem openAndPeerCommands : Obligations.OpenAndPeerCommands := by
  unfold Obligations.OpenAndPeerCommands
  refine ⟨fun s hheld => ⟨fun ho hr hoffer hneeds => ?opens, fun ho => ?again, fun ho hr => ?notReady⟩,
    fun words s hheld hgo => ?register, fun peer s hheld hgo => ?unregister, fun words s hheld hgo => ?busy,
    fun s key d r hheld hp hr => ?probe⟩
  case opens => exact ⟨_, exec_sysOpen_opens hheld (State.openErr_ok ho hr hoffer hneeds), s.opened_leaves⟩
  case again =>
    exact ⟨_, exec_sysOpen_refused hheld (State.openErr_opened ho) (by decide), State.rd_wr_self s F.SYS_OPEN_ERR 0 3 (by decide),
      regsBut_wr s F.SYS_OPEN_ERR 0 3 (by omega), rfl⟩
  case notReady =>
    exact ⟨_, exec_sysOpen_refused hheld (State.openErr_notReady ho hr) (by decide),
      State.rd_wr_self s F.SYS_OPEN_ERR 0 4 (by decide), regsBut_wr s F.SYS_OPEN_ERR 0 4 (by omega), rfl⟩
  case register =>
    exact congrArg Host.Outcome.next ((if_neg (by rw [hheld]; decide)).trans (by rw [State.peerGo_register hgo]))
  case unregister =>
    exact congrArg Host.Outcome.next ((if_neg (by rw [hheld]; decide)).trans (by rw [State.peerGo_unregister hgo]))
  case busy =>
    have hexec : exec (.register words) s = .next ((s.flag F.HOST_PEER_STATUS_BUSY_REFUSED 0).flow) :=
      congrArg Host.Outcome.next ((if_neg (by rw [hheld]; decide)).trans (by rw [State.peerGo_busy hgo]))
    exact ⟨_, hexec, rfl, s.rdb_flag_self F.HOST_PEER_STATUS_BUSY_REFUSED 0 (by decide) (by decide),
      regsBut_wr s F.HOST_PEER_STATUS_BUSY_REFUSED 0 1 (by omega)⟩
  case probe =>
    have hexec (n : BitVec 3) : exec (.probeResult n) s = execProbeResult n s := rfl
    simp only [hexec, execProbeResult, hheld, hp, hr]
    exact ⟨rfl, rfl⟩

end Sys2Proof
end

section
/-! SUPPORT. Quotas and the end of a MIGRATE (sections 3.7, 8.4 and 8.5). -/

namespace Sys2Proof.Machine

section Quotas

variable {s : State} {p : Nat}

theorem State.quotaUnits_eq (s : State) (p tier : Nat) : s.quotaUnits p tier = s.rd (quotaFld tier) p := by
  rcases tier with _ | _ | tier <;> rfl

theorem quotaFld_fits (tier : Nat) : (quotaFld tier).lo + (quotaFld tier).width ≤ 64 ∧ (quotaFld tier).width = 32 := by
  rcases tier with _ | _ | tier
  · decide
  · decide
  · exact (by decide : F.TIER_QUOTA_MOOR_UNITS.lo + F.TIER_QUOTA_MOOR_UNITS.width ≤ 64 ∧ F.TIER_QUOTA_MOOR_UNITS.width = 32)

/-- A raise over the assignable capacity is refused (R111). -/
theorem State.quotaWrite_refused {tier v : Nat} (hv : v < 2 ^ 32) (hup : s.quotaUnits p tier < v)
    (hcap : s.assignable tier < s.quotaSum tier p v * 65536) :
    s.quotaWrite p tier v = s.flag F.TIER_QUOTA_ERR_OVERCOMMIT 0 := by
  rw [State.quotaWrite, Nat.mod_eq_of_lt hv]
  exact if_pos ⟨hup, hcap⟩

/-- A value that is no higher is taken; a plan that is being verified notes the change. -/
theorem State.quotaWrite_taken {tier v : Nat} (hv : v < 2 ^ 32) (hle : v ≤ s.quotaUnits p tier) :
    (s.quotaWrite p tier v).quotaUnits p tier = v ∧
      s.quotaWrite p tier v = { s with regs := (s.quotaWrite p tier v).regs, plans := (s.quotaWrite p tier v).plans } := by
  obtain ⟨hfit, hw⟩ := quotaFld_fits tier
  have hup : ¬ s.quotaUnits p tier < v := by omega
  have hbase : (s.wr (quotaFld tier) p v).quotaUnits p tier = v := by
    rw [State.quotaUnits_eq, State.rd_wr_self _ _ _ _ hfit, hw, Nat.mod_eq_of_lt hv]
  rw [State.quotaWrite, Nat.mod_eq_of_lt hv]
  dsimp only
  rw [if_neg (fun h => hup h.1), if_neg hup]
  split
  · split
    · exact ⟨hbase, rfl⟩
    · exact ⟨hbase, rfl⟩
  · exact ⟨hbase, rfl⟩

/-- What a register of the quota object takes. -/
theorem State.quotaSoWrite_taken {v : Word} (hp : p < 131072) (hin : s.soInRange p (F.PART_QUOTA_SO_SO.get v)) :
    onlyRegs s (s.quotaSoWrite p v) ∧ (s.quotaSoWrite p v).rd F.PART_QUOTA_SO_SO p = F.PART_QUOTA_SO_SO.get v ∧
      (s.quotaSoWrite p v).rd F.PART_QUOTA_SO_EN p = F.PART_QUOTA_SO_EN.get v ∧
      regsBut s (s.quotaSoWrite p v) [(Reg.PART_QUOTA_SO, p)] := by
  have hchange := ((RegChange.refl s [(Reg.PART_QUOTA_SO, p)]).wr F.PART_QUOTA_SO_SO p (F.PART_QUOTA_SO_SO.get v) hp
    (by simp [F.PART_QUOTA_SO_SO])).wr F.PART_QUOTA_SO_EN p (F.PART_QUOTA_SO_EN.get v) hp (by simp [F.PART_QUOTA_SO_EN])
  have hrun : s.quotaSoWrite p v = (s.wr F.PART_QUOTA_SO_SO p (F.PART_QUOTA_SO_SO.get v)).wr F.PART_QUOTA_SO_EN p
      (F.PART_QUOTA_SO_EN.get v) := if_neg (fun h => absurd (hin ▸ h.2) (by decide))
  rw [hrun]
  refine ⟨hchange.only, ?_, ?_, hchange.but⟩
  · rw [State.rd_wr_disjoint _ F.PART_QUOTA_SO_EN F.PART_QUOTA_SO_SO _ _ rfl (by decide) (by decide),
      State.rd_wr_self _ F.PART_QUOTA_SO_SO _ _ (by decide)]
    exact Nat.mod_eq_of_lt (Fld.get_lt F.PART_QUOTA_SO_SO _)
  · rw [State.rd_wr_self _ F.PART_QUOTA_SO_EN _ _ (by decide)]
    exact Nat.mod_eq_of_lt (Fld.get_lt F.PART_QUOTA_SO_EN _)

theorem State.pinQuotaWrite_taken {v : Nat} (hle : v ≤ s.rd F.DTU_PIN_QUOTA_PAGES p) :
    s.pinQuotaWrite p v = s.wr F.DTU_PIN_QUOTA_PAGES p v := if_neg (fun h => by omega)

/-- A target that no mapped page is on takes its configuration (R285). -/
theorem State.moorTgtWrite_empty {v : Word} (hp : p < 131072) (hspace : s.space = []) :
    RegChange s (s.moorTgtWrite p v) [(Reg.TIER_MOOR_TGT, p)] ∧
      (s.moorTgtWrite p v).rd F.TIER_MOOR_TGT_KIND p = F.TIER_MOOR_TGT_KIND.get v := by
  have hnone : ¬ (s.space.any (fun e => homeOf e.1 == .moor && moorTarget e.1 == p)) = true := by
    rw [hspace]; exact Bool.false_ne_true
  rw [State.moorTgtWrite, if_neg hnone]
  refine ⟨(((RegChange.refl s _).wr F.TIER_MOOR_TGT_KIND p _ hp (by simp [F.TIER_MOOR_TGT_KIND])).wr F.TIER_MOOR_TGT_CONN p _ hp
    (by simp [F.TIER_MOOR_TGT_CONN])).wr F.TIER_MOOR_TGT_BLOCKS p _ hp (by simp [F.TIER_MOOR_TGT_BLOCKS]), ?_⟩
  simp (disch := first | decide | omega) only [State.rd_wr_disjoint, State.rd_wr_self]
  exact Nat.mod_eq_of_lt (Fld.get_lt F.TIER_MOOR_TGT_KIND _)

theorem quotaTier_ok {tier : BitVec 2} (hheld : s.pins.held = false) (ht : tier.toNat < 3) :
    ¬ (s.pins.held = true ∨ tier = 3) := by
  rw [hheld]
  rintro (h | rfl)
  · exact absurd h (by decide)
  · exact absurd ht (by decide)

end Quotas

end Sys2Proof.Machine

namespace Sys2Proof

open Sys2Proof.Machine

/-- Settles O30: each write by its check; a MIGRATE that has nothing left reports what was refused. -/
theorem quotasAndMigrationEnds : Obligations.QuotasAndMigrationEnds := by
  unfold Obligations.QuotasAndMigrationEnds
  refine ⟨fun s hheld => ⟨fun p tier v ht hup hcap => ?refused, fun p tier v ht hle => ?quota, fun p v hin => ?object,
    fun p v hen hout => ?outside, fun p v hle => ?pins, fun t v hheldBy => ?target, fun t v hspace => ?configure⟩,
    fun set s => ⟨fun m hm hserved hitems => ?migrate, fun c0 c1 c2 hopen hgo => ?map⟩⟩
  case refused =>
    exact ⟨_, congrArg Host.Outcome.next ((if_neg (quotaTier_ok hheld ht)).trans
      (State.quotaWrite_refused v.isLt hup hcap)), rfl, s.rdb_flag_self F.TIER_QUOTA_ERR_OVERCOMMIT 0 (by decide) (by decide),
      regsBut_wr s F.TIER_QUOTA_ERR_OVERCOMMIT 0 1 (by omega)⟩
  case quota =>
    exact ⟨_, congrArg Host.Outcome.next (if_neg (quotaTier_ok hheld ht)),
      State.quotaWrite_taken v.isLt hle⟩
  case object =>
    have hp := p.isLt
    exact ⟨_, congrArg Host.Outcome.next (if_neg (by rw [hheld]; decide)), State.quotaSoWrite_taken (by omega) hin⟩
  case outside =>
    have hp := p.isLt
    have hrun : s.quotaSoWrite p.toNat v = s.flag F.PART_QUOTA_STATUS_SO_ERR p.toNat := if_pos ⟨hen, by rw [hout]; rfl⟩
    exact ⟨_, congrArg Host.Outcome.next ((if_neg (by rw [hheld]; decide)).trans hrun), rfl,
      s.rdb_flag_self F.PART_QUOTA_STATUS_SO_ERR _ (by decide) (by decide), regsBut_wr s F.PART_QUOTA_STATUS_SO_ERR _ 1 (by omega)⟩
  case pins =>
    have hp := p.isLt
    refine ⟨_, congrArg Host.Outcome.next ((if_neg (by rw [hheld]; decide)).trans (State.pinQuotaWrite_taken hle)), rfl, ?_,
      regsBut_wr s F.DTU_PIN_QUOTA_PAGES _ _ (by omega)⟩
    rw [State.rd_wr_self _ F.DTU_PIN_QUOTA_PAGES _ _ (by decide)]
    exact Nat.mod_eq_of_lt v.isLt
  case target =>
    obtain ⟨e, he, hhome, htarget⟩ := hheldBy
    have hany : (s.space.any (fun e => homeOf e.1 == .moor && moorTarget e.1 == t.toNat)) = true :=
      List.any_eq_true.2 ⟨e, he, by rw [hhome, htarget, beq_self_eq_true, beq_self_eq_true]; rfl⟩
    exact congrArg Host.Outcome.next ((if_neg (by rw [hheld]; decide)).trans (if_pos hany))
  case configure =>
    have ht := t.isLt
    obtain ⟨hchange, hkind⟩ := State.moorTgtWrite_empty (v := v) (p := t.toNat) (by omega) hspace
    exact ⟨_, congrArg Host.Outcome.next (if_neg (by rw [hheld]; decide)), hchange.only, hkind, hchange.but⟩
  case migrate =>
    have hany : (s.items.any (fun e => e.2.part == set.toNat / 2 && e.2.origin == .migrate set.toNat)) = false := by
      refine List.any_eq_false.2 (fun e he => ?_)
      rcases hitems e he with hpart | horigin
      · rw [beq_eq_false_iff_ne.2 hpart]; exact Bool.false_ne_true
      · rw [beq_eq_false_iff_ne.2 horigin, Bool.and_false]; exact Bool.false_ne_true
    show execMigrateComplete set s = _
    unfold execMigrateComplete
    dsimp only
    rw [hm]
    exact if_neg (by rw [hany, hserved]; decide)
  case map =>
    have hset := set.isLt
    have hrun : s.dtuCommand set.toNat 1 c0 c1 c2 = s.flag F.DTU_CMD_STATUS_BUSY_REFUSED set.toNat :=
      (if_neg (by rw [hopen]; decide)).trans (if_pos hgo)
    exact ⟨_, congrArg Host.Outcome.next hrun, rfl, s.rdb_flag_self F.DTU_CMD_STATUS_BUSY_REFUSED _ (by decide) (by decide),
      regsBut_wr s F.DTU_CMD_STATUS_BUSY_REFUSED _ 1 (by omega)⟩

end Sys2Proof
end

section
/-! SUPPORT. Cache commands (R339 to R343) and the pin mask (R337). -/

namespace Sys2Proof.Machine

/-- The words of a cache command. -/
def State.llcWords (s : State) (k op : Nat) (c1 c2 : Word) : State :=
  ((s.wr F.LLC_CMD0_WORD k op).setReg Reg.LLC_CMD1 k c1).setReg Reg.LLC_CMD2 k c2

/-- A cache command ends with its result and the command interrupt. -/
def State.llcDone (s : State) (k r : Nat) : State :=
  (((s.wr F.LLC_CMD_STATUS_RESULT k r).flag F.LLC_CMD_STATUS_DONE k).wr F.LLC_CMD_CTRL_GO k 0).irq (k / 2) 4

theorem State.llcWords_rd (s : State) {k op : Nat} (c1 c2 : Word) (hk : k < 64) (hop : op < 8) :
    (s.llcWords k op c1 c2).rd F.LLC_CMD0_WORD k = op ∧ (s.llcWords k op c1 c2).rd F.LLC_CMD1_WORD k = c1.toNat ∧
      (s.llcWords k op c1 c2).rd F.LLC_CMD2_WORD k = c2.toNat := by
  have hget (f : Fld) (hf : f.lo = 0 ∧ f.width = 64) (w : Word) : f.get w = w.toNat := by
    rw [Fld.get, hf.1, hf.2, Nat.pow_zero, Nat.div_one, Nat.mod_eq_of_lt w.isLt]
  refine ⟨?_, ?_, ?_⟩
  · rw [State.llcWords, State.rd_setReg_of_reg _ F.LLC_CMD0_WORD _ (by decide) (by omega) (by omega),
      State.rd_setReg_of_reg _ F.LLC_CMD0_WORD _ (by decide) (by omega) (by omega),
      State.rd_wr_self _ F.LLC_CMD0_WORD _ _ (by decide)]
    exact Nat.mod_eq_of_lt (hop.trans (by decide))
  · rw [State.llcWords, State.rd_setReg_of_reg _ F.LLC_CMD1_WORD _ (by decide) (by omega) (by omega)]
    exact (State.rd_setReg_self _ F.LLC_CMD1_WORD _ _).trans (hget _ ⟨rfl, rfl⟩ c1)
  · exact (State.rd_setReg_self _ F.LLC_CMD2_WORD _ _).trans (hget _ ⟨rfl, rfl⟩ c2)

/-- What a cache command comes to once its checks have answered `e`: its result, and the state. -/
def State.llcResult (s : State) (p e op va n : Nat) : Nat × State :=
  match e, op with
  | 0, 1 => (0, s.llcFlush p va n)
  | 0, 2 => (0, s.llcEvict p va n)
  | 0, 3 => s.llcPin p va n
  | 0, 4 => s.llcUnpin p va n
  | e, _ => (e, s)

/-- A command of an open set runs on its words. -/
theorem State.llcCommand_run {s : State} {k op : Nat} (c1 c2 : Word) (hopen : s.setOpen k) (hk : k < 64) (hop : op < 8) :
    s.llcCommand k op 0 c1 c2 =
      ((s.llcWords k op c1 c2).llcResult (k / 2) ((s.llcWords k op c1 c2).llcCheck (k / 2) op c1.toNat c2.toNat) op c1.toNat
        c2.toNat).2.llcDone k
      ((s.llcWords k op c1 c2).llcResult (k / 2) ((s.llcWords k op c1 c2).llcCheck (k / 2) op c1.toNat c2.toNat) op c1.toNat
        c2.toNat).1 := by
  obtain ⟨h0, h1, h2⟩ := s.llcWords_rd c1 c2 hk hop
  have hzero : (0 : Word).toNat / 256 * 256 + op = op := by simp
  rw [State.llcCommand, if_neg (by rw [hopen]; decide), hzero]
  show (s.llcWords k op c1 c2).llcExec k = _
  rw [State.llcExec, h0, h1, h2]
  rfl

/-- The checks of Table 9-5 pass. -/
theorem State.llcCheck_ok {s : State} {p op va n : Nat} (hop : 0 < op ∧ op ≤ 4) (hva : va % 65536 = 0) (hn : n % 65536 = 0)
    (hpos : 0 < n) (hmax : n ≤ 2 ^ 40) (htop : va + n ≤ 2 ^ 57) (hpages : ∀ a ∈ pagesOf va n, (s.page? p a).isSome) :
    s.llcCheck p op va n = 0 := by
  have hall : ((pagesOf va n).all (fun a => (s.page? p a).isSome)) = true := List.all_eq_true.2 hpages
  rw [State.llcCheck, if_neg (by omega), if_neg (by omega), if_neg (by rw [hall]; decide)]

theorem State.llcCheck_unaligned {s : State} {p op va n : Nat} (hop : 0 < op ∧ op ≤ 4) (hva : va % 65536 ≠ 0) :
    s.llcCheck p op va n = 1 := by
  rw [State.llcCheck, if_neg (by omega), if_pos (.inl hva)]

/-! ### The pin mask -/

section Mask

variable {s : State} {q v : Nat}

/-- The state of a refused write of the pin mask: the flags of what is wrong with it. -/
def State.pinFlags (s : State) (q : Nat) (low taken used : Bool) : State :=
  let s := if low then s.flag F.LLC_PIN_ERR_BAD_WAYS q else s
  let s := if taken then s.flag F.LLC_PIN_ERR_OVERCOMMIT q else s
  if used then s.flag F.LLC_PIN_ERR_IN_USE q else s

theorem State.pinFlags_change (low taken used : Bool) (hq : q < 32) :
    RegChange s (s.pinFlags q low taken used) [(Reg.LLC_PIN_ERR, q)] := by
  have hlow := RegChange.ite (c := low = true) ((RegChange.refl s [(Reg.LLC_PIN_ERR, q)]).wr F.LLC_PIN_ERR_BAD_WAYS q 1
    (by omega) (by simp [F.LLC_PIN_ERR_BAD_WAYS])) (RegChange.refl s _)
  have htaken := RegChange.ite (c := taken = true) (hlow.wr F.LLC_PIN_ERR_OVERCOMMIT q 1 (by omega)
    (by simp [F.LLC_PIN_ERR_OVERCOMMIT])) hlow
  exact RegChange.ite (c := used = true) (htaken.wr F.LLC_PIN_ERR_IN_USE q 1 (by omega) (by simp [F.LLC_PIN_ERR_IN_USE])) htaken

theorem State.pinFlags_badWays (taken used : Bool) :
    (s.pinFlags q true taken used).rdb F.LLC_PIN_ERR_BAD_WAYS q = true := by
  simp only [State.pinFlags, State.rdb, if_true, State.flag]
  simp (disch := first | decide | omega) only [State.rd_ite, State.rd_wr_disjoint, State.rd_wr_self, ite_self]
  rfl

theorem State.pinFlags_inUse (low taken : Bool) : (s.pinFlags q low taken true).rdb F.LLC_PIN_ERR_IN_USE q = true :=
  State.rdb_flag_self _ F.LLC_PIN_ERR_IN_USE q (by decide) (by decide)

/-- Another partition's ways meet those written. -/
def State.waysTaken (s : State) (q ways : Nat) : Bool :=
  (List.range 32).any (fun r => r != q && (s.rd F.LLC_PIN_MASK_WAYS r &&& ways) != 0)

/-- A write of the pin mask: its flags; where it has none, the ways and the pin lease. -/
theorem State.pinMaskWrite_eq : s.pinMaskWrite q v =
    (let low := bitsOf v 0 4 != 0
     let used := !(Tab.get [] s.pinRanges q).isEmpty
     let u := s.pinFlags q low (s.waysTaken q (bitsOf v 4 12)) used
     if low || s.waysTaken q (bitsOf v 4 12) || used then u
     else
       let u := u.wr F.LLC_PIN_MASK_WAYS q (bitsOf v 4 12)
       if bitsOf v 4 12 = 0 then u.setLease leasePin q { u.lease leasePin q with state := 0, holder := 0 }
       else u.grantLease leasePin q q) := rfl

/-- Free ways, none of ways 0 to 3, of a partition that has nothing pinned. -/
theorem State.pinMaskWrite_taken (hv : v < 2 ^ 16) (hlow : v % 16 = 0) (hpos : 0 < v)
    (hfree : ∀ r, r < 32 → r ≠ q → s.rd F.LLC_PIN_MASK_WAYS r &&& (v / 16) = 0) (hnone : Tab.get [] s.pinRanges q = []) :
    s.pinMaskWrite q v = (s.wr F.LLC_PIN_MASK_WAYS q (v / 16)).grantLease leasePin q q := by
  have hways : bitsOf v 4 12 = v / 16 := Nat.mod_eq_of_lt (by omega)
  have hbits : (bitsOf v 0 4 != 0) = false := by
    rw [bitsOf_zero, show v % 2 ^ 4 = 0 from hlow]; rfl
  have htaken : s.waysTaken q (v / 16) = false := by
    refine List.any_eq_false.2 (fun r hr => ?_)
    by_cases hrq : r = q
    · rw [hrq, bne_self_eq_false, Bool.false_and]; exact Bool.false_ne_true
    · rw [hfree r (List.mem_range.1 hr) hrq, bne_self_eq_false, Bool.and_false]; exact Bool.false_ne_true
  rw [State.pinMaskWrite_eq, hways, hbits, htaken, hnone]
  exact (if_neg (by decide)).trans (if_neg (by omega))

theorem State.pinMask_leaves (hq : q < 32) (hv : v < 2 ^ 16) :
    ((s.wr F.LLC_PIN_MASK_WAYS q (v / 16)).grantLease leasePin q q).rd F.LLC_PIN_MASK_WAYS q = v / 16 ∧
      ((s.wr F.LLC_PIN_MASK_WAYS q (v / 16)).grantLease leasePin q q).holds leasePin q q = true ∧
      (s.wr F.LLC_PIN_MASK_WAYS q (v / 16)).grantLease leasePin q q =
        { s with regs := ((s.wr F.LLC_PIN_MASK_WAYS q (v / 16)).grantLease leasePin q q).regs,
                 leases := ((s.wr F.LLC_PIN_MASK_WAYS q (v / 16)).grantLease leasePin q q).leases } ∧
      regsBut s ((s.wr F.LLC_PIN_MASK_WAYS q (v / 16)).grantLease leasePin q q) [(Reg.LLC_PIN_MASK, q)] := by
  refine ⟨?_, ?_, rfl, regsBut_of_regs_of (regsBut_wr s F.LLC_PIN_MASK_WAYS q (v / 16) (by omega)) rfl⟩
  · exact (State.rd_wr_self s F.LLC_PIN_MASK_WAYS q (v / 16) (by decide)).trans
      (Nat.mod_eq_of_lt (show v / 16 < 2 ^ 12 by omega))
  · rw [State.holds, State.lease, State.grantLease, State.setLease, Tab.get_set_self]
    exact Bool.and_eq_true_iff.2 ⟨rfl, beq_self_eq_true q⟩

/-- Ways 0 to 3, or a range that is pinned: the write is refused, and says why. -/
theorem State.pinMaskWrite_refused (hq : q < 32) (hbad : v % 16 ≠ 0 ∨ Tab.get [] s.pinRanges q ≠ []) :
    RegChange s (s.pinMaskWrite q v) [(Reg.LLC_PIN_ERR, q)] ∧
      (v % 16 ≠ 0 → (s.pinMaskWrite q v).rdb F.LLC_PIN_ERR_BAD_WAYS q = true) ∧
      (Tab.get [] s.pinRanges q ≠ [] → (s.pinMaskWrite q v).rdb F.LLC_PIN_ERR_IN_USE q = true) := by
  have hlow : v % 16 ≠ 0 → (bitsOf v 0 4 != 0) = true := fun h => by rw [bitsOf_zero]; exact bne_iff_ne.2 h
  have hused : Tab.get [] s.pinRanges q ≠ [] → (!(Tab.get [] s.pinRanges q).isEmpty) = true := fun h => by
    rw [List.isEmpty_eq_false_iff.2 h]; rfl
  have hrun : s.pinMaskWrite q v = s.pinFlags q (bitsOf v 0 4 != 0) (s.waysTaken q (bitsOf v 4 12))
      (!(Tab.get [] s.pinRanges q).isEmpty) := by
    rw [State.pinMaskWrite_eq]
    refine if_pos ?_
    rcases hbad with h | h
    · rw [hlow h]; rfl
    · rw [hused h, Bool.or_true]
  rw [hrun]
  refine ⟨State.pinFlags_change _ _ _ hq, fun h => ?_, fun h => ?_⟩
  · rw [hlow h]; exact State.pinFlags_badWays _ _
  · rw [hused h]; exact State.pinFlags_inUse _ _

end Mask

end Sys2Proof.Machine

namespace Sys2Proof

open Sys2Proof.Machine

/-- Settles O32: the checks decide a command; a mask is taken where nothing is wrong with it. -/
theorem cacheCommandsAndPins : Obligations.CacheCommandsAndPins := by
  unfold Obligations.CacheCommandsAndPins
  refine ⟨fun set c1 c2 s hopen => ?commands, fun p ways s hheld => ?mask⟩
  case commands =>
    intro k q x done ok
    have hk : k < 64 := set.isLt
    have hcheck (op : Nat) (hop : 0 < op ∧ op ≤ 4) (h : ok op) :
        (s.llcWords k op c1 c2).llcCheck (k / 2) op c1.toNat c2.toNat = 0 := by
      obtain ⟨hva, hn, hpos, hmax, htop, hpages⟩ := h
      exact State.llcCheck_ok hop hva hn hpos hmax htop hpages
    refine ⟨fun h => ?_, fun h => ?_, fun h => ?_, fun h => ?_, fun h => ?_⟩
    · exact congrArg Host.Outcome.next ((State.llcCommand_run c1 c2 hopen hk (by decide)).trans
        (by rw [hcheck 1 (by decide) h]; rfl))
    · exact congrArg Host.Outcome.next ((State.llcCommand_run c1 c2 hopen hk (by decide)).trans
        (by rw [hcheck 2 (by decide) h]; rfl))
    · exact congrArg Host.Outcome.next ((State.llcCommand_run c1 c2 hopen hk (by decide)).trans
        (by rw [hcheck 3 (by decide) h]; rfl))
    · exact congrArg Host.Outcome.next ((State.llcCommand_run c1 c2 hopen hk (by decide)).trans
        (by rw [hcheck 4 (by decide) h]; rfl))
    · exact congrArg Host.Outcome.next ((State.llcCommand_run c1 c2 hopen hk (by decide)).trans
        (by rw [State.llcCheck_unaligned (by decide) h]; rfl))
  case mask =>
    intro q free
    have hq : q < 32 := p.isLt
    have hexec : exec (.llcPinMaskWrite p ways) s = .next (s.pinMaskWrite q ways.toNat) :=
      congrArg Host.Outcome.next (if_neg (by rw [hheld]; decide))
    refine ⟨fun hlow hpos hfree hnone => ?_, fun hlow => ?_, fun hused => ?_⟩
    · exact ⟨_, hexec.trans (congrArg Host.Outcome.next (State.pinMaskWrite_taken ways.isLt hlow hpos hfree hnone)),
        State.pinMask_leaves hq ways.isLt⟩
    · obtain ⟨hchange, hbad, -⟩ := State.pinMaskWrite_refused (s := s) (v := ways.toNat) hq (.inl hlow)
      exact ⟨_, hexec, hchange.only, hbad hlow, hchange.rd_of_reg F.LLC_PIN_MASK_WAYS (by omega) rfl⟩
    · obtain ⟨hchange, -, huse⟩ := State.pinMaskWrite_refused (s := s) (v := ways.toNat) hq (.inr hused)
      exact ⟨_, hexec, hchange.only, huse hused, hchange.rd_of_reg F.LLC_PIN_MASK_WAYS (by omega) rfl⟩

end Sys2Proof
end

section
/-! SUPPORT. Settles O46: the throttle procedure, sensor samples and trips, PWRBRK_L and PWRFAIL_L (sections 16.8, 19.4). -/

namespace Sys2Proof.Machine

/-- Only registers of the list changed, at any number. -/
structure RegsTouched (s t : State) (l : List Reg) : Prop where
  only : onlyRegs s t
  but : ∀ r i, i < 131072 → r ∉ l → t.reg r i = s.reg r i

namespace RegsTouched

variable {s t u : State} {l m : List Reg}

theorem refl (s : State) (l : List Reg) : RegsTouched s s l := ⟨onlyRegs_refl s, fun _ _ _ _ => rfl⟩

theorem trans (h : RegsTouched s t l) (k : RegsTouched t u l) : RegsTouched s u l :=
  ⟨onlyRegs_trans h.only k.only, fun r i hi hn => (k.but r i hi hn).trans (h.but r i hi hn)⟩

theorem mono (h : RegsTouched s t l) (hs : ∀ r ∈ l, r ∈ m) : RegsTouched s t m :=
  ⟨h.only, fun r i hi hn => h.but r i hi (fun hr => hn (hs r hr))⟩

theorem wr (h : RegsTouched s t l) (f : Fld) (i v : Nat) (hi : i < 131072) (hm : f.reg ∈ l) :
    RegsTouched s (t.wr f i v) l :=
  ⟨onlyRegs_wr_of f i v h.only, fun r j hj hn =>
    (State.reg_setReg_of_key_ne _ _ (Reg.key_ne_of_reg (fun e => hn (by rw [e]; exact hm)) hi hj)).trans (h.but r j hj hn)⟩

theorem ite {c : Prop} [Decidable c] (h : RegsTouched s t l) (k : RegsTouched s u l) :
    RegsTouched s (if c then t else u) l := by
  split
  · exact h
  · exact k

theorem foldl {α : Type} {f : State → α → State} (xs : List α) (hf : ∀ x ∈ xs, ∀ u, RegsTouched s u l → RegsTouched s (f u x) l)
    (h : RegsTouched s t l) : RegsTouched s (xs.foldl f t) l := by
  induction xs generalizing t with
  | nil => exact h
  | cons x xs ih => exact ih (fun y hy => hf y (List.mem_cons_of_mem x hy)) (hf x List.mem_cons_self t h)

theorem rd (h : RegsTouched s t l) (f : Fld) (i : Nat) (hi : i < 131072) (hn : f.reg ∉ l) :
    t.rd f i = s.rd f i := congrArg f.get (h.but f.reg i hi hn)

/-- What is not a register is as before. -/
theorem keeps {α : Type} (h : RegsTouched s t l) (g : State → α) (hg : g { s with regs := t.regs } = g s) : g t = g s :=
  (congrArg g h.only).trans hg

/-- Registers that differ only at one number. -/
theorem ofChange {l : List (Reg × Nat)} (h : RegChange s t l) : RegsTouched s t (l.map Prod.fst) :=
  ⟨h.only, fun r i hi hn => h.but r i hi (fun hm => hn (List.mem_map.2 ⟨(r, i), hm, rfl⟩))⟩

end RegsTouched

/-! ### Sensor samples (R662, R667) -/

/-- The registers that show the sensors. -/
def sensorRegs : List Reg := [Reg.PWR_TEMP_DIE, Reg.PWR_TEMP_HBM, Reg.PWR_TEMP_MAX, Reg.PWR_POWER, Reg.PWR_RAIL_MV]

theorem State.sampleTemps_touches {s t : State} {fT fV : Fld} (online : Nat → Bool) (l : List (Option Nat)) (n : Nat) (hn : n ≤ 8)
    (hT : fT.reg ∈ sensorRegs) (hV : fV.reg ∈ sensorRegs) (h : RegsTouched s t sensorRegs) :
    RegsTouched s (t.sampleTemps fT fV online l n) sensorRegs := by
  induction n with
  | zero => exact h
  | succ n ih =>
    have hrest := ih (by omega)
    exact ((hrest.wr fT n _ (by omega) hT).wr fV n _ (by omega) hV).ite ((hrest.wr fT n _ (by omega) hT).wr fV n _ (by omega) hV)

theorem State.sampleRails_touches (s : State) (i : Nat) (rails : List Nat) :
    RegsTouched s (s.sampleRails i rails) [Reg.PWR_RAIL_MV] := by
  induction rails generalizing s i with
  | nil => exact RegsTouched.refl s _
  | cons v rails ih =>
    refine RegsTouched.trans ?_ (ih _ (i + 1))
    split
    · exact (RegsTouched.refl s _).wr F.PWR_RAIL_MV_MV i v (by omega) (by decide)
    · exact RegsTouched.refl s _

/-- A sample writes the sensor registers, then the comparator acts. -/
theorem exec_sensorSample {s : State} (hheld : s.pins.held = false) (dies hbm : List (Option Nat)) (power : Nat) (rails : List Nat) :
    ∃ u, exec (.sensorSample dies hbm power rails) s = .next (u.tripCheck dies hbm) ∧ RegsTouched s u sensorRegs ∧
      u.rd F.PWR_POWER_MW 0 = power % 2 ^ F.PWR_POWER_MW.width := by
  have hdie := State.sampleTemps_touches (fT := F.PWR_TEMP_DIE_TEMP) (fV := F.PWR_TEMP_DIE_VALID) s.dieOnline dies 8 (le_refl 8)
    (by decide) (by decide) (RegsTouched.refl s sensorRegs)
  have hhbm := fun online => State.sampleTemps_touches (fT := F.PWR_TEMP_HBM_TEMP) (fV := F.PWR_TEMP_HBM_VALID) online hbm 8
    (le_refl 8) (by decide) (by decide) hdie
  show ∃ u, execSensorSample dies hbm power rails s = _ ∧ _
  unfold execSensorSample State.live
  rw [if_neg (by rw [hheld]; decide)]
  dsimp only
  generalize State.hottest _ 16 = x
  obtain ⟨temp, source⟩ := x
  dsimp only
  exact ⟨_, rfl, ((((hhbm _).wr F.PWR_TEMP_MAX_TEMP 0 _ (by decide) (by decide)).wr
    F.PWR_TEMP_MAX_SOURCE 0 _ (by decide) (by decide)).wr F.PWR_POWER_MW 0 power (by decide) (by decide)).trans
    ((State.sampleRails_touches _ 0 rails).mono (by decide)),
    ((State.sampleRails_touches _ 0 rails).rd F.PWR_POWER_MW 0 (by decide) (by decide)).trans
    (State.rd_wr_self _ F.PWR_POWER_MW 0 power (by decide))⟩

/-- A sample does not change which sensors are online. -/
theorem RegsTouched.online {s t : State} (h : RegsTouched s t sensorRegs) :
    t.dieOnline = s.dieOnline ∧ t.stackOnline = s.stackOnline := by
  have hvariant : t.variant = s.variant := h.keeps State.variant rfl
  constructor <;> funext n
  · rw [State.dieOnline, State.dieOnline, h.rd F.SYS_TOPOLOGY_MEADOW_ONLINE 0 (by decide) (by decide), hvariant]
  · rw [State.stackOnline, State.stackOnline, h.rd F.SYS_HBM_STATUS_ONLINE 0 (by decide) (by decide)]

theorem State.tripCheck_cool {s : State} {dies hbm : List (Option Nat)} (hd : maxReading s.dieOnline dies 8 < 110 * 16)
    (hh : maxReading s.stackOnline hbm 8 < 100 * 16) : s.tripCheck dies hbm = { s with overRun := 0 } := by
  rw [State.tripCheck, decide_eq_false (Nat.not_le.2 hd), decide_eq_false (Nat.not_le.2 hh), Bool.or_self, Bool.not_false,
    if_pos rfl]

theorem State.tripCheck_third {s : State} {dies hbm : List (Option Nat)} (hd : 110 * 16 ≤ maxReading s.dieOnline dies 8)
    (hrun : s.overRun = 2) :
    s.tripCheck dies hbm = ({ s with overRun := 3, pins := { s.pins with thermTripLow := true } }).hold := by
  rw [State.tripCheck, decide_eq_true hd, Bool.true_or, if_neg (by decide), hrun, if_neg (by decide)]

/-! ### The throttle procedure (R663 to R665) -/

/-- The registers after a tick that sets level `next`: `t`, `p` and `hot` say which flags it raises. -/
def State.throttled (s : State) (next : Nat) (t p hot : Bool) : State :=
  let s := s.wr F.PWR_THROTTLE_STATUS_LEVEL 0 next
  let s := if t then s.flag F.PWR_THROTTLE_STATUS_THERMAL 0 else s
  let s := if p then s.flag F.PWR_THROTTLE_STATUS_POWER 0 else s
  let s := if hot then s.flag F.PWR_THROTTLE_STATUS_OVER_TJ 0 else s
  if 0 < next then s.sat F.PWR_THROTTLE_STATUS_MS 0 1 else s

theorem State.throttled_change (s : State) (next : Nat) (t p hot : Bool) :
    RegChange s (s.throttled next t p hot) [(Reg.PWR_THROTTLE_STATUS, 0)] := by
  unfold State.throttled
  extract_lets s1 s2 s3 s4
  have h1 : RegChange s s1 [(Reg.PWR_THROTTLE_STATUS, 0)] :=
    (RegChange.refl s _).wr F.PWR_THROTTLE_STATUS_LEVEL 0 next (by decide) (by decide)
  have h2 : RegChange s s2 [(Reg.PWR_THROTTLE_STATUS, 0)] :=
    (h1.wr F.PWR_THROTTLE_STATUS_THERMAL 0 1 (by decide) (by decide)).ite h1
  have h3 : RegChange s s3 [(Reg.PWR_THROTTLE_STATUS, 0)] := (h2.wr F.PWR_THROTTLE_STATUS_POWER 0 1 (by decide) (by decide)).ite h2
  have h4 : RegChange s s4 [(Reg.PWR_THROTTLE_STATUS, 0)] :=
    (h3.wr F.PWR_THROTTLE_STATUS_OVER_TJ 0 1 (by decide) (by decide)).ite h3
  exact (h4.wr F.PWR_THROTTLE_STATUS_MS 0 _ (by decide) (by decide)).ite h4

theorem State.rd_level_throttled (s : State) {next : Nat} (t p hot : Bool) (hn : next ≤ 7) :
    (s.throttled next t p hot).rd F.PWR_THROTTLE_STATUS_LEVEL 0 = next := by
  simp only [State.throttled, State.flag, State.sat]
  simp (disch := decide) only [State.rd_ite, State.rd_wr_disjoint, State.rd_wr_self, ite_self]
  exact Nat.mod_eq_of_lt (Nat.lt_succ_of_le hn)

theorem throttleLevel_le (level : Nat) (brk hot cool : Bool) (h : level ≤ 7) : throttleLevel level brk hot cool ≤ 7 := by
  unfold throttleLevel
  split_ifs <;> omega

/-- One tick moves the level by at most one, but to 7 while PWRBRK_L is low. -/
theorem throttleLevel_spec (level : Nat) (brk hot cool : Bool) (h : level ≤ 7) :
    throttleLevel level brk hot cool ≤ 7 ∧ (throttleLevel level brk hot cool ≤ level + 1 ∨ brk = true) ∧
    level - 1 ≤ throttleLevel level brk hot cool ∧ throttleLevel level true hot cool = 7 ∧
    throttleLevel level false true cool = min (level + 1) 7 ∧
    throttleLevel level false false true = level - 1 ∧ throttleLevel level false false false = level := by
  refine ⟨throttleLevel_le level brk hot cool h, ?_, ?_, rfl, rfl, rfl, rfl⟩
  · cases brk
    · left
      rw [throttleLevel, if_neg Bool.false_ne_true]
      split_ifs <;> omega
    · exact .inr rfl
  · unfold throttleLevel
    split_ifs <;> omega

/-- What makes R663 raise the level, and what lets it fall. -/
theorem throttle_conditions (c d h l p : Nat) :
    ((decide (c * 16 ≤ d) || decide (85 * 16 ≤ h)) || decide (l * 1000 < p)) =
      decide (c * 16 ≤ d ∨ 85 * 16 ≤ h ∨ l * 1000 < p) ∧
    (decide (d < (c - 3) * 16) && decide (h < 82 * 16) && decide (p * 100 < l * 95000)) =
      decide (d < (c - 3) * 16 ∧ h < 82 * 16 ∧ p * 100 < l * 95000) := by
  simp only [Bool.decide_or, Bool.decide_and, Bool.or_assoc, Bool.and_assoc, and_self]

/-- The level a tick sets. -/
def State.nextLevel (s : State) : Nat :=
  throttleLevel (s.rd F.PWR_THROTTLE_STATUS_LEVEL 0) s.pins.pwrbrkLow
    (decide (s.throttleC * 16 ≤ s.tDie ∨ 85 * 16 ≤ s.tHbm ∨ s.powerLimit * 1000 < s.rd F.PWR_POWER_MW 0))
    (decide (s.tDie < (s.throttleC - 3) * 16 ∧ s.tHbm < 82 * 16 ∧ s.rd F.PWR_POWER_MW 0 * 100 < s.powerLimit * 95000))

theorem State.nextLevel_le (s : State) : s.nextLevel ≤ 7 :=
  throttleLevel_le _ _ _ _ (Nat.le_of_lt_succ (Fld.get_lt F.PWR_THROTTLE_STATUS_LEVEL _))

theorem exec_throttleTick {s : State} (hheld : s.pins.held = false) :
    ∃ t p, exec .throttleTick s = .next (({ s with overTj := decide (100 * 16 ≤ s.tDie) }.throttled s.nextLevel t p
      (decide (100 * 16 ≤ s.tDie))).thermAlert) := by
  have hlive : exec .throttleTick s = _ := congrArg Host.Outcome.next (if_neg (by rw [hheld]; decide))
  dsimp only at hlive
  rw [(throttle_conditions _ _ _ _ _).1, (throttle_conditions _ _ _ _ _).2] at hlive
  exact ⟨_, _, hlive⟩

theorem State.thermAlert_leaves (s : State) : s.thermAlert.regs = s.regs ∧ s.thermAlert = { s with pins := s.thermAlert.pins } ∧
    s.thermAlert.pins.thermAlertLow = (decide (0 < s.rd F.PWR_THROTTLE_STATUS_LEVEL 0) || s.overTj) := by
  refine ⟨rfl, rfl, congrArg (· || s.overTj) (Bool.eq_iff_iff.2 ?_)⟩
  rw [State.rdb, bne_iff_ne, decide_eq_true_iff, Nat.pos_iff_ne_zero]

theorem throttleTick_sets {s : State} (hheld : s.pins.held = false) :
    ∃ t, exec .throttleTick s = .next t ∧ t = { s with regs := t.regs, pins := t.pins, overTj := decide (100 * 16 ≤ s.tDie) } ∧
      t.rd F.PWR_THROTTLE_STATUS_LEVEL 0 = s.nextLevel ∧
      t.pins.thermAlertLow = (decide (0 < t.rd F.PWR_THROTTLE_STATUS_LEVEL 0) || decide (100 * 16 ≤ s.tDie)) ∧
      regsBut s t [(Reg.PWR_THROTTLE_STATUS, 0)] := by
  obtain ⟨t, p, hx⟩ := exec_throttleTick hheld
  have hc := State.throttled_change { s with overTj := decide (100 * 16 ≤ s.tDie) } s.nextLevel t p (decide (100 * 16 ≤ s.tDie))
  have hl := State.rd_level_throttled { s with overTj := decide (100 * 16 ≤ s.tDie) } t p (decide (100 * 16 ≤ s.tDie)) s.nextLevel_le
  revert hx hc hl
  generalize { s with overTj := decide (100 * 16 ≤ s.tDie) }.throttled s.nextLevel t p (decide (100 * 16 ≤ s.tDie)) = u
  intro hx hc hl
  have hover : u.overTj = decide (100 * 16 ≤ s.tDie) := congrArg State.overTj (show u = _ from hc.only)
  obtain ⟨hregs, hframe, halert⟩ := u.thermAlert_leaves
  refine ⟨_, hx, ?_, hl, by rw [halert, hover]; rfl, fun r i hi hn => hc.but r i hi hn⟩
  exact hframe.trans (congrArg (fun v : State => { v with pins := u.thermAlert.pins }) (show u = _ from hc.only))

theorem exec_pwrbrkFall {s : State} (hheld : s.pins.held = false) :
    exec .pwrbrkFall s = .next ((({ s with pins := { s.pins with pwrbrkLow := true } }.wr F.PWR_THROTTLE_STATUS_LEVEL 0 7).flag
      F.PWR_THROTTLE_STATUS_PWRBRK 0).thermAlert) :=
  congrArg Host.Outcome.next (if_neg (by rw [show (State.pins _).held = _ from hheld]; decide))

theorem pwrbrkFall_sets {s : State} (hheld : s.pins.held = false) :
    ∃ t, exec .pwrbrkFall s = .next t ∧ t.rd F.PWR_THROTTLE_STATUS_LEVEL 0 = 7 ∧
      t.rdb F.PWR_THROTTLE_STATUS_PWRBRK 0 = true ∧ t.pins.pwrbrkLow = true ∧ t.pins.thermAlertLow = true ∧
      t = { s with regs := t.regs, pins := t.pins } := by
  have hlevel : ∀ u : State, ((u.wr F.PWR_THROTTLE_STATUS_LEVEL 0 7).flag F.PWR_THROTTLE_STATUS_PWRBRK 0).rd
      F.PWR_THROTTLE_STATUS_LEVEL 0 = 7 := fun u =>
    (State.rd_wr_disjoint _ F.PWR_THROTTLE_STATUS_PWRBRK F.PWR_THROTTLE_STATUS_LEVEL 0 1 rfl (by decide) (by decide)).trans
      (State.rd_wr_self u F.PWR_THROTTLE_STATUS_LEVEL 0 7 (by decide))
  refine ⟨_, exec_pwrbrkFall hheld, hlevel _, State.rdb_flag_self _ F.PWR_THROTTLE_STATUS_PWRBRK 0 (by decide) (by decide),
    rfl, ?_, rfl⟩
  rw [(State.thermAlert_leaves _).2.2, hlevel]
  rfl

/-! ### PWRFAIL_L (R550, R603, R605) -/

/-- The engine's final frame leaves memory, Frank and every register but the tally's. -/
theorem State.finalFrame_leaves (s : State) : s.finalFrame.mem = s.mem ∧ s.finalFrame.frank = s.frank ∧ s.finalFrame.pins = s.pins ∧
    ∀ (f : Fld) (i : Nat), i < 131072 → f.reg ≠ Reg.FRK_TALLY_STATUS → s.finalFrame.rd f i = s.rd f i := by
  have hwr : ∀ (u : State) (f : Fld) (i : Nat), i < 131072 → f.reg ≠ Reg.FRK_TALLY_STATUS →
      (u.wr F.FRK_TALLY_STATUS_UNACKED 0 1).rd f i = u.rd f i := fun u f i hi hf =>
    State.rd_wr_reg u F.FRK_TALLY_STATUS_UNACKED f 1 hf (by decide) hi
  unfold State.finalFrame State.tallySend
  split
  · split
    · exact ⟨rfl, rfl, rfl, fun f i _ _ => rfl⟩
    · dsimp only
      split
      · exact ⟨rfl, rfl, rfl, fun f i hi hf => hwr _ f i hi hf⟩
      · exact ⟨rfl, rfl, rfl, fun f i hi hf => hwr _ f i hi hf⟩
  · exact ⟨rfl, rfl, rfl, fun f i _ _ => rfl⟩

/-- PWRFAIL_STATUS shows the fall. -/
def State.pwrfailShown (s : State) : State :=
  ((s.wr F.PWR_PWRFAIL_STATUS_LEVEL 0 1).flag F.PWR_PWRFAIL_STATUS_SEEN 0).sat F.PWR_PWRFAIL_STATUS_COUNT 0 1

/-- A configuration command in progress ends POWER_FAIL. -/
def State.cfgsPowerFail (s : State) : State :=
  if s.rdb F.MGT_CFGS_CTRL_GO 0 then
    ((s.wr F.MGT_CFGS_STATUS_RESULT 0 5).flag F.MGT_CFGS_STATUS_DONE 0).wr F.MGT_CFGS_CTRL_GO 0 0 else s

theorem State.pwrfailShown_shows (s : State) : s.pwrfailShown.rdb F.PWR_PWRFAIL_STATUS_LEVEL 0 = true ∧
    s.pwrfailShown.rdb F.PWR_PWRFAIL_STATUS_SEEN 0 = true ∧
    RegsTouched s s.pwrfailShown [Reg.PWR_PWRFAIL_STATUS] := by
  refine ⟨?_, ?_, (((RegsTouched.refl s _).wr F.PWR_PWRFAIL_STATUS_LEVEL 0 1 (by decide) (by decide)).wr
    F.PWR_PWRFAIL_STATUS_SEEN 0 1 (by decide) (by decide)).wr
    F.PWR_PWRFAIL_STATUS_COUNT 0 _ (by decide) (by decide)⟩ <;>
  · simp only [State.pwrfailShown, State.flag, State.sat, State.rdb]
    simp (disch := decide) only [State.rd_wr_disjoint, State.rd_wr_self]
    decide

theorem State.cfgsPowerFail_ends (s : State) : s.cfgsPowerFail.rdb F.MGT_CFGS_CTRL_GO 0 = false ∧
    (s.rdb F.MGT_CFGS_CTRL_GO 0 → s.cfgsPowerFail.rd F.MGT_CFGS_STATUS_RESULT 0 = 5) ∧
    RegsTouched s s.cfgsPowerFail [Reg.MGT_CFGS_STATUS, Reg.MGT_CFGS_CTRL] := by
  unfold State.cfgsPowerFail
  split
  · refine ⟨?_, fun _ => ?_, (((RegsTouched.refl s _).wr F.MGT_CFGS_STATUS_RESULT 0 5 (by decide) (by decide)).wr
      F.MGT_CFGS_STATUS_DONE 0 1 (by decide) (by decide)).wr
      F.MGT_CFGS_CTRL_GO 0 0 (by decide) (by decide)⟩
    · rw [State.rdb, State.rd_wr_self _ F.MGT_CFGS_CTRL_GO 0 0 (by decide)]
      decide
    · simp (disch := decide) only [State.flag, State.rd_wr_reg, State.rd_wr_disjoint, State.rd_wr_self]
      decide
  · next hgo => exact ⟨Bool.eq_false_iff.2 hgo, fun h => absurd h hgo, RegsTouched.refl s _⟩

theorem exec_pwrfailFall {s : State} (hheld : s.pins.held = false) (hlevel : s.rdb F.PWR_PWRFAIL_STATUS_LEVEL 0 = false) :
    exec .pwrfailFall s = .next (({ s with pins := { s.pins with pwrfailLow := true } }.finalFrame.pwrfailShown.cfgsPowerFail).emit
      (.pldmEvent 0)) :=
  congrArg Host.Outcome.next (if_neg (by
    show ¬(s.rdb F.PWR_PWRFAIL_STATUS_LEVEL 0 || s.pins.held) = true
    rw [hlevel, hheld]; decide))

theorem pwrfailFall_shows {s : State} (hheld : s.pins.held = false) (hlevel : s.rdb F.PWR_PWRFAIL_STATUS_LEVEL 0 = false) :
    ∃ t, exec .pwrfailFall s = .next t ∧
    t.rdb F.PWR_PWRFAIL_STATUS_LEVEL 0 = true ∧ t.rdb F.PWR_PWRFAIL_STATUS_SEEN 0 = true ∧ t.pins.pwrfailLow = true ∧
    t.rdb F.MGT_CFGS_CTRL_GO 0 = false ∧ (s.rdb F.MGT_CFGS_CTRL_GO 0 → t.rd F.MGT_CFGS_STATUS_RESULT 0 = 5) ∧
    t.mem = s.mem ∧ t.frank = s.frank := by
  refine ⟨_, exec_pwrfailFall hheld hlevel, ?_⟩
  obtain ⟨hmem, hfrank, hpins, hregs⟩ := { s with pins := { s.pins with pwrfailLow := true } }.finalFrame_leaves
  revert hmem hfrank hpins hregs
  generalize { s with pins := { s.pins with pwrfailLow := true } }.finalFrame = u
  intro hmem hfrank hpins hregs
  obtain ⟨hlow, hseen, hshown⟩ := u.pwrfailShown_shows
  obtain ⟨hgo, hresult, hends⟩ := u.pwrfailShown.cfgsPowerFail_ends
  have honly : u.pwrfailShown.cfgsPowerFail = _ := onlyRegs_trans hshown.only hends.only
  refine ⟨?_, ?_, ?_, hgo, fun h => hresult ?_, ?_, ?_⟩
  · exact (congrArg (· != 0) (hends.rd F.PWR_PWRFAIL_STATUS_LEVEL 0 (by decide) (by decide))).trans hlow
  · exact (congrArg (· != 0) (hends.rd F.PWR_PWRFAIL_STATUS_SEEN 0 (by decide) (by decide))).trans hseen
  · exact (congrArg (·.pins.pwrfailLow) honly).trans (congrArg Pins.pwrfailLow hpins)
  · rw [State.rdb, hshown.rd F.MGT_CFGS_CTRL_GO 0 (by decide) (by decide), hregs F.MGT_CFGS_CTRL_GO 0 (by decide) (by decide)]
    exact h
  · exact (congrArg State.mem honly).trans hmem
  · exact (congrArg State.frank honly).trans hfrank

theorem exec_pwrfailRise {s : State} (hheld : s.pins.held = false) :
    exec .pwrfailRise s = .next ({ s with pins := { s.pins with pwrfailLow := false } }.wr F.PWR_PWRFAIL_STATUS_LEVEL 0 0) :=
  congrArg Host.Outcome.next (if_neg (by rw [show (State.pins _).held = _ from hheld]; decide))

end Sys2Proof.Machine

namespace Sys2Proof
open Sys2Proof.Machine

/-- Settles O46: the throttle level by cases of R663; a sample's registers leave the comparator's inputs alone, so it trips at
the third hot sample. -/
theorem powerAndThrottling : Obligations.PowerAndThrottling := by
  refine ⟨throttleLevel_spec, fun s hheld => ⟨throttleTick_sets hheld, pwrbrkFall_sets hheld, ?_, ?_⟩,
    fun s => ⟨_, rfl, rfl, rfl⟩, fun s => pwrfailFall_shows, fun s hheld => ⟨_, exec_pwrfailRise hheld, rfl, ?_, rfl, ?_⟩⟩
  · intro dies hbm power rails hrun hhot
    obtain ⟨u, hx, hu, -⟩ := exec_sensorSample hheld dies hbm power rails
    exact ⟨_, hx.trans (congrArg Host.Outcome.next (State.tripCheck_third
      (by rw [hu.online.1]; exact hhot) ((hu.keeps State.overRun rfl).trans hrun))), rfl, rfl, hu.keeps State.mem rfl⟩
  · intro dies hbm power rails hdie hstack hpower
    obtain ⟨u, hx, hu, hp⟩ := exec_sensorSample hheld dies hbm power rails
    exact ⟨_, hx.trans (congrArg Host.Outcome.next (State.tripCheck_cool
      (by rw [hu.online.1]; exact hdie) (by rw [hu.online.2]; exact hstack))), rfl, hu.keeps State.pins rfl,
      hp, (congrArg (fun v : State => { v with overRun := 0 }) hu.only :)⟩
  · rw [State.rdb, State.rd_wr_self _ F.PWR_PWRFAIL_STATUS_LEVEL 0 0 (by decide)]
    decide
  · exact (RegChange.refl _ _).wr F.PWR_PWRFAIL_STATUS_LEVEL 0 0 (by decide) (by decide) |>.but

end Sys2Proof
end

section
/-! SUPPORT. Settles O44: what resets leave, and when they act (sections 16.1, 16.6 and 19.1). -/

namespace Sys2Proof.Machine

/-- The state a warm reset works on: everything but the registers wiped, the registers at their warm values (Table 16-7). -/
def State.warmWiped (s : State) : State := { s.wipe s.err.retired s.err.retireList with regs := resetRegs .warm s.regs }

/-- The registers a warm reset leaves, for the cause `bit` and the phase `ph`. -/
def State.warmRegs (s : State) (bit ph : Nat) : State :=
  let u := (s.warmWiped.cause bit).wr F.SYS_RESET_CAUSE_WARM_COUNT 0 (min (s.rd F.SYS_RESET_CAUSE_WARM_COUNT 0 + 1) 4095)
  (if s.boot.escalate then u.wr F.SYS_RESET_CAUSE_ESCALATION 0 1 else u).setPhase ph

/-- A warm reset of a device that is not held: it begins at ROM unless HOST PERST_L is low. -/
theorem State.warmReset_running {s : State} (hheld : s.pins.held = false) (bit : Nat) :
    s.warmReset bit = s.warmRegs bit (if s.pins.hostPerstLow then 0 else phRom) := by
  rw [State.warmReset, if_neg (by rw [hheld]; decide)]
  unfold State.warmRegs
  cases s.boot.escalate <;> rfl

theorem State.warmReset_held {s : State} (hheld : s.pins.held = true) (bit : Nat) : s.warmReset bit = s := if_pos hheld

/-- A reset writes registers only, once the state is wiped. -/
theorem State.warmRegs_only (s : State) (bit ph : Nat) : onlyRegs s.warmWiped (s.warmRegs bit ph) := by
  unfold State.warmRegs
  dsimp only
  split <;> rfl

theorem State.phase_setPhase (s : State) {ph : Nat} (h : ph < 16) : (s.setPhase ph).phase = ph :=
  (State.rd_wr_self s F.SYS_START_STATUS_PHASE 0 ph (by decide)).trans (Nat.mod_eq_of_lt h)

theorem State.rd_setPhase (s : State) (f : Fld) (i ph : Nat) (hf : f.reg ≠ Reg.SYS_START_STATUS)
    (hi : i < 131072) : (s.setPhase ph).rd f i = s.rd f i :=
  State.rd_wr_reg s F.SYS_START_STATUS_PHASE f ph hf (by decide) hi

/-- What a warm reset leaves of SYS_RESET_CAUSE and the phase (Table 16-9). -/
theorem State.warmRegs_cause (s : State) (bit : Nat) {ph : Nat} (h : ph < 16) :
    (s.warmRegs bit ph).phase = ph ∧
    (s.warmRegs bit ph).rd F.SYS_RESET_CAUSE_LAST 0 = bit % 2 ^ F.SYS_RESET_CAUSE_LAST.width ∧
    (s.warmRegs bit ph).rd F.SYS_RESET_CAUSE_WARM_COUNT 0 = min (s.rd F.SYS_RESET_CAUSE_WARM_COUNT 0 + 1) 4095 ∧
    (s.boot.escalate = true → (s.warmRegs bit ph).rd F.SYS_RESET_CAUSE_ESCALATION 0 = 1) := by
  have hcount : min (s.rd F.SYS_RESET_CAUSE_WARM_COUNT 0 + 1) 4095 % 2 ^ F.SYS_RESET_CAUSE_WARM_COUNT.width =
      min (s.rd F.SYS_RESET_CAUSE_WARM_COUNT 0 + 1) 4095 :=
    Nat.mod_eq_of_lt (show _ < 4096 by omega)
  refine ⟨State.phase_setPhase _ h, ?_, ?_, fun hesc => ?_⟩ <;> simp only [State.warmRegs, State.setPhase, State.cause]
  · simp (disch := decide) only [State.rd_ite, State.rd_wr_reg, State.rd_wr_disjoint, State.rd_wr_self, ite_self]
  · simp (disch := decide) only [State.rd_ite, State.rd_wr_reg, State.rd_wr_disjoint, State.rd_wr_self, ite_self, hcount]
  · rw [if_pos hesc]
    simp (disch := decide) only [State.rd_wr_reg, State.rd_wr_self]
    decide

/-- Meadow reads 0 after a reset; Heath and Moor keep their bytes. -/
theorem State.byte_warmWiped (s : State) (k : Nat) : s.warmWiped.byte k = if isMeadow k then 0 else s.byte k := by
  rw [State.byte, show s.warmWiped.mem = Tab.keep (fun k => !isMeadow k) s.mem from (Tab.keep_eq_filter (fun k => !isMeadow k) s.mem).symm,
    Tab.get_keep]
  cases isMeadow k <;> rfl

theorem warmReset_leaves {s : State} (bit : Nat) (hheld : s.pins.held = false) (hperst : s.pins.hostPerstLow = false) :
    (s.warmReset bit).phase = phRom ∧
      (s.warmReset bit).rd F.SYS_RESET_CAUSE_LAST 0 = bit % 2 ^ F.SYS_RESET_CAUSE_LAST.width ∧
      (s.warmReset bit).items = [] ∧ (s.warmReset bit).tiles = [] ∧ (s.warmReset bit).leases = [] ∧ (s.warmReset bit).sos = [] ∧
      (s.warmReset bit).time = 0 ∧ (s.warmReset bit).frank = s.frank ∧ (s.warmReset bit).tally = s.tally ∧
      (s.warmReset bit).pins.devReady = false ∧ (s.warmReset bit).pins.held = false ∧
      (∀ k, (s.warmReset bit).byte k = if isMeadow k then 0 else s.byte k) ∧
      (s.warmReset bit).rd F.SYS_RESET_CAUSE_WARM_COUNT 0 = min (s.rd F.SYS_RESET_CAUSE_WARM_COUNT 0 + 1) 4095 := by
  have hph : (if s.pins.hostPerstLow then 0 else phRom) = phRom := if_neg (by rw [hperst]; decide)
  rw [State.warmReset_running hheld, hph]
  obtain ⟨hphase, hlast, hcount, -⟩ := s.warmRegs_cause bit (show phRom < 16 by decide)
  refine ⟨hphase, hlast, ?_⟩
  rw [show s.warmRegs bit phRom = _ from s.warmRegs_only bit phRom]
  exact ⟨rfl, rfl, rfl, rfl, rfl, rfl, rfl, rfl, hheld, s.byte_warmWiped, hcount⟩

/-- What a cold reset leaves of the cause and the phase. -/
theorem State.coldReset_leaves (s : State) (bit : Nat) : (s.coldReset bit).phase = phStraps ∧
    (s.coldReset bit).pins.pwrok = s.pins.pwrok ∧
    (s.coldReset bit).pins.held = true ∧
    (s.coldReset bit).rd F.SYS_RESET_CAUSE_LAST 0 = bit % 2 ^ F.SYS_RESET_CAUSE_LAST.width ∧
    (s.coldReset bit).frank = s.frank ∧ (s.coldReset bit).err.retired = [] := by
  refine ⟨State.phase_setPhase _ (by decide), rfl, rfl, ?_, rfl, rfl⟩
  rw [State.coldReset, State.rd_setPhase _ F.SYS_RESET_CAUSE_LAST 0 _ (by decide) (by decide), State.cause,
    State.rd_wr_self _ F.SYS_RESET_CAUSE_LAST _ _ (by decide)]

/-! ### The reset register (R599) -/

/-- The word that COLD and WARM write: KEY, and above it the bits `c` of COLD and WARM. -/
theorem resetWord_fields {key n c : Nat} (hk : key < 256) (hn : n = c * 65536) (hc : c < 4) :
    F.SYS_RESET_CTRL_KEY.get (BitVec.ofNat 64 (key * 2 ^ 8 + n)) = key ∧
    F.SYS_RESET_CTRL_COLD.get (BitVec.ofNat 64 (key * 2 ^ 8 + n)) = c % 2 ∧
    F.SYS_RESET_CTRL_WARM.get (BitVec.ofNat 64 (key * 2 ^ 8 + n)) = c / 2 := by
  simp only [Fld.get, BitVec.toNat_ofNat, F.SYS_RESET_CTRL_KEY, F.SYS_RESET_CTRL_COLD, F.SYS_RESET_CTRL_WARM]
  omega

theorem exec_cold (key : BitVec 8) (s : State) : exec (.cold key) s =
    .next (if key.toNat ≠ 0xA5 then s else if s.pins.held then s else s.coldReset 1) := by
  obtain ⟨hkey, hcold, -⟩ := resetWord_fields (n := 2 ^ 16) (c := 1) key.isLt (by decide) (by decide)
  show execCold key s = _
  rw [execCold, State.resetCtrl, hkey, hcold, if_pos (rfl : 1 % 2 = 1)]

theorem exec_warm (key : BitVec 8) (s : State) : exec (.warm key) s =
    .next (if key.toNat ≠ 0xA5 then s else s.warmReset 4) := by
  obtain ⟨hkey, hcold, hwarm⟩ := resetWord_fields (n := 2 ^ 17) (c := 2) key.isLt (by decide) (by decide)
  show execWarm key s = _
  rw [execWarm, State.resetCtrl, hkey, hcold, hwarm, if_neg (by decide : ¬ 2 % 2 = 1), if_pos (by decide : 2 / 2 = 1)]

/-- The other key leaves the register without effect. -/
theorem resetCtrl_key (s : State) {key : BitVec 8} (hk : key ≠ 0xA5) :
    exec (.cold key) s = .next s ∧ exec (.warm key) s = .next s := by
  have hne : key.toNat ≠ 0xA5 := fun e => hk (BitVec.eq_of_toNat_eq e)
  rw [exec_cold, exec_warm, if_pos hne, if_pos hne]
  exact ⟨rfl, rfl⟩

/-- The watchdog escalates: its warm reset takes both causes (R630). -/
theorem mcWatchdog_escalates {s t : State} (hheld : s.pins.held = false) (hx : exec .mcWatchdog s = .next t)
    (hperst : s.pins.hostPerstLow = false) :
    t.phase = phRom ∧ t.rd F.SYS_RESET_CAUSE_LAST 0 = 6 ∧ t.rd F.SYS_RESET_CAUSE_ESCALATION 0 = 1 := by
  have hrun : exec .mcWatchdog s = .next (State.warmReset _ 6) := congrArg Host.Outcome.next (if_neg (by rw [hheld]; decide))
  have key : ∀ u : State, u.pins = s.pins → u.boot.escalate = true → (u.warmReset 6).phase = phRom ∧
      (u.warmReset 6).rd F.SYS_RESET_CAUSE_LAST 0 = 6 ∧ (u.warmReset 6).rd F.SYS_RESET_CAUSE_ESCALATION 0 = 1 := by
    intro u hpins hesc
    have hph : (if u.pins.hostPerstLow then 0 else phRom) = phRom := if_neg (by rw [hpins, hperst]; decide)
    rw [State.warmReset_running (by rw [hpins, hheld]), hph]
    obtain ⟨hphase, hlast, -, hescalated⟩ := u.warmRegs_cause 6 (show phRom < 16 by decide)
    exact ⟨hphase, hlast, hescalated hesc⟩
  obtain rfl := Host.Outcome.next.inj (hrun.symm.trans hx)
  split
  · exact key _ rfl rfl
  · exact key _ rfl rfl

end Sys2Proof.Machine

namespace Sys2Proof
open Sys2Proof.Machine

/-- Settles O44: a warm reset is its wiped state with registers written on top; every other reset is a case of its guard. -/
theorem deviceResets : Obligations.DeviceResets := by
  refine ⟨?_, fun s hheld => ⟨rfl, rfl, rfl, ?_, ?_, fun key hk => resetCtrl_key s hk,
    fun t hx hperst => mcWatchdog_escalates hheld hx hperst, ⟨_, rfl⟩, ?_⟩, fun s hheld => ⟨?_, ?_⟩, ?_,
    fun s => ⟨_, rfl, rfl, rfl, rfl⟩, ?_⟩
  · rintro s t bit hheld hperst - rfl
    exact warmReset_leaves bit hheld hperst
  · exact (exec_warm 0xA5 s).trans (congrArg Host.Outcome.next (if_neg (by decide)))
  · rw [exec_cold, if_neg (by decide), if_neg (by rw [hheld]; decide)]
  · exact ⟨_, congrArg Host.Outcome.next (if_neg (by rw [hheld]; decide)), rfl, rfl, rfl, rfl⟩
  · exact congrArg Host.Outcome.next (State.warmReset_held hheld 3)
  · rw [exec_cold, if_neg (by decide), if_pos hheld]
  · intro s hheld hphase
    refine ⟨_, congrArg Host.Outcome.next (if_pos ⟨by rw [show (State.pins _).held = _ from hheld]; rfl, hphase⟩),
      State.phase_setPhase _ (by decide), rfl, rfl⟩
  · intro s hpwrok
    obtain ⟨hphase, hok, hheld, hlast, hfrank, hretired⟩ :=
      State.coldReset_leaves { s with pins := { s.pins with pwrok := true } } 0
    exact ⟨_, congrArg Host.Outcome.next (if_neg (by rw [hpwrok]; decide)), hphase, hok, hheld, hlast, hfrank, hretired⟩

end Sys2Proof
end

section
/-! SUPPORT. Settles O45: each phase of start-up (sections 16.2, 16.3 and 16.5). -/

namespace Sys2Proof.Machine

/-- A fold whose steps change registers only changes registers only. -/
theorem onlyRegs_foldl {α : Type} {f : State → α → State} (hf : ∀ u x, onlyRegs u (f u x)) (xs : List α) (s : State) :
    onlyRegs s (xs.foldl f s) := by
  induction xs generalizing s with
  | nil => rfl
  | cons x xs ih => exact onlyRegs_trans (hf s x) (ih _)

theorem onlyRegs_ite {c : Prop} [Decidable c] {s t u : State} (h : onlyRegs s t) (k : onlyRegs s u) :
    onlyRegs s (if c then t else u) := by
  split
  · exact h
  · exact k

/-- What is not a register is as before. -/
theorem onlyRegs.keeps {α : Type} {s t : State} (h : onlyRegs s t) (g : State → α)
    (hg : g { s with regs := t.regs } = g s) : g t = g s :=
  (congrArg g h).trans hg

/-! ### Masks of what is online -/

/-- The bits `i` of the list for which `p` holds. -/
def bitMask (p : Nat → Bool) (l : List Nat) : Nat := l.foldl (fun a i => if p i then a + 2 ^ i else a) 0

theorem bitMask_none {p : Nat → Bool} {l : List Nat} (h : ∀ i ∈ l, p i = false) : bitMask p l = 0 :=
  foldl_of_fixed (fun i hi => if_neg (by rw [h i hi]; decide))

theorem foldl_bits_mod_two (p : Nat → Bool) {l : List Nat} (hl : ∀ i ∈ l, 0 < i) (a : Nat) :
    l.foldl (fun a i => if p i then a + 2 ^ i else a) a % 2 = a % 2 := by
  induction l generalizing a with
  | nil => rfl
  | cons i l ih =>
    rw [List.foldl_cons, ih (fun j hj => hl j (List.mem_cons_of_mem i hj))]
    split
    · have heven : 2 ^ i % 2 = 0 := by
        obtain ⟨k, rfl⟩ := Nat.exists_eq_succ_of_ne_zero (Nat.pos_iff_ne_zero.1 (hl i List.mem_cons_self))
        rw [Nat.pow_succ, Nat.mul_mod_left]
      omega
    · rfl

/-- A mask of eight bits is odd where bit 0 is in it. -/
theorem bitMask_odd {p : Nat → Bool} (h : p 0 = true) : bitMask p (List.range 8) % 2 = 1 := by
  show (List.range 8).foldl _ 0 % 2 = 1
  rw [show List.range 8 = 0 :: [1, 2, 3, 4, 5, 6, 7] from rfl, List.foldl_cons, if_pos h, foldl_bits_mod_two p (by decide)]
  decide

/-! ### The phases -/

theorem State.setSites_only (s : State) (sites : Nat) : onlyRegs s (s.setSites sites) := by
  unfold State.setSites
  dsimp only
  refine onlyRegs_trans ?_ (onlyRegs_foldl (fun u x => onlyRegs_ite (onlyRegs_refl u) (onlyRegs_wr_of _ _ _ (onlyRegs_refl u))) _ _)
  refine onlyRegs_trans ?_ (onlyRegs_foldl (fun u x => onlyRegs_ite (onlyRegs_refl u) (onlyRegs_wr_of _ _ _ (onlyRegs_refl u))) _ _)
  refine onlyRegs_trans ?_ (onlyRegs_foldl (fun u x => onlyRegs_ite (onlyRegs_refl u) (onlyRegs_wr_of _ _ _ (onlyRegs_refl u))) _ _)
  refine onlyRegs_trans ?_ (onlyRegs_foldl (fun u x => onlyRegs_ite (onlyRegs_refl u) (onlyRegs_wr_of _ _ _ (onlyRegs_refl u))) _ _)
  rfl

/-- A failed start-up shows FAILED and its cause. -/
theorem State.startFail_fails (s : State) {c : Nat} (hc : c < 256) : onlyRegs s (s.startFail c) ∧ (s.startFail c).phase = phFailed ∧
    (s.startFail c).rd F.SYS_START_STATUS_FAIL_CAUSE 0 = c := by
  refine ⟨rfl, ?_, (State.rd_wr_self _ F.SYS_START_STATUS_FAIL_CAUSE 0 c (by decide)).trans (Nat.mod_eq_of_lt hc)⟩
  rw [State.startFail, State.phase, State.rd_wr_disjoint _ F.SYS_START_STATUS_FAIL_CAUSE F.SYS_START_STATUS_PHASE 0 c rfl (by decide)
    (by decide), State.rd_wr_disjoint _ F.SYS_START_STATUS_FAILED F.SYS_START_STATUS_PHASE 0 1 rfl (by decide) (by decide)]
  exact State.phase_setPhase s (by decide)

/-- The pins hold no register. -/
theorem State.rd_pins (s : State) (p : Pins) (f : Fld) (i : Nat) : { s with pins := p }.rd f i = s.rd f i := rfl

/-- The sampled levels take effect, and the device begins at ROM (R576 to R579). -/
theorem strapSample_begins {straps : BitVec 12} {s : State} (hok : s.pins.pwrok = true) (hphase : s.phase = phStraps)
    (hheld : s.pins.held = true) : ∃ t, exec (.strapSample straps false) s = .next t ∧ t.phase = phRom ∧ t.pins.held = false ∧
      t.rd F.SYS_STRAPS_HOSTPORT 0 = straps.toNat / 4 % 4 ∧
      t.rd F.SYS_STRAPS_BOOT_SRC_APPLIED 0 = (if straps.toNat % 4 = 3 then 0 else straps.toNat % 4) := by
  show ∃ t, execStrapSample straps false s = _ ∧ _
  unfold execStrapSample
  rw [if_neg (by rw [hok, hphase, hheld]; decide)]
  extract_lets pins u w f bs mg ep s1 s2 s3 s4
  have hbs : bs = straps.toNat % 4 := bitsOf_zero straps.toNat 2
  have hpins : s4.pins = u.pins := by simp only [s4, s3, s2, s1, State.wr_pins]
  rw [if_neg (show ¬ s4.pins.testmode = true by rw [hpins]; exact Bool.false_ne_true)]
  refine ⟨_, rfl, State.phase_setPhase _ (by decide), rfl,
    (State.rd_setPhase _ F.SYS_STRAPS_HOSTPORT 0 phRom (by decide) (by decide)).trans ?_,
    (State.rd_setPhase _ F.SYS_STRAPS_BOOT_SRC_APPLIED 0 phRom (by decide) (by decide)).trans ?_⟩
  · rw [State.rd_pins]
    simp (disch := decide) only [s4, s3, s2, s1, State.rd_wr_disjoint, State.rd_wr_self, f]
    exact Nat.mod_mod _ 4
  · rw [State.rd_pins]
    simp (disch := decide) only [s4, s3, State.rd_wr_disjoint, State.rd_wr_self, hbs]
    exact Nat.mod_eq_of_lt (show _ < 4 by split <;> omega)

theorem firmwareStart_slotA {s : State} {x : FwSlot} (hheld : s.pins.held = false) (hphase : s.phase = phRom)
    (hsrc : s.rd F.SYS_STRAPS_BOOT_SRC_APPLIED 0 = 0) (hA : s.boot.slotA = some x) (hB : s.boot.slotB = none)
    (hok : s.accepts x.image = true) : exec (.firmwareStart true false false) s = .next (s.runImage x.image (some false)) := by
  show execFirmwareStart true false false s = _
  unfold execFirmwareStart
  rw [if_neg (by rw [hheld, hphase]; decide), if_neg (by decide), if_neg (not_not.2 hsrc), if_neg Bool.false_ne_true,
    if_neg Bool.false_ne_true, hA, hB]
  simp [List.findIdx?_cons, hok]

/-- The sites that DIES_DONE puts online. -/
def State.diesMask (s : State) (sites : BitVec 8) (meshLost : BitVec 4) : Nat :=
  bitMask (fun i => sites.toNat.testBit i && s.variant.sites.testBit i && !meshLost.toNat.testBit (i / 2) &&
    !s.rdb F.ERR_RETIRE_FULL i) (List.range 8)

/-- The state with the sites `w` online. -/
def State.diesUp (s : State) (w : Nat) (postLost : BitVec 4) : State :=
  ({ s with err := { s.err with postDown := postLost.toNat }, boot := { s.boot with sites := w } }).setSites w

theorem exec_diesDone {s : State} (hheld : s.pins.held = false) (hphase : s.phase = phDies) (sites : BitVec 8)
    (meshLost postLost : BitVec 4) : exec (.diesDone sites meshLost postLost) s =
      .next (if s.diesMask sites meshLost = 0 then (s.diesUp (s.diesMask sites meshLost) postLost).startFail 4
        else if s.diesMask sites meshLost % 4 = 0 ∨ postLost.toNat.testBit 0 then
          (s.diesUp (s.diesMask sites meshLost) postLost).startFail 3
        else (s.diesUp (s.diesMask sites meshLost) postLost).setPhase phZero) :=
  congrArg Host.Outcome.next (if_neg (by rw [hheld, hphase]; decide))

theorem diesDone_none {s : State} (hheld : s.pins.held = false) (hphase : s.phase = phDies) :
    ∃ t, exec (.diesDone 0 0 0) s = .next t ∧ t.phase = phFailed ∧ t.rd F.SYS_START_STATUS_FAIL_CAUSE 0 = 4 := by
  have hnone : s.diesMask 0 0 = 0 := bitMask_none (fun i _ => by
    rw [show (0 : BitVec 8).toNat = 0 from rfl, Nat.zero_testBit, Bool.false_and, Bool.false_and, Bool.false_and])
  exact ⟨_, (exec_diesDone hheld hphase 0 0 0).trans (congrArg Host.Outcome.next (if_pos hnone)),
    (State.startFail_fails _ (by decide)).2⟩

theorem diesDone_zero {s : State} (hheld : s.pins.held = false) (hphase : s.phase = phDies) {sites : BitVec 8}
    (hsites : sites.toNat % 4 = 3) (hvariant : s.variant.sites.testBit 0 = true) (hfull : s.rdb F.ERR_RETIRE_FULL 0 = false) :
    ∃ t, exec (.diesDone sites 0 0) s = .next t ∧ t.phase = phZero ∧ t.mem = s.mem := by
  have hbit : sites.toNat.testBit 0 = true := by rw [Nat.testBit_zero, decide_eq_true_iff]; omega
  have hodd : s.diesMask sites 0 % 2 = 1 := bitMask_odd (by rw [hbit, hvariant, hfull]; rfl)
  exact ⟨_, (exec_diesDone hheld hphase sites 0 0).trans (congrArg Host.Outcome.next ((if_neg (by omega)).trans
    (if_neg (not_or.2 ⟨by omega, by decide⟩)))), State.phase_setPhase _ (by decide), (State.setSites_only _ _).keeps State.mem rfl⟩

/-- The sites left online by the zero pass. -/
def State.zeroMask (s : State) (failed : BitVec 8) : Nat :=
  bitMask (fun i => s.boot.sites.testBit i && !failed.toNat.testBit i) (List.range 8)

/-- The state with the sites `w` online after the zero pass. -/
def State.zeroedUp (s : State) (w : Nat) : State := ({ s with boot := { s.boot with sites := w } }).setSites w

theorem exec_zeroPassDone {s : State} (hheld : s.pins.held = false) (hphase : s.phase = phZero) (failed : BitVec 8) :
    exec (.zeroPassDone failed) s = .next (if s.zeroMask failed = 0 then (s.zeroedUp (s.zeroMask failed)).startFail 4
      else if s.zeroMask failed % 4 = 0 then (s.zeroedUp (s.zeroMask failed)).startFail 3
      else ({ s.zeroedUp (s.zeroMask failed) with
        pins := { (s.zeroedUp (s.zeroMask failed)).pins with perstLow := 0 } }).setPhase phLinks) :=
  congrArg Host.Outcome.next (if_neg (by rw [hheld, hphase]; decide))

theorem zeroPassDone_links {s : State} (hheld : s.pins.held = false) (hphase : s.phase = phZero) {failed : BitVec 8}
    (hsite : s.boot.sites.testBit 0 = true) (hgood : failed.toNat.testBit 0 = false) :
    ∃ t, exec (.zeroPassDone failed) s = .next t ∧ t.phase = phLinks ∧ t.pins.perstLow = 0 := by
  have hodd : s.zeroMask failed % 2 = 1 := bitMask_odd (by rw [hsite, hgood]; rfl)
  exact ⟨_, (exec_zeroPassDone hheld hphase failed).trans (congrArg Host.Outcome.next ((if_neg (by omega)).trans
    (if_neg (by omega)))), State.phase_setPhase _ (by decide), rfl⟩

theorem zeroPassDone_none {s : State} (hheld : s.pins.held = false) (hphase : s.phase = phZero) :
    ∃ t, exec (.zeroPassDone 0xFF) s = .next t ∧ t.phase = phFailed ∧ t.rd F.SYS_START_STATUS_FAIL_CAUSE 0 = 4 := by
  have hall : ∀ i ∈ List.range 8, (0xFF : BitVec 8).toNat.testBit i = true := by decide
  have hnone : s.zeroMask 0xFF = 0 := bitMask_none (fun i hi => by rw [hall i hi, Bool.not_true, Bool.and_false])
  exact ⟨_, (exec_zeroPassDone hheld hphase 0xFF).trans (congrArg Host.Outcome.next (if_pos hnone)),
    (State.startFail_fails _ (by decide)).2⟩

/-! ### The links and readiness (R281, R595 to R597) -/

theorem State.heathPortsUp_only (s : State) (heath mine : List HeathPortUp) : onlyRegs s (s.heathPortsUp heath mine) := by
  refine onlyRegs_trans (onlyRegs_foldl (fun u h => onlyRegs_ite (onlyRegs_wr_of _ _ _ (onlyRegs_refl u)) (onlyRegs_refl u)) heath s)
    (onlyRegs_foldl (fun u n => onlyRegs_ite (onlyRegs_refl u) (onlyRegs_ite ?_ (onlyRegs_wr_of _ _ _ (onlyRegs_refl u)))) _ _)
  rfl

/-- One mapped region's registers. -/
def mapRegion (a : State × Nat × Nat) (r : Nat × Nat × Nat) : State × Nat × Nat :=
  (((((a.1.wr F.TIER_HEATH_RGN_PORT a.2.2 r.1).wr F.TIER_HEATH_RGN_VALID a.2.2 1).wr F.TIER_HEATH_RGN_DECODER a.2.2 r.2.1).wr
    F.TIER_HEATH_RGN_SIZE a.2.2 r.2.2).wr F.TIER_HEATH_RGN_BASE a.2.2 a.2.1, a.2.1 + r.2.2, a.2.2 + 1)

theorem foldl_mapRegion_only (rs : List (Nat × Nat × Nat)) (a : State × Nat × Nat) : onlyRegs a.1 (rs.foldl mapRegion a).1 := by
  induction rs generalizing a with
  | nil => rfl
  | cons r rs ih => exact onlyRegs_trans (show onlyRegs a.1 (mapRegion a r).1 from
    onlyRegs_wr_of _ _ _ (onlyRegs_wr_of _ _ _ (onlyRegs_wr_of _ _ _ (onlyRegs_wr_of _ _ _
      (onlyRegs_wr_of _ _ _ (onlyRegs_refl a.1)))))) (ih _)

theorem State.mapRegions_only (s : State) (rs : List (Nat × Nat × Nat)) : onlyRegs s (s.mapRegions rs).1 :=
  foldl_mapRegion_only rs (s, 0, 0)

theorem State.capacityCheck_touches (s : State) (tier : Nat) : RegsTouched s (s.capacityCheck tier) [Reg.TIER_QUOTA_ERR] := by
  unfold State.capacityCheck
  split
  · exact (RegsTouched.refl s _).wr F.TIER_QUOTA_ERR_CAPACITY_LOST 0 1 (by decide) (by decide)
  · exact RegsTouched.refl s _

theorem linksDone_ready (heath : List HeathPortUp) {s : State} (hheld : s.pins.held = false) (hphase : s.phase = phLinks) :
    ∃ t, exec (.linksDone heath) s = .next t ∧ t.phase = phReady ∧ t.pins.devReady = true ∧
      t.rdb F.SYS_START_STATUS_READY 0 = true ∧ t.mem = s.mem := by
  show ∃ t, execLinksDone heath s = _ ∧ _
  unfold execLinksDone
  rw [if_neg (by rw [hheld, hphase]; decide)]
  extract_lets mine r x u
  have hmapped : onlyRegs s u := onlyRegs_wr_of _ _ _ (onlyRegs_wr_of _ _ _ (onlyRegs_trans (s.heathPortsUp_only heath mine)
    (State.mapRegions_only _ r.1)))
  have hquota := ((u.startReady (bootZeroes r.1)).capacityCheck_touches 0).trans (State.capacityCheck_touches _ 1)
  have hmem : u.mem = s.mem := hmapped.keeps State.mem rfl
  clear_value u
  refine ⟨_, rfl, State.phase_setPhase _ (by decide), (hquota.keeps (·.pins.devReady) rfl).trans rfl, ?_,
    (hquota.keeps State.mem rfl).trans hmem⟩
  rw [State.rdb, State.setPhase, State.rd_wr_disjoint _ F.SYS_START_STATUS_PHASE F.SYS_START_STATUS_READY 0 _ rfl (by decide)
    (by decide), hquota.rd F.SYS_START_STATUS_READY 0 (by decide) (by decide), State.startReady,
    State.rd_wr_disjoint _ F.SYS_START_STATUS_START_MS
    F.SYS_START_STATUS_READY 0 _ rfl (by decide) (by decide), State.rd_wr_self _ F.SYS_START_STATUS_READY 0 1 (by decide)]
  decide

/-- An update of the slot that does not hold the running image (R585, R603). -/
theorem firmwareUpdate_slotA {image : FwImage} {s : State} (hheld : s.pins.held = false) (hrun : s.boot.running.isSome)
    (hfrom : s.boot.fromSlot = some true) (hok : s.accepts image = true) (hpower : s.pins.pwrfailLow = false) :
    ∃ t x, exec (.firmwareUpdate image true) s = .next t ∧ t.boot.slotA = some x ∧ x.image = image ∧
      t.boot.slotB = s.boot.slotB ∧ t = { s with boot := t.boot } := by
  obtain ⟨i, hi⟩ := Option.isSome_iff_exists.1 hrun
  show ∃ t x, execFirmwareUpdate image true s = _ ∧ _
  unfold execFirmwareUpdate
  rw [hi, hfrom, hok, hpower]
  dsimp only
  rw [if_neg (by rw [hheld]; decide)]
  exact ⟨_, _, rfl, rfl, rfl, rfl, rfl⟩

end Sys2Proof.Machine

namespace Sys2Proof
open Sys2Proof.Machine

/-- Settles O45: each phase's event is one branch of its instruction; the masks of what is online are odd where site 0 is in
them. -/
theorem startUpPhases : Obligations.StartUpPhases := by
  refine ⟨fun straps s hok hphase hheld => strapSample_begins hok hphase hheld, fun s hheld hphase => ?_, ?_,
    fun s hheld hphase => ⟨diesDone_none hheld hphase, fun sites => diesDone_zero hheld hphase⟩,
    fun s hheld hphase => ⟨fun failed => zeroPassDone_links hheld hphase, zeroPassDone_none hheld hphase⟩,
    fun heath s => linksDone_ready heath, fun image s => firmwareUpdate_slotA⟩
  · have hrom : ¬ (s.pins.held || s.phase != phRom) = true := by rw [hheld, hphase]; decide
    refine ⟨⟨_, congrArg Host.Outcome.next (if_neg hrom), s.startFail_fails (by decide)⟩,
      ⟨_, congrArg Host.Outcome.next ((if_neg hrom).trans (if_pos rfl)), s.startFail_fails (by decide)⟩, fun hsrc => ?_, ?_⟩
    · exact congrArg Host.Outcome.next ((if_neg hrom).trans ((if_neg (by decide)).trans (if_pos hsrc)))
    · exact fun x hsrc hA hB hok => firmwareStart_slotA hheld hphase hsrc hA hB hok
  · intro image s hheld hphase hok
    exact congrArg Host.Outcome.next (if_neg (by rw [hheld, hphase, hok]; exact Bool.false_ne_true))

end Sys2Proof
end

section
/-! SUPPORT. Settles O17: the host's commands to a core, the debug window, a WAIT's timeout and a failed store (sections 4.1, 4.7
and 4.10). -/

namespace Sys2Proof.Machine

/-! ### START (R123, Tables 4-2 and 4-12) -/

/-- Clearing a list of registers of one number. -/
def State.clearRegs (s : State) (l : List Reg) (c : Nat) : State := l.foldl (fun s r => s.setReg r c 0) s

/-- A core's g, t and p registers cleared, and nothing pending in it. -/
def State.dropCore (s : State) (c : Nat) : State :=
  { s with
    gregs := Tab.keep (fun k => k / 32 != c) s.gregs
    tregs := Tab.keep (fun k => k / 16 != c) s.tregs
    pregs := Tab.keep (fun k => k / 8 != c) s.pregs
    cores := Tab.erase s.cores c }

theorem State.clearCore_eq (s : State) (c : Nat) : s.clearCore c = (s.clearRegs coreResetRegs c).dropCore c := rfl

theorem State.reg_clearRegs (l : List Reg) (s : State) {r : Reg} {c i : Nat} (hc : c < 131072) (hi : i < 131072) :
    (s.clearRegs l c).reg r i = if r ∈ l ∧ i = c then 0 else s.reg r i := by
  induction l generalizing s with
  | nil => simp [State.clearRegs]
  | cons q l ih =>
    rw [State.clearRegs, List.foldl_cons, ← State.clearRegs, ih]
    by_cases hl : r ∈ l ∧ i = c
    · rw [if_pos hl, if_pos ⟨List.mem_cons_of_mem q hl.1, hl.2⟩]
    · rw [if_neg hl]
      by_cases hq : r = q ∧ i = c
      · obtain ⟨rfl, rfl⟩ := hq
        rw [State.reg_setReg_self, if_pos ⟨List.mem_cons_self, rfl⟩]
      · rw [State.reg_setReg_of_key_ne _ _ (fun e => hq ((Reg.key_inj hi hc).1 e)), if_neg]
        rintro ⟨hm, rfl⟩
        exact (List.mem_cons.1 hm).elim (fun e => hq ⟨e, rfl⟩) (fun h => hl ⟨h, rfl⟩)

theorem State.clearRegs_only (s : State) (l : List Reg) (c : Nat) : onlyRegs s (s.clearRegs l c) :=
  onlyRegs_foldl (fun u r => (show onlyRegs u (u.setReg r c 0) from rfl)) l s

/-- The registers of Table 4-12 are 0 at a start; the others stand. -/
theorem State.rd_clearCore (s : State) (f : Fld) {c i : Nat} (hc : c < 131072) (hi : i < 131072) :
    (s.clearCore c).rd f i = if f.reg ∈ coreResetRegs ∧ i = c then 0 else s.rd f i := by
  have hdrop : ∀ u : State, (u.dropCore c).rd f i = f.get (u.reg f.reg i) := fun _ => rfl
  rw [State.clearCore_eq, hdrop, State.reg_clearRegs _ _ hc hi]
  split
  · exact (congrArg (· % 2 ^ f.width) (Nat.zero_div _)).trans (Nat.zero_mod _)
  · rfl

/-- What a clear leaves of the register banks, scratch and memory. -/
theorem State.clearCore_banks (s : State) (c : Nat) :
    (s.clearCore c).gregs = Tab.keep (fun k => k / 32 != c) s.gregs ∧
    (s.clearCore c).tregs = Tab.keep (fun k => k / 16 != c) s.tregs ∧
    (s.clearCore c).pregs = Tab.keep (fun k => k / 8 != c) s.pregs ∧
    (s.clearCore c).scratch = s.scratch ∧ (s.clearCore c).mem = s.mem := by
  have honly := s.clearRegs_only coreResetRegs c
  rw [State.clearCore_eq]
  generalize s.clearRegs coreResetRegs c = u at honly
  exact ⟨congrArg (Tab.keep _) (honly.keeps State.gregs rfl), congrArg (Tab.keep _) (honly.keeps State.tregs rfl),
    congrArg (Tab.keep _) (honly.keeps State.pregs rfl), honly.keeps State.scratch rfl, honly.keeps State.mem rfl⟩

/-- The core's own g, t and p registers are cleared; other cores' stand. -/
theorem State.g_clearCore (s : State) (c : Nat) {d q : Nat} (hq : q < 32) :
    (s.clearCore c).g d q = if d = c then 0 else s.g d q := by
  rw [State.g, State.g, (s.clearCore_banks c).1, Tab.get_keep, show (d * 32 + q) / 32 = d by omega]
  by_cases h : d = c <;> simp [h]

theorem State.t_clearCore (s : State) (c : Nat) {q : Nat} (hq : q < 16) : (s.clearCore c).t c q = 0 := by
  rw [State.t, (s.clearCore_banks c).2.1, Tab.get_keep, show (c * 16 + q) / 16 = c by omega]
  simp

theorem State.p_clearCore (s : State) (c : Nat) {q : Nat} (hq : q < 8) : (s.clearCore c).p c q = decide (q = 0) := by
  rw [State.p, (s.clearCore_banks c).2.2.1, Tab.get_keep, show (c * 8 + q) / 8 = c by omega]
  by_cases h : q = 0 <;> simp [h]

/-- The g registers at a start (Table 4-2). -/
theorem State.g_startCore (s : State) {c : Nat} (pl : Plan) (hc : c < 64) (d q : Nat) : q < 32 →
    (s.startCore c pl).g d q = if d = c then (match q with
      | 1 => BitVec.ofNat 64 (s.rd F.SRT_IDENT_RANK c)
      | 2 => BitVec.ofNat 64 pl.cores
      | 3 => BitVec.ofNat 64 (s.corePart c)
      | 4 => BitVec.ofNat 64 pl.areaBase
      | 5 => BitVec.ofNat 64 pl.epochs
      | _ => 0) else s.g d q := by
  intro hq
  have hrank : (s.clearCore c).rd F.SRT_IDENT_RANK c = s.rd F.SRT_IDENT_RANK c :=
    (s.rd_clearCore F.SRT_IDENT_RANK (by omega) (by omega)).trans (if_neg (fun h => absurd h.1 (by decide)))
  simp (disch := first | decide | omega) only [State.startCore, State.g_setCoreState, State.g_wrb, State.g_setPc, State.g_setG,
    State.g_clearCore, hrank]
  by_cases hd : d = c
  · rcases q with _ | _ | _ | _ | _ | _ | q <;> simp [hd]
  · simp [hd]

/-- What else a start leaves: the other registers, the PC, the version and the state. -/
theorem State.startCore_leaves (s : State) {c : Nat} (pl : Plan) (hc : c < 64) :
    (s.startCore c pl).coreState c = coreRunning ∧ (s.startCore c pl).pc c = pl.entryPc % 2 ^ 32 ∧
    (s.startCore c pl).isV1 c = (pl.ulital == 1) ∧ (s.startCore c pl).rdb F.SRT_STATUS_IN_TRAP c = false ∧
    (s.startCore c pl).rdb F.SRT_TRAP_VEC_EN c = false ∧ (∀ q, q < 16 → (s.startCore c pl).t c q = 0) ∧
    (∀ q, q < 8 → (s.startCore c pl).p c q = decide (q = 0)) ∧ (s.startCore c pl).scratch = s.scratch ∧
    (s.startCore c pl).mem = s.mem := by
  have hclear : ∀ f : Fld, f.reg ∈ coreResetRegs → (s.clearCore c).rd f c = 0 := fun f hf =>
    (s.rd_clearCore f (by omega) (by omega)).trans (if_pos ⟨hf, rfl⟩)
  refine ⟨?_, ?_, ?_, ?_, ?_, fun q hq => ?_, fun q hq => ?_, ?_, ?_⟩
  · rw [State.startCore, State.setCoreState, State.coreState, State.rd_wr_self _ F.SRT_STATUS_STATE _ _ (by decide)]
    rfl
  · simp (disch := first | decide | omega) only [State.startCore, State.setCoreState, State.pc, State.setPc, State.wrb,
      State.rd_wr_reg, State.rd_wr_self]
    rfl
  · simp (disch := first | decide | omega) only [State.startCore, State.setCoreState, State.isV1, State.rdb, State.setPc, State.wrb,
      State.rd_wr_disjoint, State.rd_wr_self]
    cases pl.ulital == 1 <;> rfl
  · simp (disch := first | decide | omega) only [State.startCore, State.setCoreState, State.rdb, State.setPc, State.wrb,
      State.rd_wr_disjoint, State.rd_wr_reg, State.rd_setG]
    rw [hclear _ (by decide)]; rfl
  · simp (disch := first | decide | omega) only [State.startCore, State.setCoreState, State.rdb, State.setPc, State.wrb,
      State.rd_wr_reg, State.rd_setG]
    rw [hclear _ (by decide)]; rfl
  · simp only [State.startCore, State.t_setCoreState, State.t_wrb, State.t_setPc, State.t_setG]
    exact s.t_clearCore c hq
  · simp only [State.startCore, State.p_setCoreState, State.p_wrb, State.p_setPc, State.p_setG]
    exact s.p_clearCore c hq
  · simp only [State.startCore, State.setCoreState_scratch, State.wrb_scratch, State.setPc_scratch, State.setG_scratch]
    exact (s.clearCore_banks c).2.2.2.1
  · simp only [State.startCore, State.setCoreState_mem, State.wrb_mem, State.setPc_mem, State.setG_mem]
    exact (s.clearCore_banks c).2.2.2.2

/-- REFUSED is set and nothing else changes. -/
theorem State.refused_leaves (s : State) {c : Nat} (hc : c < 64) :
    (s.flag F.SRT_STATUS_REFUSED c).rdb F.SRT_STATUS_REFUSED c = true ∧
    (s.flag F.SRT_STATUS_REFUSED c).coreState c = s.coreState c ∧
    RegChange s (s.flag F.SRT_STATUS_REFUSED c) [(Reg.SRT_STATUS, c)] :=
  ⟨State.rdb_flag_self _ F.SRT_STATUS_REFUSED c (by decide) (by decide),
    State.rd_wr_disjoint _ F.SRT_STATUS_REFUSED F.SRT_STATUS_STATE c 1 rfl (by decide) (by decide),
    (RegChange.refl s _).wr F.SRT_STATUS_REFUSED c 1 (by omega) (by simp [F.SRT_STATUS_REFUSED])⟩

section Commands

variable {core : BitVec 6} {s : State}

theorem srtStart_ok {pl : Plan} (hheld : s.pins.held = false) (hpl : (s.plan (s.corePart core.toNat)).plan = some pl)
    (hok : s.coreState core.toNat = coreIdle ∧ s.rd F.PART_PLAN_STATUS_STATE (s.corePart core.toNat) = 2 ∧
      s.rd F.SRT_IDENT_RANK core.toNat < pl.cores ∧ s.served (s.corePart core.toNat)) :
    exec (.srtStart core) s = .next (s.startCore core.toNat pl) := by
  show execSrtStart core s = _
  unfold execSrtStart
  dsimp only
  rw [if_neg (by rw [hheld]; decide), hpl]
  exact congrArg Host.Outcome.next (if_pos hok)

theorem srtStart_refused (hheld : s.pins.held = false) (hstate : s.coreState core.toNat ≠ coreIdle) :
    exec (.srtStart core) s = .next (s.flag F.SRT_STATUS_REFUSED core.toNat) := by
  show execSrtStart core s = _
  unfold execSrtStart
  dsimp only
  rw [if_neg (by rw [hheld]; decide)]
  split
  · exact congrArg Host.Outcome.next (if_neg (fun h => hstate h.1))
  · rfl

theorem haltReq_halts (hheld : s.pins.held = false) (hlo : coreRunning ≤ s.coreState core.toNat)
    (hhi : s.coreState core.toNat ≤ coreStalled) : exec (.haltReq core) s = .next (s.haltCore core.toNat 2) :=
  congrArg Host.Outcome.next ((if_neg (by rw [hheld]; decide)).trans (if_pos ⟨hlo, hhi⟩))

theorem srtResume_ok (hheld : s.pins.held = false) (hok : s.coreState core.toNat = coreHalted ∧
    s.rd F.SRT_STATUS_HALT_CAUSE core.toNat = 2 ∧ s.served (s.corePart core.toNat)) :
    exec (.srtResume core) s = .next (s.setCoreState core.toNat coreRunning) :=
  congrArg Host.Outcome.next ((if_neg (by rw [hheld]; decide)).trans (if_pos hok))

theorem srtResume_refused (hheld : s.pins.held = false) (hcause : s.rd F.SRT_STATUS_HALT_CAUSE core.toNat ≠ 2) :
    exec (.srtResume core) s = .next (s.flag F.SRT_STATUS_REFUSED core.toNat) :=
  congrArg Host.Outcome.next ((if_neg (by rw [hheld]; decide)).trans (if_neg (fun h => hcause h.2.1)))

end Commands

/-! ### The debug window (R161) -/

section Window

variable {fn : Nat} {core : BitVec 6} {s : State}

/-- What a read of the window returns, by the state of the core and the bytes at the address. -/
theorem srtDbgRead_eq (hheld : s.pins.held = false) (hfn : s.fnExists fn = true) :
    exec (.srtDbgRead fn core) s = .next (
      if (s.coreState core.toNat == coreIdle || s.coreState core.toNat == coreHalted) &&
        ((List.range 8).map (fun i => s.dbgByte core.toNat (s.rd F.SRT_DBG_ADDR_ADDR core.toNat + i))).all Option.isSome then
        (s.wr F.SRT_DBG_ADDR_ADDR core.toNat (s.rd F.SRT_DBG_ADDR_ADDR core.toNat + 8)).emit (.readData fn
          (((List.range 8).map (fun i => s.dbgByte core.toNat (s.rd F.SRT_DBG_ADDR_ADDR core.toNat + i))).map (fun b => b.getD 0)))
      else ((s.wr F.SRT_DBG_ADDR_ADDR core.toNat (s.rd F.SRT_DBG_ADDR_ADDR core.toNat + 8)).flag F.SRT_STATUS_REFUSED
        core.toNat).emit (.readData fn (List.replicate 8 0))) :=
  congrArg Host.Outcome.next (if_neg (by rw [hheld, hfn]; decide))

theorem srtDbgRead_open {bs : List Byte} (hheld : s.pins.held = false) (hfn : s.fnExists fn = true)
    (hstate : s.coreState core.toNat = coreIdle ∨ s.coreState core.toNat = coreHalted)
    (hbytes : (List.range 8).map (fun i => s.dbgByte core.toNat (s.rd F.SRT_DBG_ADDR_ADDR core.toNat + i)) = bs.map some) :
    exec (.srtDbgRead fn core) s = .next ((s.wr F.SRT_DBG_ADDR_ADDR core.toNat (s.rd F.SRT_DBG_ADDR_ADDR core.toNat + 8)).emit
      (.readData fn bs)) := by
  have hopen : (s.coreState core.toNat == coreIdle || s.coreState core.toNat == coreHalted) = true := by
    simpa only [Bool.or_eq_true, beq_iff_eq] using hstate
  have hall : (bs.map some).all Option.isSome = true := by simp
  have hget : (bs.map some).map (fun b => b.getD 0) = bs := by simp
  rw [srtDbgRead_eq hheld hfn, hbytes, hopen, hall, hget]
  rfl

theorem srtDbgRead_running (hheld : s.pins.held = false) (hfn : s.fnExists fn = true)
    (hstate : s.coreState core.toNat = coreRunning) :
    exec (.srtDbgRead fn core) s = .next (((s.wr F.SRT_DBG_ADDR_ADDR core.toNat (s.rd F.SRT_DBG_ADDR_ADDR core.toNat + 8)).flag
      F.SRT_STATUS_REFUSED core.toNat).emit (.readData fn (List.replicate 8 0))) := by
  rw [srtDbgRead_eq hheld hfn, hstate]
  rfl

/-- The window over scratch. -/
theorem State.dbgByte_scratch (s : State) (c : Nat) {a : Nat} (ha : a + 8 ≤ 0x40000) :
    (List.range 8).map (fun i => s.dbgByte c (a + i)) = (s.scratchRead c a 8).map some := by
  rw [State.scratchRead, List.map_map]
  exact List.map_congr_left (fun i hi => if_pos (by have := List.mem_range.1 hi; omega))

/-- The window over the g registers. -/
theorem State.dbgByte_g (s : State) (c : Nat) {q : Nat} (hq : q < 32) :
    (List.range 8).map (fun i => s.dbgByte c (0x100000 + 8 * q + i)) = (leBytes 8 (s.g c q).toNat).map some := by
  have hbyte : ∀ i ∈ List.range 8, s.dbgByte c (0x100000 + 8 * q + i) = some ((leBytes 8 (s.g c q).toNat).getD i 0) := by
    intro i hi
    have hi8 := List.mem_range.1 hi
    rw [State.dbgByte, if_neg (by omega), if_pos (by omega), show (0x100000 + 8 * q + i - 0x100000) / 8 = q by omega,
      show (0x100000 + 8 * q + i) % 8 = i by omega]
  rw [List.map_congr_left hbyte]
  refine List.ext_getElem (by simp) (fun i _ h => ?_)
  rw [List.getElem_map, List.getElem_map, List.getElem_range, List.getD_eq_getElem _ _ (by rwa [List.length_map] at h)]

end Window

/-! ### A WAIT's timeout and a failed store (R141, R148 to R150) -/

/-- A core that wakes takes the outcome in its register and runs on past the WAIT. -/
theorem State.wake_leaves (s : State) {c : Nat} (w : WaitRec) (outcome : Nat) (hc : c < 64) (hrd : w.rd < 32) :
    s.wake c w outcome = { s with
      regs := (s.wake c w outcome).regs, gregs := (s.wake c w outcome).gregs, cores := (s.wake c w outcome).cores } ∧
    (∀ q, q < 32 → (s.wake c w outcome).g c q = if q = w.rd ∧ q ≠ 0 then BitVec.ofNat 64 outcome else s.g c q) ∧
    ((s.wake c w outcome).core c).wait = none ∧ (s.wake c w outcome).coreState c = coreRunning ∧
    nextPc s (s.wake c w outcome) c ∧ retired s (s.wake c w outcome) c ∧
    coreRegs s (s.wake c w outcome) c [Reg.SRT_STATUS] := by
  refine ⟨?_, fun q hq => ?_, ?_, ?_, ?_, ?_, ?_⟩
  · unfold State.wake State.setG
    dsimp only
    split <;> rfl
  · simp only [State.wake, State.bump, State.g_wr, State.g_setPc, State.g_setCoreState]
    rw [State.g_setG _ _ _ _ hq hrd]
    by_cases h : q = w.rd ∧ q ≠ 0
    · rw [if_pos ⟨rfl, h.1, h.1 ▸ h.2⟩, if_pos h]
    · rw [if_neg (fun x : c = c ∧ q = w.rd ∧ w.rd ≠ 0 => h ⟨x.2.1, x.2.1 ▸ x.2.2⟩), if_neg h]
      exact State.g_setCore _ _ _ _ _
  · simp only [State.wake, State.bump, State.setPc, State.core_wr, State.core_setCoreState, State.core_setG,
      State.core_setCore_self]
  · simp (disch := first | decide | omega) only [State.wake, State.bump, State.setPc, State.coreState, State.setCoreState,
      State.rd_wr_reg, State.rd_wr_self]
    rfl
  · simp (disch := first | decide | omega) only [nextPc, State.wake, State.bump, State.setPc, State.pc, State.setCoreState,
      State.rd_wr_reg, State.rd_wr_self, State.rd_setG, State.rd_setCore]
    rfl
  · simp (disch := first | decide | omega) only [retired, State.wake, State.bump, State.setPc, State.setCoreState,
      State.rd_wr_reg, State.rd_wr_self, State.rd_setG, State.rd_setCore]
    rfl
  · have hg : regsBut s ((s.setCore c { s.core c with wait := none }).setG c w.rd (BitVec.ofNat 64 outcome))
        ((Reg.SRT_PC :: Reg.SRT_INSTRET :: [Reg.SRT_STATUS]).map (fun r => (r, c))) :=
      regsBut_of_regs (State.setG_regs _ _ _ _)
    exact regsBut_wr_of _ _ _ (regsBut_wr_of _ _ _ (regsBut_wr_of _ _ _ hg (by omega) (by simp [F.SRT_STATUS_STATE])) (by omega)
      (by simp [F.SRT_PC_PC])) (by omega) (by simp [F.SRT_INSTRET_COUNT])

/-- The core after its one buffered store failed: the address pends, and no store is left. -/
def State.storeFailed (s : State) (c va : Nat) : State :=
  (((s.setCore c { s.core c with stores := [] }).setCore c { s.core c with stores := [], async := some va }).wr
    F.SRT_STATUS_ASYNC_PENDING c 1)

theorem asyncStoreFail_one {core : BitVec 6} {s : State} {x : BufStore} (hx : (s.core core.toNat).stores = [x])
    (hnone : (s.core core.toNat).async = none) : exec (.asyncStoreFail core) s = .next (s.storeFailed core.toNat x.va) := by
  have hset : (s.setCore core.toNat { s.core core.toNat with stores := [] }).setAsync core.toNat x.va =
      s.storeFailed core.toNat x.va := by
    rw [State.setAsync, State.core_setCore_self, hnone]
    rfl
  have hempty : ((s.storeFailed core.toNat x.va).core core.toNat).stores = [] := by
    rw [State.storeFailed, State.core_wr, State.core_setCore_self]
  show execAsyncStoreFail core s = _
  unfold execAsyncStoreFail
  dsimp only
  rw [hx]
  dsimp only
  rw [hset, State.drainStores]
  simp only [hempty]

end Sys2Proof.Machine

namespace Sys2Proof
open Sys2Proof.Machine

/-- Settles O17: START, HALT_REQ and RESUME by the cases of Table 4-1; the window by its address ranges; a WAIT's timeout wakes
its core; a failed store leaves its address pending. -/
theorem hostCommandsAndDebugWindow : Obligations.HostCommandsAndDebugWindow := by
  refine ⟨fun core s hheld => ?_, fun fn core s hheld hfn => ?_, fun core s => ?_⟩ <;> have hc := core.isLt
  · refine ⟨fun pl hpl hidle hplan hrank hserved => ?_, fun hstate => ?_, fun hlo hhi => ?_, fun hstate hcause hserved => ?_,
      fun hstate hcause => ?_⟩
    · obtain ⟨hrun, hpc, hv1, htrap, hvec, ht, hp, hscratch, hmem⟩ := s.startCore_leaves pl hc
      refine ⟨_, srtStart_ok hheld hpl ⟨hidle, hplan, hrank, hserved⟩, hrun, hpc, hv1, htrap, hvec, fun q hq => ?_, ht, hp,
        fun d q hd hq => ?_, hscratch, hmem⟩
      · exact (s.g_startCore pl hc core.toNat q hq).trans (if_pos rfl)
      · exact (s.g_startCore pl hc d q hq).trans (if_neg hd)
    · obtain ⟨href, hcore, hchange⟩ := s.refused_leaves hc
      exact ⟨_, srtStart_refused hheld hstate, hchange.only, href, hcore, hchange.but⟩
    · have hlt : core.toNat < 131072 := by omega
      refine ⟨_, haltReq_halts hheld hlo hhi, s.haltCore_frame _ 2, s.coreState_haltCore 2 hlt,
        s.haltCause_haltCore hlt (by decide),
        s.haltReq_haltCore _ 2, ?_, ?_, s.rd_haltCore 2 (by decide) (by decide) hlt hlt, s.regsBut_haltCore 2 hlt⟩
      · rw [State.haltCore, State.core_setCore_self]
      · rw [State.haltCore, State.core_setCore_self]
    · refine ⟨_, srtResume_ok hheld ⟨hstate, hcause, hserved⟩, rfl, ?_, ?_, regsBut_wr s F.SRT_STATUS_STATE core.toNat _ (by omega)⟩
      · exact (State.rd_wr_self s F.SRT_STATUS_STATE _ coreRunning (by decide)).trans (by decide)
      · exact State.rd_wr_reg s F.SRT_STATUS_STATE F.SRT_PC_PC coreRunning (by decide) (by omega) (by omega)
    · obtain ⟨href, hcore, hchange⟩ := s.refused_leaves hc
      exact ⟨_, srtResume_refused hheld hcause, hchange.only, hcore.trans hstate, href⟩
  · refine ⟨fun hstate ha => ?_, fun q hq hstate ha => ?_, fun hstate => ?_⟩
    · refine ⟨_, srtDbgRead_open hheld hfn hstate (s.dbgByte_scratch _ ha), rfl, rfl, ?_,
        regsBut_wr s F.SRT_DBG_ADDR_ADDR core.toNat _ (by omega)⟩
      rw [State.rd_emit, State.rd_wr_self _ F.SRT_DBG_ADDR_ADDR _ _ (by decide)]
      exact Nat.mod_eq_of_lt (show _ < 4294967296 by omega)
    · exact ⟨_, srtDbgRead_open hheld hfn hstate (by rw [ha]; exact s.dbgByte_g _ hq), rfl,
        regsBut_wr s F.SRT_DBG_ADDR_ADDR core.toNat _ (by omega)⟩
    · exact ⟨_, srtDbgRead_running hheld hfn hstate, rfl, State.rdb_flag_self _ F.SRT_STATUS_REFUSED _ (by decide) (by decide),
        regsBut_wr_of F.SRT_STATUS_REFUSED _ 1 (regsBut_wr_of F.SRT_DBG_ADDR_ADDR _ _ (regsBut_refl s _) (by omega)
          (by simp [F.SRT_DBG_ADDR_ADDR])) (by omega) (by simp [F.SRT_STATUS_REFUSED])⟩
  · refine ⟨fun w hw hrd => ?_, fun x hx hnone => ?_⟩
    · obtain ⟨hframe, hg, hwait, hrun, hpc, hret, hregs⟩ := s.wake_leaves w (if soCmp w.cmp (s.soVal w.so) w.x then 0 else 1) hc hrd
      refine ⟨_, ?_, hframe, fun q hq => ?_, hwait, hrun, hpc, hret, hregs⟩
      · show execWaitTimeout core s = _
        unfold execWaitTimeout
        dsimp only
        rw [hw]
      · rw [hg q hq]
        split_ifs <;> rfl
    · refine ⟨_, asyncStoreFail_one hx hnone, rfl, ?_, ?_,
        State.rdb_flag_self _ F.SRT_STATUS_ASYNC_PENDING _ (by decide) (by decide), ?_⟩
      · rw [State.storeFailed, State.core_wr, State.core_setCore_self]
      · rw [State.storeFailed, State.core_wr, State.core_setCore_self]
      · exact regsBut_wr_of F.SRT_STATUS_ASYNC_PENDING _ 1 (regsBut_of_regs rfl) (by omega) (by simp [F.SRT_STATUS_ASYNC_PENDING])

end Sys2Proof
end

section
/-! SUPPORT. Settles O43: partition resets, the end of revocations, reclaimed contexts and range writes (sections 11.1, 14.3 to
14.5). -/

namespace Sys2Proof.Machine

/-! ### Partition resets (R525) -/

/-- The end of a reset: the partition is ACTIVE, and the FLR that started it is over. -/
theorem State.endReset_leaves (s : State) {p : Nat} (hp : p < 32) :
    onlyRegs s ((s.endReset p).wr F.HOST_FN_STATUS_FLR_ACTIVE p 0) ∧
    ((s.endReset p).wr F.HOST_FN_STATUS_FLR_ACTIVE p 0).partState p = partActive ∧
    ((s.endReset p).wr F.HOST_FN_STATUS_FLR_ACTIVE p 0).rdb F.PART_CTRL_RESET p = false ∧
    ((s.endReset p).wr F.HOST_FN_STATUS_FLR_ACTIVE p 0).rdb F.PART_RECOVERY_STATUS_RESET_DONE p = true ∧
    ((s.endReset p).wr F.HOST_FN_STATUS_FLR_ACTIVE p 0).rdb F.HOST_FN_STATUS_FLR_ACTIVE p = false := by
  refine ⟨onlyRegs_wr_of _ _ _ (onlyRegs_wr_of _ _ _ (onlyRegs_wr_of _ _ _ (onlyRegs_wr_of _ _ _ (onlyRegs_refl s)))),
    ?_, ?_, ?_, ?_⟩ <;>
  · simp (disch := first | decide | omega) only [State.endReset, State.partState, State.rdb, State.flag, State.rd_wr_reg,
      State.rd_wr_self]
    rfl

/-! ### The end of a revocation (R521) -/

theorem State.leaseRegs_only (s : State) (kind i : Nat) : onlyRegs s (s.leaseRegs kind i) := by
  unfold State.leaseRegs
  exact onlyRegs_foldl (f := fun (s : State) (r : RegSpec) => s.partReg r.reg i) (fun _ _ => rfl) _ s

/-- A channel's lease becomes FREE; its registers take their partition reset values. -/
theorem State.revoked_channel {s : State} {i : Nat} (hl : (s.lease leaseChannel i).state = 2) (hw : s.rangeWr = []) :
    s.revoked leaseChannel i = (s.setLease leaseChannel i
      { state := 0, holder := 0, epoch := (s.lease leaseChannel i).epoch }).leaseRegs leaseChannel i := by
  have hfinish : ∀ u : State, u.rangeWr = [] → u.rangeFinish leaseChannel = u := fun u hu => by
    rw [State.rangeFinish, hu]
    rfl
  have hregs : ∀ u : State, (u.leaseRegs leaseChannel i).rangeWr = u.rangeWr := fun u =>
    (u.leaseRegs_only leaseChannel i).keeps State.rangeWr rfl
  have hsync : ¬ leaseChannel = leaseSync := by decide
  have hconn : ¬ leaseChannel = leaseConn := by decide
  unfold State.revoked
  simp only [hl, hsync, hconn, ne_eq, not_true_eq_false, if_false, false_or, false_and, true_or, if_true]
  exact hfinish _ ((hregs _).trans hw)

theorem State.revoked_channel_leaves {s : State} {i : Nat} (hl : (s.lease leaseChannel i).state = 2) (hw : s.rangeWr = []) :
    (s.revoked leaseChannel i).lease leaseChannel i = { state := 0, holder := 0, epoch := (s.lease leaseChannel i).epoch } ∧
    s.revoked leaseChannel i =
      { s with regs := (s.revoked leaseChannel i).regs, leases := (s.revoked leaseChannel i).leases } := by
  rw [State.revoked_channel hl hw]
  have honly := State.leaseRegs_only (s.setLease leaseChannel i
    { state := 0, holder := 0, epoch := (s.lease leaseChannel i).epoch })
    leaseChannel i
  have hleases := honly.keeps State.leases rfl
  revert honly hleases
  generalize (s.setLease leaseChannel i _).leaseRegs leaseChannel i = u
  intro honly hleases
  refine ⟨?_, ?_⟩
  · rw [State.lease, hleases, State.setLease, Tab.get_set_self]
  · rw [hleases]
    exact honly

theorem revocationDone_channel {s : State} {i : Nat} (hl : (s.lease leaseChannel i).state = 2)
    (hrun : s.revoking leaseChannel i = false) (r : Nat) :
    s.revocationDone leaseChannel i r = (s.revoked leaseChannel i).flow := by
  rw [State.revocationDone, if_neg (not_not.2 hl), hrun]
  rfl

/-! ### Range writes (R120, R387, R523) -/

/-- A fold over the numbers below `m` that updates one place at each of those that `q` picks. -/
theorem foldl_range_update {β : Type} (obs : State → Nat → β) (f : β → β) {g : State → Nat → State} {N : Nat}
    (hg : ∀ u i c, i < N → c < N → obs (g u i) c = if c = i then f (obs u c) else obs u c) (q : Nat → Bool) (s : State)
    {m c : Nat} (hm : m ≤ N) (hc : c < N) :
    obs ((List.range m).foldl (fun u i => if q i then g u i else u) s) c = if c < m ∧ q c then f (obs s c) else obs s c := by
  induction m with
  | zero => simp
  | succ m ih =>
    have hstep : obs ((List.range (m + 1)).foldl (fun u i => if q i then g u i else u) s) c =
        if q m = true ∧ c = m then f (if c < m ∧ q c then f (obs s c) else obs s c)
        else if c < m ∧ q c then f (obs s c) else obs s c := by
      rw [List.range_succ, List.foldl_append, List.foldl_cons, List.foldl_nil, ← ih (by omega)]
      by_cases hq : q m = true
      · rw [if_pos hq, hg _ _ _ (by omega) hc]
        by_cases hcm : c = m <;> simp [hq, hcm]
      · simp [hq]
    rw [hstep]
    by_cases hcm : c = m
    · subst hcm
      simp
    · rw [if_neg (fun h => hcm h.2)]
      simp only [show c < m + 1 ↔ c < m by omega]

/-- What every step of a fold keeps, the fold keeps. -/
theorem foldl_observed {α β : Type} (obs : State → β) {g : State → α → State} (hg : ∀ u x, obs (g u x) = obs u) (l : List α)
    (s : State) : obs (l.foldl g s) = obs s := by
  induction l generalizing s with
  | nil => rfl
  | cons x l ih => exact (ih (g s x)).trans (hg s x)

/-- The lease a partition gets: HELD, with the epoch advanced by one. -/
def Lease.given (p : Nat) (l : Lease) : Lease := { state := 1, holder := p, epoch := (l.epoch + 1) % 2 ^ 32 }

theorem Lease.given_ne (p : Nat) (l : Lease) : l.given p ≠ l := fun h => by
  have hepoch := congrArg Lease.epoch h
  simp only [Lease.given] at hepoch
  omega

theorem State.lease_grantLease (s : State) (kind p i c : Nat) :
    (s.grantLease kind i p).lease kind c = if c = i then (s.lease kind c).given p else s.lease kind c := by
  show Tab.get Lease.free (Tab.set Lease.free s.leases (kind * 4096 + i)
    { state := 1, holder := p, epoch := nextEpoch (s.lease kind i).epoch })
    (kind * 4096 + c) = _
  by_cases h : c = i
  · subst h
    rw [if_pos rfl, Tab.get_set_self]
    rfl
  · rw [if_neg h, Tab.get_set_ne _ _ _ (show kind * 4096 + c ≠ kind * 4096 + i by omega)]
    rfl

theorem State.lease_giveLease {kind : Nat}
    (hk : kind = leaseSync ∨ kind = leaseConn) (p : Nat) (s : State) (i c : Nat) (_ : i < 4096)
    (_ : c < 4096) : (s.giveLease kind i p).lease kind c = if c = i then (s.lease kind c).given p else s.lease kind c := by
  rcases hk with rfl | rfl <;> exact s.lease_grantLease _ p i c

theorem State.soVal_giveLease (p : Nat) (s : State) (i c : Nat) (_ : i < 4096) (_ : c < 4096) :
    (s.giveLease leaseSync i p).soVal c = if c = i then 0 else s.soVal c := Tab.get_set (0 : Word) s.sos i c 0

theorem State.connState_giveLease (p : Nat) (s : State) (i c : Nat) (_ : i < 4096) (_ : c < 4096) :
    (s.giveLease leaseConn i p).connState c = if c = i then connClosed else s.connState c := by
  show ((s.grantLease leaseConn i p).freshConn i p).rd F.CRR_CONN_STATE_STATE c = _
  rw [State.freshConn]
  by_cases h : c = i
  · subst h
    rw [if_pos rfl, State.rd_wr_disjoint _ F.CRR_CONN_STATE_PARTITION F.CRR_CONN_STATE_STATE _ _ rfl (by decide) (by decide),
      State.rd_wr_self _ F.CRR_CONN_STATE_STATE _ _ (by decide)]
    rfl
  · rw [if_neg h, State.rd_wr_inst _ F.CRR_CONN_STATE_PARTITION F.CRR_CONN_STATE_STATE _ rfl h,
      State.rd_wr_inst _ F.CRR_CONN_STATE_STATE F.CRR_CONN_STATE_STATE _ rfl h]
    rfl

/-- A range value's fields. -/
theorem bitsOf_range {b n : Nat} (hb : b < 4096) (hn : n < 8192) :
    bitsOf (b + n * 2 ^ 12) 0 12 = b ∧ bitsOf (b + n * 2 ^ 12) 12 13 = n := by
  simp only [bitsOf]
  omega

theorem inRange_value {b n c : Nat} (hb : b < 4096) (hn : n < 8192) :
    inRange (b + n * 2 ^ 12) c = (decide (b ≤ c) && decide (c < b + n)) := by
  rw [inRange, (bitsOf_range hb hn).1, (bitsOf_range hb hn).2]

/-- No number lies in the empty range. -/
theorem inRange_zero (n : Nat) : inRange 0 n = false := by
  simp [inRange, bitsOf]

section RangeWrite

variable {s : State} {kind p b n : Nat}

theorem State.rangeWrite_overlap (hheld : s.pins.held = false) (hpart : s.partState p ≠ partResetting) (hw : s.rangeWr = [])
    (hb : b < 4096) (hn : n < 8192) (hbig : 4096 < b + n) :
    s.rangeWrite kind p (b + n * 2 ^ 12) = s.flag F.SO_RANGE_ERR_OVERLAP 0 := by
  unfold State.rangeWrite
  dsimp only
  rw [(bitsOf_range hb hn).1, (bitsOf_range hb hn).2, if_neg (not_or.2 ⟨by rw [hheld]; decide, hpart⟩), hw,
    if_neg (by simp [Tab.find?]), if_pos (.inl hbig)]

/-- The instances of a range `v` are given to a partition that had none. -/
def State.giveAll (s : State) (kind p v : Nat) : State :=
  (List.range 4096).foldl (fun u i => if inRange v i && !inRange 0 i then u.giveLease kind i p else u) s

/-- The range register takes its value, and no write of the kind is pending. -/
def State.rangeShown (s : State) (kind p v : Nat) : State :=
  { s.setReg (rangeReg kind) p (BitVec.ofNat 64 v) with rangeWr := Tab.erase s.rangeWr kind }

/-- The state after the instances are given, and the register takes the range. -/
def State.rangeGiven (s : State) (kind p v : Nat) : State :=
  ({ s with rangeWr := [(kind, (p, v))] }.giveAll kind p v).rangeShown kind p v

/-- What a partition is given: the leases of the range's instances, the objects at 0, the connections CLOSED. -/
theorem State.giveAll_leaves (hk : kind = leaseSync ∨ kind = leaseConn) (hb : b < 4096) (hn : n < 8192) (s : State) :
    (s.giveAll kind p (b + n * 2 ^ 12)).rangeWr = s.rangeWr ∧
    (∀ c, c < 4096 → (s.giveAll kind p (b + n * 2 ^ 12)).lease kind c =
      if b ≤ c ∧ c < b + n then (s.lease kind c).given p else s.lease kind c) ∧
    (kind = leaseConn → ∀ c, c < 4096 → b ≤ c → c < b + n → (s.giveAll kind p (b + n * 2 ^ 12)).connState c = connClosed) ∧
    (kind = leaseSync → ∀ c, c < 4096 → b ≤ c → c < b + n → (s.giveAll kind p (b + n * 2 ^ 12)).soVal c = 0) := by
  have hpick : ∀ c, (inRange (b + n * 2 ^ 12) c && !inRange 0 c) = decide (b ≤ c ∧ c < b + n) := fun c => by
    rw [inRange_zero, inRange_value hb hn, Bool.not_false, Bool.and_true, Bool.decide_and]
  unfold State.giveAll
  simp only [hpick]
  generalize hm : 4096 = m
  refine ⟨foldl_observed State.rangeWr (fun v i => ?_) _ s, fun c hc => ?_, ?_, ?_⟩
  · split
    · rcases hk with rfl | rfl <;> rfl
    · rfl
  · rw [foldl_range_update (fun u c => u.lease kind c) (Lease.given p) (N := 4096) (State.lease_giveLease hk p) _ s (by omega)
      (by omega)]
    simp only [hc, decide_eq_true_eq, true_and]
  · rintro rfl c hc hlo hhi
    rw [foldl_range_update State.connState (fun _ => connClosed) (N := 4096)
      (State.connState_giveLease p) _ s (by omega) (by omega)]
    exact if_pos ⟨hc, decide_eq_true ⟨hlo, hhi⟩⟩
  · rintro rfl c hc hlo hhi
    rw [foldl_range_update State.soVal (fun _ => 0) (N := 4096) (State.soVal_giveLease p) _ s (by omega) (by omega)]
    exact if_pos ⟨hc, decide_eq_true ⟨hlo, hhi⟩⟩

/-- The range register and the pending write after a range is given; leases, objects and connections stand. -/
theorem State.rangeShown_leaves (hk : kind = leaseSync ∨ kind = leaseConn) (hp : p < 32) {v : Nat} (hv : v < 2 ^ 64)
    (hw : s.rangeWr = [(kind, (p, v))]) :
    (s.rangeShown kind p v).rangeVal kind p = v ∧ (s.rangeShown kind p v).rangeWr = [] ∧
    (∀ c, (s.rangeShown kind p v).lease kind c = s.lease kind c) ∧ (∀ c, (s.rangeShown kind p v).soVal c = s.soVal c) ∧
    (∀ c, c < 4096 → (s.rangeShown kind p v).connState c = s.connState c) := by
  refine ⟨?_, ?_, fun c => rfl, fun c => rfl, fun c hc => ?_⟩
  · show ((s.setReg (rangeReg kind) p (BitVec.ofNat 64 v)).reg (rangeReg kind) p).toNat = _
    rw [State.reg_setReg_self, BitVec.toNat_ofNat, Nat.mod_eq_of_lt hv]
  · show Tab.erase s.rangeWr kind = []
    rw [hw]
    simp [Tab.erase]
  · refine State.rd_setReg_of_reg s F.CRR_CONN_STATE_STATE _ ?_ (by omega) (by omega)
    rcases hk with rfl | rfl <;> decide

theorem State.rangeGiven_leaves (hk : kind = leaseSync ∨ kind = leaseConn) (hp : p < 32) (hb : b < 4096)
    (hn : n < 8192) (s : State) :
    (s.rangeGiven kind p (b + n * 2 ^ 12)).rangeVal kind p = b + n * 2 ^ 12 ∧
    (s.rangeGiven kind p (b + n * 2 ^ 12)).rangeWr = [] ∧
    (∀ c, c < 4096 → (s.rangeGiven kind p (b + n * 2 ^ 12)).lease kind c =
      if b ≤ c ∧ c < b + n then (s.lease kind c).given p else s.lease kind c) ∧
    (kind = leaseConn → ∀ c, c < 4096 → b ≤ c → c < b + n → (s.rangeGiven kind p (b + n * 2 ^ 12)).connState c = connClosed) ∧
    (kind = leaseSync → ∀ c, c < 4096 → b ≤ c → c < b + n → (s.rangeGiven kind p (b + n * 2 ^ 12)).soVal c = 0) := by
  obtain ⟨hw, hlease, hconn, hso⟩ := State.giveAll_leaves (p := p) hk hb hn { s with rangeWr := [(kind, (p, b + n * 2 ^ 12))] }
  obtain ⟨hval, hnone, hlease', hso', hconn'⟩ := State.rangeShown_leaves hk hp (by omega) hw
  exact ⟨hval, hnone, fun c hc => (hlease' c).trans (hlease c hc), fun hk c hc hlo hhi => (hconn' c hc).trans
    (hconn hk c hc hlo hhi),
    fun hk c hc hlo hhi => (hso' c).trans (hso hk c hc hlo hhi)⟩

theorem State.rangeWrite_given (hheld : s.pins.held = false) (hpart : s.partState p ≠ partResetting) (hw : s.rangeWr = [])
    (hold : s.rangeVal kind p = 0) (hb : b < 4096) (hn : n < 8192) (hfit : b + n ≤ 4096)
    (hothers : ∀ q, q < 32 → q ≠ p → s.rangeVal kind q = 0) (hquota : kind = leaseSync → s.rdb F.PART_QUOTA_SO_EN p = false) :
    s.rangeWrite kind p (b + n * 2 ^ 12) = (s.rangeGiven kind p (b + n * 2 ^ 12)).flow := by
  have hnone : ¬ (List.range 32).any (fun q => q != p && s.rangeVal kind q / 2 ^ 12 != 0 &&
      (decide (b < bitsOf (s.rangeVal kind q) 0 12 + bitsOf (s.rangeVal kind q) 12 13) &&
        decide (bitsOf (s.rangeVal kind q) 0 12 < b + n))) = true := by
    simp only [List.any_eq_true, not_exists, not_and]
    intro q hq
    by_cases hqp : q = p
    · simp [hqp]
    · rw [hothers q (List.mem_range.1 hq) hqp]
      simp
  have hput : Tab.put s.rangeWr kind (p, b + n * 2 ^ 12) = [(kind, (p, b + n * 2 ^ 12))] := by rw [hw]; rfl
  have hfold : ∀ u : State, (List.range 4096).foldl (fun u i =>
      if inRange 0 i && !inRange (b + n * 2 ^ 12) i && (u.lease kind i).state == 1 then u.revoke kind i else u) u = u := fun u =>
    foldl_of_fixed (fun i _ => by rw [inRange_zero, Bool.false_and, Bool.false_and]; rfl)
  have hval : ({ s with rangeWr := [(kind, (p, b + n * 2 ^ 12))] } : State).rangeVal kind p = 0 := hold
  have hfinish : ({ s with rangeWr := [(kind, (p, b + n * 2 ^ 12))] } : State).rangeFinish kind =
      s.rangeGiven kind p (b + n * 2 ^ 12) := by
    have hfind : Tab.find? [(kind, (p, b + n * 2 ^ 12))] kind = some (p, b + n * 2 ^ 12) := by simp [Tab.find?]
    unfold State.rangeFinish
    dsimp only
    rw [hfind]
    dsimp only
    rw [hval, if_neg]
    · rfl
    · simp [inRange_zero]
  unfold State.rangeWrite
  dsimp only
  rw [(bitsOf_range hb hn).1, (bitsOf_range hb hn).2, if_neg (not_or.2 ⟨by rw [hheld]; decide, hpart⟩),
    if_neg (by rw [hw]; simp [Tab.find?]), if_neg (not_or.2 ⟨by omega, fun h => hnone h.2⟩), hput, hold, if_neg, hfold, hfinish]
  rintro ⟨hk, hen, -⟩
  exact Bool.false_ne_true ((hquota hk).symm.trans hen)

end RangeWrite

end Sys2Proof.Machine

namespace Sys2Proof
open Sys2Proof.Machine

/-- Settles O43: resets and revocations by their guards; a range that meets no other by a fold that gives each number once. -/
theorem resetsAndRevocations : Obligations.ResetsAndRevocations := by
  intro s hheld
  have hlive : ¬ s.pins.held = true := by rw [hheld]; decide
  refine ⟨fun p hpart => ?_, fun p hpart => ⟨?_, _, ?_, s.endReset_leaves p.isLt⟩, fun i hl hrun hw => ?_, fun k i hl => ?_,
    fun ctx hl => ?_, fun p base count hpart hbig hw => ?_, fun p base count hpart hw hold hpos hfit hothers => ?_,
    fun p base count hpart hw hold hpos hfit hothers hquota => ?_, fun die k i p hl hoff => ?_⟩
  · exact congrArg Host.Outcome.next ((if_neg hlive).trans (if_neg hpart))
  · exact congrArg Host.Outcome.next ((if_neg hlive).trans (if_pos hpart))
  · exact congrArg Host.Outcome.next ((if_neg hlive).trans (if_pos hpart))
  · refine ⟨s.revoked leaseChannel i.toNat, congrArg Host.Outcome.next ((if_neg hlive).trans
      (revocationDone_channel hl hrun 0)), ?_⟩
    obtain ⟨hlease, hframe⟩ := State.revoked_channel_leaves hl hw
    exact ⟨hlease, hframe⟩
  · exact congrArg Host.Outcome.next ((if_neg hlive).trans (if_pos hl))
  · have hx : ctx.toNat < 128 := ctx.isLt
    have hctx : ctxKind ctx.toNat = 6 ∧ ctxIndex ctx.toNat = ctx.toNat := ⟨if_pos hx, if_pos hx⟩
    show execContextReclaim false ctx s = _
    unfold execContextReclaim
    dsimp only
    rw [if_neg Bool.false_ne_true, hctx.1, hctx.2, if_neg (by rw [hheld, hl, decide_eq_false (by omega)]; decide)]
  · have hover : ∀ kind, s.rangeWrite kind p.toNat (base.toNat + count.toNat * 2 ^ 12) = s.flag F.SO_RANGE_ERR_OVERLAP 0 :=
      fun kind =>
      State.rangeWrite_overlap hheld hpart hw base.isLt count.isLt hbig
    have hleaves : onlyRegs s (s.flag F.SO_RANGE_ERR_OVERLAP 0) ∧
      (s.flag F.SO_RANGE_ERR_OVERLAP 0).rdb F.SO_RANGE_ERR_OVERLAP 0 = true ∧
        regsBut s (s.flag F.SO_RANGE_ERR_OVERLAP 0) [(Reg.SO_RANGE_ERR, 0)] :=
      ⟨rfl, State.rdb_flag_self _ F.SO_RANGE_ERR_OVERLAP 0 (by decide) (by decide),
      regsBut_wr s F.SO_RANGE_ERR_OVERLAP 0 1 (by decide)⟩
    exact ⟨⟨_, congrArg Host.Outcome.next (hover leaseSync), hleaves⟩, ⟨_, congrArg Host.Outcome.next (hover leaseConn), hleaves⟩⟩
  · obtain ⟨hval, hnone, hlease, hconn, -⟩ := State.rangeGiven_leaves (.inr rfl) p.isLt base.isLt count.isLt s
    refine ⟨_, congrArg Host.Outcome.next (State.rangeWrite_given hheld hpart hw hold base.isLt count.isLt hfit hothers
      (fun h => absurd h (by decide))), hval, hnone, fun c hc => ⟨fun hin => ?_, fun h => ?_⟩⟩
    · rw [hlease c hc, if_pos hin]
      exact ⟨rfl, hconn rfl c hc hin.1 hin.2, Lease.given_ne _ _⟩
    · by_contra hout
      exact h.2.2 ((hlease c hc).trans (if_neg hout))
  · obtain ⟨hval, hnone, hlease, -, hso⟩ := State.rangeGiven_leaves (.inl rfl) p.isLt base.isLt count.isLt s
    exact ⟨_, congrArg Host.Outcome.next (State.rangeWrite_given hheld hpart hw hold base.isLt count.isLt hfit hothers
      (fun _ => hquota)), hval, hnone, fun n hn hlo hhi => ⟨hso rfl n hn hlo hhi, (hlease n hn).trans (if_pos ⟨hlo, hhi⟩)⟩⟩
  · exact congrArg Host.Outcome.next ((if_neg hlive).trans ((if_neg (not_not.2 hl)).trans (if_neg (by rw [hoff]; decide))))

end Sys2Proof
end

section
/-! SUPPORT. Settles O24: completions, completion timeouts and the quarantine of tags (section 12.7). -/

namespace Sys2Proof.Machine

section Reads

variable {port : BitVec 3} {tag : BitVec 14} {s : State} {r : ReadRec}

theorem cplReceived_eq (hheld : s.pins.held = false) (hr : Tab.find? s.host.reads (readKey port.toNat tag.toNat) = some r)
    (habs : r.absorbed = false) (status : BitVec 3) (data : List Byte) :
    exec (.cplReceived port tag status data) s = .next
      (let u := s.endRead (readKey port.toNat tag.toNat) r
       if status = 0 then (u.readGot r data).flow
       else ((if status = 4 then u.emit (.aer r.fn aerPoison) else u).readFailed r
         (if status = 1 then 0x0031 else if status = 2 then 0x0032 else 0x0033)).flow) := by
  show execCplReceived port tag status data s = _
  unfold execCplReceived
  dsimp only
  rw [if_neg (by rw [hheld]; decide), hr]
  dsimp only
  rw [if_neg (by rw [habs]; decide)]

theorem cplReceived_unexpected (hheld : s.pins.held = false)
    (hr : Tab.find? s.host.reads (readKey port.toNat tag.toNat) = none)
    (hq : Tab.find? s.host.quar (readKey port.toNat tag.toNat) = none) (status : BitVec 3) (data : List Byte) :
    exec (.cplReceived port tag status data) s = .next (s.emit (.aer (s.portFn port.toNat) aerUnexpected)) := by
  show execCplReceived port tag status data s = _
  unfold execCplReceived
  dsimp only
  rw [if_neg (by rw [hheld]; decide), hr, hq]

theorem completionTimeout_eq (hheld : s.pins.held = false)
    (hr : Tab.find? s.host.reads (readKey port.toNat tag.toNat) = some r) (habs : r.absorbed = false) :
    exec (.completionTimeout port tag) s = .next (((((s.endRead (readKey port.toNat tag.toNat) r).quarantine
      (readKey port.toNat tag.toNat) r.fn false).emit (.aer r.fn aerTimeout)).readFailed r 0x0030).flow) := by
  show execCompletionTimeout port tag s = _
  unfold execCompletionTimeout
  dsimp only
  rw [if_neg (by rw [hheld]; decide), hr]
  dsimp only
  rw [if_neg (by rw [habs]; decide)]

end Reads

theorem readKey_port (port : BitVec 3) (tag : BitVec 14) : readKey port.toNat tag.toNat / 16384 = port.toNat := by
  have htag := tag.isLt
  rw [readKey]
  omega

/-- A quarantine's end returns the tag and takes one from each count of quarantined tags. -/
theorem State.unquarantine_leaves {s : State} {key : Nat} {q : QuarRec} (hq : Tab.find? s.host.quar key = some q)
    (hport : key / 16384 < 8) :
    Tab.find? (s.unquarantine key).host.quar key = none ∧
    (s.unquarantine key).rd F.HOST_PORT_STATUS_TAGS_QUAR (key / 16384) = s.rd F.HOST_PORT_STATUS_TAGS_QUAR (key / 16384) - 1 ∧
    (q.fn < 64 → (s.unquarantine key).rd F.HOST_FN_STATUS_QUAR_TAGS q.fn = s.rd F.HOST_FN_STATUS_QUAR_TAGS q.fn - 1) ∧
    (s.unquarantine key).mem = s.mem := by
  let u : State := { s with host := { s.host with quar := Tab.erase s.host.quar key } }
  have hless : ∀ (f : Fld) (i : Nat), (s.rd f i - 1) % 2 ^ f.width = s.rd f i - 1 := fun f i =>
    Nat.mod_eq_of_lt (lt_of_le_of_lt (Nat.sub_le _ 1) (Fld.get_lt f _))
  have heq : s.unquarantine key = if q.fn < 64 then
      (u.wr F.HOST_PORT_STATUS_TAGS_QUAR (key / 16384) (s.rd F.HOST_PORT_STATUS_TAGS_QUAR (key / 16384) - 1)).wr
        F.HOST_FN_STATUS_QUAR_TAGS q.fn (s.rd F.HOST_FN_STATUS_QUAR_TAGS q.fn - 1)
      else u.wr F.HOST_PORT_STATUS_TAGS_QUAR (key / 16384) (s.rd F.HOST_PORT_STATUS_TAGS_QUAR (key / 16384) - 1) := by
    unfold State.unquarantine
    rw [hq]
    dsimp only
    split
    · next hfn =>
      rw [State.rd_wr_reg _ F.HOST_PORT_STATUS_TAGS_QUAR F.HOST_FN_STATUS_QUAR_TAGS _ (by decide) (by omega) (by omega)]
      rfl
    · rfl
  rw [heq]
  have herased : Tab.find? u.host.quar key = none := Tab.find?_erase_self s.host.quar key
  by_cases hfn : q.fn < 64
  · rw [if_pos hfn]
    refine ⟨herased, ?_, fun _ => ?_, rfl⟩
    · rw [State.rd_wr_reg _ F.HOST_FN_STATUS_QUAR_TAGS F.HOST_PORT_STATUS_TAGS_QUAR _ (by decide) (by omega) (by omega),
        State.rd_wr_self _ F.HOST_PORT_STATUS_TAGS_QUAR _ _ (by decide), hless]
    · rw [State.rd_wr_self _ F.HOST_FN_STATUS_QUAR_TAGS _ _ (by decide), hless]
  · rw [if_neg hfn]
    refine ⟨herased, ?_, fun h => absurd h hfn, rfl⟩
    rw [State.rd_wr_self _ F.HOST_PORT_STATUS_TAGS_QUAR _ _ (by decide), hless]

end Sys2Proof.Machine

namespace Sys2Proof
open Sys2Proof.Machine

/-- Settles O24: a completion by whether the tag has a read, a quarantine or neither. -/
theorem readCompletions : Obligations.ReadCompletions := by
  intro port tag s hheld
  refine ⟨fun r data hr habs => cplReceived_eq hheld hr habs 0 data, fun r data hr habs => cplReceived_eq hheld hr habs 1 data,
    fun st data hr hq => ⟨_, cplReceived_unexpected hheld hr hq st data, rfl, rfl⟩,
    fun r hr habs => completionTimeout_eq hheld hr habs, fun q hq => ?_⟩
  have hport := readKey_port port tag
  have hleaves := State.unquarantine_leaves hq (by rw [hport]; exact port.isLt)
  rw [hport] at hleaves
  exact ⟨_, congrArg Host.Outcome.next (if_neg (by rw [hheld]; decide)), hleaves⟩

end Sys2Proof
end

section
/-! SUPPORT. Settles O31: a translation command's words, its checks, and what it does (section 8.4). -/

namespace Sys2Proof.Machine

/-- Word 0 of the command with the row's operation in it. -/
def dtuWord (c0 : Word) (op : Nat) : Nat := c0.toNat / 256 * 256 + op

/-- The state with the command's words written and GO set. -/
def State.dtuWords (s : State) (k op : Nat) (c0 c1 c2 : Word) : State :=
  (((s.wr F.DTU_CMD0_WORD k (dtuWord c0 op)).setReg Reg.DTU_CMD1 k c1).setReg Reg.DTU_CMD2 k c2).wr F.DTU_CMD_CTRL_GO k 1

/-- What the words read back as. -/
theorem State.dtuWords_rd (s : State) {k op : Nat} (c0 c1 c2 : Word) (hk : k < 64) (hop : op < 256) :
    (s.dtuWords k op c0 c1 c2).rd F.DTU_CMD0_WORD k = dtuWord c0 op ∧
    (s.dtuWords k op c0 c1 c2).rd F.DTU_CMD1_WORD k = c1.toNat ∧ (s.dtuWords k op c0 c1 c2).rd F.DTU_CMD2_WORD k = c2.toNat := by
  have hc0 := c0.isLt
  have hwhole : ∀ w : Word, w.toNat / 2 ^ 0 % 2 ^ 64 = w.toNat :=
    fun w => by rw [Nat.pow_zero, Nat.div_one]; exact Nat.mod_eq_of_lt w.isLt
  unfold State.dtuWords
  refine ⟨?_, ?_, ?_⟩
  · rw [State.rd_wr_reg _ F.DTU_CMD_CTRL_GO F.DTU_CMD0_WORD _ (by decide) (by omega) (by omega),
      State.rd_setReg_of_reg _ F.DTU_CMD0_WORD _ (by decide) (by omega) (by omega),
      State.rd_setReg_of_reg _ F.DTU_CMD0_WORD _ (by decide) (by omega) (by omega),
      State.rd_wr_self _ F.DTU_CMD0_WORD _ _ (by decide)]
    exact Nat.mod_eq_of_lt (show dtuWord c0 op < 18446744073709551616 by rw [dtuWord]; omega)
  · rw [State.rd_wr_reg _ F.DTU_CMD_CTRL_GO F.DTU_CMD1_WORD _ (by decide) (by omega) (by omega),
      State.rd_setReg_of_reg _ F.DTU_CMD1_WORD _ (by decide) (by omega) (by omega)]
    exact (State.rd_setReg_self _ F.DTU_CMD1_WORD k c1).trans (hwhole c1)
  · rw [State.rd_wr_reg _ F.DTU_CMD_CTRL_GO F.DTU_CMD2_WORD _ (by decide) (by omega) (by omega)]
    exact (State.rd_setReg_self _ F.DTU_CMD2_WORD k c2).trans (hwhole c2)

/-- GO of an idle set, with the other set idle too, runs the command at once. -/
theorem State.dtuGo_run {s : State} {k : Nat} (hgo : s.rdb F.DTU_CMD_CTRL_GO k = false)
    (hother : s.dtuRunning (otherSet k) = false) : s.dtuGo k = ((s.wr F.DTU_CMD_CTRL_GO k 1).dtuExec k).flow := by
  have hrunning : (s.wr F.DTU_CMD_CTRL_GO k 1).dtuRunning (otherSet k) = false := hother
  unfold State.dtuGo
  rw [if_neg (by rw [hgo]; decide)]
  dsimp only
  rw [if_neg (by rw [hrunning]; decide)]

/-- A command of an idle set, with the other set idle too, runs at once (R296). -/
theorem State.dtuCommand_run {s : State} {k op : Nat} (c0 c1 c2 : Word) (hk : k < 64) (hopen : s.setOpen k = true)
    (hgo : s.rdb F.DTU_CMD_CTRL_GO k = false) (hother : s.dtuRunning (otherSet k) = false) :
    s.dtuCommand k op c0 c1 c2 = ((s.dtuWords k op c0 c1 c2).dtuExec k).flow := by
  have hidle : (((s.wr F.DTU_CMD0_WORD k (dtuWord c0 op)).setReg Reg.DTU_CMD1 k c1).setReg Reg.DTU_CMD2 k c2).rdb
      F.DTU_CMD_CTRL_GO k = false := by
    rw [State.rdb, State.rd_setReg_of_reg _ F.DTU_CMD_CTRL_GO _ (by decide) (by omega) (by omega),
      State.rd_setReg_of_reg _ F.DTU_CMD_CTRL_GO _ (by decide) (by omega) (by omega),
      State.rd_wr_reg _ F.DTU_CMD0_WORD F.DTU_CMD_CTRL_GO _ (by decide) (by omega) (by omega)]
    exact hgo
  unfold State.dtuCommand
  rw [if_neg (by rw [hopen]; decide), if_neg (by rw [hgo]; decide)]
  exact State.dtuGo_run hidle hother

/-- The operation stands in the low byte of word 0. -/
theorem dtuWord_op (c0 : Word) {op : Nat} (hop : op < 256) : Dtu.op (dtuWord c0 op) = op := by
  rw [Dtu.op, bitsOf_zero, dtuWord]
  omega

section Run

variable {s : State} {k op : Nat} {c0 c1 c2 : Word}

/-- A command whose checks fail ends with its result. -/
theorem State.dtuExec_fails (hk : k < 64) (hop : op < 256) {r : Nat} (hr : 0 < r)
    (hcheck : (s.dtuWords k op c0 c1 c2).dtuCheck (k / 2) (dtuWord c0 op) c1.toNat c2.toNat = r) :
    (s.dtuWords k op c0 c1 c2).dtuExec k = (s.dtuWords k op c0 c1 c2).dtuDone k (k / 2) r 0 := by
  obtain ⟨hw, hva, hn⟩ := s.dtuWords_rd c0 c1 c2 hk hop
  obtain ⟨r, rfl⟩ := Nat.exists_eq_succ_of_ne_zero (Nat.pos_iff_ne_zero.1 hr)
  simp only [State.dtuExec, hw, hva, hn, hcheck]

end Run

end Sys2Proof.Machine

namespace Sys2Proof
open Sys2Proof.Machine

/-- Settles O31: the words read back as written, so the checks and the act are those of the command's own operands. -/
theorem translationCommands : Obligations.TranslationCommands := by
  intro set c0 c1 c2 s hopen hgo hother
  have hk : set.toNat < 64 := set.isLt
  have hwords : ∀ op, op < 256 → (s.dtuWords set.toNat op c0 c1 c2).rd F.DTU_CMD0_WORD set.toNat = dtuWord c0 op ∧
      (s.dtuWords set.toNat op c0 c1 c2).rd F.DTU_CMD1_WORD set.toNat = c1.toNat ∧
      (s.dtuWords set.toNat op c0 c1 c2).rd F.DTU_CMD2_WORD set.toNat = c2.toNat ∧ Dtu.op (dtuWord c0 op) = op := fun op hop =>
    let ⟨hw, hva, hn⟩ := s.dtuWords_rd c0 c1 c2 hk hop
    ⟨hw, hva, hn, dtuWord_op c0 hop⟩
  have hrun : ∀ op u, (s.dtuWords set.toNat op c0 c1 c2).dtuExec set.toNat = u →
      s.dtuCommand set.toNat op c0 c1 c2 = u.flow := fun op u hu =>
    (State.dtuCommand_run c0 c1 c2 hk hopen hgo hother).trans (congrArg State.flow hu)
  refine ⟨fun u hcheck hmap => congrArg Host.Outcome.next (hrun 1 _ ?_), fun hcheck => congrArg Host.Outcome.next (hrun 2 _ ?_),
    fun hcheck => congrArg Host.Outcome.next (hrun 3 _ ?_), fun hcheck => congrArg Host.Outcome.next (hrun 4 _ ?_),
    fun hcheck => congrArg Host.Outcome.next (hrun 5 _ ?_), fun hcheck => congrArg Host.Outcome.next (hrun 6 _ ?_),
    fun hcheck => congrArg Host.Outcome.next (hrun 7 _ ?_), fun r hr hcheck => congrArg Host.Outcome.next (hrun 2 _ ?_)⟩
  · obtain ⟨hw, hva, hn, hop⟩ := hwords 1 (by decide)
    have hc : (s.dtuWords set.toNat 1 c0 c1 c2).dtuCheck (set.toNat / 2) (dtuWord c0 1) c1.toNat c2.toNat = 0 := hcheck
    have hm : (s.dtuWords set.toNat 1 c0 c1 c2).mapRange (set.toNat / 2) (dtuWord c0 1) c1.toNat c2.toNat = some u := hmap
    simp only [State.dtuExec, hw, hva, hn, hc, hop, hm]
  · obtain ⟨hw, hva, hn, hop⟩ := hwords 2 (by decide)
    have hc : (s.dtuWords set.toNat 2 c0 c1 c2).dtuCheck (set.toNat / 2) (dtuWord c0 2) c1.toNat c2.toNat = 0 := hcheck
    simp only [State.dtuExec, hw, hva, hn, hc, hop]
    rfl
  · obtain ⟨hw, hva, hn, hop⟩ := hwords 3 (by decide)
    have hc : (s.dtuWords set.toNat 3 c0 c1 c2).dtuCheck (set.toNat / 2) (dtuWord c0 3) c1.toNat c2.toNat = 0 := hcheck
    simp only [State.dtuExec, hw, hva, hn, hc, hop]
    rfl
  · obtain ⟨hw, hva, hn, hop⟩ := hwords 4 (by decide)
    have hc : (s.dtuWords set.toNat 4 c0 c1 c2).dtuCheck (set.toNat / 2) (dtuWord c0 4) c1.toNat c2.toNat = 0 := hcheck
    simp only [State.dtuExec, hw, hva, hn, hc, hop]
    rfl
  · obtain ⟨hw, hva, hn, hop⟩ := hwords 5 (by decide)
    have hc : (s.dtuWords set.toNat 5 c0 c1 c2).dtuCheck (set.toNat / 2) (dtuWord c0 5) c1.toNat c2.toNat = 0 := hcheck
    simp only [State.dtuExec, hw, hva, hn, hc, hop]
    rfl
  · obtain ⟨hw, hva, hn, hop⟩ := hwords 6 (by decide)
    have hc : (s.dtuWords set.toNat 6 c0 c1 c2).dtuCheck (set.toNat / 2) (dtuWord c0 6) c1.toNat c2.toNat = 0 := hcheck
    simp only [State.dtuExec, hw, hva, hn, hc, hop]
    rfl
  · obtain ⟨hw, hva, hn, hop⟩ := hwords 7 (by decide)
    have hc : (s.dtuWords set.toNat 7 c0 c1 c2).dtuCheck (set.toNat / 2) (dtuWord c0 7) c1.toNat c2.toNat = 0 := hcheck
    simp only [State.dtuExec, hw, hva, hn, hc, hop]
    rfl
  · exact State.dtuExec_fails hk (by decide) hr hcheck

end Sys2Proof
end

section
/-! SUPPORT. Settles O33: weight windows and prefetch streams start, are refused and stop (sections 8.6 and 8.7). -/

namespace Sys2Proof.Machine

/-- A one-bit field is the word's bit. -/
theorem Fld.get_bit (f : Fld) (w : Word) (hf : f.width = 1) : f.get w = (w.getLsbD f.lo).toNat := by
  rw [Fld.get, hf, BitVec.getLsbD, Nat.testBit_eq_decide_div_mod_eq]
  rcases Nat.mod_two_eq_zero_or_one (w.toNat / 2 ^ f.lo) with h | h <;> simp [h]

/-- EN and KIND of the three rows' words. -/
theorem strmWord_fields (cfg : Word) :
    (F.TIER_STRM_CFG_EN.get ((cfg ||| 1) &&& ~~~ 2) = 1 ∧ F.TIER_STRM_CFG_KIND.get ((cfg ||| 1) &&& ~~~ 2) = 0) ∧
    (F.TIER_STRM_CFG_EN.get (cfg ||| 3) = 1 ∧ F.TIER_STRM_CFG_KIND.get (cfg ||| 3) = 1) ∧
    F.TIER_STRM_CFG_EN.get (cfg &&& ~~~ 1) = 0 := by
  refine ⟨⟨?_, ?_⟩, ⟨?_, ?_⟩, ?_⟩ <;>
  · rw [Fld.get_bit]
    · simp [F.TIER_STRM_CFG_EN, F.TIER_STRM_CFG_KIND]
    · rfl

section Cfg

variable {s : State} {i : Nat} {v : Word}

theorem State.strmFields_change (s : State) (v : Word) (hi : i < 256) :
    RegChange s (s.strmFields i v) [(Reg.TIER_STRM_CFG, i)] := by
  have hput : ∀ (u : State) (f : Fld), f.reg = Reg.TIER_STRM_CFG → RegChange s u [(Reg.TIER_STRM_CFG, i)] →
      RegChange s (u.wr f i (f.get v)) [(Reg.TIER_STRM_CFG, i)] := fun u f hf h => h.wr f i _ (by omega) (by simp [hf])
  exact hput _ _ rfl (hput _ _ rfl (hput _ _ rfl (hput _ _ rfl (hput _ _ rfl (hput _ _ rfl (RegChange.refl s _))))))

/-- The fields take the write's values, but EN stands. -/
theorem State.strmFields_rd (s : State) (i : Nat) (v : Word) :
    (s.strmFields i v).rd F.TIER_STRM_CFG_KIND i = F.TIER_STRM_CFG_KIND.get v ∧
    (s.strmFields i v).rd F.TIER_STRM_CFG_EN i = s.rd F.TIER_STRM_CFG_EN i := by
  unfold State.strmFields
  simp (disch := decide) only [State.rd_wr_disjoint, State.rd_wr_self]
  exact ⟨Nat.mod_eq_of_lt (Fld.get_lt _ _), trivial⟩

theorem State.feature_strmFields (s : State) (v : Word) (hi : i < 256) (b : Nat) : (s.strmFields i v).feature b = s.feature b :=
  congrArg (Nat.testBit · b) ((s.strmFields_change v hi).rd_of_reg F.SYS_FEAT_ACCEPT_BITS (by decide) rfl)

/-- A write that enables a stream, by the checks that follow it. -/
theorem State.strmCfg_enable (hoff : s.rdb F.TIER_STRM_CFG_EN i = false) (hen : F.TIER_STRM_CFG_EN.get v = 1) (hi : i < 256) :
    s.strmCfg i v =
      if !s.feature 18 then (s.strmFields i v).flag F.TIER_STRM_STATUS_CFG_ERR i
      else if F.TIER_STRM_CFG_KIND.get v = 0 then
        if (s.strmFields i v).winOk i then
          (((((s.strmFields i v).eachPage (i / 8) (pagesOf ((s.strmFields i v).rd F.TIER_STRM_BASE_ADDR i)
            ((s.strmFields i v).rd F.TIER_STRM_CFG_LAYERS i * (s.strmFields i v).rd F.TIER_STRM_SIZE_VALUE i))
              (fun e => { e with stream := i % 8 + 1 })).wr F.TIER_STRM_CFG_EN i 1).reconcile i).flow)
        else (s.strmFields i v).flag F.TIER_STRM_STATUS_CFG_ERR i
      else if (s.strmFields i v).preOk i then ((s.strmFields i v).wr F.TIER_STRM_CFG_EN i 1).wr F.TIER_STRM_POS_VALUE i 0
      else (s.strmFields i v).flag F.TIER_STRM_STATUS_CFG_ERR i := by
  rw [State.strmCfg, if_neg (by rw [hoff]; decide)]
  dsimp only
  rw [if_neg (by rw [hen]; decide), s.feature_strmFields v hi, (s.strmFields_rd i v).1]

/-- What a refused enable leaves: CFG_ERR, and the fields but EN. -/
theorem State.strmRefused_leaves (hoff : s.rdb F.TIER_STRM_CFG_EN i = false) (hi : i < 256) :
    onlyRegs s ((s.strmFields i v).flag F.TIER_STRM_STATUS_CFG_ERR i) ∧
    ((s.strmFields i v).flag F.TIER_STRM_STATUS_CFG_ERR i).rdb F.TIER_STRM_STATUS_CFG_ERR i = true ∧
    ((s.strmFields i v).flag F.TIER_STRM_STATUS_CFG_ERR i).rdb F.TIER_STRM_CFG_EN i = false ∧
    ((s.strmFields i v).flag F.TIER_STRM_STATUS_CFG_ERR i).rd F.TIER_STRM_CFG_KIND i = F.TIER_STRM_CFG_KIND.get v := by
  refine ⟨onlyRegs_wr_of _ _ _ (s.strmFields_change v hi).only,
    State.rdb_flag_self _ F.TIER_STRM_STATUS_CFG_ERR i (by decide) (by decide), ?_, ?_⟩
  · rw [State.rdb, State.flag, State.rd_wr_reg _ F.TIER_STRM_STATUS_CFG_ERR F.TIER_STRM_CFG_EN _ (by decide) (by omega) (by omega),
      (s.strmFields_rd i v).2]
    exact hoff
  · rw [State.flag, State.rd_wr_reg _ F.TIER_STRM_STATUS_CFG_ERR F.TIER_STRM_CFG_KIND _ (by decide) (by omega) (by omega),
      (s.strmFields_rd i v).1]

/-- What a started prefetch stream leaves: EN, and its position at 0. -/
theorem State.preStarted_leaves (s : State) (v : Word) (hi : i < 256) :
    (((s.strmFields i v).wr F.TIER_STRM_CFG_EN i 1).wr F.TIER_STRM_POS_VALUE i 0).rdb F.TIER_STRM_CFG_EN i = true ∧
    (((s.strmFields i v).wr F.TIER_STRM_CFG_EN i 1).wr F.TIER_STRM_POS_VALUE i 0).rd F.TIER_STRM_POS_VALUE i = 0 ∧
    onlyRegs s (((s.strmFields i v).wr F.TIER_STRM_CFG_EN i 1).wr F.TIER_STRM_POS_VALUE i 0) := by
  refine ⟨?_, State.rd_wr_self _ F.TIER_STRM_POS_VALUE i 0 (by decide),
    onlyRegs_wr_of _ _ _ (onlyRegs_wr_of _ _ _ (s.strmFields_change v hi).only)⟩
  rw [State.rdb, State.rd_wr_reg _ F.TIER_STRM_POS_VALUE F.TIER_STRM_CFG_EN _ (by decide) (by omega) (by omega),
    State.rd_wr_self _ F.TIER_STRM_CFG_EN _ _ (by decide)]
  decide

theorem State.strmCfg_disable (hon : s.rdb F.TIER_STRM_CFG_EN i = true) (hen : F.TIER_STRM_CFG_EN.get v = 0) :
    s.strmCfg i v = s.stopStream i false := by
  rw [State.strmCfg, if_pos hon, if_neg (by rw [hen]; decide)]

theorem State.strmCfg_running (hon : s.rdb F.TIER_STRM_CFG_EN i = true)
    (hen : F.TIER_STRM_CFG_EN.get v = 1) : s.strmCfg i v = s := by
  rw [State.strmCfg, if_pos hon, if_pos hen]

end Cfg

end Sys2Proof.Machine

namespace Sys2Proof
open Sys2Proof.Machine

/-- Settles O33: a write of a stream's configuration by its EN, the feature and the checks. -/
theorem streamCommands : Obligations.StreamCommands := by
  intro stream cfg s hserved
  have hi : stream.toNat < 256 := stream.isLt
  obtain ⟨⟨hwinEn, hwinKind⟩, ⟨hpreEn, hpreKind⟩, hdis⟩ := strmWord_fields cfg
  have hopen : ∀ v : Word, (.next (if s.strmOpen stream.toNat then s.strmCfg stream.toNat v else s) : Res) =
      .next (s.strmCfg stream.toNat v) := fun v => congrArg Host.Outcome.next (if_pos hserved)
  have hrun : ∀ {v : Word} {u : State}, s.strmCfg stream.toNat v = u →
      (.next (if s.strmOpen stream.toNat then s.strmCfg stream.toNat v else s) : Res) = .next u :=
    fun {v} {u} hu => (hopen v).trans (congrArg Host.Outcome.next hu)
  refine ⟨fun hoff hfeat => ⟨?_, ?_⟩, ?_, ?_, fun hon => hrun (State.strmCfg_running hon hwinEn), fun hon => ?_,
    fun hon hkind => ?_,
    fun hon hkind => ?_⟩
  · obtain ⟨honly, herr, hen, hkind⟩ := State.strmRefused_leaves (v := (cfg ||| 1) &&& ~~~ 2) hoff hi
    exact ⟨_, hrun ((State.strmCfg_enable hoff hwinEn hi).trans (if_pos (by rw [hfeat]; rfl))), honly, herr, hen,
      hkind.trans hwinKind⟩
  · obtain ⟨honly, herr, -, hkind⟩ := State.strmRefused_leaves (v := cfg ||| 3) hoff hi
    exact ⟨_, hrun ((State.strmCfg_enable hoff hpreEn hi).trans (if_pos (by rw [hfeat]; rfl))), honly, herr, hkind.trans hpreKind⟩
  · rintro u hoff hfeat rfl hok
    exact hrun ((State.strmCfg_enable hoff hwinEn hi).trans ((if_neg (by rw [hfeat]; decide)).trans ((if_pos hwinKind).trans
      (if_pos hok))))
  · rintro u hoff hfeat rfl hok
    exact ⟨_, hrun ((State.strmCfg_enable hoff hpreEn hi).trans ((if_neg (by rw [hfeat]; decide)).trans
      ((if_neg (by rw [hpreKind]; decide)).trans (if_pos hok)))), s.preStarted_leaves _ hi⟩
  · refine ⟨_, hrun (State.strmCfg_disable hon hdis), ?_, Tab.find?_erase_self _ _, rfl⟩
    exact (congrArg (· != 0) (State.rd_wr_self s F.TIER_STRM_CFG_EN stream.toNat 0 (by decide))).trans (by decide)
  · exact congrArg Host.Outcome.next (if_pos ⟨hserved, hon, hkind⟩)
  · exact congrArg Host.Outcome.next (if_pos ⟨hserved, hon, hkind⟩)

end Sys2Proof
end

section
/-! SUPPORT. Settles O37: the lattice walker's configuration, starts and issue, and aging (sections 11.4 and 11.6). -/

namespace Sys2Proof.Machine

/-- EN and START_SO of the rows' words. -/
theorem walkWord_fields (cfg : Word) (en : Nat) : F.SO_WALK_CFG_EN.get (F.SO_WALK_CFG_EN.put cfg en) = en % 2 ∧
    F.SO_WALK_CFG_START_SO.get (F.SO_WALK_CFG_EN.put cfg en) = F.SO_WALK_CFG_START_SO.get cfg :=
  ⟨Fld.get_put F.SO_WALK_CFG_EN cfg en (by decide),
    Fld.get_put_disjoint F.SO_WALK_CFG_EN F.SO_WALK_CFG_START_SO cfg en (by decide) (by decide)⟩

section Walker

variable {walker : BitVec 6} {cfg block : Word} {s : State} {k : Nat}

/-- The state after the block is written and START_SO taken. -/
def State.walkBase (s : State) (k : Nat) (cfg block : Word) : State :=
  (s.setReg Reg.SO_WALK_BLOCK k block).wr F.SO_WALK_CFG_START_SO k (F.SO_WALK_CFG_START_SO.get cfg)

theorem State.walkBase_eq (s : State) (k : Nat) (cfg block : Word) : s.walkBase k cfg block =
    (s.setReg Reg.SO_WALK_BLOCK k block).wr F.SO_WALK_CFG_START_SO k (F.SO_WALK_CFG_START_SO.get cfg) := rfl

/-- What the two writes leave. -/
theorem State.walkBase_leaves (s : State) (cfg block : Word) (hk : k < 64) :
    onlyRegs s (s.walkBase k cfg block) ∧
    (s.walkBase k cfg block).rd F.SO_WALK_CFG_START_SO k = F.SO_WALK_CFG_START_SO.get cfg ∧
    (s.walkBase k cfg block).rd F.SO_WALK_CFG_EN k = s.rd F.SO_WALK_CFG_EN k ∧
    (s.walkBase k cfg block).reg Reg.SO_WALK_BLOCK k = block ∧
    (∀ b, (s.walkBase k cfg block).feature b = s.feature b) ∧
    (∀ n, (s.walkBase k cfg block).soInRange (k / 2) n = s.soInRange (k / 2) n) := by
  have hother : ∀ (f : Fld) (i : Nat), i < 131072 → f.reg ≠ Reg.SO_WALK_CFG → f.reg ≠ Reg.SO_WALK_BLOCK →
      (s.walkBase k cfg block).rd f i = s.rd f i := fun f i hi hc hb =>
    (State.rd_wr_reg _ F.SO_WALK_CFG_START_SO f _ hc (by omega) hi).trans
      (State.rd_setReg_of_reg s f block hb (by omega) hi)
  refine ⟨rfl, ?_, ?_, ?_, fun b => congrArg (Nat.testBit · b) (hother F.SYS_FEAT_ACCEPT_BITS 0 (by decide) (by decide) (by decide)),
    fun n => ?_⟩
  · exact (State.rd_wr_self _ F.SO_WALK_CFG_START_SO k _ (by decide)).trans (Nat.mod_eq_of_lt (Fld.get_lt _ cfg))
  · rw [State.walkBase, State.rd_wr_disjoint _ F.SO_WALK_CFG_START_SO F.SO_WALK_CFG_EN k _ rfl (by decide) (by decide),
      State.rd_setReg_of_reg s F.SO_WALK_CFG_EN block (by decide) (by omega) (by omega)]
  · rw [State.walkBase, State.wr, State.reg_setReg_of_reg _ _ (by decide) (by omega) (by omega), State.reg_setReg_self]
  · rw [State.soInRange, State.soInRange, hother F.SO_RANGE_BASE _ (by omega) (by decide) (by decide),
      hother F.SO_RANGE_COUNT _ (by omega) (by decide) (by decide)]

/-- A write of SO_WALK_CFG with EN set to an IDLE walker. -/
theorem State.walkCfg_enable {v : Word} (hidle : s.rd F.SO_WALK_STATUS_STATE k = 0) (hen : F.SO_WALK_CFG_EN.get v = 1) :
    s.walkCfg k v =
      let u := s.wr F.SO_WALK_CFG_START_SO k (F.SO_WALK_CFG_START_SO.get v)
      if !u.feature 17 ∨ !u.soInRange (k / 2) (u.rd F.SO_WALK_CFG_START_SO k) ∨ u.rd F.SO_WALK_BLOCK_ADDR k % 64 ≠ 0 then
        (u.wr F.SO_WALK_CFG_EN k 0).flag F.SO_WALK_STATUS_BAD_BLOCK k
      else (if u.rdb F.SO_WALK_CFG_EN k then u else u.wr F.SO_WALK_COUNT_WALKS k 0).wr F.SO_WALK_CFG_EN k 1 := by
  have hrun : (s.rd F.SO_WALK_STATUS_STATE k == 1) = false := by rw [hidle]; rfl
  simp only [State.walkCfg, hrun, hen, Bool.false_eq_true, if_false, Nat.one_ne_zero]

/-- An enable of an IDLE walker writes its block and START_SO, then checks them. -/
theorem walkerEnable_idle (hopen : s.partOpen (walker.toNat / 2) = true) (hidle : s.rd F.SO_WALK_STATUS_STATE walker.toNat = 0) :
    exec (.walkerEnable walker cfg block) s = .next (
      let u := s.walkBase walker.toNat cfg block
      if !s.feature 17 ∨ !s.soInRange (walker.toNat / 2) (F.SO_WALK_CFG_START_SO.get cfg) ∨ block.toNat % 64 ≠ 0 then
        (u.wr F.SO_WALK_CFG_EN walker.toNat 0).flag F.SO_WALK_STATUS_BAD_BLOCK walker.toNat
      else (if s.rdb F.SO_WALK_CFG_EN walker.toNat then u else u.wr F.SO_WALK_COUNT_WALKS walker.toNat 0).wr
        F.SO_WALK_CFG_EN walker.toNat 1) := by
  have hk : walker.toNat < 64 := walker.isLt
  obtain ⟨-, hso, hen, hblock, hfeat, hrange⟩ := s.walkBase_leaves cfg block hk
  have haddr : (s.walkBase walker.toNat cfg block).rd F.SO_WALK_BLOCK_ADDR walker.toNat = block.toNat := by
    rw [State.rd, show State.reg _ F.SO_WALK_BLOCK_ADDR.reg _ = block from hblock, Fld.get]
    exact (Nat.mod_eq_of_lt (lt_of_le_of_lt (Nat.div_le_self _ _) block.isLt)).trans (Nat.div_one _)
  have hidle' : (s.setReg Reg.SO_WALK_BLOCK walker.toNat block).rd F.SO_WALK_STATUS_STATE walker.toNat = 0 :=
    (State.rd_setReg_of_reg s F.SO_WALK_STATUS_STATE block (by decide) (by omega) (by omega)).trans hidle
  have hrdb : (s.walkBase walker.toNat cfg block).rdb F.SO_WALK_CFG_EN walker.toNat = s.rdb F.SO_WALK_CFG_EN walker.toNat :=
    congrArg (· != 0) hen
  show execWalkerEnable walker cfg block s = _
  unfold execWalkerEnable
  dsimp only
  rw [if_neg (by rw [hopen]; decide), if_neg (by rw [hidle]; decide), State.walkCfg_enable hidle' (walkWord_fields cfg 1).1,
    (walkWord_fields cfg 1).2]
  simp only [← State.walkBase_eq, hfeat, hso, hrange, haddr, hrdb]

/-- An enable that passes: EN is set, and COUNT starts at 0. -/
theorem walkerEnable_ok (hopen : s.partOpen (walker.toNat / 2) = true) (hidle : s.rd F.SO_WALK_STATUS_STATE walker.toNat = 0)
    (hfeat : s.feature 17 = true) (hrange : s.soInRange (walker.toNat / 2) (F.SO_WALK_CFG_START_SO.get cfg) = true)
    (halign : block.toNat % 64 = 0) (hoff : s.rdb F.SO_WALK_CFG_EN walker.toNat = false) :
    ∃ t, exec (.walkerEnable walker cfg block) s = .next t ∧ onlyRegs s t ∧ t.rdb F.SO_WALK_CFG_EN walker.toNat = true ∧
      t.rd F.SO_WALK_COUNT_WALKS walker.toNat = 0 ∧
      t.rd F.SO_WALK_CFG_START_SO walker.toNat = F.SO_WALK_CFG_START_SO.get cfg ∧ t.reg Reg.SO_WALK_BLOCK walker.toNat = block := by
  have hk : walker.toNat < 64 := walker.isLt
  obtain ⟨honly, hso, -, hblock, -, -⟩ := s.walkBase_leaves cfg block hk
  have hbad : ¬ (!s.feature 17 ∨ !s.soInRange (walker.toNat / 2) (F.SO_WALK_CFG_START_SO.get cfg) ∨ block.toNat % 64 ≠ 0) := by
    rw [hfeat, hrange, halign]; decide
  refine ⟨_, (walkerEnable_idle hopen hidle).trans (congrArg Host.Outcome.next ((if_neg hbad).trans
    (congrArg (State.wr · _ _ _) (if_neg (by rw [hoff]; decide))))), onlyRegs_wr_of _ _ _ (onlyRegs_wr_of _ _ _ honly), ?_, ?_,
    ?_, ?_⟩
  · rw [State.rdb, State.rd_wr_self _ F.SO_WALK_CFG_EN _ _ (by decide)]
    decide
  · rw [State.rd_wr_reg _ F.SO_WALK_CFG_EN F.SO_WALK_COUNT_WALKS _ (by decide) (by omega) (by omega),
      State.rd_wr_self _ F.SO_WALK_COUNT_WALKS _ _ (by decide)]
    decide
  · rw [State.rd_wr_disjoint _ F.SO_WALK_CFG_EN F.SO_WALK_CFG_START_SO _ _ rfl (by decide) (by decide),
      State.rd_wr_reg _ F.SO_WALK_COUNT_WALKS F.SO_WALK_CFG_START_SO _ (by decide) (by omega) (by omega), hso]
  · rw [State.wr, State.reg_setReg_of_reg _ _ (by decide) (by omega) (by omega), State.wr,
      State.reg_setReg_of_reg _ _ (by decide) (by omega) (by omega), hblock]

/-- An enable without the feature is refused. -/
theorem walkerEnable_refused (hopen : s.partOpen (walker.toNat / 2) = true) (hidle : s.rd F.SO_WALK_STATUS_STATE walker.toNat = 0)
    (hfeat : s.feature 17 = false) : ∃ t, exec (.walkerEnable walker cfg block) s = .next t ∧ onlyRegs s t ∧
      t.rdb F.SO_WALK_CFG_EN walker.toNat = false ∧ t.rdb F.SO_WALK_STATUS_BAD_BLOCK walker.toNat = true := by
  have hk : walker.toNat < 64 := walker.isLt
  refine ⟨_, (walkerEnable_idle hopen hidle).trans (congrArg Host.Outcome.next (if_pos (.inl (by rw [hfeat]; rfl)))),
    onlyRegs_wr_of _ _ _ (onlyRegs_wr_of _ _ _ (s.walkBase_leaves cfg block hk).1), ?_,
    State.rdb_flag_self _ F.SO_WALK_STATUS_BAD_BLOCK _ (by decide) (by decide)⟩
  rw [State.rdb, State.flag, State.rd_wr_reg _ F.SO_WALK_STATUS_BAD_BLOCK F.SO_WALK_CFG_EN _ (by decide) (by omega) (by omega),
    State.rd_wr_self _ F.SO_WALK_CFG_EN _ _ (by decide)]
  decide

/-- A disable stops the walk (section 11.6, Edges). -/
theorem walkerDisable_stops (hopen : s.partOpen (walker.toNat / 2) = true) : ∃ t, exec (.walkerDisable walker cfg) s = .next t ∧
    t.rdb F.SO_WALK_CFG_EN walker.toNat = false ∧ t.rd F.SO_WALK_STATUS_STATE walker.toNat = 0 ∧
    Tab.find? t.walks walker.toNat = none ∧ t.items = s.items ∧ t.mem = s.mem := by
  have hk : walker.toNat < 64 := walker.isLt
  have hstop : ∀ u : State, u.items = s.items → u.mem = s.mem →
      ((u.stopWalk walker.toNat).wr F.SO_WALK_CFG_EN walker.toNat 0).rdb F.SO_WALK_CFG_EN walker.toNat = false ∧
      ((u.stopWalk walker.toNat).wr F.SO_WALK_CFG_EN walker.toNat 0).rd F.SO_WALK_STATUS_STATE walker.toNat = 0 ∧
      Tab.find? ((u.stopWalk walker.toNat).wr F.SO_WALK_CFG_EN walker.toNat 0).walks walker.toNat = none ∧
      ((u.stopWalk walker.toNat).wr F.SO_WALK_CFG_EN walker.toNat 0).items = s.items ∧
      ((u.stopWalk walker.toNat).wr F.SO_WALK_CFG_EN walker.toNat 0).mem = s.mem := fun u hitems hmem => by
    refine ⟨?_, ?_, Tab.find?_erase_self _ _, hitems, hmem⟩
    · rw [State.rdb, State.rd_wr_self _ F.SO_WALK_CFG_EN _ _ (by decide)]
      decide
    · rw [State.rd_wr_reg _ F.SO_WALK_CFG_EN F.SO_WALK_STATUS_STATE _ (by decide) (by omega) (by omega), State.stopWalk,
        State.rd_wr_self _ F.SO_WALK_STATUS_STATE _ _ (by decide)]
      decide
  refine ⟨_, congrArg Host.Outcome.next ((if_pos hopen).trans (if_pos (walkWord_fields cfg 0).1)), hstop _ ?_ ?_⟩ <;>
  · split <;> rfl

theorem walkStart_idle (h : (s.soVal (s.rd F.SO_WALK_CFG_START_SO walker.toNat)).toNat ≤ s.rd F.SO_WALK_COUNT_WALKS walker.toNat) :
    exec (.walkStart walker) s = .next s :=
  congrArg Host.Outcome.next (if_pos (by rw [decide_eq_true h, Bool.or_true]))

/-- A walk whose block does not read sets BAD_BLOCK and still counts. -/
theorem walkStart_unread (hserved : s.served (walker.toNat / 2) = true) (hon : s.rdb F.SO_WALK_CFG_EN walker.toNat = true)
    (hidle : s.rd F.SO_WALK_STATUS_STATE walker.toNat = 0)
    (hless : s.rd F.SO_WALK_COUNT_WALKS walker.toNat < (s.soVal (s.rd F.SO_WALK_CFG_START_SO walker.toNat)).toNat)
    (hnone : (s.bump F.SO_WALK_COUNT_WALKS walker.toNat 1).descWords (walker.toNat / 2) (s.rd F.SO_WALK_BLOCK_ADDR walker.toNat) 8 =
      none) :
    exec (.walkStart walker) s =
      .next ((s.bump F.SO_WALK_COUNT_WALKS walker.toNat 1).flag F.SO_WALK_STATUS_BAD_BLOCK walker.toNat) := by
  have hk : walker.toNat < 64 := walker.isLt
  have haddr : (s.bump F.SO_WALK_COUNT_WALKS walker.toNat 1).rd F.SO_WALK_BLOCK_ADDR walker.toNat =
      s.rd F.SO_WALK_BLOCK_ADDR walker.toNat :=
    State.rd_wr_reg s F.SO_WALK_COUNT_WALKS F.SO_WALK_BLOCK_ADDR _ (by decide) (by omega) (by omega)
  show execWalkStart walker s = _
  unfold execWalkStart
  dsimp only
  rw [if_neg (by rw [hserved, hon, hidle, decide_eq_false (Nat.not_le.2 hless)]; decide), haddr, hnone]

theorem walkStart_bad_leaves (s : State) (hk : k < 64) :
    onlyRegs s ((s.bump F.SO_WALK_COUNT_WALKS k 1).flag F.SO_WALK_STATUS_BAD_BLOCK k) ∧
    ((s.bump F.SO_WALK_COUNT_WALKS k 1).flag F.SO_WALK_STATUS_BAD_BLOCK k).rd F.SO_WALK_COUNT_WALKS k =
      (s.rd F.SO_WALK_COUNT_WALKS k + 1) % 2 ^ F.SO_WALK_COUNT_WALKS.width ∧
    ((s.bump F.SO_WALK_COUNT_WALKS k 1).flag F.SO_WALK_STATUS_BAD_BLOCK k).rdb F.SO_WALK_STATUS_BAD_BLOCK k = true := by
  refine ⟨rfl, ?_, State.rdb_flag_self _ F.SO_WALK_STATUS_BAD_BLOCK _ (by decide) (by decide)⟩
  rw [State.flag, State.rd_wr_reg _ F.SO_WALK_STATUS_BAD_BLOCK F.SO_WALK_COUNT_WALKS _ (by decide) (by omega) (by omega),
    State.bump,
    State.rd_wr_self _ F.SO_WALK_COUNT_WALKS _ _ (by decide)]

theorem walkerGroupIssue_none {r : WalkRec} (hr : Tab.find? s.walks walker.toNat = some r) (hg : r.group = none) :
    exec (.walkerGroupIssue walker) s = .next s := by
  show execWalkerGroupIssue walker s = _
  unfold execWalkerGroupIssue
  dsimp only
  rw [hr]
  dsimp only
  rw [hg]

/-- A group of one entry issues its item at its latest start less the lead, and not later than its latest start. -/
theorem walkerGroupIssue_one {r : WalkRec} {g : WalkGroup} {e : Nat × Nat} (hr : Tab.find? s.walks walker.toNat = some r)
    (hg : r.group = some g) (hserved : s.served (walker.toNat / 2) = true) (hissued : r.issued = false) (he : r.entries = [e])
    (hlead : (s.walkTimes (walker.toNat / 2) r g).2 ≤ s.time + WB.lead r)
    (hlate : s.time ≤ (s.walkTimes (walker.toNat / 2) r g).2) :
    let x := (s.classOf (walker.toNat / 2) (WB.urg r)).2
    let y := x.addItem { Item.blank (walker.toNat / 2) (.lattice g.lo (WB.readback r)) with
      origin := .walker (walker.toNat % 2), obj := e.1, peer := e.2, urg := (s.classOf (walker.toNat / 2) (WB.urg r)).1
      deadline := (s.walkTimes (walker.toNat / 2) r g).1, ta := r.descs.getD 0 0 }
    exec (.walkerGroupIssue walker) s =
      .next ((({ y with walks := Tab.put y.walks walker.toNat { r with issued := true, items := [x.nextItem] } }).front
        x.nextItem).flow) := by
  show execWalkerGroupIssue walker s = _
  unfold execWalkerGroupIssue
  dsimp only
  rw [hr]
  dsimp only
  rw [hg]
  dsimp only
  rw [if_neg (by rw [hserved, hissued]; simpa using hlead), if_neg (Nat.not_lt.2 hlate), he]
  rfl

end Walker

/-- Aging marks the request and leaves every other. -/
theorem aging_marks {item : Nat} {s : State} {it : Item} (hheld : s.pins.held = false) (hit : s.item? item = some it)
    (hid : it.id = item) (hurg : 2 ≤ it.urg) (hwaits : s.waits it = true) :
    ∃ t, exec (.aging item) s = .next t ∧ t = { s with items := t.items } ∧
      t.item? item = some { it with aged := true } ∧ ∀ j, j ≠ item → t.item? j = s.item? j := by
  subst hid
  refine ⟨s.putItem { it with aged := true }, ?_, rfl, Tab.find?_put_self _ _ _, fun j hj => Tab.find?_put_ne _ _ hj⟩
  show execAging it.id s = _
  unfold execAging
  rw [hit]
  exact congrArg Host.Outcome.next (if_pos ⟨by rw [hheld]; rfl, hurg, hwaits⟩)

end Sys2Proof.Machine

namespace Sys2Proof
open Sys2Proof.Machine

/-- Settles O37: an enable by its checks, a start by its count and its block, an issue by its group, aging by its item. -/
theorem walkersAndAging : Obligations.WalkersAndAging := by
  refine ⟨fun walker cfg block s hopen => ⟨fun hidle hfeat hrange halign hoff => ?_, fun hidle hfeat => ?_, ?_⟩,
    fun walker s => ⟨?_, fun hserved hon hidle hless hnone => ?_, fun r hr hg => ?_,
    fun r g e hr hg hserved hissued he hlead hlate => ?_⟩,
    fun item s it hheld hit hid hurg hwaits => aging_marks hheld hit hid hurg hwaits⟩
  · exact walkerEnable_ok hopen hidle hfeat hrange halign hoff
  · exact walkerEnable_refused hopen hidle hfeat
  · exact walkerDisable_stops hopen
  · exact walkStart_idle
  · exact ⟨_, walkStart_unread hserved hon hidle hless hnone, walkStart_bad_leaves s walker.isLt⟩
  · exact walkerGroupIssue_none hr hg
  · exact walkerGroupIssue_one hr hg hserved hissued he hlead hlate

end Sys2Proof
end

section
/-! SUPPORT. Settles O53: the tally engine's ticks and frames, Frank's answers, and the link (section 15.4). -/

namespace Sys2Proof.Machine

/-! ### The mailbox's end (R569) -/

theorem State.frkBuf_only (n i : Nat) (b : List Byte) (s : State) : onlyRegs s (s.frkBuf n i b) := by
  induction n generalizing s i b with
  | zero => exact onlyRegs_refl s
  | succ n ih => exact onlyRegs_trans (show onlyRegs s (s.setReg Reg.FRK_BUF i (BitVec.ofNat 64 (fieldAt b 0 8))) from rfl) (ih _ _ _)

/-- A mailbox command's end: GO clears as DONE sets, with its result. -/
theorem State.frkEnd_ends (s : State) {r : Nat} (payload : List Byte) (hr : r < 16) : onlyRegs s (s.frkEnd r payload) ∧
    (s.frkEnd r payload).rdb F.FRK_CMD_CTRL_GO 0 = false ∧ (s.frkEnd r payload).rd F.FRK_CMD_STATUS_RESULT 0 = r ∧
    (s.frkEnd r payload).rdb F.FRK_CMD_STATUS_DONE 0 = true := by
  unfold State.frkEnd
  refine ⟨onlyRegs_wr_of _ _ _ (onlyRegs_wr_of _ _ _ (onlyRegs_wr_of _ _ _ (onlyRegs_wr_of _ _ _ (State.frkBuf_only _ _ _ s)))),
    ?_, ?_, ?_⟩ <;> simp (disch := decide) only [State.rdb, State.flag, State.rd_wr_reg, State.rd_wr_disjoint, State.rd_wr_self]
  · decide
  · exact Nat.mod_eq_of_lt hr
  · decide

/-- The end of a command without a payload leaves every register but the mailbox's. -/
theorem State.frkEnd_nil_touches (s : State) (r : Nat) : RegsTouched s (s.frkEnd r []) [Reg.FRK_CMD_CTRL, Reg.FRK_CMD_STATUS] :=
  ((((RegsTouched.refl s _).wr F.FRK_CMD_CTRL_GO 0 0 (by decide) (by decide)).wr F.FRK_CMD_STATUS_DONE 0 1 (by decide)
    (by decide)).wr F.FRK_CMD_STATUS_RESULT 0 r (by decide) (by decide)).wr F.FRK_CMD_STATUS_LENGTH 0 0 (by decide) (by decide)

/-! ### The engine's ticks and frames (R547, R548) -/

section Engine

variable {s : State}

/-- What a tick adds changes the deltas and counts the tick. -/
theorem State.tallyTms_frame (s : State) : ∃ d, s.tallyTms =
    { s with tally := { s.tally with deltas := d, ticks := s.tally.ticks + 1 } } := by
  have hfold : ∀ (l : List Nat) (t : Tally), ∃ d, l.foldl (fun t k =>
      let n := ceilDiv (Tab.get 0 s.occ k) 65536
      if n = 0 then t else t.add (k / 3) (8 + k % 3) n) t = { t with deltas := d } := by
    intro l
    induction l with
    | nil => exact fun t => ⟨t.deltas, rfl⟩
    | cons k l ih =>
      intro t
      obtain ⟨d, hd⟩ := ih (if ceilDiv (Tab.get 0 s.occ k) 65536 = 0 then t
        else t.add (k / 3) (8 + k % 3) (ceilDiv (Tab.get 0 s.occ k) 65536))
      refine ⟨d, hd.trans ?_⟩
      split <;> rfl
  obtain ⟨d, hd⟩ := hfold (List.range 96) s.tally
  exact ⟨d, congrArg (fun t : Tally => { s with tally := { t with ticks := t.ticks + 1 } }) hd⟩

/-- The frame the engine forms of what it has. -/
def State.nextFrame (s : State) : TallyFrame :=
  { seq := s.tally.nextSeq, sync := s.tally.syncNext, ticks := min s.tally.ticks 65535, deltas := s.tally.deltas }

/-- A send with no frame outstanding forms the next frame. -/
theorem State.tallySend_forms (hnone : s.tally.unacked = none) :
    s.tallySend.tally = { s.tally with
      unacked := some s.nextFrame, deltas := [], ticks := 0, nextSeq := (s.tally.nextSeq + 1) % 2 ^ 32, syncNext := false } ∧
    (s.rdb F.FRK_TALLY_STATUS_LINK_UP 0 = true → s.tallySend.out = s.out ++ [.tallyFrame s.nextFrame.bytes]) ∧
    s.tallySend.frank = s.frank ∧ s.tallySend.mem = s.mem := by
  let u : State := { s with tally := { s.tally with
    unacked := some s.nextFrame, deltas := [], ticks := 0, nextSeq := low 32 (s.tally.nextSeq + 1), syncNext := false } }
  have hlink : (u.wr F.FRK_TALLY_STATUS_UNACKED 0 1).rdb F.FRK_TALLY_STATUS_LINK_UP 0 = s.rdb F.FRK_TALLY_STATUS_LINK_UP 0 :=
    congrArg (· != 0) (State.rd_wr_disjoint u F.FRK_TALLY_STATUS_UNACKED F.FRK_TALLY_STATUS_LINK_UP 0 1 rfl (by decide) (by decide))
  have hsend : s.tallySend = if (u.wr F.FRK_TALLY_STATUS_UNACKED 0 1).rdb F.FRK_TALLY_STATUS_LINK_UP 0 then
      (u.wr F.FRK_TALLY_STATUS_UNACKED 0 1).emit (.tallyFrame s.nextFrame.bytes) else u.wr F.FRK_TALLY_STATUS_UNACKED 0 1 := by
    rw [State.tallySend, hnone]
    rfl
  rw [hsend, hlink]
  split
  · exact ⟨rfl, fun _ => rfl, rfl, rfl⟩
  · next hdown => exact ⟨rfl, fun h => absurd h hdown, rfl, rfl⟩

theorem State.tallySend_waits {g : TallyFrame} (hsome : s.tally.unacked = some g) : s.tallySend = s := by
  rw [State.tallySend, hsome]

theorem exec_tallyTick (hpow : s.tally.powered = true) (hlevel : s.rdb F.PWR_PWRFAIL_STATUS_LEVEL 0 = false) :
    exec .tallyTick s = .next s.tallyTms.tallySend :=
  congrArg Host.Outcome.next (if_pos (by rw [hpow, hlevel]; rfl))

theorem tallyTick_forms (hpow : s.tally.powered = true) (hlevel : s.rdb F.PWR_PWRFAIL_STATUS_LEVEL 0 = false)
    (hnone : s.tally.unacked = none) : ∃ t f,
      exec .tallyTick s = .next t ∧ t.tally.unacked = some f ∧ f.seq = s.tally.nextSeq ∧ f.sync = s.tally.syncNext ∧
        f.ticks = min (s.tally.ticks + 1) 65535 ∧ t.tally.deltas = [] ∧ t.tally.ticks = 0 ∧
        t.tally.nextSeq = (s.tally.nextSeq + 1) % 2 ^ 32 ∧ t.tally.syncNext = false ∧
        (s.rdb F.FRK_TALLY_STATUS_LINK_UP 0 → t.out = s.out ++ [.tallyFrame f.bytes]) ∧ t.frank = s.frank ∧ t.mem = s.mem := by
  obtain ⟨d, hframe⟩ := s.tallyTms_frame
  rw [exec_tallyTick hpow hlevel, hframe]
  obtain ⟨hsent, hout, hfrank, hmem⟩ := State.tallySend_forms
    (s := { s with tally := { s.tally with deltas := d, ticks := s.tally.ticks + 1 } }) hnone
  exact ⟨_, _, rfl, congrArg Tally.unacked hsent, rfl, rfl, rfl, congrArg Tally.deltas hsent, congrArg Tally.ticks hsent,
    congrArg Tally.nextSeq hsent, congrArg Tally.syncNext hsent, hout, hfrank, hmem⟩

theorem tallyTick_waits {g : TallyFrame} (hpow : s.tally.powered = true) (hlevel : s.rdb F.PWR_PWRFAIL_STATUS_LEVEL 0 = false)
    (hsome : s.tally.unacked = some g) : ∃ t, exec .tallyTick s = .next t ∧ t.tally.unacked = some g ∧
      t.tally.ticks = s.tally.ticks + 1 ∧ t.out = s.out ∧ t.regs = s.regs := by
  obtain ⟨d, hframe⟩ := s.tallyTms_frame
  have hwait := State.tallySend_waits (s := { s with tally := { s.tally with deltas := d, ticks := s.tally.ticks + 1 } }) hsome
  rw [exec_tallyTick hpow hlevel, hframe]
  exact ⟨_, congrArg Host.Outcome.next hwait, hsome, rfl, rfl, rfl⟩

/-- A frame without an acknowledgement is sent again, the same. -/
theorem tallyAckTimeout_resends {g : TallyFrame} (hsome : s.tally.unacked = some g)
    (hlink : s.rdb F.FRK_TALLY_STATUS_LINK_UP 0 = true) : exec .tallyAckTimeout s =
      .next ((s.sat F.FRK_TALLY_STATUS_RETRIES 0 1).emit (.tallyFrame g.bytes)) := by
  have hkept : (s.sat F.FRK_TALLY_STATUS_RETRIES 0 1).rdb F.FRK_TALLY_STATUS_LINK_UP 0 = s.rdb F.FRK_TALLY_STATUS_LINK_UP 0 :=
    congrArg (· != 0) (State.rd_wr_disjoint s F.FRK_TALLY_STATUS_RETRIES F.FRK_TALLY_STATUS_LINK_UP 0 _ rfl (by decide) (by decide))
  show execTallyAckTimeout s = _
  unfold execTallyAckTimeout
  rw [hsome]
  exact congrArg Host.Outcome.next (if_pos (hkept.trans hlink))

end Engine

/-! ### Frames at Frank (R549, R553) -/

section Frames

variable {s : State} {frame : List Byte}

theorem exec_tally (hpow : s.frank.powered = true)
    (hlink : s.rdb F.FRK_TALLY_STATUS_LINK_UP 0 = true) {f : Frank} {r : Option Nat} :
    s.frank.tally frame = (f, r) → exec (.tally frame) s = .next (match r with
      | none => { s with frank := f }
      | some result =>
        let u := (({ s with frank := f }).emit (.frankResp 0x81 result (fieldAt frame 4 4) [])).tallyAck (fieldAt frame 4 4)
        if u.rdb F.PWR_PWRFAIL_STATUS_LEVEL 0 && u.tally.ticks != 0 then u.tallySend else u) := by
  intro h
  show execTally frame s = _
  unfold execTally
  rw [if_pos (by rw [hpow, hlink]; rfl), h]
  cases r <;> rfl

/-- An acknowledgement changes the engine's frame and its status register. -/
theorem State.tallyAck_leaves (s : State) (seq : Nat) : (s.tallyAck seq).frank = s.frank ∧ (s.tallyAck seq).out = s.out ∧
    (s.tallyAck seq).mem = s.mem ∧
    (s.tallyAck seq).rdb F.PWR_PWRFAIL_STATUS_LEVEL 0 = s.rdb F.PWR_PWRFAIL_STATUS_LEVEL 0 ∧
    ∀ g, s.tally.unacked = some g → g.seq = seq → (s.tallyAck seq).tally.unacked = none := by
  unfold State.tallyAck
  cases hun : s.tally.unacked with
  | none => exact ⟨rfl, rfl, rfl, rfl, fun g h => nomatch h⟩
  | some f =>
    dsimp only
    split
    · refine ⟨rfl, rfl, rfl, congrArg (· != 0) ?_, fun _ _ _ => rfl⟩
      rw [State.rd_wr_reg _ F.FRK_TALLY_STATUS_LAST_SEQ F.PWR_PWRFAIL_STATUS_LEVEL _ (by decide) (by decide) (by decide),
        State.rd_wr_reg _ F.FRK_TALLY_STATUS_UNACKED F.PWR_PWRFAIL_STATUS_LEVEL _ (by decide) (by decide) (by decide)]
      rfl
    · next hne => exact ⟨rfl, rfl, rfl, rfl, fun g h hg => absurd ((Option.some.inj h) ▸ hg) hne⟩

theorem tally_answered {f : Frank} (hpow : s.frank.powered = true) (hlink : s.rdb F.FRK_TALLY_STATUS_LINK_UP 0 = true)
    (hlevel : s.rdb F.PWR_PWRFAIL_STATUS_LEVEL 0 = false) (h : s.frank.tally frame = (f, some 0)) :
    ∃ t, exec (.tally frame) s = .next t ∧ t.frank = f ∧ t.out = s.out ++ [.frankResp 0x81 0 (fieldAt frame 4 4) []] ∧
      (∀ g, s.tally.unacked = some g → g.seq = fieldAt frame 4 4 → t.tally.unacked = none) ∧ t.mem = s.mem := by
  obtain ⟨hfrank, hout, hmem, hrdb, hack⟩ :=
    (({ s with frank := f }).emit (.frankResp 0x81 0 (fieldAt frame 4 4) [])).tallyAck_leaves (fieldAt frame 4 4)
  refine ⟨_, (exec_tally hpow hlink h).trans (congrArg Host.Outcome.next (if_neg ?_)), hfrank, hout, hack, hmem⟩
  have hlow : (({ s with frank := f }).emit (.frankResp 0x81 0 (fieldAt frame 4 4) [])).rdb F.PWR_PWRFAIL_STATUS_LEVEL 0 = false :=
    hlevel
  rw [hrdb, hlow]
  exact Bool.false_ne_true

theorem tally_ignored (hpow : s.frank.powered = true) (hlink : s.rdb F.FRK_TALLY_STATUS_LINK_UP 0 = true)
    (h : frameParts frame = none) : exec (.tally frame) s = .next { s with frank := s.frank.ignore } :=
  exec_tally hpow hlink (r := none) (by rw [Frank.tally, h])

end Frames

theorem tallyGap_once {s : State} (hpow : s.frank.powered = true) (hgap : s.frank.gap = false) :
    exec .tallyGap s = .next { s with frank := { (s.frank.event 0x06).setFlag flagTallyDown with gap := true } } :=
  congrArg Host.Outcome.next (if_pos (by rw [hpow, hgap]; rfl))

/-- The link's end: LINK_UP clears and a running mailbox command ends LINK_DOWN (R23). -/
theorem frankLinkDown_leaves (s : State) : ∃ t, exec .frankLinkDown s = .next t ∧ t.rdb F.FRK_TALLY_STATUS_LINK_UP 0 = false ∧
    t.rdb F.FRK_CMD_CTRL_GO 0 = false ∧ (s.rdb F.FRK_CMD_CTRL_GO 0 → t.rd F.FRK_CMD_STATUS_RESULT 0 = 2) ∧ t.frank = s.frank := by
  have hdown : (s.wr F.FRK_TALLY_STATUS_LINK_UP 0 0).rd F.FRK_TALLY_STATUS_LINK_UP 0 = 0 :=
    State.rd_wr_self s F.FRK_TALLY_STATUS_LINK_UP 0 0 (by decide)
  have hgo : (s.wr F.FRK_TALLY_STATUS_LINK_UP 0 0).rd F.FRK_CMD_CTRL_GO 0 = s.rd F.FRK_CMD_CTRL_GO 0 :=
    State.rd_wr_reg s F.FRK_TALLY_STATUS_LINK_UP F.FRK_CMD_CTRL_GO 0 (by decide) (by decide) (by decide)
  refine ⟨_, rfl, ?_⟩
  split
  · obtain ⟨honly, hclear, hresult, -⟩ := (s.wr F.FRK_TALLY_STATUS_LINK_UP 0 0).frkEnd_ends (r := 2) [] (by decide)
    refine ⟨?_, hclear, fun _ => hresult, honly.keeps State.frank rfl⟩
    rw [State.rdb, (State.frkEnd_nil_touches _ 2).rd F.FRK_TALLY_STATUS_LINK_UP 0 (by decide) (by decide), hdown]
    rfl
  · next hidle =>
    refine ⟨by rw [State.rdb, hdown]; rfl, Bool.eq_false_iff.2 hidle, fun h => absurd ?_ hidle, rfl⟩
    rw [State.rdb, hgo]
    exact h

end Sys2Proof.Machine

namespace Sys2Proof
open Sys2Proof.Machine

/-- Settles O53: the engine by whether a frame waits, Frank by what the frame parses to, the link by what runs. -/
theorem tallyLink : Obligations.TallyLink := by
  intro s
  refine ⟨fun hpow hlevel hnone => tallyTick_forms hpow hlevel hnone, fun g hpow hlevel hsome => tallyTick_waits hpow hlevel hsome,
    fun g hsome hlink => ?_, fun frame hpow hlink hparts => ⟨_, tally_ignored hpow hlink hparts, rfl, rfl⟩,
    fun frame f hpow hlink hlevel h => tally_answered hpow hlink hlevel h,
    fun hpow hgap => ⟨_, tallyGap_once hpow hgap, rfl, rfl, rfl, rfl, rfl⟩, fun hgap => ?_, fun hpow => ?_, fun hpwrok => ?_,
    frankLinkDown_leaves s, fun htally hfrank => ?_, fun hgo => ?_⟩
  · exact ⟨_, tallyAckTimeout_resends hsome hlink, rfl, rfl, regsBut_wr s F.FRK_TALLY_STATUS_RETRIES 0 _ (by decide),
      State.rd_sat_self s F.FRK_TALLY_STATUS_RETRIES 0 1 (by decide)⟩
  · exact congrArg Host.Outcome.next (if_neg (by rw [hgap, Bool.not_true, Bool.and_false]; decide))
  · refine ⟨_, congrArg Host.Outcome.next (if_pos hpow), rfl, ?_, rfl, rfl⟩
    rw [State.rdb, State.rd_wr_self _ F.FRK_TALLY_STATUS_LINK_UP 0 0 (by decide)]
    rfl
  · exact ⟨_, congrArg Host.Outcome.next (if_neg (by rw [hpwrok]; decide)), rfl, rfl, State.reg_setReg_self _ _ _ _, rfl⟩
  · refine ⟨_, congrArg Host.Outcome.next (if_pos (by rw [htally, hfrank]; rfl)), rfl, ?_⟩
    exact State.rdb_flag_self s F.FRK_TALLY_STATUS_LINK_UP 0 (by decide) (by decide)
  · obtain ⟨honly, hclear, hresult, hdone⟩ := s.frkEnd_ends (r := 3) [] (by decide)
    exact ⟨_, congrArg Host.Outcome.next (if_pos hgo), honly, hclear, hresult, hdone⟩

end Sys2Proof
end

section
/-! SUPPORT. Settles O55: the MC mailbox (section 15.10), from what one mailbox command does. -/

namespace Sys2Proof.Machine

/-- The state with a mailbox command's words written and GO set. -/
def State.frkTaken (s : State) (op arg8 : Nat) (arg64 : Word) : State :=
  (((s.wr F.FRK_CMD0_OP 0 op).wr F.FRK_CMD0_ARG8 0 arg8).setReg Reg.FRK_CMD1 0 arg64).flag F.FRK_CMD_CTRL_GO 0

theorem State.frkTaken_only (s : State) (op arg8 : Nat) (arg64 : Word) : onlyRegs s (s.frkTaken op arg8 arg64) := rfl

theorem State.frkTaken_runs (s : State) (op arg8 : Nat) (arg64 : Word) : (s.frkTaken op arg8 arg64).rdb F.FRK_CMD_CTRL_GO 0 = true :=
  State.rdb_flag_self _ F.FRK_CMD_CTRL_GO 0 (by decide) (by decide)

theorem State.frkTaken_link (s : State) (op arg8 : Nat) (arg64 : Word) :
    (s.frkTaken op arg8 arg64).rdb F.FRK_TALLY_STATUS_LINK_UP 0 = s.rdb F.FRK_TALLY_STATUS_LINK_UP 0 := by
  refine congrArg (· != 0) ?_
  unfold State.frkTaken State.flag
  rw [State.rd_wr_reg _ F.FRK_CMD_CTRL_GO F.FRK_TALLY_STATUS_LINK_UP _ (by decide) (by decide) (by decide),
    State.rd_setReg_of_reg _ F.FRK_TALLY_STATUS_LINK_UP _ (by decide) (by decide) (by decide),
    State.rd_wr_reg _ F.FRK_CMD0_ARG8 F.FRK_TALLY_STATUS_LINK_UP _ (by decide) (by decide) (by decide),
    State.rd_wr_reg _ F.FRK_CMD0_OP F.FRK_TALLY_STATUS_LINK_UP _ (by decide) (by decide) (by decide)]

/-- A mailbox command's answer in `t`: the response is sent and the command ends with its result. -/
structure FrkServed (s t : State) (op result : Nat) (payload : List Byte) : Prop where
  out : t.out = s.out ++ [.frankResp (op + 0x80) result 0 payload]
  result : t.rd F.FRK_CMD_STATUS_RESULT 0 = result
  done : t.rdb F.FRK_CMD_STATUS_DONE 0 = true
  ended : t.rdb F.FRK_CMD_CTRL_GO 0 = false
  mem : t.mem = s.mem

section Command

variable {s : State} {op arg8 : Nat} {arg64 : Word} {serve : Frank → Frank × Option (Nat × List Byte)}

/-- A free mailbox whose link is up hands the command to Frank. -/
theorem State.frkCommand_free (hheld : s.pins.held = false) (hgo : s.rdb F.FRK_CMD_CTRL_GO 0 = false)
    (hlink : s.rdb F.FRK_TALLY_STATUS_LINK_UP 0 = true) : s.frkCommand op arg8 arg64 serve =
      match (serve s.frank).2 with
      | some (result, payload) => (({ s.frkTaken op arg8 arg64 with frank := (serve s.frank).1 }).emit
          (.frankResp (op + 0x80) result 0 payload)).frkEnd result payload
      | none => { s.frkTaken op arg8 arg64 with frank := (serve s.frank).1 } := by
  unfold State.frkCommand
  rw [if_neg (by rw [hheld]; decide), if_neg (by rw [hgo]; decide)]
  have hup : (s.frkTaken op arg8 arg64).rdb F.FRK_TALLY_STATUS_LINK_UP 0 = true := (s.frkTaken_link op arg8 arg64).trans hlink
  exact if_neg (show ¬(!(s.frkTaken op arg8 arg64).rdb F.FRK_TALLY_STATUS_LINK_UP 0) = true by rw [hup]; decide)

/-- What Frank answers ends the command. -/
theorem State.frkCommand_served {f : Frank} {r : Nat} {payload : List Byte} (hheld : s.pins.held = false)
    (hfree : s.rdb F.FRK_CMD_CTRL_GO 0 = false ∧ s.rdb F.FRK_TALLY_STATUS_LINK_UP 0 = true)
    (hserve : serve s.frank = (f, some (r, payload))) (hr : r < 16) :
    FrkServed s (s.frkCommand op arg8 arg64 serve) op r payload ∧ (s.frkCommand op arg8 arg64 serve).frank = f ∧
      (s.frkCommand op arg8 arg64 serve).mcRecord = s.mcRecord := by
  rw [State.frkCommand_free hheld hfree.1 hfree.2, hserve]
  dsimp only
  obtain ⟨honly, hgo, hresult, hdone⟩ := (({ s.frkTaken op arg8 arg64 with frank := f }).emit
    (.frankResp (op + 0x80) r 0 payload)).frkEnd_ends payload hr
  exact ⟨⟨honly.keeps State.out rfl, hresult, hdone, hgo, honly.keeps State.mem rfl⟩, honly.keeps State.frank rfl,
    honly.keeps State.mcRecord rfl⟩

/-- What Frank ignores leaves the command running until its timeout. -/
theorem State.frkCommand_ignored {f : Frank} (hheld : s.pins.held = false)
    (hfree : s.rdb F.FRK_CMD_CTRL_GO 0 = false ∧ s.rdb F.FRK_TALLY_STATUS_LINK_UP 0 = true)
    (hserve : serve s.frank = (f, none)) :
    s.frkCommand op arg8 arg64 serve = { s.frkTaken op arg8 arg64 with frank := f } := by
  rw [State.frkCommand_free hheld hfree.1 hfree.2, hserve]

/-- A link that is down ends the command LINK_DOWN (R569). -/
theorem State.frkCommand_linkDown (hheld : s.pins.held = false) (hgo : s.rdb F.FRK_CMD_CTRL_GO 0 = false)
    (hlink : s.rdb F.FRK_TALLY_STATUS_LINK_UP 0 = false) :
    s.frkCommand op arg8 arg64 serve = (s.frkTaken op arg8 arg64).frkEnd 2 [] := by
  unfold State.frkCommand
  rw [if_neg (by rw [hheld]; decide), if_neg (by rw [hgo]; decide)]
  have hdown : (s.frkTaken op arg8 arg64).rdb F.FRK_TALLY_STATUS_LINK_UP 0 = false := (s.frkTaken_link op arg8 arg64).trans hlink
  exact if_pos (show (!(s.frkTaken op arg8 arg64).rdb F.FRK_TALLY_STATUS_LINK_UP 0) = true by rw [hdown]; rfl)

theorem State.frkCommand_refused (hheld : s.pins.held = false) (hgo : s.rdb F.FRK_CMD_CTRL_GO 0 = true) :
    s.frkCommand op arg8 arg64 serve = s.flag F.FRK_CMD_STATUS_BUSY_REFUSED 0 := by
  unfold State.frkCommand
  rw [if_neg (by rw [hheld]; decide), if_pos hgo]

end Command

/-- With no record read before, the MC notes the record and moves no share (R570). -/
theorem State.noteRecord_first {s : State} (r : FrankRecord) (hnone : s.mcRecord = none) :
    s.noteRecord r = { s with mcRecord := some r } := by
  unfold State.noteRecord
  rw [hnone]

/-- Frank's answer to READ_RECORD. -/
def readRecordServe (q : BitVec 32) (f : Frank) : Frank × Option (Nat × List Byte) :=
  match f.record? q.toNat with
  | some r => (f.markRead q.toNat, some (0, r.bytes))
  | none => (f, some (1, []))

theorem readRecordServe_found {q : BitVec 32} {f : Frank} {r : FrankRecord} (h : f.record? q.toNat = some r) :
    readRecordServe q f = (f.markRead q.toNat, some (0, r.bytes)) := by
  rw [readRecordServe, h]

theorem readRecordServe_missing {q : BitVec 32} {f : Frank} (h : f.record? q.toNat = none) :
    readRecordServe q f = (f, some (1, [])) := by
  rw [readRecordServe, h]

theorem exec_readRecord (q : BitVec 32) (s : State) : exec (.readRecord q) s =
    .next (match s.frank.record? q.toNat with
      | some r => if !s.pins.held && !s.rdb F.FRK_CMD_CTRL_GO 0 && s.rdb F.FRK_TALLY_STATUS_LINK_UP 0 then
          (s.frkCommand 4 0 (q.setWidth 64) (readRecordServe q)).noteRecord r
        else s.frkCommand 4 0 (q.setWidth 64) (readRecordServe q)
      | none => s.frkCommand 4 0 (q.setWidth 64) (readRecordServe q)) := rfl

/-- READ_RECORD of a record the ring holds. -/
theorem exec_readRecord_found {s : State} {q : BitVec 32} {r : FrankRecord} (hheld : s.pins.held = false)
    (hfree : s.rdb F.FRK_CMD_CTRL_GO 0 = false ∧ s.rdb F.FRK_TALLY_STATUS_LINK_UP 0 = true) (hnone : s.mcRecord = none)
    (hfound : s.frank.record? q.toNat = some r) : ∃ t, exec (.readRecord q) s = .next t ∧ FrkServed s t 4 0 r.bytes ∧
      t.frank = s.frank.markRead q.toNat ∧ t.mcRecord = some r := by
  obtain ⟨hserved, hfrank, hmc⟩ := State.frkCommand_served (op := 4) (arg8 := 0) (arg64 := q.setWidth 64) hheld hfree
    (readRecordServe_found hfound) (by decide)
  have hnote := State.noteRecord_first r (hmc.trans hnone)
  rw [exec_readRecord, hfound]
  dsimp only
  rw [if_pos (by rw [hheld, hfree.1, hfree.2]; rfl), hnote]
  exact ⟨_, rfl, ⟨hserved.out, hserved.result, hserved.done, hserved.ended, hserved.mem⟩, hfrank, rfl⟩

/-- READ_RECORD of a SEQ the ring does not hold answers NOT_FOUND. -/
theorem exec_readRecord_missing {s : State} {q : BitVec 32} (hheld : s.pins.held = false)
    (hfree : s.rdb F.FRK_CMD_CTRL_GO 0 = false ∧ s.rdb F.FRK_TALLY_STATUS_LINK_UP 0 = true)
    (hmissing : s.frank.record? q.toNat = none) : ∃ t, exec (.readRecord q) s = .next t ∧ FrkServed s t 4 1 [] ∧
      t.frank = s.frank := by
  obtain ⟨hserved, hfrank, -⟩ := State.frkCommand_served (op := 4) (arg8 := 0) (arg64 := q.setWidth 64) hheld hfree
    (readRecordServe_missing hmissing) (by decide)
  rw [exec_readRecord, hmissing]
  exact ⟨_, rfl, hserved, hfrank⟩

/-- Frank's answer to BIND. -/
def bindServe (p : Nat) (tenant : Word) (f : Frank) : Frank × Option (Nat × List Byte) :=
  if p % 256 ≤ 31 then ({ f with tenants := Tab.set 0 f.tenants (p % 256) tenant.toNat }, some (0, [])) else (f.ignore, none)

/-- A log index with sixteen entries from it on selects all of them. -/
theorem logWindow_eq {i : Nat} (hi : i ≤ 48) : (List.range 16).filter (fun k => i + k ≤ 63) = List.range 16 :=
  List.filter_eq_self.2 fun k hk => decide_eq_true (by have := List.mem_range.1 hk; omega)

end Sys2Proof.Machine

namespace Sys2Proof
open Sys2Proof.Machine

/-- Settles O55: each command is what one mailbox command does with Frank's answer. -/
theorem frankMailbox : Obligations.FrankMailbox := by
  intro s hheld
  have conj : ∀ {c : Instr} {t : State} {op r : Nat} {payload : List Byte}, exec c s = .next t → FrkServed s t op r payload →
      exec c s = .next t ∧ t.out = s.out ++ [.frankResp (op + 0x80) r 0 payload] ∧ t.rd F.FRK_CMD_STATUS_RESULT 0 = r ∧
        t.rdb F.FRK_CMD_STATUS_DONE 0 = true ∧ t.rdb F.FRK_CMD_CTRL_GO 0 = false ∧ t.mem = s.mem :=
    fun he h => ⟨he, h.out, h.result, h.done, h.ended, h.mem⟩
  refine ⟨fun p tenant hp hfree => ?_, fun p tenant hp hp256 hfree => ?_, fun utc hfree => ?_, fun q hfree hmissing => ?_,
    fun q r hfree hnone hfound => ?_, fun hfree => ⟨?_, ?_, ?_, ?_⟩, fun i hi hfree => ?_, fun hgo utc => ?_,
    fun hgo hlink utc => ?_⟩
  · have hmod : p % 256 = p := Nat.mod_eq_of_lt (by omega)
    obtain ⟨hserved, hfrank, -⟩ := State.frkCommand_served (op := 2) (arg8 := p) (arg64 := tenant)
      (serve := bindServe p tenant) hheld hfree (if_pos (by omega)) (by decide)
    exact ⟨_, conj rfl hserved, hfrank.trans (by rw [hmod])⟩
  · have hignored := State.frkCommand_ignored (op := 2) (arg8 := p) (arg64 := tenant)
      (serve := bindServe p tenant) hheld hfree (if_neg (by rw [Nat.mod_eq_of_lt hp256]; omega))
    exact ⟨_, congrArg Host.Outcome.next hignored, rfl, s.frkTaken_runs 2 p tenant, rfl⟩
  · obtain ⟨hserved, hfrank, -⟩ := State.frkCommand_served (op := 3) (arg8 := 0) (arg64 := utc)
      (serve := fun f => ({ f with utc := utc.toNat, utcAge := 0 }, some (0, []))) hheld hfree rfl (by decide)
    exact ⟨_, conj rfl hserved, hfrank⟩
  · obtain ⟨t, hexec, hserved, hfrank⟩ := exec_readRecord_missing hheld hfree hmissing
    exact ⟨t, conj hexec hserved, hfrank⟩
  · obtain ⟨t, hexec, hserved, hfrank, hmc⟩ := exec_readRecord_found hheld hfree hnone hfound
    exact ⟨t, conj hexec hserved, hfrank, hmc⟩
  · obtain ⟨hserved, hfrank, -⟩ := State.frkCommand_served (op := 5) (arg8 := 0) (arg64 := 0)
      (serve := fun f => (f, some (0, f.statusBytes))) hheld hfree rfl (by decide)
    exact ⟨_, conj rfl hserved, hfrank⟩
  · obtain ⟨hserved, hfrank, -⟩ := State.frkCommand_served (op := 5) (arg8 := 1) (arg64 := 0)
      (serve := fun f => (f, some (0, frankKeyBytes))) hheld hfree rfl (by decide)
    exact ⟨_, conj rfl hserved, hfrank⟩
  · obtain ⟨hserved, hfrank, -⟩ := State.frkCommand_served (op := 5) (arg8 := 2) (arg64 := 0)
      (serve := fun f => (f, some (0, frankCertBytes))) hheld hfree rfl (by decide)
    exact ⟨_, conj rfl hserved, hfrank⟩
  · obtain ⟨hserved, hfrank, -⟩ := State.frkCommand_served (op := 5) (arg8 := 3) (arg64 := 0)
      (serve := fun f => (f, some (0, frankIdentity))) hheld hfree rfl (by decide)
    exact ⟨_, conj rfl hserved, hfrank⟩
  · obtain ⟨hserved, hfrank, -⟩ := State.frkCommand_served (op := 6) (arg8 := i.toNat) (arg64 := 0)
      (serve := fun f => if i.toNat ≤ 63 then
        (f, some (0, ((List.range 16).filter (fun k => i.toNat + k ≤ 63)).flatMap (fun k => f.logBytes (i.toNat + k))))
        else (f.ignore, none)) hheld hfree ((if_pos (by omega)).trans (by rw [logWindow_eq hi])) (by decide)
    exact ⟨_, conj rfl hserved, hfrank⟩
  · exact congrArg Host.Outcome.next (State.frkCommand_refused hheld hgo)
  · obtain ⟨honly, -, hresult, hdone⟩ := (s.frkTaken 3 0 utc).frkEnd_ends (r := 2) [] (by decide)
    exact ⟨_, congrArg Host.Outcome.next (State.frkCommand_linkDown hheld hgo hlink),
      onlyRegs_trans (s.frkTaken_only 3 0 utc) honly, hresult, hdone⟩

end Sys2Proof
end

section
/-! SUPPORT. Settles O56: metering, records, MRAM banks, Frank's power and the I3C port (chapter 15). -/

namespace Sys2Proof.Machine

/-! ### Energy (R543, R545) -/

/-- The metered quantities of two states of Frank agree. -/
structure SameMeter (f g : Frank) : Prop where
  energy : g.energy = f.energy
  remainder : g.remainder = f.remainder
  pulses : g.pulses = f.pulses
  totals : g.totals = f.totals

theorem Frank.runFlag_meter (f : Frank) (b code : Nat) : SameMeter f (f.runFlag b code) := by
  unfold Frank.runFlag
  split <;> exact ⟨rfl, rfl, rfl, rfl⟩

theorem Frank.addMs_meter (f : Frank) (e : Nat) : SameMeter f (f.addMs e) := by
  unfold Frank.addMs
  dsimp only
  by_cases hcount : f.msCount + 1 < 16
  · rw [if_pos hcount]
    exact ⟨rfl, rfl, rfl, rfl⟩
  · rw [if_neg hcount]
    have hlow : ∀ (c : Prop) [Decidable c] (g : Frank), SameMeter g (if c then g.setFlag flagBelow60 else g) := by
      intro c _ g
      split <;> exact ⟨rfl, rfl, rfl, rfl⟩
    obtain ⟨he, hr, hp, ht⟩ := hlow (f.msEnergy + e < 60 * 2 ^ 32) { f with msEnergy := 0, msCount := 0 }
    split
    · obtain ⟨he', hr', hp', ht'⟩ := Frank.runFlag_meter (if f.msEnergy + e < 60 * 2 ^ 32
        then Frank.setFlag { f with msEnergy := 0, msCount := 0 } flagBelow60 else { f with msEnergy := 0, msCount := 0 })
        flagOverRange 0x09
      exact ⟨he'.trans he, hr'.trans hr, hp'.trans hp, ht'.trans ht⟩
    · exact ⟨he, hr, hp, ht⟩

/-- An interval whose conditions hold changes the metered quantities by its energy only. -/
theorem Frank.interval_meter (f : Frank) (rails : List Nat) :
    SameMeter (f.addEnergy (rails.foldl (· + ·) 0)) (f.interval rails true true) :=
  Frank.addMs_meter _ _

theorem Frank.addEnergy_eq {f : Frank} (e : Nat) (hmeter : f.meterFail = false) : f.addEnergy e =
    { f with
      energy := (f.energy + (f.remainder + e) / 2 ^ 32) % 2 ^ 64, remainder := (f.remainder + e) % 2 ^ 32
      pulses := f.pulses + ((f.energy + (f.remainder + e) / 2 ^ 32) / 36000 - f.energy / 36000) } :=
  if_neg (by rw [hmeter]; decide)

theorem Frank.addEnergy_failed {f : Frank} (e : Nat) (hmeter : f.meterFail = true) : f.addEnergy e = f := if_pos hmeter

section Metering

variable {s : State}

theorem exec_sampleInterval (hpow : s.frank.powered = true) (rails : List Nat) :
    exec (.sampleInterval rails true true) s = .next { s with frank := s.frank.interval rails true true } :=
  congrArg Host.Outcome.next (if_pos hpow)

theorem sampleInterval_adds (hpow : s.frank.powered = true) (rails : List Nat) (hmeter : s.frank.meterFail = false) : ∃ t,
    exec (.sampleInterval rails true true) s = .next t ∧ t = { s with frank := t.frank } ∧
      t.frank.remainder < 2 ^ 32 ∧ t.frank.totals = s.frank.totals ∧
      (s.frank.energy + (s.frank.remainder + rails.foldl (· + ·) 0) / 2 ^ 32 < 2 ^ 64 →
        t.frank.energy * 2 ^ 32 + t.frank.remainder = s.frank.energy * 2 ^ 32 + s.frank.remainder + rails.foldl (· + ·) 0 ∧
        t.frank.pulses = s.frank.pulses + (t.frank.energy / 36000 - s.frank.energy / 36000)) := by
  have hmeters := s.frank.interval_meter rails
  refine ⟨_, exec_sampleInterval hpow rails, rfl, ?_⟩
  dsimp only
  generalize s.frank.interval rails true true = f at hmeters
  obtain ⟨henergy, hremainder, hpulses, htotals⟩ := hmeters
  rw [henergy, hremainder, hpulses, htotals, Frank.addEnergy_eq _ hmeter]
  refine ⟨Nat.mod_lt _ (by decide), rfl, fun hfits => ⟨?_, ?_⟩⟩ <;> dsimp only <;> rw [Nat.mod_eq_of_lt hfits]
  omega

theorem sampleInterval_failed (hpow : s.frank.powered = true) (rails : List Nat) (hmeter : s.frank.meterFail = true) : ∃ t,
    exec (.sampleInterval rails true true) s = .next t ∧ t.frank.energy = s.frank.energy ∧
      t.frank.remainder = s.frank.remainder ∧ t.frank.pulses = s.frank.pulses := by
  obtain ⟨henergy, hremainder, hpulses, -⟩ := s.frank.interval_meter rails
  rw [Frank.addEnergy_failed _ hmeter] at henergy hremainder hpulses
  exact ⟨_, exec_sampleInterval hpow rails, henergy, hremainder, hpulses⟩

/-! ### Records (R555 to R559) -/

theorem Frank.issue_ring_last (f : Frank) : f.issue.ring.getLast? = some f.snapshot := by
  show ((f.ring ++ [f.snapshot]).drop ((f.ring ++ [f.snapshot]).length - 16)).getLast? = _
  rw [List.getLast?_drop, if_neg (by simp only [List.length_append, List.length_singleton]; omega), List.getLast?_append]
  rfl

theorem Frank.issue_ring_length (f : Frank) : f.issue.ring.length ≤ 16 := by
  show ((f.ring ++ [f.snapshot]).drop ((f.ring ++ [f.snapshot]).length - 16)).length ≤ 16
  rw [List.length_drop]
  omega

/-- A second boundary issues the record of the present totals. -/
theorem snapshot_issues (hpow : s.frank.powered = true) (hrun : s.frank.powerFail = false) : ∃ t,
    exec (.snapshot false) s = .next t ∧ t.frank = (s.frank.second false).issue ∧ t.mem = s.mem := by
  have hexec : exec (.snapshot false) s = .next (if (s.frank.second false).issue.ibi then
      ({ s with frank := (s.frank.second false).issue }).emit (.i3cIbi 0xF1) else { s with frank := (s.frank.second false).issue }) := by
    show execSnapshot false s = _
    unfold execSnapshot
    rw [if_pos hpow]
    exact congrArg Host.Outcome.next (if_neg (show ¬s.frank.powerFail = true by rw [hrun]; decide))
  refine ⟨_, hexec, ?_⟩
  split <;> exact ⟨rfl, rfl⟩

theorem snapshot_stopped (hpow : s.frank.powered = true) (hstop : s.frank.powerFail = true) :
    exec (.snapshot false) s = .next { s with frank := s.frank.second false } := by
  show execSnapshot false s = _
  unfold execSnapshot
  rw [if_pos hpow]
  exact congrArg Host.Outcome.next (if_pos (show s.frank.powerFail = true from hstop))

end Metering

/-! ### Power-up (R541, R566) -/

/-- What Frank holds after a power-up on bank `b`. -/
structure Restored (f : Frank) (b : FrankBank) : Prop where
  powered : f.powered = true
  energy : f.energy = b.energy
  remainder : f.remainder = b.remainder
  totals : f.totals = b.totals
  tenants : f.tenants = b.tenants
  uptime : f.uptime = 0
  ring : f.ring = []
  metering : f.meterFail = false
  clean : b.cause = 2 → f.nextSeq = b.nextSeq
  unclean : b.cause ≠ 2 → f.nextSeq = (b.nextSeq + 64) % 2 ^ 32

theorem Restored.event {f : Frank} {b : FrankBank} (h : Restored f b) (code : Nat) : Restored (f.event code) b :=
  ⟨h.powered, h.energy, h.remainder, h.totals, h.tenants, h.uptime, h.ring, h.metering, h.clean, h.unclean⟩

theorem Restored.ite {f g : Frank} {b : FrankBank} {c : Prop} [Decidable c] (hf : Restored f b) (hg : Restored g b) :
    Restored (if c then f else g) b := by
  split
  · exact hf
  · exact hg

theorem Frank.powerUp_restores {f : Frank} {one : Bool} {b : FrankBank} (session : Nat) (h : f.newest = some (one, b)) :
    Restored (f.powerUp session true) b := by
  unfold Frank.powerUp
  rw [h]
  dsimp only
  rw [if_pos rfl]
  have hbase : Restored (if b.cause = 2 then
      ({ Frank.restore { Frank.initial with bankA := f.bankA, bankB := f.bankB, powered := true, session := session } b with
        nextSeq := b.nextSeq } : Frank).event 0x01
      else (({ Frank.restore { Frank.initial with bankA := f.bankA, bankB := f.bankB, powered := true, session := session } b with
        nextSeq := low 32 (b.nextSeq + 64), sessionFlags := flagUnclean } : Frank).event 0x01).event 0x02) b := by
    by_cases hcause : b.cause = 2
    · rw [if_pos hcause]
      exact ⟨rfl, rfl, rfl, rfl, rfl, rfl, rfl, (by decide : (Frank.initial.sessionFlags &&& flagMeterFail != 0) = false),
        fun _ => rfl, fun h => absurd hcause h⟩
    · rw [if_neg hcause]
      exact ⟨rfl, rfl, rfl, rfl, rfl, rfl, rfl, (by decide : (flagUnclean &&& flagMeterFail != 0) = false),
        fun h => absurd h hcause, fun _ => rfl⟩
  exact (hbase.event 0x03).ite hbase

/-! ### The I3C port (R562, R564) -/

/-- Stores over I3C reach the two selectors only, and a selected log entry stays in range. -/
theorem Frank.i3cStores_selects (bytes : List Byte) (f : Frank) (a : Nat) :
    (∃ r l, f.i3cStores a bytes = { f with recordSel := r, logSel := l }) ∧
      (f.logSel ≤ 63 → (f.i3cStores a bytes).logSel ≤ 63) := by
  induction bytes generalizing f a with
  | nil => exact ⟨⟨f.recordSel, f.logSel, rfl⟩, id⟩
  | cons b bytes ih =>
    have hone : (∃ r l, f.i3cStore a b = { f with recordSel := r, logSel := l }) ∧
        (f.logSel ≤ 63 → (f.i3cStore a b).logSel ≤ 63) := by
      unfold Frank.i3cStore
      split
      · exact ⟨⟨_, f.logSel, rfl⟩, id⟩
      · split
        · next hsel => exact ⟨⟨f.recordSel, b.toNat, rfl⟩, fun _ => hsel.2⟩
        · exact ⟨⟨f.recordSel, f.logSel, rfl⟩, id⟩
    obtain ⟨⟨r, l, hstore⟩, hbound⟩ := hone
    obtain ⟨⟨r', l', hrest⟩, hkeep⟩ := ih (f.i3cStore a b) (a + 1)
    exact ⟨⟨r', l', hrest.trans (by rw [hstore])⟩, fun h => hkeep (hbound h)⟩

theorem i3cPrivateWrite_stores {s : State} {bytes : List Byte} (hpow : s.frank.powered = true) (hlen : 2 ≤ bytes.length) :
    ∃ t, exec (.i3cPrivateWrite bytes) s = .next t ∧ t.frank.pointer = fieldAt bytes 0 2 ∧
      t.frank = { s.frank with pointer := t.frank.pointer, recordSel := t.frank.recordSel, logSel := t.frank.logSel } ∧
      (s.frank.logSel ≤ 63 → t.frank.logSel ≤ 63) ∧ t = { s with frank := t.frank } := by
  obtain ⟨⟨r, l, hstores⟩, hbound⟩ := s.frank.i3cStores_selects (bytes.drop 2) (fieldAt bytes 0 2)
  refine ⟨{ s with frank := { s.frank.i3cStores (fieldAt bytes 0 2) (bytes.drop 2) with pointer := fieldAt bytes 0 2 } },
    congrArg Host.Outcome.next (if_pos (by rw [hpow, decide_eq_true hlen]; rfl)), rfl, ?_, hbound, rfl⟩
  rw [hstores]

/-- The state of Frank after a read over I3C. -/
def Frank.i3cRead (f : Frank) (n : Nat) : Frank :=
  { (if (List.range n).any (fun i => low 16 (f.pointer + i) == 0xD9F) then f.markRead f.recordSel else f) with
    pointer := low 16 (f.pointer + n) }

theorem Frank.i3cRead_keeps (f : Frank) (n : Nat) : (f.i3cRead n).energy = f.energy ∧ (f.i3cRead n).totals = f.totals := by
  unfold Frank.i3cRead
  split <;> exact ⟨rfl, rfl⟩

theorem exec_i3cPrivateRead {s : State} (hpow : s.frank.powered = true) (n : Nat) : exec (.i3cPrivateRead n) s =
    .next (({ s with frank := s.frank.i3cRead n }).emit
      (.i3cData ((List.range n).map (fun i => s.frank.i3cByte (low 16 (s.frank.pointer + i)))))) :=
  congrArg Host.Outcome.next (if_pos hpow)

theorem i3cPrivateRead_reads {s : State} (hpow : s.frank.powered = true) (n : Nat) : ∃ t d,
    exec (.i3cPrivateRead n) s = .next t ∧ t.out = s.out ++ [.i3cData d] ∧ d.length = n ∧
      t.frank.pointer = (s.frank.pointer + n) % 2 ^ 16 ∧ t.frank.energy = s.frank.energy ∧ t.frank.totals = s.frank.totals ∧
      (∀ i, i < n → d[i]? = some (s.frank.i3cByte ((s.frank.pointer + i) % 2 ^ 16))) := by
  obtain ⟨henergy, htotals⟩ := s.frank.i3cRead_keeps n
  refine ⟨_, _, exec_i3cPrivateRead hpow n, rfl, ?_, rfl, henergy, htotals, fun i hi => ?_⟩
  · rw [List.length_map, List.length_range]
  · rw [List.getElem?_map, List.getElem?_range hi]
    rfl

end Sys2Proof.Machine

namespace Sys2Proof
open Sys2Proof.Machine

/-- Settles O56: metering and records first, then banks, power and the I3C port. -/
theorem meteringAndBanks : Obligations.MeteringAndBanks := by
  refine ⟨fun s hpow => ⟨fun rails hmeter _ _ => sampleInterval_adds hpow rails hmeter,
    fun rails hmeter => sampleInterval_failed hpow rails hmeter, fun hmeter hdue => ?_, fun hnone => ?_, fun hrun _ => ?_,
    fun hstop => ⟨_, snapshot_stopped hpow hstop, rfl, rfl⟩⟩,
    fun s => ⟨fun b hpow hrun hnewest => ?_, fun b one hoff hnewest => ?_, fun hpow => congrArg Host.Outcome.next (if_pos hpow),
      fun hpow hrun => ?_, fun hpow hfail hlow => ?_, fun hpow hfail hhigh => ?_,
      fun bytes hpow hlen => i3cPrivateWrite_stores hpow hlen, fun n hpow => i3cPrivateRead_reads hpow n,
      fun a hpow => ⟨⟨_, congrArg Host.Outcome.next (if_pos hpow), rfl, rfl⟩,
      ⟨_, congrArg Host.Outcome.next (if_pos hpow), rfl, rfl⟩⟩,
      rfl⟩⟩
  · exact ⟨_, congrArg Host.Outcome.next (if_pos (by rw [hpow, hmeter, decide_eq_true hdue]; rfl)), rfl, rfl, rfl, rfl⟩
  · exact congrArg Host.Outcome.next (if_neg (by rw [hnone, decide_eq_false (Nat.lt_irrefl 0), Bool.and_false]; exact Bool.false_ne_true))
  · obtain ⟨t, hexec, hfrank, hmem⟩ := snapshot_issues hpow hrun
    refine ⟨t, (s.frank.second false).snapshot, hexec, ?_, rfl, rfl, rfl, rfl, ?_, ?_, ?_, hmem⟩ <;> rw [hfrank]
    · exact Frank.issue_ring_last _
    · exact Frank.issue_ring_length _
    · rfl
    · rfl
  · refine ⟨{ s with frank := { s.frank with
        bankB := some (s.frank.bankRecord 1 (low 32 (b.sequence + 1))), lastWrite := some true } }, _, ?_,
      rfl, rfl, rfl, rfl, rfl, rfl, rfl, rfl, rfl⟩
    refine congrArg Host.Outcome.next ((if_pos (by rw [hpow, hrun]; rfl)).trans ?_)
    rw [Frank.writeBank, hnewest]
  · obtain ⟨hpowered, henergy, hremainder, htotals, htenants, huptime, hring, hmeter, hclean, hunclean⟩ :=
      Frank.powerUp_restores (Config.session s.free).toNat hnewest
    exact ⟨_, congrArg Host.Outcome.next (if_neg (by rw [hoff]; exact Bool.false_ne_true)), hpowered, henergy, hremainder,
      htotals, htenants, huptime, hring, hmeter, hclean, hunclean, rfl, rfl⟩
  · exact ⟨_, congrArg Host.Outcome.next (if_pos (by rw [hpow, hrun]; rfl)), rfl, rfl, rfl⟩
  · exact ⟨_, congrArg Host.Outcome.next (if_pos (by rw [hpow, hfail, hlow]; rfl)), rfl, rfl⟩
  · exact ⟨_, congrArg Host.Outcome.next (if_pos (by rw [hpow, hfail, hhigh]; rfl)), rfl, rfl⟩

end Sys2Proof
end

section
/-! SUPPORT. Settles O47: register accesses by access code (chapter 18) and the configuration store (section 16.4). -/

namespace Sys2Proof.Machine

/-! ### Accesses to BAR0 (R641 to R643) -/

section Access

variable {s : State} {fn off size : Nat} {v : Word} {r : Reg} {i : Nat}

theorem barWrite_reg (hheld : s.pins.held = false) (hfn : s.fnExists fn = true)
    (hflr : s.rdb F.HOST_FN_STATUS_FLR_ACTIVE fn = false) (hplace : s.place fn off = .reg r i) :
    s.barWrite fn off size v = if goodAccess off size then
      s.slotWrite r i (fn == 0) off (if size = 8 then ~~~0 else if off % 8 = 0 then 0xFFFFFFFF else 0xFFFFFFFF00000000)
        (if size = 4 ∧ off % 8 = 4 then v <<< 32 else v) else s.badAccess fn off := by
  unfold State.barWrite
  rw [if_neg (by rw [hheld, hfn, hflr]; decide), hplace]

/-- An access whose size or alignment no register takes is dropped and counted. -/
theorem badAccess_dropped (hheld : s.pins.held = false) (hfn : s.fnExists fn = true)
    (hflr : s.rdb F.HOST_FN_STATUS_FLR_ACTIVE fn = false) (hplace : s.place fn off = .reg r i)
    (hbad : goodAccess off size = false) : exec (.registerWrite fn (.bar0 off size v)) s = .next (s.badAccess fn off) ∧
      exec (.badAccess fn off size true) s = .next ((s.badAccess fn off).emit (.readData fn (List.replicate size 0))) := by
  have hno : ¬goodAccess off size = true := by rw [hbad]; decide
  constructor
  · exact congrArg Host.Outcome.next ((barWrite_reg hheld hfn hflr hplace).trans (if_neg hno))
  · show execBadAccess fn off size true s = _
    unfold execBadAccess
    rw [if_neg (by rw [hheld, hfn]; decide), if_neg (by rw [hflr]; decide), hplace]
    dsimp only
    rw [if_neg hno, if_pos rfl]

/-- A partition in reset takes no write of its registers (Table 18-3). -/
theorem slotWrite_resetting {pf : Bool} {m : Word} {p : Nat} (hpart : s.instancePart r i = some p)
    (hreset : s.partState p = partResetting) : s.slotWrite r i pf off m v = s := by
  unfold State.slotWrite
  rw [hpart]
  exact if_pos (beq_iff_eq.2 hreset)

theorem slotWrite_unlocked {pf : Bool} {m : Word} (hpart : ∀ p, s.instancePart r i = some p → s.partState p ≠ partResetting)
    (hopen : s.rdb F.SYS_OPEN_OPENED 0 = false) : s.slotWrite r i pf off m v = s.regWrite r i pf m v := by
  unfold State.slotWrite
  have hrun : ¬(match s.instancePart r i with
      | some p => s.partState p == partResetting
      | none => false) = true := by
    cases h : s.instancePart r i with
    | none => exact Bool.false_ne_true
    | some p => exact fun hp => hpart p h (beq_iff_eq.1 hp)
  refine (if_neg hrun).trans (if_neg ?_)
  rw [hopen]
  exact fun h => Bool.false_ne_true h.2

theorem regWrite_plain {pf : Bool} {m : Word} (hmask : accMask Acc.writable pf (regSpec r).fields &&& m ≠ 0)
    (hkept : s.regKept r i = false) (hpin : r ≠ .LLC_PIN_MASK) (hreset : r ≠ .SYS_RESET_CTRL)
    (hop : ∀ w, s.opWritePart r i w = none ∧ s.opWriteDevice r i w = none) :
    s.regWrite r i pf m v = s.plainWrite r i pf m v := by
  unfold State.regWrite
  dsimp only
  rw [if_neg (by rw [hkept]; exact fun h => h.elim hmask Bool.false_ne_true), if_neg hpin, if_neg hreset, (hop _).1,
    Option.orElse_none, (hop _).2]

theorem registerWrite_plain (hheld : s.pins.held = false) (hfn : s.fnExists fn = true)
    (hflr : s.rdb F.HOST_FN_STATUS_FLR_ACTIVE fn = false) (hplace : s.place fn off = .reg r i) (hgood : goodAccess off 8 = true)
    (hpart : ∀ p, s.instancePart r i = some p → s.partState p ≠ partResetting)
    (hopen : s.rdb F.SYS_OPEN_OPENED 0 = false) (hkept : s.regKept r i = false) (hpin : r ≠ .LLC_PIN_MASK)
    (hreset : r ≠ .SYS_RESET_CTRL) (hop : ∀ w, s.opWritePart r i w = none ∧ s.opWriteDevice r i w = none)
    (hmask : accMask Acc.writable (fn == 0) (regSpec r).fields ≠ 0) :
    exec (.registerWrite fn (.bar0 off 8 v)) s = .next (s.plainWrite r i (fn == 0) (~~~0) v) := by
  refine congrArg Host.Outcome.next ((barWrite_reg hheld hfn hflr hplace).trans ?_)
  rw [if_pos hgood, if_pos rfl, if_neg (fun h => absurd h.1 (by decide)), slotWrite_unlocked hpart hopen]
  refine regWrite_plain ?_ hkept hpin hreset hop
  rw [show (~~~0 : Word) = BitVec.allOnes 64 from rfl, BitVec.and_allOnes]
  exact hmask

end Access

theorem regsBut_setReg (s : State) (r : Reg) {i : Nat} (w : Word) (hi : i < 131072) : regsBut s (s.setReg r i w) [(r, i)] := by
  intro q j hj hn
  exact State.reg_setReg_of_key_ne _ _ (fun e => hn (by simp [(Reg.key_inj hj hi).1 e]))

/-- What a full write leaves in each bit, by its access (Table 0-3). -/
theorem getLsbD_accWrite (fs : List FldSpec) (old v : Word) (pf : Bool) {j : Nat} (hj : j < 64) :
    (accWrite pf fs old (~~~0) v).getLsbD j =
      ((((old.getLsbD j && !(accMask Acc.stores pf fs).getLsbD j) || ((accMask Acc.stores pf fs).getLsbD j && v.getLsbD j)) &&
        !((accMask Acc.clears pf fs).getLsbD j && v.getLsbD j)) || ((accMask Acc.sets pf fs).getLsbD j && v.getLsbD j)) := by
  have hall : ∀ x : Word, x &&& ~~~0 = x := fun x => by
    rw [show (~~~0 : Word) = BitVec.allOnes 64 from rfl, BitVec.and_allOnes]
  unfold accWrite
  dsimp only
  simp only [hall, BitVec.getLsbD_or, BitVec.getLsbD_and, BitVec.getLsbD_not, hj, decide_true, Bool.true_and]
  rw [Bool.and_comm (v.getLsbD j)]

/-! ### Accesses that are counted, and the reserve (R643, R653) -/

theorem State.badAccess_leaves (s : State) {fn : Nat} (off : Nat) (hfn : fn < 131072) : onlyRegs s (s.badAccess fn off) ∧
    (s.badAccess fn off).rdb F.SYS_BAD_ACCESS_VALID fn = true ∧
    (s.badAccess fn off).rd F.MGT_RSV_ADDR_DPA 0 = s.rd F.MGT_RSV_ADDR_DPA 0 := by
  have hdpa : ∀ (u : State) (f : Fld) (v : Nat), Reg.MGT_RSV_ADDR ≠ f.reg →
      (u.wr f fn v).rd F.MGT_RSV_ADDR_DPA 0 = u.rd F.MGT_RSV_ADDR_DPA 0 :=
    fun u f v hf => State.rd_wr_reg u f F.MGT_RSV_ADDR_DPA v hf hfn (by decide)
  have hcount := hdpa s F.SYS_BAD_ACCESS_COUNT (min (s.rd F.SYS_BAD_ACCESS_COUNT fn + 1) 65535) (by decide)
  unfold State.badAccess
  dsimp only
  split
  · next hvalid => exact ⟨rfl, hvalid, hcount⟩
  · refine ⟨rfl, ?_, (hdpa _ F.SYS_BAD_ACCESS_OFFSET _ (by decide)).trans
      ((hdpa _ F.SYS_BAD_ACCESS_VALID 1 (by decide)).trans hcount)⟩
    rw [State.rdb, State.rd_wr_disjoint _ F.SYS_BAD_ACCESS_OFFSET F.SYS_BAD_ACCESS_VALID fn _ rfl (by decide) (by decide)]
    exact State.rdb_flag_self _ F.SYS_BAD_ACCESS_VALID fn (by decide) (by decide)

/-- A read of MGT_RSV_DATA moves its address on; outside the reserve it gives zeros and is counted. -/
theorem mgtRsvRead_reads {s : State} (hheld : s.pins.held = false) (hflr : s.rdb F.HOST_FN_STATUS_FLR_ACTIVE 0 = false) :
    ∃ t d, exec .mgtRsvRead s = .next t ∧ t.out = s.out ++ [.readData 0 d] ∧ d.length = 8 ∧
      t.rd F.MGT_RSV_ADDR_DPA 0 = (s.rd F.MGT_RSV_ADDR_DPA 0 + 1) % 2 ^ F.MGT_RSV_ADDR_DPA.width ∧ t.mem = s.mem ∧
      (s.inReserve (s.rd F.MGT_RSV_ADDR_DPA 0 * 8) = false → d = List.replicate 8 0 ∧
        t.rdb F.SYS_BAD_ACCESS_VALID 0 = true) := by
  have hnext := State.rd_wr_self s F.MGT_RSV_ADDR_DPA 0 (s.rd F.MGT_RSV_ADDR_DPA 0 + 1) (by decide)
  have hexec : exec .mgtRsvRead s = .next (if s.inReserve (s.rd F.MGT_RSV_ADDR_DPA 0 * 8) &&
      !Tab.get false s.poison (s.rd F.MGT_RSV_ADDR_DPA 0 * 8 / 32) then
        ({ s.wr F.MGT_RSV_ADDR_DPA 0 (s.rd F.MGT_RSV_ADDR_DPA 0 + 1) with free := s.free + 1 }).emit
          (.readData 0 (leBytes 8 (Config.reserveWord s.free (s.rd F.MGT_RSV_ADDR_DPA 0 * 8)).toNat))
      else ((s.wr F.MGT_RSV_ADDR_DPA 0 (s.rd F.MGT_RSV_ADDR_DPA 0 + 1)).badAccess 0 0x103088).emit
        (.readData 0 (List.replicate 8 0))) :=
    congrArg Host.Outcome.next (if_neg (by rw [hheld, hflr]; decide))
  by_cases hin : (s.inReserve (s.rd F.MGT_RSV_ADDR_DPA 0 * 8) &&
    !Tab.get false s.poison (s.rd F.MGT_RSV_ADDR_DPA 0 * 8 / 32)) = true
  · rw [if_pos hin] at hexec
    refine ⟨_, _, hexec, rfl, length_leBytes _ _, hnext, rfl, fun hout => ?_⟩
    rw [hout] at hin
    exact absurd hin Bool.false_ne_true
  · rw [if_neg hin] at hexec
    obtain ⟨honly, hvalid, hdpa⟩ := (s.wr F.MGT_RSV_ADDR_DPA 0 (s.rd F.MGT_RSV_ADDR_DPA 0 + 1)).badAccess_leaves
      (fn := 0) 0x103088 (by decide)
    refine ⟨_, List.replicate 8 0, hexec,
      congrArg (fun l => l ++ [Msg.readData 0 (List.replicate 8 0)]) (honly.keeps State.out rfl), rfl, hdpa.trans hnext,
      honly.keeps State.mem rfl, fun _ => ⟨rfl, hvalid⟩⟩

/-! ### The configuration store (section 16.4) -/

/-- The state with the command words of a store command written. -/
def State.cfgsWords (s : State) (op : Nat) (addr : Word) (length : BitVec 32) : State :=
  ((s.wr F.MGT_CFGS_CMD0_OP 0 op).setReg Reg.MGT_CFGS_CMD1 0 addr).wr F.MGT_CFGS_CMD2_LENGTH 0 length.toNat

/-- The state with the command words of a store command written and GO set. -/
def State.cfgsTaken (s : State) (op : Nat) (addr : Word) (length : BitVec 32) : State :=
  (s.cfgsWords op addr length).flag F.MGT_CFGS_CTRL_GO 0

theorem State.cfgsTaken_only (s : State) (op : Nat) (addr : Word) (length : BitVec 32) :
    onlyRegs s (s.cfgsTaken op addr length) := rfl

theorem State.cfgsTaken_words (s : State) {op : Nat} (addr : Word) (length : BitVec 32) (hop : op < 256) :
    (s.cfgsTaken op addr length).rd F.MGT_CFGS_CMD0_OP 0 = op ∧
      (s.cfgsTaken op addr length).rd F.MGT_CFGS_CMD2_LENGTH 0 = length.toNat ∧
      (s.cfgsTaken op addr length).rdb F.MGT_CFGS_CTRL_GO 0 = true := by
  unfold State.cfgsTaken State.flag State.cfgsWords
  refine ⟨?_, ?_, State.rdb_flag_self _ F.MGT_CFGS_CTRL_GO 0 (by decide) (by decide)⟩
  · rw [State.rd_wr_reg _ F.MGT_CFGS_CTRL_GO F.MGT_CFGS_CMD0_OP _ (by decide) (by decide) (by decide),
      State.rd_wr_reg _ F.MGT_CFGS_CMD2_LENGTH F.MGT_CFGS_CMD0_OP _ (by decide) (by decide) (by decide),
      State.rd_setReg_of_reg _ F.MGT_CFGS_CMD0_OP _ (by decide) (by decide) (by decide),
      State.rd_wr_self _ F.MGT_CFGS_CMD0_OP _ _ (by decide)]
    exact Nat.mod_eq_of_lt hop
  · rw [State.rd_wr_reg _ F.MGT_CFGS_CTRL_GO F.MGT_CFGS_CMD2_LENGTH _ (by decide) (by decide) (by decide),
      State.rd_wr_self _ F.MGT_CFGS_CMD2_LENGTH _ _ (by decide)]
    exact Nat.mod_eq_of_lt length.isLt

/-- A store command's end: its result with DONE, and GO clears. -/
theorem State.cfgsDone_ends (s : State) {r : Nat} (hr : r < 256) : onlyRegs s (s.cfgsDone r) ∧
    (s.cfgsDone r).rd F.MGT_CFGS_STATUS_RESULT 0 = r ∧ (s.cfgsDone r).rdb F.MGT_CFGS_STATUS_DONE 0 = true ∧
    (s.cfgsDone r).rdb F.MGT_CFGS_CTRL_GO 0 = false ∧
    (s.cfgsDone r).rd F.MGT_CFGS_STATUS_LENGTH 0 = s.rd F.MGT_CFGS_STATUS_LENGTH 0 := by
  unfold State.cfgsDone
  refine ⟨rfl, ?_, ?_, ?_, ?_⟩ <;> simp (disch := decide) only [State.rdb, State.flag, State.rd_wr_reg, State.rd_wr_disjoint,
    State.rd_wr_self]
  · exact Nat.mod_eq_of_lt hr
  · decide
  · decide

section Store

variable {s : State} {op : Nat} {a : Word} {n : BitVec 32}

/-- A GO while a command runs is refused; the words are kept. -/
theorem State.cfgsCommand_busy (hgo : s.rdb F.MGT_CFGS_CTRL_GO 0 = true) :
    s.cfgsCommand op a n = s.flag F.MGT_CFGS_STATUS_BUSY_REFUSED 0 := by
  rw [State.cfgsCommand, if_pos hgo, State.cfgsGo, if_pos hgo]

/-- The words written with no command running leave none running. -/
theorem State.cfgsWords_idle (hgo : s.rdb F.MGT_CFGS_CTRL_GO 0 = false) :
    (s.cfgsWords op a n).rdb F.MGT_CFGS_CTRL_GO 0 = false := by
  unfold State.cfgsWords
  rw [State.rdb, State.rd_wr_reg _ F.MGT_CFGS_CMD2_LENGTH F.MGT_CFGS_CTRL_GO _ (by decide) (by decide) (by decide),
    State.rd_setReg_of_reg _ F.MGT_CFGS_CTRL_GO _ (by decide) (by decide) (by decide),
    State.rd_wr_reg _ F.MGT_CFGS_CMD0_OP F.MGT_CFGS_CTRL_GO _ (by decide) (by decide) (by decide)]
  exact hgo

theorem State.cfgsCommand_free (hgo : s.rdb F.MGT_CFGS_CTRL_GO 0 = false) :
    s.cfgsCommand op a n = (s.cfgsWords op a n).cfgsGo := if_neg (by rw [hgo]; decide)

/-- READ without a valid bank ends with result 3. -/
theorem State.cfgsRead_none (hgo : s.rdb F.MGT_CFGS_CTRL_GO 0 = false) (hnone : s.boot.newest = none) :
    s.cfgsCommand 1 a n = (s.cfgsTaken 1 a n).cfgsDone 3 := by
  have hop := (s.cfgsTaken_words (op := 1) a n (by decide)).1
  have hboot : (s.cfgsTaken 1 a n).boot.newest = none := hnone
  rw [State.cfgsCommand_free hgo, State.cfgsGo, if_neg (by rw [State.cfgsWords_idle hgo]; decide)]
  simp only [← State.cfgsTaken.eq_1, hop, hboot]

/-- READ of no byte ends OK with LENGTH 0. -/
theorem State.cfgsRead_empty {one : Bool} {b : CfgBank} (hgo : s.rdb F.MGT_CFGS_CTRL_GO 0 = false)
    (hsome : s.boot.newest = some (one, b)) (hempty : b.payload.take n.toNat = []) :
    s.cfgsCommand 1 a n = ((s.cfgsTaken 1 a n).wr F.MGT_CFGS_STATUS_LENGTH 0 0).cfgsDone 0 := by
  obtain ⟨hop, hlen, -⟩ := s.cfgsTaken_words (op := 1) a n (by decide)
  have hboot : (s.cfgsTaken 1 a n).boot.newest = some (one, b) := hsome
  rw [State.cfgsCommand_free hgo, State.cfgsGo, if_neg (by rw [State.cfgsWords_idle hgo]; decide)]
  simp only [← State.cfgsTaken.eq_1, hop, hlen, hboot, hempty]
  exact if_pos rfl

/-- WRITE of a length that is no multiple of 4 ends with result 1. -/
theorem State.cfgsWrite_badLength (hgo : s.rdb F.MGT_CFGS_CTRL_GO 0 = false) (hlow : s.pins.pwrfailLow = false)
    (hbad : n.toNat % 4 ≠ 0) : s.cfgsCommand 2 a n = (s.cfgsTaken 2 a n).cfgsDone 1 := by
  obtain ⟨hop, hlen, -⟩ := s.cfgsTaken_words (op := 2) a n (by decide)
  have hpins : ¬(s.cfgsTaken 2 a n).pins.pwrfailLow = true := by
    rw [show (s.cfgsTaken 2 a n).pins = s.pins from rfl, hlow]
    decide
  rw [State.cfgsCommand_free hgo, State.cfgsGo, if_neg (by rw [State.cfgsWords_idle hgo]; decide)]
  simp only [← State.cfgsTaken.eq_1, hop, hlen]
  rw [if_neg hpins, if_pos (Or.inr (Or.inr hbad))]

/-- CLEAR erases both banks, unless PWRFAIL_L is low. -/
theorem State.cfgsClear_eq (hgo : s.rdb F.MGT_CFGS_CTRL_GO 0 = false) : s.cfgsCommand 3 a n =
    if s.pins.pwrfailLow then (s.cfgsTaken 3 a n).cfgsDone 5
    else { s.cfgsTaken 3 a n with boot := { s.boot with bank0 := none, bank1 := none } } := by
  have hop := (s.cfgsTaken_words (op := 3) a n (by decide)).1
  rw [State.cfgsCommand_free hgo, State.cfgsGo, if_neg (by rw [State.cfgsWords_idle hgo]; decide)]
  simp only [← State.cfgsTaken.eq_1, hop]
  rfl

theorem exec_cfgsRead (hopen : s.cfgsOpen = true) : exec (.cfgsRead a n) s = .next (s.cfgsCommand 1 a n) :=
  congrArg Host.Outcome.next (if_pos hopen)

theorem exec_cfgsWrite (hopen : s.cfgsOpen = true) : exec (.cfgsWrite (some (a, n)) none) s = .next (s.cfgsCommand 2 a n) :=
  congrArg Host.Outcome.next (if_neg (by rw [hopen]; decide))

theorem exec_cfgsClear (hopen : s.cfgsOpen = true) : exec (.cfgsClear true none) s = .next (s.cfgsCommand 3 0 0) :=
  congrArg Host.Outcome.next (if_neg (by rw [hopen]; decide))

/-- A verified WRITE puts the payload, under the next SEQUENCE, in the bank that did not hold the newest record. -/
theorem cfgsWrite_verified {x : CfgBank} (hopen : s.cfgsOpen = true) (hgo : s.rdb F.MGT_CFGS_CTRL_GO 0 = true)
    (hop : s.rd F.MGT_CFGS_CMD0_OP 0 = 2) (hnewest : s.boot.newest = some (false, x)) :
    exec (.cfgsWrite none (some .verified)) s = .next (({ s with boot := { s.boot with bank1 := some {
      sequence := (x.sequence + 1) % 2 ^ 32
      payload := s.vbytes 0 (s.rd F.MGT_CFGS_CMD1_ADDR 0) (s.rd F.MGT_CFGS_CMD2_LENGTH 0) } } }).cfgsDone 0) := by
  refine congrArg Host.Outcome.next ((if_neg (by rw [hopen]; decide)).trans ((if_pos hop).trans ?_))
  unfold State.cfgsFlash
  rw [if_neg (by rw [hgo]; decide)]
  dsimp only
  rw [if_pos hop, Boot.target, hnewest]
  rfl

end Store

end Sys2Proof.Machine
end

section
/-! SUPPORT. Settles O47, its last part: start-up on the defaults (section 16.4). -/

namespace Sys2Proof.Machine

/-- The word of SYS_PORT_MAP that gives port `n` the roles `f n` and `g n`. -/
def rolesWord (f g : Nat → Nat) : Nat := (List.range 8).foldl (fun a n => a + f n * 2 ^ (2 * n) + g n * 2 ^ (16 + 2 * n)) 0

theorem foldl_range_eight (f g c d : Nat → Nat) : (List.range 8).foldl (fun a n => a + f n * c n + g n * d n) 0 =
    f 0 * c 0 + g 0 * d 0 + f 1 * c 1 + g 1 * d 1 + f 2 * c 2 + g 2 * d 2 + f 3 * c 3 + g 3 * d 3 + f 4 * c 4 + g 4 * d 4 +
      f 5 * c 5 + g 5 * d 5 + f 6 * c 6 + g 6 * d 6 + f 7 * c 7 + g 7 * d 7 := by
  rw [show List.range 8 = [0, 1, 2, 3, 4, 5, 6, 7] from rfl]
  simp only [List.foldl_cons, List.foldl_nil, Nat.zero_add]

/-- The x16 role of one of the first four ports in the word of all roles. -/
theorem rolesWord_x16 (f g : Nat → Nat) (hf : ∀ n, f n ≤ 3) {h : Nat} (hh : h < 4) :
    bitsOf (rolesWord f g % 2 ^ 64 / 2 ^ 0 % 2 ^ 16) (2 * h) 2 = f h := by
  have h0 := hf 0; have h1 := hf 1; have h2 := hf 2; have h3 := hf 3
  have h4 := hf 4; have h5 := hf 5; have h6 := hf 6; have h7 := hf 7
  have hword : rolesWord f g = f 0 + 4 * f 1 + 16 * f 2 + 64 * f 3 + 256 * f 4 + 1024 * f 5 + 4096 * f 6 + 16384 * f 7 +
      65536 * (g 0 + 4 * g 1 + 16 * g 2 + 64 * g 3 + 256 * g 4 + 1024 * g 5 + 4096 * g 6 + 16384 * g 7) := by
    rw [rolesWord, foldl_range_eight f g (fun n => 2 ^ (2 * n)) (fun n => 2 ^ (16 + 2 * n))]
    ring
  rw [hword, bitsOf]
  obtain rfl | rfl | rfl | rfl : h = 0 ∨ h = 1 ∨ h = 2 ∨ h = 3 := by omega
  all_goals omega

theorem State.defaultX16_le (s : State) (n : Nat) : s.defaultX16 n ≤ 3 := by
  unfold State.defaultX16
  split
  · omega
  · split
    · omega
    · split <;> omega

theorem State.defaultX16_host {s : State} (hhost : s.rd F.SYS_STRAPS_HOSTPORT 0 < s.variant.ports) :
    s.defaultX16 (s.rd F.SYS_STRAPS_HOSTPORT 0) = 1 := by
  unfold State.defaultX16
  rw [if_neg (by omega), if_pos rfl]

/-- The state CONFIG_APPLY without a bank ends in. -/
def State.defaultsApplied (s : State) : State :=
  ((((s.setReg Reg.SYS_PORT_MAP 0 (BitVec.ofNat 64 (rolesWord s.defaultX16 s.defaultEth))).wrb F.SYS_START_STATUS_SAFE_BOOT 0
    (!s.pins.straps.testBit 11)).wr F.SYS_TOPOLOGY_ROLE_FALLBACK 0 1).wr F.SYS_START_STATUS_CFG_DEFAULTS 0 1).setPhase phDies

theorem configApply_defaults {s : State} (hheld : s.pins.held = false) (hphase : s.phase = phConfig)
    (hnone : s.pins.straps.testBit 11 = false ∨ s.boot.newest = none) : exec .configApply s = .next s.defaultsApplied := by
  have hbank : (if !s.pins.straps.testBit 11 then none else s.boot.newest) = none := by
    obtain hsafe | hnone := hnone
    · rw [hsafe]
      rfl
    · rw [hnone, ite_self]
  show execConfigApply s = _
  unfold execConfigApply
  dsimp only
  rw [if_neg (by rw [hheld, hphase]; decide), hbank]
  rfl

theorem State.defaultsApplied_leaves (s : State) : onlyRegs s s.defaultsApplied ∧ s.defaultsApplied.phase = phDies ∧
    s.defaultsApplied.rdb F.SYS_START_STATUS_CFG_DEFAULTS 0 = true ∧
    s.defaultsApplied.rdb F.SYS_START_STATUS_SAFE_BOOT 0 = (!s.pins.straps.testBit 11) ∧
    (s.rd F.SYS_STRAPS_HOSTPORT 0 < s.variant.ports → s.defaultsApplied.role (s.rd F.SYS_STRAPS_HOSTPORT 0) = 1) := by
  unfold State.defaultsApplied State.setPhase State.wrb
  refine ⟨onlyRegs_wr_of _ _ _ (onlyRegs_wr_of _ _ _ (onlyRegs_wr_of _ _ _ (onlyRegs_wr_of _ _ _ rfl))), ?_, ?_, ?_,
    fun hhost => ?_⟩
  · exact State.rd_wr_self _ F.SYS_START_STATUS_PHASE 0 phDies (by decide)
  · rw [State.rdb, State.rd_wr_disjoint _ F.SYS_START_STATUS_PHASE F.SYS_START_STATUS_CFG_DEFAULTS 0 _ rfl (by decide) (by decide),
      State.rd_wr_self _ F.SYS_START_STATUS_CFG_DEFAULTS 0 1 (by decide)]
    decide
  · rw [State.rdb, State.rd_wr_disjoint _ F.SYS_START_STATUS_PHASE F.SYS_START_STATUS_SAFE_BOOT 0 _ rfl (by decide) (by decide),
      State.rd_wr_disjoint _ F.SYS_START_STATUS_CFG_DEFAULTS F.SYS_START_STATUS_SAFE_BOOT 0 _ rfl (by decide) (by decide),
      State.rd_wr_reg _ F.SYS_TOPOLOGY_ROLE_FALLBACK F.SYS_START_STATUS_SAFE_BOOT _ (by decide) (by decide) (by decide),
      State.rd_wr_self _ F.SYS_START_STATUS_SAFE_BOOT 0 _ (by decide)]
    cases s.pins.straps.testBit 11 <;> decide
  · have hport : s.rd F.SYS_STRAPS_HOSTPORT 0 < 4 := Fld.get_lt F.SYS_STRAPS_HOSTPORT _
    rw [State.role, State.rd_wr_reg _ F.SYS_START_STATUS_PHASE F.SYS_PORT_MAP_X16_ROLE _ (by decide) (by decide) (by decide),
      State.rd_wr_reg _ F.SYS_START_STATUS_CFG_DEFAULTS F.SYS_PORT_MAP_X16_ROLE _ (by decide) (by decide) (by decide),
      State.rd_wr_reg _ F.SYS_TOPOLOGY_ROLE_FALLBACK F.SYS_PORT_MAP_X16_ROLE _ (by decide) (by decide) (by decide),
      State.rd_wr_reg _ F.SYS_START_STATUS_SAFE_BOOT F.SYS_PORT_MAP_X16_ROLE _ (by decide) (by decide) (by decide),
      State.rd, show F.SYS_PORT_MAP_X16_ROLE.reg = Reg.SYS_PORT_MAP from rfl, State.reg_setReg_self,
      Fld.get, BitVec.toNat_ofNat]
    have hrole := (rolesWord_x16 s.defaultX16 s.defaultEth s.defaultX16_le hport).trans (State.defaultX16_host hhost)
    generalize rolesWord s.defaultX16 s.defaultEth = w at hrole ⊢
    exact hrole

end Sys2Proof.Machine

namespace Sys2Proof
open Sys2Proof.Machine

/-- Settles O47: accesses through BAR0 first, then the commands of the configuration store. -/
theorem registersAndConfiguration : Obligations.RegistersAndConfiguration := by
  refine ⟨⟨fun fn off size v s r i hheld hfn hflr hplace => ⟨fun hbad => badAccess_dropped hheld hfn hflr hplace hbad,
      fun hgood hreset => ?_, fun hgood hsize hpart hopen hkept hpin hctrl hop hmask hi => ?_⟩,
    fun fs old v pf j hj => getLsbD_accWrite fs old v pf hj, fun fn b s hheld hfn hlt => ?_,
    fun s hheld hflr => mgtRsvRead_reads hheld hflr⟩,
    fun a n s => ⟨fun hopen hgo => ⟨?_, ?_, ?_⟩, fun hopen hgo hnone => ?_, fun one b hopen hgo hsome _ hempty => ?_,
      fun hopen hgo hbad hlow => ?_, fun hopen hgo hlow => ?_, fun x hopen hgo hop hnewest => ?_, fun hopen hgo hlow => ?_,
      fun hheld hphase hnone => ⟨_, configApply_defaults hheld hphase hnone, s.defaultsApplied_leaves⟩⟩⟩
  · obtain ⟨p, hp, hstate⟩ := hreset
    refine congrArg Host.Outcome.next ((barWrite_reg hheld hfn hflr hplace).trans ?_)
    rw [if_pos hgood, slotWrite_resetting hp hstate]
  · subst hsize
    exact ⟨_, registerWrite_plain hheld hfn hflr hplace hgood hpart hopen hkept hpin hctrl hop hmask, rfl,
      regsBut_setReg s r _ hi, State.reg_setReg_self s r i _⟩
  · refine ⟨_, congrArg Host.Outcome.next (if_neg ?_), ?_, rfl, rfl⟩
    · rw [hheld, hfn]
      simp
    · exact Tab.get_set_self 512 s.host.mrrs fn b
  · rw [exec_cfgsRead hopen, State.cfgsCommand_busy hgo]
  · rw [exec_cfgsWrite hopen, State.cfgsCommand_busy hgo]
  · rw [exec_cfgsClear hopen, State.cfgsCommand_busy hgo]
  · obtain ⟨honly, hresult, hdone, hend, -⟩ := (s.cfgsTaken 1 a n).cfgsDone_ends (r := 3) (by decide)
    exact ⟨_, (exec_cfgsRead hopen).trans (congrArg Host.Outcome.next (State.cfgsRead_none hgo hnone)),
      onlyRegs_trans (s.cfgsTaken_only 1 a n) honly, hresult, hdone, hend⟩
  · obtain ⟨honly, hresult, -, -, hlength⟩ :=
      ((s.cfgsTaken 1 a n).wr F.MGT_CFGS_STATUS_LENGTH 0 0).cfgsDone_ends (r := 0) (by decide)
    exact ⟨_, (exec_cfgsRead hopen).trans (congrArg Host.Outcome.next (State.cfgsRead_empty hgo hsome hempty)),
      onlyRegs_trans (onlyRegs_wr_of _ _ _ (s.cfgsTaken_only 1 a n)) honly, hresult,
      hlength.trans (State.rd_wr_self _ F.MGT_CFGS_STATUS_LENGTH 0 0 (by decide))⟩
  · obtain ⟨honly, hresult, hdone, -, -⟩ := (s.cfgsTaken 2 a n).cfgsDone_ends (r := 1) (by decide)
    exact ⟨_, (exec_cfgsWrite hopen).trans (congrArg Host.Outcome.next (State.cfgsWrite_badLength hgo hlow hbad)),
      onlyRegs_trans (s.cfgsTaken_only 2 a n) honly, hresult, hdone⟩
  · obtain ⟨honly, hresult, -, -, -⟩ := (s.cfgsTaken 3 0 0).cfgsDone_ends (r := 5) (by decide)
    exact ⟨_, (exec_cfgsClear hopen).trans (congrArg Host.Outcome.next ((State.cfgsClear_eq hgo).trans (if_pos hlow))),
      onlyRegs_trans (s.cfgsTaken_only 3 0 0) honly, hresult⟩
  · have hexec := cfgsWrite_verified hopen hgo hop hnewest
    generalize s.vbytes 0 (s.rd F.MGT_CFGS_CMD1_ADDR 0) (s.rd F.MGT_CFGS_CMD2_LENGTH 0) = payload at hexec ⊢
    obtain ⟨-, hresult, -, hend, -⟩ := State.cfgsDone_ends (s := { s with boot := { s.boot with
      bank1 := some ⟨(x.sequence + 1) % 2 ^ 32, payload⟩ } }) (r := 0) (by decide)
    exact ⟨_, _, hexec, rfl, rfl, rfl, rfl, hresult, hend⟩
  · have hhigh : ¬s.pins.pwrfailLow = true := by rw [hlow]; exact Bool.false_ne_true
    rw [exec_cfgsClear hopen, State.cfgsClear_eq hgo, if_neg hhigh]
    exact ⟨_, rfl, rfl, rfl, (s.cfgsTaken_words (op := 3) 0 0 (by decide)).2.2,
      congrArg (fun u : State => { u with boot := { s.boot with bank0 := none, bank1 := none } }) (s.cfgsTaken_only 3 0 0)⟩

end Sys2Proof
end

section
/-! SUPPORT. Settles O48: connection commands and the timers of a connection (sections 13.5 and 13.6). -/

namespace Sys2Proof.Machine

/-! ### Connections and what sending keeps -/

theorem State.conn_setConn (s : State) (c : Nat) (x : Conn) : (s.setConn c x).conn c = x :=
  Tab.get_set_self Conn.closed s.eth.conns c x

theorem State.rd_setConn (s : State) (c : Nat) (x : Conn) (f : Fld) (i : Nat) : (s.setConn c x).rd f i = s.rd f i := rfl

theorem State.conn_wr (s : State) (f : Fld) (i v c : Nat) : (s.wr f i v).conn c = s.conn c := rfl

/-- Sending changes the messages that went out or wait, and nothing else. -/
theorem State.sendEth_frame (s : State) (port kind : Nat) (m : Msg) :
    s.sendEth port kind m = { s with out := (s.sendEth port kind m).out, txq := (s.sendEth port kind m).txq } := by
  unfold State.sendEth
  dsimp only
  split
  · rfl
  · split <;> rfl

theorem State.sendRaw_keeps_all {α : Type} (s : State) (c : Nat) (pk : Packet) (g : State → α)
    (hg : ∀ o q, g { s with out := o, txq := q } = g s) : g (s.sendRaw c pk) = g s :=
  (congrArg g (s.sendEth_frame (s.connPort c) pk.kind (.packet (s.connPort c) (s.wire c pk.kind) pk.bytes))).trans (hg _ _)

/-! ### The command words and a command's end -/

/-- A connection command's end: its result with DONE, and GO clears. -/
theorem State.crrDone_ends (s : State) {q r : Nat} (hr : r < 256) :
    (s.crrDone q r).rd F.CRR_CMD_STATUS_RESULT q = r ∧ (s.crrDone q r).rdb F.CRR_CMD_STATUS_DONE q = true := by
  unfold State.crrDone State.flag
  refine ⟨(State.rd_wr_self _ F.CRR_CMD_STATUS_RESULT q r (by decide)).trans (Nat.mod_eq_of_lt hr), ?_⟩
  rw [State.rdb, State.rd_wr_disjoint _ F.CRR_CMD_STATUS_RESULT F.CRR_CMD_STATUS_DONE q _ rfl (by decide) (by decide),
    State.rd_wr_self _ F.CRR_CMD_STATUS_DONE q 1 (by decide)]
  decide

theorem State.crrDone_stops (s : State) {q : Nat} (r : Nat) (hq : q < 131072) :
    (s.crrDone q r).rdb F.CRR_CMD_CTRL_GO q = false := by
  unfold State.crrDone State.flag
  rw [State.rdb, State.rd_wr_reg _ F.CRR_CMD_STATUS_RESULT F.CRR_CMD_CTRL_GO _ (by decide) hq hq,
    State.rd_wr_reg _ F.CRR_CMD_STATUS_DONE F.CRR_CMD_CTRL_GO _ (by decide) hq hq,
    State.rd_wr_self _ F.CRR_CMD_CTRL_GO q 0 (by decide)]
  decide

theorem State.crrDone_touches (s : State) {q : Nat} (r : Nat) (hq : q < 131072) :
    RegsTouched s (s.crrDone q r) [Reg.CRR_CMD_CTRL, Reg.CRR_CMD_STATUS] :=
  (((RegsTouched.refl s _).wr F.CRR_CMD_CTRL_GO q 0 hq (by decide)).wr F.CRR_CMD_STATUS_DONE q 1 hq (by decide)).wr
    F.CRR_CMD_STATUS_RESULT q r hq (by decide)

/-- The registers that hold a connection command's words. -/
def crrWordRegs : List Reg := [.CRR_CMD0, .CRR_CMD1, .CRR_CMD2, .CRR_CMD3, .CRR_CMD4, .CRR_CMD5, .CRR_CMD6, .CRR_CMD7]

section Words

variable {s : State} {q op : Nat} {words : List Word} {listen : Bool}

theorem State.crrWords_touches (hq : q < 131072) : RegsTouched s (s.crrWords q words op listen) crrWordRegs := by
  have hput : ∀ (u : State) (f : Fld) (v : Nat), f.reg ∈ crrWordRegs → RegsTouched s u crrWordRegs →
      RegsTouched s (u.wr f q v) crrWordRegs := fun _ f v hf h => h.wr f q v hq hf
  unfold State.crrWords
  refine .ite (.refl s _) ?_
  iterate 15 refine hput _ _ _ (by decide) ?_
  exact .refl s _

/-- What the command words hold of an OPEN. -/
theorem State.crrWords_fields (hq : q < 131072) (hop : op < 256) (hgo : s.rdb F.CRR_CMD_CTRL_GO q = false) :
    (s.crrWords q words op listen).rd F.CRR_CMD0_OP q = op ∧
    (s.crrWords q words op listen).rd F.CRR_CMD0_CONN q = F.CRR_CMD0_CONN.get (words.getD 0 0) ∧
    (s.crrWords q words op listen).rd F.CRR_CMD0_REMOTE_CONN q = F.CRR_CMD0_REMOTE_CONN.get (words.getD 0 0) ∧
    (s.crrWords q words op listen).rd F.CRR_CMD2_COOKIE q = F.CRR_CMD2_COOKIE.get (words.getD 2 0) ∧
    (s.crrWords q words op listen).rdb F.CRR_CMD0_LISTEN q = listen := by
  have hmod : ∀ (f : Fld) (w : Word), f.get w % 2 ^ f.width = f.get w := fun f w => Nat.mod_eq_of_lt (Fld.get_lt f w)
  unfold State.crrWords
  rw [if_neg (by rw [hgo]; decide)]
  dsimp only
  refine ⟨?_, ?_, ?_, ?_, ?_⟩ <;> simp (disch := first | decide | omega) only [State.rdb, State.wrb, State.rd_wr_reg,
    State.rd_wr_disjoint, State.rd_wr_self, hmod]
  · exact Nat.mod_eq_of_lt hop
  · cases listen <;> decide

end Words

/-! ### What a GO does (R486, R487, R490) -/

section Go

variable {s : State} {q : Nat}

theorem State.crrGo_busy (hgo : s.rdb F.CRR_CMD_CTRL_GO q = true) : s.crrGo q = s.flag F.CRR_CMD_STATUS_BUSY_REFUSED q := if_pos hgo

theorem State.crrGo_refused (hgo : s.rdb F.CRR_CMD_CTRL_GO q = false) (hcheck : s.crrCheck q ≠ 0) :
    s.crrGo q = s.crrDone q (s.crrCheck q) := by
  unfold State.crrGo
  rw [if_neg (by rw [hgo]; decide)]
  exact if_pos hcheck

theorem State.crrGo_close (hgo : s.rdb F.CRR_CMD_CTRL_GO q = false) (hcheck : s.crrCheck q = 0)
    (hop : s.rd F.CRR_CMD0_OP q = 2) : s.crrGo q = (s.connClose (s.rd F.CRR_CMD0_CONN q)).crrDone q 0 := by
  unfold State.crrGo
  rw [if_neg (by rw [hgo]; decide)]
  exact (if_neg (not_not.2 hcheck)).trans (if_pos hop)

/-- The connection an OPEN configures, before its first packet. -/
def State.connOpens (s : State) (q c : Nat) : State :=
  let u := ((s.connConfig q c).wr F.CRR_CONN_STATE_GEN c ((s.connConfig q c).rd F.CRR_CONN_STATE_GEN c + 1)).wr
    F.CRR_CONN_STATE_STATE c connOpening
  (u.setConn c { u.conn c with cmd := some (q, u.time) }).wr F.CRR_CMD_CTRL_GO q 1

/-- An OPEN whose checks pass configures its connection, and listens or sends OPEN. -/
theorem State.crrGo_open (hgo : s.rdb F.CRR_CMD_CTRL_GO q = false) (hcheck : s.crrCheck q = 0)
    (hop : s.rd F.CRR_CMD0_OP q = 1) : s.crrGo q = if (s.connConfig q (s.rd F.CRR_CMD0_CONN q)).rdb F.CRR_CMD0_LISTEN q then
      ((s.connConfig q (s.rd F.CRR_CMD0_CONN q)).wr F.CRR_CONN_STATE_STATE (s.rd F.CRR_CMD0_CONN q) connListen).crrDone q 0
    else (s.connOpens q (s.rd F.CRR_CMD0_CONN q)).sendRaw (s.rd F.CRR_CMD0_CONN q)
      ((s.connOpens q (s.rd F.CRR_CMD0_CONN q)).openPacket (s.rd F.CRR_CMD0_CONN q) 4) := by
  unfold State.crrGo
  rw [if_neg (by rw [hgo]; decide)]
  exact (if_neg (not_not.2 hcheck)).trans (if_neg (by rw [hop]; decide))

/-- The configuration changes the connection and registers of it and of its port. -/
theorem State.connConfig_leaves {c : Nat} (hc : c < 131072) : ∃ y : Conn,
    RegsTouched (s.setConn c y) (s.connConfig q c) [Reg.CRR_PORT_STATUS, Reg.CRR_CONN_STATE] ∧
    (s.connConfig q c).rd F.CRR_CONN_STATE_GEN c = s.rd F.CRR_CONN_STATE_GEN c ∧
    y.remote = s.rd F.CRR_CMD0_REMOTE_CONN q ∧ y.cookie = s.rd F.CRR_CMD2_COOKIE q := by
  have hport : s.rd F.CRR_CMD0_PORT q < 131072 := Nat.lt_trans (Fld.get_lt F.CRR_CMD0_PORT _) (by decide)
  unfold State.connConfig
  refine ⟨_, (((RegsTouched.refl _ _).wr F.CRR_PORT_STATUS_REPLAY_FREE _ _ hport (by decide)).wr F.CRR_CONN_STATE_PORT c _ hc (by decide)).wr
    F.CRR_CONN_STATE_VER c 0 hc (by decide), ?_, rfl, rfl⟩
  simp (disch := first | decide | omega) only [State.rd_wr_reg, State.rd_wr_disjoint]
  rfl

end Go

/-! ### The commands of a partition -/

/-- A state that differs from `x` with a connection set in registers only, where `x` differs from `s` in registers only. -/
theorem State.regs_eth_of_setConn {s x t : State} {c : Nat} {y : Conn} (hx : onlyRegs s x) (ht : onlyRegs (x.setConn c y) t) :
    t = { s with regs := t.regs, eth := t.eth } := by
  have heth : t.eth = (x.setConn c y).eth := onlyRegs.keeps ht State.eth rfl
  rw [heth]
  exact Eq.trans ht (congrArg (fun u : State => { u with regs := t.regs, eth := (x.setConn c y).eth }) hx)

section Commands

variable {p : BitVec 5} {words : List Word} {s : State}

theorem exec_connOpenListen (hserved : s.served p.toNat = true) :
    exec (.connOpenListen p words) s = .next ((s.crrWords p.toNat words 1 true).crrGo p.toNat) :=
  congrArg Host.Outcome.next (if_pos hserved)

theorem exec_connOpen (hserved : s.served p.toNat = true) :
    exec (.connOpen p words) s = .next ((s.crrWords p.toNat words 1 false).crrGo p.toNat) :=
  congrArg Host.Outcome.next (if_pos hserved)

theorem exec_connClose (hserved : s.served p.toNat = true) (conn : BitVec 12) : exec (.connClose p conn) s =
    .next ((if s.rdb F.CRR_CMD_CTRL_GO p.toNat then s
      else (s.wr F.CRR_CMD0_OP p.toNat 2).wr F.CRR_CMD0_CONN p.toNat conn.toNat).crrGo p.toNat).flow :=
  congrArg Host.Outcome.next (if_pos hserved)

theorem State.crrWords_busy {q op : Nat} {listen : Bool} (hgo : s.rdb F.CRR_CMD_CTRL_GO q = true) :
    s.crrWords q words op listen = s := if_pos hgo

theorem State.crrWords_idle {q op : Nat} {listen : Bool} (hq : q < 131072) (hgo : s.rdb F.CRR_CMD_CTRL_GO q = false) :
    (s.crrWords q words op listen).rdb F.CRR_CMD_CTRL_GO q = false :=
  (congrArg (· != 0) ((State.crrWords_touches hq).rd F.CRR_CMD_CTRL_GO q hq (by decide))).trans hgo

/-- A GO of an OPEN with LISTEN ends at once with the connection LISTEN, under the configuration of the words. -/
theorem State.crrGo_listens {x : State} {q c : Nat} (hq : q < 131072) (hc : c < 131072)
    (hgo : x.rdb F.CRR_CMD_CTRL_GO q = false) (hcheck : x.crrCheck q = 0) (hop : x.rd F.CRR_CMD0_OP q = 1)
    (hconn : x.rd F.CRR_CMD0_CONN q = c) (hlisten : x.rdb F.CRR_CMD0_LISTEN q = true) : ∃ y : Conn,
      y.remote = x.rd F.CRR_CMD0_REMOTE_CONN q ∧ y.cookie = x.rd F.CRR_CMD2_COOKIE q ∧
      onlyRegs (x.setConn c y) (x.crrGo q) ∧ (x.crrGo q).connState c = connListen ∧
      (x.crrGo q).rd F.CRR_CMD_STATUS_RESULT q = 0 ∧ (x.crrGo q).rdb F.CRR_CMD_STATUS_DONE q = true ∧
      (x.crrGo q).rdb F.CRR_CMD_CTRL_GO q = false := by
  obtain ⟨y, htouch, -, hremote, hcookie⟩ := State.connConfig_leaves (s := x) (q := q) hc
  have hlisten' : (x.connConfig q c).rdb F.CRR_CMD0_LISTEN q = true :=
    (congrArg (· != 0) (htouch.rd F.CRR_CMD0_LISTEN q hq (by decide))).trans hlisten
  rw [State.crrGo_open hgo hcheck hop, hconn, if_pos hlisten']
  have hdone := State.crrDone_touches ((x.connConfig q c).wr F.CRR_CONN_STATE_STATE c connListen) 0 hq
  obtain ⟨hresult, hflag⟩ := State.crrDone_ends ((x.connConfig q c).wr F.CRR_CONN_STATE_STATE c connListen)
    (q := q) (r := 0) (by decide)
  refine ⟨y, hremote, hcookie, onlyRegs_trans (onlyRegs_wr_of _ _ _ htouch.only) hdone.only, ?_, hresult, hflag,
    State.crrDone_stops _ 0 hq⟩
  exact (hdone.rd F.CRR_CONN_STATE_STATE c hc (by decide)).trans
    (State.rd_wr_self _ F.CRR_CONN_STATE_STATE c connListen (by decide))

/-- The connection an OPEN starts: OPENING under the next generation, with its command running. -/
theorem State.connOpens_leaves {q c : Nat} (hq : q < 131072) (hc : c < 131072) : (s.connOpens q c).connState c = connOpening ∧
    (s.connOpens q c).rd F.CRR_CONN_STATE_GEN c =
      (s.rd F.CRR_CONN_STATE_GEN c + 1) % 2 ^ F.CRR_CONN_STATE_GEN.width ∧
    ((s.connOpens q c).conn c).cmd = some (q, s.time) ∧ (s.connOpens q c).rdb F.CRR_CMD_CTRL_GO q = true ∧
    (s.connOpens q c).mem = s.mem ∧ (s.connOpens q c).items = s.items := by
  obtain ⟨y, htouch, hgen, -⟩ := State.connConfig_leaves (s := s) (q := q) hc
  have htime : (s.connConfig q c).time = s.time := htouch.only.keeps State.time rfl
  have hmem : (s.connConfig q c).mem = s.mem := htouch.only.keeps State.mem rfl
  have hitems : (s.connConfig q c).items = s.items := htouch.only.keeps State.items rfl
  unfold State.connOpens
  generalize s.connConfig q c = v at htouch hgen htime hmem hitems ⊢
  dsimp only
  refine ⟨?_, ?_, ?_, State.rdb_flag_self _ F.CRR_CMD_CTRL_GO q (by decide) (by decide), hmem, hitems⟩
  · rw [State.connState, State.rd_wr_reg _ F.CRR_CMD_CTRL_GO F.CRR_CONN_STATE_STATE _ (by decide) hq hc, State.rd_setConn,
      State.rd_wr_self _ F.CRR_CONN_STATE_STATE c connOpening (by decide)]
    rfl
  · rw [State.rd_wr_reg _ F.CRR_CMD_CTRL_GO F.CRR_CONN_STATE_GEN _ (by decide) hq hc, State.rd_setConn,
      State.rd_wr_disjoint _ F.CRR_CONN_STATE_STATE F.CRR_CONN_STATE_GEN c _ rfl (by decide) (by decide),
      State.rd_wr_self _ F.CRR_CONN_STATE_GEN c _ (by decide), hgen]
  · rw [State.conn_wr, State.conn_setConn, ← htime]
    rfl

/-- A GO of an OPEN without LISTEN sends OPEN from the connection it starts. -/
theorem State.crrGo_opens {x : State} {q c : Nat} (hq : q < 131072) (hc : c < 131072)
    (hgo : x.rdb F.CRR_CMD_CTRL_GO q = false) (hcheck : x.crrCheck q = 0) (hop : x.rd F.CRR_CMD0_OP q = 1)
    (hconn : x.rd F.CRR_CMD0_CONN q = c) (hlisten : x.rdb F.CRR_CMD0_LISTEN q = false) :
    x.crrGo q = (x.connOpens q c).sendRaw c ((x.connOpens q c).openPacket c 4) := by
  obtain ⟨y, htouch, -⟩ := State.connConfig_leaves (s := x) (q := q) hc
  have hquiet : (x.connConfig q c).rdb F.CRR_CMD0_LISTEN q = false :=
    (congrArg (· != 0) (htouch.rd F.CRR_CMD0_LISTEN q hq (by decide))).trans hlisten
  rw [State.crrGo_open hgo hcheck hop, hconn, if_neg (by rw [hquiet]; exact Bool.false_ne_true)]

/-- The words of a CLOSE. -/
def State.closeWords (s : State) (q c : Nat) : State := (s.wr F.CRR_CMD0_OP q 2).wr F.CRR_CMD0_CONN q c

/-- A CLOSE whose checks pass closes its connection and ends with result 0. -/
theorem connClose_closes (hserved : s.served p.toNat = true) (hgo : s.rdb F.CRR_CMD_CTRL_GO p.toNat = false) {conn : BitVec 12}
    (hcheck : (s.closeWords p.toNat conn.toNat).crrCheck p.toNat = 0) : exec (.connClose p conn) s =
      .next ((((s.closeWords p.toNat conn.toNat).connClose conn.toNat).crrDone p.toNat 0).flow) ∧
      (s.closeWords p.toNat conn.toNat).connState conn.toNat = s.connState conn.toNat := by
  have hp : p.toNat < 131072 := Nat.lt_trans p.isLt (by decide)
  have hc : conn.toNat < 131072 := Nat.lt_trans conn.isLt (by decide)
  have hidle : (s.closeWords p.toNat conn.toNat).rdb F.CRR_CMD_CTRL_GO p.toNat = false := by
    rw [State.rdb, State.closeWords, State.rd_wr_reg _ F.CRR_CMD0_CONN F.CRR_CMD_CTRL_GO _ (by decide) hp hp,
      State.rd_wr_reg _ F.CRR_CMD0_OP F.CRR_CMD_CTRL_GO _ (by decide) hp hp]
    exact hgo
  have hop : (s.closeWords p.toNat conn.toNat).rd F.CRR_CMD0_OP p.toNat = 2 := by
    rw [State.closeWords, State.rd_wr_disjoint _ F.CRR_CMD0_CONN F.CRR_CMD0_OP _ _ rfl (by decide) (by decide),
      State.rd_wr_self _ F.CRR_CMD0_OP _ _ (by decide)]
    rfl
  have hconn : (s.closeWords p.toNat conn.toNat).rd F.CRR_CMD0_CONN p.toNat = conn.toNat :=
    (State.rd_wr_self _ F.CRR_CMD0_CONN _ _ (by decide)).trans (Nat.mod_eq_of_lt conn.isLt)
  constructor
  · rw [exec_connClose hserved, if_neg (by rw [hgo]; exact Bool.false_ne_true)]
    exact congrArg (fun u : State => Host.Outcome.next u.flow) ((State.crrGo_close hidle hcheck hop).trans (by rw [hconn]))
  · rw [State.connState, State.closeWords, State.rd_wr_reg _ F.CRR_CMD0_CONN F.CRR_CONN_STATE_STATE _ (by decide) hp hc,
      State.rd_wr_reg _ F.CRR_CMD0_OP F.CRR_CONN_STATE_STATE _ (by decide) hp hc]
    rfl

end Commands

end Sys2Proof.Machine
end

section
/-! SUPPORT. Settles O48, its second part: the timers of a connection (sections 13.5 and 13.6). -/

namespace Sys2Proof.Machine

/-- A CLOSE that is sent is counted. -/
theorem State.closes_sendClose (s : State) (c : Nat) : ((s.sendClose c).conn c).closes = (s.conn c).closes + 1 := by
  unfold State.sendClose
  rw [State.sendRaw_keeps_all _ c _ (fun u => u.conn c) (fun _ _ => rfl), State.conn_setConn]

/-- A packet that goes out acknowledges what has come in. -/
theorem State.sendPacket_leaves (s : State) (c : Nat) (pk : Packet) :
    (s.sendPacket c pk).conn c = { s.conn c with unacked := 0 } ∧ (s.sendPacket c pk).regs = s.regs ∧
      (s.sendPacket c pk).items = s.items ∧ (s.sendPacket c pk).mem = s.mem := by
  unfold State.sendPacket
  refine ⟨?_, State.sendRaw_keeps_all _ c _ State.regs (fun _ _ => rfl), State.sendRaw_keeps_all _ c _ State.items (fun _ _ => rfl),
    State.sendRaw_keeps_all _ c _ State.mem (fun _ _ => rfl)⟩
  rw [State.sendRaw_keeps_all _ c _ (fun u => u.conn c) (fun _ _ => rfl), State.conn_setConn]

theorem State.sendAck_leaves (s : State) (c : Nat) : ((s.sendAck c).conn c).unacked = 0 ∧ ((s.sendAck c).conn c).ceSeen = false ∧
    (s.sendAck c).regs = s.regs ∧ (s.sendAck c).items = s.items ∧ (s.sendAck c).mem = s.mem := by
  obtain ⟨hconn, hregs, hitems, hmem⟩ := (s.setConn c { s.conn c with ceSeen := false }).sendPacket_leaves c
    { s.packetOf c 2 with ece := (s.conn c).ceSeen }
  rw [State.conn_setConn] at hconn
  exact ⟨congrArg Conn.unacked hconn, congrArg Conn.ceSeen hconn, hregs, hitems, hmem⟩

section Timers

variable {s : State} {conn : BitVec 12}

theorem exec_openRepeat_opening (hheld : s.pins.held = false) (hst : s.connState conn.toNat = connOpening) :
    exec (.openRepeat conn) s = .next (s.sendRaw conn.toNat (s.openPacket conn.toNat 4)) :=
  congrArg Host.Outcome.next (if_neg (by rw [hheld]; exact fun h => h.elim Bool.false_ne_true (fun h => h hst)))

/-- No OPEN_ACK within 1 s: the command ends and the connection is CLOSED again. -/
theorem exec_openTimeout_opening {q b : Nat} (hheld : s.pins.held = false) (hst : s.connState conn.toNat = connOpening)
    (hcmd : (s.conn conn.toNat).cmd = some (q, b)) : exec (.openTimeout conn) s = .next
      (((s.setConn conn.toNat { s.conn conn.toNat with cmd := none }).teardown conn.toNat connClosed).crrDone q 6) := by
  show execOpenTimeout conn s = _
  unfold execOpenTimeout
  dsimp only
  rw [if_neg (by rw [hheld]; exact fun h => h.elim Bool.false_ne_true (fun h => h hst)), hcmd]

theorem exec_closeRepeat (hheld : s.pins.held = false) (hst : s.connState conn.toNat = connClosing)
    (hn : (s.conn conn.toNat).closes ≠ 0) : exec (.closeRepeat conn) s = .next (if (s.conn conn.toNat).closes < 3 then
      s.sendClose conn.toNat else ((s.teardown conn.toNat connClosed).connLost conn.toNat).flow) :=
  congrArg Host.Outcome.next (if_neg (by
    rw [hheld]
    exact fun h => h.elim Bool.false_ne_true (fun h => h.elim (fun h => h hst) hn)))

theorem exec_ackTimer_due (hheld : s.pins.held = false) (hlive : s.connLive conn.toNat = true)
    (hdue : (s.conn conn.toNat).unacked ≠ 0) : exec (.ackTimer conn) s = .next (s.sendAck conn.toNat) :=
  congrArg Host.Outcome.next (if_neg (by
    rw [hheld, hlive]
    exact fun h => h.elim Bool.false_ne_true (fun h => h.elim Bool.false_ne_true hdue)))

theorem exec_retransmitTimeout (hheld : s.pins.held = false) (hlive : s.connLive conn.toNat = true)
    (hwait : (s.conn conn.toNat).replay ≠ []) : exec (.retransmitTimeout conn) s = .next
      (if s.rd F.CRR_CONN_STATE_RETRIES conn.toNat = 7 then s.pathFail conn.toNat
      else (if s.connVer conn.toNat = 1 then (s.conn conn.toNat).replay else (s.conn conn.toNat).replay.filter
          (fun q => !(s.conn conn.toNat).sacked.contains q.psn)).foldl (fun s q => s.sendPacket conn.toNat q)
        (s.wr F.CRR_CONN_STATE_RETRIES conn.toNat (s.rd F.CRR_CONN_STATE_RETRIES conn.toNat + 1))) :=
  congrArg Host.Outcome.next (if_neg (by
    rw [hheld, hlive]
    exact fun h => h.elim Bool.false_ne_true (fun h => h.elim Bool.false_ne_true (fun h => hwait (List.isEmpty_iff.1 h)))))

/-- A keep-alive NOP takes the next transaction. -/
theorem exec_nopKeepalive_waiting (hheld : s.pins.held = false) (hlive : s.connLive conn.toNat = true)
    (hreqs : (s.conn conn.toNat).reqs ≠ []) : exec (.nopKeepalive conn) s = .next ((s.setConn conn.toNat
      { s.conn conn.toNat with nextTrans := ((s.conn conn.toNat).nextTrans + 1) % 2 ^ 32 }).sendMessage
        conn.toNat 0 (s.conn conn.toNat).nextTrans 3 0 0 [] []) :=
  congrArg Host.Outcome.next (if_neg (by
    rw [hheld, hlive]
    exact fun h => h.elim Bool.false_ne_true (fun h => h.elim Bool.false_ne_true (fun h => hreqs (List.isEmpty_iff.1 h)))))

theorem exec_responseTimeout_waiting (hheld : s.pins.held = false) {trans : BitVec 32}
    (hwait : ∃ r ∈ (s.conn conn.toNat).reqs, r.trans = trans.toNat) :
    exec (.responseTimeout conn trans) s = .next (s.pathFail conn.toNat) := by
  have hany : (s.conn conn.toNat).reqs.any (fun r => r.trans == trans.toNat) = true := by
    obtain ⟨r, hr, htrans⟩ := hwait
    exact List.any_eq_true.2 ⟨r, hr, beq_iff_eq.2 htrans⟩
  refine congrArg Host.Outcome.next (if_neg ?_)
  rw [hheld, hany]
  exact fun h => h.elim Bool.false_ne_true Bool.false_ne_true

end Timers

end Sys2Proof.Machine

namespace Sys2Proof
open Sys2Proof.Machine

/-- Settles O48: the commands by what a GO does, then each timer by the connection's state. -/
theorem connectionCommandsAndTimers : Obligations.ConnectionCommandsAndTimers := by
  refine ⟨fun p words s hserved => ⟨fun hgo => ⟨?_, ?_, fun conn => ?_⟩, fun hgo => ⟨fun hcheck => ?_, fun hcheck => ?_⟩,
      fun hgo hcheck => ?_, fun hgo hcheck => ?_, fun conn hgo hcheck => ?_⟩,
    fun conn s hheld => ⟨exec_openRepeat_opening hheld, fun hst => ⟨?_, ?_⟩,
      fun q b hst hcmd => exec_openTimeout_opening hheld hst hcmd, fun hst hn => ⟨?_, ?_⟩, fun hst hn => ?_,
      fun hlive hdue => ⟨_, exec_ackTimer_due hheld hlive hdue, s.sendAck_leaves conn.toNat⟩, fun hlive hwait hk => ?_,
      fun pk hlive hwait hver hk => ?_, exec_nopKeepalive_waiting hheld,
      fun trans hwait => exec_responseTimeout_waiting hheld hwait⟩⟩
  · rw [exec_connOpenListen hserved, State.crrWords_busy hgo, State.crrGo_busy hgo]
  · rw [exec_connOpen hserved, State.crrWords_busy hgo, State.crrGo_busy hgo]
  · rw [exec_connClose hserved, if_pos hgo, State.crrGo_busy hgo]
  · have hp : p.toNat < 131072 := Nat.lt_trans p.isLt (by decide)
    rw [exec_connOpenListen hserved, State.crrGo_refused (State.crrWords_idle hp hgo) hcheck]
  · have hp : p.toNat < 131072 := Nat.lt_trans p.isLt (by decide)
    rw [exec_connOpen hserved, State.crrGo_refused (State.crrWords_idle hp hgo) hcheck]
  · have hp : p.toNat < 131072 := Nat.lt_trans p.isLt (by decide)
    obtain ⟨hop, hconn, hremote, hcookie, hlisten⟩ := State.crrWords_fields (s := s) (words := words) (listen := true) hp
      (by decide : 1 < 256) hgo
    obtain ⟨y, hyremote, hycookie, hregs, hstate, hresult, hdone, hend⟩ := State.crrGo_listens hp
      (Nat.lt_trans (Fld.get_lt F.CRR_CMD0_CONN (words.getD 0 0)) (by decide)) (State.crrWords_idle hp hgo) hcheck hop hconn hlisten
    have hy := (hregs.keeps (fun u => u.conn (F.CRR_CMD0_CONN.get (words.getD 0 0))) rfl).trans (State.conn_setConn _ _ y)
    exact ⟨_, exec_connOpenListen hserved, hstate, (congrArg Conn.remote hy).trans (hyremote.trans hremote),
      (congrArg Conn.cookie hy).trans (hycookie.trans hcookie), hresult, hdone, hend,
      State.regs_eth_of_setConn (State.crrWords_touches hp).only hregs⟩
  · have hp : p.toNat < 131072 := Nat.lt_trans p.isLt (by decide)
    have hc : F.CRR_CMD0_CONN.get (words.getD 0 0) < 131072 := Nat.lt_trans (Fld.get_lt _ _) (by decide)
    obtain ⟨hop, hconn, -, -, hlisten⟩ := State.crrWords_fields (s := s) (words := words) (listen := false) hp
      (by decide : 1 < 256) hgo
    have hwords := State.crrWords_touches (s := s) (words := words) (op := 1) (listen := false) hp
    obtain ⟨hstate, hgen, hcmd, hrun, hmem, hitems⟩ :=
      State.connOpens_leaves (s := s.crrWords p.toNat words 1 false) hp hc
    exact ⟨_, (exec_connOpen hserved).trans (congrArg Host.Outcome.next (State.crrGo_opens hp hc (State.crrWords_idle hp hgo) hcheck
        hop hconn hlisten)), hstate, hgen.trans (by rw [hwords.rd F.CRR_CONN_STATE_GEN _ hc (by decide)]),
      hcmd.trans (by rw [hwords.only.keeps State.time rfl]), hrun, hmem.trans (hwords.only.keeps State.mem rfl),
      hitems.trans (hwords.only.keeps State.items rfl)⟩
  · obtain ⟨hexec, hstate⟩ := connClose_closes hserved hgo hcheck
    rw [hexec]
    refine ⟨fun hst => ?_, fun hst => ?_, fun hopen hclosing => ?_⟩
    · rw [State.connClose, hstate, hst, if_neg (by decide), if_pos rfl]
      rfl
    · rw [State.connClose, hstate, hst, if_pos rfl]
      rfl
    · rw [State.connClose, hstate, if_neg hopen, if_neg hclosing]
      rfl
  · exact congrArg Host.Outcome.next (if_pos (Or.inr hst))
  · exact congrArg Host.Outcome.next (if_pos (Or.inr hst))
  · rw [exec_closeRepeat hheld hst (by omega), if_pos (by omega)]
  · rw [State.closes_sendClose, hn]
  · rw [exec_closeRepeat hheld hst (by omega), if_neg (by omega)]
  · rw [exec_retransmitTimeout hheld hlive hwait, if_pos hk]
  · rw [exec_retransmitTimeout hheld hlive (by rw [hwait]; exact List.cons_ne_nil _ _), if_neg (by omega), if_pos hver, hwait]
    rfl

end Sys2Proof
end

section
/-! SUPPORT. Settles O50: the messages of Courier (section 13.7). -/

namespace Sys2Proof.Machine

/-- The end of a message that was served: its connection may close now, and what waits goes on. -/
def State.messageEnds (s : State) (c : Nat) : Res := .next (s.tryClose c).flow

section Messages

variable {conn : BitVec 12} {trans : BitVec 32} {s u : State} {r : Rx}

/-- A complete message at a connection that is not CLOSING is served. -/
theorem State.message_served {op : Nat} (f : State → Nat → Nat → Rx → State)
    (htaken : s.takeRx conn.toNat trans.toNat op = some (r, u) ∧ u.connState conn.toNat ≠ connClosing) :
    s.message conn trans op f = (f u conn.toNat (u.connPart conn.toNat) r).messageEnds conn.toNat := by
  unfold State.message
  dsimp only
  rw [htaken.1]
  dsimp only
  rw [if_neg (fun h => htaken.2 (beq_iff_eq.1 (Bool.and_eq_true_iff.1 h).2))]
  rfl

/-- A PUT for a handle of another partition is answered HELD 0x51. -/
theorem put_foreign (htaken : s.takeRx conn.toNat trans.toNat 1 = some (r, u) ∧ u.connState conn.toNat ≠ connClosing)
    (hhandle : msgField r.bytes 0 4 / 2 ^ 27 ≠ u.connPart conn.toNat) : exec (.put conn trans) s =
      (u.sendMessage conn.toNat 2 r.trans r.cls 0x0051 0 [] []).messageEnds conn.toNat := by
  show execPut conn trans s = _
  unfold execPut
  rw [State.message_served _ htaken]
  dsimp only
  rw [if_pos hhandle]

/-- The work a PUT gives the receiver. -/
def putWork (c p urg : Nat) (r : Rx) : Item :=
  { Item.blank p (.put c r.trans (msgField r.bytes 8 2) (msgField r.bytes 10 2) (msgField r.bytes 12 1 != 0)) with
    origin := .courier r.trans, obj := msgField r.bytes 0 4 % 2 ^ 27, tile := msgField r.bytes 4 3, urg
    deadline := msgDeadline r.bytes
    src := (List.range (r.bytes.length - 32)).foldl (fun t i => Tab.put t i (r.bytes.getD (32 + i) 0)) [] }

/-- The state with a PUT's image at Intake. -/
def State.putTaken (u : State) (c : Nat) (r : Rx) : State :=
  ((u.classOf (u.connPart c) r.cls).2.addItem (putWork c (u.connPart c) (u.classOf (u.connPart c) r.cls).1 r)).intake
    (u.classOf (u.connPart c) r.cls).2.nextItem (msgField r.bytes 13 4) 0

/-- A PUT for a handle of this partition takes its image to Intake. -/
theorem put_own (htaken : s.takeRx conn.toNat trans.toNat 1 = some (r, u) ∧ u.connState conn.toNat ≠ connClosing)
    (hhandle : msgField r.bytes 0 4 / 2 ^ 27 = u.connPart conn.toNat) : exec (.put conn trans) s =
      (match (u.putTaken conn.toNat r).item? (u.classOf (u.connPart conn.toNat) r.cls).2.nextItem with
        | some it => if it.ended.isSome then
            (u.putTaken conn.toNat r).endPut (u.classOf (u.connPart conn.toNat) r.cls).2.nextItem else u.putTaken conn.toNat r
        | none => u.putTaken conn.toNat r).messageEnds conn.toNat := by
  show execPut conn trans s = _
  unfold execPut
  rw [State.message_served _ htaken]
  dsimp only
  rw [if_neg (not_not.2 hhandle)]
  unfold State.putTaken putWork
  rfl

/-- A HELD of status 0 releases the tile that was sent, ends its work and confirms. -/
theorem held_released {q : CrrReq} {it : Item}
    (htaken : s.takeRx conn.toNat trans.toNat 2 = some (r, u) ∧ u.connState conn.toNat ≠ connClosing) (hok : msgStatus r.bytes = 0)
    (hreq : (u.conn conn.toNat).reqs.find? (fun q => q.trans == r.trans && q.opcode == 1) = some q)
    (hitem : (u.dropReq conn.toNat r.trans 1).item? q.item = some it)
    (hhere : ((u.dropReq conn.toNat r.trans 1).tile (u.connPart conn.toNat) it.obj it.tile).state ≠ TState.released) :
    ∃ v : State, exec (.held conn trans) s = (v.sendMessage conn.toNat 3 r.trans it.urg 0 0 [] []).messageEnds conn.toNat ∧
      v.tiles = (((u.dropReq conn.toNat r.trans 1).tileSent (u.connPart conn.toNat) it.obj it.tile).endItem it.id 0 0
        ErrAt.none).tiles := by
  show ∃ v : State, execHeld conn trans s = _ ∧ _
  unfold execHeld
  rw [State.message_served _ htaken]
  dsimp only
  rw [hreq]
  dsimp only
  rw [hitem]
  dsimp only
  rw [if_neg (not_not.2 hok)]
  simp only [hhere, if_false]
  exact ⟨_, rfl, rfl⟩

/-- CONFIRM makes a held tile RESIDENT, and what waited for it goes on. -/
theorem confirm_held {h : HeldTile}
    (htaken : s.takeRx conn.toNat trans.toNat 3 = some (r, u) ∧ u.connState conn.toNat ≠ connClosing)
    (hheld : (u.conn conn.toNat).held.find? (fun h => h.trans == r.trans) = some h)
    (hflight : (u.tile (u.connPart conn.toNat) h.obj h.tile).state = .inFlight) : exec (.confirm conn trans) s =
      (((u.setConn conn.toNat { u.conn conn.toNat with
        held := (u.conn conn.toNat).held.filter (fun k => k.trans != r.trans) }).setTile (u.connPart conn.toNat) h.obj h.tile
          { u.tile (u.connPart conn.toNat) h.obj h.tile with state := .resident }).requeueWaiters (u.connPart conn.toNat)
            h.obj h.tile).messageEnds conn.toNat := by
  show execConfirm conn trans s = _
  unfold execConfirm
  rw [State.message_served _ htaken]
  dsimp only
  rw [hheld]
  exact congrArg (fun v : State => v.messageEnds conn.toNat) (if_pos hflight)

/-- Why a RECALL is not served: 0 it is. -/
def State.recallCode (u : State) (p : Nat) (b : List Byte) : Nat :=
  if msgField b 0 4 / 2 ^ 27 ≠ p ∨ !u.tileExists p (msgField b 0 4 % 2 ^ 27) (msgField b 4 3) ∨
    (u.tile p (msgField b 0 4 % 2 ^ 27) (msgField b 4 3)).state = .released then 0x0053
  else if (u.tile p (msgField b 0 4 % 2 ^ 27) (msgField b 4 3)).state = .lost then 0x0040
  else if !(u.tile p (msgField b 0 4 % 2 ^ 27) (msgField b 4 3)).disp.stored then 0x0054
  else 0

theorem recall_eq (htaken : s.takeRx conn.toNat trans.toNat 4 = some (r, u) ∧ u.connState conn.toNat ≠ connClosing) :
    exec (.recallTile conn trans) s = (if u.recallCode (u.connPart conn.toNat) r.bytes ≠ 0 then
        u.sendResp conn.toNat r.trans r.cls (u.recallCode (u.connPart conn.toNat) r.bytes) []
      else ((u.classOf (u.connPart conn.toNat) r.cls).2.addItem
        { Item.blank (u.connPart conn.toNat) (.send conn.toNat (msgField r.bytes 7 4)) with
          origin := .courier r.trans, obj := msgField r.bytes 0 4 % 2 ^ 27, tile := msgField r.bytes 4 3
          urg := (u.classOf (u.connPart conn.toNat) r.cls).1, deadline := msgDeadline r.bytes }).front
        (u.classOf (u.connPart conn.toNat) r.cls).2.nextItem).messageEnds conn.toNat := by
  show execRecall conn trans s = _
  unfold execRecall State.recallCode
  rw [State.message_served _ htaken]

theorem recall_lost (htaken : s.takeRx conn.toNat trans.toNat 4 = some (r, u) ∧ u.connState conn.toNat ≠ connClosing)
    (hhandle : msgField r.bytes 0 4 / 2 ^ 27 = u.connPart conn.toNat)
    (hexists : u.tileExists (u.connPart conn.toNat) (msgField r.bytes 0 4 % 2 ^ 27) (msgField r.bytes 4 3) = true)
    (hlost : (u.tile (u.connPart conn.toNat) (msgField r.bytes 0 4 % 2 ^ 27) (msgField r.bytes 4 3)).state = .lost) :
    exec (.recallTile conn trans) s = (u.sendResp conn.toNat r.trans r.cls 0x0040 []).messageEnds conn.toNat := by
  have hcode : u.recallCode (u.connPart conn.toNat) r.bytes = 0x0040 := by
    rw [State.recallCode, hexists, hlost, hhandle, if_neg (by simp), if_pos rfl]
  rw [recall_eq htaken, hcode, if_pos (by decide)]

theorem recall_stored (htaken : s.takeRx conn.toNat trans.toNat 4 = some (r, u) ∧ u.connState conn.toNat ≠ connClosing)
    (hhandle : msgField r.bytes 0 4 / 2 ^ 27 = u.connPart conn.toNat)
    (hexists : u.tileExists (u.connPart conn.toNat) (msgField r.bytes 0 4 % 2 ^ 27) (msgField r.bytes 4 3) = true)
    (hresident : (u.tile (u.connPart conn.toNat) (msgField r.bytes 0 4 % 2 ^ 27) (msgField r.bytes 4 3)).state = .resident)
    (hstored : (u.tile (u.connPart conn.toNat) (msgField r.bytes 0 4 % 2 ^ 27) (msgField r.bytes 4 3)).disp.stored = true) :
    exec (.recallTile conn trans) s = (((u.classOf (u.connPart conn.toNat) r.cls).2.addItem
      { Item.blank (u.connPart conn.toNat) (.send conn.toNat (msgField r.bytes 7 4)) with
        origin := .courier r.trans, obj := msgField r.bytes 0 4 % 2 ^ 27, tile := msgField r.bytes 4 3
        urg := (u.classOf (u.connPart conn.toNat) r.cls).1, deadline := msgDeadline r.bytes }).front
      (u.classOf (u.connPart conn.toNat) r.cls).2.nextItem).messageEnds conn.toNat := by
  have hcode : u.recallCode (u.connPart conn.toNat) r.bytes = 0 := by
    rw [State.recallCode, hexists, hresident, hstored, hhandle, if_neg (by simp), if_neg (by decide), if_neg (by decide)]
  rw [recall_eq htaken, if_neg (not_not.2 hcode)]

/-- A response with data ends a read of a remote owner. -/
theorem resp_read {q : CrrReq} (htaken : s.takeRx conn.toNat trans.toNat 5 = some (r, u) ∧ u.connState conn.toNat ≠ connClosing)
    (hreq : (u.conn conn.toNat).reqs.find? (fun q => q.trans == r.trans) = some q) (hop : q.opcode = 8)
    (hok : msgStatus r.bytes = 0) : exec (.resp conn trans) s =
      ((u.dropReq conn.toNat r.trans 8).gotRead q.item q.k (r.bytes.drop 32)).messageEnds conn.toNat := by
  show execResp conn trans s = _
  unfold execResp
  rw [State.message_served _ htaken]
  dsimp only
  rw [hreq]
  dsimp only
  rw [hop, if_pos rfl, if_pos hok]

/-- A response with a status fails the write it answers. -/
theorem resp_failedWrite {q : CrrReq}
    (htaken : s.takeRx conn.toNat trans.toNat 5 = some (r, u) ∧ u.connState conn.toNat ≠ connClosing)
    (hreq : (u.conn conn.toNat).reqs.find? (fun q => q.trans == r.trans) = some q) (hop : q.opcode = 9)
    (hbad : msgStatus r.bytes ≠ 0) : exec (.resp conn trans) s =
      ((u.dropReq conn.toNat r.trans 9).failReq q (msgStatus r.bytes ||| 0x8000)).messageEnds conn.toNat := by
  show execResp conn trans s = _
  unfold execResp
  rw [State.message_served _ htaken]
  dsimp only
  rw [hreq]
  dsimp only
  rw [hop, if_neg (by decide), if_neg (by decide), if_pos hbad]

/-! ### Reads and writes a message is served (R499, R500) -/

theorem State.serveRead_ok {c p a n : Nat} {d : List Byte} {v : State} (hcheck : u.xcheckRun p a n false false = none)
    (htier : u.vheathFail p a n = none) (hread : u.vread .bulk p a n = (false, d, v)) :
    u.serveRead c p r a n = v.sendResp c r.trans r.cls 0 d := by
  unfold State.serveRead
  rw [hcheck]
  dsimp only
  rw [htier, hread]
  rfl

theorem State.serveWrite_ok {c p a : Nat} {b : List Byte} (hcheck : u.xcheckRun p a b.length true false = none)
    (htier : u.vheathFail p a b.length = none) :
    u.serveWrite c p r a b = (u.vwrite .bulk p a b).sendResp c r.trans r.cls 0 [] := by
  unfold State.serveWrite
  rw [hcheck]
  dsimp only
  rw [htier]
  rfl

theorem ownerRead_served {d : List Byte} {v : State}
    (htaken : s.takeRx conn.toNat trans.toNat 8 = some (r, u) ∧ u.connState conn.toNat ≠ connClosing)
    (hcheck : u.xcheckRun (u.connPart conn.toNat) (msgField r.bytes 0 8) (msgField r.bytes 8 4) false false = none)
    (htier : u.vheathFail (u.connPart conn.toNat) (msgField r.bytes 0 8) (msgField r.bytes 8 4) = none)
    (hread : u.vread .bulk (u.connPart conn.toNat) (msgField r.bytes 0 8) (msgField r.bytes 8 4) = (false, d, v)) :
    exec (.ownerRead conn trans) s = (v.sendResp conn.toNat r.trans r.cls 0 d).messageEnds conn.toNat := by
  show execOwnerRead conn trans s = _
  unfold execOwnerRead
  rw [State.message_served _ htaken, State.serveRead_ok hcheck htier hread]

/-- A write of one byte stores the bits both masks select. -/
theorem ownerWrite_byte {d : Byte}
    (htaken : s.takeRx conn.toNat trans.toNat 9 = some (r, u) ∧ u.connState conn.toNat ≠ connClosing)
    (hone : msgField r.bytes 8 4 = 1)
    (hcheck : u.xcheckRun (u.connPart conn.toNat) (msgField r.bytes 0 8) 1 true false = none)
    (htier : u.vheathFail (u.connPart conn.toNat) (msgField r.bytes 0 8) 1 = none)
    (hd : d = (r.bytes.getD 32 0 &&& (BitVec.ofNat 8 (msgField r.bytes 12 1) &&& BitVec.ofNat 8 (msgField r.bytes 13 1))) |||
      ((u.vbytes (u.connPart conn.toNat) (msgField r.bytes 0 8) 1).getD 0 0 &&&
        ~~~ (BitVec.ofNat 8 (msgField r.bytes 12 1) &&& BitVec.ofNat 8 (msgField r.bytes 13 1)))) :
    exec (.ownerWrite conn trans) s = ((u.vwrite .bulk (u.connPart conn.toNat) (msgField r.bytes 0 8) [d]).sendResp conn.toNat
      r.trans r.cls 0 []).messageEnds conn.toNat := by
  show execOwnerWrite conn trans s = _
  unfold execOwnerWrite
  rw [State.message_served _ htaken]
  dsimp only
  rw [hone, List.range_one, List.map_cons, List.map_nil, if_pos rfl, if_pos rfl, ← hd, State.serveWrite_ok hcheck htier]

/-- A message that names blocks beyond the exported range is answered 0x20; another is served at its place. -/
theorem State.serveBlocks_eq (c : Nat) (f : State → Nat → Nat → State) : u.serveBlocks c r f =
    if (u.conn c).exportBlocks < msgField r.bytes 0 8 + msgField r.bytes 8 1 then u.sendResp c r.trans r.cls 0x0020 []
    else f u ((u.conn c).exportBase + 4096 * msgField r.bytes 0 8) (4096 * msgField r.bytes 8 1) := rfl

theorem blockRead_served (htaken : s.takeRx conn.toNat trans.toNat 0x0C = some (r, u) ∧ u.connState conn.toNat ≠ connClosing) :
    exec (.blockRead conn trans) s = (u.serveBlocks conn.toNat r
      (fun s a n => s.serveRead conn.toNat (u.connPart conn.toNat) r a n)).messageEnds conn.toNat := by
  show execBlockRead conn trans s = _
  unfold execBlockRead
  rw [State.message_served _ htaken]

theorem blockWrite_served (htaken : s.takeRx conn.toNat trans.toNat 0x0D = some (r, u) ∧ u.connState conn.toNat ≠ connClosing) :
    exec (.blockWrite conn trans) s = (u.serveBlocks conn.toNat r
      (fun s a n => s.serveWrite conn.toNat (u.connPart conn.toNat) r a (bytesAt r.bytes 32 n))).messageEnds conn.toNat := by
  show execBlockWrite conn trans s = _
  unfold execBlockWrite
  rw [State.message_served _ htaken]

theorem blockZero_served (htaken : s.takeRx conn.toNat trans.toNat 0x0E = some (r, u) ∧ u.connState conn.toNat ≠ connClosing) :
    exec (.blockZero conn trans) s = (u.serveBlocks conn.toNat r
      (fun s a n => s.serveWrite conn.toNat (u.connPart conn.toNat) r a (List.replicate n 0))).messageEnds conn.toNat := by
  show execBlockZero conn trans s = _
  unfold execBlockZero
  rw [State.message_served _ htaken]

/-- A NOP asks for nothing. -/
theorem nop_served (htaken : s.takeRx conn.toNat trans.toNat 0 = some (r, u) ∧ u.connState conn.toNat ≠ connClosing) :
    exec (.nop conn trans) s = u.messageEnds conn.toNat := by
  show execNop conn trans s = _
  unfold execNop
  rw [State.message_served _ htaken]

end Messages
end Sys2Proof.Machine

namespace Sys2Proof
open Sys2Proof.Machine

/-- Settles O50: message by message, from what a connection does with a complete one. -/
theorem courierMessages : Obligations.CourierMessages := by
  intro conn trans s u r
  refine ⟨put_foreign, fun x y htaken hhandle hx hy => ?_,
    fun q it htaken hok hreq hitem hhere => held_released htaken hok hreq hitem hhere,
    fun h htaken hheld hflight => confirm_held htaken hheld hflight, recall_lost, recall_stored,
    fun q htaken hreq hop hok => resp_read htaken hreq hop hok, fun q htaken hreq hop hbad => resp_failedWrite htaken hreq hop hbad,
    fun d v htaken hcheck htier hread => ownerRead_served htaken hcheck htier hread,
    fun d htaken hone hcheck htier hd => ownerWrite_byte htaken hone hcheck htier hd, fun op hop htaken hbeyond => ?_,
    fun op hop htaken hin => ?_, nop_served⟩
  · subst hx hy
    exact put_own htaken hhandle
  · obtain rfl | rfl | rfl := hop
    · exact (blockRead_served htaken).trans (by rw [State.serveBlocks_eq, if_pos hbeyond]; rfl)
    · exact (blockWrite_served htaken).trans (by rw [State.serveBlocks_eq, if_pos hbeyond]; rfl)
    · exact (blockZero_served htaken).trans (by rw [State.serveBlocks_eq, if_pos hbeyond]; rfl)
  · have hnot := Nat.not_lt.2 hin
    obtain rfl | rfl | rfl := hop
    · exact (blockRead_served htaken).trans (by rw [State.serveBlocks_eq, if_neg hnot]; rfl)
    · exact (blockWrite_served htaken).trans (by rw [State.serveBlocks_eq, if_neg hnot]; rfl)
    · exact (blockZero_served htaken).trans (by rw [State.serveBlocks_eq, if_neg hnot]; rfl)

end Sys2Proof
end

section
/-! SUPPORT. Settles O51: Ethernet ports, their priorities, pauses and rates (sections 13.1 and 13.2). -/

namespace Sys2Proof.Machine

/-! ### Training (R470) -/

section Training

variable {s : State} {n mode : Nat}

/-- A link trains in the mode its configuration lets it. -/
theorem State.ethTrain_trains (hmode : 1 ≤ mode ∧ mode ≤ 5) (hrole : s.ethRole n ≠ 0)
    (hpost : s.err.postDown.testBit (n / 2) = false)
    (hcfg : s.rd F.CRR_PORT_CFG_MODE n = 0 ∨ s.rd F.CRR_PORT_CFG_MODE n = mode) :
    s.ethTrain n mode = (s.wr F.CRR_PORT_STATUS_UP n 1).wr F.CRR_PORT_STATUS_MODE n mode := by
  refine if_pos ?_
  rw [bne_iff_ne.2 hrole, hpost, decide_eq_true hmode.1, decide_eq_true hmode.2]
  obtain h | h := hcfg
  · rw [h]
    rfl
  · rw [h, beq_self_eq_true, Bool.or_true]
    rfl

theorem State.trained_reads (s : State) (n : Nat) (hmode : mode ≤ 5) :
    ((s.wr F.CRR_PORT_STATUS_UP n 1).wr F.CRR_PORT_STATUS_MODE n mode).rdb F.CRR_PORT_STATUS_UP n = true ∧
      ((s.wr F.CRR_PORT_STATUS_UP n 1).wr F.CRR_PORT_STATUS_MODE n mode).rd F.CRR_PORT_STATUS_MODE n = mode := by
  constructor
  · rw [State.rdb, State.rd_wr_disjoint _ F.CRR_PORT_STATUS_MODE F.CRR_PORT_STATUS_UP n _ rfl (by decide) (by decide),
      State.rd_wr_self _ F.CRR_PORT_STATUS_UP n 1 (by decide)]
    decide
  · exact (State.rd_wr_self _ F.CRR_PORT_STATUS_MODE n mode (by decide)).trans
      (Nat.mod_eq_of_lt (Nat.lt_of_le_of_lt hmode (by decide)))

/-- RETRAIN loses what is queued and trains the link. -/
theorem retrain_trains {port mode : BitVec 3} (hheld : s.pins.held = false) (hmode : 1 ≤ mode.toNat ∧ mode.toNat ≤ 5)
    (hrole : s.ethRole port.toNat ≠ 0) (hpost : s.err.postDown.testBit (port.toNat / 2) = false)
    (hcfg : s.rd F.CRR_PORT_CFG_MODE port.toNat = 0 ∨ s.rd F.CRR_PORT_CFG_MODE port.toNat = mode.toNat) : ∃ t,
      exec (.retrain port mode) s = .next t ∧ t.rdb F.CRR_PORT_STATUS_UP port.toNat = true ∧
      t.rd F.CRR_PORT_STATUS_MODE port.toNat = mode.toNat ∧ t.rd F.CRR_PORT_CFG_RETRAIN port.toNat = 0 ∧
      regsBut s t [(Reg.CRR_PORT_CFG, port.toNat), (Reg.CRR_PORT_STATUS, port.toNat)] ∧
      t = { s with regs := t.regs, txq := t.txq } := by
  have hn : port.toNat < 131072 := Nat.lt_trans port.isLt (by decide)
  have hmode' : ((s.dropTx port.toNat).wr F.CRR_PORT_CFG_RETRAIN port.toNat 0).rd F.CRR_PORT_CFG_MODE port.toNat =
      s.rd F.CRR_PORT_CFG_MODE port.toNat :=
    State.rd_wr_disjoint (s.dropTx port.toNat) F.CRR_PORT_CFG_RETRAIN F.CRR_PORT_CFG_MODE port.toNat 0 rfl (by decide) (by decide)
  have hrole' : ((s.dropTx port.toNat).wr F.CRR_PORT_CFG_RETRAIN port.toNat 0).ethRole port.toNat = s.ethRole port.toNat := by
    rw [State.ethRole, State.rd_wr_reg _ F.CRR_PORT_CFG_RETRAIN F.SYS_PORT_MAP_ETH_ROLE _ (by decide) hn (by decide)]
    rfl
  have htrain := State.ethTrain_trains (s := (s.dropTx port.toNat).wr F.CRR_PORT_CFG_RETRAIN port.toNat 0) hmode
    (by rw [hrole']; exact hrole) hpost (by rw [hmode']; exact hcfg)
  obtain ⟨hup, hmoded⟩ := State.trained_reads ((s.dropTx port.toNat).wr F.CRR_PORT_CFG_RETRAIN port.toNat 0) port.toNat hmode.2
  refine ⟨_, congrArg Host.Outcome.next ((if_neg (by rw [hheld]; exact Bool.false_ne_true)).trans htrain), hup, hmoded, ?_, ?_, ?_⟩
  · rw [State.rd_wr_reg _ F.CRR_PORT_STATUS_MODE F.CRR_PORT_CFG_RETRAIN _ (by decide) hn hn,
      State.rd_wr_reg _ F.CRR_PORT_STATUS_UP F.CRR_PORT_CFG_RETRAIN _ (by decide) hn hn,
      State.rd_wr_self _ F.CRR_PORT_CFG_RETRAIN _ 0 (by decide)]
    rfl
  · exact regsBut_wr_of _ _ _ (regsBut_wr_of _ _ _ (regsBut_wr_of _ _ _ (regsBut_of_regs rfl) hn List.mem_cons_self) hn
      (List.mem_cons_of_mem _ List.mem_cons_self)) hn (List.mem_cons_of_mem _ List.mem_cons_self)
  · exact onlyRegs_wr_of F.CRR_PORT_STATUS_MODE port.toNat mode.toNat (onlyRegs_wr_of F.CRR_PORT_STATUS_UP port.toNat 1
      (onlyRegs_wr_of F.CRR_PORT_CFG_RETRAIN port.toNat 0 (onlyRegs_refl (s.dropTx port.toNat))))

/-- A link that went down trains again. -/
theorem ethLinkUp_trains {port mode : BitVec 3} (hheld : s.pins.held = false) (hmode : 1 ≤ mode.toNat ∧ mode.toNat ≤ 5)
    (hrole : s.ethRole port.toNat ≠ 0) (hpost : s.err.postDown.testBit (port.toNat / 2) = false)
    (hcfg : s.rd F.CRR_PORT_CFG_MODE port.toNat = 0 ∨ s.rd F.CRR_PORT_CFG_MODE port.toNat = mode.toNat)
    (hdown : s.rdb F.CRR_PORT_STATUS_UP port.toNat = false) : ∃ t, exec (.ethLinkUp port mode) s = .next t ∧ onlyRegs s t ∧
      t.rdb F.CRR_PORT_STATUS_UP port.toNat = true ∧ t.rd F.CRR_PORT_STATUS_MODE port.toNat = mode.toNat := by
  refine ⟨_, congrArg Host.Outcome.next ((if_neg ?_).trans (State.ethTrain_trains hmode hrole hpost hcfg)),
    onlyRegs_wr_of _ _ _ (onlyRegs_wr_of _ _ _ (onlyRegs_refl s)), State.trained_reads s port.toNat hmode.2⟩
  rw [hheld, hdown]
  exact fun h => h.elim Bool.false_ne_true Bool.false_ne_true

/-- The queues of a port whose link goes are empty. -/
theorem State.txq_dropTx (s : State) (n : Nat) {q : Nat} (hq : q < 8) : Tab.get [] (s.dropTx n).txq (8 * n + q) = [] := by
  refine (Tab.get_keep [] (fun k => k / 8 != n) s.txq (8 * n + q)).trans (if_neg ?_)
  rw [show (8 * n + q) / 8 = n by omega, bne_self_eq_false]
  exact Bool.false_ne_true

end Training

/-! ### The priority map (R473) -/

theorem foldl_range_five (f g c d : Nat → Nat) : (List.range 5).foldl (fun a n => a + f n * c n + g n * d n) 0 =
    f 0 * c 0 + g 0 * d 0 + f 1 * c 1 + g 1 * d 1 + f 2 * c 2 + g 2 * d 2 + f 3 * c 3 + g 3 * d 3 + f 4 * c 4 + g 4 * d 4 := by
  rw [show List.range 5 = [0, 1, 2, 3, 4] from rfl]
  simp only [List.foldl_cons, List.foldl_nil, Nat.zero_add]

/-- The word of CRR_PRIO_MAP with priorities `f` and code points `g`. -/
def prioWord (f g : Nat → Nat) : Nat :=
  (List.range 5).foldl (fun a k => a + f k * 2 ^ (4 * k) + g k * 2 ^ (32 + 6 * k)) 0

theorem prioWord_reads {f g : Nat → Nat} (hf : ∀ k, f k < 8) (hg : ∀ k, g k < 64) {k : Nat} (hk : k < 5) :
    bitsOf (prioWord f g % 2 ^ 64) (4 * k) 3 = f k ∧ bitsOf (prioWord f g % 2 ^ 64) (32 + 6 * k) 6 = g k := by
  have h0 := hf 0; have h1 := hf 1; have h2 := hf 2; have h3 := hf 3; have h4 := hf 4
  have k0 := hg 0; have k1 := hg 1; have k2 := hg 2; have k3 := hg 3; have k4 := hg 4
  have hword : prioWord f g = f 0 + 16 * f 1 + 256 * f 2 + 4096 * f 3 + 65536 * f 4 +
      4294967296 * (g 0 + 64 * g 1 + 4096 * g 2 + 262144 * g 3 + 16777216 * g 4) := by
    rw [prioWord, foldl_range_five f g (fun n => 2 ^ (4 * n)) (fun n => 2 ^ (32 + 6 * n))]
    ring
  rw [hword, bitsOf, bitsOf]
  obtain rfl | rfl | rfl | rfl | rfl : k = 0 ∨ k = 1 ∨ k = 2 ∨ k = 3 ∨ k = 4 := by omega
  all_goals constructor <;> omega

/-- A map that gives a Courier kind Moor's priority is refused on a MIXED port. -/
theorem State.prioMapWrite_refused {s : State} {n : Nat} {v : Word} (hrole : s.ethRole n = 3)
    (hsame : v.toNat % 8 = v.toNat / 16 % 8) :
    s.prioMapWrite n v = s.flag F.CRR_PORT_STATUS_CFG_ERR n :=
  if_pos ⟨hrole, Or.inl (show v.toNat / 1 % 8 = v.toNat / 16 % 8 by rw [Nat.div_one, hsame])⟩

/-- On a port that is not MIXED every map is taken. -/
theorem State.prioMapWrite_taken {s : State} {n : Nat} (v : Word) (hrole : s.ethRole n ≠ 3) :
    s.prioMapWrite n v = s.setReg Reg.CRR_PRIO_MAP n
      (BitVec.ofNat 64 (prioWord (fun k => bitsOf v.toNat (4 * k) 3) (fun k => bitsOf v.toNat (32 + 6 * k) 6))) :=
  if_neg (fun h => hrole h.1)

theorem State.prio_dscp_setReg (s : State) (n : Nat) (v : Word) {k : Nat} (hk : k < 5) :
    (s.setReg Reg.CRR_PRIO_MAP n (BitVec.ofNat 64 (prioWord (fun k => bitsOf v.toNat (4 * k) 3)
      (fun k => bitsOf v.toNat (32 + 6 * k) 6)))).prio n k = v.toNat / 2 ^ (4 * k) % 8 ∧
    (s.setReg Reg.CRR_PRIO_MAP n (BitVec.ofNat 64 (prioWord (fun k => bitsOf v.toNat (4 * k) 3)
      (fun k => bitsOf v.toNat (32 + 6 * k) 6)))).dscp n k = v.toNat / 2 ^ (32 + 6 * k) % 64 := by
  rw [State.prio, State.dscp, State.reg_setReg_self, BitVec.toNat_ofNat]
  exact prioWord_reads (fun k => Nat.mod_lt _ (by decide)) (fun k => Nat.mod_lt _ (by decide)) hk

/-! ### Pauses and storms (R474, R475) -/

section Pauses

variable {s : State}

/-- Letting an empty queue go on sends nothing. -/
theorem State.drainTx_empty {n q : Nat} (hempty : Tab.get [] s.txq (8 * n + q) = []) : (s.drainTx n q).eth = s.eth ∧
    (s.drainTx n q).regs = s.regs ∧ (s.drainTx n q).out = s.out ∧
    ∀ k, Tab.get [] s.txq k = [] → Tab.get [] (s.drainTx n q).txq k = [] := by
  unfold State.drainTx
  split
  · exact ⟨rfl, rfl, rfl, fun _ h => h⟩
  · refine ⟨rfl, rfl, (congrArg (s.out ++ ·) hempty).trans (List.append_nil _), fun k hk => ?_⟩
    show Tab.get [] (Tab.erase s.txq (8 * n + q)) k = []
    by_cases h : k = 8 * n + q
    · rw [h, Tab.get_erase_self]
    · rw [Tab.get_erase_ne _ _ h, hk]

theorem State.foldl_drainTx_empty (n : Nat) (l : List Nat) (s : State) (hl : ∀ q ∈ l, Tab.get [] s.txq (8 * n + q) = []) :
    (l.foldl (fun s q => s.drainTx n q) s).eth = s.eth ∧ (l.foldl (fun s q => s.drainTx n q) s).regs = s.regs ∧
      (l.foldl (fun s q => s.drainTx n q) s).out = s.out := by
  induction l generalizing s with
  | nil => exact ⟨rfl, rfl, rfl⟩
  | cons q l ih =>
    obtain ⟨heth, hregs, hout, htxq⟩ := State.drainTx_empty (hl q List.mem_cons_self)
    obtain ⟨heth', hregs', hout'⟩ := ih (s.drainTx n q) (fun k hk => htxq _ (hl k (List.mem_cons_of_mem q hk)))
    exact ⟨heth'.trans heth, hregs'.trans hregs, hout'.trans hout⟩

/-- The pauses of a port after a pause frame. -/
def pauseMask (old en : Nat) (enable pause : BitVec 8) : Nat :=
  ((BitVec.ofNat 8 old &&& ~~~ (enable &&& BitVec.ofNat 8 en)) ||| (pause &&& (enable &&& BitVec.ofNat 8 en))).toNat

/-- The enabled priorities are as the frame names them, the others as they were. -/
theorem testBit_pauseMask (old en : Nat) (enable pause : BitVec 8) {q : Nat}
    (hq : q < 8) : (pauseMask old en enable pause).testBit q =
    if enable.toNat.testBit q ∧ en.testBit q then pause.toNat.testBit q else old.testBit q := by
  unfold pauseMask
  simp only [BitVec.testBit_toNat, BitVec.getLsbD_or, BitVec.getLsbD_and, BitVec.getLsbD_not, BitVec.getLsbD_ofNat, hq,
    decide_true, Bool.true_and]
  cases enable.getLsbD q <;> cases en.testBit q <;> simp

theorem pfcFrame_pauses {port : BitVec 3} (hheld : s.pins.held = false) (enable pause : BitVec 8)
    (hup : s.rdb F.CRR_PORT_STATUS_UP port.toNat = true) (hempty : ∀ q, q < 8 → Tab.get [] s.txq (8 * port.toNat + q) = []) :
    ∃ t, exec (.pfcFrame port enable pause) s = .next t ∧
      (∀ q, q < 8 → (Tab.get 0 t.eth.paused port.toNat).testBit q =
        if enable.toNat.testBit q ∧ (s.rd F.CRR_PFC_CFG_PFC_EN port.toNat).testBit q then pause.toNat.testBit q
        else (Tab.get 0 s.eth.paused port.toNat).testBit q) ∧ t.regs = s.regs ∧ t.out = s.out := by
  have hexec : exec (.pfcFrame port enable pause) s = .next ((List.range 8).foldl (fun s q => s.drainTx port.toNat q)
      { s with eth := { s.eth with paused := Tab.set 0 s.eth.paused port.toNat (pauseMask (Tab.get 0 s.eth.paused port.toNat)
        (s.rd F.CRR_PFC_CFG_PFC_EN port.toNat) enable pause) } }) :=
    congrArg Host.Outcome.next (if_neg (by rw [hheld, hup]; exact fun h => h.elim Bool.false_ne_true Bool.false_ne_true))
  obtain ⟨heth, hregs, hout⟩ := State.foldl_drainTx_empty port.toNat (List.range 8)
    { s with eth := { s.eth with paused := Tab.set 0 s.eth.paused port.toNat (pauseMask (Tab.get 0 s.eth.paused port.toNat)
      (s.rd F.CRR_PFC_CFG_PFC_EN port.toNat) enable pause) } } (fun q hq => hempty q (List.mem_range.1 hq))
  refine ⟨_, hexec, fun q hq => ?_, hregs, hout⟩
  rw [heth, Tab.get_set_self]
  exact testBit_pauseMask _ _ enable pause hq

/-- A storm drops what waits on the priority and stops the honouring of its pauses. -/
theorem pfcWatchdog_storms {port prio : BitVec 3} (hheld : s.pins.held = false)
    (hpaused : s.pausedPrio port.toNat prio.toNat = true) : ∃ t, exec (.pfcWatchdog port prio) s = .next t ∧
      (t.rd F.CRR_PORT_STATUS_STORM port.toNat).testBit prio.toNat = true ∧ t.pausedPrio port.toNat prio.toNat = false ∧
      Tab.get [] t.txq (8 * port.toNat + prio.toNat) = [] ∧ t.mem = s.mem := by
  refine ⟨_, congrArg Host.Outcome.next (if_neg ?_), ?_, ?_, Tab.get_erase_self [] s.txq _, rfl⟩
  · rw [hheld, hpaused]
    exact fun h => h.elim Bool.false_ne_true Bool.false_ne_true
  · refine (congrArg (Nat.testBit · prio.toNat) (State.rd_wr_self _ F.CRR_PORT_STATUS_STORM port.toNat _ (by decide))).trans ?_
    rw [Nat.testBit_mod_two_pow, decide_eq_true (show prio.toNat < F.CRR_PORT_STATUS_STORM.width from prio.isLt),
      Nat.testBit_or, Nat.testBit_two_pow_self, Bool.or_true]
    rfl
  · refine Bool.and_eq_false_iff.2 (Or.inr ?_)
    refine (congrArg (fun m : Nat => !m.testBit prio.toNat) (Tab.get_set_self 0 s.eth.storm port.toNat _)).trans ?_
    rw [Nat.testBit_or, Nat.testBit_two_pow_self, Bool.or_true]
    rfl

/-- Clearing a priority's bit of a mask. -/
theorem testBit_clear (m : Nat) {q : Nat} (hq : q < 8) : (m &&& (255 - 2 ^ q)).testBit q = false := by
  have hbit : (255 - 2 ^ q).testBit q = false := by
    obtain rfl | rfl | rfl | rfl | rfl | rfl | rfl | rfl : q = 0 ∨ q = 1 ∨ q = 2 ∨ q = 3 ∨ q = 4 ∨ q = 5 ∨ q = 6 ∨ q = 7 := by omega
    all_goals decide
  rw [Nat.testBit_and, hbit, Bool.and_false]

theorem pfcStormRecovery_ends {port prio : BitVec 3} (hheld : s.pins.held = false)
    (hstorm : (Tab.get 0 s.eth.storm port.toNat).testBit prio.toNat = true) : ∃ t,
      exec (.pfcStormRecovery port prio) s = .next t ∧ (Tab.get 0 t.eth.storm port.toNat).testBit prio.toNat = false ∧
      (Tab.get 0 t.eth.paused port.toNat).testBit prio.toNat = false ∧ t = { s with eth := t.eth } := by
  refine ⟨_, congrArg Host.Outcome.next (if_neg ?_),
    (congrArg (Nat.testBit · prio.toNat) (Tab.get_set_self 0 s.eth.storm port.toNat _)).trans (testBit_clear _ prio.isLt),
    (congrArg (Nat.testBit · prio.toNat) (Tab.get_set_self 0 s.eth.paused port.toNat _)).trans (testBit_clear _ prio.isLt), rfl⟩
  rw [hheld, hstorm]
  exact fun h => h.elim Bool.false_ne_true Bool.false_ne_true

end Pauses

/-! ### Rates (R477) -/

/-- A congestion notification halves the rate of the set's flow, down to 1 Gb/s. -/
theorem cnp_halves {s : State} {set : BitVec 4} (hheld : s.pins.held = false)
    (hup : s.rd F.CRR_NVME_STATUS_STATE set.toNat = 2) : ∃ t, exec (.cnp set) s = .next t ∧
      Tab.find? t.eth.flows (4096 + set.toNat) = some (max (((Tab.find? s.eth.flows (4096 + set.toNat)).getD
        (s.lineRate (s.rd F.CRR_NVME_CFG_PORT set.toNat))) / 2) 1000) ∧ t = { s with eth := t.eth } := by
  refine ⟨_, congrArg Host.Outcome.next (if_neg ?_), Tab.find?_put_self s.eth.flows (4096 + set.toNat) _, rfl⟩
  rw [hheld]
  exact fun h => h.elim Bool.false_ne_true (fun h => h hup)

/-- A rate below the line's rises by a twentieth of the line's. -/
theorem rateRecovery_rises {s : State} {flow : BitVec 13} {r : Nat} (hheld : s.pins.held = false) (hconn : flow.toNat < 4096)
    (hrate : Tab.find? s.eth.flows flow.toNat = some r)
    (hbelow : r + s.lineRate (s.connPort flow.toNat) / 20 < s.lineRate (s.connPort flow.toNat)) : ∃ t,
      exec (.rateRecovery flow) s = .next t ∧
      Tab.find? t.eth.flows flow.toNat = some (r + s.lineRate (s.connPort flow.toNat) / 20) ∧ t = { s with eth := t.eth } := by
  refine ⟨{ s with eth := { s.eth with
      flows := Tab.put s.eth.flows flow.toNat (r + s.lineRate (s.connPort flow.toNat) / 20) } }, ?_, Tab.find?_put_self _ _ _, rfl⟩
  show execRateRecovery flow s = _
  unfold execRateRecovery
  dsimp only
  rw [hrate]
  dsimp only
  rw [if_pos hconn, if_neg (by rw [hheld]; exact Bool.false_ne_true), Nat.min_eq_right (Nat.le_of_lt hbelow),
    if_neg (Nat.ne_of_lt hbelow)]

end Sys2Proof.Machine
end

section
/-! SUPPORT. Settles O51, its second part: TIME against a master (section 13.8). -/

namespace Sys2Proof.Machine

section Sync

variable {s : State} {offset : Int}

/-- Before the open a clock that is behind is stepped, once. -/
theorem State.ptpSync_steps (hclosed : s.rdb F.SYS_OPEN_OPENED 0 = false) (honce : s.eth.stepped = false) (hbehind : offset < 0) :
    s.ptpSync offset = { s.wr F.CRR_PTP_STATUS_OFFSET 0 (signedSat 32 offset) with
      time := s.time + (-offset).toNat, eth := { s.eth with stepped := true, within := 0 } } := by
  have hopen : (s.wr F.CRR_PTP_STATUS_OFFSET 0 (signedSat 32 offset)).rdb F.SYS_OPEN_OPENED 0 = false :=
    (congrArg (· != 0) (State.rd_wr_reg s F.CRR_PTP_STATUS_OFFSET F.SYS_OPEN_OPENED _ (by decide) (by decide) (by decide))).trans hclosed
  unfold State.ptpSync
  dsimp only
  rw [hopen, if_pos ⟨rfl, by rw [State.wr_eth, honce]; rfl, hbehind⟩]
  rfl

/-- The rate a Sync message sets: the limit where TIME is far from the master, else the servo's own. -/
def ptpRate (far : Bool) (offset : Int) (x : Word) : Int :=
  if far then (if 0 < offset then -rateLimit else rateLimit) else (x.toNat % 4294967 : Nat) - rateLimit

/-- The state with an offset measured, that is not stepped, before its rate is set. -/
def State.ptpMeasured (s : State) (offset : Int) : State :=
  let u := s.wr F.CRR_PTP_STATUS_OFFSET 0 (signedSat 32 offset)
  let w := if decide (-100 < offset) && decide (offset < 100) then min (u.eth.within + 1) 16 else 0
  ({ u with eth := { u.eth with within := w } }).wr F.CRR_PTP_STATUS_STATE 0 (if w = 16 then 1 else 0)

/-- An offset after the open beyond one second. -/
def State.ptpFar (s : State) (offset : Int) : Bool :=
  s.rdb F.SYS_OPEN_OPENED 0 && (decide (1000000000 < offset) || decide (offset < -1000000000))

/-- Otherwise TIME keeps running, under a new rate. -/
theorem State.ptpSync_runs (hrun : s.rdb F.SYS_OPEN_OPENED 0 = true ∨ s.eth.stepped = true ∨ 0 ≤ offset) :
    s.ptpSync offset = if s.ptpFar offset then
        (({ s.ptpMeasured offset with free := s.free + 1 }).wr F.CLK_TIME_RATE_RATE 0
          (signedSat 32 (ptpRate (s.ptpFar offset) offset (Config.freeWord s.free)))).flag F.CRR_PTP_STATUS_FAR 0
      else ({ s.ptpMeasured offset with free := s.free + 1 }).wr F.CLK_TIME_RATE_RATE 0
        (signedSat 32 (ptpRate (s.ptpFar offset) offset (Config.freeWord s.free))) := by
  have hopen : (s.wr F.CRR_PTP_STATUS_OFFSET 0 (signedSat 32 offset)).rdb F.SYS_OPEN_OPENED 0 = s.rdb F.SYS_OPEN_OPENED 0 :=
    congrArg (· != 0) (State.rd_wr_reg s F.CRR_PTP_STATUS_OFFSET F.SYS_OPEN_OPENED _ (by decide) (by decide) (by decide))
  unfold State.ptpSync
  dsimp only
  rw [hopen, if_neg ?_]
  · rfl
  · rintro ⟨hclosed, honce, hbehind⟩
    obtain h | h | h := hrun
    · rw [h] at hclosed
      exact Bool.false_ne_true hclosed
    · rw [State.wr_eth, h] at honce
      exact Bool.false_ne_true honce
    · omega

theorem State.ptpMeasured_leaves (s : State) (offset : Int) : (s.ptpMeasured offset).time = s.time ∧
    (s.ptpMeasured offset).rd F.CRR_PTP_STATUS_OFFSET 0 = signedSat 32 offset % 2 ^ F.CRR_PTP_STATUS_OFFSET.width ∧
    (s.ptpMeasured offset).rd F.CRR_PTP_CFG_P2P 0 = s.rd F.CRR_PTP_CFG_P2P 0 := by
  unfold State.ptpMeasured
  dsimp only
  refine ⟨rfl, ?_, ?_⟩
  · exact (State.rd_wr_disjoint _ F.CRR_PTP_STATUS_STATE F.CRR_PTP_STATUS_OFFSET 0 _ rfl (by decide) (by decide)).trans
      (State.rd_wr_self s F.CRR_PTP_STATUS_OFFSET 0 _ (by decide))
  · exact (State.rd_wr_reg _ F.CRR_PTP_STATUS_STATE F.CRR_PTP_CFG_P2P _ (by decide) (by decide) (by decide)).trans
      (State.rd_wr_reg s F.CRR_PTP_STATUS_OFFSET F.CRR_PTP_CFG_P2P _ (by decide) (by decide) (by decide))

theorem State.ptpSync_running (hrun : s.rdb F.SYS_OPEN_OPENED 0 = true ∨ s.eth.stepped = true ∨ 0 ≤ offset) :
    (s.ptpSync offset).time = s.time ∧
    (s.ptpSync offset).rd F.CRR_PTP_STATUS_OFFSET 0 = signedSat 32 offset % 2 ^ F.CRR_PTP_STATUS_OFFSET.width ∧
    (s.ptpSync offset).rd F.CRR_PTP_CFG_P2P 0 = s.rd F.CRR_PTP_CFG_P2P 0 := by
  obtain ⟨htime, hoffset, hp2p⟩ := s.ptpMeasured_leaves offset
  have hrate : ∀ (v : Nat) (f : Fld), f.reg ≠ Reg.CLK_TIME_RATE →
      (({ s.ptpMeasured offset with free := s.free + 1 }).wr F.CLK_TIME_RATE_RATE 0 v).rd f 0 = (s.ptpMeasured offset).rd f 0 :=
    fun v f hf => State.rd_wr_reg { s.ptpMeasured offset with free := s.free + 1 } F.CLK_TIME_RATE_RATE f v hf (by decide) (by decide)
  rw [State.ptpSync_runs hrun]
  split
  · refine ⟨htime, ?_, ?_⟩
    · rw [State.flag, State.rd_wr_disjoint _ F.CRR_PTP_STATUS_FAR F.CRR_PTP_STATUS_OFFSET 0 _ rfl (by decide) (by decide),
        hrate _ _ (by decide), hoffset]
    · rw [State.flag, State.rd_wr_reg _ F.CRR_PTP_STATUS_FAR F.CRR_PTP_CFG_P2P _ (by decide) (by decide) (by decide),
        hrate _ _ (by decide), hp2p]
  · exact ⟨htime, (hrate _ _ (by decide)).trans hoffset, (hrate _ _ (by decide)).trans hp2p⟩

/-- An offset beyond one second after the open sets FAR and takes the limit of the rate. -/
theorem State.ptpSync_far (hopen : s.rdb F.SYS_OPEN_OPENED 0 = true) (hfar : 1000000000 < offset ∨ offset < -1000000000) :
    (s.ptpSync offset).rdb F.CRR_PTP_STATUS_FAR 0 = true ∧ (s.ptpSync offset).rd F.CLK_TIME_RATE_RATE 0 =
      (if 0 < offset then 2 ^ F.CLK_TIME_RATE_RATE.width - 2147483 else 2147483) := by
  have hisfar : s.ptpFar offset = true := by
    rw [State.ptpFar, hopen]
    obtain h | h := hfar
    · rw [decide_eq_true h]
      rfl
    · rw [decide_eq_true h, Bool.or_true]
      rfl
  rw [State.ptpSync_runs (Or.inl hopen), if_pos hisfar]
  refine ⟨State.rdb_flag_self _ F.CRR_PTP_STATUS_FAR 0 (by decide) (by decide), ?_⟩
  rw [State.flag, State.rd_wr_reg _ F.CRR_PTP_STATUS_FAR F.CLK_TIME_RATE_RATE _ (by decide) (by decide) (by decide),
    State.rd_wr_self _ F.CLK_TIME_RATE_RATE 0 _ (by decide), ptpRate, if_pos hisfar]
  split <;> decide

theorem State.p2p_ptpSync (s : State) (offset : Int) :
    (s.ptpSync offset).rdb F.CRR_PTP_CFG_P2P 0 = s.rdb F.CRR_PTP_CFG_P2P 0 := by
  by_cases hrun : s.rdb F.SYS_OPEN_OPENED 0 = true ∨ s.eth.stepped = true ∨ 0 ≤ offset
  · exact congrArg (· != 0) (State.ptpSync_running hrun).2.2
  · obtain ⟨hclosed, hrest⟩ := not_or.1 hrun
    obtain ⟨honce, hbehind⟩ := not_or.1 hrest
    rw [State.ptpSync_steps (Bool.eq_false_iff.2 hclosed) (Bool.eq_false_iff.2 honce) (by omega)]
    exact congrArg (· != 0) (State.rd_wr_reg s F.CRR_PTP_STATUS_OFFSET F.CRR_PTP_CFG_P2P _ (by decide) (by decide) (by decide))

end Sync

section Messages

variable {s : State} {port : BitVec 3}

/-- A Sync of the clock's port and domain measures TIME's offset from the master. -/
theorem ptpEventMessage_sync {d : BitVec 8} {dep : Word} {del : BitVec 32} (hheld : s.pins.held = false)
    (hen : s.rdb F.CRR_PTP_CFG_EN 0 = true)
    (hport : s.rd F.CRR_PTP_CFG_PORT 0 = port.toNat) (hup : s.rdb F.CRR_PORT_STATUS_UP port.toNat = true)
    (hdomain : d.toNat = s.rd F.CRR_PTP_CFG_DOMAIN 0) (hp2p : s.rdb F.CRR_PTP_CFG_P2P 0 = true) :
    exec (.ptpEventMessage port (.sync d dep del)) s =
      .next (s.ptpSync ((s.time : Int) - (dep.toNat + del.toNat : Nat))) := by
  show execPtpEventMessage port (.sync d dep del) s = _
  unfold execPtpEventMessage
  dsimp only
  rw [if_neg (by rw [hheld, hen, hport, hup]; simp), if_neg (not_not.2 hdomain), if_pos ((s.p2p_ptpSync _).trans hp2p)]

end Messages

end Sys2Proof.Machine

namespace Sys2Proof
open Sys2Proof.Machine

/-- Settles O51: the ports command by command, then TIME by whether it is stepped. -/
theorem ethernetPortsAndTime : Obligations.EthernetPortsAndTime := by
  refine ⟨fun port s hheld => ⟨fun mode hlo hhi hrole hpost hcfg => ⟨retrain_trains hheld ⟨hlo, hhi⟩ hrole hpost hcfg,
      ethLinkUp_trains hheld ⟨hlo, hhi⟩ hrole hpost hcfg⟩, ?_, fun v hrole hsame => ?_, fun v hrole => ?_,
      fun enable pause hup hempty => pfcFrame_pauses hheld enable pause hup hempty,
      fun prio hpaused => pfcWatchdog_storms hheld hpaused,
      fun prio hstorm => pfcStormRecovery_ends hheld hstorm, fun set hup => ?_,
      fun flow r hconn hrate hbelow => rateRecovery_rises hheld hconn hrate hbelow⟩,
    fun port s hheld hen => ⟨fun hport m => ?_, ?_, fun d dep del hdomain => ?_,
      fun d dep del hport hup hdomain hp2p => ptpEventMessage_sync hheld hen hport hup hdomain hp2p,
      fun o hclosed honce hbehind => ?_, fun o hrun => ?_, ?_⟩⟩
  · refine ⟨_, congrArg Host.Outcome.next (if_neg (by rw [hheld]; exact Bool.false_ne_true)), ?_, rfl,
      fun q hq => s.txq_dropTx port.toNat hq, rfl⟩
    exact congrArg (· != 0) (State.rd_wr_self _ F.CRR_PORT_STATUS_UP port.toNat 0 (by decide))
  · refine ⟨_, congrArg Host.Outcome.next ((if_neg (by rw [hheld]; exact Bool.false_ne_true)).trans
      (State.prioMapWrite_refused hrole hsame)), rfl, State.rdb_flag_self _ _ _ (by decide) (by decide), ?_⟩
    exact State.reg_setReg_of_reg _ _ (by decide) (Nat.lt_trans port.isLt (by decide)) (Nat.lt_trans port.isLt (by decide))
  · exact ⟨_, congrArg Host.Outcome.next ((if_neg (by rw [hheld]; exact Bool.false_ne_true)).trans
      (State.prioMapWrite_taken v hrole)), rfl, fun k hk => s.prio_dscp_setReg port.toNat v hk,
      regsBut_setReg s Reg.CRR_PRIO_MAP _ (Nat.lt_trans port.isLt (by decide))⟩
  · obtain ⟨t, hexec, hflow, hframe⟩ := cnp_halves hheld hup
    refine ⟨t, hexec, hflow.trans ?_, hframe⟩
    cases Tab.find? s.eth.flows (4096 + set.toNat) <;> rfl
  · exact congrArg Host.Outcome.next (if_pos (Or.inr (Or.inr (Or.inl hport))))
  · exact congrArg Host.Outcome.next (ite_self s)
  · show execPtpEventMessage port (.sync d dep del) s = _
    unfold execPtpEventMessage
    dsimp only
    rw [if_pos hdomain, ite_self]
  · rw [State.ptpSync_steps hclosed honce hbehind]
    exact ⟨by show ((s.time + (-o).toNat : Nat) : Int) = s.time - o; omega, rfl⟩
  · obtain ⟨htime, hoffset, -⟩ := State.ptpSync_running hrun
    exact ⟨htime, fun h => State.ptpSync_far h.1 h.2, hoffset⟩
  · refine ⟨_, congrArg Host.Outcome.next (if_neg (by rw [hheld, hen]; simp)), ?_, rfl, ?_⟩
    · exact State.rd_wr_self _ F.CRR_PTP_STATUS_STATE 0 2 (by decide)
    · exact State.rd_wr_reg _ F.CRR_PTP_STATUS_STATE F.CLK_TIME_RATE_RATE _ (by decide) (by decide) (by decide)

end Sys2Proof
end

section
/-! SUPPORT. Settles O52: NVMe sets and their commands (section 13.3). -/

namespace Sys2Proof.Machine

section Sets

variable {s : State} {set : BitVec 4}

/-- The configuration words of an enable. -/
def State.nvmeWords (s : State) (n : Nat) (cfg : Word) : State :=
  (((((s.wr F.CRR_NVME_CFG_PORT n (F.CRR_NVME_CFG_PORT.get cfg)).wr F.CRR_NVME_CFG_QPS n (F.CRR_NVME_CFG_QPS.get cfg)).wr
    F.CRR_NVME_CFG_DEPTH n (F.CRR_NVME_CFG_DEPTH.get cfg)).wr F.CRR_NVME_CFG_TMO_EXP n (F.CRR_NVME_CFG_TMO_EXP.get cfg)).wr
    F.CRR_NVME_CFG_NSID n (F.CRR_NVME_CFG_NSID.get cfg)).wr F.CRR_NVME_CFG_EN n 1

/-- An enable of an OFF set takes the words; one whose checks fail says why, another goes on with what it meets. -/
theorem nvmeSetEnable_off (cfg : Word) (meets : NvmeMeet) (hheld : s.pins.held = false)
    (hoff : s.rd F.CRR_NVME_STATUS_STATE set.toNat = 0) : exec (.nvmeSetEnable set cfg meets) s =
      .next (if (s.nvmeWords set.toNat cfg).nvmeCheck set.toNat ≠ 0 then (s.nvmeWords set.toNat cfg).wr F.CRR_NVME_STATUS_RESULT
        set.toNat ((s.nvmeWords set.toNat cfg).nvmeCheck set.toNat) else (s.nvmeWords set.toNat cfg).nvmeMeets set.toNat meets) :=
  congrArg Host.Outcome.next ((if_neg (by rw [hheld]; exact Bool.false_ne_true)).trans (if_neg (not_not.2 hoff)))

theorem nvmeSetEnable_kept (cfg : Word) (meets : NvmeMeet) (hheld : s.pins.held = false)
    (hon : s.rd F.CRR_NVME_STATUS_STATE set.toNat ≠ 0) : exec (.nvmeSetEnable set cfg meets) s = .next s :=
  congrArg Host.Outcome.next ((if_neg (by rw [hheld]; exact Bool.false_ne_true)).trans (if_pos hon))

/-- Where no command is outstanding, none ends. -/
theorem State.dropSet_none (n status : Nat) (hnone : s.eth.nvme = []) : s.dropSet n status = s := by
  unfold State.dropSet
  dsimp only
  rw [hnone, List.filter_nil, List.filter_nil, List.foldl_nil, ← hnone]

/-- A disable of an OFF set leaves it OFF, without a namespace. -/
theorem nvmeSetDisable_off (hheld : s.pins.held = false) (hspace : s.space = []) (hnvme : s.eth.nvme = [])
    (hoff : s.rd F.CRR_NVME_STATUS_STATE set.toNat = 0) : ∃ t, exec (.nvmeSetDisable set) s = .next t ∧
      t.rdb F.CRR_NVME_CFG_EN set.toNat = false ∧ t.rd F.CRR_NVME_STATUS_STATE set.toNat = 0 ∧
      t.rd F.CRR_NVME_STATUS_RESULT set.toNat = 0 ∧ Tab.find? t.eth.ns set.toNat = none ∧ t.mem = s.mem := by
  have hn : set.toNat < 131072 := Nat.lt_trans set.isLt (by decide)
  let u : State := ((s.wr F.CRR_NVME_CFG_EN set.toNat 0).wr F.CRR_NVME_STATUS_STATE set.toNat 0).wr
    F.CRR_NVME_STATUS_RESULT set.toNat 0
  have hexec : exec (.nvmeSetDisable set) s = .next { u with eth := { s.eth with ns := Tab.erase s.eth.ns set.toNat } } := by
    refine congrArg Host.Outcome.next ((if_neg (by rw [hheld]; exact Bool.false_ne_true)).trans ?_)
    unfold State.nvmeDisable
    rw [hspace, List.any_nil]
    dsimp only
    rw [if_neg Bool.false_ne_true, if_pos hoff, State.dropSet_none _ _ hnvme]
    rfl
  refine ⟨_, hexec, congrArg (· != 0) (?_ : u.rd F.CRR_NVME_CFG_EN set.toNat = 0),
    (?_ : u.rd F.CRR_NVME_STATUS_STATE set.toNat = 0),
    (?_ : u.rd F.CRR_NVME_STATUS_RESULT set.toNat = 0), Tab.find?_erase_self s.eth.ns set.toNat, rfl⟩
  · exact (State.rd_wr_reg _ F.CRR_NVME_STATUS_RESULT F.CRR_NVME_CFG_EN _ (by decide) hn hn).trans
      ((State.rd_wr_reg _ F.CRR_NVME_STATUS_STATE F.CRR_NVME_CFG_EN _ (by decide) hn hn).trans
        (State.rd_wr_self s F.CRR_NVME_CFG_EN set.toNat 0 (by decide)))
  · exact (State.rd_wr_disjoint _ F.CRR_NVME_STATUS_RESULT F.CRR_NVME_STATUS_STATE _ _ rfl (by decide) (by decide)).trans
      (State.rd_wr_self _ F.CRR_NVME_STATUS_STATE set.toNat 0 (by decide))
  · exact State.rd_wr_self _ F.CRR_NVME_STATUS_RESULT set.toNat 0 (by decide)

/-- A reconnection makes a DOWN set UP again. -/
theorem nvmeReconnect_up (hheld : s.pins.held = false) (hdown : s.rd F.CRR_NVME_STATUS_STATE set.toNat = 3)
    (hlink : s.rdb F.CRR_PORT_STATUS_UP (s.rd F.CRR_NVME_CFG_PORT set.toNat) = true) : exec (.nvmeReconnect set true) s =
      .next (((s.sendEth (s.rd F.CRR_NVME_CFG_PORT set.toNat) 0 (.nvmeFabric (s.rd F.CRR_NVME_CFG_PORT set.toNat) set.toNat 1)).wr
        F.CRR_NVME_STATUS_STATE set.toNat 2).targetsUp 1 set.toNat).flow := by
  have hkept := congrArg (fun u : State => u.rdb F.CRR_PORT_STATUS_UP (s.rd F.CRR_NVME_CFG_PORT set.toNat))
    (s.sendEth_frame (s.rd F.CRR_NVME_CFG_PORT set.toNat) 0 (.nvmeFabric (s.rd F.CRR_NVME_CFG_PORT set.toNat) set.toNat 1))
  refine congrArg Host.Outcome.next ((if_neg ?_).trans (if_pos ⟨rfl, hkept.trans hlink⟩))
  rw [hheld]
  exact fun h => h.elim Bool.false_ne_true (fun h => h hdown)

theorem keepAlive_answered (hheld : s.pins.held = false) (hup : s.rd F.CRR_NVME_STATUS_STATE set.toNat = 2) :
    exec (.keepAlive set true) s = .next (s.sendEth (s.rd F.CRR_NVME_CFG_PORT set.toNat) 0
      (.nvmeFabric (s.rd F.CRR_NVME_CFG_PORT set.toNat) set.toNat 3)) := by
  refine congrArg Host.Outcome.next ((if_neg ?_).trans (if_pos rfl))
  rw [hheld]
  exact fun h => h.elim Bool.false_ne_true (fun h => h hup)

end Sets

/-! ### Commands of a set (R320, R478, R480) -/

section Commands

variable {s : State} {k : BitVec 32} {x : NvmeCmd}

/-- The state with a command off the list of those outstanding. -/
def State.nvmeTaken (s : State) (k : Nat) : State := { s with eth := { s.eth with nvme := Tab.erase s.eth.nvme k } }

/-- What comes for a command that has ended does nothing. -/
theorem nvme_ended (hnone : Tab.find? s.eth.nvme k.toNat = none) (hheld : s.pins.held = false) :
    exec (.moorCompletion k 0 false) s = .next s ∧ exec (.moorTimeout none k) s = .next s ∧
      exec (.localAckTimeout k) s = .next s ∧ exec (.rdmaRead k 0 1 false) s = .next s ∧
      exec (.rdmaWrite k 0 [0] false) s = .next s := by
  refine ⟨?_, ?_, ?_, ?_, ?_⟩
  · show execMoorCompletion k 0 false s = _
    unfold execMoorCompletion
    dsimp only
    rw [hnone]
  · show execMoorTimeout none k s = _
    unfold execMoorTimeout
    dsimp only
    rw [if_neg (by rw [hheld]; exact Bool.false_ne_true), hnone]
  · show execLocalAckTimeout k s = _
    unfold execLocalAckTimeout
    dsimp only
    rw [hnone]
  · show execRdmaRead k 0 1 false s = _
    unfold execRdmaRead
    dsimp only
    rw [hnone]
  · show execRdmaWrite k 0 [0] false s = _
    unfold execRdmaWrite
    dsimp only
    rw [hnone]

/-- A completion ends its command, once: its item ends, failed where the status is not 0. -/
theorem moorCompletion_ends {i : Nat} (hheld : s.pins.held = false) (hfound : Tab.find? s.eth.nvme k.toNat = some x)
    (hitem : x.item = some i) (st : BitVec 16) : exec (.moorCompletion k st false) s =
      .next ((s.nvmeTaken k.toNat).moorDone i (if st = 0 then none else some 0x0042)).flow := by
  show execMoorCompletion k st false s = _
  unfold execMoorCompletion
  dsimp only
  rw [hfound]
  dsimp only
  rw [if_neg (by rw [hheld]; exact Bool.false_ne_true), hitem]
  rfl

/-- A command that reaches the target's timeout is aborted. -/
theorem moorTimeout_aborts {i : Nat} (hheld : s.pins.held = false) (hfound : Tab.find? s.eth.nvme k.toNat = some x)
    (hitem : x.item = some i) : exec (.moorTimeout none k) s =
      .next (((s.nvmeTaken k.toNat).sendEth (s.rd F.CRR_NVME_CFG_PORT x.set) 0
        (.nvmeFabric (s.rd F.CRR_NVME_CFG_PORT x.set) x.set 4)).moorDone i (some 0x0042)).flow := by
  show execMoorTimeout none k s = _
  unfold execMoorTimeout
  dsimp only
  rw [if_neg (by rw [hheld]; exact Bool.false_ne_true), hfound]
  dsimp only
  rw [hitem]
  rfl

theorem localAckTimeout_exhausted (hheld : s.pins.held = false) (hfound : Tab.find? s.eth.nvme k.toNat = some x)
    (hlast : 7 ≤ x.retries) : exec (.localAckTimeout k) s = .next (s.setDown x.set) := by
  show execLocalAckTimeout k s = _
  unfold execLocalAckTimeout
  dsimp only
  rw [hfound]
  dsimp only
  rw [if_neg (by rw [hheld]; exact Bool.false_ne_true), if_pos hlast]

/-- Sending a message changes only what was sent and what waits to be sent. -/
theorem State.sendEth_keeps_all {α : Type} (s : State) (port kind : Nat) (m : Msg) (g : State → α)
    (hg : ∀ o q, g { s with out := o, txq := q } = g s) : g (s.sendEth port kind m) = g s := by
  rw [State.sendEth_frame]
  exact hg _ _

/-- A message goes out at once on a port that is up and whose priority is not paused. -/
theorem State.sendEth_emits {port kind : Nat} (m : Msg) (hup : s.rdb F.CRR_PORT_STATUS_UP port = true)
    (hgoes : s.pausedPrio port (s.prio port kind) = false) : s.sendEth port kind m = s.emit m := by
  unfold State.sendEth
  dsimp only
  rw [if_neg (by rw [hup]; exact Bool.false_ne_true), if_neg (by rw [hgoes]; exact Bool.false_ne_true)]

/-- A retry of the transport is counted and sends the command again. -/
theorem localAckTimeout_retries (hheld : s.pins.held = false) (hfound : Tab.find? s.eth.nvme k.toNat = some x)
    (hmore : x.retries < 7) : ∃ t y, exec (.localAckTimeout k) s = .next t ∧ Tab.find? t.eth.nvme k.toNat = some y ∧
      y = { x with retries := x.retries + 1 } ∧ t.regs = s.regs ∧ t.mem = s.mem := by
  have hexec : exec (.localAckTimeout k) s = .next (({ s with eth := { s.eth with
      nvme := Tab.put s.eth.nvme k.toNat { x with retries := x.retries + 1 } } }).sendNvme k.toNat x) := by
    show execLocalAckTimeout k s = _
    unfold execLocalAckTimeout
    dsimp only
    rw [hfound]
    dsimp only
    rw [if_neg (by rw [hheld]; exact Bool.false_ne_true), if_neg (by omega)]
  exact ⟨_, _, hexec, (State.sendEth_keeps_all _ _ _ _ (fun u => Tab.find? u.eth.nvme k.toNat) fun _ _ => rfl).trans
    (Tab.find?_put_self _ _ _), rfl, State.sendEth_keeps_all _ _ _ _ State.regs fun _ _ => rfl,
    State.sendEth_keeps_all _ _ _ _ State.mem fun _ _ => rfl⟩

/-- A packet of the queue pair that is not marked changes the command's record only. -/
theorem State.roceSeen_frame (s : State) (k : Nat) (x : NvmeCmd) (n : Nat) :
    s.roceSeen k x n false = { s with eth := { s.eth with
      nvme := Tab.put s.eth.nvme k { x with retries := 0, moved := x.moved + n } } } :=
  rfl

/-- A target's read of a write command's data is answered with the bytes. -/
theorem rdmaRead_sends {o : BitVec 17} {n : BitVec 18} (hheld : s.pins.held = false)
    (hfound : Tab.find? s.eth.nvme k.toNat = some x) (hwrite : x.write = true) (hin : o.toNat + n.toNat ≤ x.count * 4096)
    (hup : s.rdb F.CRR_PORT_STATUS_UP (s.rd F.CRR_NVME_CFG_PORT x.set) = true)
    (hgoes : s.pausedPrio (s.rd F.CRR_NVME_CFG_PORT x.set) (s.prio (s.rd F.CRR_NVME_CFG_PORT x.set) 0) = false) : ∃ t,
      exec (.rdmaRead k o n false) s = .next t ∧ t.mem = s.mem ∧ t.out = s.out ++ [.rdmaData (s.rd F.CRR_NVME_CFG_PORT x.set)
        k.toNat (s.bytes (moorKey x.target (x.lba * 4096) + o.toNat) n.toNat)] := by
  have hexec : exec (.rdmaRead k o n false) s = .next ((s.roceSeen k.toNat x n.toNat false).sendEth
      (s.rd F.CRR_NVME_CFG_PORT x.set) 0 (.rdmaData (s.rd F.CRR_NVME_CFG_PORT x.set) k.toNat
        (s.bytes (moorKey x.target (x.lba * 4096) + o.toNat) n.toNat))) := by
    show execRdmaRead k o n false s = _
    unfold execRdmaRead
    dsimp only
    rw [hfound]
    dsimp only
    rw [if_neg ?_]
    rw [hheld, hwrite]
    exact fun h => h.elim Bool.false_ne_true (fun h => h.elim Bool.false_ne_true (Nat.not_lt.2 hin))
  exact ⟨_, hexec.trans (congrArg Host.Outcome.next (State.sendEth_emits (s := s.roceSeen k.toNat x n.toNat false) _ hup hgoes)),
    rfl, rfl⟩

/-- Read data a target places is in the memory of its place, and nowhere else. -/
theorem rdmaWrite_places {o : BitVec 17} {data : List Byte} (hheld : s.pins.held = false)
    (hfound : Tab.find? s.eth.nvme k.toNat = some x) (hread : x.write = false) (hin : o.toNat + data.length ≤ x.count * 4096) : ∃ t,
      exec (.rdmaWrite k o data false) s = .next t ∧
      t.bytes (moorKey x.target (x.lba * 4096) + o.toNat) data.length = data ∧
      memBut s t (moorKey x.target (x.lba * 4096) + o.toNat) data.length ∧ t.regs = s.regs := by
  have hexec : exec (.rdmaWrite k o data false) s = .next { s.roceSeen k.toNat x data.length false with
      mem := memStore s.mem (moorKey x.target (x.lba * 4096) + o.toNat) data } := by
    show execRdmaWrite k o data false s = _
    unfold execRdmaWrite
    dsimp only
    rw [hfound]
    dsimp only
    rw [if_neg ?_]
    · rfl
    · rw [hheld, hread]
      exact fun h => h.elim Bool.false_ne_true (fun h => h.elim Bool.false_ne_true (Nat.not_lt.2 hin))
  refine ⟨_, hexec, State.bytes_memStore (s.roceSeen k.toNat x data.length false) _ data, fun j hj => ?_, rfl⟩
  show Tab.get 0 (memStore s.mem _ data) j = _
  rw [get_memStore, if_neg (by omega)]
  rfl

/-- A request to a Courier target that reaches the timeout ends. -/
theorem moorTimeout_courier {c : BitVec 12} {r : CrrReq} (hheld : s.pins.held = false)
    (hfound : (s.conn c.toNat).reqs.find? (fun r => r.trans == k.toNat && decide (0x0C ≤ r.opcode)) = some r) :
    exec (.moorTimeout (some c) k) s = .next ((s.dropReq c.toNat k.toNat r.opcode).moorDone r.item (some 0x0042)).flow := by
  show execMoorTimeout (some c) k s = _
  unfold execMoorTimeout
  dsimp only
  rw [if_neg (by rw [hheld]; exact Bool.false_ne_true), hfound]

end Commands

end Sys2Proof.Machine

namespace Sys2Proof
open Sys2Proof.Machine

/-- Settles O52: the sets by their state, then the commands by whether they are outstanding. -/
theorem nvmeSets : Obligations.NvmeSets := by
  intro s hheld
  refine ⟨fun set cfg meets => ⟨nvmeSetEnable_kept cfg meets hheld, fun hoff hcheck => ?_, fun hoff hcheck => ?_,
      nvmeSetDisable_off hheld, fun _ => congrArg Host.Outcome.next (if_neg (by rw [hheld]; exact Bool.false_ne_true)),
      fun hdown hlink => ⟨_, nvmeReconnect_up hheld hdown hlink, rfl⟩, keepAlive_answered hheld⟩,
    fun k hnone => nvme_ended hnone hheld, fun k x i hfound hitem => ⟨moorCompletion_ends hheld hfound hitem 0, fun st hst => ?_,
      moorTimeout_aborts hheld hfound hitem, localAckTimeout_exhausted hheld hfound, localAckTimeout_retries hheld hfound⟩,
    fun k x o hfound => ⟨fun n hwrite hin hup hgoes => rdmaRead_sends hheld hfound hwrite hin hup hgoes,
      fun data hread hin => rdmaWrite_places hheld hfound hread hin⟩, fun c k r hfound => moorTimeout_courier hheld hfound⟩
  · exact (nvmeSetEnable_off cfg meets hheld hoff).trans (congrArg Host.Outcome.next (if_pos hcheck))
  · exact (nvmeSetEnable_off cfg meets hheld hoff).trans (congrArg Host.Outcome.next (if_neg (not_not.2 hcheck)))
  · exact (moorCompletion_ends hheld hfound hitem st).trans (by rw [if_neg hst]; rfl)

end Sys2Proof
end

section
/-! SUPPORT. Settles O28: address translation services and IDE (sections 12.6 and 12.11). -/

namespace Sys2Proof.Machine

section Translation

variable {s : State} {fn : BitVec 5} {page : Word}

/-- The entry a completion puts into the translation cache. -/
def atsEntry (fn : BitVec 5) (page target : Word) (size : Nat) : AtsEnt where
  fn := fn.toNat
  page := page.toNat / 4096 * 4096 / min (max size 4096) (2 ^ 30) * min (max size 4096) (2 ^ 30)
  size := min (max size 4096) (2 ^ 30)
  target := target.toNat / min (max size 4096) (2 ^ 30) * min (max size 4096) (2 ^ 30)
  write := true

/-- An empty cache holds the new entry alone. -/
theorem State.cacheAts_empty (e : AtsEnt) (hnone : s.host.ats = []) : (s.cacheAts e).host.ats = [e] := by
  unfold State.cacheAts
  dsimp only
  rw [hnone, List.filter_nil, List.nil_append, List.length_singleton, Nat.sub_eq_zero_of_le (by decide), List.drop_zero]

/-- A completion that grants what was asked is cached, and its users retry. -/
theorem translationCompletion_caches (target : Word) (size : Nat) (hheld : s.pins.held = false) (hfn : s.fnExists fn.toNat = true)
    (hon : s.host.atsOn.testBit fn.toNat = true) : exec (.translationCompletion fn page target size true true) s =
      .next ((s.cacheAts (atsEntry fn page target size)).atsRetry fn.toNat) := by
  refine congrArg Host.Outcome.next (if_neg ?_)
  rw [hheld, hfn, hon]
  exact Bool.false_ne_true

/-- The cache without what an invalidation covers. -/
def State.atsBut (s : State) (fn page size : Nat) : List AtsEnt :=
  s.host.ats.filter (fun x => !(x.fn == fn && overlaps x.page x.size page size))

/-- What an invalidation drops is what it covers. -/
theorem atsBut_drops (l : List AtsEnt) (p : AtsEnt → Bool) :
    l.filter (fun x => !(l.filter p).contains x) = l.filter (fun x => !p x) :=
  List.filter_congr fun x hx => by
    cases hp : p x with
    | true => rw [List.contains_iff_mem.2 (List.mem_filter.2 ⟨hx, hp⟩)]
    | false =>
      have hnot : (l.filter p).contains x ≠ true := fun h =>
        Bool.false_ne_true (hp.symm.trans (List.mem_filter.1 (List.contains_iff_mem.1 h)).2)
      rw [Bool.eq_false_of_not_eq_true hnot]

/-- With no read out, an invalidation completes at once. -/
theorem invalidationRequest_completes (size : Nat) (hheld : s.pins.held = false) (hfn : s.fnExists fn.toNat = true)
    (hreads : s.host.reads = []) (hinvals : s.host.invals = []) : ∃ t, exec (.invalidationRequest fn page size) s = .next t ∧
      t.host.ats = s.atsBut fn.toNat (page.toNat / 4096 * 4096) (max size 4096) ∧
      t.out = s.out ++ [.invalDone fn.toNat (page.toNat / 4096 * 4096)] ∧ t = { s with host := t.host, out := t.out } := by
  have hexec : exec (.invalidationRequest fn page size) s = .next (({ s with host := { s.host with
      ats := s.atsBut fn.toNat (page.toNat / 4096 * 4096) (max size 4096), invals := [] } } : State).emit
      (.invalDone fn.toNat (page.toNat / 4096 * 4096))) := by
    show execInvalidationRequest fn page size s = _
    unfold execInvalidationRequest
    dsimp only
    rw [if_neg (by rw [hheld, hfn]; exact Bool.false_ne_true), atsBut_drops, hreads, hinvals]
    rfl
  exact ⟨_, hexec, rfl, rfl, rfl⟩

section Answers

variable (hheld : s.pins.held = false) (hasked : s.host.pageReqs.contains (fn.toNat, page.toNat / 4096 * 4096) = true)
include hheld hasked

theorem pageRequest_outstanding : ¬(s.pins.held || !s.host.pageReqs.contains (fn.toNat, page.toNat / 4096 * 4096)) = true := by
  rw [hheld, hasked]
  exact Bool.false_ne_true

/-- Success asks for the translation again. -/
theorem pageRequestResponse_success : exec (.pageRequestResponse fn page 0) s =
    .next ((s.donePage fn.toNat (page.toNat / 4096 * 4096)).emit (.atsRequest fn.toNat (page.toNat / 4096 * 4096))) := by
  have hpage : page.toNat / 4096 * 4096 / 4096 * 4096 = page.toNat / 4096 * 4096 := by
    rw [Nat.mul_div_cancel _ (by decide)]
  have hasks := congrArg (fun a => (s.donePage fn.toNat (page.toNat / 4096 * 4096)).emit (.atsRequest fn.toNat a)) hpage
  exact congrArg Host.Outcome.next ((if_neg (pageRequest_outstanding hheld hasked)).trans hasks)

/-- Another answer ends what waited with ATS_FAULT. -/
theorem pageRequestResponse_failure : exec (.pageRequestResponse fn page 1) s = .next ((s.donePage fn.toNat
    (page.toNat / 4096 * 4096)).atsFault fn.toNat (page.toNat / 4096 * 4096)).flow :=
  congrArg Host.Outcome.next (if_neg (pageRequest_outstanding hheld hasked))

theorem priTimeout_fails : exec (.priTimeout fn page) s = .next ((s.donePage fn.toNat
    (page.toNat / 4096 * 4096)).atsFault fn.toNat (page.toNat / 4096 * 4096)).flow :=
  congrArg Host.Outcome.next (if_neg (pageRequest_outstanding hheld hasked))

end Answers

end Translation

/-- A Secure stream whose check fails is Insecure, and its port reports it. -/
def State.ideInsecure (s : State) (port : BitVec 3) (stream : BitVec 4) : State :=
  (State.wr { s with host := { s.host with ide := Tab.set 0 s.host.ide (port.toNat * 16 + stream.toNat) 3, reads := [] } }
    F.HOST_IDE_STATUS_INSECURE port.toNat (s.rd F.HOST_IDE_STATUS_INSECURE port.toNat ||| 2 ^ stream.toNat)).emit
    (.aer (s.portFn port.toNat) aerIde)

section Ide

variable {s : State} {port : BitVec 3} {stream : BitVec 4}

/-- The status of a port's streams says nothing of the port's role. -/
theorem State.portFn_wr_insecure (s : State) (n v : Nat) (hn : n < 8) :
    (s.wr F.HOST_IDE_STATUS_INSECURE n v).portFn n = s.portFn n := by
  unfold State.portFn State.role
  rw [State.rd_wr_reg s _ F.SYS_PORT_MAP_X16_ROLE v (by decide) (Nat.lt_trans hn (by decide)) (by decide)]

theorem ideCheckFail_insecure (hheld : s.pins.held = false) (hstream : stream.toNat ≤ 8)
    (hrole : s.role port.toNat = 1 ∨ s.role port.toNat = 2) (hsecure : Tab.get 0 s.host.ide (port.toNat * 16 + stream.toNat) = 2)
    (hreads : s.host.reads = []) : exec (.ideCheckFail port stream) s = .next (s.ideInsecure port stream).flow := by
  have hcarries : (s.role port.toNat != 1 && s.role port.toNat != 2) = false := by
    rcases hrole with h | h <;> rw [h] <;> rfl
  show execIdeCheckFail port stream s = _
  unfold execIdeCheckFail
  dsimp only
  rw [if_neg ?_, hreads, List.filter_nil, List.map_nil, List.foldl_nil]
  · unfold State.ideInsecure
    rw [State.portFn_wr_insecure _ _ _ port.isLt]
    rfl
  · rw [hheld, hcarries, hsecure, decide_eq_false (Nat.not_lt.2 hstream)]
    exact Bool.false_ne_true

/-- A bit within a field's width reads 1 once it is or-ed into the field. -/
theorem State.testBit_rd_or (s : State) (f : Fld) (i n b : Nat) (hb : b < f.width) (hf : f.lo + f.width ≤ 64) :
    ((s.wr f i (n ||| 2 ^ b)).rd f i).testBit b = true := by
  rw [State.rd_wr_self s f i _ hf, Nat.testBit_mod_two_pow, Nat.testBit_or, Nat.testBit_two_pow_self, Bool.or_true,
    decide_eq_true hb]
  rfl

theorem State.ideInsecure_shows (s : State) (hstream : stream.toNat ≤ 8) :
    ((s.ideInsecure port stream).rd F.HOST_IDE_STATUS_INSECURE port.toNat).testBit stream.toNat = true :=
  State.testBit_rd_or _ F.HOST_IDE_STATUS_INSECURE port.toNat _ _ (Nat.lt_succ_of_le hstream) (by decide)

end Ide

end Sys2Proof.Machine

namespace Sys2Proof
open Sys2Proof.Machine

/-- Settles O28: completions, invalidations and page responses, then the failed check of a stream. -/
theorem translationServicesAndIde : Obligations.TranslationServicesAndIde := by
  intro s hheld
  refine ⟨fun fn page target size hfn hon hnone => ⟨_, translationCompletion_caches target size hheld hfn hon, rfl,
      State.cacheAts_empty _ hnone⟩,
    fun fn page size hfn hreads hinvals => invalidationRequest_completes size hheld hfn hreads hinvals,
    fun fn page hasked => ⟨pageRequestResponse_success hheld hasked, pageRequestResponse_failure hheld hasked,
      priTimeout_fails hheld hasked⟩,
    fun port stream hstream hrole hsecure hreads => ⟨_, ideCheckFail_insecure hheld hstream hrole hsecure hreads,
      Tab.get_set_self 0 s.host.ide _ 3, State.ideInsecure_shows s hstream, rfl⟩⟩

end Sys2Proof
end

section
/-! SUPPORT. Settles O29: the SPDM responder, the debug unlock and the keys of IDE streams (sections 14.7 and 12.11). -/

namespace Sys2Proof.Machine

section Responder

variable {s : State} (hup : s.spdmUp = true)
include hup

/-- The firmware answers. -/
theorem State.spdmUp_not : ¬(!s.spdmUp) = true := by
  rw [hup]
  exact Bool.false_ne_true

theorem getVersion_answers : exec .getVersion s = .next (({ s with spdm := { s.spdm with phase := 1 } }).answer .version) :=
  congrArg Host.Outcome.next (if_pos hup)

theorem getCapabilities_answers (h : s.spdm.phase = 1) :
    exec .getCapabilities s = .next (({ s with spdm := { s.spdm with phase := 2 } }).answer .capabilities) :=
  congrArg Host.Outcome.next ((if_neg (State.spdmUp_not hup)).trans (if_neg (not_not.2 h)))

theorem negotiateAlgorithms_answers (h : s.spdm.phase = 2) :
    exec (.negotiateAlgorithms true) s = .next (({ s with spdm := { s.spdm with phase := 3 } }).answer .algorithms) :=
  congrArg Host.Outcome.next ((if_neg (State.spdmUp_not hup)).trans
    (if_neg fun hor => hor.elim (fun hne => hne h) Bool.false_ne_true))

theorem negotiateAlgorithms_outOfOrder (h : s.spdm.phase ≠ 2) :
    exec (.negotiateAlgorithms true) s = .next (s.answer .errorProtocol) :=
  congrArg Host.Outcome.next ((if_neg (State.spdmUp_not hup)).trans (if_pos (Or.inl h)))

/-- A request of slot 0 after the negotiation is served where it needs no key, or the key is there. -/
theorem State.spdmSlot_serves (h : s.spdm.phase = 3) (needsKey : Bool) (f : State → State)
    (hkey : needsKey = true → s.spdm.aliasKey = true) : s.spdmSlot 0 needsKey f = .next (f s) := by
  have hhas : ¬(needsKey && !s.spdm.aliasKey) = true := fun hmiss => by
    obtain ⟨hneed, hnone⟩ := Bool.and_eq_true_iff.1 hmiss
    rw [hkey hneed] at hnone
    exact Bool.false_ne_true hnone
  exact congrArg Host.Outcome.next ((if_neg (State.spdmUp_not hup)).trans
    ((if_neg fun hor => hor.elim (fun hne => hne h) fun hne => hne rfl).trans (if_neg hhas)))

/-- A request that needs no key. -/
theorem State.spdmSlot_keyless (h : s.spdm.phase = 3) (f : State → State) : s.spdmSlot 0 false f = .next (f s) :=
  State.spdmSlot_serves hup h false f fun hno => absurd hno Bool.false_ne_true

/-- The chain, a signed challenge and a key exchange want the key. -/
theorem spdmKeyed_answers (h : s.spdm.phase = 3) (hkey : s.spdm.aliasKey = true) :
    exec (.getCertificate 0) s = .next (s.answer .certificate) ∧ exec (.challenge 0) s = .next (s.answer .challengeAuth) ∧
      exec (.keyExchange 0) s = .next (({ s with spdm := { s.spdm with handshake := true } }).answer .keyExchange) :=
  ⟨State.spdmSlot_serves hup h true (State.answer · .certificate) fun _ => hkey,
    State.spdmSlot_serves hup h true (State.answer · .challengeAuth) fun _ => hkey,
    State.spdmSlot_serves hup h true (fun s => State.answer { s with spdm := { s.spdm with handshake := true } } .keyExchange)
      fun _ => hkey⟩

/-- Measurement index 0 answers the number of blocks. -/
theorem getMeasurements_count (h : s.spdm.phase = 3) :
    exec (.getMeasurements 0 false) s = .next (s.answer (.measurements false [(0, [40])])) := by
  show execGetMeasurements 0 false s = _
  unfold execGetMeasurements
  rw [State.spdmSlot_keyless hup h]
  rfl

/-- FINISH ends the handshake: its session is up where the MAC holds. -/
theorem finish_ends (h : s.spdm.phase = 3) (hhand : s.spdm.handshake = true) :
    exec (.finish true) s = .next (({ s with spdm := { s.spdm with handshake := false, session := true } }).answer .finish) ∧
    exec (.finish false) s = .next (({ s with spdm := { s.spdm with handshake := false } }).answer .errorProtocol) := by
  have hin : ¬(!s.spdm.handshake) = true := by
    rw [hhand]
    exact Bool.false_ne_true
  constructor
  · show execFinish true s = _
    unfold execFinish
    rw [State.spdmSlot_keyless hup h]
    exact congrArg Host.Outcome.next ((if_neg hin).trans (if_neg Bool.false_ne_true))
  · show execFinish false s = _
    unfold execFinish
    rw [State.spdmSlot_keyless hup h]
    exact congrArg Host.Outcome.next ((if_neg hin).trans (if_pos rfl))

/-- A request in a session is served. -/
theorem State.spdmSession_serves (h : s.spdm.session = true) (f : State → State) : s.spdmSession f = .next (f s) :=
  congrArg Host.Outcome.next ((if_neg (State.spdmUp_not hup)).trans (if_neg (by rw [h]; exact Bool.false_ne_true)))

theorem sessionRequests_answer (h : s.spdm.session = true) :
    exec .heartbeat s = .next (s.answer .heartbeatAck) ∧ exec .keyUpdate s = .next (s.answer .keyUpdateAck) ∧
      exec .endSession s = .next (({ s with spdm := { s.spdm with session := false } }).answer .endSessionAck) :=
  ⟨State.spdmSession_serves hup h (State.answer · .heartbeatAck), State.spdmSession_serves hup h (State.answer · .keyUpdateAck),
    State.spdmSession_serves hup h fun s => State.answer { s with spdm := { s.spdm with session := false } } .endSessionAck⟩

/-- A genuine unlock destroys the copy of the unique secret. -/
theorem debugUnlock_genuine : exec (.debugUnlock true) s =
    .next (({ s with boot := { s.boot with secret := false } }).wr F.MGT_SEC_STATUS_DEBUG_UNLOCKED 0 1) :=
  congrArg Host.Outcome.next (if_pos ⟨hup, rfl⟩)

omit hup in
theorem debugUnlock_false : exec (.debugUnlock false) s = .next s :=
  congrArg Host.Outcome.next (if_neg fun h => Bool.false_ne_true h.2)

/-- DOE Discovery answers the protocols in turn, and 0 after the last. -/
theorem doeDiscovery_answers {n : Nat} {index : BitVec 8} (hn : n ≤ 65536) (hindex : index.toNat < 3) :
    exec (.doeDiscovery n index) s =
      .next (s.answer (.discovery index.toNat index.toNat (if index = 2 then 0 else index.toNat + 1))) :=
  congrArg Host.Outcome.next ((if_neg (State.spdmUp_not hup)).trans
    ((if_neg (Nat.not_lt.2 hn)).trans (if_neg (Nat.not_le.2 hindex))))

end Responder

/-! ### Keys of an IDE stream (R464, R466) -/

/-- The state of a stream once fresh keys are programmed: keyed, or Insecure with fresh keys. -/
def keyed (old : Nat) : Nat := if old = 0 then 1 else if old = 3 then 4 else old

/-- The state with an IDE stream's own. -/
def State.setIde (s : State) (port : BitVec 3) (stream : BitVec 8) (st : Nat) : State :=
  { s with host := { s.host with ide := Tab.set 0 s.host.ide (port.toNat * 16 + stream.toNat) st } }

section Keys

variable {s : State} {port : BitVec 3} {stream : BitVec 8}

theorem ideKmKeyProg_keys (hup : s.spdmUp = true) (hsession : s.spdm.session = true)
    (hport : s.idePort port.toNat stream.toNat = true) : exec (.ideKmKeyProg port stream) s =
      .next ((s.setIde port stream (keyed (Tab.get 0 s.host.ide (port.toNat * 16 + stream.toNat)))).answer
        (.keyProgAck port.toNat stream.toNat true)) := by
  show execIdeKmKeyProg port stream s = _
  unfold execIdeKmKeyProg
  rw [State.spdmSession_serves hup hsession]
  exact congrArg Host.Outcome.next (if_neg (by rw [hport]; exact Bool.false_ne_true))

theorem kSetGo_secures (hup : s.spdmUp = true) (hsession : s.spdm.session = true)
    (hport : s.idePort port.toNat stream.toNat = true) (hkeyed : Tab.get 0 s.host.ide (port.toNat * 16 + stream.toNat) ≠ 0)
    (hfresh : Tab.get 0 s.host.ide (port.toNat * 16 + stream.toNat) ≠ 3) : exec (.kSetGo port stream) s =
      .next ((s.setIde port stream 2).answer (.setGoAck port.toNat stream.toNat)).flow := by
  show execKSetGo port stream s = _
  unfold execKSetGo
  rw [State.spdmSession_serves hup hsession]
  refine congrArg Host.Outcome.next (if_neg ?_)
  rw [hport]
  exact fun h => h.elim Bool.false_ne_true fun h => h.elim hkeyed hfresh

end Keys

end Sys2Proof.Machine

namespace Sys2Proof
open Sys2Proof.Machine

/-- Settles O29: negotiation, then what needs it, sessions, the debug unlock, discovery, and keys. -/
theorem spdmResponder : Obligations.SpdmResponder := by
  intro s hheld hruns answers
  have hup : s.spdmUp = true := by
    unfold State.spdmUp
    rw [hheld, hruns]
    rfl
  refine ⟨⟨_, getVersion_answers hup, rfl, rfl⟩, fun h => ⟨_, getCapabilities_answers hup h, rfl, rfl⟩,
    fun h => ⟨_, negotiateAlgorithms_answers hup h, rfl, rfl⟩, fun h => ⟨_, negotiateAlgorithms_outOfOrder hup h, rfl, rfl⟩,
    fun h => ⟨⟨_, State.spdmSlot_keyless hup h (State.answer · .digests), rfl, rfl⟩, fun hkey => ?_,
      ⟨_, getMeasurements_count hup h, rfl, rfl⟩, fun hhand => ⟨_, (finish_ends hup h hhand).1, rfl, rfl, rfl⟩,
      fun hhand => ⟨_, (finish_ends hup h hhand).2, rfl, rfl, rfl⟩⟩,
    fun h => ?_,
    ⟨_, debugUnlock_genuine hup, rfl, congrArg (· != 0) (State.rd_wr_self _ F.MGT_SEC_STATUS_DEBUG_UNLOCKED 0 1 (by decide)), rfl⟩,
    debugUnlock_false, fun n hn => ⟨⟨_, doeDiscovery_answers hup hn (by decide), rfl⟩,
    ⟨_, doeDiscovery_answers hup hn (by decide), rfl⟩⟩,
    fun port stream hsession hport => ⟨⟨_, ideKmKeyProg_keys hup hsession hport, rfl, Tab.get_set_self 0 s.host.ide _ _⟩,
      fun hkeyed hfresh => ⟨_, kSetGo_secures hup hsession hport hkeyed hfresh, rfl, Tab.get_set_self 0 s.host.ide _ 2⟩⟩⟩
  · obtain ⟨hcertificate, hchallenge, hexchange⟩ := spdmKeyed_answers hup h hkey
    exact ⟨⟨_, hcertificate, rfl, rfl⟩, ⟨_, hchallenge, rfl, rfl⟩, ⟨_, hexchange, rfl, rfl⟩⟩
  · obtain ⟨hheartbeat, hupdate, hend⟩ := sessionRequests_answer hup h
    exact ⟨⟨_, hheartbeat, rfl, rfl⟩, ⟨_, hupdate, rfl, rfl⟩, ⟨_, hend, rfl, rfl⟩⟩

end Sys2Proof
end
